-- ==== Sys2Proof/Syntax.lean ====
section
/-!
DEFINITION. The commands of the block: one constructor per row of spec/opcode_table.json, in the table's order. The operands
of a row are what its sender chooses (the word written, the channel) or what the outside world decides about the event
(where in the tick an edge falls, what a measurement reads); everything else comes from the state.
-/
namespace Sys2Proof

/-- Who reads or writes (R25, R569, R574): a PCIe requester, the Clerk, the I2C port. -/
inductive Requester | host | clerk | i2c
  deriving DecidableEq, Repr

/-- Who reads a register whose read latches a shadow; `shared` says that an I2C read falls in the same core cycle as a 4-byte host read
of that register (R618). -/
structure Reader where
  who : Requester
  shared : Bool
  deriving DecidableEq, Repr

/-- What befalls the registers of an I2C read, by their place in it: those that do not answer in time (R574), and those read in the
core cycle of a 4-byte host read (R618). -/
structure I2cMarks where
  silent : List Nat
  shared : List Nat
  deriving DecidableEq, Repr

/-- What the error codes find in an SRAM granule (R351, R352) or in a DRAM burst that the scrubber reads (R581, R582). -/
inductive Ecc | clean | fixed | lost
  deriving DecidableEq, Repr

/-- What a DRAM read finds (R391): nothing; an error that the link code corrected or detected; one that the controller's code
corrected or detected; a burst still uncorrected after its replays. -/
inductive DramFinding | clean | linkFixed | linkBad | codeFixed | codeBad | lost
  deriving DecidableEq, Repr

/-- Who reads an SRAM array (R352). -/
inductive SramReader | sequencer | staging | clerk
  deriving DecidableEq, Repr

/-- The class of a ring cell (R409), without the HALT symbol; `reserved` is the kind of the cell that the lane gave (R413), `own` says that the
cell comes back to its originator (R412). -/
inductive CellClass
  | idle (reserved : Bool)
  | event (reserved : Bool)
  | control (own : Bool)
  | message (own : Bool)
  deriving DecidableEq, Repr

/-- The samples of a channel's two converters, Sense A and Sense B, in the time of a tap's output, in their order (R243, R245, R247). -/
structure SenseCodes where
  a : List (BitVec 16)
  b : List (BitVec 16)
  deriving DecidableEq, Repr

/-- What a sweep finds of a lane (R396): the first step of the longest run of delays that pass, and how many pass. -/
structure LaneWindow where
  first : BitVec 8
  steps : BitVec 8
  deriving DecidableEq, Repr

/-- A sample of a channel's load (R236, R245): the output voltage in 0.1 V and the Sense B code, both signed. -/
structure LoadSample where
  v : BitVec 16
  i : BitVec 16
  deriving DecidableEq, Repr

/-- What a CONTROL cell says (R422, R430, R431, R433, R437 to R439, R448 to R450, R452); the layouts are not published. Among the rest
`steady`: no member has found a link whose delay has moved (R433); `loop`: whether the loop is closed (R431); `place`: how many hops away a
member lies on each lane, 511 where the lane does not reach it (R439); `rejoinReq`: a piece has run steps 3 to 5 of R425 (R452). -/
inductive RingAction
  | other
  | crsLen (len : BitVec 16) (land : BitVec 64)
  | shift (ticks : BitVec 16) (land : BitVec 64)
  | lmin (value : BitVec 8) (land : BitVec 64)
  | joins (index : Fin 512) (land : BitVec 64)
  | admission (rejoin : Bool) (index : Fin 512) (own land : BitVec 64) (len : BitVec 16) (tcount : BitVec 64) (roster : List (Fin 512)) (root : Fin 512) (lmin : BitVec 8)
  | refuse (repeater : Bool)
  | haltRel (land : BitVec 64)
  | haltReq
  | claim (index : BitVec 10) (prio : BitVec 8) (uid : BitVec 40) (last : Bool)
  | noCandidate
  | counts (members lowest : BitVec 10) (root : Bool)
  | decision (land : BitVec 64)
  | evict (index : Fin 512)
  | calibrate (index : Fin 512) (port : Fin 2)
  | recal (index : Fin 512) (port : Fin 2)
  | recalDone (index : Fin 512) (port : Fin 2)
  | steady
  | loop (closed : Bool)
  | place (index : Fin 512) (east west : BitVec 9)
  | rejoinReq
  | rootIs (index : Fin 512)
  | idle (all : Bool)
  deriving DecidableEq, Repr

/-- What the boot flow meets outside the block (R396, R542, R544, R550): REFCLK has edges, the first valid boot loader copy,
the flash suspends, its identification, whether the images in slots A and B verify, and the windows of the delay sweeps, those
of rank r of channel n at 2n + r in their order. -/
structure BootNews where
  refclk : Bool
  loader : Option (Fin 2)
  suspend : Bool
  jedec : BitVec 24
  imgA : Bool
  imgB : Bool
  sweeps : List (List (List LaneWindow))
  deriving DecidableEq, Repr


/-- The width that the PCIe link has trained to (R482). -/
inductive LinkWidth | x1 | x2 | x4
  deriving DecidableEq, Repr

/-- What a register write that begins work outside the block meets there: a flash store that it begins verifies (R584), the HV
segments that pass the test it asks for (R579), the completion entries that the device reads for it (R328). -/
structure WriteNews where
  stored : Bool
  passed : BitVec 14
  entries : List (Fin 4 × BitVec 16 × BitVec 64)
  deriving DecidableEq, Repr

/-- What a BAR read of an SRAM array meets: an uncorrectable granule in the row of its first byte, or none (R352). -/
inductive SramFinding | clean | lost
  deriving DecidableEq, Repr

/-- The commands of the table. -/
inductive Instr
  /-- JOINT (R21): The tick count of a course runs out, the next course begins at the joint, and the course counter increments. -/
  | joint
  /-- LAY_COURSE (R27): The sequencer lays a course entry once a credit is free, resolving steps, loops, jumps and phase operations. -/
  | layCourse (n : Fin 8)
  /-- SYNC_IN_EDGE (R49): An active SYNC_IN edge is measured and then accepted, or rejected, against the capture windows. -/
  | syncInEdge (rising : Bool) (fine : Fin 256) (widthPs : Nat)
  /-- REF_LOSS (R57): 2 µs without a REFCLK edge sets REF_LOSS. -/
  | refLoss
  /-- PLL_UNLOCK (R58): The system PLL loses lock, every channel goes quiet, the counter stops and FAULT_N asserts. -/
  | pllUnlock
  /-- PLL_LOCK (R58): The system PLL locks or relocks on its reference, and the clocks and course counter start. -/
  | pllLock
  /-- CRS_LEN_WRITE (R18): A write of CRS_LEN is checked against range and lock and, if accepted, is scheduled for a joint. -/
  | crsLenWrite (w : BitVec 32)
  /-- CRS_NOW_READ (R24): A narrow read of CRS_NOW_LO latches CRS_NOW_HI and CRS_TICK into the requester's shadow. -/
  | crsNowRead (r : Reader)
  /-- CQ_AHEAD_WRITE (R28): A write of CQ_CTRL.AHEAD is checked and takes effect at the next joint. -/
  | cqAheadWrite (n : Fin 8) (ahead : BitVec 4)
  /-- BAR4_WRITE (R65): A host write through BAR4 to segment SRAM; a whole aligned step is replaced atomically. -/
  | bar4Write (off : BitVec 26) (bytes : List (BitVec 8))
  /-- SEQ_CMD_START (R109): A SEQ_CMD START arms the sequencer to start a run at its landing joint. -/
  | seqCmdStart (n : Fin 8)
  /-- SEQ_CMD_STOP (R109): A SEQ_CMD STOP schedules the end of the run at its landing joint. -/
  | seqCmdStop (n : Fin 8)
  /-- SEQ_CMD_RESTART (R109): A SEQ_CMD RESTART schedules a new run at its landing joint from any state. -/
  | seqCmdRestart (n : Fin 8)
  /-- SEQ_TRIG_WRITE (R100): A write of the trigger policies, ignored as a whole if it holds an illegal policy. -/
  | seqTrigWrite (n : Fin 8) (w : BitVec 32)
  /-- SEQ_SNAP_REQ (R88): Writing REQ requests a snapshot at the next joint unless DONE is 1. -/
  | seqSnapReq (n : Fin 8)
  /-- LOCKSTEP_MISMATCH (R111): The checker finds the two cores disagree, discards the entry and halts the pair. -/
  | lockstepMismatch (n : Fin 8)
  /-- PAIR_TEST_DONE (R114): The Stockroom's test of a channel's own pair ends, and the pair is returned to service or retired. -/
  | pairTestDone (n : Fin 8) (pass : Bool)
  /-- TRIG_EDGE (R128): An active edge on TRIGn is timed and fires its producer. -/
  | trigEdge (n : Fin 8) (rising : Bool) (fine : Fin 256) (widthPs : Nat)
  /-- LINE_FIRE (R118): An event line fires on its capture tick and forks to the consumers in its enabled slots. -/
  | lineFire (l : Fin 64)
  /-- FAST_JUMP_CUT (R132): At its fixed latency a fast jump cuts the playing step and starts the target from its head. -/
  | fastJumpCut (n : Fin 8)
  /-- FAST_JUMP_BUSY_END (R137): 32 ticks after a cut, the jump inputs stop being busy to local fast firings. -/
  | fastJumpBusyEnd (n : Fin 8)
  /-- EVL_FIRE_WRITE (R126): A software write fires the selected lines on one capture tick. -/
  | evlFireWrite (lines : BitVec 64)
  /-- EVL_SRC_WRITE (R120): A write of producer slots; a slot given a reserved code keeps its old contents. -/
  | evlSrcWrite (l : Fin 64) (r : Fin 4) (w : BitVec 32)
  /-- EVL_DST_WRITE (R124): A write of consumer slots, changing immediate delivery at once and joint delivery from joint k plus 2. -/
  | evlDstWrite (l : Fin 64) (r : Fin 8) (w : BitVec 32)
  /-- EVS_FIRE_WRITE (R139): A write originates a system event with a landing joint k plus L. -/
  | evsFireWrite (w : BitVec 32)
  /-- EVENT_CELL_INSERT (R414): An originated system event is placed in the first free IDLE cell that passes each ring port. -/
  | eventCellInsert (port : Fin 2)
  /-- SYS_EVENT_RECEIVE (R141): A received EVENT cell is deduplicated, looked up in EVS_MAP and put in the pending store, or found late or lost. -/
  | sysEventReceive (orig : BitVec 10) (seq : BitVec 8) (id : BitVec 12) (land : BitVec 64)
  /-- LATE_NOTICE_RECEIVE (R143): The root receives a member's late-firing notice, sets REMOTE_LATE and fires SYS_LATE. -/
  | lateNoticeReceive (id : BitVec 12)
  /-- HP_EVIRQ_ACK (R515): Writing 1 to a bit of HP_EVIRQ acknowledges that event interrupt and frees its consumer. -/
  | hpEvirqAck (w : BitVec 8)
  /-- DDS_AMP_WRITE (R154): A write of the carrier amplitudes, refused when above unity. -/
  | ddsAmpWrite (n : Fin 8) (w : BitVec 32)
  /-- DDS_EPOCH_WRITE (R163): A write of the epoch, accepted only while the sequencer is STOPPED or in FAULT. -/
  | ddsEpochWrite (n : Fin 8) (w : BitVec 64)
  /-- DDS_APPLY (R169): Writing APPLY schedules the next phase offset for its landing joint. -/
  | ddsApply (n : Fin 8)
  /-- LV_EN_WRITE (R181): A write of LV_CTRL.EN switches between the DAC stage and the hold driver at the next joint. -/
  | lvEnWrite (n : Fin 8) (en : Bool)
  /-- LV_DLY_WRITE (R186): A new delay target, which the line starts to move towards at the next joint. -/
  | lvDlyWrite (n : Fin 8) (user : BitVec 14)
  /-- HV_EN_WRITE (R219): A write of HV_CTRL.EN enables the output through ENABLING, or turns it OFF, at the next joint. -/
  | hvEnWrite (n : Fin 8) (en : Bool)
  /-- HV_CLAMP_WRITE (R201): A write of the clamp range, refused when HI lies below LO. -/
  | hvClampWrite (n : Fin 8) (w : BitVec 32)
  /-- HV_SLEW_WRITE (R205): A write of the slew step and rate, refused when out of range. -/
  | hvSlewWrite (n : Fin 8) (w : BitVec 32)
  /-- HV_ILIM_WRITE (R239): A write of the current limit and short settings, refused as a whole when any field is out of range. -/
  | hvIlimWrite (n : Fin 8) (w : BitVec 32)
  /-- HV_PD_COEF_WRITE (R209): A write of a predistortion coefficient, accepted only in the inactive bank. -/
  | hvPdCoefWrite (n : Fin 8) (bank : Fin 2) (word : Fin 24) (w : BitVec 32)
  /-- PD_SWAP (R209): Writing PD_SWAP makes the inactive coefficient bank active at the next joint. -/
  | pdSwap (n : Fin 8)
  /-- SC_CLR (R233): Writing SC_CLR releases a short-circuit latch. -/
  | scClr (n : Fin 8)
  /-- TRIP_CLR (R237): Writing TRIP_CLR releases a power trip whose estimate has fallen below 80 % of its limit. -/
  | tripClr (n : Fin 8)
  /-- HV_RX_WRITE (R226): A write of the receive switch mode and control line. -/
  | hvRxWrite (n : Fin 8) (w : BitVec 32)
  /-- RX_COMMAND (R227): A closing or opening command moves the amplifier to or from the internal load. -/
  | rxCommand (n : Fin 8)
  /-- RX_BALL_IN_BAND (R227): The ball enters ±5 V of HVGND, the receive switch closes and the state becomes RECEIVE. -/
  | rxBallInBand (n : Fin 8)
  /-- RX_WAIT_TIMEOUT (R227): 2 µs after a closing command with the ball still out of band, RX_WAIT is set. -/
  | rxWaitTimeout (n : Fin 8)
  /-- RAIL_MEASURE (R200): An HV die's 1 µs rail measurement updates HV_RAIL and the clamp's rail range. -/
  | railMeasure (die : Fin 2) (vhp : Nat) (vhn : Nat) (vhl : Nat)
  /-- RAIL_WINDOW_RESTORED (R202): The rails have stayed inside their windows for 1 ms, and enabled channels enter ENABLING. -/
  | railWindowRestored (die : Fin 2)
  /-- ENABLING_SWITCH_CLOSE (R219): 20 µs into ENABLING the output switch closes and the channel enters DRIVE. -/
  | enablingSwitchClose (n : Fin 8) (passed : BitVec 14)
  /-- HV_EN_FALL (R220): Removal of HV_EN forces the 0 V code on every HV DAC and starts the ramp-down. -/
  | hvEnFall
  /-- HV_RAMPDOWN_END (R220): 50 µs after HV_EN removal the drivers are disabled and the outputs are OFF. -/
  | hvRampdownEnd
  /-- HV_EN_STABLE (R220): HV_EN has been high for 1 ms, and enabled OFF channels enter ENABLING at the next joint. -/
  | hvEnStable
  /-- ILIM_ONSET (R230): The current limit becomes active after 8 samples without limiting, and the ILIM producer fires. -/
  | ilimOnset (n : Fin 8)
  /-- SHORT_DECLARED (R232): The short-circuit integrator reaches its threshold and the limit folds back. -/
  | shortDeclared (n : Fin 8) (gapMs : Nat)
  /-- FOLD_BACK_END (R232): After RETRY ms the current limit is restored to ILIM_EFF. -/
  | foldBackEnd (n : Fin 8)
  /-- SEG_RETIRE (R234): An output segment whose share departs by more than 30 % for 1 µs is disconnected and retired. -/
  | segRetire (n : Fin 8) (seg : Fin 14)
  /-- PWR_LIMIT_CROSSED (R237): A channel or total power estimate crosses a warning or trip level, and the first stage forces channels. -/
  | pwrLimitCrossed (n : Fin 8) (x : LoadSample)
  /-- PWR_TRIP_SECOND_STAGE (R237): An estimate still at the limit 10 ms after the first stage latches the channels. -/
  | pwrTripSecondStage (n : Fin 8) (total : Bool)
  /-- SNS_A_WRITE (R242): A write of the Sense A input, range and termination takes effect at the next joint as a settling cause. -/
  | snsAWrite (n : Fin 8) (w : BitVec 32)
  /-- SIEVE_CFG_WRITE (R249): A write of a tap configuration, settle count, group delay or coefficient, accepted only while stopped. -/
  | sieveCfgWrite (n : Fin 8) (reg : Fin 73) (w : BitVec 32)
  /-- SIEVE_RUN_START (R250): Writing RUN = 1 starts the Sieve at the next joint if the section checks pass. -/
  | sieveRunStart (n : Fin 8)
  /-- SIEVE_RUN_STOP (R251): Writing RUN = 0 stops the Sieve at the next joint and ends its records. -/
  | sieveRunStop (n : Fin 8)
  /-- TAP_OUTPUT (R253): A tap's decimation count completes and its output passes the sections, the comparator and capture. -/
  | tapOutput (n : Fin 8) (k : Fin 4) (codes : SenseCodes)
  /-- CMP_WRITE (R262): A write of a comparator's levels or mode, refused when invalid. -/
  | cmpWrite (n : Fin 8) (k : Fin 4) (ctrl : Bool) (w : BitVec 32)
  /-- CAP_CTRL_WRITE (R264): A write of CAPk_CTRL or CAPk_LEN takes effect at the next joint and ends the record in progress. -/
  | capCtrlWrite (n : Fin 8) (k : Fin 4) (len : Bool) (w : BitVec 32)
  /-- CAP_RD_WRITE (R269): Host software advances the capture ring's read offset, refused if misaligned. -/
  | capRdWrite (n : Fin 8) (k : Fin 4) (w : BitVec 32)
  /-- CAPTURE_BLOCK_COMPLETE (R269): A 64-byte capture block's write completes in DRAM and CAPk_WR advances. -/
  | captureBlockComplete (n : Fin 8) (k : Fin 4)
  /-- RETURN_WORD_BAD (R529): A return-link word fails its CRC, and its samples are lost. -/
  | returnWordBad (n : Fin 8) (lost : List Nat)
  /-- SAMPLE_WORD_BAD (R529): A sample-link word fails its CRC, and the HV die repeats the previous code. -/
  | sampleWordBad (n : Fin 8) (inRow : Nat)
  /-- PLB_REQ_WRITE (R275): A write of PLB_REQ requests a calibration slot at a landing joint. -/
  | plbReqWrite (n : Fin 8) (kind : BitVec 2)
  /-- PLB_MODE_WRITE (R287): A write of PLB_CTRL.MODE changes between VOLATILE and TABLE at the next joint. -/
  | plbModeWrite (n : Fin 8) (table : Bool)
  /-- PLB_LOAD (R288): Writing LOAD loads PLB_STAGE as the live set at the next joint, if the checks pass. -/
  | plbLoad (n : Fin 8)
  /-- PLUMB_COMMIT_PHASE (R283): A slot's measurement ends, its results are checked and written for its last joint. -/
  | plumbCommitPhase (n : Fin 8) (set : List (BitVec 32)) (lvOver hvOver : Nat) (lvRes hvRes pdBad : Bool)
  /-- CAL_AUTO_STORE (R294): The Clerk stores the calibration tables to flash after a full slot changes them, 6 hours after its previous automatic store. -/
  | calAutoStore (good : Bool)
  /-- MASON_WALK (R314): The Mason walks a channel's step graph again and schedules fetches and placements. -/
  | masonWalk (n : Fin 8)
  /-- PAGE_FETCH_DONE (R315): A fetch or copy of a page into a channel's DRAM completes and awaits commit. -/
  | pageFetchDone (n : Fin 8) (page : BitVec 36) (bytes : List (BitVec 8))
  /-- MSN_CHECK (R321): Writing MSN_CTRL.CHECK starts the at-risk check on every channel. -/
  | msnCheck
  /-- AT_RISK_CHECK_DONE (R321): The at-risk check ends and its risk counts and lists are published. -/
  | atRiskCheckDone
  /-- REQUEST_POST (R327): A SERVICED backing request is written into the request ring once room and a tag are free. -/
  | requestPost
  /-- MSN_CQ_DOORBELL (R328): Host software writes MSN_CQ_TAIL and the device reads the new completion entries. -/
  | msnCqDoorbell (tail : BitVec 12) (entries : List (Fin 4 × BitVec 16 × BitVec 64))
  /-- COMPLETION_BUFFER_READ (R328): The buffer named by a completion has been read in full and MSN_CQ_HEAD advances. -/
  | completionBufferRead (tag : BitVec 16) (bytes : List (BitVec 8))
  /-- BACKING_TIMEOUT (R329): A SERVICED request has no completion within TMO, and it is repeated once or its pages become unavailable. -/
  | backingTimeout (tag : BitVec 16)
  /-- BACKING_RETRY (R329): 1 ms after RETRY_LATER, or after a failed read, the run is requested again. -/
  | backingRetry
  /-- HOST_READ_FAIL (R329): A DIRECT read or buffer read of host memory ends in error. -/
  | hostReadFail (page : BitVec 36)
  /-- MSN_DESC_WINDOW_READ (R340): MSN_DESC_CMD = 1 reads descriptor IDX into the window words. -/
  | msnDescWindowRead
  /-- MSN_DESC_WINDOW_WRITE (R304): MSN_DESC_CMD = 2 writes the descriptor from the window, refused if illegal. -/
  | msnDescWindowWrite
  /-- MSN_EXT_COMMIT (R326): A write of MSN_EXT_CMD.IDX commits an extent at the next joint. -/
  | msnExtCommit (idx : BitVec 12)
  /-- MSN_HZ_WRITE (R317): A write of the stream lead, head length or DRAM horizon, checked against range and remaining blocks. -/
  | msnHzWrite (n : Fin 8) (dhz : Bool) (w : BitVec 32)
  /-- MSN_BW_WRITE (R330): A write of the copy and host budgets, refused when out of range. -/
  | msnBwWrite (w : BitVec 32)
  /-- STARVE_BEGIN (R332): A track lacks samples at the output deadline, and the channel goes quiet with STARVE fired. -/
  | starveBegin (n : Fin 8)
  /-- SRAM_SCRUB (R580): The SRAM scrubber visits a granule within its period and corrects it or reports it. -/
  | sramScrub (arr : Fin 11) (bank : Fin 16) (row : BitVec 12) (found : Ecc) (col : Fin 576)
  /-- COLUMN_REPAIR_DONE (R354): The repair copier's walk ends and reads switch to the spare column. -/
  | columnRepairDone (arr : Fin 11) (bank : Fin 16)
  /-- STARTUP_MARCH_DONE (R359): The start-up march test and its repairs end and START_OK is set. -/
  | startupMarchDone (bad : List (Fin 11 × Fin 16 × Nat))
  /-- MEM_MT_START (R361): Writing MEM_MT.START requests a preserving march test of one bank. -/
  | memMtStart (w : BitVec 32)
  /-- MARCH_TEST_DONE (R363): An on-request march test ends with its result, or aborts. -/
  | marchTestDone (cols : Nat) (abort : Bool)
  /-- REFRESH_DUE (R382): A rank's refresh interval expires, and the refresh is issued, postponed or forced. -/
  | refreshDue (n : Fin 8) (r : Fin 2) (pending : Bool)
  /-- DRAM_TEMP_POLL (R381): Every 1 ms the controller reads the dies' refresh rate and sets the interval. -/
  | dramTempPoll (n : Fin 8) (band : Fin 4)
  /-- POWER_DOWN_ENTRY (R385): A rank idle for PD_TMR × 64 ns enters power-down. -/
  | powerDownEntry (n : Fin 8) (r : Fin 2)
  /-- SELF_REFRESH_ENTRY (R386): A rank idle for SR_TMR µs enters self-refresh if it holds nothing in use. -/
  | selfRefreshEntry (n : Fin 8) (r : Fin 2)
  /-- DRAM_READ_RESULT (R391): A DRAM read's ECC findings decide use, correction, replay or an uncorrectable burst. -/
  | dramReadResult (n : Fin 8) (addr : BitVec 33) (found : DramFinding) (port : Fin 7) (bursts : Nat) (drain : Bool) (act : Bool) (late : Bool)
  /-- RANK_DRAIN_DONE (R400): A draining rank holds no page, and the Clerk sweeps it again. -/
  | rankDrainDone (n : Fin 8) (r : Fin 2)
  /-- RANK_SWEEP_DONE (R400): A rank's delay sweep ends, and the rank returns to ACTIVE or is retired. -/
  | rankSweepDone (n : Fin 8) (r : Fin 2) (lanes : List LaneWindow)
  /-- DMC_PAGE_WRITE (R380): A write of the page policy, refused for the reserved code. -/
  | dmcPageWrite (n : Fin 8) (page : BitVec 2)
  /-- DMC_QOS_WRITE (R376): A write of a port's latency target, refused for fixed or out-of-range targets. -/
  | dmcQosWrite (n : Fin 8) (p : Fin 7) (target : BitVec 16)
  /-- DMC_LP_WRITE (R387): A write of the low-power settings, refused for a reserved RETAIN code. -/
  | dmcLpWrite (n : Fin 8) (w : BitVec 32)
  /-- CELL_RECEIVE (R411): A ring cell arrives on a port and is forwarded, consumed, or replaced by its originator. -/
  | cellReceive (p : Fin 2) (cls : CellClass) (payload : BitVec 56) (good : Bool) (cv : Nat) (act : RingAction)
  /-- LINK_FRAME_RECEIVE (R416): A link frame arrives, is timed and reported, and feeds delay, offset and alignment. -/
  | linkFrameReceive (p : Fin 2) (f : BitVec 128) (b : BitVec 32) (same : Bool)
  /-- LINK_LOST (R446): A port declares its link lost and RING_LINK fires. -/
  | linkLost (p : Fin 2) (cv : Nat)
  /-- LINK_UP (R446): A port declares its link up after 1 ms clean, and RING_LINK fires. -/
  | linkUp (p : Fin 2) (delay : BitVec 24)
  /-- HALT_SYMBOL_RECEIVE (R443): A HALT symbol, or a link frame with HALT set, asserts HALT and is passed onward. -/
  | haltSymbolReceive (p : Fin 2)
  /-- JOIN_START (R424): A device with a linked joined neighbour and all sequencers stopped starts to join. -/
  | joinStart
  /-- JOIN_REQUEST_RECEIVE (R426): The root accepts or refuses a join request and raises L_min before admission. -/
  | joinRequestReceive
  /-- REJOIN_START (R452): Once every member of an islanded piece is ready, the piece becomes REJOINING. -/
  | rejoinStart
  /-- RECAL_DONE (R430): A 50 µs reversal calibration ends and the link's asymmetry is updated. -/
  | recalDone (p : Fin 2) (asym : BitVec 16)
  /-- EVICT_TIMEOUT (R421): A member unseen for EVICT seconds is evicted and L_min is lowered. -/
  | evictTimeout (index : Fin 512)
  /-- RING_ROLE_WRITE (R418): A write of RING_CTRL.ROLE, accepted only while STANDALONE or UNJOINED. -/
  | ringRoleWrite (role : BitVec 2)
  /-- RING_JOIN_CMD (R424): Writing RING_CMD.JOIN stops the sequencers and starts a join at once. -/
  | ringJoinCmd
  /-- RING_REJOIN_CMD (R452): Writing RING_CMD.REJOIN stops the sequencers and makes the member ready to rejoin. -/
  | ringRejoinCmd
  /-- RING_RECAL_CMD (R430): Writing RING_CMD.RECAL asks the root to calibrate this device's links again. -/
  | ringRecalCmd
  /-- RING_MSG_GO (R439): Writing GO sends the message held in RING_MTX to a member or to all. -/
  | ringMsgGo (w : BitVec 32)
  /-- RING_MSG_RECEIVE (R440): A complete ring message enters the receive queue, or is counted lost. -/
  | ringMsgReceive (src : Fin 512) (seq : BitVec 8) (bytes : List (BitVec 8)) (whole : Bool)
  /-- RING_MRX_POP (R440): Writing POP removes the oldest received ring message. -/
  | ringMrxPop
  /-- BENCH_FRAME_RECEIVE (R456): A bench frame is received whole, filtered by address and type, checked and queued. -/
  | benchFrameReceive (dst src : BitVec 48) (etype : BitVec 16) (fcs : Bool) (syms : Nat) (jabber : Bool) (ago : Nat) (body : List (BitVec 8))
  /-- BENCH_FIRE (R467): After the bench crossing, every matching filter fires its BENCHx producer on one tick. -/
  | benchFire
  /-- TRANSMIT_OPPORTUNITY (R473): At a PLCA opportunity or deferral point the port sends at most one waiting frame. -/
  | transmitOpportunity
  /-- BENCH_FRAME_SENT (R473): A bench frame completes on the line, or is dropped after 16 collisions. -/
  | benchFrameSent (colls late : Nat)
  /-- BEACON_RECEIVE (R458): A PLCA beacon is heard and the node returns to or stays in PLCA. -/
  | beaconReceive
  /-- BEACON_TIMEOUT (R459): No beacon within the timeout drops the node to CSMA/CD. -/
  | beaconTimeout
  /-- BEACON_SEND (R460): The coordinator sends a beacon at the start of each PLCA cycle. -/
  | beaconSend
  /-- STOP_HOLD_EXPIRY (R476): The HOLD of every STOP in force runs out and the STOP state ends. -/
  | stopHoldExpiry
  /-- PTP_MESSAGE_RECEIVE (R477): A bench-time PTP message is received and drives the slave servo. -/
  | ptpMessageReceive (sync : Bool) (ofs : Int) (held : Bool) (ns : Nat)
  /-- PTP_SYNC_TIMEOUT (R478): 10 s without a Sync message clears bench-time VALID. -/
  | ptpSyncTimeout
  /-- BB_PLCA_WRITE (R460): A write of the PLCA settings, refused for illegal counts, effective at the next beacon. -/
  | bbPlcaWrite (w : BitVec 32)
  /-- BB_FILTER_WRITE (R466): A write of a bench filter, refused when SRC is above 16. -/
  | bbFilterWrite (x : Fin 16) (word : Fin 5) (w : BitVec 32)
  /-- BB_TEMPLATE_WRITE (R471): A write of a bench template, refused for an oversize length or a reserved kind. -/
  | bbTemplateWrite (x : Fin 16) (word : Fin 10) (w : BitVec 32)
  /-- BB_HTX_GO (R472): Writing GO queues the host bench message, or refuses it. -/
  | bbHtxGo (w : BitVec 32)
  /-- BB_RXQ_POP (R470): Writing POP removes the oldest queued bench message. -/
  | bbRxqPop
  /-- BB_TOD_READ (R479): A read of BB_TOD_CRS_LO latches the rest of the bench-time record into the requester's shadow. -/
  | bbTodRead (r : Reader)
  /-- MBX_DOORBELL (R497): A write of MBX_DBm rings a FREE slot, or is refused with DB_REJ. -/
  | mbxDoorbell (m : Fin 9) (slot : Fin 16)
  /-- MBX_DONE_CLEAR (R497): Writing 1 to a bit of MBX_DONEm returns that slot to FREE. -/
  | mbxDoneClear (m : Fin 9) (w : BitVec 16)
  /-- INFO (R507): Returns the firmware version, the image in use and the UID. -/
  | info (m : Fin 9) (slot : Fin 16)
  /-- FW_STAGE (R519): Writes part of a firmware image into the inactive image slot. -/
  | fwStage (m : Fin 9) (slot : Fin 16) (buf : Option (List (BitVec 8))) (good : Bool)
  /-- FW_COMMIT (R520): Verifies the staged image and writes its slot record. -/
  | fwCommit (m : Fin 9) (slot : Fin 16) (trusted : Bool)
  /-- FW_RESTART (R502): Restarts the Clerk from the newest valid image. -/
  | fwRestart (m : Fin 9) (slot : Fin 16)
  /-- FLASH_CFG (R544): Writes a setting into the strap-override area for the next POR_N. -/
  | flashCfg (m : Fin 9) (slot : Fin 16) (good : Bool)
  /-- CAL_STORE (R294): Stores the calibration tables into the older flash slot. -/
  | calStore (m : Fin 9) (slot : Fin 16) (good : Bool)
  /-- DESC_WRITE (R304): Writes or allocates a segment descriptor. -/
  | descWrite (m : Fin 9) (slot : Fin 16)
  /-- DESC_READ (R507): Returns the eight words of a descriptor. -/
  | descRead (m : Fin 9) (slot : Fin 16)
  /-- DESC_FREE (R507): Marks a descriptor unused unless a step table names it. -/
  | descFree (m : Fin 9) (slot : Fin 16)
  /-- EXT_SET (R326): Writes and commits a backing extent. -/
  | extSet (m : Fin 9) (slot : Fin 16)
  /-- UPLOAD (R301): Uploads pages from a host buffer as HELD content in 1 or 2 copies. -/
  | upload (m : Fin 9) (slot : Fin 16) (buf : Option (List (BitVec 8)))
  /-- RELEASE (R301): Makes HELD pages UNDEFINED. -/
  | release (m : Fin 9) (slot : Fin 16)
  /-- BACKING (R507): Sets the request and completion rings and their enable. -/
  | backing (m : Fin 9) (slot : Fin 16)
  /-- LINE_SET (R507): Replaces an event line's producer and consumer slots. -/
  | lineSet (m : Fin 9) (slot : Fin 16)
  /-- SYS_MAP (R507): Sets an EVS_MAP entry. -/
  | sysMap (m : Fin 9) (slot : Fin 16)
  /-- SYS_FIRE (R139): Originates a system event and returns its landing joint. -/
  | sysFire (m : Fin 9) (slot : Fin 16)
  /-- SYS_TX_SET (R507): Sets an EVS_TXx entry. -/
  | sysTxSet (m : Fin 9) (slot : Fin 16)
  /-- GROUP_SET (R504): Changes a channel group's membership at a joint and increments its epoch. -/
  | groupSet (m : Fin 9) (slot : Fin 16)
  /-- GROUP_ACT (R505): Acts as SEQ_CMD on every member of a group at a joint. -/
  | groupAct (m : Fin 9) (slot : Fin 16)
  /-- CRS_SET (R18): Changes CRS_LEN through the Clerk. -/
  | crsSet (m : Fin 9) (slot : Fin 16)
  /-- SYNC_SET (R507): Sets SYNC_CTRL. -/
  | syncSet (m : Fin 9) (slot : Fin 16)
  /-- RING_CTL (R507): Joins, rejoins or recalibrates, or sets the island policy or priority. -/
  | ringCtl (m : Fin 9) (slot : Fin 16)
  /-- RING_MSG (R439): Sends a small ring message through the Clerk. -/
  | ringMsg (m : Fin 9) (slot : Fin 16)
  /-- BENCH_CFG (R507): Sets BB_CTRL, BB_PLCA and BB_PTP_CTRL. -/
  | benchCfg (m : Fin 9) (slot : Fin 16)
  /-- BENCH_ALLOW (R464): Sets an allow-list entry. -/
  | benchAllow (m : Fin 9) (slot : Fin 16)
  /-- BENCH_FILTER (R466): Sets a bench filter. -/
  | benchFilter (m : Fin 9) (slot : Fin 16)
  /-- BENCH_TEMPLATE (R471): Sets a bench template. -/
  | benchTemplate (m : Fin 9) (slot : Fin 16)
  /-- BENCH_SEND (R472): Sends a bench message through the host send buffer. -/
  | benchSend (m : Fin 9) (slot : Fin 16)
  /-- POWER (R531): Requests RUN, IDLE or SLEEP. -/
  | power (m : Fin 9) (slot : Fin 16)
  /-- MEM_TEST (R361): Runs a preserving march test on a bank and returns its result. -/
  | memTest (m : Fin 9) (slot : Fin 16)
  /-- CH_STATE (R507): Returns the channel's status registers and epoch. -/
  | chState (m : Fin 9) (slot : Fin 16)
  /-- ROLE_BUMP (R504): Increments the channel's role epoch. -/
  | roleBump (m : Fin 9) (slot : Fin 16)
  /-- TABLE_LOAD (R107): Checks and loads steps into a stopped channel's step table. -/
  | tableLoad (m : Fin 9) (slot : Fin 16) (buf : Option (List (BitVec 8)))
  /-- STEP_WRITE (R107): Checks and writes one step atomically in any state. -/
  | stepWrite (m : Fin 9) (slot : Fin 16)
  /-- SEQ_CMD (R507): A timed JUMP, START, STOP or RESTART of the channel's sequencer. -/
  | seqCmd (m : Fin 9) (slot : Fin 16)
  /-- SEQ_TRIG (R100): Sets the channel's trigger policies. -/
  | seqTrig (m : Fin 9) (slot : Fin 16)
  /-- SNAP (R88): Takes a snapshot at the next joint and returns it. -/
  | snap (m : Fin 9) (slot : Fin 16)
  /-- LV_SET (R507): Sets the LV enable, gain, offset, quiet code and markers. -/
  | lvSet (m : Fin 9) (slot : Fin 16)
  /-- HV_SET (R507): Sets the HV block settings, all or nothing. -/
  | hvSet (m : Fin 9) (slot : Fin 16)
  /-- HV_CLEAR (R233): Releases short or power-trip latches. -/
  | hvClear (m : Fin 9) (slot : Fin 16)
  /-- DELAY (R185): Sets the LV and HV user delays. -/
  | delay (m : Fin 9) (slot : Fin 16)
  /-- PH_LOAD (R158): Loads phase operand entries from a host buffer. -/
  | phLoad (m : Fin 9) (slot : Fin 16) (buf : Option (List (BitVec 8)))
  /-- PH_OFFSET (R170): Applies a phase offset at a landing joint. -/
  | phOffset (m : Fin 9) (slot : Fin 16)
  /-- PH_CFG (R163): Sets the carrier amplitudes and the epoch. -/
  | phCfg (m : Fin 9) (slot : Fin 16)
  /-- TAP_SET (R256): Loads a Sieve tap preset while the Sieve is stopped. -/
  | tapSet (m : Fin 9) (slot : Fin 16)
  /-- SOS_LOAD (R254): Loads section coefficients while the Sieve is stopped. -/
  | sosLoad (m : Fin 9) (slot : Fin 16)
  /-- SIEVE_RUN (R250): Starts or stops the Sieve at a joint. -/
  | sieveRun (m : Fin 9) (slot : Fin 16)
  /-- CMP_SET (R262): Sets a comparator's levels and mode. -/
  | cmpSet (m : Fin 9) (slot : Fin 16)
  /-- CAP_RING (R269): Reserves or releases a tap's capture ring. -/
  | capRing (m : Fin 9) (slot : Fin 16)
  /-- CAP_SET (R264): Sets a tap's capture control and length. -/
  | capSet (m : Fin 9) (slot : Fin 16)
  /-- CAL_SLOT (R275): Requests a calibration slot and completes at its last joint. -/
  | calSlot (m : Fin 9) (slot : Fin 16)
  /-- CAL_MODE (R287): Sets the channel's calibration mode at the next joint. -/
  | calMode (m : Fin 9) (slot : Fin 16)
  /-- CAL_SAVE (R285): Writes the live calibration set to a host buffer. -/
  | calSave (m : Fin 9) (slot : Fin 16)
  /-- CAL_RESTORE (R288): Loads a calibration set from a host buffer. -/
  | calRestore (m : Fin 9) (slot : Fin 16) (buf : Option (List (BitVec 8)))
  /-- MSN_SET (R317): Sets the channel's horizons and declared entry points. -/
  | msnSet (m : Fin 9) (slot : Fin 16)
  /-- MSN_RISKS (R323): Runs the at-risk check and writes the risk list to a host buffer. -/
  | msnRisks (m : Fin 9) (slot : Fin 16)
  /-- DRAM_SET (R507): Sets the page policy, low-power settings and writable targets. -/
  | dramSet (m : Fin 9) (slot : Fin 16)
  /-- DRAM_DRAIN (R399): Drains a rank and sweeps it again. -/
  | dramDrain (m : Fin 9) (slot : Fin 16)
  /-- URGENT_QUIET (R506): An urgent doorbell, through PCIe or I2C, makes the masked channels quiet as CLR_N does. -/
  | urgentQuiet (mask : BitVec 8)
  /-- URGENT_RELEASE (R506): An urgent doorbell releases QUIET on the masked channels. -/
  | urgentRelease (mask : BitVec 8)
  /-- URGENT_HALT (R506): An urgent doorbell asserts HALT. -/
  | urgentHalt
  /-- URGENT_HV_OFF (R506): An urgent doorbell acts as removal of HV_EN on all channels. -/
  | urgentHvOff
  /-- URGENT_CLERK_RESET (R506): An urgent doorbell gives the Clerk a watchdog reset. -/
  | urgentClerkReset
  /-- DMA_TAIL_DOORBELL (R508): A write of DMA_Qq_TAIL hands new descriptors to a queue. -/
  | dmaTailDoorbell (q : Fin 8) (tail : BitVec 12)
  /-- DMA_DESCRIPTOR_DONE (R511): A DMA descriptor completes with its status, and the queue advances or stops. -/
  | dmaDescriptorDone (q : Fin 8) (g : List (BitVec 32)) (data : List (BitVec 8)) (hostErr : Bool) (ue : List Nat)
  /-- DMA_ENABLE_WRITE (R512): A write of DMA_Qq_CFG.EN starts a queue with HEAD and TAIL reset, or stops it after the current descriptor. -/
  | dmaEnableWrite (q : Fin 8) (en : Bool)
  /-- DMA_RESUME (R511): Writing RESUME continues a stopped queue from the next descriptor. -/
  | dmaResume (q : Fin 8)
  /-- REG_WRITE (R488): A write to a register that has no row of its own changes its enabled bytes by their field types. -/
  | regWrite (bar : Fin 3) (off : BitVec 26) (bytes : List (Option (BitVec 8))) (poison : Bool) (news : WriteNews)
  /-- BAR_READ_TIMEOUT (R490): A block that has not answered a read within 40 µs is abandoned with Completer Abort. -/
  | barReadTimeout (bar : Fin 3) (off : BitVec 26)
  /-- PERST_N (R517): PCIe fundamental reset clears the host-port state and stops the DMA queues and Mason requests. -/
  | perstN (low : Bool)
  /-- FUNCTION_LEVEL_RESET (R517): A function level reset has the host-port effects of PERST_N. -/
  | functionLevelReset
  /-- HOT_RESET (R517): A hot reset of the link has the host-port effects of PERST_N. -/
  | hotReset
  /-- LINK_DOWN (R517): The PCIe link goes down, stopping the DMA queues and the Mason requests. -/
  | linkDown
  /-- POR_N_ASSERT (R536): POR_N falls and the device is held in reset with defined outputs. -/
  | porNAssert
  /-- POR_N_RELEASE (R548): POR_N rises, the straps are sampled and the boot flow begins. -/
  | porNRelease (straps : BitVec 10)
  /-- BOOT_STEP_COMPLETE (R548): A step of the boot flow completes or fails, and the boot moves on or stops. -/
  | bootStepComplete (ms : BitVec 12) (x : BootNews)
  /-- RAIL_LOW (R524): A logic-side rail below its threshold for 2 µs acts as POR_N. -/
  | railLow (r : Fin 10)
  /-- RAIL_LOW_RECOVERED (R524): Every rail back in range for 1 ms with POR_N high restarts the device. -/
  | railLowRecovered (straps : BitVec 10)
  /-- PWR_GO (R531): Writing PWR_CTRL.GO requests the state in REQ, or is refused. -/
  | pwrGo (req : BitVec 2)
  /-- POWER_ENTRY_DONE (R531): Entry into IDLE or SLEEP completes. -/
  | powerEntryDone
  /-- WAKE_DONE (R535): A wake sequence ends with STATE reading RUN. -/
  | wakeDone
  /-- TEMP_SAMPLE (R551): A temperature sensor updates its reading. -/
  | tempSample (hv : Bool) (sensor : Fin 9) (t : BitVec 16)
  /-- THERM_HOLD_END (R567): A sensor has stayed below the release level for 1 s, and the device starts as after POR_N. -/
  | thermHoldEnd
  /-- FLASH_FETCH (R545): A boot-loader fetch suspends a running program or erase and is served. -/
  | flashFetch (running rested : Bool)
  /-- CLR_N_ASSERT (R183): CLR_N falls and every channel takes the quiet code at once. -/
  | clrNAssert
  /-- CLR_N_RELEASE (R560): CLR_N rises and the channels may be restarted. -/
  | clrNRelease
  /-- HALT_N_LOW (R556): HALT_N driven low from outside asserts HALT with source BALL. -/
  | haltNLow
  /-- HALT_N_RESAMPLE (R556): 200 ns after the device stops driving HALT_N, the ball is sampled again. -/
  | haltNResample (low : Bool)
  /-- PORTER_HALT_REL (R562): Writing REL with the key requests a HALT release at a release joint. -/
  | porterHaltRel
  /-- PORTER_FAULT_CLEAR (R565): A W1C write clears fault causes, which are set again if they persist. -/
  | porterFaultClear (w : BitVec 14)
  /-- PORTER_CLR_HV_OFF (R560): Writing PORTER_CLR.HV_OFF releases urgent or watchdog HV_OFF. -/
  | porterClrHvOff
  /-- PORTER_CLR_TSD (R567): Writing PORTER_CLR.TSD releases a thermal shutdown whose sensors have cooled. -/
  | porterClrTsd
  /-- PORTER_LANE_FAIL (R566): Four bad Porter-lane words, or 1 µs without a word, make the HV die turn off its channels. -/
  | porterLaneFail (die : Fin 2)
  /-- PORTER_LANE_CLEAN (R566): The lane has run clean for 1 ms and, once LANE is cleared, the channels re-enable. -/
  | porterLaneClean (die : Fin 2)
  /-- WDT_KICK (R569): The Clerk restarts its watchdog. -/
  | wdtKick (r : Requester)
  /-- WDT_EXPIRY (R569): The Clerk watchdog expires and the Porter resets the Clerk. -/
  | wdtExpiry (ms : Nat)
  /-- HWD_WRITE (R571): A write of the host watchdog settings, ignored when TMO is 0. -/
  | hwdWrite (w : BitVec 32)
  /-- HWD_KICK (R571): A keyed write restarts the host watchdog. -/
  | hwdKick
  /-- HWD_EXPIRY (R571): The host watchdog expires and its action is carried out. -/
  | hwdExpiry
  /-- I2C_READ (R574): An I2C read transaction returns the registers allowed in the current state. -/
  | i2cRead (word : BitVec 14) (count : Nat) (marks : I2cMarks)
  /-- I2C_WRITE (R575): An I2C write is accepted only to PWR_CTRL and I2C_URGENT. -/
  | i2cWrite (word : BitVec 14) (data : BitVec 32)
  /-- I2C_BUS_TIMEOUT (R573): SCL held low for 25 ms makes the port release the bus. -/
  | i2cBusTimeout
  /-- STK_SAVE (R584): Writing STK_CMD.SAVE stores the wear records. -/
  | stkSave (good : Bool)
  /-- STK_SEG_TEST (R579): Writing SEG_TEST tests the retired HV segments of an OFF channel. -/
  | stkSegTest (n : Fin 8) (passed : BitVec 14)
  /-- STK_SCRUB_WRITE (R585): A write of the scrub periods, refused as a whole when out of range. -/
  | stkScrubWrite (w : BitVec 32)
  /-- WEAR_STORE (R584): The wear records are stored every 24 power-on hours and after a retirement. -/
  | wearStore (good : Bool)
  /-- DRAM_SCRUB (R581): The DRAM scrubber visits a frame within its period and corrects or reports errors. -/
  | dramScrub (n : Fin 8) (addr : BitVec 33) (found : Ecc) (bursts : Nat) (hour : Option Bool) (last : Bool)
  /-- HV_EN_RISE (R220): HV_EN rises at the ball past its 50 ns filter, PORTER_STATUS.HV_EN reads 1 and the conditions of R218 for ENABLING can be met. -/
  | hvEnRise
  /-- PCIE_LINK_UP (R482): The PCIe link finishes training, HP_LINK takes its width and rate, and MSN_BW_EFF.LANES and HOST_EFF follow the trained width. -/
  | pcieLinkUp (width : LinkWidth) (rate : Fin 4)
  /-- CONFIG_SPACE_WRITE (R484): A configuration write changes Bus Master Enable or the power state between D0 and D3hot, stopping or resuming every device request and interrupt. -/
  | configSpaceWrite (bme d3 msix mask : Bool)
  /-- REG_READ (R10): A host read of a BAR register is served: RC fields clear on a whole-register read, refused reads complete as Completer Abort and are logged, and BAR4 reads of an uncorrectable row return poisoned data. -/
  | regRead (bar : Fin 3) (off : BitVec 26) (enables : List Bool) (found : SramFinding)
  /-- SRAM_READ_ERROR (R352): A read of an SRAM array by the sequencer read port, staging or the Clerk finds a correctable or uncorrectable granule, is counted and handled as R351 to R353 state. -/
  | sramReadError (arr : Fin 11) (bank : Fin 16) (row : BitVec 12) (ue : Bool) (reader : SramReader) (gran : Fin 8) (again : Bool) (bit : Fin 72) (cmd : Option (Fin 9 × Fin 16))
  /-- DELAY_LINE_ARRIVED (R186): An LV or HV delay line reaches its target sample by sample and DLY_BUSY clears. -/
  | delayLineArrived (n : Fin 8) (hv : Bool)
  /-- LINK_FRAME_SEND (R415): Every 640 ns, at a cell position that is a multiple of 16, the node sends a link frame on each port carrying HALT, ALIGNED, TCOUNT, REPORT, ACC and CRS. -/
  | linkFrameSend
  /-- LANE_CELL_SEND (R413): A node that starts a lane, the root of a closed loop or the end of an open line, emits a cell of the right IDLE kind at each cell position of the lattice. -/
  | laneCellSend (p : Fin 2)
  /-- VAON_LOSS (R524): VAON falls below 1.60 V and the Porter itself is reset, and with it everything else, clearing the records that survive POR_N. -/
  | vaonLoss
  /-- VAON_UP (R524): VAON rises into range, the Porter starts from its oscillator and PORTER_LAST.CAUSE reads VAON up. -/
  | vaonUp
  /-- SEQUENCING_BREACH (R527): HV rails appear out of the order of R525, the HV dies hold their outputs off and the Porter sets PWR_STAT.SEQ_ERR. -/
  | sequencingBreach
  /-- POWER_ON_HOUR (R583): Each power-on hour increments STK_HOURS, the hours in DRIVE of each channel and PLB_AGE.FULL_H, saturating. -/
  | powerOnHour
  /-- CLERK_BEAT (R521): Every 1 ms the running firmware increments MBX_CLERK.BEAT, which wraps to 0. -/
  | clerkBeat
  deriving DecidableEq, Repr

end Sys2Proof
end

