-- ==== Sys2Proof/Decode.lean ====
section
/-!
DEFINITION. The words that spell commands. spec/opcode_table.json gives no row any bits: the block takes commands, and no
word of its own spells one.
-/
namespace Sys2Proof

/-- The command that a word spells by the table's bits: none, since the table gives no row bits. -/
def decodeTableWord (nbits w : Nat) : Option Instr :=
  let _ := (nbits, w)
  none

end Sys2Proof
end

