-- ==== Sys2Proof/Config.lean ====
section
/-!
DEFINITION. What the spec leaves open and the model leaves free: opaque functions with no body. The step applies them
to the plain counter `fresh` of the state, which it then advances (notes/assumptions, log entry 1), so every use is a
value that nothing constrains beyond the bound written where it is used.
-/
namespace Sys2Proof.Config

/-- A free number: a value the spec leaves open, used modulo the bound its rule gives. -/
opaque freeNat : Nat → Nat

/-- A free bit: a choice the spec leaves open. -/
opaque freeBool : Nat → Bool

/-- The unique identifier of the module, from fuses (R285, R422). -/
opaque uid : Nat

/-- The temperature coefficient of a lane's delay that the fuses hold (R398): channel, rank, lane; in 1/64 of a unit interval for each
temperature band (log entry 104). -/
opaque laneCoef : Nat → Nat → Nat → Int

end Sys2Proof.Config
end

