-- ==== Sys2Proof/Machine/Regs.lean ====
section
/-!
DEFINITION. Every register field of the GT8H, from the register tables of spec/ (00 to 16) and the index R611: its
number in the bank, its width, its value after POR_N; and the address table of the registers (R485, R486, R611) with
the bit position and access type (R8) of every field.
The first index n is the channel of a channel-window register, else the register's first array index; i is the second.
BAR2 offset x stands at address 0x1000_0000 + x; BAR0 offset x at x.
Reset values set outside a register (strap, fuses, flash, factory set, variant) are log entries 2 and 3.
-/
namespace Sys2Proof.Machine

/-- A register field: its number, its width in bits, its POR_N value, and the indices that reset to another value. -/
structure Fld where
  id  : Nat
  w   : Nat
  rst : Nat
  exc : List (Nat × Nat)
  deriving DecidableEq, Repr

/-- The value of the field after POR_N at index i (R611). -/
def Fld.reset (f : Fld) (i : Nat) : Nat := ((f.exc.lookup i).getD f.rst) % 2 ^ f.w

/-- The access types of R8. -/
inductive Acc | rw | ro | wo | w1c | w1s | rc | rwl
  deriving DecidableEq, Repr

/-- A field in its register: lowest bit, access type, field. -/
structure Cellf where
  lo  : Nat
  acc : Acc
  fld : Fld
  deriving DecidableEq, Repr

/-- A register or array of registers: base address; stride and count of n; strides and counts of the two parts of i
(i = first part times count of the second part plus second part); its fields. -/
structure Row where
  base : Nat
  sn : Nat
  cn : Nat
  si : Nat
  ci : Nat
  sj : Nat
  cj : Nat
  cells : List Cellf
  deriving DecidableEq, Repr

/-- The indices (n, i) of the register of the row at word address a, if the row has one there. -/
def Row.hit (r : Row) (a : Nat) : Option (Nat × Nat) :=
  if a < r.base then none else
  let x := a - r.base
  let n := if r.sn = 0 then 0 else x / r.sn
  let y := if r.sn = 0 then x else x % r.sn
  let p := if r.si = 0 then 0 else y / r.si
  let z := if r.si = 0 then y else y % r.si
  let q := if r.sj = 0 then 0 else z / r.sj
  let e := if r.sj = 0 then z else z % r.sj
  if n < r.cn ∧ p < r.ci ∧ q < r.cj ∧ e = 0 then some (n, p * r.cj + q) else none

namespace Reg

-- DEV_ID, 00_scope.md R3
def DEV_ID.PART : Fld := ⟨1, 16, 0x748, []⟩
def DEV_ID.VARIANT : Fld := ⟨2, 8, 0x40, []⟩
def DEV_ID.STEP_MAJOR : Fld := ⟨3, 4, 0xb, []⟩
def DEV_ID.STEP_MINOR : Fld := ⟨4, 4, 0, []⟩
-- CRS_CTRL, 01_courses_and_time.md R26
def CRS_CTRL.OWN : Fld := ⟨5, 1, 0, []⟩
def CRS_CTRL.LEN_PEND : Fld := ⟨6, 1, 0, []⟩
def CRS_CTRL.SYS_MODE : Fld := ⟨7, 1, 0, []⟩
-- CRS_LEN, 01_courses_and_time.md R26
def CRS_LEN.LEN : Fld := ⟨8, 16, 0x100, []⟩
-- CRS_NOW_LO, 01_courses_and_time.md R26
def CRS_NOW_LO.NOW_LO : Fld := ⟨9, 32, 0, []⟩
-- CRS_NOW_HI, 01_courses_and_time.md R26
def CRS_NOW_HI.NOW_HI : Fld := ⟨10, 32, 0, []⟩
-- CRS_TICK, 01_courses_and_time.md R26
def CRS_TICK.CLEN : Fld := ⟨11, 16, 0x100, []⟩
def CRS_TICK.TICK : Fld := ⟨12, 15, 0, []⟩
-- CRS_STAT, 01_courses_and_time.md R26
def CRS_STAT.SYNC_CLIP : Fld := ⟨13, 1, 0, []⟩
def CRS_STAT.SYNC_IGN : Fld := ⟨14, 1, 0, []⟩
def CRS_STAT.SYNC_MULTI : Fld := ⟨15, 1, 0, []⟩
def CRS_STAT.SYNC_OOW : Fld := ⟨16, 1, 0, []⟩
def CRS_STAT.SYS_LATE : Fld := ⟨17, 1, 0, []⟩
def CRS_STAT.GAP : Fld := ⟨18, 1, 0, []⟩
def CRS_STAT.LEN_REJ : Fld := ⟨19, 1, 0, []⟩
-- SYNC_CTRL, 01_courses_and_time.md R54
def SYNC_CTRL.EDGE : Fld := ⟨20, 1, 0, []⟩
def SYNC_CTRL.EN : Fld := ⟨21, 1, 0, []⟩
-- SYNC_LAST, 01_courses_and_time.md R54
def SYNC_LAST.MOVED : Fld := ⟨22, 1, 0, []⟩
def SYNC_LAST.SYS : Fld := ⟨23, 1, 0, []⟩
def SYNC_LAST.RESID : Fld := ⟨24, 8, 0, []⟩
def SYNC_LAST.SHIFT : Fld := ⟨25, 16, 0, []⟩
-- SYNC_CRS_LO, 01_courses_and_time.md R54
def SYNC_CRS_LO.CRS_LO : Fld := ⟨26, 32, 0, []⟩
-- SYNC_CRS_HI, 01_courses_and_time.md R54
def SYNC_CRS_HI.CRS_HI : Fld := ⟨27, 32, 0, []⟩
-- SYNC_CNT, 01_courses_and_time.md R54
def SYNC_CNT.REJECT : Fld := ⟨28, 16, 0, []⟩
def SYNC_CNT.ACCEPT : Fld := ⟨29, 16, 0, []⟩
-- CLK_STAT, 01_courses_and_time.md R59
def CLK_STAT.SRC_CHG : Fld := ⟨30, 1, 0, []⟩
def CLK_STAT.REF_LOSS : Fld := ⟨31, 1, 0, []⟩
def CLK_STAT.UNLOCK : Fld := ⟨32, 1, 0, []⟩
def CLK_STAT.REFSEL : Fld := ⟨33, 1, 0, []⟩
def CLK_STAT.LOCK : Fld := ⟨34, 1, 0, []⟩
def CLK_STAT.SRC : Fld := ⟨35, 2, 0, []⟩
-- PORTER_STATUS, 16_porter_and_stockroom.md R585
def PORTER_STATUS.FAULT : Fld := ⟨36, 1, 0, []⟩
def PORTER_STATUS.HALT : Fld := ⟨37, 1, 0, []⟩
def PORTER_STATUS.HALT_IN : Fld := ⟨38, 1, 0, []⟩
def PORTER_STATUS.CLR : Fld := ⟨39, 1, 0, []⟩
def PORTER_STATUS.HV_EN : Fld := ⟨40, 1, 0, []⟩
def PORTER_STATUS.HV_OFF : Fld := ⟨41, 1, 0, []⟩
def PORTER_STATUS.TSD : Fld := ⟨42, 1, 0, []⟩
def PORTER_STATUS.CLERK_FAIL : Fld := ⟨43, 1, 0, []⟩
def PORTER_STATUS.QUIET : Fld := ⟨44, 8, 0, []⟩
def PORTER_STATUS.SAFE : Fld := ⟨45, 8, 0, []⟩
def PORTER_STATUS.HV_DOWN : Fld := ⟨46, 8, 0xff, []⟩
-- PORTER_CTRL, 16_porter_and_stockroom.md R585
def PORTER_CTRL.OWN : Fld := ⟨47, 1, 0, []⟩
def PORTER_CTRL.HALT_DRV : Fld := ⟨48, 1, 1, []⟩
def PORTER_CTRL.THERM_HALT : Fld := ⟨49, 1, 0, []⟩
-- PORTER_FAULT, 16_porter_and_stockroom.md R585
def PORTER_FAULT.CAUSE : Fld := ⟨50, 14, 0, []⟩
-- PORTER_HALT, 16_porter_and_stockroom.md R585
def PORTER_HALT.KEY : Fld := ⟨51, 8, 0, []⟩
def PORTER_HALT.REL : Fld := ⟨52, 1, 0, []⟩
def PORTER_HALT.REL_FAIL : Fld := ⟨53, 1, 0, []⟩
def PORTER_HALT.REL_PEND : Fld := ⟨54, 1, 0, []⟩
def PORTER_HALT.SRC : Fld := ⟨55, 6, 0, []⟩
-- PORTER_REL_LO, 16_porter_and_stockroom.md R585
def PORTER_REL_LO.REL_LO : Fld := ⟨56, 32, 0, []⟩
-- PORTER_REL_HI, 16_porter_and_stockroom.md R585
def PORTER_REL_HI.REL_HI : Fld := ⟨57, 32, 0, []⟩
-- PORTER_CLR, 16_porter_and_stockroom.md R585
def PORTER_CLR.TSD : Fld := ⟨58, 1, 0, []⟩
def PORTER_CLR.HV_OFF : Fld := ⟨59, 1, 0, []⟩
-- PORTER_WDT, 16_porter_and_stockroom.md R585
def PORTER_WDT.RESETS : Fld := ⟨60, 8, 0, []⟩
def PORTER_WDT.KICK : Fld := ⟨61, 1, 0, []⟩
def PORTER_WDT.TMO : Fld := ⟨62, 10, 0x1f4, []⟩
-- PORTER_HWD, 16_porter_and_stockroom.md R585
def PORTER_HWD.EN : Fld := ⟨63, 1, 0, []⟩
def PORTER_HWD.ACT : Fld := ⟨64, 3, 0, []⟩
def PORTER_HWD.TMO : Fld := ⟨65, 16, 0x3e8, []⟩
-- PORTER_HWD_KICK, 16_porter_and_stockroom.md R585
def PORTER_HWD_KICK.KEY : Fld := ⟨66, 8, 0, []⟩
-- PORTER_LAST, 16_porter_and_stockroom.md R585
def PORTER_LAST.CAUSE : Fld := ⟨67, 4, 0, []⟩
-- PORTER_LANE, 16_porter_and_stockroom.md R585
def PORTER_LANE.DIE1 : Fld := ⟨68, 16, 0, []⟩
def PORTER_LANE.DIE0 : Fld := ⟨69, 16, 0, []⟩
-- I2C_STAT, 16_porter_and_stockroom.md R585
def I2C_STAT.TMO : Fld := ⟨70, 16, 0, []⟩
def I2C_STAT.NO_ANSWER : Fld := ⟨71, 1, 0, []⟩
def I2C_STAT.DENY : Fld := ⟨72, 1, 0, []⟩
-- I2C_URGENT, 16_porter_and_stockroom.md R585
def I2C_URGENT.KEY : Fld := ⟨73, 8, 0, []⟩
def I2C_URGENT.ACT : Fld := ⟨74, 3, 0, []⟩
def I2C_URGENT.MASK : Fld := ⟨75, 8, 0, []⟩
-- MBX_DBm, 14_host_port_and_mailboxes.md R521
def MBX_DBm.SLOT : Fld := ⟨76, 4, 0, []⟩
-- MBX_BUSYm, 14_host_port_and_mailboxes.md R521
def MBX_BUSYm.BUSY : Fld := ⟨77, 16, 0, []⟩
-- MBX_DONEm, 14_host_port_and_mailboxes.md R521
def MBX_DONEm.DONE : Fld := ⟨78, 16, 0, []⟩
-- MBX_STATm, 14_host_port_and_mailboxes.md R521
def MBX_STATm.DB_REJ : Fld := ⟨79, 1, 0, []⟩
-- MBX_CLERK, 14_host_port_and_mailboxes.md R521
def MBX_CLERK.STATE : Fld := ⟨80, 2, 0, []⟩
def MBX_CLERK.IMAGE : Fld := ⟨81, 1, 0, []⟩
def MBX_CLERK.BEAT : Fld := ⟨82, 16, 0, []⟩
-- MBX_URGENT, 14_host_port_and_mailboxes.md R521
def MBX_URGENT.KEY : Fld := ⟨83, 8, 0, []⟩
def MBX_URGENT.ACT : Fld := ⟨84, 3, 0, []⟩
def MBX_URGENT.MASK : Fld := ⟨85, 8, 0, []⟩
-- MBX_NOTE_HEAD, 14_host_port_and_mailboxes.md R521
def MBX_NOTE_HEAD.HEAD : Fld := ⟨86, 6, 0, []⟩
-- MBX_NOTE_TAIL, 14_host_port_and_mailboxes.md R521
def MBX_NOTE_TAIL.LOST : Fld := ⟨87, 16, 0, []⟩
def MBX_NOTE_TAIL.TAIL : Fld := ⟨88, 6, 0, []⟩
-- ROLE_EPOCHn, 14_host_port_and_mailboxes.md R521
def ROLE_EPOCHn.EPOCH : Fld := ⟨89, 16, 0, []⟩
-- GRPg, 14_host_port_and_mailboxes.md R521
def GRPg.MASK : Fld := ⟨90, 8, 0, []⟩
def GRPg.EPOCH : Fld := ⟨91, 16, 0, []⟩
-- REG_ERR, 14_host_port_and_mailboxes.md R521
def REG_ERR.VALID : Fld := ⟨92, 1, 0, []⟩
def REG_ERR.CAUSE : Fld := ⟨93, 3, 0, []⟩
def REG_ERR.WRITE : Fld := ⟨94, 1, 0, []⟩
def REG_ERR.BAR : Fld := ⟨95, 2, 0, []⟩
def REG_ERR.COUNT : Fld := ⟨96, 16, 0, []⟩
-- REG_ERR_ADDR, 14_host_port_and_mailboxes.md R521
def REG_ERR_ADDR.OFFSET : Fld := ⟨97, 26, 0, []⟩
-- HP_EVIRQ, 14_host_port_and_mailboxes.md R521
def HP_EVIRQ.PEND : Fld := ⟨98, 8, 0, []⟩
-- HP_LINK, 14_host_port_and_mailboxes.md R521
def HP_LINK.WIDTH : Fld := ⟨99, 3, 0, []⟩
def HP_LINK.RATE : Fld := ⟨100, 3, 0, []⟩
-- PWR_CTRL, 15_power_reset_straps.md R554
def PWR_CTRL.OWN : Fld := ⟨101, 1, 0, []⟩
def PWR_CTRL.REQ : Fld := ⟨102, 2, 0, []⟩
def PWR_CTRL.GO : Fld := ⟨103, 1, 0, []⟩
-- PWR_STAT, 15_power_reset_straps.md R554
def PWR_STAT.STATE : Fld := ⟨104, 2, 0, []⟩
def PWR_STAT.WAKE_SRC : Fld := ⟨105, 4, 0, []⟩
def PWR_STAT.RAIL_LOW : Fld := ⟨106, 8, 0, []⟩
def PWR_STAT.THERM_WARN : Fld := ⟨107, 1, 0, []⟩
def PWR_STAT.SEQ_ERR : Fld := ⟨108, 1, 0, []⟩
def PWR_STAT.ENTRY_REJ : Fld := ⟨109, 1, 0, []⟩
-- PWR_STRAP, 15_power_reset_straps.md R554
def PWR_STRAP.VIO : Fld := ⟨110, 1, 0, []⟩
def PWR_STRAP.BOOT : Fld := ⟨111, 2, 0, []⟩
def PWR_STRAP.REFSEL : Fld := ⟨112, 1, 0, []⟩
def PWR_STRAP.RING : Fld := ⟨113, 2, 0, []⟩
def PWR_STRAP.HVLIM : Fld := ⟨114, 1, 0, []⟩
def PWR_STRAP.LANES : Fld := ⟨115, 1, 0, []⟩
def PWR_STRAP.CLRSEL : Fld := ⟨116, 1, 0, []⟩
-- PWR_BOOT, 15_power_reset_straps.md R554
def PWR_BOOT.STAGE : Fld := ⟨117, 4, 0, []⟩
def PWR_BOOT.FAIL : Fld := ⟨118, 4, 0, []⟩
def PWR_BOOT.MS : Fld := ⟨119, 12, 0, []⟩
def PWR_BOOT.LDR : Fld := ⟨120, 1, 0, []⟩
def PWR_BOOT.OVR_DEF : Fld := ⟨121, 1, 0, []⟩
def PWR_BOOT.EARLY : Fld := ⟨122, 1, 0, []⟩
-- PWR_RAIL, 15_power_reset_straps.md R554
def PWR_RAIL.GOOD : Fld := ⟨123, 13, 0, []⟩
-- PWR_LINK, 15_power_reset_straps.md R554
def PWR_LINK.RETURN : Fld := ⟨124, 16, 0, []⟩
def PWR_LINK.SAMPLE : Fld := ⟨125, 16, 0, []⟩
-- PWR_TWARN, 15_power_reset_straps.md R554
def PWR_TWARN.HV : Fld := ⟨126, 8, 0x7d, []⟩
def PWR_TWARN.LOG : Fld := ⟨127, 8, 0x64, []⟩
-- PWR_TLOGs, 15_power_reset_straps.md R554
def PWR_TLOGs.MAX : Fld := ⟨128, 16, 0, []⟩
def PWR_TLOGs.TEMP : Fld := ⟨129, 16, 0, []⟩
-- PWR_THVs, 15_power_reset_straps.md R554
def PWR_THVs.MAX : Fld := ⟨130, 16, 0, []⟩
def PWR_THVs.TEMP : Fld := ⟨131, 16, 0, []⟩
-- FLS_STAT, 15_power_reset_straps.md R554
def FLS_STAT.OP_BUSY : Fld := ⟨132, 1, 0, []⟩
def FLS_STAT.SUSPENDED : Fld := ⟨133, 1, 0, []⟩
def FLS_STAT.SUSPENDS : Fld := ⟨134, 16, 0, []⟩
-- FLS_ID, 15_power_reset_straps.md R554
def FLS_ID.JEDEC : Fld := ⟨135, 24, 0, []⟩
-- EVL_CTRL, 03_event_lines.md R147
def EVL_CTRL.OWN : Fld := ⟨136, 1, 0, []⟩
def EVL_CTRL.DIV : Fld := ⟨137, 5, 0, []⟩
-- EVL_STAT, 03_event_lines.md R147
def EVL_STAT.CFG_REJ : Fld := ⟨138, 1, 0, []⟩
-- EVL_FIRE_LO, 03_event_lines.md R147
def EVL_FIRE_LO.FIRE_LO : Fld := ⟨139, 32, 0, []⟩
-- EVL_FIRE_HI, 03_event_lines.md R147
def EVL_FIRE_HI.FIRE_HI : Fld := ⟨140, 32, 0, []⟩
-- EVL_SLEEP_LO, 03_event_lines.md R147
def EVL_SLEEP_LO.SEEN_LO : Fld := ⟨141, 32, 0, []⟩
-- EVL_SLEEP_HI, 03_event_lines.md R147
def EVL_SLEEP_HI.SEEN_HI : Fld := ⟨142, 32, 0, []⟩
-- TRIG_CTRL, 03_event_lines.md R147
def TRIG_CTRL.EDGE : Fld := ⟨143, 8, 0, []⟩
def TRIG_CTRL.EN : Fld := ⟨144, 8, 0, []⟩
-- EVL_TS_ARM_LO, 03_event_lines.md R147
def EVL_TS_ARM_LO.ARM_LO : Fld := ⟨145, 32, 0, []⟩
-- EVL_TS_ARM_HI, 03_event_lines.md R147
def EVL_TS_ARM_HI.ARM_HI : Fld := ⟨146, 32, 0, []⟩
-- EVS_LMIN, 03_event_lines.md R147
def EVS_LMIN.LMIN : Fld := ⟨147, 8, 2, []⟩
-- EVS_STAT, 03_event_lines.md R147
def EVS_STAT.REMOTE_LATE : Fld := ⟨148, 1, 0, []⟩
def EVS_STAT.RATE : Fld := ⟨149, 1, 0, []⟩
def EVS_STAT.REFUSED : Fld := ⟨150, 1, 0, []⟩
def EVS_STAT.L_RAISED : Fld := ⟨151, 1, 0, []⟩
def EVS_STAT.PEND_OVF : Fld := ⟨152, 1, 0, []⟩
def EVS_STAT.LATE : Fld := ⟨153, 1, 0, []⟩
-- EVS_FIRE, 03_event_lines.md R147
def EVS_FIRE.L : Fld := ⟨154, 8, 0, []⟩
def EVS_FIRE.ID : Fld := ⟨155, 12, 0, []⟩
-- EVS_LATE, 03_event_lines.md R147
def EVS_LATE.COUNT : Fld := ⟨156, 16, 0, []⟩
def EVS_LATE.LAST_ID : Fld := ⟨157, 12, 0, []⟩
-- EVS_LAND_LO, 03_event_lines.md R147
def EVS_LAND_LO.LAND_LO : Fld := ⟨158, 32, 0, []⟩
-- EVS_LAND_HI, 03_event_lines.md R147
def EVS_LAND_HI.LAND_HI : Fld := ⟨159, 32, 0, []⟩
-- FJ_LASTn, 03_event_lines.md R147
def FJ_LASTn.CUT : Fld := ⟨160, 1, 0, []⟩
def FJ_LASTn.PHASE : Fld := ⟨161, 4, 0, []⟩
def FJ_LASTn.TICK : Fld := ⟨162, 15, 0, []⟩
-- EVS_TXx, 03_event_lines.md R147
def EVS_TXx.EN : Fld := ⟨163, 1, 0, []⟩
def EVS_TXx.L : Fld := ⟨164, 8, 0, []⟩
def EVS_TXx.ID : Fld := ⟨165, 12, 0, []⟩
-- EVL_SRCn_r, 03_event_lines.md R147
def EVL_SRCn_r.SLOT_HI : Fld := ⟨166, 16, 0, []⟩
def EVL_SRCn_r.SLOT_LO : Fld := ⟨167, 16, 0, []⟩
-- EVL_DSTn_r, 03_event_lines.md R147
def EVL_DSTn_r.SLOT_HI : Fld := ⟨168, 16, 0, []⟩
def EVL_DSTn_r.SLOT_LO : Fld := ⟨169, 16, 0, []⟩
-- EVL_OVRn, 03_event_lines.md R148
def EVL_OVRn.COUNT : Fld := ⟨170, 16, 0, []⟩
def EVL_OVRn.SLOT : Fld := ⟨171, 16, 0, []⟩
-- EVL_TSn_LO, 03_event_lines.md R148
def EVL_TSn_LO.CRS_LO : Fld := ⟨172, 32, 0, []⟩
-- EVL_TSn_HI, 03_event_lines.md R148
def EVL_TSn_HI.CRS_HI : Fld := ⟨173, 32, 0, []⟩
-- EVL_TSn_POS, 03_event_lines.md R148
def EVL_TSn_POS.SYS : Fld := ⟨174, 1, 0, []⟩
def EVL_TSn_POS.FINE : Fld := ⟨175, 8, 0, []⟩
def EVL_TSn_POS.TICK : Fld := ⟨176, 15, 0, []⟩
-- EVS_MAP, 03_event_lines.md R148
def EVS_MAP.EN_ODD : Fld := ⟨177, 1, 0, []⟩
def EVS_MAP.LINE_ODD : Fld := ⟨178, 6, 0, []⟩
def EVS_MAP.EN_EVEN : Fld := ⟨179, 1, 0, []⟩
def EVS_MAP.LINE_EVEN : Fld := ⟨180, 6, 0, []⟩
-- RING_CTRL, 12_bond_ring.md R454
def RING_CTRL.OWN : Fld := ⟨181, 1, 0, []⟩
def RING_CTRL.AUTO_REJOIN : Fld := ⟨182, 1, 1, []⟩
def RING_CTRL.ISL_POL : Fld := ⟨183, 1, 0, []⟩
def RING_CTRL.ROLE : Fld := ⟨184, 2, 0, []⟩
-- RING_STAT, 12_bond_ring.md R454
def RING_STAT.STATE : Fld := ⟨185, 4, 0, []⟩
def RING_STAT.ALIGNED : Fld := ⟨186, 1, 0, []⟩
def RING_STAT.CROSS : Fld := ⟨187, 1, 0, []⟩
def RING_STAT.ISL_HEAD : Fld := ⟨188, 1, 0, []⟩
def RING_STAT.WAIT : Fld := ⟨189, 1, 0, []⟩
def RING_STAT.MSG_LOST : Fld := ⟨190, 1, 0, []⟩
def RING_STAT.EV_WAIT : Fld := ⟨191, 1, 0, []⟩
def RING_STAT.SPLIT : Fld := ⟨192, 1, 0, []⟩
def RING_STAT.ROOT_CHG : Fld := ⟨193, 1, 0, []⟩
def RING_STAT.REFUSED : Fld := ⟨194, 1, 0, []⟩
def RING_STAT.NO_CAND : Fld := ⟨195, 1, 0, []⟩
def RING_STAT.JOINT_ERR : Fld := ⟨196, 1, 0, []⟩
def RING_STAT.ASYM : Fld := ⟨197, 1, 0, []⟩
def RING_STAT.WIRING : Fld := ⟨198, 1, 0, []⟩
def RING_STAT.LONG : Fld := ⟨199, 1, 0, []⟩
def RING_STAT.LINK_CHG : Fld := ⟨200, 1, 0, []⟩
def RING_STAT.CFG_REJ : Fld := ⟨201, 1, 0, []⟩
-- RING_CMD, 12_bond_ring.md R454
def RING_CMD.RECAL : Fld := ⟨202, 1, 0, []⟩
def RING_CMD.REJOIN : Fld := ⟨203, 1, 0, []⟩
def RING_CMD.JOIN : Fld := ⟨204, 1, 0, []⟩
-- RING_ID, 12_bond_ring.md R454
def RING_ID.PRIO : Fld := ⟨205, 8, 0x80, []⟩
def RING_ID.INDEX : Fld := ⟨206, 10, 0x3ff, []⟩
-- RING_ROSTER, 12_bond_ring.md R454
def RING_ROSTER.N : Fld := ⟨207, 10, 0, []⟩
def RING_ROSTER.ROOT : Fld := ⟨208, 10, 0x3ff, []⟩
-- RING_CFG, 12_bond_ring.md R454
def RING_CFG.EVICT : Fld := ⟨209, 16, 0x3c, []⟩
-- RING_CLOSE, 12_bond_ring.md R454
def RING_CLOSE.CLOSE : Fld := ⟨210, 32, 0, []⟩
-- RING_CLOSE_BASE, 12_bond_ring.md R454
def RING_CLOSE_BASE.BASE : Fld := ⟨211, 32, 0, []⟩
-- RING_PHASE, 12_bond_ring.md R454
def RING_PHASE.PHASE : Fld := ⟨212, 32, 0, []⟩
-- RING_CNT, 12_bond_ring.md R454
def RING_CNT.PARTS : Fld := ⟨213, 16, 0, []⟩
def RING_CNT.LOSSES : Fld := ⟨214, 16, 0, []⟩
-- RING_JOIN_LO, 12_bond_ring.md R454
def RING_JOIN_LO.JOIN_LO : Fld := ⟨215, 32, 0, []⟩
-- RING_JOIN_HI, 12_bond_ring.md R454
def RING_JOIN_HI.JOIN_HI : Fld := ⟨216, 32, 0, []⟩
-- RING_ACCEPT_LO, 12_bond_ring.md R454
def RING_ACCEPT_LO.ACC_LO : Fld := ⟨217, 32, 0, []⟩
-- RING_ACCEPT_HI, 12_bond_ring.md R454
def RING_ACCEPT_HI.ACC_HI : Fld := ⟨218, 32, 0, []⟩
-- RING_Pp_STAT, 12_bond_ring.md R454
def RING_Pp_STAT.LINK : Fld := ⟨219, 1, 0, []⟩
def RING_Pp_STAT.UP : Fld := ⟨220, 1, 0, []⟩
def RING_Pp_STAT.FWD : Fld := ⟨221, 1, 0, []⟩
def RING_Pp_STAT.REV : Fld := ⟨222, 1, 0, []⟩
def RING_Pp_STAT.HOPS : Fld := ⟨223, 9, 0x1ff, []⟩
def RING_Pp_STAT.PEER : Fld := ⟨224, 10, 0x3ff, []⟩
-- RING_Pp_DLY, 12_bond_ring.md R454
def RING_Pp_DLY.DELAY : Fld := ⟨225, 24, 0, []⟩
-- RING_Pp_ASYM, 12_bond_ring.md R454
def RING_Pp_ASYM.ASYM : Fld := ⟨226, 16, 0, []⟩
-- RING_Pp_OFS, 12_bond_ring.md R454
def RING_Pp_OFS.OFS : Fld := ⟨227, 32, 0, []⟩
-- RING_Pp_ERR, 12_bond_ring.md R454
def RING_Pp_ERR.CRC : Fld := ⟨228, 16, 0, []⟩
def RING_Pp_ERR.CV : Fld := ⟨229, 16, 0, []⟩
-- RING_MTX_CTRL, 12_bond_ring.md R454
def RING_MTX_CTRL.BUSY : Fld := ⟨230, 1, 0, []⟩
def RING_MTX_CTRL.GO : Fld := ⟨231, 1, 0, []⟩
def RING_MTX_CTRL.LEN : Fld := ⟨232, 6, 0, []⟩
def RING_MTX_CTRL.DEST : Fld := ⟨233, 10, 0, []⟩
-- RING_MTX_Dw, 12_bond_ring.md R454
def RING_MTX_Dw.DATA : Fld := ⟨234, 32, 0, []⟩
-- RING_MRX_STAT, 12_bond_ring.md R454
def RING_MRX_STAT.COUNT : Fld := ⟨235, 5, 0, []⟩
def RING_MRX_STAT.LOST : Fld := ⟨236, 16, 0, []⟩
-- RING_MRX_POP, 12_bond_ring.md R454
def RING_MRX_POP.POP : Fld := ⟨237, 1, 0, []⟩
-- RING_MRX_HDR, 12_bond_ring.md R454
def RING_MRX_HDR.SEQ : Fld := ⟨238, 8, 0, []⟩
def RING_MRX_HDR.LEN : Fld := ⟨239, 6, 0, []⟩
def RING_MRX_HDR.SRC : Fld := ⟨240, 10, 0, []⟩
-- RING_MRX_Dw, 12_bond_ring.md R454
def RING_MRX_Dw.DATA : Fld := ⟨241, 32, 0, []⟩
-- MEM_CTRL, 10_segment_sram.md R366
def MEM_CTRL.OWN : Fld := ⟨242, 1, 0, []⟩
def MEM_CTRL.RET_CH : Fld := ⟨243, 8, 0xff, []⟩
-- MEM_STAT, 10_segment_sram.md R366
def MEM_STAT.START_OK : Fld := ⟨244, 1, 0, []⟩
def MEM_STAT.B4_RSV : Fld := ⟨245, 1, 0, []⟩
def MEM_STAT.MT_FAIL : Fld := ⟨246, 1, 0, []⟩
def MEM_STAT.BANK_RET : Fld := ⟨247, 1, 0, []⟩
def MEM_STAT.SPARE_OUT : Fld := ⟨248, 1, 0, []⟩
def MEM_STAT.REPAIR : Fld := ⟨249, 1, 0, []⟩
def MEM_STAT.CE : Fld := ⟨250, 1, 0, []⟩
def MEM_STAT.UE : Fld := ⟨251, 1, 0, []⟩
-- MEM_MT, 10_segment_sram.md R366
def MEM_MT.BUSY : Fld := ⟨252, 1, 0, []⟩
def MEM_MT.RESULT : Fld := ⟨253, 3, 0, []⟩
def MEM_MT.BANK : Fld := ⟨254, 4, 0, []⟩
def MEM_MT.CH : Fld := ⟨255, 3, 0, []⟩
def MEM_MT.START : Fld := ⟨256, 1, 0, []⟩
-- MEM_ECCn, 10_segment_sram.md R366
def MEM_ECCn.UE : Fld := ⟨257, 16, 0, []⟩
def MEM_ECCn.CE : Fld := ⟨258, 16, 0, []⟩
-- MEM_ECC_TCM, 10_segment_sram.md R366
def MEM_ECC_TCM.UE : Fld := ⟨259, 16, 0, []⟩
def MEM_ECC_TCM.CE : Fld := ⟨260, 16, 0, []⟩
-- MEM_ECC_MBX, 10_segment_sram.md R366
def MEM_ECC_MBX.UE : Fld := ⟨261, 16, 0, []⟩
def MEM_ECC_MBX.CE : Fld := ⟨262, 16, 0, []⟩
-- MEM_ECC_DIR, 10_segment_sram.md R366
def MEM_ECC_DIR.UE : Fld := ⟨263, 16, 0, []⟩
def MEM_ECC_DIR.CE : Fld := ⟨264, 16, 0, []⟩
-- MEM_BANKn, 10_segment_sram.md R366
def MEM_BANKn.RETIRED : Fld := ⟨265, 16, 0, []⟩
def MEM_BANKn.SPARE_OUT : Fld := ⟨266, 16, 0, []⟩
-- MEM_MAPn, 10_segment_sram.md R366
def MEM_MAPn.STEP_BANK : Fld := ⟨267, 4, 0, []⟩
-- MEM_LAST_UE, 10_segment_sram.md R366
def MEM_LAST_UE.VALID : Fld := ⟨268, 1, 0, []⟩
def MEM_LAST_UE.ARRAY : Fld := ⟨269, 4, 0, []⟩
def MEM_LAST_UE.BANK : Fld := ⟨270, 4, 0, []⟩
def MEM_LAST_UE.ROW : Fld := ⟨271, 12, 0, []⟩
-- STK_CTRL, 16_porter_and_stockroom.md R585
def STK_CTRL.OWN : Fld := ⟨272, 1, 0, []⟩
-- STK_SCRUB, 16_porter_and_stockroom.md R585
def STK_SCRUB.DRAM_T : Fld := ⟨273, 8, 0x18, []⟩
def STK_SCRUB.SRAM_T : Fld := ⟨274, 10, 0xa, []⟩
-- STK_SCRUB_STAT, 16_porter_and_stockroom.md R585
def STK_SCRUB_STAT.PASSES : Fld := ⟨275, 16, 0, []⟩
def STK_SCRUB_STAT.FAST : Fld := ⟨276, 8, 0, []⟩
-- STK_CMD, 16_porter_and_stockroom.md R585
def STK_CMD.SAVE : Fld := ⟨277, 1, 0, []⟩
def STK_CMD.CH : Fld := ⟨278, 3, 0, []⟩
def STK_CMD.SEG_TEST : Fld := ⟨279, 1, 0, []⟩
-- STK_STAT, 16_porter_and_stockroom.md R585
def STK_STAT.SEG_BUSY : Fld := ⟨280, 1, 0, []⟩
def STK_STAT.CFG_REJ : Fld := ⟨281, 1, 0, []⟩
def STK_STAT.REC_DEF : Fld := ⟨282, 1, 0, []⟩
def STK_STAT.SAVE_FAIL : Fld := ⟨283, 1, 0, []⟩
-- STK_HOURS, 16_porter_and_stockroom.md R585
def STK_HOURS.HOURS : Fld := ⟨284, 32, 0, []⟩
-- STK_TMAX, 16_porter_and_stockroom.md R585
def STK_TMAX.HV : Fld := ⟨285, 8, 0, []⟩
def STK_TMAX.LOG : Fld := ⟨286, 8, 0, []⟩
-- STK_CHn_WEAR0, 16_porter_and_stockroom.md R585
def STK_CHn_WEAR0.HV_HOURS : Fld := ⟨287, 32, 0, []⟩
-- STK_CHn_WEAR1, 16_porter_and_stockroom.md R585
def STK_CHn_WEAR1.LV_SPARES : Fld := ⟨288, 3, 0, []⟩
def STK_CHn_WEAR1.HV_SPARES : Fld := ⟨289, 3, 0, []⟩
def STK_CHn_WEAR1.SEG_RET : Fld := ⟨290, 8, 0, []⟩
def STK_CHn_WEAR1.SRAM_COLS : Fld := ⟨291, 8, 0, []⟩
-- STK_CHn_WEAR2, 16_porter_and_stockroom.md R585
def STK_CHn_WEAR2.FRAMES_RET : Fld := ⟨292, 16, 0, []⟩
def STK_CHn_WEAR2.SHORTS : Fld := ⟨293, 16, 0, []⟩
-- STK_CHn_WEAR3, 16_porter_and_stockroom.md R585
def STK_CHn_WEAR3.SEG_PERM : Fld := ⟨294, 14, 0, []⟩
def STK_CHn_WEAR3.MISMATCH : Fld := ⟨295, 16, 0, []⟩
-- BB_CTRL, 13_bench_bus.md R481
def BB_CTRL.OWN : Fld := ⟨296, 1, 0, []⟩
def BB_CTRL.RXALL : Fld := ⟨297, 1, 0, []⟩
def BB_CTRL.ALLOW_EN : Fld := ⟨298, 1, 0, []⟩
def BB_CTRL.EN : Fld := ⟨299, 1, 0, []⟩
-- BB_STAT, 13_bench_bus.md R481
def BB_STAT.STOPPED : Fld := ⟨300, 1, 0, []⟩
def BB_STAT.PLCA_ACT : Fld := ⟨301, 1, 0, []⟩
def BB_STAT.COORD : Fld := ⟨302, 1, 0, []⟩
def BB_STAT.TX_DISC : Fld := ⟨303, 1, 0, []⟩
def BB_STAT.TX_DROP : Fld := ⟨304, 1, 0, []⟩
def BB_STAT.TX_REJ : Fld := ⟨305, 1, 0, []⟩
def BB_STAT.RXQ_OVF : Fld := ⟨306, 1, 0, []⟩
def BB_STAT.STRANGER : Fld := ⟨307, 1, 0, []⟩
def BB_STAT.DUP_ID : Fld := ⟨308, 1, 0, []⟩
def BB_STAT.NO_TO : Fld := ⟨309, 1, 0, []⟩
def BB_STAT.CFG_REJ : Fld := ⟨310, 1, 0, []⟩
-- BB_PLCA, 13_bench_bus.md R481
def BB_PLCA.EN : Fld := ⟨311, 1, 1, []⟩
def BB_PLCA.TOT : Fld := ⟨312, 8, 0x20, []⟩
def BB_PLCA.NCNT : Fld := ⟨313, 8, 8, []⟩
def BB_PLCA.ID : Fld := ⟨314, 8, 0xff, []⟩
-- BB_STOP, 13_bench_bus.md R481
def BB_STOP.UNTIL_RESUME : Fld := ⟨315, 1, 0, []⟩
def BB_STOP.SRC : Fld := ⟨316, 5, 0, []⟩
def BB_STOP.LEFT : Fld := ⟨317, 16, 0, []⟩
-- BB_MAC_LO, 13_bench_bus.md R481
def BB_MAC_LO.MAC_LO : Fld := ⟨318, 32, 0, []⟩
-- BB_MAC_HI, 13_bench_bus.md R481
def BB_MAC_HI.MAC_HI : Fld := ⟨319, 16, 0, []⟩
-- BB_ERR0, 13_bench_bus.md R481
def BB_ERR0.CRC : Fld := ⟨320, 16, 0, []⟩
def BB_ERR0.SYM : Fld := ⟨321, 16, 0, []⟩
-- BB_ERR1, 13_bench_bus.md R481
def BB_ERR1.PLCA_COLL : Fld := ⟨322, 16, 0, []⟩
def BB_ERR1.BCN_LOSS : Fld := ⟨323, 16, 0, []⟩
-- BB_ERR2, 13_bench_bus.md R481
def BB_ERR2.COLL : Fld := ⟨324, 16, 0, []⟩
def BB_ERR2.LATE_COLL : Fld := ⟨325, 16, 0, []⟩
-- BB_ERR3, 13_bench_bus.md R481
def BB_ERR3.JABBER : Fld := ⟨326, 16, 0, []⟩
def BB_ERR3.XCOLL : Fld := ⟨327, 16, 0, []⟩
-- BB_ERR4, 13_bench_bus.md R481
def BB_ERR4.STRANGER : Fld := ⟨328, 16, 0, []⟩
def BB_ERR4.DISCARD : Fld := ⟨329, 16, 0, []⟩
-- BB_PTP_CTRL, 13_bench_bus.md R481
def BB_PTP_CTRL.DOMAIN : Fld := ⟨330, 8, 0, []⟩
def BB_PTP_CTRL.EN : Fld := ⟨331, 1, 0, []⟩
-- BB_PTP_STAT, 13_bench_bus.md R481
def BB_PTP_STAT.OFS : Fld := ⟨332, 16, 0, []⟩
def BB_PTP_STAT.VALID : Fld := ⟨333, 1, 0, []⟩
def BB_PTP_STAT.STATE : Fld := ⟨334, 2, 0, []⟩
-- BB_TOD_CRS_LO, 13_bench_bus.md R481
def BB_TOD_CRS_LO.CRS_LO : Fld := ⟨335, 32, 0, []⟩
-- BB_TOD_CRS_HI, 13_bench_bus.md R481
def BB_TOD_CRS_HI.CRS_HI : Fld := ⟨336, 32, 0, []⟩
-- BB_TOD_SEC_LO, 13_bench_bus.md R481
def BB_TOD_SEC_LO.SEC_LO : Fld := ⟨337, 32, 0, []⟩
-- BB_TOD_SEC_HI, 13_bench_bus.md R481
def BB_TOD_SEC_HI.SEC_HI : Fld := ⟨338, 16, 0, []⟩
-- BB_TOD_NS, 13_bench_bus.md R481
def BB_TOD_NS.NS : Fld := ⟨339, 30, 0, []⟩
-- BB_ALLOWa_LO, 13_bench_bus.md R481
def BB_ALLOWa_LO.MAC_LO : Fld := ⟨340, 32, 0, []⟩
-- BB_ALLOWa_HI, 13_bench_bus.md R481
def BB_ALLOWa_HI.EN : Fld := ⟨341, 1, 0, []⟩
def BB_ALLOWa_HI.STOP_OK : Fld := ⟨342, 1, 0, []⟩
def BB_ALLOWa_HI.MAC_HI : Fld := ⟨343, 16, 0, []⟩
-- BB_FLTx_0, 13_bench_bus.md R481
def BB_FLTx_0.EN : Fld := ⟨344, 1, 0, []⟩
def BB_FLTx_0.Q : Fld := ⟨345, 1, 0, []⟩
def BB_FLTx_0.POFS : Fld := ⟨346, 6, 0, []⟩
def BB_FLTx_0.KIND : Fld := ⟨347, 8, 0, []⟩
def BB_FLTx_0.SRC : Fld := ⟨348, 5, 0x10, []⟩
-- BB_FLTx_1, 13_bench_bus.md R481
def BB_FLTx_1.TOPIC : Fld := ⟨349, 32, 0, []⟩
-- BB_FLTx_2, 13_bench_bus.md R481
def BB_FLTx_2.TMASK : Fld := ⟨350, 32, 0, []⟩
-- BB_FLTx_3, 13_bench_bus.md R481
def BB_FLTx_3.PVAL : Fld := ⟨351, 32, 0, []⟩
-- BB_FLTx_4, 13_bench_bus.md R481
def BB_FLTx_4.PMASK : Fld := ⟨352, 32, 0, []⟩
-- BB_TXx_0, 13_bench_bus.md R481
def BB_TXx_0.BUSY : Fld := ⟨353, 1, 0, []⟩
def BB_TXx_0.ESS : Fld := ⟨354, 1, 0, []⟩
def BB_TXx_0.DEST : Fld := ⟨355, 5, 0x10, []⟩
def BB_TXx_0.LEN : Fld := ⟨356, 6, 0, []⟩
def BB_TXx_0.KIND : Fld := ⟨357, 8, 1, []⟩
-- BB_TXx_1, 13_bench_bus.md R481
def BB_TXx_1.TOPIC : Fld := ⟨358, 32, 0, []⟩
-- BB_TXx_D, 13_bench_bus.md R481
def BB_TXx_D.DATA : Fld := ⟨359, 32, 0, []⟩
-- BB_HTX_CTRL, 13_bench_bus.md R481
def BB_HTX_CTRL.BUSY : Fld := ⟨360, 1, 0, []⟩
def BB_HTX_CTRL.ESS : Fld := ⟨361, 1, 0, []⟩
def BB_HTX_CTRL.GO : Fld := ⟨362, 1, 0, []⟩
def BB_HTX_CTRL.DEST : Fld := ⟨363, 5, 0x10, []⟩
def BB_HTX_CTRL.LEN : Fld := ⟨364, 9, 0, []⟩
def BB_HTX_CTRL.KIND : Fld := ⟨365, 8, 1, []⟩
-- BB_HTX_TOPIC, 13_bench_bus.md R481
def BB_HTX_TOPIC.TOPIC : Fld := ⟨366, 32, 0, []⟩
-- BB_HTX_Dw, 13_bench_bus.md R481
def BB_HTX_Dw.DATA : Fld := ⟨367, 32, 0, []⟩
-- BB_RXQ_00, 13_bench_bus.md R481
def BB_RXQ_00.COUNT : Fld := ⟨368, 6, 0, []⟩
def BB_RXQ_00.LOST : Fld := ⟨369, 16, 0, []⟩
-- BB_RXQ_04, 13_bench_bus.md R481
def BB_RXQ_04.POP : Fld := ⟨370, 1, 0, []⟩
-- BB_RXQ_08, 13_bench_bus.md R481
def BB_RXQ_08.SRC_LO : Fld := ⟨371, 32, 0, []⟩
-- BB_RXQ_0C, 13_bench_bus.md R481
def BB_RXQ_0C.SEQ : Fld := ⟨372, 16, 0, []⟩
def BB_RXQ_0C.SRC_HI : Fld := ⟨373, 16, 0, []⟩
-- BB_RXQ_10, 13_bench_bus.md R481
def BB_RXQ_10.TOPIC : Fld := ⟨374, 32, 0, []⟩
-- BB_RXQ_14, 13_bench_bus.md R481
def BB_RXQ_14.TRUNC : Fld := ⟨375, 1, 0, []⟩
def BB_RXQ_14.ENTRY : Fld := ⟨376, 5, 0, []⟩
def BB_RXQ_14.KIND : Fld := ⟨377, 8, 0, []⟩
def BB_RXQ_14.FLAGS : Fld := ⟨378, 2, 0, []⟩
def BB_RXQ_14.LEN : Fld := ⟨379, 11, 0, []⟩
-- BB_RXQ_18, 13_bench_bus.md R481
def BB_RXQ_18.T_SEC : Fld := ⟨380, 32, 0, []⟩
-- BB_RXQ_1C, 13_bench_bus.md R481
def BB_RXQ_1C.T_NS : Fld := ⟨381, 30, 0, []⟩
-- BB_RXQ_20, 13_bench_bus.md R481
def BB_RXQ_20.CRS_LO : Fld := ⟨382, 32, 0, []⟩
-- BB_RXQ_24, 13_bench_bus.md R481
def BB_RXQ_24.CRS_HI : Fld := ⟨383, 32, 0, []⟩
-- BB_RXQ_28, 13_bench_bus.md R481
def BB_RXQ_28.TICK : Fld := ⟨384, 15, 0, []⟩
-- BB_RXQ_Dw, 13_bench_bus.md R481
def BB_RXQ_Dw.DATA : Fld := ⟨385, 32, 0, []⟩
-- DMA_Qq_BASE_LO, 14_host_port_and_mailboxes.md R521
def DMA_Qq_BASE_LO.BASE_LO : Fld := ⟨386, 20, 0, []⟩
-- DMA_Qq_BASE_HI, 14_host_port_and_mailboxes.md R521
def DMA_Qq_BASE_HI.BASE_HI : Fld := ⟨387, 32, 0, []⟩
-- DMA_Qq_CFG, 14_host_port_and_mailboxes.md R521
def DMA_Qq_CFG.EN : Fld := ⟨388, 1, 0, []⟩
def DMA_Qq_CFG.RESUME : Fld := ⟨389, 1, 0, []⟩
def DMA_Qq_CFG.SIZE : Fld := ⟨390, 4, 4, []⟩
-- DMA_Qq_TAIL, 14_host_port_and_mailboxes.md R521
def DMA_Qq_TAIL.TAIL : Fld := ⟨391, 12, 0, []⟩
-- DMA_Qq_HEAD, 14_host_port_and_mailboxes.md R521
def DMA_Qq_HEAD.HEAD : Fld := ⟨392, 12, 0, []⟩
-- DMA_Qq_STAT, 14_host_port_and_mailboxes.md R521
def DMA_Qq_STAT.STOPPED : Fld := ⟨393, 1, 0, []⟩
def DMA_Qq_STAT.ERR_IDX : Fld := ⟨394, 12, 0, []⟩
def DMA_Qq_STAT.HOST_ERR : Fld := ⟨395, 1, 0, []⟩
def DMA_Qq_STAT.DEV_UE : Fld := ⟨396, 1, 0, []⟩
def DMA_Qq_STAT.BAD_DESC : Fld := ⟨397, 1, 0, []⟩
-- SEQ_CTRL, 02_sequencer.md R116
def SEQ_CTRL.OWN : Fld := ⟨398, 1, 0, []⟩
def SEQ_CTRL.START_STEP : Fld := ⟨399, 13, 0, []⟩
-- SEQ_STAT, 02_sequencer.md R116
def SEQ_STAT.STEP : Fld := ⟨400, 13, 0, []⟩
def SEQ_STAT.CMD_PEND : Fld := ⟨401, 1, 0, []⟩
def SEQ_STAT.CMD_LATE : Fld := ⟨402, 1, 0, []⟩
def SEQ_STAT.CMD_REJ : Fld := ⟨403, 1, 0, []⟩
def SEQ_STAT.CFG_REJ : Fld := ⟨404, 1, 0, []⟩
def SEQ_STAT.FALLBACK : Fld := ⟨405, 1, 0, []⟩
def SEQ_STAT.RUN_END : Fld := ⟨406, 1, 0, []⟩
def SEQ_STAT.STEP_FAULT : Fld := ⟨407, 1, 0, []⟩
def SEQ_STAT.STATE : Fld := ⟨408, 2, 0, []⟩
-- SEQ_CMD, 02_sequencer.md R116
def SEQ_CMD.CMD : Fld := ⟨409, 2, 0, []⟩
-- SEQ_TRIG, 02_sequencer.md R116
def SEQ_TRIG.JMP3_POL : Fld := ⟨410, 2, 0, []⟩
def SEQ_TRIG.JMP2_POL : Fld := ⟨411, 2, 0, []⟩
def SEQ_TRIG.JMP1_POL : Fld := ⟨412, 2, 0, []⟩
def SEQ_TRIG.JMP0_POL : Fld := ⟨413, 2, 0, []⟩
def SEQ_TRIG.START_POL : Fld := ⟨414, 2, 0, []⟩
-- SEQ_AT_LO, 02_sequencer.md R116
def SEQ_AT_LO.AT_LO : Fld := ⟨415, 32, 0, []⟩
-- SEQ_AT_HI, 02_sequencer.md R116
def SEQ_AT_HI.AT_HI : Fld := ⟨416, 32, 0, []⟩
-- SEQ_FAULT, 02_sequencer.md R116
def SEQ_FAULT.CAUSE : Fld := ⟨417, 4, 0, []⟩
def SEQ_FAULT.STEP : Fld := ⟨418, 13, 0, []⟩
-- SEQ_LS, 02_sequencer.md R116
def SEQ_LS.SWITCH : Fld := ⟨419, 1, 0, []⟩
def SEQ_LS.SPARE_TAKEN : Fld := ⟨420, 1, 0, []⟩
def SEQ_LS.PAIR_RETIRED : Fld := ⟨421, 1, 0, []⟩
def SEQ_LS.ON_SPARE : Fld := ⟨422, 1, 0, []⟩
def SEQ_LS.MISMATCH : Fld := ⟨423, 16, 0, []⟩
-- SEQ_SNAP, 02_sequencer.md R116
def SEQ_SNAP.DONE : Fld := ⟨424, 1, 0, []⟩
def SEQ_SNAP.PEND : Fld := ⟨425, 1, 0, []⟩
def SEQ_SNAP.REQ : Fld := ⟨426, 1, 0, []⟩
def SEQ_SNAP.GEN : Fld := ⟨427, 16, 0, []⟩
-- SEQ_PEND, 02_sequencer.md R116
def SEQ_PEND.JMP : Fld := ⟨428, 4, 0, []⟩
def SEQ_PEND.START : Fld := ⟨429, 1, 0, []⟩
-- SEQ_SNAP_CRS_LO, 02_sequencer.md R116
def SEQ_SNAP_CRS_LO.CRS_LO : Fld := ⟨430, 32, 0, []⟩
-- SEQ_SNAP_CRS_HI, 02_sequencer.md R116
def SEQ_SNAP_CRS_HI.CRS_HI : Fld := ⟨431, 32, 0, []⟩
-- SEQ_SNAP_POS, 02_sequencer.md R116
def SEQ_SNAP_POS.STATE : Fld := ⟨432, 2, 0, []⟩
def SEQ_SNAP_POS.DEPTH : Fld := ⟨433, 3, 0, []⟩
def SEQ_SNAP_POS.STEP : Fld := ⟨434, 13, 0, []⟩
-- SEQ_SNAP_OFS, 02_sequencer.md R116
def SEQ_SNAP_OFS.TICKS : Fld := ⟨435, 28, 0, []⟩
-- SEQ_SNAP_Lx_LO, 02_sequencer.md R116
def SEQ_SNAP_Lx_LO.DONE_LO : Fld := ⟨436, 32, 0, []⟩
-- SEQ_SNAP_Lx_HI, 02_sequencer.md R116
def SEQ_SNAP_Lx_HI.CLOSE : Fld := ⟨437, 13, 0, []⟩
def SEQ_SNAP_Lx_HI.DONE_HI : Fld := ⟨438, 16, 0, []⟩
-- SEQ_LOOPx_LO, 02_sequencer.md R116
def SEQ_LOOPx_LO.DONE_LO : Fld := ⟨439, 32, 0, []⟩
-- SEQ_LOOPx_HI, 02_sequencer.md R116
def SEQ_LOOPx_HI.GEN : Fld := ⟨440, 16, 0, []⟩
def SEQ_LOOPx_HI.DONE_HI : Fld := ⟨441, 16, 0, []⟩
-- CQ_CTRL, 01_courses_and_time.md R31
def CQ_CTRL.OWN : Fld := ⟨442, 1, 0, []⟩
def CQ_CTRL.AHEAD : Fld := ⟨443, 4, 4, []⟩
-- CQ_STAT, 01_courses_and_time.md R31
def CQ_STAT.CFG_REJ : Fld := ⟨444, 1, 0, []⟩
def CQ_STAT.HELD : Fld := ⟨445, 1, 0, []⟩
def CQ_STAT.SUPERSEDED : Fld := ⟨446, 1, 0, []⟩
def CQ_STAT.RELAY : Fld := ⟨447, 1, 0, []⟩
def CQ_STAT.LAY_MISS : Fld := ⟨448, 1, 0, []⟩
def CQ_STAT.DEPTH : Fld := ⟨449, 4, 0, []⟩
-- CQ_MISS, 01_courses_and_time.md R31
def CQ_MISS.COUNT : Fld := ⟨450, 32, 0, []⟩
-- CQ_RELAY, 01_courses_and_time.md R31
def CQ_RELAY.COUNT : Fld := ⟨451, 32, 0, []⟩
-- CQ_RELAY_MAX, 01_courses_and_time.md R31
def CQ_RELAY_MAX.TICKS : Fld := ⟨452, 16, 0, []⟩
-- DDS_CTRL, 04_phase_engine.md R172
def DDS_CTRL.OWN : Fld := ⟨453, 1, 0, []⟩
def DDS_CTRL.APPLY : Fld := ⟨454, 1, 0, []⟩
-- DDS_STAT, 04_phase_engine.md R172
def DDS_STAT.APPLY_LOST : Fld := ⟨455, 1, 0, []⟩
def DDS_STAT.APPLY_REJ : Fld := ⟨456, 1, 0, []⟩
def DDS_STAT.APPLY_LATE : Fld := ⟨457, 1, 0, []⟩
def DDS_STAT.APPLY_PEND : Fld := ⟨458, 1, 0, []⟩
def DDS_STAT.CFG_REJ : Fld := ⟨459, 1, 0, []⟩
def DDS_STAT.GAP : Fld := ⟨460, 1, 0, []⟩
-- DDS_AMP, 04_phase_engine.md R172
def DDS_AMP.AMP_HV : Fld := ⟨461, 16, 0x8000, []⟩
def DDS_AMP.AMP_LV : Fld := ⟨462, 16, 0x8000, []⟩
-- DDS_EPOCH_LO, 04_phase_engine.md R172
def DDS_EPOCH_LO.EPOCH_LO : Fld := ⟨463, 32, 0, []⟩
-- DDS_EPOCH_HI, 04_phase_engine.md R172
def DDS_EPOCH_HI.EPOCH_HI : Fld := ⟨464, 32, 0, []⟩
-- DDS_POFS_LO, 04_phase_engine.md R172
def DDS_POFS_LO.POFS_LO : Fld := ⟨465, 32, 0, []⟩
-- DDS_POFS_HI, 04_phase_engine.md R172
def DDS_POFS_HI.POFS_HI : Fld := ⟨466, 16, 0, []⟩
-- DDS_POFS_NEXT_LO, 04_phase_engine.md R172
def DDS_POFS_NEXT_LO.NEXT_LO : Fld := ⟨467, 32, 0, []⟩
-- DDS_POFS_NEXT_HI, 04_phase_engine.md R172
def DDS_POFS_NEXT_HI.NEXT_HI : Fld := ⟨468, 16, 0, []⟩
-- DDS_AT_LO, 04_phase_engine.md R172
def DDS_AT_LO.AT_LO : Fld := ⟨469, 32, 0, []⟩
-- DDS_AT_HI, 04_phase_engine.md R172
def DDS_AT_HI.AT_HI : Fld := ⟨470, 32, 0, []⟩
-- DDS_FREQ_LO, 04_phase_engine.md R172
def DDS_FREQ_LO.FREQ_LO : Fld := ⟨471, 32, 0, []⟩
-- DDS_FREQ_HI, 04_phase_engine.md R172
def DDS_FREQ_HI.CRS : Fld := ⟨472, 16, 0, []⟩
def DDS_FREQ_HI.FREQ_HI : Fld := ⟨473, 16, 0, []⟩
-- DDS_PHASE_LO, 04_phase_engine.md R172
def DDS_PHASE_LO.PHASE_LO : Fld := ⟨474, 32, 0, []⟩
-- DDS_PHASE_HI, 04_phase_engine.md R172
def DDS_PHASE_HI.CRS : Fld := ⟨475, 16, 0, []⟩
def DDS_PHASE_HI.PHASE_HI : Fld := ⟨476, 16, 0, []⟩
-- LV_CTRL, 05_lv_path_and_markers.md R195
def LV_CTRL.OWN : Fld := ⟨477, 1, 0, []⟩
def LV_CTRL.EN : Fld := ⟨478, 1, 0, []⟩
-- LV_STAT, 05_lv_path_and_markers.md R195
def LV_STAT.VIO_MK : Fld := ⟨479, 1, 0, []⟩
def LV_STAT.MK_SQZ : Fld := ⟨480, 1, 0, []⟩
def LV_STAT.DLY_BUSY : Fld := ⟨481, 1, 0, []⟩
def LV_STAT.HOLD : Fld := ⟨482, 1, 1, []⟩
def LV_STAT.SAT : Fld := ⟨483, 1, 0, []⟩
-- LV_GAIN, 05_lv_path_and_markers.md R195
def LV_GAIN.GAIN : Fld := ⟨484, 16, 0x8000, []⟩
-- LV_OFS, 05_lv_path_and_markers.md R195
def LV_OFS.OFS : Fld := ⟨485, 16, 0, []⟩
-- QUIET_CODE_LV, 05_lv_path_and_markers.md R195
def QUIET_CODE_LV.CODE : Fld := ⟨486, 16, 0, []⟩
-- LV_DLY, 05_lv_path_and_markers.md R195
def LV_DLY.USER : Fld := ⟨487, 14, 0, []⟩
-- LV_DLY_CAL, 05_lv_path_and_markers.md R195
def LV_DLY_CAL.CAL : Fld := ⟨488, 15, 0x4000, []⟩
-- LV_SATCNT, 05_lv_path_and_markers.md R195
def LV_SATCNT.COUNT : Fld := ⟨489, 32, 0, []⟩
-- MK_CTRL, 05_lv_path_and_markers.md R195
def MK_CTRL.DRIVE : Fld := ⟨490, 4, 0, []⟩
def MK_CTRL.EN : Fld := ⟨491, 4, 0, []⟩
-- MK_QUIET, 05_lv_path_and_markers.md R195
def MK_QUIET.LEVEL : Fld := ⟨492, 4, 0, []⟩
-- HV_CTRL, 06_hv_stage.md R238
def HV_CTRL.OWN : Fld := ⟨493, 1, 0, []⟩
def HV_CTRL.PD_SWAP : Fld := ⟨494, 1, 0, []⟩
def HV_CTRL.SL_EN : Fld := ⟨495, 1, 1, []⟩
def HV_CTRL.PD_EN : Fld := ⟨496, 1, 1, []⟩
def HV_CTRL.EN : Fld := ⟨497, 1, 0, []⟩
-- HV_STAT, 06_hv_stage.md R238
def HV_STAT.HVLIM : Fld := ⟨498, 1, 0, []⟩
def HV_STAT.STATE : Fld := ⟨499, 3, 0, []⟩
def HV_STAT.SC_RUN : Fld := ⟨500, 2, 0, []⟩
def HV_STAT.FOLD : Fld := ⟨501, 1, 0, []⟩
def HV_STAT.DLY_BUSY : Fld := ⟨502, 1, 0, []⟩
def HV_STAT.SEG_DEGRADED : Fld := ⟨503, 1, 0, []⟩
def HV_STAT.ILIM_ACT : Fld := ⟨504, 1, 0, []⟩
def HV_STAT.SC_LATCH : Fld := ⟨505, 1, 0, []⟩
def HV_STAT.CFG_REJ : Fld := ⟨506, 1, 0, []⟩
def HV_STAT.RX_WAIT : Fld := ⟨507, 1, 0, []⟩
def HV_STAT.RAIL : Fld := ⟨508, 1, 0, []⟩
def HV_STAT.TOT_TRIP : Fld := ⟨509, 1, 0, []⟩
def HV_STAT.PWR_TRIP : Fld := ⟨510, 1, 0, []⟩
def HV_STAT.PWR_WARN : Fld := ⟨511, 1, 0, []⟩
def HV_STAT.SHORT : Fld := ⟨512, 1, 0, []⟩
def HV_STAT.ILIM : Fld := ⟨513, 1, 0, []⟩
def HV_STAT.SLEW : Fld := ⟨514, 1, 0, []⟩
def HV_STAT.PD_SAT : Fld := ⟨515, 1, 0, []⟩
def HV_STAT.CLIP : Fld := ⟨516, 1, 0, []⟩
def HV_STAT.PD_BANK : Fld := ⟨517, 1, 0, []⟩
-- HV_GAIN, 06_hv_stage.md R238
def HV_GAIN.GAIN : Fld := ⟨518, 16, 0x8000, []⟩
-- HV_OFS, 06_hv_stage.md R238
def HV_OFS.OFS : Fld := ⟨519, 16, 0, []⟩
-- QUIET_CODE_HV, 06_hv_stage.md R238
def QUIET_CODE_HV.CODE : Fld := ⟨520, 16, 0, []⟩
-- HV_CLAMP, 06_hv_stage.md R238
def HV_CLAMP.HI : Fld := ⟨521, 16, 0x7fff, []⟩
def HV_CLAMP.LO : Fld := ⟨522, 16, 0x8000, []⟩
-- HV_SLEW, 06_hv_stage.md R238
def HV_SLEW.RATE : Fld := ⟨523, 3, 0, []⟩
def HV_SLEW.STEP : Fld := ⟨524, 15, 0x1117, []⟩
-- HV_ILIM, 06_hv_stage.md R238
def HV_ILIM.TRIES : Fld := ⟨525, 2, 3, []⟩
def HV_ILIM.RETRY : Fld := ⟨526, 10, 0xa, []⟩
def HV_ILIM.SC_TIME : Fld := ⟨527, 6, 0x14, []⟩
def HV_ILIM.ILIM : Fld := ⟨528, 8, 0x19, []⟩
-- HV_ILIM_EFF, 06_hv_stage.md R239
def HV_ILIM_EFF.SC_EFF : Fld := ⟨529, 6, 0x14, []⟩
def HV_ILIM_EFF.ILIM_EFF : Fld := ⟨530, 8, 0x19, []⟩
-- HV_DLY, 06_hv_stage.md R239
def HV_DLY.USER : Fld := ⟨531, 14, 0, []⟩
-- HV_DLY_CAL, 06_hv_stage.md R239
def HV_DLY_CAL.CAL : Fld := ⟨532, 15, 0x4000, []⟩
-- HV_RX, 06_hv_stage.md R239
def HV_RX.LINE : Fld := ⟨533, 2, 0, []⟩
def HV_RX.MODE : Fld := ⟨534, 2, 0, []⟩
-- HV_PWR, 06_hv_stage.md R239
def HV_PWR.TOT : Fld := ⟨535, 15, 0xe10, []⟩
def HV_PWR.CH : Fld := ⟨536, 12, 0, []⟩
-- HV_RAIL, 06_hv_stage.md R239
def HV_RAIL.VHN : Fld := ⟨537, 16, 0, []⟩
def HV_RAIL.VHP : Fld := ⟨538, 16, 0, []⟩
-- HV_SEG, 06_hv_stage.md R239
def HV_SEG.RETIRED : Fld := ⟨539, 14, 0, []⟩
def HV_SEG.ACTIVE : Fld := ⟨540, 14, 0x3fff, []⟩
-- HV_CLIPCNT, 06_hv_stage.md R239
def HV_CLIPCNT.COUNT : Fld := ⟨541, 32, 0, []⟩
-- HV_ILIMCNT, 06_hv_stage.md R239
def HV_ILIMCNT.SHORTS : Fld := ⟨542, 16, 0, []⟩
def HV_ILIMCNT.ONSETS : Fld := ⟨543, 16, 0, []⟩
-- HV_CLR, 06_hv_stage.md R239
def HV_CLR.TRIP_CLR : Fld := ⟨544, 1, 0, []⟩
def HV_CLR.SC_CLR : Fld := ⟨545, 1, 0, []⟩
-- HV_PDb_w, 06_hv_stage.md R239
def HV_PDb_w.COEF : Fld := ⟨546, 32, 0, [(0, 0x20000000), (24, 0x20000000)]⟩
-- SIEVE_CTRL, 07_sense_and_sieve.md R272
def SIEVE_CTRL.OWN : Fld := ⟨547, 1, 0, []⟩
def SIEVE_CTRL.SETTLE_MODE : Fld := ⟨548, 1, 0, []⟩
def SIEVE_CTRL.RUN : Fld := ⟨549, 1, 0, []⟩
-- SIEVE_STAT, 07_sense_and_sieve.md R272
def SIEVE_STAT.SAT : Fld := ⟨550, 4, 0, []⟩
def SIEVE_STAT.SETTLING : Fld := ⟨551, 4, 0, []⟩
def SIEVE_STAT.GD_UNDEF : Fld := ⟨552, 4, 0, []⟩
def SIEVE_STAT.B_OVR : Fld := ⟨553, 1, 0, []⟩
def SIEVE_STAT.A_OVR : Fld := ⟨554, 1, 0, []⟩
def SIEVE_STAT.CFG_REJ : Fld := ⟨555, 1, 0, []⟩
def SIEVE_STAT.PAUSED : Fld := ⟨556, 1, 0, []⟩
def SIEVE_STAT.RUNNING : Fld := ⟨557, 1, 0, []⟩
-- SNS_A, 07_sense_and_sieve.md R272
def SNS_A.A_TERM : Fld := ⟨558, 1, 1, []⟩
def SNS_A.A_RANGE : Fld := ⟨559, 1, 0, []⟩
def SNS_A.A_SEL : Fld := ⟨560, 2, 0, []⟩
-- TAPk_CFG, 07_sense_and_sieve.md R272
def TAPk_CFG.SRC : Fld := ⟨561, 1, 0, []⟩
def TAPk_CFG.CIC_N : Fld := ⟨562, 2, 3, []⟩
def TAPk_CFG.DEC : Fld := ⟨563, 13, 1, []⟩
def TAPk_CFG.SOS_BASE : Fld := ⟨564, 4, 0, []⟩
def TAPk_CFG.SOS_NUM : Fld := ⟨565, 4, 0, []⟩
def TAPk_CFG.EN : Fld := ⟨566, 1, 0, []⟩
-- TAPk_SETTLE, 07_sense_and_sieve.md R272
def TAPk_SETTLE.SETTLE : Fld := ⟨567, 16, 0, []⟩
-- TAPk_GD, 07_sense_and_sieve.md R272
def TAPk_GD.SRC_USER : Fld := ⟨568, 1, 0, []⟩
def TAPk_GD.USER : Fld := ⟨569, 28, 0, []⟩
-- TAPk_GD_EFF, 07_sense_and_sieve.md R272
def TAPk_GD_EFF.TAU : Fld := ⟨570, 32, 0, []⟩
-- CMPk_LVL, 07_sense_and_sieve.md R272
def CMPk_LVL.HI : Fld := ⟨571, 16, 0x7fff, []⟩
def CMPk_LVL.LO : Fld := ⟨572, 16, 0x8000, []⟩
-- CMPk_CTRL, 07_sense_and_sieve.md R272
def CMPk_CTRL.TRIP : Fld := ⟨573, 1, 0, []⟩
def CMPk_CTRL.ARMED : Fld := ⟨574, 1, 0, []⟩
def CMPk_CTRL.MODE : Fld := ⟨575, 2, 0, []⟩
-- CAPk_CTRL, 07_sense_and_sieve.md R272
def CAPk_CTRL.PRE : Fld := ⟨576, 12, 0, []⟩
def CAPk_CTRL.PEND : Fld := ⟨577, 1, 0, []⟩
def CAPk_CTRL.POL : Fld := ⟨578, 1, 0, []⟩
def CAPk_CTRL.FMT : Fld := ⟨579, 1, 0, []⟩
def CAPk_CTRL.MODE : Fld := ⟨580, 2, 0, []⟩
-- CAPk_LEN, 07_sense_and_sieve.md R272
def CAPk_LEN.LEN : Fld := ⟨581, 18, 0x40, []⟩
-- CAPk_BASE_LO, 07_sense_and_sieve.md R272
def CAPk_BASE_LO.BASE_LO : Fld := ⟨582, 32, 0, []⟩
-- CAPk_BASE_HI, 07_sense_and_sieve.md R272
def CAPk_BASE_HI.BASE_HI : Fld := ⟨583, 32, 0, []⟩
-- CAPk_SIZE, 07_sense_and_sieve.md R272
def CAPk_SIZE.SIZE : Fld := ⟨584, 32, 0, []⟩
-- CAPk_WR, 07_sense_and_sieve.md R272
def CAPk_WR.WR : Fld := ⟨585, 32, 0, []⟩
-- CAPk_RD, 07_sense_and_sieve.md R272
def CAPk_RD.RD : Fld := ⟨586, 32, 0, []⟩
-- CAPk_LOSS, 07_sense_and_sieve.md R272
def CAPk_LOSS.COUNT : Fld := ⟨587, 32, 0, []⟩
-- SOSs_c, 07_sense_and_sieve.md R272
def SOSs_c.COEF : Fld := ⟨588, 32, 0, [(0, 0x20000000), (5, 0x20000000), (10, 0x20000000), (15, 0x20000000), (20, 0x20000000), (25, 0x20000000), (30, 0x20000000), (35, 0x20000000), (40, 0x20000000), (45, 0x20000000), (50, 0x20000000), (55, 0x20000000)]⟩
-- PLB_CTRL, 08_plumb_calibration.md R298
def PLB_CTRL.OWN : Fld := ⟨589, 1, 0, []⟩
def PLB_CTRL.MODE : Fld := ⟨590, 1, 0, []⟩
def PLB_CTRL.LOAD : Fld := ⟨591, 1, 0, []⟩
-- PLB_REQ, 08_plumb_calibration.md R298
def PLB_REQ.KIND : Fld := ⟨592, 2, 0, []⟩
-- PLB_AT_LO, 08_plumb_calibration.md R298
def PLB_AT_LO.AT_LO : Fld := ⟨593, 32, 0, []⟩
-- PLB_AT_HI, 08_plumb_calibration.md R298
def PLB_AT_HI.AT_HI : Fld := ⟨594, 32, 0, []⟩
-- PLB_STAT, 08_plumb_calibration.md R298
def PLB_STAT.STATE : Fld := ⟨595, 2, 0, []⟩
def PLB_STAT.KIND : Fld := ⟨596, 2, 0, []⟩
def PLB_STAT.SRC : Fld := ⟨597, 2, 0, []⟩
def PLB_STAT.NO_TABLE : Fld := ⟨598, 1, 0, []⟩
def PLB_STAT.STORE_FAIL : Fld := ⟨599, 1, 0, []⟩
def PLB_STAT.LOAD_REJ : Fld := ⟨600, 1, 0, []⟩
def PLB_STAT.CAL_DEFER : Fld := ⟨601, 1, 0, []⟩
def PLB_STAT.REQ_DROP : Fld := ⟨602, 1, 0, []⟩
def PLB_STAT.REQ_REJ : Fld := ⟨603, 1, 0, []⟩
def PLB_STAT.REQ_LATE : Fld := ⟨604, 1, 0, []⟩
-- PLB_RES, 08_plumb_calibration.md R298
def PLB_RES.CODE : Fld := ⟨605, 3, 0, []⟩
def PLB_RES.KIND : Fld := ⟨606, 2, 0, []⟩
def PLB_RES.TEMP_DRIFT : Fld := ⟨607, 1, 0, []⟩
def PLB_RES.SPARES_OUT : Fld := ⟨608, 1, 0, []⟩
def PLB_RES.TIME_FAIL : Fld := ⟨609, 1, 0, []⟩
def PLB_RES.PD_FAIL : Fld := ⟨610, 1, 0, []⟩
def PLB_RES.PD_SKIP : Fld := ⟨611, 1, 0, []⟩
def PLB_RES.HV_SKIP : Fld := ⟨612, 1, 0, []⟩
def PLB_RES.HV_FAIL : Fld := ⟨613, 1, 0, []⟩
def PLB_RES.LV_FAIL : Fld := ⟨614, 1, 0, []⟩
def PLB_RES.SNS_FAIL : Fld := ⟨615, 1, 0, []⟩
-- PLB_RES_CRS_LO, 08_plumb_calibration.md R298
def PLB_RES_CRS_LO.CRS_LO : Fld := ⟨616, 32, 0, []⟩
-- PLB_RES_CRS_HI, 08_plumb_calibration.md R298
def PLB_RES_CRS_HI.CRS_HI : Fld := ⟨617, 32, 0, []⟩
-- PLB_TEMP, 08_plumb_calibration.md R298
def PLB_TEMP.T_HV : Fld := ⟨618, 16, 0, []⟩
def PLB_TEMP.T_LOG : Fld := ⟨619, 16, 0, []⟩
-- PLB_TSLOT, 08_plumb_calibration.md R298
def PLB_TSLOT.T_HV : Fld := ⟨620, 16, 0, []⟩
def PLB_TSLOT.T_LOG : Fld := ⟨621, 16, 0, []⟩
-- PLB_AGE, 08_plumb_calibration.md R298
def PLB_AGE.FULL_H : Fld := ⟨622, 16, 0xffff, []⟩
-- PLB_CNT, 08_plumb_calibration.md R298
def PLB_CNT.ABORTED : Fld := ⟨623, 16, 0, []⟩
def PLB_CNT.DONE : Fld := ⟨624, 16, 0, []⟩
-- PLB_TBL, 08_plumb_calibration.md R298
def PLB_TBL.POINTS : Fld := ⟨625, 4, 0, []⟩
-- PLB_SET, 08_plumb_calibration.md R298
def PLB_SET.WORD : Fld := ⟨626, 32, 0, [(0, 0x1), (1, 0x1900190), (6, 0x4000), (26, 0x4000), (44, 0x20000000)]⟩
-- PLB_STAGE, 08_plumb_calibration.md R298
def PLB_STAGE.WORD : Fld := ⟨627, 32, 0, []⟩
-- DMC_CTRL, 11_dram.md R404
def DMC_CTRL.OWN : Fld := ⟨628, 1, 0, []⟩
def DMC_CTRL.PAGE : Fld := ⟨629, 2, 0, []⟩
def DMC_CTRL.MIRROR : Fld := ⟨630, 1, 0, []⟩
def DMC_CTRL.BXOR : Fld := ⟨631, 1, 1, []⟩
def DMC_CTRL.GRAIN : Fld := ⟨632, 4, 2, []⟩
-- DMC_STAT, 11_dram.md R404
def DMC_STAT.STATE : Fld := ⟨633, 3, 0, []⟩
def DMC_STAT.TBAND : Fld := ⟨634, 2, 0, []⟩
def DMC_STAT.CFG_REJ : Fld := ⟨635, 1, 0, []⟩
def DMC_STAT.HOT : Fld := ⟨636, 1, 0, []⟩
def DMC_STAT.FORCED_REF : Fld := ⟨637, 1, 0, []⟩
def DMC_STAT.MIRROR_LOST : Fld := ⟨638, 1, 0, []⟩
def DMC_STAT.DRAIN : Fld := ⟨639, 1, 0, []⟩
def DMC_STAT.RANK_RET : Fld := ⟨640, 1, 0, []⟩
def DMC_STAT.PPR_OUT : Fld := ⟨641, 1, 0, []⟩
def DMC_STAT.FRAME_RET : Fld := ⟨642, 1, 0, []⟩
def DMC_STAT.REPLAY : Fld := ⟨643, 1, 0, []⟩
def DMC_STAT.UE : Fld := ⟨644, 1, 0, []⟩
-- DMC_RANKr, 11_dram.md R404
def DMC_RANKr.STATE : Fld := ⟨645, 2, 0, []⟩
def DMC_RANKr.TRIES : Fld := ⟨646, 2, 0, []⟩
def DMC_RANKr.PD : Fld := ⟨647, 1, 0, []⟩
def DMC_RANKr.SELF_REF : Fld := ⟨648, 1, 0, []⟩
def DMC_RANKr.WIN : Fld := ⟨649, 8, 0, []⟩
-- DMC_QOSp, 11_dram.md R404
def DMC_QOSp.LATE : Fld := ⟨650, 16, 0, []⟩
def DMC_QOSp.TARGET : Fld := ⟨651, 16, 0, [(0, 0x40), (1, 0x40), (2, 0x40), (3, 0x80), (4, 0x500), (5, 0x280), (6, 0x1900)]⟩
-- DMC_REF, 11_dram.md R404
def DMC_REF.FORCED : Fld := ⟨652, 16, 0, []⟩
def DMC_REF.DEBT1 : Fld := ⟨653, 4, 0, []⟩
def DMC_REF.DEBT0 : Fld := ⟨654, 4, 0, []⟩
-- DMC_ECC, 11_dram.md R404
def DMC_ECC.REPLAY : Fld := ⟨655, 16, 0, []⟩
def DMC_ECC.CE : Fld := ⟨656, 16, 0, []⟩
-- DMC_UE, 11_dram.md R404
def DMC_UE.HOT : Fld := ⟨657, 16, 0, []⟩
def DMC_UE.UE : Fld := ⟨658, 16, 0, []⟩
-- DMC_HOT, 11_dram.md R404
def DMC_HOT.COUNT : Fld := ⟨659, 16, 0, []⟩
def DMC_HOT.LAST_PORT : Fld := ⟨660, 4, 0, []⟩
-- DMC_LP, 11_dram.md R404
def DMC_LP.RETAIN : Fld := ⟨661, 2, 0, []⟩
def DMC_LP.SR_TMR : Fld := ⟨662, 16, 0, []⟩
def DMC_LP.PD_TMR : Fld := ⟨663, 8, 4, []⟩
-- DMC_PPR, 11_dram.md R404
def DMC_PPR.SPARE : Fld := ⟨664, 7, 0x40, []⟩
def DMC_PPR.PEND : Fld := ⟨665, 7, 0, []⟩
-- DMC_RETFR, 11_dram.md R404
def DMC_RETFR.COUNT : Fld := ⟨666, 18, 0, []⟩
-- DMC_LAST_LO, 11_dram.md R404
def DMC_LAST_LO.ADDR_LO : Fld := ⟨667, 32, 0, []⟩
-- DMC_LAST_HI, 11_dram.md R404
def DMC_LAST_HI.VALID : Fld := ⟨668, 1, 0, []⟩
def DMC_LAST_HI.COL : Fld := ⟨669, 5, 0, []⟩
def DMC_LAST_HI.BANK : Fld := ⟨670, 4, 0, []⟩
def DMC_LAST_HI.SUB : Fld := ⟨671, 1, 0, []⟩
def DMC_LAST_HI.ADDR_HI : Fld := ⟨672, 1, 0, []⟩
-- PHO_O0, 04_phase_engine.md R157
def PHO_O0.FREQ_LO : Fld := ⟨673, 32, 0, []⟩
-- PHO_O1, 04_phase_engine.md R157
def PHO_O1.FREQ_HI : Fld := ⟨674, 16, 0, []⟩
-- PHO_O2, 04_phase_engine.md R157
def PHO_O2.PHASE_LO : Fld := ⟨675, 32, 0, []⟩
-- PHO_O3, 04_phase_engine.md R157
def PHO_O3.PHASE_HI : Fld := ⟨676, 16, 0, []⟩
-- MSN_CTRL, 09_mason_placement.md R340
def MSN_CTRL.OWN : Fld := ⟨677, 1, 0, []⟩
def MSN_CTRL.CHECK : Fld := ⟨678, 1, 0, []⟩
-- MSN_STAT, 09_mason_placement.md R340
def MSN_STAT.B4_WR : Fld := ⟨679, 1, 0, []⟩
def MSN_STAT.CFG_REJ : Fld := ⟨680, 1, 0, []⟩
def MSN_STAT.DESC_REJ : Fld := ⟨681, 1, 0, []⟩
def MSN_STAT.EXT_REJ : Fld := ⟨682, 1, 0, []⟩
def MSN_STAT.RQ_FULL : Fld := ⟨683, 1, 0, []⟩
def MSN_STAT.BK_TMO : Fld := ⟨684, 1, 0, []⟩
def MSN_STAT.BK_ERR : Fld := ⟨685, 1, 0, []⟩
def MSN_STAT.LOSS : Fld := ⟨686, 1, 0, []⟩
def MSN_STAT.CHECK_BUSY : Fld := ⟨687, 1, 0, []⟩
def MSN_STAT.RISK : Fld := ⟨688, 1, 0, []⟩
-- MSN_BW, 09_mason_placement.md R340
def MSN_BW.COPY : Fld := ⟨689, 6, 8, []⟩
def MSN_BW.HOST : Fld := ⟨690, 6, 0x20, []⟩
-- MSN_BW_EFF, 09_mason_placement.md R340
def MSN_BW_EFF.LANES : Fld := ⟨691, 3, 0, []⟩
def MSN_BW_EFF.HOST_EFF : Fld := ⟨692, 6, 0, []⟩
-- MSN_BK, 09_mason_placement.md R340
def MSN_BK.OUT : Fld := ⟨693, 8, 0x40, []⟩
def MSN_BK.TMO : Fld := ⟨694, 16, 0x3e8, []⟩
-- MSN_RQ_BASE_LO, 09_mason_placement.md R340
def MSN_RQ_BASE_LO.BASE_LO : Fld := ⟨695, 20, 0, []⟩
-- MSN_RQ_BASE_HI, 09_mason_placement.md R340
def MSN_RQ_BASE_HI.BASE_HI : Fld := ⟨696, 32, 0, []⟩
-- MSN_RQ_CFG, 09_mason_placement.md R340
def MSN_RQ_CFG.EN : Fld := ⟨697, 1, 0, []⟩
def MSN_RQ_CFG.SIZE : Fld := ⟨698, 4, 6, []⟩
-- MSN_RQ_TAIL, 09_mason_placement.md R340
def MSN_RQ_TAIL.TAIL : Fld := ⟨699, 12, 0, []⟩
-- MSN_RQ_HEAD, 09_mason_placement.md R340
def MSN_RQ_HEAD.HEAD : Fld := ⟨700, 12, 0, []⟩
-- MSN_CQ_BASE_LO, 09_mason_placement.md R340
def MSN_CQ_BASE_LO.BASE_LO : Fld := ⟨701, 20, 0, []⟩
-- MSN_CQ_BASE_HI, 09_mason_placement.md R340
def MSN_CQ_BASE_HI.BASE_HI : Fld := ⟨702, 32, 0, []⟩
-- MSN_CQ_CFG, 09_mason_placement.md R340
def MSN_CQ_CFG.SIZE : Fld := ⟨703, 4, 6, []⟩
-- MSN_CQ_TAIL, 09_mason_placement.md R340
def MSN_CQ_TAIL.TAIL : Fld := ⟨704, 12, 0, []⟩
-- MSN_CQ_HEAD, 09_mason_placement.md R340
def MSN_CQ_HEAD.HEAD : Fld := ⟨705, 12, 0, []⟩
-- MSN_LOSS, 09_mason_placement.md R340
def MSN_LOSS.COUNT : Fld := ⟨706, 32, 0, []⟩
-- MSN_LOSS_PG_LO, 09_mason_placement.md R340
def MSN_LOSS_PG_LO.PG_LO : Fld := ⟨707, 32, 0, []⟩
-- MSN_LOSS_PG_HI, 09_mason_placement.md R340
def MSN_LOSS_PG_HI.PG_HI : Fld := ⟨708, 4, 0, []⟩
-- MSN_EXT_CMD, 09_mason_placement.md R340
def MSN_EXT_CMD.PEND : Fld := ⟨709, 1, 0, []⟩
def MSN_EXT_CMD.IDX : Fld := ⟨710, 12, 0, []⟩
-- MSN_DESC_IDX, 09_mason_placement.md R340
def MSN_DESC_IDX.IDX : Fld := ⟨711, 20, 0, []⟩
-- MSN_DESC_CMD, 09_mason_placement.md R340
def MSN_DESC_CMD.BUSY : Fld := ⟨712, 1, 0, []⟩
def MSN_DESC_CMD.CMD : Fld := ⟨713, 2, 0, []⟩
-- MSN_DESC_Dw, 09_mason_placement.md R340
def MSN_DESC_Dw.WORD : Fld := ⟨714, 32, 0, []⟩
-- MSN_HZn, 09_mason_placement.md R340
def MSN_HZn.HEAD : Fld := ⟨715, 8, 8, []⟩
def MSN_HZn.LEAD : Fld := ⟨716, 8, 0x20, []⟩
-- MSN_DHZn, 09_mason_placement.md R340
def MSN_DHZn.DHZ : Fld := ⟨717, 16, 0x3e8, []⟩
-- MSN_CHn_STAT, 09_mason_placement.md R340
def MSN_CHn_STAT.READY : Fld := ⟨718, 1, 0, []⟩
def MSN_CHn_STAT.SRAM_ONLY : Fld := ⟨719, 1, 0, []⟩
def MSN_CHn_STAT.STARVED : Fld := ⟨720, 1, 0, []⟩
def MSN_CHn_STAT.HZ_PEND : Fld := ⟨721, 1, 0, []⟩
def MSN_CHn_STAT.STARVE : Fld := ⟨722, 1, 0, []⟩
def MSN_CHn_STAT.RISK_OVF : Fld := ⟨723, 1, 0, []⟩
def MSN_CHn_STAT.RISKS : Fld := ⟨724, 14, 0, []⟩
-- MSN_STARVEn, 09_mason_placement.md R340
def MSN_STARVEn.COURSES : Fld := ⟨725, 32, 0, []⟩
-- MSN_FRAMESn, 09_mason_placement.md R340
def MSN_FRAMESn.USABLE : Fld := ⟨726, 18, 0x1ff40, []⟩
-- MSN_FREEn, 09_mason_placement.md R340
def MSN_FREEn.FREE : Fld := ⟨727, 18, 0x1ff40, []⟩
-- MSN_SRAMn, 09_mason_placement.md R340
def MSN_SRAMn.RINGS : Fld := ⟨728, 12, 0, []⟩
def MSN_SRAMn.FREE : Fld := ⟨729, 12, 0xf00, []⟩
-- MSN_ENTRYn_x, 09_mason_placement.md R340
def MSN_ENTRYn_x.EN : Fld := ⟨730, 1, 0, []⟩
def MSN_ENTRYn_x.STEP : Fld := ⟨731, 13, 0, []⟩
-- MSN_RISKn_e0, 09_mason_placement.md R340
def MSN_RISKn_e0.REASON : Fld := ⟨732, 4, 0, []⟩
def MSN_RISKn_e0.TRACKS : Fld := ⟨733, 3, 0, []⟩
def MSN_RISKn_e0.STEP : Fld := ⟨734, 13, 0, []⟩
-- MSN_RISKn_e1, 09_mason_placement.md R340
def MSN_RISKn_e1.ARRIVAL : Fld := ⟨735, 32, 0, []⟩
-- MSN_EXTi_w, 09_mason_placement.md R340
def MSN_EXTi_w.WORD : Fld := ⟨736, 32, 0, []⟩

end Reg

open Reg

/-- Registers from address 0x0. -/
def regRows0 : List Row :=
  [⟨0x0, 0x0, 1, 0x0, 1, 0x0, 1, [⟨16, .ro, DEV_ID.PART⟩, ⟨8, .ro, DEV_ID.VARIANT⟩, ⟨4, .ro, DEV_ID.STEP_MAJOR⟩, ⟨0, .ro, DEV_ID.STEP_MINOR⟩]⟩,
   ⟨0x100, 0x0, 1, 0x0, 1, 0x0, 1, [⟨31, .rw, CRS_CTRL.OWN⟩, ⟨1, .ro, CRS_CTRL.LEN_PEND⟩, ⟨0, .ro, CRS_CTRL.SYS_MODE⟩]⟩,
   ⟨0x104, 0x0, 1, 0x0, 1, 0x0, 1, [⟨0, .rwl, CRS_LEN.LEN⟩]⟩,
   ⟨0x108, 0x0, 1, 0x0, 1, 0x0, 1, [⟨0, .ro, CRS_NOW_LO.NOW_LO⟩]⟩,
   ⟨0x10c, 0x0, 1, 0x0, 1, 0x0, 1, [⟨0, .ro, CRS_NOW_HI.NOW_HI⟩]⟩,
   ⟨0x110, 0x0, 1, 0x0, 1, 0x0, 1, [⟨16, .ro, CRS_TICK.CLEN⟩, ⟨0, .ro, CRS_TICK.TICK⟩]⟩,
   ⟨0x114, 0x0, 1, 0x0, 1, 0x0, 1, [⟨7, .w1c, CRS_STAT.SYNC_CLIP⟩, ⟨6, .w1c, CRS_STAT.SYNC_IGN⟩, ⟨5, .w1c, CRS_STAT.SYNC_MULTI⟩, ⟨4, .w1c, CRS_STAT.SYNC_OOW⟩, ⟨2, .w1c, CRS_STAT.SYS_LATE⟩, ⟨1, .w1c, CRS_STAT.GAP⟩, ⟨0, .w1c, CRS_STAT.LEN_REJ⟩]⟩,
   ⟨0x120, 0x0, 1, 0x0, 1, 0x0, 1, [⟨1, .rw, SYNC_CTRL.EDGE⟩, ⟨0, .rw, SYNC_CTRL.EN⟩]⟩,
   ⟨0x124, 0x0, 1, 0x0, 1, 0x0, 1, [⟨25, .ro, SYNC_LAST.MOVED⟩, ⟨24, .ro, SYNC_LAST.SYS⟩, ⟨16, .ro, SYNC_LAST.RESID⟩, ⟨0, .ro, SYNC_LAST.SHIFT⟩]⟩,
   ⟨0x128, 0x0, 1, 0x0, 1, 0x0, 1, [⟨0, .ro, SYNC_CRS_LO.CRS_LO⟩]⟩,
   ⟨0x12c, 0x0, 1, 0x0, 1, 0x0, 1, [⟨0, .ro, SYNC_CRS_HI.CRS_HI⟩]⟩,
   ⟨0x130, 0x0, 1, 0x0, 1, 0x0, 1, [⟨16, .ro, SYNC_CNT.REJECT⟩, ⟨0, .ro, SYNC_CNT.ACCEPT⟩]⟩,
   ⟨0x140, 0x0, 1, 0x0, 1, 0x0, 1, [⟨10, .w1c, CLK_STAT.SRC_CHG⟩, ⟨9, .w1c, CLK_STAT.REF_LOSS⟩, ⟨8, .w1c, CLK_STAT.UNLOCK⟩, ⟨3, .ro, CLK_STAT.REFSEL⟩, ⟨2, .ro, CLK_STAT.LOCK⟩, ⟨0, .ro, CLK_STAT.SRC⟩]⟩,
   ⟨0x200, 0x0, 1, 0x0, 1, 0x0, 1, [⟨31, .ro, PORTER_STATUS.FAULT⟩, ⟨30, .ro, PORTER_STATUS.HALT⟩, ⟨29, .ro, PORTER_STATUS.HALT_IN⟩, ⟨28, .ro, PORTER_STATUS.CLR⟩, ⟨27, .ro, PORTER_STATUS.HV_EN⟩, ⟨26, .ro, PORTER_STATUS.HV_OFF⟩, ⟨25, .ro, PORTER_STATUS.TSD⟩, ⟨24, .ro, PORTER_STATUS.CLERK_FAIL⟩, ⟨16, .ro, PORTER_STATUS.QUIET⟩, ⟨8, .ro, PORTER_STATUS.SAFE⟩, ⟨0, .ro, PORTER_STATUS.HV_DOWN⟩]⟩,
   ⟨0x204, 0x0, 1, 0x0, 1, 0x0, 1, [⟨31, .rw, PORTER_CTRL.OWN⟩, ⟨1, .rw, PORTER_CTRL.HALT_DRV⟩, ⟨0, .rw, PORTER_CTRL.THERM_HALT⟩]⟩,
   ⟨0x208, 0x0, 1, 0x0, 1, 0x0, 1, [⟨0, .w1c, PORTER_FAULT.CAUSE⟩]⟩,
   ⟨0x20c, 0x0, 1, 0x0, 1, 0x0, 1, [⟨24, .wo, PORTER_HALT.KEY⟩, ⟨16, .wo, PORTER_HALT.REL⟩, ⟨9, .w1c, PORTER_HALT.REL_FAIL⟩, ⟨8, .ro, PORTER_HALT.REL_PEND⟩, ⟨0, .ro, PORTER_HALT.SRC⟩]⟩,
   ⟨0x210, 0x0, 1, 0x0, 1, 0x0, 1, [⟨0, .ro, PORTER_REL_LO.REL_LO⟩]⟩,
   ⟨0x214, 0x0, 1, 0x0, 1, 0x0, 1, [⟨0, .ro, PORTER_REL_HI.REL_HI⟩]⟩,
   ⟨0x218, 0x0, 1, 0x0, 1, 0x0, 1, [⟨1, .wo, PORTER_CLR.TSD⟩, ⟨0, .wo, PORTER_CLR.HV_OFF⟩]⟩,
   ⟨0x21c, 0x0, 1, 0x0, 1, 0x0, 1, [⟨24, .ro, PORTER_WDT.RESETS⟩, ⟨16, .wo, PORTER_WDT.KICK⟩, ⟨0, .rwl, PORTER_WDT.TMO⟩]⟩,
   ⟨0x220, 0x0, 1, 0x0, 1, 0x0, 1, [⟨31, .rw, PORTER_HWD.EN⟩, ⟨24, .rw, PORTER_HWD.ACT⟩, ⟨0, .rw, PORTER_HWD.TMO⟩]⟩,
   ⟨0x224, 0x0, 1, 0x0, 1, 0x0, 1, [⟨24, .wo, PORTER_HWD_KICK.KEY⟩]⟩,
   ⟨0x228, 0x0, 1, 0x0, 1, 0x0, 1, [⟨0, .ro, PORTER_LAST.CAUSE⟩]⟩,
   ⟨0x22c, 0x0, 1, 0x0, 1, 0x0, 1, [⟨16, .rc, PORTER_LANE.DIE1⟩, ⟨0, .rc, PORTER_LANE.DIE0⟩]⟩,
   ⟨0x230, 0x0, 1, 0x0, 1, 0x0, 1, [⟨16, .rc, I2C_STAT.TMO⟩, ⟨1, .w1c, I2C_STAT.NO_ANSWER⟩, ⟨0, .w1c, I2C_STAT.DENY⟩]⟩,
   ⟨0x234, 0x0, 1, 0x0, 1, 0x0, 1, [⟨24, .wo, I2C_URGENT.KEY⟩, ⟨8, .wo, I2C_URGENT.ACT⟩, ⟨0, .wo, I2C_URGENT.MASK⟩]⟩,
   ⟨0x400, 0x10, 9, 0x0, 1, 0x0, 1, [⟨0, .wo, MBX_DBm.SLOT⟩]⟩,
   ⟨0x404, 0x10, 9, 0x0, 1, 0x0, 1, [⟨0, .ro, MBX_BUSYm.BUSY⟩]⟩,
   ⟨0x408, 0x10, 9, 0x0, 1, 0x0, 1, [⟨0, .w1c, MBX_DONEm.DONE⟩]⟩]

/-- Registers from address 0x40c. -/
def regRows1 : List Row :=
  [⟨0x40c, 0x10, 9, 0x0, 1, 0x0, 1, [⟨0, .w1c, MBX_STATm.DB_REJ⟩]⟩,
   ⟨0x490, 0x0, 1, 0x0, 1, 0x0, 1, [⟨30, .ro, MBX_CLERK.STATE⟩, ⟨16, .ro, MBX_CLERK.IMAGE⟩, ⟨0, .ro, MBX_CLERK.BEAT⟩]⟩,
   ⟨0x494, 0x0, 1, 0x0, 1, 0x0, 1, [⟨24, .wo, MBX_URGENT.KEY⟩, ⟨8, .wo, MBX_URGENT.ACT⟩, ⟨0, .wo, MBX_URGENT.MASK⟩]⟩,
   ⟨0x498, 0x0, 1, 0x0, 1, 0x0, 1, [⟨0, .rw, MBX_NOTE_HEAD.HEAD⟩]⟩,
   ⟨0x49c, 0x0, 1, 0x0, 1, 0x0, 1, [⟨16, .rc, MBX_NOTE_TAIL.LOST⟩, ⟨0, .ro, MBX_NOTE_TAIL.TAIL⟩]⟩,
   ⟨0x4c0, 0x4, 8, 0x0, 1, 0x0, 1, [⟨0, .ro, ROLE_EPOCHn.EPOCH⟩]⟩,
   ⟨0x500, 0x4, 16, 0x0, 1, 0x0, 1, [⟨16, .ro, GRPg.MASK⟩, ⟨0, .ro, GRPg.EPOCH⟩]⟩,
   ⟨0x800, 0x0, 1, 0x0, 1, 0x0, 1, [⟨31, .w1c, REG_ERR.VALID⟩, ⟨28, .ro, REG_ERR.CAUSE⟩, ⟨27, .ro, REG_ERR.WRITE⟩, ⟨24, .ro, REG_ERR.BAR⟩, ⟨0, .rc, REG_ERR.COUNT⟩]⟩,
   ⟨0x804, 0x0, 1, 0x0, 1, 0x0, 1, [⟨0, .ro, REG_ERR_ADDR.OFFSET⟩]⟩,
   ⟨0x808, 0x0, 1, 0x0, 1, 0x0, 1, [⟨0, .w1c, HP_EVIRQ.PEND⟩]⟩,
   ⟨0x80c, 0x0, 1, 0x0, 1, 0x0, 1, [⟨8, .ro, HP_LINK.WIDTH⟩, ⟨0, .ro, HP_LINK.RATE⟩]⟩,
   ⟨0x1000, 0x0, 1, 0x0, 1, 0x0, 1, [⟨31, .rw, PWR_CTRL.OWN⟩, ⟨16, .rw, PWR_CTRL.REQ⟩, ⟨0, .wo, PWR_CTRL.GO⟩]⟩,
   ⟨0x1004, 0x0, 1, 0x0, 1, 0x0, 1, [⟨30, .ro, PWR_STAT.STATE⟩, ⟨24, .ro, PWR_STAT.WAKE_SRC⟩, ⟨8, .w1c, PWR_STAT.RAIL_LOW⟩, ⟨3, .w1c, PWR_STAT.THERM_WARN⟩, ⟨2, .w1c, PWR_STAT.SEQ_ERR⟩, ⟨1, .w1c, PWR_STAT.ENTRY_REJ⟩]⟩,
   ⟨0x1008, 0x0, 1, 0x0, 1, 0x0, 1, [⟨12, .ro, PWR_STRAP.VIO⟩, ⟨9, .ro, PWR_STRAP.BOOT⟩, ⟨8, .ro, PWR_STRAP.REFSEL⟩, ⟨5, .ro, PWR_STRAP.RING⟩, ⟨4, .ro, PWR_STRAP.HVLIM⟩, ⟨3, .ro, PWR_STRAP.LANES⟩, ⟨2, .ro, PWR_STRAP.CLRSEL⟩]⟩,
   ⟨0x100c, 0x0, 1, 0x0, 1, 0x0, 1, [⟨28, .ro, PWR_BOOT.STAGE⟩, ⟨24, .ro, PWR_BOOT.FAIL⟩, ⟨12, .ro, PWR_BOOT.MS⟩, ⟨8, .ro, PWR_BOOT.LDR⟩, ⟨7, .w1c, PWR_BOOT.OVR_DEF⟩, ⟨6, .w1c, PWR_BOOT.EARLY⟩]⟩,
   ⟨0x1010, 0x0, 1, 0x0, 1, 0x0, 1, [⟨0, .ro, PWR_RAIL.GOOD⟩]⟩,
   ⟨0x1014, 0x0, 1, 0x0, 1, 0x0, 1, [⟨16, .rc, PWR_LINK.RETURN⟩, ⟨0, .rc, PWR_LINK.SAMPLE⟩]⟩,
   ⟨0x1018, 0x0, 1, 0x0, 1, 0x0, 1, [⟨8, .rw, PWR_TWARN.HV⟩, ⟨0, .rw, PWR_TWARN.LOG⟩]⟩,
   ⟨0x1020, 0x4, 9, 0x0, 1, 0x0, 1, [⟨16, .rc, PWR_TLOGs.MAX⟩, ⟨0, .ro, PWR_TLOGs.TEMP⟩]⟩,
   ⟨0x1050, 0x4, 8, 0x0, 1, 0x0, 1, [⟨16, .rc, PWR_THVs.MAX⟩, ⟨0, .ro, PWR_THVs.TEMP⟩]⟩,
   ⟨0x1100, 0x0, 1, 0x0, 1, 0x0, 1, [⟨31, .ro, FLS_STAT.OP_BUSY⟩, ⟨30, .ro, FLS_STAT.SUSPENDED⟩, ⟨0, .rc, FLS_STAT.SUSPENDS⟩]⟩,
   ⟨0x1104, 0x0, 1, 0x0, 1, 0x0, 1, [⟨0, .ro, FLS_ID.JEDEC⟩]⟩,
   ⟨0x2000, 0x0, 1, 0x0, 1, 0x0, 1, [⟨31, .rw, EVL_CTRL.OWN⟩, ⟨0, .rw, EVL_CTRL.DIV⟩]⟩,
   ⟨0x2004, 0x0, 1, 0x0, 1, 0x0, 1, [⟨0, .w1c, EVL_STAT.CFG_REJ⟩]⟩,
   ⟨0x2008, 0x0, 1, 0x0, 1, 0x0, 1, [⟨0, .wo, EVL_FIRE_LO.FIRE_LO⟩]⟩,
   ⟨0x200c, 0x0, 1, 0x0, 1, 0x0, 1, [⟨0, .wo, EVL_FIRE_HI.FIRE_HI⟩]⟩,
   ⟨0x2010, 0x0, 1, 0x0, 1, 0x0, 1, [⟨0, .w1c, EVL_SLEEP_LO.SEEN_LO⟩]⟩,
   ⟨0x2014, 0x0, 1, 0x0, 1, 0x0, 1, [⟨0, .w1c, EVL_SLEEP_HI.SEEN_HI⟩]⟩,
   ⟨0x2018, 0x0, 1, 0x0, 1, 0x0, 1, [⟨8, .rw, TRIG_CTRL.EDGE⟩, ⟨0, .rw, TRIG_CTRL.EN⟩]⟩,
   ⟨0x2020, 0x0, 1, 0x0, 1, 0x0, 1, [⟨0, .w1s, EVL_TS_ARM_LO.ARM_LO⟩]⟩]

/-- Registers from address 0x2024. -/
def regRows2 : List Row :=
  [⟨0x2024, 0x0, 1, 0x0, 1, 0x0, 1, [⟨0, .w1s, EVL_TS_ARM_HI.ARM_HI⟩]⟩,
   ⟨0x2030, 0x0, 1, 0x0, 1, 0x0, 1, [⟨0, .ro, EVS_LMIN.LMIN⟩]⟩,
   ⟨0x2034, 0x0, 1, 0x0, 1, 0x0, 1, [⟨5, .w1c, EVS_STAT.REMOTE_LATE⟩, ⟨4, .w1c, EVS_STAT.RATE⟩, ⟨3, .w1c, EVS_STAT.REFUSED⟩, ⟨2, .w1c, EVS_STAT.L_RAISED⟩, ⟨1, .w1c, EVS_STAT.PEND_OVF⟩, ⟨0, .w1c, EVS_STAT.LATE⟩]⟩,
   ⟨0x2038, 0x0, 1, 0x0, 1, 0x0, 1, [⟨16, .wo, EVS_FIRE.L⟩, ⟨0, .wo, EVS_FIRE.ID⟩]⟩,
   ⟨0x203c, 0x0, 1, 0x0, 1, 0x0, 1, [⟨16, .ro, EVS_LATE.COUNT⟩, ⟨0, .ro, EVS_LATE.LAST_ID⟩]⟩,
   ⟨0x2040, 0x0, 1, 0x0, 1, 0x0, 1, [⟨0, .ro, EVS_LAND_LO.LAND_LO⟩]⟩,
   ⟨0x2044, 0x0, 1, 0x0, 1, 0x0, 1, [⟨0, .ro, EVS_LAND_HI.LAND_HI⟩]⟩,
   ⟨0x2060, 0x4, 8, 0x0, 1, 0x0, 1, [⟨31, .w1c, FJ_LASTn.CUT⟩, ⟨16, .ro, FJ_LASTn.PHASE⟩, ⟨0, .ro, FJ_LASTn.TICK⟩]⟩,
   ⟨0x20a0, 0x4, 16, 0x0, 1, 0x0, 1, [⟨31, .rw, EVS_TXx.EN⟩, ⟨16, .rw, EVS_TXx.L⟩, ⟨0, .rw, EVS_TXx.ID⟩]⟩,
   ⟨0x2100, 0x10, 64, 0x4, 4, 0x0, 1, [⟨16, .rw, EVL_SRCn_r.SLOT_HI⟩, ⟨0, .rw, EVL_SRCn_r.SLOT_LO⟩]⟩,
   ⟨0x2500, 0x20, 64, 0x4, 8, 0x0, 1, [⟨16, .rw, EVL_DSTn_r.SLOT_HI⟩, ⟨0, .rw, EVL_DSTn_r.SLOT_LO⟩]⟩,
   ⟨0x2d00, 0x4, 64, 0x0, 1, 0x0, 1, [⟨16, .rc, EVL_OVRn.COUNT⟩, ⟨0, .w1c, EVL_OVRn.SLOT⟩]⟩,
   ⟨0x2e00, 0x10, 64, 0x0, 1, 0x0, 1, [⟨0, .ro, EVL_TSn_LO.CRS_LO⟩]⟩,
   ⟨0x2e04, 0x10, 64, 0x0, 1, 0x0, 1, [⟨0, .ro, EVL_TSn_HI.CRS_HI⟩]⟩,
   ⟨0x2e08, 0x10, 64, 0x0, 1, 0x0, 1, [⟨31, .ro, EVL_TSn_POS.SYS⟩, ⟨15, .ro, EVL_TSn_POS.FINE⟩, ⟨0, .ro, EVL_TSn_POS.TICK⟩]⟩,
   ⟨0x4000, 0x4, 2048, 0x0, 1, 0x0, 1, [⟨31, .rw, EVS_MAP.EN_ODD⟩, ⟨16, .rw, EVS_MAP.LINE_ODD⟩, ⟨15, .rw, EVS_MAP.EN_EVEN⟩, ⟨0, .rw, EVS_MAP.LINE_EVEN⟩]⟩,
   ⟨0x6000, 0x0, 1, 0x0, 1, 0x0, 1, [⟨31, .rw, RING_CTRL.OWN⟩, ⟨8, .rw, RING_CTRL.AUTO_REJOIN⟩, ⟨4, .rw, RING_CTRL.ISL_POL⟩, ⟨0, .rwl, RING_CTRL.ROLE⟩]⟩,
   ⟨0x6004, 0x0, 1, 0x0, 1, 0x0, 1, [⟨28, .ro, RING_STAT.STATE⟩, ⟨27, .ro, RING_STAT.ALIGNED⟩, ⟨26, .ro, RING_STAT.CROSS⟩, ⟨25, .ro, RING_STAT.ISL_HEAD⟩, ⟨24, .ro, RING_STAT.WAIT⟩, ⟨13, .w1c, RING_STAT.MSG_LOST⟩, ⟨12, .w1c, RING_STAT.EV_WAIT⟩, ⟨11, .w1c, RING_STAT.SPLIT⟩, ⟨10, .w1c, RING_STAT.ROOT_CHG⟩, ⟨9, .w1c, RING_STAT.REFUSED⟩, ⟨8, .w1c, RING_STAT.NO_CAND⟩, ⟨7, .w1c, RING_STAT.JOINT_ERR⟩, ⟨6, .w1c, RING_STAT.ASYM⟩, ⟨5, .w1c, RING_STAT.WIRING⟩, ⟨4, .w1c, RING_STAT.LONG⟩, ⟨3, .w1c, RING_STAT.LINK_CHG⟩, ⟨2, .w1c, RING_STAT.CFG_REJ⟩]⟩,
   ⟨0x6008, 0x0, 1, 0x0, 1, 0x0, 1, [⟨2, .wo, RING_CMD.RECAL⟩, ⟨1, .wo, RING_CMD.REJOIN⟩, ⟨0, .wo, RING_CMD.JOIN⟩]⟩,
   ⟨0x600c, 0x0, 1, 0x0, 1, 0x0, 1, [⟨24, .rw, RING_ID.PRIO⟩, ⟨0, .ro, RING_ID.INDEX⟩]⟩,
   ⟨0x6010, 0x0, 1, 0x0, 1, 0x0, 1, [⟨16, .ro, RING_ROSTER.N⟩, ⟨0, .ro, RING_ROSTER.ROOT⟩]⟩,
   ⟨0x6014, 0x0, 1, 0x0, 1, 0x0, 1, [⟨0, .rw, RING_CFG.EVICT⟩]⟩,
   ⟨0x6018, 0x0, 1, 0x0, 1, 0x0, 1, [⟨0, .ro, RING_CLOSE.CLOSE⟩]⟩,
   ⟨0x601c, 0x0, 1, 0x0, 1, 0x0, 1, [⟨0, .ro, RING_CLOSE_BASE.BASE⟩]⟩,
   ⟨0x6020, 0x0, 1, 0x0, 1, 0x0, 1, [⟨0, .ro, RING_PHASE.PHASE⟩]⟩,
   ⟨0x6024, 0x0, 1, 0x0, 1, 0x0, 1, [⟨16, .rc, RING_CNT.PARTS⟩, ⟨0, .rc, RING_CNT.LOSSES⟩]⟩,
   ⟨0x6028, 0x0, 1, 0x0, 1, 0x0, 1, [⟨0, .ro, RING_JOIN_LO.JOIN_LO⟩]⟩,
   ⟨0x602c, 0x0, 1, 0x0, 1, 0x0, 1, [⟨0, .ro, RING_JOIN_HI.JOIN_HI⟩]⟩,
   ⟨0x6030, 0x0, 1, 0x0, 1, 0x0, 1, [⟨0, .ro, RING_ACCEPT_LO.ACC_LO⟩]⟩,
   ⟨0x6034, 0x0, 1, 0x0, 1, 0x0, 1, [⟨0, .ro, RING_ACCEPT_HI.ACC_HI⟩]⟩]

/-- Registers from address 0x6040. -/
def regRows3 : List Row :=
  [⟨0x6040, 0x20, 2, 0x0, 1, 0x0, 1, [⟨31, .ro, RING_Pp_STAT.LINK⟩, ⟨30, .ro, RING_Pp_STAT.UP⟩, ⟨29, .ro, RING_Pp_STAT.FWD⟩, ⟨28, .ro, RING_Pp_STAT.REV⟩, ⟨16, .ro, RING_Pp_STAT.HOPS⟩, ⟨0, .ro, RING_Pp_STAT.PEER⟩]⟩,
   ⟨0x6044, 0x20, 2, 0x0, 1, 0x0, 1, [⟨0, .ro, RING_Pp_DLY.DELAY⟩]⟩,
   ⟨0x6048, 0x20, 2, 0x0, 1, 0x0, 1, [⟨0, .ro, RING_Pp_ASYM.ASYM⟩]⟩,
   ⟨0x604c, 0x20, 2, 0x0, 1, 0x0, 1, [⟨0, .ro, RING_Pp_OFS.OFS⟩]⟩,
   ⟨0x6050, 0x20, 2, 0x0, 1, 0x0, 1, [⟨16, .rc, RING_Pp_ERR.CRC⟩, ⟨0, .rc, RING_Pp_ERR.CV⟩]⟩,
   ⟨0x6080, 0x0, 1, 0x0, 1, 0x0, 1, [⟨31, .ro, RING_MTX_CTRL.BUSY⟩, ⟨30, .wo, RING_MTX_CTRL.GO⟩, ⟨16, .rw, RING_MTX_CTRL.LEN⟩, ⟨0, .rw, RING_MTX_CTRL.DEST⟩]⟩,
   ⟨0x6090, 0x4, 16, 0x0, 1, 0x0, 1, [⟨0, .rw, RING_MTX_Dw.DATA⟩]⟩,
   ⟨0x60d0, 0x0, 1, 0x0, 1, 0x0, 1, [⟨16, .ro, RING_MRX_STAT.COUNT⟩, ⟨0, .rc, RING_MRX_STAT.LOST⟩]⟩,
   ⟨0x60d4, 0x0, 1, 0x0, 1, 0x0, 1, [⟨0, .wo, RING_MRX_POP.POP⟩]⟩,
   ⟨0x60d8, 0x0, 1, 0x0, 1, 0x0, 1, [⟨24, .ro, RING_MRX_HDR.SEQ⟩, ⟨16, .ro, RING_MRX_HDR.LEN⟩, ⟨0, .ro, RING_MRX_HDR.SRC⟩]⟩,
   ⟨0x60e0, 0x4, 16, 0x0, 1, 0x0, 1, [⟨0, .ro, RING_MRX_Dw.DATA⟩]⟩,
   ⟨0x7000, 0x0, 1, 0x0, 1, 0x0, 1, [⟨31, .rw, MEM_CTRL.OWN⟩, ⟨8, .rw, MEM_CTRL.RET_CH⟩]⟩,
   ⟨0x7004, 0x0, 1, 0x0, 1, 0x0, 1, [⟨16, .ro, MEM_STAT.START_OK⟩, ⟨6, .w1c, MEM_STAT.B4_RSV⟩, ⟨5, .w1c, MEM_STAT.MT_FAIL⟩, ⟨4, .w1c, MEM_STAT.BANK_RET⟩, ⟨3, .w1c, MEM_STAT.SPARE_OUT⟩, ⟨2, .w1c, MEM_STAT.REPAIR⟩, ⟨1, .w1c, MEM_STAT.CE⟩, ⟨0, .w1c, MEM_STAT.UE⟩]⟩,
   ⟨0x7008, 0x0, 1, 0x0, 1, 0x0, 1, [⟨31, .ro, MEM_MT.BUSY⟩, ⟨28, .ro, MEM_MT.RESULT⟩, ⟨8, .rw, MEM_MT.BANK⟩, ⟨4, .rw, MEM_MT.CH⟩, ⟨0, .wo, MEM_MT.START⟩]⟩,
   ⟨0x7010, 0x4, 8, 0x0, 1, 0x0, 1, [⟨16, .rc, MEM_ECCn.UE⟩, ⟨0, .rc, MEM_ECCn.CE⟩]⟩,
   ⟨0x7030, 0x0, 1, 0x0, 1, 0x0, 1, [⟨16, .rc, MEM_ECC_TCM.UE⟩, ⟨0, .rc, MEM_ECC_TCM.CE⟩]⟩,
   ⟨0x7034, 0x0, 1, 0x0, 1, 0x0, 1, [⟨16, .rc, MEM_ECC_MBX.UE⟩, ⟨0, .rc, MEM_ECC_MBX.CE⟩]⟩,
   ⟨0x7038, 0x0, 1, 0x0, 1, 0x0, 1, [⟨16, .rc, MEM_ECC_DIR.UE⟩, ⟨0, .rc, MEM_ECC_DIR.CE⟩]⟩,
   ⟨0x7040, 0x4, 8, 0x0, 1, 0x0, 1, [⟨16, .ro, MEM_BANKn.RETIRED⟩, ⟨0, .ro, MEM_BANKn.SPARE_OUT⟩]⟩,
   ⟨0x7060, 0x4, 8, 0x0, 1, 0x0, 1, [⟨0, .ro, MEM_MAPn.STEP_BANK⟩]⟩,
   ⟨0x7080, 0x0, 1, 0x0, 1, 0x0, 1, [⟨31, .w1c, MEM_LAST_UE.VALID⟩, ⟨24, .ro, MEM_LAST_UE.ARRAY⟩, ⟨16, .ro, MEM_LAST_UE.BANK⟩, ⟨0, .ro, MEM_LAST_UE.ROW⟩]⟩,
   ⟨0x7400, 0x0, 1, 0x0, 1, 0x0, 1, [⟨31, .rw, STK_CTRL.OWN⟩]⟩,
   ⟨0x7404, 0x0, 1, 0x0, 1, 0x0, 1, [⟨16, .rw, STK_SCRUB.DRAM_T⟩, ⟨0, .rw, STK_SCRUB.SRAM_T⟩]⟩,
   ⟨0x7408, 0x0, 1, 0x0, 1, 0x0, 1, [⟨16, .ro, STK_SCRUB_STAT.PASSES⟩, ⟨0, .ro, STK_SCRUB_STAT.FAST⟩]⟩,
   ⟨0x740c, 0x0, 1, 0x0, 1, 0x0, 1, [⟨8, .wo, STK_CMD.SAVE⟩, ⟨4, .rw, STK_CMD.CH⟩, ⟨0, .wo, STK_CMD.SEG_TEST⟩]⟩,
   ⟨0x7410, 0x0, 1, 0x0, 1, 0x0, 1, [⟨4, .ro, STK_STAT.SEG_BUSY⟩, ⟨2, .w1c, STK_STAT.CFG_REJ⟩, ⟨1, .w1c, STK_STAT.REC_DEF⟩, ⟨0, .w1c, STK_STAT.SAVE_FAIL⟩]⟩,
   ⟨0x7420, 0x0, 1, 0x0, 1, 0x0, 1, [⟨0, .ro, STK_HOURS.HOURS⟩]⟩,
   ⟨0x7424, 0x0, 1, 0x0, 1, 0x0, 1, [⟨8, .ro, STK_TMAX.HV⟩, ⟨0, .ro, STK_TMAX.LOG⟩]⟩,
   ⟨0x7440, 0x10, 8, 0x0, 1, 0x0, 1, [⟨0, .ro, STK_CHn_WEAR0.HV_HOURS⟩]⟩,
   ⟨0x7444, 0x10, 8, 0x0, 1, 0x0, 1, [⟨24, .ro, STK_CHn_WEAR1.LV_SPARES⟩, ⟨16, .ro, STK_CHn_WEAR1.HV_SPARES⟩, ⟨8, .ro, STK_CHn_WEAR1.SEG_RET⟩, ⟨0, .ro, STK_CHn_WEAR1.SRAM_COLS⟩]⟩]

/-- Registers from address 0x7448. -/
def regRows4 : List Row :=
  [⟨0x7448, 0x10, 8, 0x0, 1, 0x0, 1, [⟨16, .ro, STK_CHn_WEAR2.FRAMES_RET⟩, ⟨0, .ro, STK_CHn_WEAR2.SHORTS⟩]⟩,
   ⟨0x744c, 0x10, 8, 0x0, 1, 0x0, 1, [⟨16, .ro, STK_CHn_WEAR3.SEG_PERM⟩, ⟨0, .ro, STK_CHn_WEAR3.MISMATCH⟩]⟩,
   ⟨0x8000, 0x0, 1, 0x0, 1, 0x0, 1, [⟨31, .rw, BB_CTRL.OWN⟩, ⟨4, .rw, BB_CTRL.RXALL⟩, ⟨3, .rw, BB_CTRL.ALLOW_EN⟩, ⟨0, .rw, BB_CTRL.EN⟩]⟩,
   ⟨0x8004, 0x0, 1, 0x0, 1, 0x0, 1, [⟨31, .ro, BB_STAT.STOPPED⟩, ⟨30, .ro, BB_STAT.PLCA_ACT⟩, ⟨29, .ro, BB_STAT.COORD⟩, ⟨9, .w1c, BB_STAT.TX_DISC⟩, ⟨8, .w1c, BB_STAT.TX_DROP⟩, ⟨7, .w1c, BB_STAT.TX_REJ⟩, ⟨6, .w1c, BB_STAT.RXQ_OVF⟩, ⟨5, .w1c, BB_STAT.STRANGER⟩, ⟨4, .w1c, BB_STAT.DUP_ID⟩, ⟨3, .w1c, BB_STAT.NO_TO⟩, ⟨0, .w1c, BB_STAT.CFG_REJ⟩]⟩,
   ⟨0x8008, 0x0, 1, 0x0, 1, 0x0, 1, [⟨31, .rw, BB_PLCA.EN⟩, ⟨16, .rw, BB_PLCA.TOT⟩, ⟨8, .rw, BB_PLCA.NCNT⟩, ⟨0, .rw, BB_PLCA.ID⟩]⟩,
   ⟨0x800c, 0x0, 1, 0x0, 1, 0x0, 1, [⟨31, .ro, BB_STOP.UNTIL_RESUME⟩, ⟨16, .ro, BB_STOP.SRC⟩, ⟨0, .ro, BB_STOP.LEFT⟩]⟩,
   ⟨0x8010, 0x0, 1, 0x0, 1, 0x0, 1, [⟨0, .ro, BB_MAC_LO.MAC_LO⟩]⟩,
   ⟨0x8014, 0x0, 1, 0x0, 1, 0x0, 1, [⟨0, .ro, BB_MAC_HI.MAC_HI⟩]⟩,
   ⟨0x8020, 0x0, 1, 0x0, 1, 0x0, 1, [⟨16, .rc, BB_ERR0.CRC⟩, ⟨0, .rc, BB_ERR0.SYM⟩]⟩,
   ⟨0x8024, 0x0, 1, 0x0, 1, 0x0, 1, [⟨16, .rc, BB_ERR1.PLCA_COLL⟩, ⟨0, .rc, BB_ERR1.BCN_LOSS⟩]⟩,
   ⟨0x8028, 0x0, 1, 0x0, 1, 0x0, 1, [⟨16, .rc, BB_ERR2.COLL⟩, ⟨0, .rc, BB_ERR2.LATE_COLL⟩]⟩,
   ⟨0x802c, 0x0, 1, 0x0, 1, 0x0, 1, [⟨16, .rc, BB_ERR3.JABBER⟩, ⟨0, .rc, BB_ERR3.XCOLL⟩]⟩,
   ⟨0x8030, 0x0, 1, 0x0, 1, 0x0, 1, [⟨16, .rc, BB_ERR4.STRANGER⟩, ⟨0, .rc, BB_ERR4.DISCARD⟩]⟩,
   ⟨0x8040, 0x0, 1, 0x0, 1, 0x0, 1, [⟨8, .rw, BB_PTP_CTRL.DOMAIN⟩, ⟨0, .rw, BB_PTP_CTRL.EN⟩]⟩,
   ⟨0x8044, 0x0, 1, 0x0, 1, 0x0, 1, [⟨16, .ro, BB_PTP_STAT.OFS⟩, ⟨8, .ro, BB_PTP_STAT.VALID⟩, ⟨0, .ro, BB_PTP_STAT.STATE⟩]⟩,
   ⟨0x8048, 0x0, 1, 0x0, 1, 0x0, 1, [⟨0, .ro, BB_TOD_CRS_LO.CRS_LO⟩]⟩,
   ⟨0x804c, 0x0, 1, 0x0, 1, 0x0, 1, [⟨0, .ro, BB_TOD_CRS_HI.CRS_HI⟩]⟩,
   ⟨0x8050, 0x0, 1, 0x0, 1, 0x0, 1, [⟨0, .ro, BB_TOD_SEC_LO.SEC_LO⟩]⟩,
   ⟨0x8054, 0x0, 1, 0x0, 1, 0x0, 1, [⟨0, .ro, BB_TOD_SEC_HI.SEC_HI⟩]⟩,
   ⟨0x8058, 0x0, 1, 0x0, 1, 0x0, 1, [⟨0, .ro, BB_TOD_NS.NS⟩]⟩,
   ⟨0x8100, 0x8, 16, 0x0, 1, 0x0, 1, [⟨0, .rw, BB_ALLOWa_LO.MAC_LO⟩]⟩,
   ⟨0x8104, 0x8, 16, 0x0, 1, 0x0, 1, [⟨31, .rw, BB_ALLOWa_HI.EN⟩, ⟨30, .rw, BB_ALLOWa_HI.STOP_OK⟩, ⟨0, .rw, BB_ALLOWa_HI.MAC_HI⟩]⟩,
   ⟨0x8200, 0x20, 16, 0x0, 1, 0x0, 1, [⟨31, .rw, BB_FLTx_0.EN⟩, ⟨30, .rw, BB_FLTx_0.Q⟩, ⟨16, .rw, BB_FLTx_0.POFS⟩, ⟨8, .rw, BB_FLTx_0.KIND⟩, ⟨0, .rw, BB_FLTx_0.SRC⟩]⟩,
   ⟨0x8204, 0x20, 16, 0x0, 1, 0x0, 1, [⟨0, .rw, BB_FLTx_1.TOPIC⟩]⟩,
   ⟨0x8208, 0x20, 16, 0x0, 1, 0x0, 1, [⟨0, .rw, BB_FLTx_2.TMASK⟩]⟩,
   ⟨0x820c, 0x20, 16, 0x0, 1, 0x0, 1, [⟨0, .rw, BB_FLTx_3.PVAL⟩]⟩,
   ⟨0x8210, 0x20, 16, 0x0, 1, 0x0, 1, [⟨0, .rw, BB_FLTx_4.PMASK⟩]⟩,
   ⟨0x8400, 0x40, 16, 0x0, 1, 0x0, 1, [⟨31, .ro, BB_TXx_0.BUSY⟩, ⟨30, .rw, BB_TXx_0.ESS⟩, ⟨24, .rw, BB_TXx_0.DEST⟩, ⟨16, .rw, BB_TXx_0.LEN⟩, ⟨0, .rw, BB_TXx_0.KIND⟩]⟩,
   ⟨0x8404, 0x40, 16, 0x0, 1, 0x0, 1, [⟨0, .rw, BB_TXx_1.TOPIC⟩]⟩,
   ⟨0x8408, 0x40, 16, 0x4, 8, 0x0, 1, [⟨0, .rw, BB_TXx_D.DATA⟩]⟩]

/-- Registers from address 0x8800. -/
def regRows5 : List Row :=
  [⟨0x8800, 0x0, 1, 0x0, 1, 0x0, 1, [⟨31, .ro, BB_HTX_CTRL.BUSY⟩, ⟨30, .rw, BB_HTX_CTRL.ESS⟩, ⟨29, .wo, BB_HTX_CTRL.GO⟩, ⟨24, .rw, BB_HTX_CTRL.DEST⟩, ⟨8, .rw, BB_HTX_CTRL.LEN⟩, ⟨0, .rw, BB_HTX_CTRL.KIND⟩]⟩,
   ⟨0x8804, 0x0, 1, 0x0, 1, 0x0, 1, [⟨0, .rw, BB_HTX_TOPIC.TOPIC⟩]⟩,
   ⟨0x8900, 0x4, 64, 0x0, 1, 0x0, 1, [⟨0, .rw, BB_HTX_Dw.DATA⟩]⟩,
   ⟨0x8a00, 0x0, 1, 0x0, 1, 0x0, 1, [⟨16, .ro, BB_RXQ_00.COUNT⟩, ⟨0, .rc, BB_RXQ_00.LOST⟩]⟩,
   ⟨0x8a04, 0x0, 1, 0x0, 1, 0x0, 1, [⟨0, .wo, BB_RXQ_04.POP⟩]⟩,
   ⟨0x8a08, 0x0, 1, 0x0, 1, 0x0, 1, [⟨0, .ro, BB_RXQ_08.SRC_LO⟩]⟩,
   ⟨0x8a0c, 0x0, 1, 0x0, 1, 0x0, 1, [⟨16, .ro, BB_RXQ_0C.SEQ⟩, ⟨0, .ro, BB_RXQ_0C.SRC_HI⟩]⟩,
   ⟨0x8a10, 0x0, 1, 0x0, 1, 0x0, 1, [⟨0, .ro, BB_RXQ_10.TOPIC⟩]⟩,
   ⟨0x8a14, 0x0, 1, 0x0, 1, 0x0, 1, [⟨31, .ro, BB_RXQ_14.TRUNC⟩, ⟨24, .ro, BB_RXQ_14.ENTRY⟩, ⟨16, .ro, BB_RXQ_14.KIND⟩, ⟨14, .ro, BB_RXQ_14.FLAGS⟩, ⟨0, .ro, BB_RXQ_14.LEN⟩]⟩,
   ⟨0x8a18, 0x0, 1, 0x0, 1, 0x0, 1, [⟨0, .ro, BB_RXQ_18.T_SEC⟩]⟩,
   ⟨0x8a1c, 0x0, 1, 0x0, 1, 0x0, 1, [⟨0, .ro, BB_RXQ_1C.T_NS⟩]⟩,
   ⟨0x8a20, 0x0, 1, 0x0, 1, 0x0, 1, [⟨0, .ro, BB_RXQ_20.CRS_LO⟩]⟩,
   ⟨0x8a24, 0x0, 1, 0x0, 1, 0x0, 1, [⟨0, .ro, BB_RXQ_24.CRS_HI⟩]⟩,
   ⟨0x8a28, 0x0, 1, 0x0, 1, 0x0, 1, [⟨0, .ro, BB_RXQ_28.TICK⟩]⟩,
   ⟨0x8b00, 0x4, 64, 0x0, 1, 0x0, 1, [⟨0, .ro, BB_RXQ_Dw.DATA⟩]⟩,
   ⟨0xa000, 0x40, 8, 0x0, 1, 0x0, 1, [⟨12, .rw, DMA_Qq_BASE_LO.BASE_LO⟩]⟩,
   ⟨0xa004, 0x40, 8, 0x0, 1, 0x0, 1, [⟨0, .rw, DMA_Qq_BASE_HI.BASE_HI⟩]⟩,
   ⟨0xa008, 0x40, 8, 0x0, 1, 0x0, 1, [⟨31, .rw, DMA_Qq_CFG.EN⟩, ⟨16, .wo, DMA_Qq_CFG.RESUME⟩, ⟨0, .rw, DMA_Qq_CFG.SIZE⟩]⟩,
   ⟨0xa00c, 0x40, 8, 0x0, 1, 0x0, 1, [⟨0, .rw, DMA_Qq_TAIL.TAIL⟩]⟩,
   ⟨0xa010, 0x40, 8, 0x0, 1, 0x0, 1, [⟨0, .ro, DMA_Qq_HEAD.HEAD⟩]⟩,
   ⟨0xa014, 0x40, 8, 0x0, 1, 0x0, 1, [⟨31, .ro, DMA_Qq_STAT.STOPPED⟩, ⟨16, .ro, DMA_Qq_STAT.ERR_IDX⟩, ⟨8, .w1c, DMA_Qq_STAT.HOST_ERR⟩, ⟨7, .w1c, DMA_Qq_STAT.DEV_UE⟩, ⟨6, .w1c, DMA_Qq_STAT.BAD_DESC⟩]⟩,
   ⟨0x10001000, 0x400000, 8, 0x0, 1, 0x0, 1, [⟨31, .rw, SEQ_CTRL.OWN⟩, ⟨16, .rw, SEQ_CTRL.START_STEP⟩]⟩,
   ⟨0x10001004, 0x400000, 8, 0x0, 1, 0x0, 1, [⟨16, .ro, SEQ_STAT.STEP⟩, ⟨14, .ro, SEQ_STAT.CMD_PEND⟩, ⟨13, .w1c, SEQ_STAT.CMD_LATE⟩, ⟨12, .w1c, SEQ_STAT.CMD_REJ⟩, ⟨11, .w1c, SEQ_STAT.CFG_REJ⟩, ⟨10, .w1c, SEQ_STAT.FALLBACK⟩, ⟨9, .w1c, SEQ_STAT.RUN_END⟩, ⟨8, .w1c, SEQ_STAT.STEP_FAULT⟩, ⟨0, .ro, SEQ_STAT.STATE⟩]⟩,
   ⟨0x10001008, 0x400000, 8, 0x0, 1, 0x0, 1, [⟨0, .wo, SEQ_CMD.CMD⟩]⟩,
   ⟨0x1000100c, 0x400000, 8, 0x0, 1, 0x0, 1, [⟨14, .rw, SEQ_TRIG.JMP3_POL⟩, ⟨12, .rw, SEQ_TRIG.JMP2_POL⟩, ⟨10, .rw, SEQ_TRIG.JMP1_POL⟩, ⟨8, .rw, SEQ_TRIG.JMP0_POL⟩, ⟨0, .rw, SEQ_TRIG.START_POL⟩]⟩,
   ⟨0x10001010, 0x400000, 8, 0x0, 1, 0x0, 1, [⟨0, .rw, SEQ_AT_LO.AT_LO⟩]⟩,
   ⟨0x10001014, 0x400000, 8, 0x0, 1, 0x0, 1, [⟨0, .rw, SEQ_AT_HI.AT_HI⟩]⟩,
   ⟨0x10001018, 0x400000, 8, 0x0, 1, 0x0, 1, [⟨16, .ro, SEQ_FAULT.CAUSE⟩, ⟨0, .ro, SEQ_FAULT.STEP⟩]⟩,
   ⟨0x1000101c, 0x400000, 8, 0x0, 1, 0x0, 1, [⟨24, .w1c, SEQ_LS.SWITCH⟩, ⟨18, .ro, SEQ_LS.SPARE_TAKEN⟩, ⟨17, .ro, SEQ_LS.PAIR_RETIRED⟩, ⟨16, .ro, SEQ_LS.ON_SPARE⟩, ⟨0, .ro, SEQ_LS.MISMATCH⟩]⟩,
   ⟨0x10001020, 0x400000, 8, 0x0, 1, 0x0, 1, [⟨31, .w1c, SEQ_SNAP.DONE⟩, ⟨30, .ro, SEQ_SNAP.PEND⟩, ⟨16, .wo, SEQ_SNAP.REQ⟩, ⟨0, .ro, SEQ_SNAP.GEN⟩]⟩]

/-- Registers from address 0x10001024. -/
def regRows6 : List Row :=
  [⟨0x10001024, 0x400000, 8, 0x0, 1, 0x0, 1, [⟨4, .ro, SEQ_PEND.JMP⟩, ⟨0, .ro, SEQ_PEND.START⟩]⟩,
   ⟨0x10001028, 0x400000, 8, 0x0, 1, 0x0, 1, [⟨0, .ro, SEQ_SNAP_CRS_LO.CRS_LO⟩]⟩,
   ⟨0x1000102c, 0x400000, 8, 0x0, 1, 0x0, 1, [⟨0, .ro, SEQ_SNAP_CRS_HI.CRS_HI⟩]⟩,
   ⟨0x10001030, 0x400000, 8, 0x0, 1, 0x0, 1, [⟨20, .ro, SEQ_SNAP_POS.STATE⟩, ⟨16, .ro, SEQ_SNAP_POS.DEPTH⟩, ⟨0, .ro, SEQ_SNAP_POS.STEP⟩]⟩,
   ⟨0x10001034, 0x400000, 8, 0x0, 1, 0x0, 1, [⟨0, .ro, SEQ_SNAP_OFS.TICKS⟩]⟩,
   ⟨0x10001040, 0x400000, 8, 0x8, 4, 0x0, 1, [⟨0, .ro, SEQ_SNAP_Lx_LO.DONE_LO⟩]⟩,
   ⟨0x10001044, 0x400000, 8, 0x8, 4, 0x0, 1, [⟨16, .ro, SEQ_SNAP_Lx_HI.CLOSE⟩, ⟨0, .ro, SEQ_SNAP_Lx_HI.DONE_HI⟩]⟩,
   ⟨0x10001060, 0x400000, 8, 0x8, 4, 0x0, 1, [⟨0, .ro, SEQ_LOOPx_LO.DONE_LO⟩]⟩,
   ⟨0x10001064, 0x400000, 8, 0x8, 4, 0x0, 1, [⟨16, .ro, SEQ_LOOPx_HI.GEN⟩, ⟨0, .ro, SEQ_LOOPx_HI.DONE_HI⟩]⟩,
   ⟨0x10002000, 0x400000, 8, 0x0, 1, 0x0, 1, [⟨31, .rw, CQ_CTRL.OWN⟩, ⟨0, .rw, CQ_CTRL.AHEAD⟩]⟩,
   ⟨0x10002004, 0x400000, 8, 0x0, 1, 0x0, 1, [⟨12, .w1c, CQ_STAT.CFG_REJ⟩, ⟨11, .w1c, CQ_STAT.HELD⟩, ⟨10, .w1c, CQ_STAT.SUPERSEDED⟩, ⟨9, .w1c, CQ_STAT.RELAY⟩, ⟨8, .w1c, CQ_STAT.LAY_MISS⟩, ⟨0, .ro, CQ_STAT.DEPTH⟩]⟩,
   ⟨0x10002008, 0x400000, 8, 0x0, 1, 0x0, 1, [⟨0, .ro, CQ_MISS.COUNT⟩]⟩,
   ⟨0x1000200c, 0x400000, 8, 0x0, 1, 0x0, 1, [⟨0, .ro, CQ_RELAY.COUNT⟩]⟩,
   ⟨0x10002010, 0x400000, 8, 0x0, 1, 0x0, 1, [⟨0, .rc, CQ_RELAY_MAX.TICKS⟩]⟩,
   ⟨0x10003000, 0x400000, 8, 0x0, 1, 0x0, 1, [⟨31, .rw, DDS_CTRL.OWN⟩, ⟨0, .wo, DDS_CTRL.APPLY⟩]⟩,
   ⟨0x10003004, 0x400000, 8, 0x0, 1, 0x0, 1, [⟨6, .w1c, DDS_STAT.APPLY_LOST⟩, ⟨5, .w1c, DDS_STAT.APPLY_REJ⟩, ⟨4, .w1c, DDS_STAT.APPLY_LATE⟩, ⟨3, .ro, DDS_STAT.APPLY_PEND⟩, ⟨2, .w1c, DDS_STAT.CFG_REJ⟩, ⟨1, .w1c, DDS_STAT.GAP⟩]⟩,
   ⟨0x10003008, 0x400000, 8, 0x0, 1, 0x0, 1, [⟨16, .rw, DDS_AMP.AMP_HV⟩, ⟨0, .rw, DDS_AMP.AMP_LV⟩]⟩,
   ⟨0x10003010, 0x400000, 8, 0x0, 1, 0x0, 1, [⟨0, .rwl, DDS_EPOCH_LO.EPOCH_LO⟩]⟩,
   ⟨0x10003014, 0x400000, 8, 0x0, 1, 0x0, 1, [⟨0, .rwl, DDS_EPOCH_HI.EPOCH_HI⟩]⟩,
   ⟨0x10003018, 0x400000, 8, 0x0, 1, 0x0, 1, [⟨0, .ro, DDS_POFS_LO.POFS_LO⟩]⟩,
   ⟨0x1000301c, 0x400000, 8, 0x0, 1, 0x0, 1, [⟨0, .ro, DDS_POFS_HI.POFS_HI⟩]⟩,
   ⟨0x10003020, 0x400000, 8, 0x0, 1, 0x0, 1, [⟨0, .rw, DDS_POFS_NEXT_LO.NEXT_LO⟩]⟩,
   ⟨0x10003024, 0x400000, 8, 0x0, 1, 0x0, 1, [⟨0, .rw, DDS_POFS_NEXT_HI.NEXT_HI⟩]⟩,
   ⟨0x10003028, 0x400000, 8, 0x0, 1, 0x0, 1, [⟨0, .rw, DDS_AT_LO.AT_LO⟩]⟩,
   ⟨0x1000302c, 0x400000, 8, 0x0, 1, 0x0, 1, [⟨0, .rw, DDS_AT_HI.AT_HI⟩]⟩,
   ⟨0x10003030, 0x400000, 8, 0x0, 1, 0x0, 1, [⟨0, .ro, DDS_FREQ_LO.FREQ_LO⟩]⟩,
   ⟨0x10003034, 0x400000, 8, 0x0, 1, 0x0, 1, [⟨16, .ro, DDS_FREQ_HI.CRS⟩, ⟨0, .ro, DDS_FREQ_HI.FREQ_HI⟩]⟩,
   ⟨0x10003038, 0x400000, 8, 0x0, 1, 0x0, 1, [⟨0, .ro, DDS_PHASE_LO.PHASE_LO⟩]⟩,
   ⟨0x1000303c, 0x400000, 8, 0x0, 1, 0x0, 1, [⟨16, .ro, DDS_PHASE_HI.CRS⟩, ⟨0, .ro, DDS_PHASE_HI.PHASE_HI⟩]⟩,
   ⟨0x10004000, 0x400000, 8, 0x0, 1, 0x0, 1, [⟨31, .rw, LV_CTRL.OWN⟩, ⟨0, .rw, LV_CTRL.EN⟩]⟩]

/-- Registers from address 0x10004004. -/
def regRows7 : List Row :=
  [⟨0x10004004, 0x400000, 8, 0x0, 1, 0x0, 1, [⟨8, .ro, LV_STAT.VIO_MK⟩, ⟨3, .w1c, LV_STAT.MK_SQZ⟩, ⟨2, .ro, LV_STAT.DLY_BUSY⟩, ⟨1, .ro, LV_STAT.HOLD⟩, ⟨0, .w1c, LV_STAT.SAT⟩]⟩,
   ⟨0x10004008, 0x400000, 8, 0x0, 1, 0x0, 1, [⟨0, .rw, LV_GAIN.GAIN⟩]⟩,
   ⟨0x1000400c, 0x400000, 8, 0x0, 1, 0x0, 1, [⟨0, .rw, LV_OFS.OFS⟩]⟩,
   ⟨0x10004010, 0x400000, 8, 0x0, 1, 0x0, 1, [⟨0, .rw, QUIET_CODE_LV.CODE⟩]⟩,
   ⟨0x10004014, 0x400000, 8, 0x0, 1, 0x0, 1, [⟨0, .rw, LV_DLY.USER⟩]⟩,
   ⟨0x10004018, 0x400000, 8, 0x0, 1, 0x0, 1, [⟨0, .ro, LV_DLY_CAL.CAL⟩]⟩,
   ⟨0x1000401c, 0x400000, 8, 0x0, 1, 0x0, 1, [⟨0, .rc, LV_SATCNT.COUNT⟩]⟩,
   ⟨0x10004020, 0x400000, 8, 0x0, 1, 0x0, 1, [⟨4, .rw, MK_CTRL.DRIVE⟩, ⟨0, .rw, MK_CTRL.EN⟩]⟩,
   ⟨0x10004024, 0x400000, 8, 0x0, 1, 0x0, 1, [⟨0, .rw, MK_QUIET.LEVEL⟩]⟩,
   ⟨0x10005000, 0x400000, 8, 0x0, 1, 0x0, 1, [⟨31, .rw, HV_CTRL.OWN⟩, ⟨16, .wo, HV_CTRL.PD_SWAP⟩, ⟨2, .rw, HV_CTRL.SL_EN⟩, ⟨1, .rw, HV_CTRL.PD_EN⟩, ⟨0, .rw, HV_CTRL.EN⟩]⟩,
   ⟨0x10005004, 0x400000, 8, 0x0, 1, 0x0, 1, [⟨31, .ro, HV_STAT.HVLIM⟩, ⟨28, .ro, HV_STAT.STATE⟩, ⟨24, .ro, HV_STAT.SC_RUN⟩, ⟨20, .ro, HV_STAT.FOLD⟩, ⟨19, .ro, HV_STAT.DLY_BUSY⟩, ⟨18, .ro, HV_STAT.SEG_DEGRADED⟩, ⟨17, .ro, HV_STAT.ILIM_ACT⟩, ⟨16, .ro, HV_STAT.SC_LATCH⟩, ⟨12, .w1c, HV_STAT.CFG_REJ⟩, ⟨11, .w1c, HV_STAT.RX_WAIT⟩, ⟨10, .w1c, HV_STAT.RAIL⟩, ⟨9, .w1c, HV_STAT.TOT_TRIP⟩, ⟨8, .w1c, HV_STAT.PWR_TRIP⟩, ⟨7, .w1c, HV_STAT.PWR_WARN⟩, ⟨5, .w1c, HV_STAT.SHORT⟩, ⟨4, .w1c, HV_STAT.ILIM⟩, ⟨3, .w1c, HV_STAT.SLEW⟩, ⟨2, .w1c, HV_STAT.PD_SAT⟩, ⟨1, .w1c, HV_STAT.CLIP⟩, ⟨0, .ro, HV_STAT.PD_BANK⟩]⟩,
   ⟨0x10005008, 0x400000, 8, 0x0, 1, 0x0, 1, [⟨0, .rw, HV_GAIN.GAIN⟩]⟩,
   ⟨0x1000500c, 0x400000, 8, 0x0, 1, 0x0, 1, [⟨0, .rw, HV_OFS.OFS⟩]⟩,
   ⟨0x10005010, 0x400000, 8, 0x0, 1, 0x0, 1, [⟨0, .rw, QUIET_CODE_HV.CODE⟩]⟩,
   ⟨0x10005014, 0x400000, 8, 0x0, 1, 0x0, 1, [⟨16, .rw, HV_CLAMP.HI⟩, ⟨0, .rw, HV_CLAMP.LO⟩]⟩,
   ⟨0x10005018, 0x400000, 8, 0x0, 1, 0x0, 1, [⟨16, .rw, HV_SLEW.RATE⟩, ⟨0, .rw, HV_SLEW.STEP⟩]⟩,
   ⟨0x1000501c, 0x400000, 8, 0x0, 1, 0x0, 1, [⟨30, .rw, HV_ILIM.TRIES⟩, ⟨16, .rw, HV_ILIM.RETRY⟩, ⟨8, .rw, HV_ILIM.SC_TIME⟩, ⟨0, .rw, HV_ILIM.ILIM⟩]⟩,
   ⟨0x10005020, 0x400000, 8, 0x0, 1, 0x0, 1, [⟨8, .ro, HV_ILIM_EFF.SC_EFF⟩, ⟨0, .ro, HV_ILIM_EFF.ILIM_EFF⟩]⟩,
   ⟨0x10005024, 0x400000, 8, 0x0, 1, 0x0, 1, [⟨0, .rw, HV_DLY.USER⟩]⟩,
   ⟨0x10005028, 0x400000, 8, 0x0, 1, 0x0, 1, [⟨0, .ro, HV_DLY_CAL.CAL⟩]⟩,
   ⟨0x1000502c, 0x400000, 8, 0x0, 1, 0x0, 1, [⟨4, .rw, HV_RX.LINE⟩, ⟨0, .rw, HV_RX.MODE⟩]⟩,
   ⟨0x10005030, 0x400000, 8, 0x0, 1, 0x0, 1, [⟨16, .ro, HV_PWR.TOT⟩, ⟨0, .ro, HV_PWR.CH⟩]⟩,
   ⟨0x10005034, 0x400000, 8, 0x0, 1, 0x0, 1, [⟨16, .ro, HV_RAIL.VHN⟩, ⟨0, .ro, HV_RAIL.VHP⟩]⟩,
   ⟨0x10005038, 0x400000, 8, 0x0, 1, 0x0, 1, [⟨16, .ro, HV_SEG.RETIRED⟩, ⟨0, .ro, HV_SEG.ACTIVE⟩]⟩,
   ⟨0x1000503c, 0x400000, 8, 0x0, 1, 0x0, 1, [⟨0, .rc, HV_CLIPCNT.COUNT⟩]⟩,
   ⟨0x10005040, 0x400000, 8, 0x0, 1, 0x0, 1, [⟨16, .rc, HV_ILIMCNT.SHORTS⟩, ⟨0, .rc, HV_ILIMCNT.ONSETS⟩]⟩,
   ⟨0x10005044, 0x400000, 8, 0x0, 1, 0x0, 1, [⟨1, .wo, HV_CLR.TRIP_CLR⟩, ⟨0, .wo, HV_CLR.SC_CLR⟩]⟩,
   ⟨0x10005100, 0x400000, 8, 0x80, 2, 0x4, 24, [⟨0, .rw, HV_PDb_w.COEF⟩]⟩,
   ⟨0x10006000, 0x400000, 8, 0x0, 1, 0x0, 1, [⟨31, .rw, SIEVE_CTRL.OWN⟩, ⟨1, .rwl, SIEVE_CTRL.SETTLE_MODE⟩, ⟨0, .rw, SIEVE_CTRL.RUN⟩]⟩,
   ⟨0x10006004, 0x400000, 8, 0x0, 1, 0x0, 1, [⟨20, .w1c, SIEVE_STAT.SAT⟩, ⟨16, .ro, SIEVE_STAT.SETTLING⟩, ⟨12, .ro, SIEVE_STAT.GD_UNDEF⟩, ⟨9, .w1c, SIEVE_STAT.B_OVR⟩, ⟨8, .w1c, SIEVE_STAT.A_OVR⟩, ⟨4, .w1c, SIEVE_STAT.CFG_REJ⟩, ⟨1, .ro, SIEVE_STAT.PAUSED⟩, ⟨0, .ro, SIEVE_STAT.RUNNING⟩]⟩]

/-- Registers from address 0x10006008. -/
def regRows8 : List Row :=
  [⟨0x10006008, 0x400000, 8, 0x0, 1, 0x0, 1, [⟨5, .rw, SNS_A.A_TERM⟩, ⟨4, .rw, SNS_A.A_RANGE⟩, ⟨0, .rw, SNS_A.A_SEL⟩]⟩,
   ⟨0x10006010, 0x400000, 8, 0x10, 4, 0x0, 1, [⟨31, .rwl, TAPk_CFG.SRC⟩, ⟨29, .rwl, TAPk_CFG.CIC_N⟩, ⟨16, .rwl, TAPk_CFG.DEC⟩, ⟨8, .rwl, TAPk_CFG.SOS_BASE⟩, ⟨4, .rwl, TAPk_CFG.SOS_NUM⟩, ⟨0, .rwl, TAPk_CFG.EN⟩]⟩,
   ⟨0x10006014, 0x400000, 8, 0x10, 4, 0x0, 1, [⟨0, .rwl, TAPk_SETTLE.SETTLE⟩]⟩,
   ⟨0x10006018, 0x400000, 8, 0x10, 4, 0x0, 1, [⟨31, .rwl, TAPk_GD.SRC_USER⟩, ⟨0, .rwl, TAPk_GD.USER⟩]⟩,
   ⟨0x1000601c, 0x400000, 8, 0x10, 4, 0x0, 1, [⟨0, .ro, TAPk_GD_EFF.TAU⟩]⟩,
   ⟨0x10006050, 0x400000, 8, 0x8, 4, 0x0, 1, [⟨16, .rw, CMPk_LVL.HI⟩, ⟨0, .rw, CMPk_LVL.LO⟩]⟩,
   ⟨0x10006054, 0x400000, 8, 0x8, 4, 0x0, 1, [⟨16, .w1c, CMPk_CTRL.TRIP⟩, ⟨8, .ro, CMPk_CTRL.ARMED⟩, ⟨0, .rw, CMPk_CTRL.MODE⟩]⟩,
   ⟨0x10006080, 0x400000, 8, 0x20, 4, 0x0, 1, [⟨16, .rw, CAPk_CTRL.PRE⟩, ⟨8, .ro, CAPk_CTRL.PEND⟩, ⟨4, .rw, CAPk_CTRL.POL⟩, ⟨2, .rw, CAPk_CTRL.FMT⟩, ⟨0, .rw, CAPk_CTRL.MODE⟩]⟩,
   ⟨0x10006084, 0x400000, 8, 0x20, 4, 0x0, 1, [⟨0, .rw, CAPk_LEN.LEN⟩]⟩,
   ⟨0x10006088, 0x400000, 8, 0x20, 4, 0x0, 1, [⟨0, .ro, CAPk_BASE_LO.BASE_LO⟩]⟩,
   ⟨0x1000608c, 0x400000, 8, 0x20, 4, 0x0, 1, [⟨0, .ro, CAPk_BASE_HI.BASE_HI⟩]⟩,
   ⟨0x10006090, 0x400000, 8, 0x20, 4, 0x0, 1, [⟨0, .ro, CAPk_SIZE.SIZE⟩]⟩,
   ⟨0x10006094, 0x400000, 8, 0x20, 4, 0x0, 1, [⟨0, .ro, CAPk_WR.WR⟩]⟩,
   ⟨0x10006098, 0x400000, 8, 0x20, 4, 0x0, 1, [⟨0, .rw, CAPk_RD.RD⟩]⟩,
   ⟨0x1000609c, 0x400000, 8, 0x20, 4, 0x0, 1, [⟨0, .rc, CAPk_LOSS.COUNT⟩]⟩,
   ⟨0x10006400, 0x400000, 8, 0x20, 12, 0x4, 5, [⟨0, .rwl, SOSs_c.COEF⟩]⟩,
   ⟨0x10007000, 0x400000, 8, 0x0, 1, 0x0, 1, [⟨31, .rw, PLB_CTRL.OWN⟩, ⟨8, .rw, PLB_CTRL.MODE⟩, ⟨0, .wo, PLB_CTRL.LOAD⟩]⟩,
   ⟨0x10007004, 0x400000, 8, 0x0, 1, 0x0, 1, [⟨0, .wo, PLB_REQ.KIND⟩]⟩,
   ⟨0x10007008, 0x400000, 8, 0x0, 1, 0x0, 1, [⟨0, .rw, PLB_AT_LO.AT_LO⟩]⟩,
   ⟨0x1000700c, 0x400000, 8, 0x0, 1, 0x0, 1, [⟨0, .rw, PLB_AT_HI.AT_HI⟩]⟩,
   ⟨0x10007010, 0x400000, 8, 0x0, 1, 0x0, 1, [⟨30, .ro, PLB_STAT.STATE⟩, ⟨28, .ro, PLB_STAT.KIND⟩, ⟨24, .ro, PLB_STAT.SRC⟩, ⟨8, .ro, PLB_STAT.NO_TABLE⟩, ⟨6, .w1c, PLB_STAT.STORE_FAIL⟩, ⟨5, .w1c, PLB_STAT.LOAD_REJ⟩, ⟨4, .w1c, PLB_STAT.CAL_DEFER⟩, ⟨3, .w1c, PLB_STAT.REQ_DROP⟩, ⟨2, .w1c, PLB_STAT.REQ_REJ⟩, ⟨1, .w1c, PLB_STAT.REQ_LATE⟩]⟩,
   ⟨0x10007014, 0x400000, 8, 0x0, 1, 0x0, 1, [⟨29, .ro, PLB_RES.CODE⟩, ⟨26, .ro, PLB_RES.KIND⟩, ⟨9, .ro, PLB_RES.TEMP_DRIFT⟩, ⟨8, .ro, PLB_RES.SPARES_OUT⟩, ⟨7, .ro, PLB_RES.TIME_FAIL⟩, ⟨6, .ro, PLB_RES.PD_FAIL⟩, ⟨5, .ro, PLB_RES.PD_SKIP⟩, ⟨4, .ro, PLB_RES.HV_SKIP⟩, ⟨3, .ro, PLB_RES.HV_FAIL⟩, ⟨2, .ro, PLB_RES.LV_FAIL⟩, ⟨1, .ro, PLB_RES.SNS_FAIL⟩]⟩,
   ⟨0x10007018, 0x400000, 8, 0x0, 1, 0x0, 1, [⟨0, .ro, PLB_RES_CRS_LO.CRS_LO⟩]⟩,
   ⟨0x1000701c, 0x400000, 8, 0x0, 1, 0x0, 1, [⟨0, .ro, PLB_RES_CRS_HI.CRS_HI⟩]⟩,
   ⟨0x10007020, 0x400000, 8, 0x0, 1, 0x0, 1, [⟨16, .ro, PLB_TEMP.T_HV⟩, ⟨0, .ro, PLB_TEMP.T_LOG⟩]⟩,
   ⟨0x10007024, 0x400000, 8, 0x0, 1, 0x0, 1, [⟨16, .ro, PLB_TSLOT.T_HV⟩, ⟨0, .ro, PLB_TSLOT.T_LOG⟩]⟩,
   ⟨0x10007028, 0x400000, 8, 0x0, 1, 0x0, 1, [⟨0, .ro, PLB_AGE.FULL_H⟩]⟩,
   ⟨0x1000702c, 0x400000, 8, 0x0, 1, 0x0, 1, [⟨16, .ro, PLB_CNT.ABORTED⟩, ⟨0, .ro, PLB_CNT.DONE⟩]⟩,
   ⟨0x10007030, 0x400000, 8, 0x0, 1, 0x0, 1, [⟨16, .ro, PLB_TBL.POINTS⟩]⟩,
   ⟨0x10007100, 0x400000, 8, 0x4, 128, 0x0, 1, [⟨0, .ro, PLB_SET.WORD⟩]⟩]

/-- Registers from address 0x10007300. -/
def regRows9 : List Row :=
  [⟨0x10007300, 0x400000, 8, 0x4, 128, 0x0, 1, [⟨0, .rw, PLB_STAGE.WORD⟩]⟩,
   ⟨0x10008000, 0x400000, 8, 0x0, 1, 0x0, 1, [⟨31, .rw, DMC_CTRL.OWN⟩, ⟨16, .rw, DMC_CTRL.PAGE⟩, ⟨12, .rwl, DMC_CTRL.MIRROR⟩, ⟨11, .rwl, DMC_CTRL.BXOR⟩, ⟨0, .rwl, DMC_CTRL.GRAIN⟩]⟩,
   ⟨0x10008004, 0x400000, 8, 0x0, 1, 0x0, 1, [⟨28, .ro, DMC_STAT.STATE⟩, ⟨24, .ro, DMC_STAT.TBAND⟩, ⟨9, .w1c, DMC_STAT.CFG_REJ⟩, ⟨8, .w1c, DMC_STAT.HOT⟩, ⟨7, .w1c, DMC_STAT.FORCED_REF⟩, ⟨6, .w1c, DMC_STAT.MIRROR_LOST⟩, ⟨5, .w1c, DMC_STAT.DRAIN⟩, ⟨4, .w1c, DMC_STAT.RANK_RET⟩, ⟨3, .w1c, DMC_STAT.PPR_OUT⟩, ⟨2, .w1c, DMC_STAT.FRAME_RET⟩, ⟨1, .w1c, DMC_STAT.REPLAY⟩, ⟨0, .w1c, DMC_STAT.UE⟩]⟩,
   ⟨0x10008008, 0x400000, 8, 0x4, 2, 0x0, 1, [⟨28, .ro, DMC_RANKr.STATE⟩, ⟨24, .ro, DMC_RANKr.TRIES⟩, ⟨17, .ro, DMC_RANKr.PD⟩, ⟨16, .ro, DMC_RANKr.SELF_REF⟩, ⟨0, .ro, DMC_RANKr.WIN⟩]⟩,
   ⟨0x10008010, 0x400000, 8, 0x4, 7, 0x0, 1, [⟨16, .rc, DMC_QOSp.LATE⟩, ⟨0, .rw, DMC_QOSp.TARGET⟩]⟩,
   ⟨0x10008030, 0x400000, 8, 0x0, 1, 0x0, 1, [⟨16, .rc, DMC_REF.FORCED⟩, ⟨4, .ro, DMC_REF.DEBT1⟩, ⟨0, .ro, DMC_REF.DEBT0⟩]⟩,
   ⟨0x10008034, 0x400000, 8, 0x0, 1, 0x0, 1, [⟨16, .rc, DMC_ECC.REPLAY⟩, ⟨0, .rc, DMC_ECC.CE⟩]⟩,
   ⟨0x10008038, 0x400000, 8, 0x0, 1, 0x0, 1, [⟨16, .rc, DMC_UE.HOT⟩, ⟨0, .rc, DMC_UE.UE⟩]⟩,
   ⟨0x1000803c, 0x400000, 8, 0x0, 1, 0x0, 1, [⟨16, .rc, DMC_HOT.COUNT⟩, ⟨0, .ro, DMC_HOT.LAST_PORT⟩]⟩,
   ⟨0x10008040, 0x400000, 8, 0x0, 1, 0x0, 1, [⟨24, .rw, DMC_LP.RETAIN⟩, ⟨8, .rw, DMC_LP.SR_TMR⟩, ⟨0, .rw, DMC_LP.PD_TMR⟩]⟩,
   ⟨0x10008044, 0x400000, 8, 0x0, 1, 0x0, 1, [⟨16, .ro, DMC_PPR.SPARE⟩, ⟨0, .ro, DMC_PPR.PEND⟩]⟩,
   ⟨0x10008048, 0x400000, 8, 0x0, 1, 0x0, 1, [⟨0, .ro, DMC_RETFR.COUNT⟩]⟩,
   ⟨0x10008050, 0x400000, 8, 0x0, 1, 0x0, 1, [⟨0, .ro, DMC_LAST_LO.ADDR_LO⟩]⟩,
   ⟨0x10008054, 0x400000, 8, 0x0, 1, 0x0, 1, [⟨31, .w1c, DMC_LAST_HI.VALID⟩, ⟨16, .ro, DMC_LAST_HI.COL⟩, ⟨8, .ro, DMC_LAST_HI.BANK⟩, ⟨4, .ro, DMC_LAST_HI.SUB⟩, ⟨0, .ro, DMC_LAST_HI.ADDR_HI⟩]⟩,
   ⟨0x10010000, 0x400000, 8, 0x10, 1024, 0x0, 1, [⟨0, .rw, PHO_O0.FREQ_LO⟩]⟩,
   ⟨0x10010004, 0x400000, 8, 0x10, 1024, 0x0, 1, [⟨0, .rw, PHO_O1.FREQ_HI⟩]⟩,
   ⟨0x10010008, 0x400000, 8, 0x10, 1024, 0x0, 1, [⟨0, .rw, PHO_O2.PHASE_LO⟩]⟩,
   ⟨0x1001000c, 0x400000, 8, 0x10, 1024, 0x0, 1, [⟨0, .rw, PHO_O3.PHASE_HI⟩]⟩,
   ⟨0x12000000, 0x0, 1, 0x0, 1, 0x0, 1, [⟨31, .rw, MSN_CTRL.OWN⟩, ⟨0, .wo, MSN_CTRL.CHECK⟩]⟩,
   ⟨0x12000004, 0x0, 1, 0x0, 1, 0x0, 1, [⟨12, .w1c, MSN_STAT.B4_WR⟩, ⟨11, .w1c, MSN_STAT.CFG_REJ⟩, ⟨10, .w1c, MSN_STAT.DESC_REJ⟩, ⟨9, .w1c, MSN_STAT.EXT_REJ⟩, ⟨8, .w1c, MSN_STAT.RQ_FULL⟩, ⟨7, .w1c, MSN_STAT.BK_TMO⟩, ⟨6, .w1c, MSN_STAT.BK_ERR⟩, ⟨5, .w1c, MSN_STAT.LOSS⟩, ⟨1, .ro, MSN_STAT.CHECK_BUSY⟩, ⟨0, .ro, MSN_STAT.RISK⟩]⟩,
   ⟨0x12000008, 0x0, 1, 0x0, 1, 0x0, 1, [⟨8, .rw, MSN_BW.COPY⟩, ⟨0, .rw, MSN_BW.HOST⟩]⟩,
   ⟨0x1200000c, 0x0, 1, 0x0, 1, 0x0, 1, [⟨8, .ro, MSN_BW_EFF.LANES⟩, ⟨0, .ro, MSN_BW_EFF.HOST_EFF⟩]⟩,
   ⟨0x12000010, 0x0, 1, 0x0, 1, 0x0, 1, [⟨16, .rw, MSN_BK.OUT⟩, ⟨0, .rw, MSN_BK.TMO⟩]⟩,
   ⟨0x12000018, 0x0, 1, 0x0, 1, 0x0, 1, [⟨12, .rw, MSN_RQ_BASE_LO.BASE_LO⟩]⟩,
   ⟨0x1200001c, 0x0, 1, 0x0, 1, 0x0, 1, [⟨0, .rw, MSN_RQ_BASE_HI.BASE_HI⟩]⟩,
   ⟨0x12000020, 0x0, 1, 0x0, 1, 0x0, 1, [⟨16, .rw, MSN_RQ_CFG.EN⟩, ⟨0, .rw, MSN_RQ_CFG.SIZE⟩]⟩,
   ⟨0x12000024, 0x0, 1, 0x0, 1, 0x0, 1, [⟨0, .ro, MSN_RQ_TAIL.TAIL⟩]⟩,
   ⟨0x12000028, 0x0, 1, 0x0, 1, 0x0, 1, [⟨0, .rw, MSN_RQ_HEAD.HEAD⟩]⟩,
   ⟨0x12000030, 0x0, 1, 0x0, 1, 0x0, 1, [⟨12, .rw, MSN_CQ_BASE_LO.BASE_LO⟩]⟩,
   ⟨0x12000034, 0x0, 1, 0x0, 1, 0x0, 1, [⟨0, .rw, MSN_CQ_BASE_HI.BASE_HI⟩]⟩]

/-- Registers from address 0x12000038. -/
def regRows10 : List Row :=
  [⟨0x12000038, 0x0, 1, 0x0, 1, 0x0, 1, [⟨0, .rw, MSN_CQ_CFG.SIZE⟩]⟩,
   ⟨0x1200003c, 0x0, 1, 0x0, 1, 0x0, 1, [⟨0, .rw, MSN_CQ_TAIL.TAIL⟩]⟩,
   ⟨0x12000040, 0x0, 1, 0x0, 1, 0x0, 1, [⟨0, .ro, MSN_CQ_HEAD.HEAD⟩]⟩,
   ⟨0x12000048, 0x0, 1, 0x0, 1, 0x0, 1, [⟨0, .ro, MSN_LOSS.COUNT⟩]⟩,
   ⟨0x12000050, 0x0, 1, 0x0, 1, 0x0, 1, [⟨0, .ro, MSN_LOSS_PG_LO.PG_LO⟩]⟩,
   ⟨0x12000054, 0x0, 1, 0x0, 1, 0x0, 1, [⟨0, .ro, MSN_LOSS_PG_HI.PG_HI⟩]⟩,
   ⟨0x12000060, 0x0, 1, 0x0, 1, 0x0, 1, [⟨31, .ro, MSN_EXT_CMD.PEND⟩, ⟨0, .wo, MSN_EXT_CMD.IDX⟩]⟩,
   ⟨0x12000070, 0x0, 1, 0x0, 1, 0x0, 1, [⟨0, .rw, MSN_DESC_IDX.IDX⟩]⟩,
   ⟨0x12000074, 0x0, 1, 0x0, 1, 0x0, 1, [⟨31, .ro, MSN_DESC_CMD.BUSY⟩, ⟨0, .wo, MSN_DESC_CMD.CMD⟩]⟩,
   ⟨0x12000080, 0x4, 8, 0x0, 1, 0x0, 1, [⟨0, .rw, MSN_DESC_Dw.WORD⟩]⟩,
   ⟨0x12001000, 0x100, 8, 0x0, 1, 0x0, 1, [⟨16, .rw, MSN_HZn.HEAD⟩, ⟨0, .rw, MSN_HZn.LEAD⟩]⟩,
   ⟨0x12001004, 0x100, 8, 0x0, 1, 0x0, 1, [⟨0, .rw, MSN_DHZn.DHZ⟩]⟩,
   ⟨0x12001008, 0x100, 8, 0x0, 1, 0x0, 1, [⟨31, .ro, MSN_CHn_STAT.READY⟩, ⟨30, .ro, MSN_CHn_STAT.SRAM_ONLY⟩, ⟨29, .ro, MSN_CHn_STAT.STARVED⟩, ⟨28, .ro, MSN_CHn_STAT.HZ_PEND⟩, ⟨25, .w1c, MSN_CHn_STAT.STARVE⟩, ⟨24, .ro, MSN_CHn_STAT.RISK_OVF⟩, ⟨0, .ro, MSN_CHn_STAT.RISKS⟩]⟩,
   ⟨0x1200100c, 0x100, 8, 0x0, 1, 0x0, 1, [⟨0, .ro, MSN_STARVEn.COURSES⟩]⟩,
   ⟨0x12001010, 0x100, 8, 0x0, 1, 0x0, 1, [⟨0, .ro, MSN_FRAMESn.USABLE⟩]⟩,
   ⟨0x12001014, 0x100, 8, 0x0, 1, 0x0, 1, [⟨0, .ro, MSN_FREEn.FREE⟩]⟩,
   ⟨0x12001018, 0x100, 8, 0x0, 1, 0x0, 1, [⟨16, .ro, MSN_SRAMn.RINGS⟩, ⟨0, .ro, MSN_SRAMn.FREE⟩]⟩,
   ⟨0x12001020, 0x100, 8, 0x4, 16, 0x0, 1, [⟨31, .rw, MSN_ENTRYn_x.EN⟩, ⟨0, .rw, MSN_ENTRYn_x.STEP⟩]⟩,
   ⟨0x12010000, 0x800, 8, 0x8, 256, 0x0, 1, [⟨28, .ro, MSN_RISKn_e0.REASON⟩, ⟨24, .ro, MSN_RISKn_e0.TRACKS⟩, ⟨0, .ro, MSN_RISKn_e0.STEP⟩]⟩,
   ⟨0x12010004, 0x800, 8, 0x8, 256, 0x0, 1, [⟨0, .ro, MSN_RISKn_e1.ARRIVAL⟩]⟩,
   ⟨0x12020000, 0x20, 4096, 0x4, 8, 0x0, 1, [⟨0, .rw, MSN_EXTi_w.WORD⟩]⟩]

/-- The whole register map (R611). -/
def regRows : List Row :=
  regRows0 ++ regRows1 ++ regRows2 ++ regRows3 ++ regRows4 ++ regRows5 ++ regRows6 ++ regRows7 ++ regRows8 ++ regRows9 ++ regRows10

end Sys2Proof.Machine
end

