-- ==== Sys2Proof/Machine/State.lean ====
section
/-!
DEFINITION. The state of the block: every register field (one bank, keyed by field and indices), the machine state
behind them that the spec names, the memories, and the queue of waiting commands. Plain data throughout.
-/
namespace Sys2Proof.Machine

/-- A field of a register with its two indices. -/
abbrev Key := Nat × Nat × Nat

/-- The register bank: the fields that differ from their POR_N value, by rising key (R611). -/
abbrev Bank := List (Key × Nat)

/-- The memories: (address, byte) pairs, addresses strictly rising, no entry equal to what an unlisted address reads. -/
abbrev Memory := List Host.Cell

/-! ### Sequencer, course queue (chapters 01, 02) -/

/-- One level of the loop stack (R82): the body begins at `beg`, is closed by step `close`, `done` passes completed. -/
structure Lvl where
  beg : Nat
  close : Nat
  done : Nat
  deriving DecidableEq, Repr

/-- What an LV or HV track plays (R71): the namespace byte address of a segment's first sample where one is named. -/
inductive TPlay
  | quiet
  | hold
  | dds
  | seg (ns : Nat)
  | segDds (ns : Nat)
  deriving DecidableEq, Repr

/-- What the marker track plays (R73, R74). -/
inductive MPlay
  | quiet (pos : Nat)
  | hold
  | levels (lv pos : Nat)
  | pattern (w pos : Nat)
  | seg (ns : Nat)
  deriving DecidableEq, Repr

/-- A phase-track operation with the operands read at its lay (R159, R160). -/
structure PhAct where
  op : Nat
  freq : Nat
  phase : Nat
  deriving DecidableEq, Repr

/-- Why a stretch of a course plays what it plays. -/
inductive Content | run | stopped | held | calWait | slot | fault
  deriving DecidableEq, Repr

/-- Where the content of a run comes from (R309, R310, R312): the tick, counted from the first lock, at which the tracks' rings hold
content since their latest restart, the step that the run went on from, whose head serves before it and in place of the ring, and
the content loaded under R95 for a jump (address, bytes). -/
structure Feed where
  ring : Nat := 0
  head : Option Nat := none
  buf : List (Nat × List (BitVec 8)) := []
  deriving DecidableEq, Repr

/-- A stretch of a laid course: from tick `t0`, `n` ticks, of step `step`, `ofs` ticks into its pass, starting `phi` LV
samples into its first tick when a pass starts there (R135), its content from `feed`, laid in course `laid` (R310). -/
structure Frag where
  t0 : Nat
  n : Nat
  step : Nat
  ofs : Nat
  phi : Nat
  what : Content
  lv : TPlay
  hv : TPlay
  mkr : MPlay
  op : Option PhAct
  stack : List Lvl
  feed : Feed
  laid : Nat
  deriving DecidableEq, Repr

/-- Who asked for a course-aligned action (R39): a system event, an event line, a register, a mailbox slot. -/
inductive Origin
  | sys (id : Nat)
  | line (n : Nat)
  | reg
  | mbx (m slot : Nat)
  deriving DecidableEq, Repr

/-- What a course-aligned action asks of one channel's sequencer or settings. -/
inductive ActKind
  | start
  | stop
  | restart
  | jump (j : Nat)
  | jumpTo (step : Nat)
  | snap
  | apply (pofs : Nat)
  | slot (kind : Nat)
  deriving DecidableEq, Repr

/-- A course-aligned action: accepted during course `acc`, landing at joint `land`, `seq` its order of acceptance,
`grp` the group whose epoch it carries if it has one, `stale` whether its epoch has changed since (R505), `slots` the consumer slots (line, slot) that
brought it (R129), `ring` the tick, counted from the first lock, at which the rings that it restarts hold content (R312). -/
structure Act where
  kind : ActKind
  org : Origin
  land : Nat
  acc : Nat
  seq : Nat
  grp : Option Nat
  stale : Bool
  slots : List (Nat × Nat)
  ring : Nat
  deriving DecidableEq, Repr

/-- What the sequencer is doing (R108, R102, R103). -/
inductive Mode
  | stopped
  | held
  | running
  | calWait (kind : Nat)
  | calSlot (kind left : Nat)
  | fault
  deriving DecidableEq, Repr

/-- The architectural state of a sequencer (R110): the step, the ticks into its pass and the pass's length (length 0: the
step is to be entered; offset = length: the pass has ended and its boundary is not yet decided), the loop stack (top
first), waiting jumps with their targets and the steps whose pass end they wait for, held events, a start due at the next joint, actions held over a slot, a
requested slot in force with the ticks left of it, the jump phase, the tracks that have fallen back in this pass (R81),
the joint at which a STOP cancelled the starts then pending (R101), the jump inputs whose held event is due at a joint, with the target,
the acceptance numbers of the held events that now wait for a pass end (R98), the course at whose head the run ends
because a lockstep mismatch there found no spare (R113), where the run's content comes from, and the head buffer: the first 32 ticks
of each target of the FAST step laid last, by target (R95). -/
structure Arch where
  mode : Mode := .stopped
  step : Nat := 0
  ofs : Nat := 0
  len : Nat := 0
  stack : List Lvl := []
  waiting : List (Act × Nat × Nat) := []
  heldJ : List (Nat × Act) := []
  heldStart : Option Act := none
  startDue : Option Act := none
  overSlot : List Act := []
  req : Option (Nat × Nat) := none
  phi : Nat := 0
  fb : Nat := 0
  noStart : Option Nat := none
  dueJ : List (Nat × Nat) := []
  heldW : List Nat := []
  lsEnd : Option Nat := none
  feed : Feed := {}
  bufs : List (Nat × List (Nat × List (BitVec 8))) := []
  deriving DecidableEq, Repr

/-- What playing a laid course does to the channel's visible state at a tick of it. -/
inductive Fx
  | runStart
  | runStop (step ofs : Nat) (stack : List Lvl)
  | runEnd (step : Nat) (stack : List Lvl)
  | fault (step cause ofs : Nat) (stack : List Lvl)
  | stepEv
  | fallback
  | took (a : Act)
  | dropped (a : Act) (superseded : Bool)
  | heldOver (acts : List Act)
  | cancelStarts
  | calDefer
  | slotBegin (kind : Nat) (req : Bool) (a : Option Act)
  | phi (v : Nat)
  | pend (jmps : Nat) (start : Bool)
  | resumed
  deriving DecidableEq, Repr

/-- A fast jump between its decision instant and its cut (R131 to R138), or a firing held on a jump input at its consumer
tick (R137), with the input; `done`: the cut has been played. -/
structure FastJump where
  act : Act
  target : Nat
  tick : Nat
  phi : Nat
  crs : Nat
  hold : Option Nat
  done : Bool := false
  deriving DecidableEq, Repr

/-- What a lay has read of a step (R66): the fast-jump cuts in the course before it, the step's index, its words, the cause that makes it
illegal (R106), the descriptors that its tracks name and those of their fallbacks, its phase operands (R159), the heads of a FAST step's
targets (R95). -/
structure StepRead where
  cuts : Nat
  at_ : Nat
  words : List Nat
  cause : Nat
  descs : List (Nat × List Nat)
  opd : Nat × Nat
  heads : List (Nat × List (Nat × List (BitVec 8)))
  deriving DecidableEq, Repr

/-- A laid entry of the course queue: its course, its length in ticks, the sequencer before and after it, its
stretches, its effects by tick, the steps that begin in it (R34), the actions that landed at its joint, the fast-jump cuts and the
holds in it, the stretches that cuts inside a tick leave of the old steps, what its lay has read (R66), and the course in which it was
laid, before and after each cut (R45, R310). -/
structure Entry where
  crs : Nat
  clen : Nat
  before : Arch
  after : Arch
  frags : List Frag
  fx : List (Nat × Fx)
  starts : Nat
  acts : List Act
  cuts : List FastJump
  under : List Frag
  reads : List StepRead
  binds : List Nat
  deriving DecidableEq, Repr

/-- The last sample a track played: the quiet code, or a track sample (R72). -/
inductive Last
  | quiet
  | code (v : Int)
  deriving DecidableEq, Repr

/-- A calibration slot running on a channel (R46, R279): kind, requested or placed by a CAL step, ticks left of the
stated length, first joint, what its phases have found, and whether its commit phase has ended or it aborted. -/
structure Slot where
  kind : Nat
  req : Bool
  act : Option Act
  left : Nat
  hvSkip : Bool
  pdSkip : Bool
  aborted : Bool
  committed : Bool
  newSet : List Nat
  parts : List (Nat × Nat)
  tLog0 : Int
  tHv0 : Int
  drift : Bool
  deriving DecidableEq, Repr

/-! ### Per-channel state outside the register bank -/

/-- The phase engine (R149, R169): 48-bit accumulator and frequency word, the phase offset in force. -/
structure Dds where
  acc : Nat := 0
  freq : Nat := 0
  pofs : Nat := 0
  deriving DecidableEq, Repr

/-- The LV and marker outputs (R174 to R190): settings in force, last track sample, code at the DAC, marker levels, those that
HOLD repeats (R73), the 31.25 ps position of each line's last change, changes pushed into the next tick (line, level, position:
R135), where the delay line stands and its target in force. -/
structure LvSt where
  en : Bool := false
  mkEn : Nat := 0
  last : Last := .quiet
  code : Int := 0
  mkr : Nat := 0
  mkHold : Nat := 0
  mkAt : List Int := [-1000, -1000, -1000, -1000]
  mkNext : List (Nat × Nat × Nat) := []
  dly : Nat := 0x4000
  target : Nat := 0x4000
  deriving DecidableEq, Repr

/-- How far the HV output has come towards the ball (R216, R219). -/
inductive HvStage | off | enabling | on
  deriving DecidableEq, Repr

/-- The HV stage of a channel (R196 to R239): among the rest `ilim`, the `ILIM` in force (R229); `limAct`, the limit was active at
the last HV sample, `limClear`, the samples without it since, 8 at most (R230); `integ`, the short-circuit integrator (R231);
`shortAt`, the instant of the latest short (R232); `pAvg`, the power estimate in 0.1 mW / 2^20 (R236). -/
structure HvSt where
  en : Bool := false
  sl : Bool := true
  pd : Bool := true
  swap : Bool := false
  stage : HvStage := .off
  last : Last := .quiet
  d : Int := 0
  prev : Int := 0
  hist : List Int := [0, 0, 0, 0, 0, 0, 0]
  code : Int := 0
  dly : Nat := 0x4000
  target : Nat := 0x4000
  shorts : Nat := 0
  shortAt : Nat := 0
  ilim : Nat := 25
  limAct : Bool := false
  limClear : Nat := 8
  integ : Nat := 0
  pAvg : Nat := 0
  trip : Nat := 0
  totTrip : Nat := 0
  totClr : Bool := false
  rxCmd : Bool := false
  rxClosed : Bool := false
  ramp : Bool := false
  linkBad : Bool := false
  linkAt : Nat := 0
  laneDown : Bool := false
  tempDown : Bool := false
  segRet : List Nat := [0, 0, 0, 0, 0, 0, 0, 0, 0, 0, 0, 0, 0, 0]
  enabledOnce : Bool := false
  deriving DecidableEq, Repr

/-- An output of a tap: its index, its timestamp in 1/256 tick since lock, its Q0.23 value, unsettled or not, saturated or
not (R253, R257, R259). -/
structure TapOut where
  j : Nat
  ts : Int
  y : Int
  unset : Bool
  sat : Bool
  deriving DecidableEq, Repr

/-- A block of the capture queue: samples, the header of the record in progress, or that of a record that has ended. -/
inductive BlockKind | samples | header | closed
  deriving DecidableEq, Repr

/-- A capture record in progress (R268): its header's fields so far, outputs still to come, the timestamp of its last output,
where its header block lies in the ring while nothing has been written over it. -/
structure Rec where
  cont : Bool
  sat : Bool
  seq : Nat
  count : Nat
  ts0 : Int
  unset : Nat
  unsetRun : Bool
  trig : Option Nat
  lost : Nat
  left : Nat
  lastTs : Int
  hdrAt : Option Nat
  deriving DecidableEq, Repr

/-- A tap of the Sieve (R248 to R270): CIC state, outputs since the start, instant of the first input sample, τ as a
fraction of 1/256 tick, the settling causes whose unsettled outputs have not all come (the instant and the count left), the
history, the shift joints that it may span, the trigger instant awaited, a held firing, the record, the capture queue's whole
blocks and its partial block, the lost count, whether outputs are lost now, the last recorded output's index. -/
structure Tap where
  integ : List Int := [0, 0, 0]
  comb : List Int := [0, 0, 0]
  outs : Nat := 0
  first : Nat := 0
  tau : Int × Nat := (0, 1)
  runs : List (Nat × Nat) := []
  hist : List TapOut := []
  shifts : List Nat := []
  trig : Option Int := none
  heldTrig : Option (List (Nat × Nat)) := none
  record : Option Rec := none
  queue : List (BlockKind × List (BitVec 8)) := []
  part : List (BitVec 8) := []
  lost : Nat := 0
  losing : Bool := false
  lastJ : Option Nat := none
  seq : Nat := 0
  deriving DecidableEq, Repr

/-- The Sieve of a channel: its taps, the delay lines of its twelve sections (x1, x2, y1, y2), the requested start or
stop, the settings that land at the next joint, capture paused by IDLE, the tick at which the engine last stopped or paused. -/
structure Sieve where
  taps : List Tap := [{}, {}, {}, {}]
  sos : List (List Int) := List.replicate 12 [0, 0, 0, 0]
  want : Option Bool := none
  snsNext : Option Nat := none
  capNext : List (Nat × Nat) := []
  capHold : Bool := false
  ended : Option Nat := none
  deriving DecidableEq, Repr

/-- Plumb of a channel (R287 to R290): the mode in force, a load that lands at the next joint (the set, and the mailbox slot
that asked), the table's points, whether a full slot has changed the table since its last store, whether the mode has changed since. -/
structure Plumb where
  mode : Bool := false
  load : Option (Option (List Nat) × Option (Nat × Nat)) := none
  points : List (List Nat) := []
  dirty : Bool := false
  modeDirty : Bool := false
  deriving DecidableEq, Repr

/-- The delays of a channel's DRAM ranks (R396, R398): the 10 °C band that the temperature is in, the band whose row of the Clerk's table
is in force on each rank, the ranks that a write of the new band's delays awaits; and from what that table is built: for each rank the
centres of its lanes' windows, in 1/64 of a unit interval, and the band in which its sweep found them. -/
structure DramDelays where
  band : Int := 0
  rows : List Int := [0, 0]
  due : List Nat := []
  centres : List (List Nat) := [[], []]
  found : List Int := [0, 0]
  deriving DecidableEq, Repr

/-- What a channel's DRAM controller counts: for each rank the instant at which its latest repayment burst ends (R383) and the refresh
intervals gone in the window of R389; the activations in the window (rank, row, count) and the sources limited in it (rank, row, port); the
frames in which a burst was lost (rank, frame, instant) (R399). Instants are in ticks. -/
structure DramCount where
  burst : List Nat := [0, 0]
  window : List Nat := [0, 0]
  acts : List (Nat × Nat × Nat) := []
  limited : List (Nat × Nat × Nat) := []
  lost : List (Nat × Nat × Nat) := []
  deriving DecidableEq, Repr

/-- One channel's machine state: among the rest `dry`, the restart whose rings have run dry, by the tick at which they held content,
and the tick at which they hold content again once they have been restarted (R333). -/
structure Chan where
  cur : Option Entry := none
  laid : List Entry := []
  base : Arch := {}
  acts : List Act := []
  ahead : Nat := 4
  aheadNext : Option Nat := none
  lead : Nat := 32
  headUs : Nat := 8
  dhz : Nat := 1000
  now : Option Frag := none
  vis : Nat := 0
  visOfs : Nat := 0
  visStack : List Lvl := []
  slot : Option Slot := none
  jump : Option FastJump := none
  fjBusy : Option Nat := none
  miss : Bool := false
  starved : Bool := false
  dry : Option (Nat × Option Nat) := none
  gap : Option (Nat × Nat) := none
  badLay : Option Nat := none
  dds : Dds := {}
  lv : LvSt := {}
  hv : HvSt := {}
  sieve : Sieve := {}
  plumb : Plumb := {}
  delays : DramDelays := {}
  dram : DramCount := {}
  deriving DecidableEq, Repr

/-! ### Time (chapter 01) -/

/-- The shadow of one requester of the course counter (R24, R25). -/
structure Shadow where
  hi : Nat := 0
  tick : Nat := 0
  clen : Nat := 256
  tod : List Nat := [0, 0, 0, 0]
  deriving DecidableEq, Repr

/-- The course grid: counter, tick, length of the course playing, ticks elapsed in all, those elapsed at the latest PLL lock
(R245), pending shifts (joint, ticks,
course of acceptance), a pending length (value, joint, course of acceptance), the joint whose capture window is used, the stretches of
courses of one length (first course, its first tick in all, length; newest first), the shadows of the three requesters. -/
structure Time where
  crs : Nat := 0
  tick : Nat := 0
  clen : Nat := 256
  abs : Nat := 0
  lock : Nat := 0
  shifts : List (Nat × Int × Nat) := []
  lenPend : Option (Nat × Nat × Nat) := none
  winUsed : Option Nat := none
  grid : List (Nat × Nat × Nat) := [(0, 0, 256)]
  host : Shadow := {}
  clerk : Shadow := {}
  i2c : Shadow := {}
  deriving DecidableEq, Repr

/-! ### Event lines (chapter 03) -/

/-- A source that has fired a line and waits for the line's capture tick: where it fired (course, tick, fine), its
capture place, whether it is a TRIG edge. -/
structure Src where
  line : Nat
  crs : Nat
  tick : Nat
  fine : Nat
  capCrs : Nat
  cap : Nat
  trig : Bool
  soft : Bool
  deriving DecidableEq, Repr

/-- A firing of a line that waits for the joint before its landing joint (R124, R141): of a system event with this ID,
or of a local firing, with its consumer tick (R119). -/
structure Wait where
  line : Nat
  land : Nat
  sys : Option Nat
  at_ : Nat × Nat
  deriving DecidableEq, Repr

/-- A consumer that acts at joint `land` for the lines and slots that brought it (R124, R142), `ord` its place among them: a system
event's ID, or behind these the line (R39). -/
structure Due where
  code : Nat
  land : Nat
  ord : Nat
  slots : List (Nat × Nat)
  deriving DecidableEq, Repr

/-- A firing that a consumer took on a consumer tick: the action it became if it became one, whether it was dropped, the source
it is timed from (R119, R633). -/
structure Took where
  code : Nat
  place : Nat × Nat
  seq : Option Nat
  lost : Bool
  src : Src
  deriving DecidableEq, Repr

/-- A captured firing of a line that waits for its consumer tick (R118, R123): the source it is timed from, the consumer tick as
the ticks counted from the first lock, and as its place in the course grid. -/
structure Fired where
  line : Nat
  src : Src
  due : Nat
  place : Nat × Nat
  deriving DecidableEq, Repr

/-- The record of a first copy of a system event (R141). -/
structure Seen where
  orig : Nat
  seq : Nat
  id : Nat
  land : Nat
  deriving DecidableEq, Repr

/-- The event block. -/
structure Events where
  srcs : List Src := []
  waits : List Wait := []
  due : List Due := []
  took : List Took := []
  fired : List Fired := []
  sysDue : List (Nat × Nat) := []
  seen : List Seen := []
  out : List (Nat × Seen) := []
  origs : Nat := 0
  seqNo : Nat := 0
  txBusy : List Nat := []
  clerkIrq : Bool := false
  trigLast : List (Option Nat) := [none, none, none, none, none, none, none, none]
  deriving DecidableEq, Repr

/-! ### Porter, power, host port (chapters 14 to 16) -/

/-- The power transitions (R531 to R535): the state being entered, the state that the wake in progress left, the request
that waits for the end of a transition (state, wake source), the refusals of accesses made in SLEEP (cause, write, BAR,
offset: R533). -/
structure Power where
  entry : Option Nat := none
  left : Nat := 0
  held : Option (Nat × Nat) := none
  refused : List (Nat × Bool × Nat × Nat) := []
  deriving DecidableEq, Repr

/-- The balls and the Porter's latches that no register field holds (R555 to R571); of each HV die, which of VHL, VHP and VHN stood in range
at its latest measurement (R554). -/
structure Porter where
  clr : Bool := false
  haltIn : Bool := false
  halt : Bool := false
  hvEn : Bool := false
  hvReady : Bool := false
  hvOff : Bool := false
  tsdLog : Bool := false
  tsdHv : List Bool := [false, false]
  thermHold : Bool := false
  railIn : List Bool := [false, false]
  railBad : List Bool := [true, true]
  goodHv : List Nat := [0, 0]
  relAt : Option Nat := none
  driveEnd : Bool := false
  haltIgnore : Nat := 0
  laneBad : List Bool := [false, false]
  warned : List Bool := List.replicate 17 false
  wdtArmed : Bool := false
  wdtRuns : List Nat := []
  clerkFail : Bool := false
  wdtLeft : Nat := 0
  hwdRun : Bool := false
  hwdLeft : Nat := 0
  hwdHalt : Bool := false
  faultLive : List Bool := [false, false, false, false, false, false, false, false, false, false, false, false, false, false]
  deriving DecidableEq, Repr

/-- What the block emits at its interfaces, oldest first: an MSI-X message, a write to host memory, a ring cell's ten
words (R409), a CONTROL or MESSAGE cell of its own by meaning (R413: layouts unpublished), a link frame or symbol, a bench frame, a read of host memory, a write to it marked poisoned (R511). -/
inductive Out
  | msix (vector : Nat)
  | hostWrite (addr : Nat) (bytes : List (BitVec 8))
  | cell (port : Nat) (words : List Nat)
  | control (port kind : Nat) (words : List Nat)
  | message (port dest seq : Nat) (part : List (BitVec 8))
  | linkFrame (port bits : Nat)
  | haltSym (port : Nat)
  | frame (dest kind topic : Nat) (payload : List (BitVec 8))
  | hostRead (addr len : Nat)
  | poisonWrite (addr len : Nat)
  deriving DecidableEq, Repr

/-- The answer to the latest access of the block: data, or Completer Abort (R489, R490). -/
structure Reply where
  abort : Bool := false
  poison : Bool := false
  data : List (BitVec 8) := []
  deriving DecidableEq, Repr

/-- A mailbox command that the Clerk has begun and that completes at a later joint or instant (R498): the joint, or for a
join the instant in ticks, at which it completes; parts still out, lowest reason so far, channels where it took effect (for a
drain the rank); the `OWN` fields, by number and index, of the functions it runs in (R6). -/
structure Cmd where
  m : Nat
  slot : Nat
  opcode : Nat
  land : Nat
  left : Nat
  reason : Nat
  took : Nat
  own : List (Nat × Nat)
  deriving DecidableEq, Repr

/-- The group changes that land at a joint (R504). -/
structure GroupSet where
  g : Nat
  mask : Nat
  land : Nat
  acc : Nat
  m : Nat
  slot : Nat
  deriving DecidableEq, Repr

/-- Where reset and boot stand (R524, R536, R548): VAON is in range, POR_N is low, a rail holds the device as POR_N does;
nothing holds the device in reset, the system PLL has locked since POR_N, the straps sampled last, why the Clerk restarts
(R502, R538), the mailboxes have been served since POR_N, the quiet codes have been loaded and the ranks swept since then (R179, R397), whether
the boot loader serves MBX8 in place of the firmware (R547, R550), the hours until the next automatic store (R294). -/
structure Boot where
  vaon : Bool := true
  por : Bool := true
  rail : Bool := false
  up : Bool := false
  locked1 : Bool := false
  straps : Nat := 0
  again : Option Nat := none
  served : Bool := false
  loaded : Bool := false
  swept : Bool := false
  recovery : Bool := false
  calWait : Nat := 0
  deriving DecidableEq, Repr

/-! ### The Mason (chapter 09) -/

/-- A copy of a namespace page in a frame of a channel's DRAM (R306, R318): usable from joint `since`,
read by courses laid before joint `till` once it has been replaced or released (R45, R301); `left`, the bytes of it that the copy
budget has not yet covered (R319): while there are any, it has no joint; `last`, the course in which it was last played, `played`
whether it has been. -/
structure Copy where
  page : Nat
  ch : Nat
  frame : Nat
  since : Nat
  till : Option Nat
  held : Bool
  poison : Bool
  last : Nat
  left : Nat
  played : Bool
  deriving DecidableEq, Repr

/-- A page that a channel's walk wants in its DRAM (R315): the tick, counted from the first lock, at which it plays at the
earliest, whether a lost copy makes it urgent (R334), and whether that was one of the copies of a HELD page (R301). -/
structure Want where
  ch : Nat
  page : Nat
  due : Nat
  urgent : Bool
  held : Bool
  deriving DecidableEq, Repr

/-- Content in resident blocks of a channel's segment SRAM (R310, R311, R313): `bytes` bytes of the namespace from `ns` on, of
descriptor `desc`; part of the head of an entry point, or the whole segment; the bytes that have come, in order (R319); the joint from which
courses are laid with it, and the joint from which they are not (R318, R45); the 64-byte rows of it that are absent (R352). -/
structure Resident where
  ch : Nat
  head : Option Nat
  desc : Nat
  ns : Nat
  bytes : Nat
  data : List (BitVec 8)
  since : Option Nat
  till : Option Nat
  gaps : List Nat
  deriving DecidableEq, Repr

/-- A page of which the stream rings of a channel hold what plays within the stream lead of the instant at which its copy was lost
(R308, R334): page, channel, the frame of the copy, the instant in ticks. -/
structure Kept where
  page : Nat
  ch : Nat
  frame : Nat
  at_ : Nat
  deriving DecidableEq, Repr

/-- A run of pages that waits 1 ms (R329): to be asked for again, or else read again; `again`, a request of it has timed out. -/
structure Later where
  page : Nat
  count : Nat
  ask : Bool
  again : Bool
  deriving DecidableEq, Repr

/-- A run of pages asked of host software (R327): tag, extent, first page, count, the channels that need it, whether it has
been asked for before without an answer, whether its completion has come and names this buffer. -/
structure Req where
  tag : Nat
  ext : Nat
  page : Nat
  count : Nat
  chs : Nat
  again : Bool
  buf : Option Nat
  deriving DecidableEq, Repr

/-- A step at risk on a channel (R321, R323): lowest reason, tracks, earliest arrival in µs. -/
structure Risk where
  step : Nat
  reason : Nat
  tracks : Nat
  arrival : Nat
  deriving DecidableEq, Repr

/-- The Mason's records: the descriptors (R78, R303) that are not blank, with those that await a joint (R304); the committed
extents and the commit that awaits its joint, with the mailbox slot that asked (R326); the HELD pages with their numbers of
copies; the page copies; what the walks want; outstanding requests, completion entries not yet passed (tag, done), tags
freed by a timeout, runs that wait 1 ms, runs to be asked for whole again (first page, count, a timeout before), pages whose read
has failed once, unavailable pages (R329); the ring's `PHASE`; lost pages (R335); frames to retire, retired frames, and the repair list of
rows (channel, frame, row in the frame) (R393); capture rings (channel, tap, first frame, frames); frames
reserved in place of retired reserved ones (R371); the steps at risk by
channel; what lies in resident blocks; what the rings hold of lost copies (R308); pages whose staging has been limited
(channel, page) (R390); the tick at which the latest read of host backing ended (R330); the two ranks, 2 × channel + rank, on different
stacks, whose reserved frames hold each of the eight shares of the descriptor table (R306). -/
structure Mason where
  descs : List (Nat × List Nat) := []
  descPend : List (Nat × List Nat) := []
  exts : List (Nat × List Nat) := []
  extPend : Option (Nat × List Nat × Option (Nat × Nat)) := none
  held : List (Nat × Nat) := []
  copies : List Copy := []
  wants : List Want := []
  reqs : List Req := []
  comps : List (Nat × Bool) := []
  freed : List Nat := []
  waits : List Later := []
  again : List (Nat × Nat × Bool) := []
  failed : List Nat := []
  unavail : List Nat := []
  phase : Bool := true
  lost : List Nat := []
  retire : List (Nat × Nat) := []
  retired : List (Nat × Nat) := []
  repairs : List (Nat × Nat × Nat) := []
  capRings : List (Nat × Nat × Nat × Nat) := []
  reserved : List (Nat × Nat) := []
  risks : List (List Risk) := [[], [], [], [], [], [], [], []]
  resident : List Resident := []
  kept : List Kept := []
  hot : List (Nat × Nat) := []
  hostEnd : Option Nat := none
  homes : List (Nat × Nat) := [(0, 4), (2, 6), (4, 8), (6, 10), (8, 12), (10, 14), (12, 0), (14, 2)]
  deriving DecidableEq, Repr

/-! ### On-chip memory and flash (chapters 10, 15) -/

/-- A march test on request (R361 to R363): channel and bank, the bank lent to the step table where bank 0 is tested, whether the
evacuation has ended so that the test itself runs, the mailbox slot that asked. -/
structure March where
  ch : Nat
  bank : Nat
  lent : Option Nat
  tests : Bool
  cmd : Option (Nat × Nat)
  deriving DecidableEq, Repr

/-- An error found in an array (R353, R356): array, bank, column (bit of the row), row, instant in ticks. -/
structure Finding where
  arr : Nat
  bank : Nat
  col : Nat
  row : Nat
  at_ : Nat
  deriving DecidableEq, Repr

/-- The on-chip arrays as the Stockroom sees them (R341, R353 to R365; array 0 to 7 a channel's segment SRAM, 8 TCM, 9 mailbox SRAM, 10
directory): spare columns used (array, bank, count), column repairs under way and waiting (array, bank, column), granules left
uncorrectable (array, logical bank, row, granule), the march test that runs, those whose bank returns at the next joint; the corrected
errors of the latest 10 s and the uncorrectable ones of the latest hour; the channels whose segment area has been cleared and written
nowhere since (R359, R364); the firmware that the Clerk's TCM holds; the tick until which a directory entry is being rebuilt (R352). -/
structure Sram where
  spares : List (Nat × Nat × Nat) := []
  repairs : List (Nat × Nat × Nat) := []
  bad : List (Nat × Nat × Nat × Nat) := []
  test : Option March := none
  back : List March := []
  fixes : List Finding := []
  losses : List Finding := []
  blank : List Nat := []
  tcm : Memory := []
  dirUntil : Nat := 0
  deriving DecidableEq, Repr

/-- What a valid calibration flash slot holds (R293): generation, modes, the points of each channel. -/
structure CalCopy where
  gen : Nat
  modes : Nat
  points : List (List (List Nat))
  deriving DecidableEq, Repr

/-- A copy of the strap-override area (R544): generation, entries (item, channel, value). -/
structure OvrCopy where
  gen : Nat
  entries : List (Nat × Nat × Nat)
  deriving DecidableEq, Repr

/-- A firmware image slot (R518 to R520): the bytes staged, the version and SVN of a committed image, its `GEN`. -/
structure FwSlot where
  bytes : Memory
  version : Nat
  svn : Nat
  gen : Option Nat
  deriving DecidableEq, Repr

/-- A copy of the wear area (R583, R584): generation, the records of the device (hours, greatest temperatures) and of
each channel (the four words, lifetime retirements by segment), the repair list (channel, frame, row in the frame). -/
structure WearCopy where
  gen : Nat
  hours : Nat
  tmax : Nat × Nat
  chans : List (List Nat)
  rows : List (Nat × Nat × Nat)
  deriving DecidableEq, Repr

/-- The boot flash (R543): the words of calibration flash slots A and B (none while erased), the greatest generation of a calibration
store begun, the valid copies of the other areas; with it the spare rows that hard repair has spent in the DRAM dies (channel, bank of
the channel's dies), which outlive every reset (R394, R395), and the variant: `half` is a GT8H-32, whose DRAM holds half as much
(R1). -/
structure Flash where
  cal : List (List Nat) := [[], []]
  calTop : Nat := 0
  ovr : List (Option OvrCopy) := [none, none]
  wear : List (Option WearCopy) := [none, none]
  spent : List (Nat × Nat) := []
  fw : List FwSlot := [⟨[], 0x01020000, 0, some 1⟩, ⟨[], 0, 0, none⟩]
  half : Bool := false
  deriving DecidableEq, Repr

/-! ### Host port and ring (chapters 12, 14) -/

/-- The PCIe side of the host port (R482 to R484, R514, R517): what the bus gives the function; MSI-X enabled and masked as
a whole, the mask bits of the vectors, the rest of the MSI-X table, and the vectors pending. -/
structure Port where
  up : Bool := false
  perst : Bool := false
  bme : Bool := false
  d3 : Bool := false
  msixOn : Bool := false
  allMask : Bool := false
  masks : Nat := 2 ^ 32 - 1
  table : Memory := []
  held : List Nat := []
  deriving DecidableEq, Repr

/-- A message of the Bond ring's receive queue (R440). -/
structure RingMsg where
  src : Nat
  seq : Nat
  payload : List (BitVec 8)
  deriving DecidableEq, Repr

/-- What a ring port measures (R416, R417): the arrival to report, the asymmetry-free sums of delay and offset with the
frames summed, the averaged offset and whether there is one, frames in a row that disagree, whether the link has had its calibration
(R430), the instant at which `REV` ends (R623); the neighbour's frame bits `JOINED`, `ISLAND`; whether the latest frame came from a port of
the same name (R406); hops that the neighbour counted through this device before it lost its upstream (R435); the delay at the latest
calibration (R433); whether the root named this end for the calibration in progress (R430). -/
structure Meas where
  report : Int := 0
  sumD : Int := 0
  sumX : Int := 0
  n : Nat := 0
  x : Int := 0
  bad : Nat := 0
  caled : Bool := false
  revEnd : Option Nat := none
  joined : Bool := false
  island : Bool := false
  known : Bool := false
  same : Bool := false
  old : Option Nat := none
  dCal : Option Nat := none
  named : Bool := false
  deriving DecidableEq, Repr

/-- The claim of a root candidate (R422): its roster index (1,023 for none), priority and UID, and the port by which it came. -/
structure Claim where
  index : Nat
  prio : Nat
  uid : Nat
  port : Nat
  deriving DecidableEq, Repr

/-- An admission or a rejoin that waits for its joint (R426, R453): the device's own joint, the system's joint and length,
ring tick count there, the index, the roster, the root, the minimum landing distance, a rejoin or not. -/
structure Admission where
  at_ : Nat
  land : Nat
  len : Nat
  tcount : Nat
  index : Nat
  roster : List Nat
  root : Nat
  lmin : Nat
  rejoin : Bool
  deriving DecidableEq, Repr

/-- The Bond ring: CONTROL payloads that wait, oldest first (port, kind, words: R437, R438); whether every other roster
member reports its sequencers stopped (R17); the other root candidates known (index, priority, UID: R422); the membership
map as a list, admissions of others by joint (R420, R426); changes of L_min by joint (R428); the own admission; made ready by
`REJOIN` (R452); the piece counted after a loss (continues, lowest index, holds the root: R448), its decision joint (R449),
the joint at which the island policy acts (R451); links that the root has yet to calibrate (member index, port: R430); the
measurements of both ports; the loop is closed (R431); frames in a row with the offset inside the bound (R432); the closure's
sum over the frames of its window (R433); the ring tick count less the ticks elapsed (R410); the link frames
being sent (R415); the receive queue, the last sequence number of each source, the next own one; MESSAGE cells to be
inserted (port, destination, the part of the message) (R439); the tick, counted from the first lock, from which each lane takes a CONTROL or
MESSAGE cell again (R413);
the first landing joint of the system events that the device takes since its latest admission (R426, R453); published actions taken whose copy
from the other lane has not come (port, course, action: R412); the remainder of the phase servo (R429); the root's loop is frozen (R423);
the tick of the latest link change (R422); a joining device has taken the tick count, has asked for its admission, and what it has heard
of published actions and of system events (originator, number, ID, low bits of the joint) that may land after it (R425, R426, R437); the
hops to other members on the East and the West lane, as far as they are known (R439); the root reports not aligned under R433; a closure
measured after a calibration is to be kept (R433). -/
structure Ring where
  ctl : List (Nat × Nat × List Nat) := []
  membersIdle : Bool := false
  cands : List Claim := []
  roster : List Nat := []
  adds : List (Nat × Nat) := []
  lmins : List (Nat × Nat) := []
  admission : Option Admission := none
  ready : Bool := false
  piece : Option (Bool × Nat × Bool) := none
  decision : Option Nat := none
  policyAt : Option Nat := none
  recals : List (Nat × Nat) := []
  meas : List Meas := [{}, {}]
  closed : Bool := false
  good : Nat := 0
  close : Int × Nat := (0, 0)
  tbase : Int := 0
  frame : List Nat := [0, 0]
  queue : List RingMsg := []
  seqs : List (Nat × Nat) := []
  txSeq : Nat := 0
  tx : List (Nat × Nat × RingMsg) := []
  lane : List Nat := [0, 0]
  takeFrom : Nat := 0
  heard : List (Nat × Nat × RingAction) := []
  servo : Int := 0
  frozen : Bool := false
  linkAt : Nat := 0
  synced : Bool := false
  asked : Bool := false
  early : List RingAction := []
  earlyEv : List (Nat × Nat × Nat × Nat) := []
  places : List (Nat × Nat × Nat) := []
  asym : Bool := false
  baseDue : Bool := false
  deriving DecidableEq, Repr

/-! ### The bench bus (chapter 13) -/

/-- A received message in the queue (R468, R469). -/
structure BenchMsg where
  src : Nat
  seq : Nat
  topic : Nat
  kind : Nat
  flags : Nat
  len : Nat
  entry : Nat
  sec : Nat
  ns : Nat
  crs : Nat
  tick : Nat
  payload : List (BitVec 8)
  deriving DecidableEq, Repr

/-- A frame that waits to be sent: template x, or 16 for the host send (R473). -/
structure BenchWait where
  x : Nat
  ess : Bool
  frame : Out
  len : Nat
  deriving DecidableEq, Repr

/-- The bench port: receive queue, waiting frames, the frame on the line, the message number, producers to fire, the end
of the STOP state in ticks, the PLCA settings in force (EN, ID, NCNT, TOT), beacons heard, PLCA dropped, whether the last
cycle held a frame of ours, an opportunity since the last beacon, cycles without one, when collisions and essential
frames fell, when the last frame ended and how long it was, bench time (ns) with its tick, shadows of the record. -/
structure Bench where
  rxq : List BenchMsg := []
  wait : List BenchWait := []
  line : Option BenchWait := none
  seq : Nat := 0
  fires : List (List Nat) := []
  stopEnd : Nat := 0
  plca : Bool × Nat × Nat × Nat := (true, 255, 8, 32)
  heard : Bool := false
  dropped : Bool := false
  sentLast : Bool := false
  opp : Bool := false
  missed : Nat := 0
  colls : List Nat := []
  essAt : List Nat := []
  lastEnd : Nat := 0
  lastDur : Nat := 0
  ns0 : Nat := 0
  abs0 : Nat := 0
  deriving DecidableEq, Repr

/-- The whole block but the memories and the queue: `rung` holds the slots rung and not begun (mailbox, slot) in the order of
their doorbells, `ownWait` the `OWN` fields written 1 that wait for a command (R6), `dmaLast` the DMA queues switched off whose descriptor in progress is
still to complete (R512). -/
structure Dev where
  regs : Bank := []
  time : Time := {}
  chs : Vector Chan 8 := Vector.replicate 8 {}
  ev : Events := {}
  porter : Porter := {}
  power : Power := {}
  mason : Mason := {}
  sram : Sram := {}
  flash : Flash := {}
  port : Port := {}
  boot : Boot := {}
  bench : Bench := {}
  ring : Ring := {}
  reply : Reply := {}
  out : List Out := []
  cmds : List Cmd := []
  rung : List (Nat × Nat) := []
  ownWait : List (Nat × Nat) := []
  dmaLast : List Nat := []
  groups : List GroupSet := []
  mbx : Memory := []
  actSeq : Nat := 0
  noteSeq : Nat := 0
  fresh : Nat := 0
  deriving DecidableEq, Repr

/-- The state: the block, its memories, and the commands that wait, first in, first out. -/
structure State where
  dev : Dev
  mem : Memory
  pending : List Instr
  deriving DecidableEq, Repr

/-- Why a step can stop with a fault. No meaning of this model stops with one: the spec gives every command of the
table an effect. -/
inductive Fault
  /-- Raised by no meaning of this model; it stands so that the type names a reason. Safe: a stop proves nothing false. -/
  | none
  deriving DecidableEq, Repr

/-- Why a step can be refused. -/
inductive Refusal
  /-- Raised by the arms of exec that have no meaning yet. Safe. -/
  | notModelled (mnemonic : String)
  deriving DecidableEq, Repr

/-- The block while POR_N is low after power-up (R536, R611): every register at its POR_N value, nothing listed in the
memories, no command waiting. -/
def State.reset : State := { dev := {}, mem := [], pending := [] }

end Sys2Proof.Machine
end

