-- ==== Sys2Proof/Machine/Ops.lean ====
section
/-!
DEFINITION. The named operations over registers, numbers and memory that every meaning is built from.
-/
namespace Sys2Proof.Machine
open Reg

/-! ### Numbers -/

/-- Bits [lo + w − 1 : lo] of a word. -/
def bitsOf (v lo w : Nat) : Nat := (v >>> lo) % 2 ^ w

/-- Bit b of a word. -/
def bitAt (v b : Nat) : Bool := v.testBit b

/-- The word with bit b set. -/
def setBitAt (v b : Nat) : Nat := v ||| (1 <<< b)

/-- The word with bit b clear. -/
def clrBitAt (v b : Nat) : Nat := if v.testBit b then v - 2 ^ b else v

/-- The signed number that a w-bit two's complement field holds. -/
def signed (w v : Nat) : Int := if v % 2 ^ w < 2 ^ (w - 1) then (v % 2 ^ w : Nat) else (v % 2 ^ w : Nat) - (2 ^ w : Nat)

/-- The w-bit two's complement field of a signed number. -/
def unsigned (w : Nat) (x : Int) : Nat := (x % (2 ^ w : Nat)).toNat

/-- Arithmetic shift right. -/
def asr (x : Int) (k : Nat) : Int := x / (2 ^ k : Nat)

/-- x held inside lo to hi. -/
def clampI (lo hi x : Int) : Int := if x < lo then lo else if hi < x then hi else x

/-- The quotient rounded to nearest, halves away from zero. -/
def divRound (a : Int) (b : Nat) : Int :=
  if 0 ≤ a then (2 * a + b) / (2 * b : Nat) else -((2 * (-a) + b) / (2 * b : Nat))

/-- One more than the count, held at the greatest value of w bits (R11). -/
def satInc (w v : Nat) : Nat := if v + 1 < 2 ^ w then v + 1 else 2 ^ w - 1

/-- The number that little-endian bytes spell. -/
def leNat : List (BitVec 8) → Nat
  | [] => 0
  | b :: bs => b.toNat + 256 * leNat bs

/-- The k low bytes of a number, least significant first. -/
def leBytes : Nat → Nat → List (BitVec 8)
  | 0, _ => []
  | k + 1, v => BitVec.ofNat 8 v :: leBytes k (v / 256)

/-- The 32-bit words that little-endian bytes spell. -/
def leWords : List (BitVec 8) → List Nat
  | a :: b :: c :: d :: rest => leNat [a, b, c, d] :: leWords rest
  | _ => []

/-! ### The register bank -/

/-- The order of keys. -/
def Key.before (a b : Key) : Bool :=
  a.1 < b.1 || (a.1 == b.1 && (a.2.1 < b.2.1 || (a.2.1 == b.2.1 && a.2.2 < b.2.2)))

/-- The value listed for a key, if one is. -/
def Bank.find : Bank → Key → Option Nat
  | [], _ => none
  | (k, v) :: r, q => if k = q then some v else Bank.find r q

/-- The bank with the key listed at this value. -/
def Bank.insert : Bank → Key → Nat → Bank
  | [], q, v => [(q, v)]
  | (k, u) :: r, q, v =>
    if k = q then (q, v) :: r
    else if Key.before k q then (k, u) :: Bank.insert r q v
    else (q, v) :: (k, u) :: r

/-- The bank with nothing listed for the key. -/
def Bank.erase (b : Bank) (q : Key) : Bank := b.filter (fun e => e.1 ≠ q)

/-- The value of field f at indices n, i. -/
def Bank.get (b : Bank) (f : Fld) (n i : Nat) : Nat := (b.find (f.id, n, i)).getD (f.reset i)

/-- The bank with field f at indices n, i holding v, cut to the field's width; a field at its POR_N value is unlisted. -/
def Bank.set (b : Bank) (f : Fld) (n i v : Nat) : Bank :=
  if v % 2 ^ f.w = f.reset i then b.erase (f.id, n, i) else b.insert (f.id, n, i) (v % 2 ^ f.w)

/-- The value of a field of the block. -/
def Dev.get (d : Dev) (f : Fld) (n : Nat := 0) (i : Nat := 0) : Nat := d.regs.get f n i

/-- The block with a field set. -/
def Dev.set (d : Dev) (f : Fld) (n i v : Nat) : Dev := { d with regs := d.regs.set f n i v }

/-- A one-bit field read as a condition. -/
def Dev.flag (d : Dev) (f : Fld) (n : Nat := 0) (i : Nat := 0) : Bool := d.get f n i ≠ 0

/-- The block with a flag raised. -/
def Dev.raise (d : Dev) (f : Fld) (n : Nat := 0) (i : Nat := 0) : Dev := d.set f n i 1

/-- The block with a field cleared. -/
def Dev.clear (d : Dev) (f : Fld) (n : Nat := 0) (i : Nat := 0) : Dev := d.set f n i 0

/-- The block with a flag raised when the condition holds. -/
def Dev.raiseIf (d : Dev) (c : Bool) (f : Fld) (n : Nat := 0) (i : Nat := 0) : Dev := if c then d.raise f n i else d

/-- A saturating counter counts one (R11). -/
def Dev.count (d : Dev) (f : Fld) (n : Nat := 0) (i : Nat := 0) : Dev := d.set f n i (satInc f.w (d.get f n i))

/-- A saturating counter counts k (R11). -/
def Dev.countBy (d : Dev) (k : Nat) (f : Fld) (n : Nat := 0) (i : Nat := 0) : Dev :=
  d.set f n i (min (d.get f n i + k) (2 ^ f.w - 1))

/-- A wrapping counter counts one. -/
def Dev.countWrap (d : Dev) (f : Fld) (n : Nat := 0) (i : Nat := 0) : Dev := d.set f n i (d.get f n i + 1)

/-- A bit of a field raised. -/
def Dev.setBit (d : Dev) (f : Fld) (n i b : Nat) : Dev := d.set f n i (setBitAt (d.get f n i) b)

/-- A bit of a field cleared. -/
def Dev.clrBit (d : Dev) (f : Fld) (n i b : Nat) : Dev := d.set f n i (clrBitAt (d.get f n i) b)

/-- Whether bit b of a field is 1. -/
def Dev.bit (d : Dev) (f : Fld) (n i b : Nat) : Bool := bitAt (d.get f n i) b

/-- The number that a pair of fields holds, the low word first (R613). -/
def Dev.getPair (d : Dev) (lo hi : Fld) (n : Nat := 0) (i : Nat := 0) : Nat :=
  d.get lo n i + 2 ^ 32 * d.get hi n i

/-- A pair of fields written as one number. -/
def Dev.setPair (d : Dev) (lo hi : Fld) (n i v : Nat) : Dev :=
  (d.set lo n i (v % 2 ^ 32)).set hi n i (v / 2 ^ 32)

/-- A signed field's value. -/
def Dev.getS (d : Dev) (f : Fld) (n : Nat := 0) (i : Nat := 0) : Int := signed f.w (d.get f n i)

/-! ### Channels, free values, outputs -/

/-- Channel n changed by f. -/
def Dev.onCh (d : Dev) (n : Fin 8) (f : Chan → Chan) : Dev := { d with chs := d.chs.set n (f d.chs[n]) }

/-- The channels 0 to 7. -/
def allCh : List (Fin 8) := [0, 1, 2, 3, 4, 5, 6, 7]

/-- Every channel treated in turn. -/
def Dev.eachCh (d : Dev) (f : Fin 8 → Dev → Dev) : Dev := allCh.foldl (fun e n => f n e) d

/-- Take a free number (log entry 1). -/
def Dev.free (d : Dev) : Nat × Dev := (Config.freeNat d.fresh, { d with fresh := d.fresh + 1 })

/-- Take a free bit (log entry 1). -/
def Dev.freeBit (d : Dev) : Bool × Dev := (Config.freeBool d.fresh, { d with fresh := d.fresh + 1 })

/-- The block emits something at an interface. -/
def Dev.emit (d : Dev) (o : Out) : Dev := { d with out := d.out ++ [o] }

/-- The state with another block: the memories and the queue as they were. -/
def State.withDev (s : State) (d : Dev) : State := { s with dev := d }

/-! ### Memory -/

/-- What an unlisted address reads as (log entry 4). -/
def Memory.blank : BitVec 8 := 0

/-- The byte at an address. -/
def Memory.read : Memory → Nat → BitVec 8
  | [], _ => Memory.blank
  | (k, v) :: r, a => if k = a then v else Memory.read r a

/-- The memory with a byte listed at an address. -/
def Memory.insert : Memory → Nat → BitVec 8 → Memory
  | [], a, v => [(a, v)]
  | (k, u) :: r, a, v =>
    if k = a then (a, v) :: r
    else if k < a then (k, u) :: Memory.insert r a v
    else (a, v) :: (k, u) :: r

/-- The memory with a byte written: an address at its unlisted value is not listed. -/
def Memory.write (m : Memory) (a : Nat) (v : BitVec 8) : Memory :=
  if v = Memory.blank then m.filter (fun c => c.1 ≠ a) else m.insert a v

/-- Bytes written from an address upward. -/
def Memory.writeBytes : Memory → Nat → List (BitVec 8) → Memory
  | m, _, [] => m
  | m, a, b :: bs => Memory.writeBytes (m.write a b) (a + 1) bs

/-- k bytes read from an address upward. -/
def Memory.readBytes (m : Memory) : Nat → Nat → List (BitVec 8)
  | _, 0 => []
  | a, k + 1 => m.read a :: Memory.readBytes m (a + 1) k

/-- The little-endian 32-bit word at an address. -/
def Memory.word (m : Memory) (a : Nat) : Nat := leNat (m.readBytes a 4)

/-- A little-endian 32-bit word written. -/
def Memory.setWord (m : Memory) (a v : Nat) : Memory := m.writeBytes a (leBytes 4 v)

/-- Addresses strictly rising. -/
def Memory.rising : Memory → Bool
  | [] => true
  | [_] => true
  | a :: b :: r => a.1 < b.1 && Memory.rising (b :: r)

/-- The canonical form: addresses strictly rising, no entry at the unlisted value. -/
def Memory.wf (m : Memory) : Bool := m.rising && m.all (fun c => c.2 ≠ Memory.blank)

/-- Where segment SRAM byte x of the BAR4 layout lies (R343). -/
def sramAt (x : Nat) : Nat := 0x20000000 + x

/-- Where data byte a of channel n's DRAM lies (R367). -/
def dramAt (n a : Nat) : Nat := 0x1000000000 * (n + 1) + a

end Sys2Proof.Machine
end

