-- ==== Sys2Proof/Machine/Operands.lean ====
section
/-!
DEFINITION. The operand forms the commands act through: steps (R68, R69), segment descriptors (R78), phase operands
(R157), their legality (R70, R104, R79), and the words of a calibration set (R285) and its checksum.
-/
namespace Sys2Proof.Machine
open Reg

/-! ### Steps -/

/-- A step's fields (R68, R69). -/
structure Step where
  type : Nat
  lvSrc : Nat
  hvSrc : Nat
  mkSrc : Nat
  phOp : Nat
  rep : Nat
  jmpMode : Nat
  jmpVec : Bool
  jmpEn : Nat
  lpClose : Bool
  endHold : Bool
  stepEv : Bool
  lvSeg : Nat
  hvSeg : Nat
  mkOpd : Nat
  dur : Nat
  jmpTgt : Nat
  mkPos : Nat
  phIdx : Nat
  lpCount : Nat
  lpBegin : Nat
  reserved : Bool
  deriving DecidableEq, Repr

/-- The fields of eight step words; `reserved` says whether a bit that R69 names reserved is 1. -/
def Step.ofWords (w : List Nat) : Step :=
  let g := fun i => w.getD i 0
  { type := bitsOf (g 0) 29 3, lvSrc := bitsOf (g 0) 26 3, hvSrc := bitsOf (g 0) 23 3, mkSrc := bitsOf (g 0) 20 3,
    phOp := bitsOf (g 0) 17 3, rep := bitsOf (g 0) 15 2, jmpMode := bitsOf (g 0) 13 2, jmpVec := bitAt (g 0) 12,
    jmpEn := bitsOf (g 0) 8 4, lpClose := bitAt (g 0) 7, endHold := bitAt (g 0) 6, stepEv := bitAt (g 0) 5,
    lvSeg := bitsOf (g 1) 0 20, hvSeg := bitsOf (g 2) 0 20, mkOpd := g 3, dur := bitsOf (g 4) 0 27,
    jmpTgt := bitsOf (g 5) 0 13, mkPos := bitsOf (g 5) 13 7, phIdx := bitsOf (g 5) 20 10,
    lpCount := g 6 + 2 ^ 32 * bitsOf (g 7) 0 16, lpBegin := bitsOf (g 7) 16 13,
    reserved := bitsOf (g 0) 0 5 ≠ 0 || bitsOf (g 1) 20 12 ≠ 0 || bitsOf (g 2) 20 12 ≠ 0 || bitsOf (g 4) 27 5 ≠ 0
      || bitsOf (g 5) 30 2 ≠ 0 || bitsOf (g 7) 29 3 ≠ 0 }

/-- Where step s of channel n lies in segment SRAM (R64). -/
def stepAt (n s : Nat) : Nat := sramAt (n * 0x400000 + s * 0x20)

/-- The words of step s of channel n's table. -/
def stepWords (m : Memory) (n s : Nat) : List Nat := leWords (m.readBytes (stepAt n s) 32)

/-- Step s of channel n's table. -/
def readStep (m : Memory) (n s : Nat) : Step := Step.ofWords (stepWords m n s)

/-- Whether jump input j is enabled by the step (R91). -/
def Step.enables (s : Step) (j : Nat) : Bool := s.type = 0 && bitAt s.jmpEn j

/-- The target of jump input j (R91). -/
def Step.target (s : Step) (j : Nat) : Nat := if s.jmpVec then s.jmpTgt + j else s.jmpTgt

/-- Every target an enabled input names. -/
def Step.targets (s : Step) : List Nat := ([0, 1, 2, 3].filter (fun j => bitAt s.jmpEn j)).map s.target

/-- Cause 1: a reserved bit set or a reserved code used (R70, R73, R69). -/
def Step.badCode (s : Step) : Bool :=
  s.reserved || 2 < s.type || 4 < s.lvSrc || 4 < s.hvSrc || 4 < s.mkSrc || 5 < s.phOp || 1 < s.rep || s.jmpMode = 3
  || (s.type = 0 && ((s.mkSrc < 2 && s.mkOpd ≠ 0) || (s.mkSrc = 2 && 16 ≤ s.mkOpd) || (s.mkSrc = 4 && 2 ^ 20 ≤ s.mkOpd)))
  || (s.type = 1 && (4 ≤ s.mkOpd || s.mkOpd = 3)) || (s.type = 2 && s.mkOpd ≠ 0)

/-! ### Descriptors -/

/-- A segment descriptor's fields (R78). -/
structure Desc where
  segId : Nat
  len64 : Nat
  kind : Nat
  damaged : Bool
  ns : Nat
  fbKind : Nat
  fbSeg : Nat
  deriving DecidableEq, Repr

/-- The fields of eight descriptor words. -/
def Desc.ofWords (w : List Nat) : Desc :=
  let g := fun i => w.getD i 0
  { segId := g 0, len64 := bitsOf (g 1) 0 27, kind := bitsOf (g 1) 28 2, damaged := bitAt (g 1) 31,
    ns := (g 2 + 2 ^ 32 * bitsOf (g 3) 0 14) * 64, fbKind := bitsOf (g 3) 16 2, fbSeg := bitsOf (g 4) 0 20 }

/-- The words of a descriptor after POR_N: unused (R79). -/
def blankDesc : List Nat := [0, 3 * 2 ^ 28, 0, 0, 0, 0, 0, 0]

/-- Descriptor i of the block (R79). -/
def Dev.descWords (d : Dev) (i : Nat) : List Nat := (d.mason.descs.lookup i).getD blankDesc

/-- The fields of descriptor i. -/
def Dev.desc (d : Dev) (i : Nat) : Desc := Desc.ofWords (d.descWords i)

/-- Bytes of content per unit of 64 LV periods (R80). -/
def bytesPerUnit (kind : Nat) : Nat := if kind = 0 then 128 else 16

/-- Bytes of a descriptor's content. -/
def Desc.bytes (x : Desc) : Nat := x.len64 * bytesPerUnit x.kind

/-- Ticks of a descriptor's content: a unit is 4 ticks. -/
def Desc.ticks (x : Desc) : Nat := x.len64 * 4

/-! ### Legality of a step (R104, R106) -/

/-- The segments a PLAY step names: (track kind, descriptor index). -/
def Step.segs (s : Step) : List (Nat × Nat) :=
  (if s.lvSrc = 2 || s.lvSrc = 4 then [(0, s.lvSeg)] else []) ++ (if s.hvSrc = 2 || s.hvSrc = 4 then [(1, s.hvSeg)] else [])
  ++ (if s.mkSrc = 4 then [(2, s.mkOpd % 2 ^ 20)] else [])

/-- Ticks of one pass of a PLAY step whose descriptors are these (R76). -/
def Step.ticks (s : Step) (desc : Nat → Desc) : Nat :=
  if s.dur ≠ 0 then s.dur * 4 else match s.segs with
    | [] => 0
    | (_, i) :: _ => (desc i).ticks

/-- Ticks of one pass of a PLAY step as the descriptors stand (R76). -/
def Dev.passTicks (d : Dev) (s : Step) : Nat := s.ticks d.desc

/-- Cause 2: `DUR` breaks R76, or `DUR` = 0 with no segment or with segments of unequal length. A descriptor of `KIND` 3 has no
length to compare (R79). -/
def Dev.badDur (d : Dev) (s : Step) : Bool :=
  if s.dur = 0 then
    let len := (s.segs.map (fun x => d.desc x.2)).filter (fun x => x.kind ≠ 3) |>.map Desc.ticks
    s.segs.isEmpty || !(len.all (fun t => t = len.headD 0))
  else s.dur < 4 || 2 ^ 26 < s.dur

/-- Whether the fields that R104 wants 0 in a CAL or END step are 0. -/
def Step.bareOk (s : Step) : Bool :=
  s.lvSrc = 0 && s.hvSrc = 0 && s.mkSrc = 0 && s.phOp = 0 && s.phIdx = 0 && s.dur = 0 && s.rep = 0 && s.jmpEn = 0
  && s.jmpTgt = 0 && !s.jmpVec && !s.lpClose && s.mkPos = 0

/-- Whether a target of a FAST step meets R95: a PLAY step whose first pass lasts at least 32 ticks. -/
def Dev.fastOk (d : Dev) (m : Memory) (n t : Nat) : Bool :=
  let x := readStep m n t
  x.type = 0 && 32 ≤ d.passTicks x

/-- The sequencer has found step i's row uncorrectable twice (R352). -/
def Dev.stepLost (d : Dev) (n i : Nat) : Bool :=
  d.sram.bad.any (fun b => b.1 = n && b.2.1 = 0 && b.2.2.1 = i / 2 && b.2.2.2 / 4 = i % 2)

/-- The lowest cause of R106 that makes step i of channel n illegal; 0 when it is legal (R104). -/
def Dev.stepCause (d : Dev) (m : Memory) (n i : Nat) (s : Step) : Nat :=
  if d.stepLost n i then 9
  else if s.badCode then 1
  else if s.type = 0 then
    if s.dur ≠ 0 && (s.dur < 4 || 2 ^ 26 < s.dur) then 2
    else if s.dur = 0 && s.segs.isEmpty then 2
    else if d.badDur s then 2
    else if !(s.segs.all (fun x => (d.desc x.2).kind = x.1)) then 3
    else if !(s.segs.all (fun x => d.passTicks s ≤ (d.desc x.2).ticks)) then 4
    else if s.lpClose && (s.lpCount = 0 || i < s.lpBegin) then 7
    else if s.endHold || (s.jmpMode = 2 && s.jmpEn = 0) || (s.jmpEn ≠ 0 && !(s.targets.all (fun t => t ≤ 8191)))
      || (s.lpClose && s.rep = 1) || (s.jmpMode = 2 && !(s.targets.all (fun t => d.fastOk m n t))) then 9
    else 0
  else if !s.bareOk || (s.type = 1 && s.endHold) then 9
  else 0

/-! ### Phase operands -/

/-- The operands of entry i of channel n's phase operand table (R157). -/
def Dev.phOperand (d : Dev) (n i : Nat) : Nat × Nat :=
  (d.getPair PHO_O0.FREQ_LO PHO_O1.FREQ_HI n i, d.getPair PHO_O2.PHASE_LO PHO_O3.PHASE_HI n i)

/-! ### Checksums -/

/-- One byte into a CRC-32 (IEEE 802.3, reflected). -/
def crc32Byte (c : BitVec 32) (b : BitVec 8) : BitVec 32 :=
  (List.range 8).foldl (fun c _ => if c.getLsbD 0 then (c >>> 1) ^^^ 0xEDB88320#32 else c >>> 1) (c ^^^ b.zeroExtend 32)

/-- CRC-32 (IEEE 802.3) over bytes (R285, R293). -/
def crc32 (bs : List (BitVec 8)) : Nat := ((bs.foldl crc32Byte 0xFFFFFFFF#32) ^^^ 0xFFFFFFFF#32).toNat

/-- The bytes of 32-bit words, little-endian. -/
def wordsBytes (ws : List Nat) : List (BitVec 8) := ws.flatMap (leBytes 4)

end Sys2Proof.Machine
end

