-- ==== Sys2Proof/Machine/Dram.lean ====
section
/-!
DEFINITION. What the DRAM controllers (chapter 11) make of an address: frames and ranks, the place in the dies, the requests that wake a
rank and the activations of a row.
-/
namespace Sys2Proof.Machine
open Reg

/-! ### Frames and ranks (R306, R370) -/

/-- Frames of a channel's DRAM on a GT8H-32 and on a GT8H-64 (R1, R306). -/
@[irreducible] def framesOf (half : Bool) : Nat := if half then 65536 else 131072

/-- Frames of a rank (R370). -/
def rankFrames (half : Bool) : Nat := if half then 32768 else 65536

/-- Frames of a channel's DRAM. -/
abbrev Dev.framesAll (d : Dev) : Nat := framesOf d.flash.half

/-- The rank of a frame. -/
def Dev.rankOf (d : Dev) (f : Nat) : Nat := f / rankFrames d.flash.half

/-! ### Places in the dies (R369, R394) -/

/-- The sub-channel, sub-channel address, bank after XOR and burst in row of a channel data address (R369). -/
def Dev.mapAddr (d : Dev) (n a : Nat) : Nat × Nat × Nat × Nat :=
  let g := 6 + d.get DMC_CTRL.GRAIN n
  let b := a / 2 ^ (g + 1) * 2 ^ g + a % 2 ^ g
  let bank := if d.flag DMC_CTRL.BXOR n then Nat.xor (bitsOf b 11 4) (bitsOf b 15 4) else bitsOf b 11 4
  (bitsOf a g 1, b, bank, bitsOf b 6 5)

/-- The die row that an address lies in, among those of its rank: 32 × Row + 16 × sub-channel + bank (R369). -/
def Dev.dieRow (d : Dev) (n a : Nat) : Nat :=
  let x := d.mapAddr n a
  32 * (x.2.1 / 32768 % rankFrames d.flash.half) + 16 * x.1 + x.2.2.1

/-- The bank, among the 64 of the channel's dies, that die row k of a frame lies in (R394). -/
def Dev.dieBank (d : Dev) (f k : Nat) : Nat := d.rankOf f * 32 + k % 32

/-! ### Requests and activations (R376, R385, R386, R389) -/

/-- A rank is taken out of power-down and self-refresh (R385, R386). -/
def Dev.rankWake (d : Dev) (n r : Nat) : Dev := (d.clear DMC_RANKr.PD n r).clear DMC_RANKr.SELF_REF n r

/-- Requests of port p wake a rank (R385, R386); how many of them pass their target is open (R376) (log entry 64). -/
def Dev.request (d : Dev) (n r p : Nat) : Dev :=
  let x := (d.rankWake n r).free
  x.2.countBy x.1 DMC_QOSp.LATE n p

/-- A request of a port activates the row of an address (R389): the row is counted, at 2,048 activations in its window it is hot, and each
source that activates it from then on is limited once; of a refill port the Mason is told (R390). The source is taken to be the port (log
entry 103). -/
def Dev.activate (d : Dev) (n a port : Nat) : Dev :=
  let r := d.rankOf (a / 65536)
  let row := d.dieRow n a
  let was := d.chs[Fin.ofNat 8 n].dram
  let k := ((was.acts.find? (fun x => x.1 = r && x.2.1 = row)).map (·.2.2)).getD 0 + 1
  let limit := 2048 ≤ k && !was.limited.contains (r, row, port)
  let d := d.onCh (Fin.ofNat 8 n) (fun c => { c with dram := { c.dram with
    acts := (r, row, k) :: c.dram.acts.filter (fun x => !(x.1 = r && x.2.1 = row))
    limited := if limit then (r, row, port) :: c.dram.limited else c.dram.limited } })
  let d := if k = 2048 then (d.raise DMC_STAT.HOT n).count DMC_UE.HOT n else d
  if !limit then d
  else
    let d := (d.count DMC_HOT.COUNT n).set DMC_HOT.LAST_PORT n 0 port
    if 2 < port then d
    else match d.mason.copies.find? (fun c => c.ch = n && c.frame = a / 65536) with
      | some c => { d with mason := { d.mason with hot := (n, c.page) :: d.mason.hot.filter (fun h => h ≠ (n, c.page)) } }
      | none => d

/-- A block of a capture ring is written, or read, through the capture port (R269, R373): its rank wakes, and whether the row is activated
anew is open (R380). The ring of a channel that runs SRAM-only lies outside the DRAM (log entry 60). -/
def Dev.ringRequest (d : Dev) (n a : Nat) : Dev :=
  if framesOf false ≤ a / 65536 then d
  else
    let x := (d.request n (d.rankOf (a / 65536)) 3).freeBit
    if x.1 then x.2.activate n a 3 else x.2

end Sys2Proof.Machine
end

