-- ==== Sys2Proof/Machine/Content.lean ====
section
/-!
DEFINITION. Where a channel's track content lies (R305 to R312): the pages of a range, copies in DRAM, resident blocks, stream rings
that a redirect restarts, heads, and the content a FAST step loads (R95).
-/
namespace Sys2Proof.Machine
open Reg

/-! ### Ranges and pages -/

/-- The pages that bytes [a, a + k) of the namespace lie in. -/
def pagesOf (a k : Nat) : List Nat :=
  if k = 0 then [] else (List.range ((a + k - 1) / 65536 + 1 - a / 65536)).map (· + a / 65536)

/-- The pages of a descriptor's segment. -/
def Desc.pages (x : Desc) : List Nat := if x.kind = 3 then [] else pagesOf x.ns x.bytes

/-- Bytes per tick of a track's content. -/
def bytesPerTick (kind : Nat) : Nat := if kind = 0 then 32 else 4

/-- The descriptor whose content a step's descriptor makes the channel play: its fallback's while it is DAMAGED. -/
def Dev.played (d : Dev) (i : Nat) : Option Desc :=
  let x := d.desc i
  if !x.damaged then some x else if x.fbKind = 2 then some (d.desc x.fbSeg) else none

/-- The range (address, bytes) that a stretch plays of a segment at `ns` with b bytes a tick; a boundary inside a tick brings in the
tick before (R135). -/
def Frag.span (f : Frag) (ns b : Nat) : Nat × Nat :=
  let k := if f.phi = 0 || f.ofs = 0 then 0 else 1
  (ns + b * (f.ofs - k), b * (f.n + k))

/-- The ranges that a stretch plays on its three tracks. -/
def Frag.ranges (f : Frag) : List (Nat × Nat) :=
  let tr := fun (t : TPlay) (b : Nat) => match t with
    | .seg ns => [f.span ns b]
    | .segDds ns => [f.span ns b]
    | _ => []
  tr f.lv 32 ++ tr f.hv 4 ++ (match f.mkr with | .seg ns => [f.span ns 4] | _ => [])

/-- The pages that a stretch plays. -/
def Frag.pages (f : Frag) : List Nat := f.ranges.flatMap (fun r => pagesOf r.1 r.2)

/-- The entries of a channel: the one that plays and those laid. -/
def Chan.entries (c : Chan) : List Entry := c.cur.toList ++ c.laid

/-! ### What holds a range -/

/-- The copy of a page in channel n's DRAM from which a course laid in course `laid` is staged (R45, R301, R318): one usable when it was
laid, or else one usable since. A channel that runs SRAM-only has none (R338). -/
def Dev.copyFor (d : Dev) (n page laid : Nat) : Option Copy :=
  let ok := fun (c : Copy) => c.page = page && c.ch = n && !c.poison && c.left = 0 && c.since ≤ d.time.crs && c.till.all (fun t => laid < t)
  if d.flag MSN_CHn_STAT.SRAM_ONLY n then none
  else match d.mason.copies.find? (fun c => ok c && c.since ≤ laid) with
    | some c => some c
    | none => d.mason.copies.find? ok

/-- The resident content that holds the whole of a range for a course laid in course `laid` (R310). -/
def Dev.residentFor (d : Dev) (n laid : Nat) (r : Nat × Nat) : Option Resident :=
  d.mason.resident.find? (fun x => x.ch = n && x.since.any (fun s => s ≤ laid) && x.till.all (fun t => laid < t)
    && x.ns ≤ r.1 && r.1 + r.2 ≤ x.ns + x.bytes)

/-- The rings that feed a run hold content now (R309, R312, R333), and the row that plays is not absent (R336). -/
def Dev.ringHolds (d : Dev) (n : Fin 8) (f : Feed) : Bool :=
  f.ring ≤ d.time.abs
  && (match d.chs[n].dry with
    | some (r, t) => r ≠ f.ring || t.any (fun x => x ≤ d.time.abs)
    | none => true)
  && !d.chs[n].gap.any (fun g => g.1 ≤ d.time.abs && d.time.abs < g.2)

/-- The pages of a range that the rings stage are all in the channel's DRAM. -/
def Dev.staged (d : Dev) (n laid : Nat) (r : Nat × Nat) : Bool := (pagesOf r.1 r.2).all (fun p => (d.copyFor n p laid).isSome)

/-- The byte at an address in a part of content, if it lies there. -/
def partByte (p : Nat × List (BitVec 8)) (a : Nat) : Option (BitVec 8) := if p.1 ≤ a then p.2[a - p.1]? else none

/-- The byte at an address in resident content, if it has come and its row is not absent (R352). -/
def Resident.byte (x : Resident) (a : Nat) : Option (BitVec 8) :=
  if x.gaps.contains ((a - x.ns) / 64) then none else partByte (x.ns, x.data) a

/-- The byte at an address in the resident head of the step that a run went on from (R310 to R312). -/
def Dev.headByte (d : Dev) (n laid : Nat) (f : Feed) (a : Nat) : Option (BitVec 8) :=
  f.head.bind (fun t => d.mason.resident.findSome? (fun x =>
    if x.ch = n && x.head = some t && x.since.any (· ≤ laid) && x.till.all (fun k => laid < k) then x.byte a else none))

/-- A lost page of which the rings that feed a run hold what plays now: a ring keeps content for `LEAD` µs ahead of the sample that plays
(R308). -/
def Dev.keptFor (d : Dev) (n : Fin 8) (page : Nat) (f : Feed) : Option Kept :=
  d.mason.kept.find? (fun k => k.page = page && k.ch = n.val && f.ring ≤ k.at_ && d.time.abs ≤ k.at_ + 250 * d.chs[n].lead)

/-- The content byte at a namespace address in a range that a laid course plays, where the channel has it in time (R310, R331): out of
what was loaded for a jump, resident blocks, the head, or the rings. -/
def Dev.nsByte (d : Dev) (m : Memory) (n : Fin 8) (laid : Nat) (f : Feed) (r : Nat × Nat) (a : Nat) : Option (BitVec 8) :=
  let dram := fun (frame : Nat) => m.read (dramAt n (frame * 65536 + a % 65536))
  match f.buf.findSome? (fun p => partByte p a) with
  | some b => some b
  | none =>
    match d.residentFor n laid r with
    | some x => x.byte a
    | none =>
      match d.headByte n laid f a with
      | some b => some b
      | none =>
        if !d.ringHolds n f then none
        else match d.copyFor n (a / 65536) laid with
          | some c => some (dram c.frame)
          | none => (d.keptFor n (a / 65536) f).map (fun k => dram k.frame)

/-- A 16-bit sample, least significant byte first (R80). -/
def Dev.nsSample (d : Dev) (m : Memory) (n : Fin 8) (laid : Nat) (f : Feed) (r : Nat × Nat) (a : Nat) : Option Int :=
  match d.nsByte m n laid f r a, d.nsByte m n laid f r (a + 1) with
  | some x, some y => some (signed 16 (x.toNat + 256 * y.toNat))
  | _, _ => none

/-- The channel has a stretch's content: in resident blocks, or, where the rings hold content (`ring`), in its DRAM. -/
def Dev.fragIn (d : Dev) (n : Nat) (ring : Bool) (f : Frag) : Bool :=
  f.ranges.all (fun r => (d.residentFor n f.laid r).isSome || (ring && d.staged n f.laid r))

/-! ### Heads -/

/-- The declared entry points in their order (R310). -/
def Dev.declared (d : Dev) (n : Nat) : List Nat :=
  ((List.range 16).filter (fun x => d.flag MSN_ENTRYn_x.EN n x)).map (fun x => d.get MSN_ENTRYn_x.STEP n x)

/-- The first 32 ticks of each segment track of step t, as far as the segment area has them, in the head of the step or a resident
segment (R95, R311). -/
def Dev.headBuf (d : Dev) (m : Memory) (n t : Nat) : List (Nat × List (BitVec 8)) :=
  let s := readStep m n t
  if s.type ≠ 0 then []
  else s.segs.filterMap (fun y => (d.played y.2).bind (fun x =>
    let r := (x.ns, min (32 * bytesPerTick y.1) x.bytes)
    (d.residentFor n d.time.crs r).bind (fun v => if v.gaps.isEmpty then some (x.ns, (v.data.drop (x.ns - v.ns)).take r.2) else none)))

end Sys2Proof.Machine
end

