-- ==== Sys2Proof/Machine/Layer.lean ====
section
/-!
DEFINITION. Laying a course (R27, R33, R66, R82 to R106): from the sequencer's architectural state, the actions that land
at the course's joint, the step table in segment SRAM and the descriptors, the entry of the course queue.
-/
namespace Sys2Proof.Machine
open Reg

/-! ### Lengths of courses -/

/-- `CRS_LEN` in force in course c (R18). -/
def Dev.lenAt (d : Dev) (c : Nat) : Nat :=
  match d.time.lenPend with
  | some (v, j, _) => if j ≤ c then v else d.get CRS_LEN.LEN
  | none => d.get CRS_LEN.LEN

/-- The sum of the shifts that land at joint c. -/
def Dev.shiftSum (d : Dev) (c : Nat) : Int := (d.time.shifts.filter (fun x => x.1 = c)).foldl (fun a x => a + x.2.1) 0

/-- The shift of course c, clipped to `CRS_LEN`/8 (R53). -/
def Dev.shiftAt (d : Dev) (c : Nat) : Int :=
  clampI (-((d.lenAt c / 8 : Nat) : Int)) (d.lenAt c / 8 : Nat) (d.shiftSum c)

/-- The length in ticks of course c, shift included (R53). -/
def Dev.courseLen (d : Dev) (c : Nat) : Nat :=
  if c = d.time.crs then d.time.clen else ((d.lenAt c : Int) + d.shiftAt c).toNat

/-- The stated length of a slot kind in ticks of 4 ns: 9.6 ms, 320 µs, 64 µs (R46). -/
def slotTicks (kind : Nat) : Nat := if kind = 0 then 2400000 else if kind = 1 then 80000 else 16000

/-! ### Order of actions -/

/-- The place of an action in the order of R39: its class, then its place within the class. -/
def Act.rank (a : Act) : Nat × Nat :=
  match a.kind, a.org with
  | .slot _, _ => (3, a.seq)
  | _, .sys id => (4, id)
  | _, .line l => (5, l)
  | _, _ => (6, a.seq)

/-- Whether a stands before b in the order of R39 (acceptance decides where the class does not). -/
def Act.le (a b : Act) : Bool :=
  a.rank.1 < b.rank.1 || (a.rank.1 = b.rank.1 && (a.rank.2 < b.rank.2 || (a.rank.2 = b.rank.2 && a.seq ≤ b.seq)))

/-- Insert an action in the order of R39. -/
def insertAct (a : Act) : List Act → List Act
  | [] => [a]
  | b :: r => if a.le b then a :: b :: r else b :: insertAct a r

/-- The actions in the order of R39. -/
def sortActs (l : List Act) : List Act := l.foldr insertAct []

/-- Whether an action redirects a sequencer (R40, R90). -/
def Act.redirects (a : Act) : Bool :=
  match a.kind with
  | .start | .stop | .restart | .jump _ | .jumpTo _ => true
  | _ => false

/-! ### Loops and jumps -/

/-- The choice at the end of a pass: the next step and the loop stack, or a step fault's cause. -/
inductive Next
  | go (step : Nat) (stack : List Lvl)
  | fault (cause : Nat)
  deriving DecidableEq, Repr

/-- The stack with the closing step's pass counted or its level pushed (R82). -/
def countLoop (s : Step) (i : Nat) (stack : List Lvl) : Except Nat (List Lvl) :=
  let push : Except Nat (List Lvl) :=
    if stack.length = 4 then .error 5
    else match stack with
      | top :: _ => if s.lpBegin < top.beg then .error 6 else .ok (⟨s.lpBegin, i, 1⟩ :: stack)
      | [] => .ok [⟨s.lpBegin, i, 1⟩]
  match stack with
  | top :: rest => if top.close = i then .ok (⟨top.beg, top.close, top.done + 1⟩ :: rest) else push
  | [] => push

/-- The step after the end of a pass of step i (R82). -/
def nextStep (s : Step) (i : Nat) (stack : List Lvl) : Next :=
  let within := fun (t : Nat) (st : List Lvl) => if 8191 < t then Next.fault 8 else Next.go t st
  if s.rep = 1 then .go i stack
  else if s.lpClose then
    match countLoop s i stack with
    | .error c => .fault c
    | .ok [] => within (i + 1) []
    | .ok (top :: rest) => if top.done = s.lpCount then within (i + 1) rest else within s.lpBegin (top :: rest)
  else within (i + 1) stack

/-- The stack after a jump to t: levels popped down to the first whose body contains t (R84). -/
def popTo (t : Nat) (stack : List Lvl) : List Lvl := stack.dropWhile (fun l => !(l.beg ≤ t && t ≤ l.close))

/-- The waiting jump that takes a pass end (R92): the first in the order of R39, a held one after those that landed (R99). -/
def Arch.firstWaiting (a : Arch) : Option Act :=
  let acts := (a.waiting.filter (fun w => w.2.2 = a.step)).map (·.1)
  (sortActs (acts.filter (fun x => !a.heldW.contains x.seq)) ++ sortActs (acts.filter (fun x => a.heldW.contains x.seq))).head?

/-! ### What a track plays -/

/-- What an LV (kind 0) or HV (kind 1) track plays for a source and a descriptor, and whether a fallback replaces a
DAMAGED one (R71, R81). -/
def trackOf (desc : Nat → Desc) (kind src seg need : Nat) : TPlay × Bool :=
  let put := fun ns => if src = 4 then TPlay.segDds ns else TPlay.seg ns
  if src = 0 then (.quiet, false) else if src = 1 then (.hold, false) else if src = 3 then (.dds, false)
  else
    let x := desc seg
    if !x.damaged then (put x.ns, false)
    else if x.fbKind = 1 then (.hold, true)
    else if x.fbKind = 2 then
      let y := desc x.fbSeg
      if y.kind = kind && !y.damaged && need ≤ y.ticks then (put y.ns, true) else (.quiet, true)
    else (.quiet, true)

/-- What the marker track plays (R73, R81). -/
def markTrack (desc : Nat → Desc) (s : Step) (need : Nat) : MPlay × Bool :=
  if s.mkSrc = 0 then (.quiet s.mkPos, false) else if s.mkSrc = 1 then (.hold, false)
  else if s.mkSrc = 2 then (.levels (s.mkOpd % 16) s.mkPos, false)
  else if s.mkSrc = 3 then (.pattern s.mkOpd s.mkPos, false)
  else
    let x := desc (s.mkOpd % 2 ^ 20)
    if !x.damaged then (.seg x.ns, false)
    else if x.fbKind = 1 then (.hold, true)
    else if x.fbKind = 2 then
      let y := desc x.fbSeg
      if y.kind = 2 && !y.damaged && need ≤ y.ticks then (.seg y.ns, true) else (.quiet 0, true)
    else (.quiet 0, true)

/-! ### The lay -/

/-- What a lay reads of step i of channel n, after `cuts` cuts (R66). -/
def Dev.readNow (d : Dev) (m : Memory) (n cuts i : Nat) : StepRead :=
  let w := stepWords m n i
  let s := Step.ofWords w
  let own := (s.segs.map (·.2)).eraseDups
  let all := (own ++ own.map (fun k => (d.desc k).fbSeg)).eraseDups
  { cuts := cuts, at_ := i, words := w, cause := d.stepCause m n i s, descs := all.map (fun k => (k, d.descWords k)), opd := d.phOperand n s.phIdx
    heads := if s.type = 0 && s.jmpMode = 2 then s.targets.eraseDups.map (fun t => (t, d.headBuf m n t)) else [] }

/-- The step read. -/
def StepRead.step (r : StepRead) : Step := Step.ofWords r.words

/-- A descriptor as it was read. -/
def StepRead.desc (r : StepRead) (d : Dev) (k : Nat) : Desc := ((r.descs.lookup k).map Desc.ofWords).getD (d.desc k)

/-- A lay in progress: the sequencer so far, the tick reached, the stretches and effects laid (latest first), the steps
begun, the held events last shown, the jump phase with which a run ended at this tick, the old stretches under cuts, the cuts made, what
it has read, what an earlier lay of the course had read that this one keeps (R66), and the courses in which its parts were laid (R310). -/
structure LaySt where
  a : Arch
  t : Nat
  frags : List Frag
  fx : List (Nat × Fx)
  starts : Nat
  shown : Nat × Bool
  lag : Nat
  under : List Frag
  cuts : Nat
  reads : List StepRead
  memo : List StepRead
  binds : List Nat

/-- The held events that show in `SEQ_PEND` (R99): the jump inputs as a mask, and the start. -/
def Arch.pend (a : Arch) : Nat × Bool :=
  let waits := a.waiting.filterMap (fun w => match w.1.kind with
    | .jump j => if a.heldW.contains w.1.seq then some j else none
    | _ => none)
  ((a.heldJ.map (·.1) ++ waits).foldl setBitAt 0, a.heldStart.isSome || a.startDue.isSome)

/-- Jump input j holds an event (R99). -/
def Arch.holds (a : Arch) (j : Nat) : Bool := bitAt a.pend.1 j

/-- A lay that begins from a state of the sequencer, with what it keeps of an earlier lay of the course. -/
def LaySt.begin (a : Arch) (memo : List StepRead) (binds : List Nat) : LaySt :=
  { a := a, t := 0, frags := [], fx := [], starts := 0, shown := a.pend, lag := 0, under := [], cuts := 0, reads := [], memo := memo, binds := binds }

/-- What the lay has read of a step, now or before. -/
def LaySt.known (l : LaySt) (i : Nat) : Option StepRead := (l.reads ++ l.memo).find? (fun r => r.cuts = l.cuts && r.at_ = i)

/-- What the lay reads of a step (R66). -/
def LaySt.read (l : LaySt) (d : Dev) (m : Memory) (n i : Nat) : StepRead := (l.known i).getD (d.readNow m n l.cuts i)

/-- The step as the lay reads it. -/
def LaySt.stepAt (l : LaySt) (m : Memory) (n i : Nat) : Step := match l.known i with | some r => r.step | none => readStep m n i

/-- A step read is kept. -/
def LaySt.keep (l : LaySt) (r : StepRead) : LaySt := if l.reads.any (fun x => x.cuts = r.cuts && x.at_ = r.at_) then l else { l with reads := l.reads ++ [r] }

/-- The course in which the part reached was laid (R310). -/
def LaySt.laid (l : LaySt) (d : Dev) : Nat := l.binds.getD l.cuts d.time.crs

/-- An effect added at the tick reached. -/
def LaySt.add (l : LaySt) (f : Fx) : LaySt := { l with fx := (l.t, f) :: l.fx }

/-- A change of the held events reported at the tick reached (R99). -/
def LaySt.note (l : LaySt) : LaySt :=
  if l.a.pend = l.shown then l else { l.add (.pend l.a.pend.1 l.a.pend.2) with shown := l.a.pend }

/-- A quiet, held or slot stretch up to tick e; after the end of a run it begins with the jump phase of that run (R135). -/
def LaySt.idle (l : LaySt) (d : Dev) (what : Content) (e : Nat) : LaySt :=
  let tp : TPlay := if what = .held then .hold else .quiet
  let mp : MPlay := if what = .held then .hold else .quiet 0
  { l with t := e, frags := ⟨l.t, e - l.t, l.a.step, 0, l.lag, what, tp, tp, mp, none, l.a.stack, {}, l.laid d⟩ :: l.frags, lag := 0 }

/-- The held events of a sequencer dropped with their overrun (R99, R129). -/
def LaySt.dropHeld (l : LaySt) : LaySt :=
  let drops := (l.a.heldJ.map (·.2)) ++ l.a.heldStart.toList ++ l.a.startDue.toList
  let l := drops.foldl (fun l a => l.add (.dropped a false)) l
  { l with a := { l.a with heldJ := [], dueJ := [], heldStart := none, startDue := none } }

/-- The waiting jumps dropped: by a redirect as superseded (R92), by a step fault not. -/
def LaySt.dropWaiting (l : LaySt) (sup : Bool) : LaySt :=
  let l' := l.a.waiting.foldl (fun l w => l.add (.dropped w.1 sup)) l
  { l' with a := { l'.a with waiting := [], heldW := [] } }

/-- The jump phase set to 0, reported when it changes (R135). -/
def LaySt.zeroPhi (l : LaySt) : LaySt :=
  if l.a.phi = 0 then l else { l.add (.phi 0) with a := { l.a with phi := 0 } }

/-- A run starts at a step: empty stack, held and waiting events gone, jump phase 0 (R85, R135). -/
def LaySt.startRun (l : LaySt) (step : Nat) : LaySt :=
  let l := (l.dropWaiting true).dropHeld.zeroPhi
  { l.add .runStart with a := { l.a with mode := .running, step := step, ofs := 0, len := 0, stack := [], lsEnd := none } }

/-- A pass ends exactly at the joint of the lay. -/
def LaySt.atEnd (l : LaySt) : Bool := l.a.len ≠ 0 && l.a.ofs = l.a.len && l.a.phi = 0

/-- The target of the waiting jump that takes the pass end (R92). -/
def Arch.waitTarget (a : Arch) : Option Nat := a.firstWaiting.bind (fun x => (a.waiting.find? (fun w => w.1 = x)).map (·.2.1))

/-- The step, the whole ticks into its pass and the stack with which the course would begin (R92, R634). -/
def LaySt.visible (l : LaySt) (m : Memory) (n : Nat) : Nat × Nat × List Lvl :=
  if !l.atEnd then (l.a.step, if l.a.phi = 0 then l.a.ofs else l.a.ofs - 1, l.a.stack)
  else match l.a.waitTarget with
    | some t => (t, 0, popTo t l.a.stack)
    | none => match nextStep (l.stepAt m n l.a.step) l.a.step l.a.stack with
      | .go i st => (i, 0, st)
      | .fault _ => (l.a.step, l.a.ofs, l.a.stack)

/-- The run stops (R90). -/
def LaySt.stopRun (l : LaySt) (m : Memory) (n : Nat) : LaySt :=
  let v := l.visible m n
  let l := (l.dropWaiting true).dropHeld.zeroPhi
  { l.add (.runStop v.1 v.2.1 v.2.2) with a := { l.a with mode := .stopped, len := 0, ofs := 0, stack := [] } }

/-- A jump takes effect (R84, R91). -/
def LaySt.jump (l : LaySt) (target : Nat) : LaySt :=
  let l := l.dropWaiting true
  { l with a := { l.a with step := target, ofs := 0, len := 0, stack := popTo target l.a.stack } }

/-- The redirect that has taken the run to its step has restarted the idle rings (R312). -/
def LaySt.fed (l : LaySt) (a : Act) (buf : List (Nat × List (BitVec 8))) : LaySt :=
  { l with a := { l.a with feed := { ring := a.ring, head := some l.a.step, buf := buf } } }

/-- The step whose pass covers the first sample of the course (R92), as laid: where a waiting jump takes the pass end at the joint, its
target. -/
def LaySt.cover (l : LaySt) (m : Memory) (n : Nat) : Option Nat :=
  match l.a.mode with
  | .running =>
    if !l.atEnd then some l.a.step
    else match l.a.waitTarget with
      | some t => some t
      | none => match nextStep (l.stepAt m n l.a.step) l.a.step l.a.stack with
        | .go i _ => some i
        | .fault _ => none
  | _ => none

/-- Whether the latest pass of the covering step ended exactly at this joint (R92, STEP_END). -/
def LaySt.endedHere (l : LaySt) (cover : Nat) : Bool := l.atEnd && cover = l.a.step

/-- The jumps that waited for the pass which ends at the joint are dropped, for a redirect has landed there in its own right (R92,
DEDUCED: log entry 35). -/
def LaySt.dropPassed (l : LaySt) : LaySt :=
  let gone := l.a.waiting.filter (fun w => w.2.2 = l.a.step)
  let l' := gone.foldl (fun l w => l.add (.dropped w.1 true)) l
  { l' with a := { l'.a with waiting := l'.a.waiting.filter (fun w => w.2.2 ≠ l.a.step) } }

/-- What a joint finds as laid, before any redirect there (R92, R97): whether a run is on, the covering step, and whether a pass of
that step has just ended. -/
structure Found where
  run : Bool
  cover : Option Nat
  ended : Bool

/-- The joint as a lay finds it. -/
def LaySt.found (l : LaySt) (m : Memory) (n : Nat) : Found :=
  let i := l.cover m n
  { run := match l.a.mode with | .running => true | .calWait _ => true | .calSlot _ _ => true | _ => false
    cover := i
    ended := i.any l.endedHere }

/-- The step that starts exactly at the joint, if one does: that to which a redirect there has taken the run, or the one after the pass that ends
there (R98, R632). -/
def LaySt.startsHere (l : LaySt) (m : Memory) (n : Nat) (red : Bool) : Option Nat :=
  if red then (if l.a.mode = .running && l.a.len = 0 then some l.a.step else none)
  else if l.a.mode = .running && l.atEnd && (l.a.waitTarget.isSome || (l.stepAt m n l.a.step).rep ≠ 1) then l.cover m n
  else none

/-- The policy of jump input j (R98). -/
def Dev.jumpPol (d : Dev) (n j : Nat) : Nat :=
  if j = 0 then d.get SEQ_TRIG.JMP0_POL n else if j = 1 then d.get SEQ_TRIG.JMP1_POL n
  else if j = 2 then d.get SEQ_TRIG.JMP2_POL n else d.get SEQ_TRIG.JMP3_POL n

/-- A start or a stop has taken effect at the joint, and with it the held events are discarded (R99). -/
def LaySt.discards (l : LaySt) : Bool :=
  l.fx.any (fun x => match x.2 with | .runStart => true | .runStop _ _ _ => true | _ => false)

/-- A held or dropped event on a busy jump input (R98, R99). -/
def LaySt.busyJump (l : LaySt) (pol j : Nat) (a : Act) : LaySt :=
  if pol = 1 && !l.a.holds j && !l.discards then { l with a := { l.a with heldJ := l.a.heldJ ++ [(j, a)] } }
  else l.add (.dropped a false)

/-- A jump input has an event accepted and not yet taken effect (R97); `past` waits for the end of a slot. -/
def Arch.jumpHeld (a : Arch) (past : List Act) (j : Nat) : Bool :=
  a.waiting.any (fun w => w.1.kind = .jump j) || a.heldJ.any (fun h => h.1 = j) || past.any (fun x => x.kind = .jump j)

/-- A redirecting action lands at joint c; the second component says whether a redirect has taken effect there. Whether its consumer
is busy is judged by what the joint found, before that redirect (DEDUCED: R92, R96; log entry 61). A STOP that finds the sequencer
armed cancels the starts accepted before (R101), one that lands at the same joint as superseded (R40), and discards the held events (R99).
`past`: actions held over a slot that come after those that land in their own right. -/
def Dev.landRedirect (d : Dev) (m : Memory) (n : Fin 8) (c : Nat) (f : Found) (past : List Act) (p : LaySt × Bool) (a : Act) : LaySt × Bool :=
  let (l, red) := p
  let armed := d.chs[n].acts.any (fun x => x.kind = .start && a.land < x.land && x.acc < a.land
    && (match x.org with | .reg => true | .mbx _ _ => true | _ => decide (x.seq < a.seq)))
  let evt := match a.org with | .sys _ => true | .line _ => true | _ => false
  let start := d.get SEQ_CTRL.START_STEP n
  let take : LaySt × Bool := if red then (l.add (.dropped a true), red) else (((l.startRun start).fed a []).add (.took a), true)
  match a.kind with
  | .start =>
    if l.a.noStart.any (fun c => a.acc < c) then (if a.land = c then (l.add (.dropped a true), red) else (l, red))
    else if evt && (l.a.heldStart.isSome || l.a.startDue.isSome) then (l.add (.dropped a false), red)
    else if evt && (f.run || armed) then
      let pol := d.get SEQ_TRIG.START_POL n
      if pol = 2 then take
      else if pol = 1 && !l.discards then ({ l with a := { l.a with heldStart := some a } }, red)
      else (l.add (.dropped a false), red)
    else if f.run then (l.add (.dropped a false), red)
    else take
  | .restart => take
  | .stop =>
    if red then (l.add (.dropped a true), red)
    else if f.run then ((l.stopRun m n).add (.took a), true)
    else if l.a.mode = .held then (let l := (l.dropHeld.add .cancelStarts).add (.took a); { l with a := { l.a with mode := .stopped, noStart := some c } }, true)
    else (let l := (l.dropHeld.add .cancelStarts).add (.took a); { l with a := { l.a with noStart := some c } }, red)
  | .jumpTo step =>
    if !f.run then (l.add (.dropped a false), red)
    else if red then (l.add (.dropped a true), red)
    else ((((l.zeroPhi).jump step).fed a []).add (.took a), true)
  | .jump j =>
    let pol := d.jumpPol n j
    match f.cover with
    | none => (l.busyJump pol j a, red)
    | some i =>
      let s := l.stepAt m n i
      if !s.enables j || l.a.jumpHeld past j then (l.busyJump pol j a, red)
      else if red then (l.add (.dropped a true), red)
      else if s.jmpMode = 1 && !f.ended then
        let l := if l.atEnd then l.dropPassed else l
        ({ l with a := { l.a with waiting := l.a.waiting ++ [(a, s.target j, i)] } }, red)
      else ((((l.zeroPhi).jump (s.target j)).fed a []).add (.took a), true)
  | _ => (l, red)

/-- A held jump that is due takes the joint, after the actions that land there in their own right (R98, R99): one that fell due in the
first later step that enables its input, or that the step which starts exactly there makes due (R632). Where a redirect has taken the joint, or
a waiting jump takes the pass end there, it is dropped (R40). -/
def LaySt.landHeld (l : LaySt) (m : Memory) (n : Fin 8) (red : Bool) (h : Nat × Act) : LaySt × Bool :=
  let here := (l.startsHere m n red).bind (fun i =>
    let s := l.stepAt m n i
    if s.enables h.1 && s.jmpMode ≠ 1 then some (s.target h.1) else none)
  match (match l.a.dueJ.lookup h.1 with | some t => some t | none => here) with
  | none => (l, red)
  | some t =>
    let late := red || (l.atEnd && l.a.waitTarget.isSome)
    let l := { l with a := { l.a with heldJ := l.a.heldJ.filter (fun x => x.1 ≠ h.1), dueJ := l.a.dueJ.filter (fun x => x.1 ≠ h.1) } }
    if late then (l.add (.dropped h.2 true), red) else ((((l.zeroPhi).jump t).fed h.2 []).add (.took h.2), true)

/-- A start held to the end of the run begins a new run at the joint (R98). -/
def Dev.landStartDue (d : Dev) (n : Fin 8) (p : LaySt × Bool) : LaySt × Bool :=
  let (l, red) := p
  match l.a.startDue with
  | none => p
  | some a =>
    let l := { l with a := { l.a with startDue := none } }
    if red then (l.add (.dropped a true), red) else (((l.startRun (d.get SEQ_CTRL.START_STEP n)).fed a []).add (.took a), true)

/-- An event or action held before the joint takes its place there (R42, R99): `past` was held over a slot, the others by a busy
consumer. -/
def Dev.landWait (d : Dev) (m : Memory) (n : Fin 8) (c : Nat) (f : Found) (past : List Act) (p : LaySt × Bool) (a : Act) : LaySt × Bool :=
  if past.contains a then d.landRedirect m n c f [] p a
  else if p.1.a.startDue = some a then d.landStartDue n p
  else match p.1.a.heldJ.find? (fun h => h.2 = a) with
    | some h => p.1.landHeld m n p.2 h
    | none => p

/-- A step fault at the tick reached (R105); `v` is the step, the ticks into its pass and the stack that show (R634). -/
def LaySt.fault (l : LaySt) (v : Nat × Nat × List Lvl) (cause : Nat) : LaySt :=
  let l := (l.dropWaiting false).dropHeld
  { l.add (.fault v.1 cause v.2.1 v.2.2) with a := { l.a with mode := .fault, len := 0, ofs := 0, phi := 0 } }

/-- The run ends in a step fault at the head of its course where a lockstep mismatch there found no spare (R113): `SEQ_FAULT.STEP` names the
step with which the mismatching entry would begin (log entry 93, DESIGN CHOICE). -/
def LaySt.lockstepEnd (l : LaySt) (m : Memory) (n c : Nat) : LaySt :=
  if !l.a.lsEnd.any (fun x => x ≤ c) then l
  else
    let l := { l with a := { l.a with lsEnd := none } }
    match l.a.mode with
    | .running => l.fault (l.visible m n) 10
    | .calWait _ | .calSlot _ _ => l.fault (l.a.step, 0, l.a.stack) 10
    | _ => l

/-- What the entry of a later step does to the held jumps that it enables (R98): those of a STEP_END step wait for its first
pass's end, the others are due at the next joint. -/
def Arch.heldAt (a : Arch) (s : Step) : Arch :=
  let due := fun (h : Nat × Act) => a.dueJ.any (fun x => x.1 = h.1)
  let go := a.heldJ.filter (fun h => s.enables h.1 && !due h)
  if s.jmpMode = 1 then
    { a with heldJ := a.heldJ.filter (fun h => !s.enables h.1),
             waiting := a.waiting ++ go.map (fun h => (h.2, s.target h.1, a.step)), heldW := a.heldW ++ go.map (·.2.seq) }
  else { a with dueJ := a.dueJ ++ go.map (fun h => (h.1, s.target h.1)) }

/-- A step is entered, or begins its pass again under WAIT: END ends the run, CAL waits for its slot or starts it, PLAY begins a
pass (R102, R103, R76); a FAST step's head buffer is loaded (R95). A CAL or END step, which has no pass, fires the STEP producer as it is
entered, a CAL step before its slot (log entry 92, DESIGN CHOICE). -/
def Dev.enterStep (d : Dev) (m : Memory) (n : Fin 8) (again : Bool) (l : LaySt) : LaySt :=
  let i := l.a.step
  let r := l.read d m n i
  let s := r.step
  let l := l.keep r
  let onJoint := l.t = 0 && l.a.phi = 0
  if r.cause ≠ 0 then l.fault (i, 0, l.a.stack) r.cause
  else if s.type = 2 then
    let due := l.a.heldStart
    let l := { l with lag := l.a.phi, a := { l.a with heldStart := none } }.zeroPhi
    let l := if s.stepEv then l.add .stepEv else l
    let l := l.add (.runEnd i l.a.stack)
    let l := { l with a := { l.a with mode := if s.endHold then Mode.held else Mode.stopped, len := 0, ofs := 0, stack := [] } }
    match due with
    | some a => if onJoint then ((l.startRun (d.get SEQ_CTRL.START_STEP n)).fed a []).add (.took a)
      else { l with a := { l.a with startDue := some a } }
    | none => l
  else if s.type = 1 then
    let l := if s.stepEv then l.add .stepEv else l
    let l := { l with lag := l.a.phi }.zeroPhi
    let k := s.mkOpd % 4
    let wait : LaySt := { l with a := { l.a with mode := .calWait k, len := 0, ofs := 0 } }
    if !onJoint then wait
    else match l.a.req with
      | none => { l.add (.slotBegin k false none) with a := { l.a with mode := .calSlot k (slotTicks k), len := 0, ofs := 0 } }
      | some _ => wait.add .calDefer
  else
    let l := if s.stepEv then l.add .stepEv else l
    let a := if again then l.a else l.a.heldAt s
    { l with starts := l.starts + 1, a := { a with ofs := 0, len := s.ticks (r.desc d), fb := 0, bufs := r.heads } }

/-- The pass in progress plays up to tick e at most (R66, R75, R81, R159). -/
def Dev.playPass (d : Dev) (m : Memory) (n : Fin 8) (e : Nat) (l : LaySt) : LaySt :=
  let i := l.a.step
  let r := l.read d m n i
  let s := r.step
  let l := l.keep r
  if r.cause ≠ 0 then l.fault (i, if l.a.phi = 0 then l.a.ofs else l.a.ofs - 1, l.a.stack) r.cause
  else
    let k := min (l.a.len - l.a.ofs) (e - l.t)
    let lv := trackOf (r.desc d) 0 s.lvSrc s.lvSeg l.a.len
    let hv := trackOf (r.desc d) 1 s.hvSrc s.hvSeg l.a.len
    let mk := markTrack (r.desc d) s l.a.len
    let fell := (if lv.2 then 1 else 0) + (if hv.2 then 2 else 0) + (if mk.2 then 4 else 0)
    let op := if l.a.ofs = 0 && s.phOp ≠ 0 then some ⟨s.phOp, r.opd.1, r.opd.2⟩ else none
    let l := if l.a.fb ||| fell = l.a.fb then l else l.add .fallback
    let feed := if l.a.ofs < 33 then l.a.feed else { l.a.feed with buf := [] }
    { l with t := l.t + k, frags := ⟨l.t, k, i, l.a.ofs, l.a.phi, .run, lv.1, hv.1, mk.1, op, l.a.stack, feed, l.laid d⟩ :: l.frags,
             a := { l.a with ofs := l.a.ofs + k, fb := l.a.fb ||| fell } }


/-- The boundary at the end of a pass: a waiting jump, or the choice of R82 (R92). -/
def Dev.boundary (d : Dev) (m : Memory) (n : Fin 8) (l : LaySt) : LaySt :=
  match l.a.firstWaiting with
  | some a =>
    match l.a.waiting.find? (fun w => w.1 = a) with
    | some w => ((({ l with a := { l.a with waiting := l.a.waiting.filter (fun x => x.1 ≠ a) } }).jump w.2.1).fed a []).add (.took a)
    | none => l
  | none =>
    let r := l.read d m n l.a.step
    let s := r.step
    let l := l.keep r
    match nextStep s l.a.step l.a.stack with
    | .go i st =>
      let l := { l with a := { l.a with step := i, stack := st, ofs := 0, len := 0, feed := { l.a.feed with buf := [] } } }
      if s.rep = 1 then d.enterStep m n true l else l
    | .fault c => l.fault (l.a.step, l.a.ofs, l.a.stack) c

/-- A CAL step that begins at the joint because the pass before it ends there starts its slot, or defers it (R102, R276). -/
def Dev.landCal (d : Dev) (m : Memory) (n : Fin 8) (reds : Bool) (l : LaySt) : LaySt :=
  if l.a.mode = .running && l.a.len ≠ 0 && l.a.ofs = l.a.len && l.a.phi = 0 && (l.a.firstWaiting.isNone || !reds) then
    let b := d.boundary m n l
    let r := l.read d m n b.a.step
    if b.a.mode = .running && b.a.len = 0 && r.step.type = 1 && r.cause = 0 then d.enterStep m n false b else l
  else l

/-- Slots at the joint (order 3 of R39): a slot that has run its length ends; a CAL step starts its slot or is deferred by a
requested one (R276), before any redirect that lands there (DEDUCED: R39, R42; log entry 38); a requested slot starts or is
dropped. -/
def Dev.landSlots (d : Dev) (m : Memory) (n : Fin 8) (reds : Bool) (l : LaySt) (reqs : List Act) : LaySt :=
  let l := match l.a.req with
    | some (_, 0) => { l with a := { l.a with req := none } }
    | _ => l
  let l := match l.a.mode with
    | .calSlot _ 0 => { l with a := { l.a with mode := .running, ofs := 1, len := 1 } }
    | _ => l
  let l := match l.a.mode, l.a.req with
    | .calWait k, none => { l.add (.slotBegin k false none) with a := { l.a with mode := .calSlot k (slotTicks k) } }
    | .calWait _, some _ => l.add .calDefer
    | _, _ => d.landCal m n reds l
  reqs.foldl (fun l a =>
    match a.kind, l.a.mode, l.a.req with
    | .slot k, .calSlot _ _, _ => let _ := k; l.add (.dropped a false)
    | .slot k, _, none => { l.add (.slotBegin k true (some a)) with a := { l.a with req := some (k, slotTicks k) } }
    | _, _, _ => l.add (.dropped a false)) l

/-- A redirecting action lands inside a slot: it is held to the slot's end (R42), but for an event on a jump input that has one accepted already,
which the input's policy handles where it lands (R97, R98). -/
def Dev.slotHold (d : Dev) (n : Fin 8) (l : LaySt) (a : Act) : LaySt :=
  let hold : LaySt := { l.add (.heldOver [a]) with a := { l.a with overSlot := l.a.overSlot ++ [a] } }
  match a.kind with
  | .jump j => if l.a.jumpHeld l.a.overSlot j then l.busyJump (d.jumpPol n j) j a else hold
  | _ => hold

/-- The steps that a joint looks at are read (R66, R92). -/
def Dev.readHere (d : Dev) (m : Memory) (n : Fin 8) (l : LaySt) : LaySt :=
  if l.a.mode ≠ .running then l
  else
    let l := l.keep (l.read d m n l.a.step)
    match l.cover m n with
    | some i => l.keep (l.read d m n i)
    | none => l

/-- Whether a slot is in force in the course that begins. -/
def LaySt.inSlot (l : LaySt) : Bool :=
  l.a.req.isSome || (match l.a.mode with | .calSlot _ _ => true | _ => false)

/-- The joint of course c: slots, then redirects in the order of R39 (held over a slot, R42), then the actions and events that
were held, in the same order among themselves (R99), then the settings that land (R41). -/
def Dev.landJoint (d : Dev) (m : Memory) (n : Fin 8) (c : Nat) (l : LaySt) (acts : List Act) : LaySt :=
  let acts := sortActs acts
  let reds := acts.filter Act.redirects
  let l0 := (d.readHere m n l).lockstepEnd m n c
  let l1 := d.landSlots m n (!reds.isEmpty) l0 (acts.filter (fun x => match x.kind with | .slot _ => true | _ => false))
  let l2 :=
    if l1.inSlot then reds.foldl (d.slotHold n) l1
    else
      let f := l1.found m n
      let past := l1.a.overSlot
      let waits := sortActs (past ++ l1.a.startDue.toList ++ l1.a.heldJ.map (·.2))
      let p := reds.foldl (d.landRedirect m n c f past) ({ l1 with a := { l1.a with overSlot := [] } }, false)
      (waits.foldl (d.landWait m n c f past) p).1
  (acts.filter (fun x => match x.kind with | .snap | .apply _ => true | _ => false)).foldl (fun l x => l.add (.took x)) l2

/-- Lay up to tick e of a course, with fuel for the pieces. -/
def Dev.layTo (d : Dev) (m : Memory) (n : Fin 8) (e : Nat) : Nat → LaySt → LaySt
  | 0, l => if l.t < e then l.idle d .stopped e else l
  | k + 1, l =>
    let l := l.note
    if e ≤ l.t then l
    else match l.a.mode with
      | .stopped => d.layTo m n e k (l.idle d .stopped e)
      | .held => d.layTo m n e k (l.idle d .held e)
      | .fault => d.layTo m n e k (l.idle d .fault e)
      | .calWait _ => d.layTo m n e k (l.idle d .calWait e)
      | .calSlot _ _ => d.layTo m n e k (l.idle d .slot e)
      | .running =>
        if l.a.len = 0 then d.layTo m n e k (d.enterStep m n false l)
        else if l.a.ofs = l.a.len then d.layTo m n e k (d.boundary m n l)
        else d.layTo m n e k (d.playPass m n e l)

/-- Lay up to tick e with the fuel that its ticks can need. -/
def Dev.layUpTo (d : Dev) (m : Memory) (n : Fin 8) (e : Nat) (l : LaySt) : LaySt := d.layTo m n e (3 * e + 16) l

/-- The step that plays at the tick reached is entered, where its first sample lies on the tick. -/
def Dev.enterNow (d : Dev) (m : Memory) (n : Fin 8) (l : LaySt) : LaySt :=
  let l := if l.a.mode = .running && l.a.len ≠ 0 && l.a.ofs = l.a.len && l.a.phi = 0 then d.boundary m n l else l
  if l.a.mode = .running && l.a.len = 0 then d.enterStep m n false l else l

/-- A firing held on a jump input at its consumer tick (R137, R99). -/
def Dev.holdAt (d : Dev) (m : Memory) (n : Fin 8) (h : FastJump) (j : Nat) (l : LaySt) : LaySt :=
  let l := d.enterNow m n (d.layUpTo m n h.tick l)
  if l.a.holds j then l.add (.dropped h.act false) else { l with a := { l.a with heldJ := l.a.heldJ ++ [(j, h.act)] } }

/-- A fast jump's cut in a lay (R134, R135, R138): the old step plays up to the cut, inside the cut's tick where the jump phase
puts it there; then the target begins, whatever the old step's pass came to but for a step fault. A slot that has begun holds the
jump over (R42; log entry 39, DEDUCED). -/
def Dev.jumpAt (d : Dev) (m : Memory) (n : Fin 8) (j : FastJump) (l : LaySt) : LaySt :=
  let l := d.layUpTo m n j.tick l
  let o := if l.a.phi < j.phi then d.layUpTo m n (j.tick + 1) l else l
  let x := { o with t := j.tick, frags := l.frags, under := o.frags.take (o.frags.length - l.frags.length) ++ o.under, lag := 0, cuts := o.cuts + 1 }
  match o.a.mode with
  | .fault => { o with fx := (j.tick, .dropped j.act false) :: o.fx }
  | .calSlot _ _ => { o.add (.heldOver [j.act]) with a := { o.a with overSlot := o.a.overSlot ++ [j.act] } }
  | mode =>
    let x := if mode = .running then x else x.add .resumed
    let x := ((x.jump j.target).fed j.act ((o.a.bufs.lookup j.target).getD [])).add (.took j.act)
    { x.add (.phi j.phi) with a := { x.a with mode := .running, phi := j.phi } }

/-- A cut or a hold of a lay. -/
def Dev.cutAt (d : Dev) (m : Memory) (n : Fin 8) (j : FastJump) (l : LaySt) : LaySt :=
  match j.hold with
  | some i => d.holdAt m n j i l
  | none => d.jumpAt m n j l

/-- Whether a cut or hold comes before another: by instant; at one instant a cut comes first. -/
def FastJump.before (a b : FastJump) : Bool :=
  a.tick < b.tick || (a.tick = b.tick && (a.phi < b.phi || (a.phi = b.phi && a.hold.isNone)))

/-- Insert a cut or a hold in time order. -/
def insertCut (a : FastJump) : List FastJump → List FastJump
  | [] => [a]
  | b :: r => if a.before b then a :: b :: r else b :: insertCut a r

/-- The slots of a sequencer a course of clen ticks further on. -/
def Arch.slotsOn (a : Arch) (clen : Nat) : Arch :=
  { a with req := a.req.map (fun x => (x.1, x.2 - clen)),
           mode := match a.mode with | .calSlot k left => .calSlot k (left - clen) | m => m }

/-- A lay finished: the entry of the course. -/
def LaySt.entry (l : LaySt) (d : Dev) (crs clen : Nat) (before : Arch) (acts : List Act) (cuts : List FastJump) : Entry :=
  { crs := crs, clen := clen, before := before, after := l.a.slotsOn clen, frags := l.frags.reverse,
    fx := l.fx.reverse, starts := l.starts, acts := acts, cuts := cuts, under := l.under, reads := l.reads
    binds := (List.range (l.cuts + 1)).map (fun k => l.binds.getD k d.time.crs) }

/-- Whether a redirect took effect at the joint of the lay so far. -/
def LaySt.redirected (l : LaySt) : Bool :=
  l.fx.any (fun x => match x.2 with | .took a => a.redirects | _ => false)

/-- The fast-jump cuts of a course, in order; one decided before the course is dropped by a redirect at its joint
(R138). -/
def Dev.cutAll (d : Dev) (m : Memory) (n : Fin 8) (c : Nat) (red : Bool) : List FastJump → LaySt → LaySt
  | [], l => l
  | j :: js, l =>
    if red && j.act.acc < c then d.cutAll m n c red js (l.add (.dropped j.act false))
    else d.cutAll m n c red js (d.cutAt m n j l)

/-- Channel n's sequencer lays course c from the state `a` with the actions that land there and the cuts in it; `was` is what it keeps of an
earlier lay of the course: what that read, and when its parts were laid. -/
def Dev.layKeeping (d : Dev) (m : Memory) (n : Fin 8) (a : Arch) (c : Nat) (acts : List Act) (cuts : List FastJump)
    (was : List StepRead × List Nat) : Entry :=
  let clen := d.courseLen c
  let l := d.landJoint m n c (LaySt.begin a was.1 was.2) acts
  let l := d.cutAll m n c l.redirected cuts l
  (d.layUpTo m n clen l).entry d c clen a acts cuts

/-- Channel n's sequencer lays course c, reading every step (R66). -/
def Dev.layCourse (d : Dev) (m : Memory) (n : Fin 8) (a : Arch) (c : Nat) (acts : List Act) (cuts : List FastJump) : Entry :=
  d.layKeeping m n a c acts cuts ([], [])

/-- The fast jump of a channel as a cut of course c, if it falls there. -/
def Chan.cutsIn (ch : Chan) (c : Nat) : List FastJump := (ch.jump.toList).filter (fun j => j.crs = c)

/-- The actions accepted for channel n that land at joint c and whose batch has closed before joint b (R33), but for those whose epoch has changed since (R505). -/
def Chan.landing (ch : Chan) (c b : Nat) : List Act := ch.acts.filter (fun a => a.land = c && a.acc < b && !a.stale)

/-- Courses laid anew one after another, `k` of them from course c. -/
def Dev.layRun (d : Dev) (m : Memory) (n : Fin 8) : Nat → Nat → Arch → List Entry
  | 0, _, _ => []
  | k + 1, c, a =>
    let e := d.layCourse m n a c (d.chs[n].landing c d.time.crs) (d.chs[n].cutsIn c)
    e :: d.layRun m n k (c + 1) e.after

/-- The ticks that a re-lay of these entries can take at most: 2 + n for each (R34). -/
def relayBound (es : List Entry) : Nat := (es.map (fun e => 2 + e.starts)).sum

/-- The time of a re-lay recorded: a free number of ticks within the bound (R34, log entry 1). -/
def Dev.recordRelay (d : Dev) (n : Nat) (bound : Nat) : Dev :=
  let p := d.free
  let t := p.1 % (bound + 1)
  let d := (p.2.countWrap CQ_RELAY.COUNT n).raise CQ_STAT.RELAY n
  d.set CQ_RELAY_MAX.TICKS n 0 (max (d.get CQ_RELAY_MAX.TICKS n) (min t 65535))

/-- Discard channel n's laid entries from course c upward and lay them again, course c first (R33); the new entries beside the
block. -/
def Dev.layAgain (d : Dev) (m : Memory) (n : Fin 8) (c : Nat) : Dev × List Entry :=
  let ch := d.chs[n]
  let keep := ch.laid.filter (fun e => e.crs < c)
  let redo := ch.laid.filter (fun e => c ≤ e.crs)
  match redo with
  | [] => (d, [])
  | e :: _ =>
    let start := match keep.getLast? with
      | some p => p.after
      | none => e.before
    let es := d.layRun m n redo.length e.crs start
    (d.onCh n (fun ch => { ch with laid := keep ++ es }), es)

/-- A re-lay from course c on, counted where any entry is laid again (R33, R34). -/
def Dev.relayFrom (d : Dev) (m : Memory) (n : Fin 8) (c : Nat) : Dev :=
  let p := d.layAgain m n c
  if p.2.isEmpty then d else p.1.recordRelay n (relayBound p.2)

/-- The part of a stretch before tick t. -/
def Frag.until (t : Nat) (f : Frag) : Frag := { f with n := min f.n (t - f.t0) }

/-- The part of a stretch from tick t on. -/
def Frag.since (t : Nat) (f : Frag) : Frag :=
  if t ≤ f.t0 then f else { f with t0 := t, n := f.n - (t - f.t0), ofs := f.ofs + (t - f.t0) }

/-- The playing course of channel n laid again with these cuts; what plays before tick t stays as laid, and what its lay has read up to a new
cut is not read anew (R38, R66, R136). -/
def Dev.relayPlaying (d : Dev) (m : Memory) (n : Fin 8) (cuts : List FastJump) (t : Nat) : Dev :=
  match d.chs[n].cur with
  | none => d
  | some e =>
    let x := d.layKeeping m n e.before e.crs e.acts cuts (e.reads, e.binds)
    let old := (e.frags.filter (fun f => f.t0 < t)).map (Frag.until t)
    let new := (x.frags.filter (fun f => t < f.t0 + f.n)).map (Frag.since t)
    let fx := e.fx.filter (fun y => y.1 < t) ++ x.fx.filter (fun y => t ≤ y.1)
    let under := e.under.filter (fun f => f.t0 < t) ++ x.under.filter (fun f => t ≤ f.t0)
    d.onCh n (fun c => { c with cur := some { x with frags := old ++ new, fx := fx, under := under } })

/-- Laid entries one after another from the state `a` on, none read anew (R66). -/
def Dev.layOver (d : Dev) (m : Memory) (n : Fin 8) : List Entry → Arch → List Entry
  | [], _ => []
  | x :: xs, a =>
    let e := d.layKeeping m n a x.crs (d.chs[n].landing x.crs d.time.crs) (d.chs[n].cutsIn x.crs) (x.reads, x.binds)
    e :: d.layOver m n xs e.after

/-- The laid entries of channel n follow a change of the sequencer's state that is no re-lay: what they have read stands (R66). -/
def Dev.followHold (d : Dev) (m : Memory) (n : Fin 8) : Dev :=
  match d.chs[n].cur with
  | some e => let es := d.layOver m n d.chs[n].laid e.after; d.onCh n (fun c => { c with laid := es })
  | none => d

/-- The laid entries of channel n laid again from the end of the playing course, uncounted. -/
def Dev.relayRest (d : Dev) (m : Memory) (n : Fin 8) : Dev :=
  match d.chs[n].cur, d.chs[n].laid with
  | some e, f :: _ =>
    let es := d.layRun m n d.chs[n].laid.length f.crs e.after
    d.onCh n (fun c => { c with laid := es })
  | _, _ => d

end Sys2Proof.Machine
end

