-- ==== Sys2Proof/Machine/Alarm.lean ====
section
/-!
DEFINITION. What several blocks do when something happens: a producer fires (R117, R125), an interrupt is sent (R514), a
fault is latched (R565), a mailbox slot completes (R496, R500), an action is dropped (R40, R43, R129), a channel is made
quiet (R43, R559), HALT asserts (R442, R561).
-/
namespace Sys2Proof.Machine
open Reg

/-! ### Where the device stands -/

/-- The system PLL is locked (R58). -/
def Dev.locked (d : Dev) : Bool := d.flag CLK_STAT.LOCK

/-- The device is in SLEEP, or on its way out of it (R531, R535). -/
def Dev.asleep (d : Dev) : Bool := d.get PWR_STAT.STATE = 2 || (d.get PWR_STAT.STATE = 3 && d.power.left = 2)

/-- The tick clock runs (R21, R22, R58). -/
def Dev.ticking (d : Dev) : Bool := d.locked && !d.asleep

/-- The device is a member of a joined system that is not its root (R419). -/
def Dev.isMember (d : Dev) : Bool := d.get RING_STAT.STATE = 3

/-- The device is the root (R419). -/
def Dev.isRoot (d : Dev) : Bool := d.get RING_STAT.STATE = 4

/-- The device is islanded (R419, R451). -/
def Dev.islanded (d : Dev) : Bool := d.get RING_STAT.STATE = 5 || d.get RING_STAT.STATE = 6

/-- The landing distance in force (R140). -/
def Dev.lmin (d : Dev) : Nat := d.get EVS_LMIN.LMIN

/-- The ports are powered: the device is not STANDALONE (R418). -/
def Dev.ringed (d : Dev) : Bool := d.get RING_STAT.STATE ≠ 0

/-- The place k ticks after the present tick. -/
def Dev.tickAfter (d : Dev) (k : Nat) : Nat × Nat :=
  if d.time.tick + k < d.time.clen then (d.time.crs, d.time.tick + k) else (d.time.crs + 1, d.time.tick + k - d.time.clen)

/-! ### Slots of event lines -/

/-- Producer slot k of line l (R148). -/
def Dev.srcSlot (d : Dev) (l k : Nat) : Nat :=
  if k % 2 = 0 then d.get EVL_SRCn_r.SLOT_LO l (k / 2) else d.get EVL_SRCn_r.SLOT_HI l (k / 2)

/-- Consumer slot k of line l (R148). -/
def Dev.dstSlot (d : Dev) (l k : Nat) : Nat :=
  if k % 2 = 0 then d.get EVL_DSTn_r.SLOT_LO l (k / 2) else d.get EVL_DSTn_r.SLOT_HI l (k / 2)

/-- The code a slot names while it is active; 0 while it is not (R120). -/
def slotCode (w : Nat) : Nat := if bitAt w 15 then w % 1024 else 0

/-- The lines with a producer slot that names a code. -/
def Dev.linesOf (d : Dev) (code : Nat) : List Nat :=
  (List.range 64).filter (fun l => (List.range 8).any (fun k => slotCode (d.srcSlot l k) = code))

/-- Producer i of channel n (R121). -/
def chProd (n i : Nat) : Nat := 0x100 + 0x20 * n + i

/-- A producer inside the device fires on the present tick (R125): each line that names it has a source for the next
tick. In SLEEP only FAULT and HALT_SEEN of these producers can fire (R130). -/
def Dev.fire (d : Dev) (code : Nat) : Dev :=
  if code = 0 || (d.asleep && code ≠ 7 && code ≠ 8) then d
  else
    let cap := d.tickAfter 1
    let new := (d.linesOf code).map (fun l =>
      (⟨l, d.time.crs, d.time.tick, 0, cap.1, cap.2, false, false⟩ : Src))
    { d with ev := { d.ev with srcs := d.ev.srcs ++ new } }

/-! ### Interrupts, faults, notices -/

/-- Whether the function may send an MSI-X vector now (R484, R514; masks: log entry 31). -/
def Dev.maySend (d : Dev) (v : Nat) : Bool :=
  d.port.up && d.port.bme && !d.port.d3 && d.port.msixOn && !d.port.allMask && !bitAt d.port.masks v

/-- An MSI-X vector is sent; while the function may not send it, it is held pending (R484, R514). -/
def Dev.vector (d : Dev) (v : Nat) : Dev :=
  if d.maySend v then d.emit (.msix v)
  else if d.port.held.contains v then d else { d with port := { d.port with held := d.port.held ++ [v] } }

/-- A cause of R565 arises: latched, vector 27 sent and the FAULT producer fired when it was not latched (R121, R514). -/
def Dev.fault (d : Dev) (b : Nat) : Dev :=
  if d.bit PORTER_FAULT.CAUSE 0 0 b then d else ((d.setBit PORTER_FAULT.CAUSE 0 0 b).vector 27).fire 7

/-- The condition of a cause of R565 begins or ends. -/
def Dev.live (d : Dev) (b : Nat) (on : Bool) : Dev :=
  { d with porter := { d.porter with faultLive := d.porter.faultLive.set b on } }

/-- Where notice entry e lies in the mailbox SRAM (R516). -/
def noticeAt (e : Nat) : Nat := 0x2400 + 0x10 * e

/-- The Clerk posts a notice (R516); one that finds the ring full is dropped and counted. -/
def Dev.notice (d : Dev) (code ch : Nat) (data : List Nat) : Dev :=
  let t := d.get MBX_NOTE_TAIL.TAIL
  if (t + 1) % 64 = d.get MBX_NOTE_HEAD.HEAD then d.count MBX_NOTE_TAIL.LOST
  else
    let w0 := code * 2 ^ 24 + ch * 2 ^ 16 + d.noteSeq % 2 ^ 16
    let bytes := wordsBytes ([w0, data.getD 0 0, data.getD 1 0, data.getD 2 0].map (· % 2 ^ 32))
    let d := { d with mbx := d.mbx.writeBytes (noticeAt t) bytes, noteSeq := d.noteSeq + 1 }
    (d.set MBX_NOTE_TAIL.TAIL 0 0 (t + 1)).vector 28

/-! ### Mailbox completions -/

/-- Where word w of a mailbox slot lies in the mailbox SRAM (R496). -/
def slotWordAt (m slot w : Nat) : Nat := 0x400 * m + 0x40 * slot + 4 * w

/-- Words of undefined content from word w on, k of them (R496, log entry 1). -/
def Dev.fillFree (d : Dev) (m slot w : Nat) : Nat → Dev
  | 0 => d
  | k + 1 =>
    let p := d.free
    { p.2 with mbx := p.2.mbx.setWord (slotWordAt m slot w) (p.1 % 2 ^ 32) }.fillFree m slot (w + 1) k

/-- The fields that still wait once no command begun before runs in their functions (R6): the ones that wait no more are
set to 1. A command of the function that the Clerk takes up while the field still waits is one of those that it waits for (log entry 88,
DESIGN CHOICE). -/
def Dev.settleOwn (d : Dev) : Dev :=
  let busy := fun (f : Nat × Nat) => d.cmds.any (fun c => c.own.contains f)
  let now := d.ownWait.filter (fun f => !busy f)
  let d : Dev := now.foldl (fun d f => d.set ⟨f.1, 1, 0, []⟩ f.2 0 1) d
  { d with ownWait := d.ownWait.filter busy }

/-- The response is written, the slot becomes DONE and its vector is sent (R495 to R497, R514); after a host-port reset the
response alone is written (R517). -/
def Dev.finish (d : Dev) (m slot status : Nat) (res : List Nat) : Dev :=
  let status := if status = 0 && m < 8 && d.flag MSN_CHn_STAT.SRAM_ONLY m then 9 else status
  let m1 := d.mbx.word (slotWordAt m slot 1)
  let m1 := m1 / 2 ^ 16 * 2 ^ 16 + status * 2 ^ 8 + res.length
  let mem := (d.mbx.setWord (slotWordAt m slot 1) m1).writeBytes (slotWordAt m slot 2) (wordsBytes (res.map (· % 2 ^ 32)))
  let d := { d with mbx := mem, cmds := d.cmds.filter (fun c => !(c.m = m && c.slot = slot)) }.fillFree m slot (2 + res.length) (14 - res.length)
  let d := d.settleOwn
  if d.bit MBX_BUSYm.BUSY m 0 slot then ((d.clrBit MBX_BUSYm.BUSY m 0 slot).setBit MBX_DONEm.DONE m 0 slot).vector m else d

/-- Whether a timed command waits in the slot. -/
def Dev.cmdOf (d : Dev) (m slot : Nat) : Option Cmd := d.cmds.find? (fun c => c.m = m && c.slot = slot)

/-- The first reason of R500 among two; a stale epoch (16) stands before all (R505). -/
def worse (a b : Nat) : Nat := if a = 16 || b = 16 then 16 else if a = 0 then b else if b = 0 then a else min a b

/-- Channel n's part of a timed command has ended, carried out (reason 0) or not (R500); with its last part the slot
completes: OK when every part was carried out, STALE_ROLE (reason 16), else BUSY with the first reason. A GROUP_ACT also
answers the channels where it took effect. -/
def Dev.part (d : Dev) (m slot n reason : Nat) : Dev :=
  match d.cmdOf m slot with
  | none => d
  | some c =>
    let c' := { c with left := c.left - 1, reason := worse c.reason reason, took := if reason = 0 then setBitAt c.took n else c.took }
    if 1 < c.left then { d with cmds := d.cmds.filter (fun x => !(x.m = m && x.slot = slot)) ++ [c'] }
    else
      let mask := if c.opcode = 0x59 then [c'.took] else []
      if c'.reason = 0 then d.finish m slot 0 mask
      else if c'.reason = 16 then d.finish m slot 4 []
      else d.finish m slot 1 (mask ++ [c'.reason])

/-- A march test on request ends with a result; the command that asked completes with it (R361, R363, R507), and its bank returns at the next
joint. -/
def Dev.marchEnd (d : Dev) (result : Nat) : Dev :=
  match d.sram.test with
  | none => d
  | some t =>
    let d := ({ d with sram := { d.sram with test := none, back := d.sram.back ++ [t] } }.set MEM_MT.RESULT 0 0 result).clear MEM_MT.BUSY
    match t.cmd with
    | some c => d.finish c.1 c.2 0 [result]
    | none => d

/-! ### Dropped actions -/

/-- The consumers of a dropped firing set their slots' overrun flags; each line counts once (R129). -/
def Dev.overrun (d : Dev) (slots : List (Nat × Nat)) : Dev :=
  let d := slots.foldl (fun d x => d.setBit EVL_OVRn.SLOT x.1 0 x.2) d
  ((slots.map (·.1)).eraseDups).foldl (fun d l => d.count EVL_OVRn.COUNT l) d

/-- Why an action did not take effect. -/
inductive Lost | superseded | cancelled | refused | discarded | stale
  deriving DecidableEq, Repr

/-- An action on channel n is dropped: its origin is told (R40, R43, R101, R109, R171, R276); R171 and R276 flag no action that the
change of its epoch discards (R505). -/
def Dev.dropAct (d : Dev) (n : Nat) (a : Act) (why : Lost) : Dev :=
  let d := d.overrun a.slots
  let d := d.raiseIf (why = .superseded && a.redirects) CQ_STAT.SUPERSEDED n
  match a.org with
  | .mbx m slot =>
    let d := match a.kind with
      | .slot _ => (d.raiseIf (why ≠ Lost.stale) PLB_STAT.REQ_DROP n).set PLB_STAT.STATE n 0 (if d.get PLB_STAT.STATE n = 1 then 0 else d.get PLB_STAT.STATE n)
      | .apply _ => (d.clear DDS_STAT.APPLY_PEND n).raiseIf (why ≠ Lost.stale) DDS_STAT.APPLY_LOST n
      | _ => d
    let slotAct := match a.kind with | .slot _ => true | _ => false
    d.part m slot n (match why with | .superseded => 1 | .cancelled => 1 | .refused => (if slotAct then 1 else 3) | .discarded => 2 | .stale => 16)
  | .reg =>
    match a.kind with
    | .slot _ => (d.raise PLB_STAT.REQ_DROP n).set PLB_STAT.STATE n 0 (if d.get PLB_STAT.STATE n = 1 then 0 else d.get PLB_STAT.STATE n)
    | .apply _ => ((d.clear DDS_STAT.APPLY_PEND n).raise DDS_STAT.APPLY_LOST n)
    | .snap => d
    | _ => (d.clear SEQ_STAT.CMD_PEND n).raiseIf (why ≠ .discarded) SEQ_STAT.CMD_REJ n
  | _ => d

/-! ### Quiet at once -/

/-- A requested slot or a CAL step's slot on channel n aborts (R281): it commits nothing. -/
def Dev.abortSlot (d : Dev) (n : Fin 8) : Dev :=
  match d.chs[n].slot with
  | none => d
  | some s => if s.committed || s.aborted then d
              else d.onCh n (fun c => { c with slot := some { s with aborted := true } })

/-- The actions that channel n still holds: queued, held, waiting, over a slot, in a fast jump. -/
def Chan.held (c : Chan) : List Act :=
  let a := match c.cur with
    | some e => e.after
    | none => c.base
  c.acts ++ a.waiting.map (·.1) ++ a.heldJ.map (·.2) ++ a.heldStart.toList ++ a.startDue.toList ++ a.overSlot
    ++ ((c.jump.filter (fun j => !j.done)).map (·.act)).toList

/-- The capture firings that the channel holds are discarded (R266, R43). -/
def Dev.dropCaps (d : Dev) (n : Fin 8) : Dev :=
  let held := d.chs[n].sieve.taps.filterMap (fun t => t.heldTrig)
  let d := held.foldl (fun d x => d.overrun x) d
  let d := d.onCh n (fun c => { c with sieve := { c.sieve with taps := c.sieve.taps.map (fun t => { t with heldTrig := none }) } })
  [0, 1, 2, 3].foldl (fun d k => d.clear CAPk_CTRL.PEND n k) d

/-- The sequencer of channel n stops at once: its laid entries, queued actions and held events are discarded (R43, R559),
its slot aborts (R281), and what the visible loop state shows is kept (R634) (log entry 81, DEDUCED). -/
def Dev.stopNow (d : Dev) (n : Fin 8) : Dev :=
  let c := d.chs[n]
  let d := c.held.eraseDups.foldl (fun d a => d.dropAct n a .discarded) d
  let d := (d.abortSlot n).dropCaps n
  let step := d.get SEQ_STAT.STEP n
  let arch : Arch := { mode := .stopped, step := step }
  let d := d.onCh n (fun c => { c with
    vis := 0, cur := none, laid := [], base := arch, acts := [], now := none, jump := none, miss := false, starved := false, dry := none, gap := none,
    hv := { c.hv with rxClosed := false } })
  let d := ((d.set SEQ_STAT.STATE n 0 0).clear SEQ_PEND.START n).clear SEQ_PEND.JMP n
  (d.set FJ_LASTn.PHASE n 0 0).clear MSN_CHn_STAT.STARVED n

/-- Every channel stops at once. -/
def Dev.stopAll (d : Dev) : Dev := d.eachCh (fun n d => d.stopNow n)

/-! ### Ring cells -/

/-- The k low octets of a number, most significant first. -/
def octets (k v : Nat) : List Nat := (List.range k).map (fun i => v / 256 ^ (k - 1 - i) % 256)

/-- One octet into the CRC-8 with x^8 + x^2 + x + 1 (R409). -/
def crc8Byte (c : BitVec 8) (b : Nat) : BitVec 8 :=
  (List.range 8).foldl (fun c _ => if c.msb then (c <<< 1) ^^^ 7#8 else c <<< 1) (c ^^^ BitVec.ofNat 8 b)

/-- The CRC-8 of octets, from 0xFF (R409). -/
def crc8 (l : List Nat) : Nat := (l.foldl crc8Byte 0xFF#8).toNat

/-- The ring tick count (R410). -/
def Dev.tcount (d : Dev) : Nat := unsigned 64 ((d.time.abs : Int) + d.ring.tbase)

/-- A cell leaves a port: class, payload, the link byte of its lattice position, CRC, inverted when the cell came in bad (R409,
R411, R415). -/
def Dev.sendCell (d : Dev) (port cls : Nat) (payload : List Nat) (bad : Bool) : Dev :=
  let ws := cls :: payload ++ [d.ring.frame.getD port 0 / 256 ^ (15 - d.tcount / 10 % 16) % 256]
  d.emit (.cell port (ws ++ [if bad then 255 - crc8 ws else crc8 ws]))

/-- A CONTROL payload goes out on both lanes (R437, R438). -/
def Dev.publish (d : Dev) (kind : Nat) (words : List Nat) : Dev :=
  { d with ring := { d.ring with ctl := d.ring.ctl ++ [(0, kind, words), (1, kind, words)] } }

/-- The HALT symbols go out of both ports of a device on the ring (R442). -/
def Dev.haltOut (d : Dev) : Dev := if d.ringed then (d.emit (.haltSym 0)).emit (.haltSym 1) else d

/-- A source of R561 asserts HALT: latched; where HALT was not asserted, the sequencers stop (R559), HALT_SEEN fires
(R121) and the HALT symbols are sent (R442). -/
def Dev.assertHalt (d : Dev) (src : Nat) : Dev :=
  let d := d.setBit PORTER_HALT.SRC 0 0 src
  if d.porter.halt then d
  else ({ d with porter := { d.porter with halt := true } }.stopAll.haltOut).fire 8

/-- A wake cause arrives (R533, R534): source 1 the WAKE consumer, 2 the host, 3 the I2C port. One that arrives during an
entry acts when the entry ends. -/
def Dev.wake (d : Dev) (src : Nat) : Dev :=
  if d.power.entry.isSome then { d with power := { d.power with held := some (0, src) } }
  else if d.get PWR_STAT.STATE = 1 || d.get PWR_STAT.STATE = 2 then
    let d := { d with power := { d.power with left := d.get PWR_STAT.STATE } }
    (d.set PWR_STAT.STATE 0 0 3).set PWR_STAT.WAKE_SRC 0 0 src
  else d


end Sys2Proof.Machine
end

