-- ==== Sys2Proof/Machine/Wave.lean ====
section
/-!
DEFINITION. The arithmetic of the samples: the carrier (R152 to R156), the grid index (R162), the gain stage (R174, R196),
the clamp (R199), the slew limiter (R204), the predistorter (R207).
-/
namespace Sys2Proof.Machine
open Reg

/-! ### The carrier -/

/-- sin(x) in units of 2^-64 for x in units of 2^-64, 0 ≤ x ≤ π/2: twelve terms of the power series. -/
def sineSeries (x : Nat) : Nat :=
  let step := fun (p : Nat × Int) (i : Nat) =>
    (p.1 * x / 2 ^ 64 * x / 2 ^ 64 / ((2 * i + 2) * (2 * i + 3)), if i % 2 = 0 then p.2 + p.1 else p.2 - p.1)
  ((List.range 12).foldl step (x, 0)).2.toNat

/-- The table's first quarter: round(32,767 × sin(π/2 × k/1024)) (R152). -/
def sineQuarter (k : Nat) : Nat := (32767 * sineSeries (28976077832308491369 * k / 1024) * 2 + 2 ^ 64) / 2 ^ 65

/-- The sine table t[i], i = 0 to 4,095 (R152). -/
def sineTable (i : Nat) : Int :=
  let j : Nat := (i : Nat) % 1024
  if i % 4096 < 1024 then ((sineQuarter j : Nat) : Int)
  else if i % 4096 < 2048 then ((sineQuarter (1024 - j) : Nat) : Int)
  else if i % 4096 < 3072 then -((sineQuarter j : Nat) : Int)
  else -((sineQuarter (1024 - j) : Nat) : Int)

/-- The carrier value y for accumulator and phase offset (R152). -/
def carrier (acc pofs : Nat) : Int :=
  let theta : Nat := (acc + pofs) % 2 ^ 48
  let i := theta / 2 ^ 36
  let fr : Nat := theta / 2 ^ 20 % 2 ^ 16
  let dd := sineTable ((i + 1) % 4096) - sineTable i
  sineTable i + asr (dd * (fr : Int) + 2 ^ 15) 16

/-- The carrier scaled by a track's amplitude (R154). -/
def scaleAmp (y : Int) (amp : Nat) : Int := asr (y * amp + 2 ^ 14) 15

/-- The product of a segment sample and a carrier (R156). -/
def product (v c : Int) : Int := asr (v * c + 2 ^ 14) 15

/-- The grid index of a sample (R162). -/
def gridIndex (len c e t s : Nat) : Nat :=
  ((16 * ((len : Int) * ((c : Int) - (e : Int)) + t) + s) % (2 ^ 48 : Nat)).toNat

/-- The engine after one LV sample: the natural advance, or the operation that acts there (R149, R160). -/
def Dds.sample (x : Dds) (op : Option PhAct) (grid : Nat) : Dds :=
  let nat := (x.acc + x.freq) % 2 ^ 48
  match op with
  | none => { x with acc := nat }
  | some o =>
    if o.op = 1 then { x with acc := nat, freq := o.freq % 2 ^ 48 }
    else if o.op = 2 then { x with acc := (o.freq * grid + o.phase) % 2 ^ 48, freq := o.freq % 2 ^ 48 }
    else if o.op = 3 then { x with acc := o.phase % 2 ^ 48 }
    else if o.op = 4 then { x with acc := (nat + o.phase) % 2 ^ 48 }
    else if o.op = 5 then { x with acc := 0, freq := o.freq % 2 ^ 48 }
    else { x with acc := nat }

/-! ### The gain stage -/

/-- Gain and offset with saturation to 16 bits; the second component says whether the sample saturated (R174, R196). -/
def gainStage (x : Int) (gain : Nat) (ofs : Int) : Int × Bool :=
  let code := asr (x * gain + 2 ^ 14) 15 + ofs
  if 32767 < code then (32767, true) else if code < -32768 then (-32768, true) else (code, false)

/-! ### The clamp -/

/-- The rail range in codes of 3.2 mV from rails in 0.1 V, 5 V inside each, rounded towards 0 (R199). -/
def railRange (vhp vhn : Int) : Int × Int :=
  let lo := (vhn + 50) * 1000
  let hi := (vhp - 50) * 1000
  (Int.tdiv lo 32, Int.tdiv hi 32)

/-- The clamp: `HV_CLAMP`, then the strap range, then the rail range (R199) (log entry 85, DESIGN CHOICE). -/
def clampHv (lo hi : Int) (lim105 : Bool) (vhp vhn : Int) (x : Int) : Int :=
  let a := clampI lo hi x
  let b := if lim105 then a else clampI (-18750) 18750 a
  let r := railRange vhp vhn
  clampI r.1 r.2 b

/-! ### The slew limiter -/

/-- The limiter: D from the clamped sample and the previous D at HV sample index h of the course (R204). -/
def slew (on : Bool) (rate step : Nat) (h : Nat) (dPrev c : Int) : Int :=
  if !on then c
  else if h % 2 ^ rate = 0 then dPrev + clampI (-(step : Int)) step (c - dPrev)
  else dPrev

/-! ### The predistorter -/

/-- The predistorted code of the current and seven previous commanded values with 24 Q2.29 coefficients; the second
component says whether it saturated (R207). The exact sum is formed over 2^74 and rounded, halves away from zero. -/
def predistort (coef : Nat → Int) (u : List Int) : Int × Bool :=
  let term := fun (k : Nat) =>
    let x := u.getD k 0
    coef (3 * k) * x * 2 ^ 30 + coef (3 * k + 1) * x * (x.natAbs : Int) * 2 ^ 15 + coef (3 * k + 2) * x * x * x
  let z := ((List.range 8).map term).sum
  let code := divRound z (2 ^ 59)
  if 32767 < code then (32767, true) else if code < -32768 then (-32768, true) else (code, false)

end Sys2Proof.Machine
end

