-- ==== Sys2Proof/Machine/Flags.lean ====
section
/-!
DEFINITION. The flags and states that several causes decide together: the sequencer state (R108), the HV output state
(R216, R217), what holds a channel quiet (R560, R572), the current limit in force (R229, R231).
-/
namespace Sys2Proof.Machine
open Reg

/-! ### Sequencer state -/

/-- A start of the channel is accepted and its joint has not come (R108). -/
def Chan.armed (c : Chan) : Bool := c.acts.any (fun a => a.kind = .start)

/-- `SEQ_STAT.STATE` shows what the sequencer does (R108) (log entry 39, DEDUCED). -/
def Dev.showState (d : Dev) (n : Fin 8) : Dev :=
  let c := d.chs[n]
  d.set SEQ_STAT.STATE n 0 (if c.vis = 2 then 2 else if c.armed then 1 else c.vis)

/-- The sequencer is STOPPED or in FAULT (R17, R163). -/
def Dev.seqIdle (d : Dev) (n : Nat) : Bool := d.get SEQ_STAT.STATE n = 0 || d.get SEQ_STAT.STATE n = 3

/-- All eight sequencers are stopped (R17, R424). -/
def Dev.allIdle (d : Dev) : Bool := allCh.all (fun n => d.seqIdle n)

/-- Every sequencer of the device is STOPPED (R424, R452). -/
def Dev.allStopped (d : Dev) : Bool := allCh.all (fun n => d.get SEQ_STAT.STATE n = 0)

/-! ### HV output -/

/-- The HV die of a channel: 0 for ch0 to ch3, 1 for ch4 to ch7. -/
def dieOf (n : Nat) : Nat := n / 4

/-- The HV supply of the channel's output is removed: HV_EN low, HV_OFF, a lost Porter lane, thermal shutdown (R220,
R560, R566, R567). -/
def Dev.hvRemoved (d : Dev) (n : Fin 8) : Bool :=
  !d.porter.hvEn || d.porter.hvOff || d.chs[n].hv.laneDown || d.chs[n].hv.tempDown || d.porter.tsdLog

/-- The rails of a die have not stayed inside their fault windows for 1 ms: every output of both dies is OFF (R202, R565). -/
def Dev.railFault (d : Dev) (n : Nat) : Bool := let _ := n; d.porter.railBad.any id

/-- The channel holds a latch of R233. -/
def Dev.hvLatched (d : Dev) (n : Fin 8) : Bool :=
  d.flag HV_STAT.SC_LATCH n || d.chs[n].hv.trip = 2 || d.chs[n].hv.totTrip = 2

/-- A cause of rank 3 of R217 is in force. -/
def Dev.hvForced (d : Dev) (n : Fin 8) : Bool :=
  d.chs[n].hv.ramp || d.porter.clr || d.porter.halt || d.bit PORTER_STATUS.QUIET 0 0 n || d.chs[n].hv.linkBad
  || d.porter.tsdLog || !d.locked || d.chs[n].hv.trip = 1 || d.chs[n].hv.totTrip = 1

/-- A cause of rank 1 of R217 is in force. -/
def Dev.hvOffCause (d : Dev) (n : Fin 8) : Bool :=
  !d.chs[n].hv.en || d.railFault n || d.asleep || (d.hvRemoved n && !d.chs[n].hv.ramp)

/-- `HV_STAT.STATE` (R216, R217). An output that has not come through ENABLING since it was OFF or LATCHED stays OFF. -/
def Dev.hvState (d : Dev) (n : Fin 8) : Nat :=
  let h := d.chs[n].hv
  if d.hvOffCause n then 0
  else if d.hvLatched n then 6
  else if h.stage = .off then 0
  else if d.hvForced n then 3
  else if d.chs[n].slot.isSome then 4
  else if h.rxClosed then 5
  else if h.stage = .enabling then 1
  else 2

/-- The channel's HV output may enter ENABLING at the joint (R218, R219, R220). -/
def Dev.hvMayEnable (d : Dev) (n : Fin 8) : Bool :=
  let h := d.chs[n].hv
  h.stage = .off && h.en && !h.ramp && !d.hvRemoved n && d.porter.hvReady && !d.railFault n && d.locked && !d.asleep
  && !d.hvLatched n

/-- The drivers of the channel are disabled: the output is OFF until it enables again (R202, R219, R220, R232). A ramp-down in
progress goes on: it alone ends in OFF at its 50 µs (R217, R220). -/
def Dev.hvDisable (d : Dev) (n : Fin 8) : Dev :=
  (d.onCh n (fun c => { c with hv := { c.hv with stage := .off, rxClosed := false } })).abortSlot n

/-! ### The forced code (R220, R221) -/

/-- The coefficients of the active bank (R207, R208). -/
def Dev.coef (d : Dev) (n : Nat) (k : Nat) : Int := d.getS HV_PDb_w.COEF n (24 * d.get HV_STAT.PD_BANK n + k)

/-- The effective clamp of the channel (R199). -/
def Dev.clampOf (d : Dev) (n : Nat) (x : Int) : Int :=
  clampHv (d.getS HV_CLAMP.LO n) (d.getS HV_CLAMP.HI n) (d.flag HV_STAT.HVLIM n) (d.get HV_RAIL.VHP n) (d.getS HV_RAIL.VHN n) x

/-- The forced code: that for 0 V in an HV removal's ramp-down (R220), else the image of the quiet code (R221). Both causes are of rank
3 (R217); where they act together, that of the ramp-down stands (log entry 95, DESIGN CHOICE). -/
def Dev.forcedCode (d : Dev) (n : Fin 8) : Int :=
  if d.chs[n].hv.ramp then (predistort (d.coef n) [0, 0, 0, 0, 0, 0, 0, 0]).1
  else
    let q := d.clampOf n (d.getS QUIET_CODE_HV.CODE n)
    (predistort (d.coef n) [q, q, q, q, q, q, q, q]).1

/-- Where the output is FORCED, the forced code stands at the HV DAC at once (R220, R221). -/
def Dev.forceNow (d : Dev) (n : Fin 8) : Dev :=
  if d.hvState n = 3 then d.onCh n (fun c => { c with hv := { c.hv with code := d.forcedCode n } }) else d

/-- A channel's HV removal (R220, R281): its ramp-down begins with the 0 V code forced, the receive switch opens, its slot aborts.
Where its supply was removed already (`gone`), no ramp-down begins: one under way goes on, and one that is over stays over (R217). -/
def Dev.rampDown (d : Dev) (n : Fin 8) (gone : Bool) : Dev :=
  ((d.onCh n (fun c => { c with hv := { c.hv with ramp := c.hv.ramp || !gone, rxClosed := false } })).abortSlot n).forceNow n

/-- The ramp-down of a channel's HV removal is over: it is OFF (R220). -/
def Dev.rampEnd (d : Dev) (n : Fin 8) : Dev :=
  if d.chs[n].hv.ramp then (d.onCh n (fun c => { c with hv := { c.hv with ramp := false } })).hvDisable n else d

/-! ### What stands at the LV and marker balls (R179, R183, R190) -/

/-- The boot flow has loaded the quiet codes and levels since POR_N: a Clerk restart does not undo it (R182, R190, R548). -/
def Dev.quietLoaded (d : Dev) : Bool := d.boot.loaded

/-- The hold driver drives the LV balls of a channel (R179). -/
def Dev.lvHold (d : Dev) (n : Fin 8) : Bool := !d.chs[n].lv.en || !d.locked || d.asleep || d.chs[n].slot.isSome

/-- The code of the hold driver: 0 until the boot flow has loaded it, then `QUIET_CODE_LV` (R179, R182). -/
def Dev.holdCode (d : Dev) (n : Nat) : Int := if d.quietLoaded then d.getS QUIET_CODE_LV.CODE n else 0

/-- The code that the LV balls of a channel carry: the hold driver's or the DAC's (R179). -/
def Dev.lvBall (d : Dev) (n : Fin 8) : Int := if d.lvHold n then d.holdCode n else d.chs[n].lv.code

/-- The level that marker line j of a channel carries: low in SLEEP and until the boot flow has run, to the end of step 8 (log entry 99,
DEDUCED); its quiet level while it is disabled or the PLL is unlocked; else as it plays (R183, R190). -/
def Dev.mkBall (d : Dev) (n : Fin 8) (j : Nat) : Bool :=
  if d.asleep || !d.boot.served then false
  else if !d.chs[n].lv.mkEn.testBit j || !d.locked then d.bit MK_QUIET.LEVEL n 0 j
  else bitAt d.chs[n].lv.mkr j

/-- While the tick clock stands still the outputs follow their quiet settings at once: the DAC code, the marker levels, the forced
code (R58, R182, R183, R190, R221, R223); in SLEEP the marker lines are low (log entry 76, DEDUCED). -/
def Dev.quietFollow (d : Dev) (n : Fin 8) : Dev :=
  if d.ticking then d
  else
    let q := d.getS QUIET_CODE_LV.CODE n
    let mk := if d.asleep then 0 else d.get MK_QUIET.LEVEL n
    (d.onCh n (fun c => { c with lv := { c.lv with code := q, mkr := mk, mkHold := mk } })).forceNow n

/-! ### Current limit in force -/

/-- Healthy output segments (R235). -/
def Dev.segsLeft (d : Dev) (n : Nat) : Nat := ((List.range 14).filter (fun s => d.bit HV_SEG.ACTIVE n 0 s)).length

/-- The limit: the lower of the `ILIM` in force and 20 units for each healthy segment (R229). -/
def Dev.ilimOf (d : Dev) (n : Fin 8) : Nat := min d.chs[n].hv.ilim (20 * d.segsLeft n)

/-- The short-circuit time in force for a limit in 10 mA and rails in 0.1 V (R231). -/
def Dev.scEff (d : Dev) (n ilim : Nat) : Nat :=
  let v := max (d.get HV_RAIL.VHP n) (d.getS HV_RAIL.VHN n).natAbs
  if ilim * v = 0 then d.get HV_ILIM.SC_TIME n else min (d.get HV_ILIM.SC_TIME n) (5000000 / (ilim * v))

/-- The limits in force follow their settings; during a fold-back a new `ILIM` waits for its end (R229, R231). -/
def Dev.ilimRefresh (d : Dev) (n : Fin 8) : Dev :=
  let d := if d.flag HV_STAT.FOLD n then d else d.onCh n (fun c => { c with hv := { c.hv with ilim := d.get HV_ILIM.ILIM n } })
  let i := d.ilimOf n
  (d.set HV_ILIM_EFF.ILIM_EFF n 0 i).set HV_ILIM_EFF.SC_EFF n 0 (d.scEff n i)

/-! ### Power (R236) -/

/-- The channel's estimate in mW. -/
def Dev.chPower (d : Dev) (n : Fin 8) : Nat := d.chs[n].hv.pAvg / (10 * 2 ^ 20)

/-- The total estimate in mW. -/
def Dev.totPower (d : Dev) : Nat := 3600 + (allCh.map (fun k => d.chs[k].hv.pAvg)).sum / (10 * 2 ^ 20)

/-- The estimates show: the channel's, and the total on every channel; what an estimate that does not fit its field shows as is open
(log entry 1). -/
def Dev.powerShow (d : Dev) (n : Fin 8) : Dev :=
  let c : Nat × Dev := if d.chPower n < 2 ^ 12 then (d.chPower n, d) else d.free
  let d := c.2.set HV_PWR.CH n 0 c.1
  let r : Nat × Dev := if d.totPower < 2 ^ 15 then (d.totPower, d) else d.free
  r.2.eachCh (fun k d => d.set HV_PWR.TOT k 0 r.1)

/-! ### What holds a channel quiet -/

/-- A Porter cause holds the channel quiet (R560, R572). -/
def Dev.safe (d : Dev) (n : Fin 8) : Bool :=
  d.porter.clr || d.porter.halt || d.bit PORTER_STATUS.QUIET 0 0 n || d.porter.tsdLog

/-- The channel takes no course-aligned action: it is halted or cleared (R43). -/
def Dev.deaf (d : Dev) (n : Fin 8) : Bool := d.safe n || !d.locked

end Sys2Proof.Machine
end

