-- ==== Sys2Proof/Machine/Play.lean ====
section
/-!
DEFINITION. One tick of playback (R14, R19): the effects laid for the tick, then its 16 LV samples, 2 HV samples and
marker levels on every channel (chapters 02, 04, 05, 06), from the playing entry of each course queue.
-/
namespace Sys2Proof.Machine
open Reg

/-! ### Effects of the tick -/

/-- The actions on channel n that a STOP cancels: starts accepted before the course (R101). -/
def Chan.cancelled (c : Chan) (crs : Nat) : List Act := c.acts.filter (fun a => a.kind = .start && crs < a.land && a.acc < crs)

/-- A fast jump that is dropped, or held over a slot, has no cut to come (R42, R138). -/
def Dev.jumpGone (d : Dev) (n : Fin 8) (a : Act) : Dev := d.onCh n (fun c => { c with jump := c.jump.filter (fun j => j.act ≠ a) })

/-- One effect of the playing entry on the channel's visible state. A register command held over a slot is pending no more: its landing joint has
come (R42, R109). -/
def Dev.applyFx (d : Dev) (n : Fin 8) (f : Fx) : Dev :=
  match f with
  | .runStart =>
    let d := d.onCh n (fun c => { c with vis := 2, now := none, lv := { c.lv with last := .quiet }, hv := { c.hv with last := .quiet } })
    ((d.clear SEQ_FAULT.CAUSE n).clear SEQ_FAULT.STEP n).showState n
  | .runStop _ _ _ => (d.onCh n (fun c => { c with vis := 0 })).showState n
  | .runEnd _ _ =>
    ((d.onCh n (fun c => { c with vis := 0 })).raise SEQ_STAT.RUN_END n).fire (chProd n 1) |>.showState n
  | .fault step cause _ _ =>
    let d := d.onCh n (fun c => { c with vis := 3 })
    let d := ((d.set SEQ_FAULT.CAUSE n 0 cause).set SEQ_FAULT.STEP n 0 step).raise SEQ_STAT.STEP_FAULT n
    ((d.set FJ_LASTn.PHASE n 0 0).fire (chProd n 2)).showState n
  | .stepEv => d.fire (chProd n 0)
  | .fallback => (d.raise SEQ_STAT.FALLBACK n).fire (chProd n 4)
  | .took a =>
    let d := d.onCh n (fun c => { c with jump := c.jump.map (fun j => if j.act = a then { j with done := true } else j) })
    match a.org, a.kind with
    | .mbx m slot, .slot _ => let _ := (m, slot); d
    | .mbx m slot, _ => d.part m slot n 0
    | .reg, .slot _ => d
    | .reg, .apply _ => d
    | .reg, .snap => d
    | .reg, _ => if a.land = d.time.crs then d.clear SEQ_STAT.CMD_PEND n else d
    | _, _ => d
  | .dropped a sup => (d.dropAct n a (if sup then .superseded else .refused)).jumpGone n a
  | .heldOver acts => ((if acts.any (fun a => a.org = .reg) then d.clear SEQ_STAT.CMD_PEND n else d).raise CQ_STAT.HELD n |> acts.foldl (fun d a => d.jumpGone n a))
  | .cancelStarts =>
    let gone := d.chs[n].cancelled d.time.crs
    let d := gone.foldl (fun d a => d.dropAct n a .cancelled) d
    (d.onCh n (fun c => { c with acts := c.acts.filter (fun a => !gone.contains a) })).showState n
  | .calDefer => d.raise PLB_STAT.CAL_DEFER n
  | .slotBegin kind req a =>
    let skip := d.hvState n = 0 || d.hvState n = 6
    let s : Slot := {
      kind := kind, req := req, act := a, left := slotTicks kind, hvSkip := skip,
      pdSkip := kind = 0 && decide (20000 ≤ d.totPower), drift := false,
      aborted := false, committed := false, newSet := [], parts := [],
      tLog0 := d.getS PLB_TEMP.T_LOG n, tHv0 := d.getS PLB_TEMP.T_HV n }
    ((d.onCh n (fun c => { c with slot := some s, hv := { c.hv with rxClosed := false } })).set PLB_STAT.STATE n 0 2).set PLB_STAT.KIND n 0 kind
  | .phi v => d.set FJ_LASTn.PHASE n 0 v
  | .resumed => (d.onCh n (fun c => { c with vis := 2 })).showState n
  | .pend jmps start => (d.set SEQ_PEND.JMP n 0 jmps).set SEQ_PEND.START n 0 (if start then 1 else 0)

/-- The effects of the playing entry at tick t. -/
def Dev.applyTick (d : Dev) (n : Fin 8) (t : Nat) : Dev :=
  match d.chs[n].cur with
  | none => d
  | some e => (e.fx.filter (fun x => x.1 = t)).foldl (fun d x => d.applyFx n x.2) d

/-! ### Samples -/

/-- The stretch of the playing entry that covers tick t. -/
def Chan.fragAt (c : Chan) (t : Nat) : Option Frag :=
  match c.cur with
  | none => none
  | some e => e.frags.find? (fun f => f.t0 ≤ t && t < f.t0 + f.n)

/-- What tick t plays: the stretch in force before its boundary, the old step's stretch in it before a cut, the stretch after,
and whether a pass begins in it or a run has ended in it. -/
structure Beat where
  prev : Option Frag
  under : Option Frag
  cur : Option Frag
  begins : Bool
  t : Nat
  deriving DecidableEq, Repr

/-- The stretch and the position, in LV periods from the start of its pass, at sample s. -/
def Beat.at (b : Beat) (lag : Frag → Nat) (s : Nat) : Option (Frag × Nat) :=
  let new := match b.cur with
    | none => none
    | some f => let p := 16 * (f.ofs + b.t - f.t0) + s
                if lag f ≤ p then some (f, p - lag f) else none
  match new with
  | some x => some x
  | none =>
    if !b.begins then none
    else
      let before := b.prev.map (fun f => (f, 16 * (f.ofs + 1) + s - lag f))
      match b.under with
      | none => before
      | some u => let p := 16 * (u.ofs + b.t - u.t0) + s
                  if lag u ≤ p then some (u, p - lag u) else before

/-- The LV step boundary lies phi LV periods after its tick (R135). -/
def lvLag (f : Frag) : Nat := f.phi

/-- The HV step boundary lies on the first HV sample at or after it (R135). -/
def hvLag (f : Frag) : Nat := (f.phi + 7) / 8 * 8

/-- The accumulators at the first k LV samples of a tick, with the engine after them (R149, R160, R162). -/
def Dev.ddsRun (d : Dev) (n : Fin 8) (b : Beat) (k : Nat) : List Nat × Dds :=
  let op := if b.begins then b.cur.bind Frag.op else none
  let phi := (b.cur.map (·.phi)).getD 0
  let old := b.under.bind (fun u => if u.t0 = b.t && u.ofs = 0 then u.op else none)
  let oldPhi := (b.under.map (·.phi)).getD 0
  let e := d.getPair DDS_EPOCH_LO.EPOCH_LO DDS_EPOCH_HI.EPOCH_HI n
  let one := fun (p : List Nat × Dds) (s : Nat) =>
    let x := p.2.sample (if s = phi && b.begins then op else if s = oldPhi && s < phi then old else none) (gridIndex (d.get CRS_LEN.LEN) d.time.crs e b.t s)
    (p.1 ++ [x.acc], x)
  (List.range k).foldl one ([], d.chs[n].dds)

/-- The value a track plays at a position, with `none` for the quiet code (R71, R72, R156); the outer `none` is content
that the channel lacks (R331). -/
def Dev.trackValue (d : Dev) (m : Memory) (n : Fin 8) (f : Frag) (b : Nat) (tr : TPlay) (pos : Nat) (last : Last)
    (carr : Unit → Int) : Option (Option Int) :=
  match tr with
  | .quiet => some none
  | .hold => some (match last with | .quiet => none | .code v => some v)
  | .dds => some (some (carr ()))
  | .seg ns => (d.nsSample m n f.laid f.feed (f.span ns b) (ns + 2 * pos)).map some
  | .segDds ns => (d.nsSample m n f.laid f.feed (f.span ns b) (ns + 2 * pos)).map (fun v => some (product v (carr ())))

/-- What a sample leaves as the track's last (R72). -/
def lastOf (x : Option Int) : Last :=
  match x with
  | none => .quiet
  | some v => .code v

/-- The LV samples of a tick in progress. -/
structure LvRun where
  last : Last
  code : Int
  sats : Nat
  lacks : Bool
  deriving DecidableEq, Repr

/-- One LV sample (R174, R176) (log entry 80, DEDUCED). -/
def Dev.lvSample (d : Dev) (m : Memory) (n : Fin 8) (b : Beat) (accs : List Nat) (r : LvRun) (s : Nat) : LvRun :=
  let q := d.getS QUIET_CODE_LV.CODE n
  let carr := fun () => scaleAmp (carrier (accs.getD s 0) d.chs[n].dds.pofs) (d.get DDS_AMP.AMP_LV n)
  match b.at lvLag s with
  | none => { r with code := q }
  | some (f, pos) =>
    match d.trackValue m n f 32 f.lv pos r.last carr with
    | none => { r with code := q, lacks := true }
    | some none => { r with last := .quiet, code := q }
    | some (some x) =>
      let g := gainStage x (d.get LV_GAIN.GAIN n) (d.getS LV_OFS.OFS n)
      { r with last := lastOf (some x), code := g.1, sats := r.sats + (if g.2 then 1 else 0) }

/-- The HV track sample at LV sample index s (0 or 8): the value before the clamp and whether stage 2 saturated, and
whether content lacks (R196, R197). -/
def Dev.hvTrack (d : Dev) (m : Memory) (n : Fin 8) (b : Beat) (accs : List Nat) (last : Last) (s : Nat) :
    (Last × Int × Bool) × Bool :=
  let q := d.getS QUIET_CODE_HV.CODE n
  let carr := fun () => scaleAmp (carrier (accs.getD s 0) d.chs[n].dds.pofs) (d.get DDS_AMP.AMP_HV n)
  match b.at hvLag s with
  | none => ((last, q, false), false)
  | some (f, pos) =>
    match d.trackValue m n f 4 f.hv (pos / 8) last carr with
    | none => ((last, q, false), true)
    | some none => ((.quiet, q, false), false)
    | some (some x) =>
      let g := gainStage x (d.get HV_GAIN.GAIN n) (d.getS HV_OFS.OFS n)
      ((lastOf (some x), g.1, g.2), false)

/-- The limit becomes active; after at least 8 samples without, limiting begins (R230). -/
def Dev.limitOnset (d : Dev) (n : Fin 8) : Dev :=
  let h := d.chs[n].hv
  let d := (d.onCh n (fun c => { c with hv := { c.hv with limAct := true, limClear := 0 } })).raise HV_STAT.ILIM_ACT n
  if h.limAct || h.limClear < 8 then d else ((d.raise HV_STAT.ILIM n).count HV_ILIMCNT.ONSETS n).fire (chProd n 12)

/-- A short is declared, `gapMs` at least after the one before it: the integrator is cleared, and the limit folds back or the channel
latches (R232). `SC_RUN` has 2 bits and stays at 3 beyond 3 shorts; the run stays over SC_CLR and a pause until the next short (log
entry 94, DESIGN CHOICE). -/
def Dev.shortDeclared (d : Dev) (n : Fin 8) (gapMs : Nat) : Dev :=
  if d.flag HV_STAT.FOLD n then d
  else
    let h := d.chs[n].hv
    let at_ := d.time.abs
    let k := if gapMs ≤ 1000 && at_ ≤ h.shortAt + 250000000 then h.shorts + 1 else 1
    let tries := d.get HV_ILIM.TRIES n
    let d := d.onCh n (fun c => { c with hv := { c.hv with shorts := k, shortAt := at_, integ := 0 } })
    let d := ((d.raise HV_STAT.SHORT n).count HV_ILIMCNT.SHORTS n).count STK_CHn_WEAR2.SHORTS n
    let d := (d.set HV_STAT.SC_RUN n 0 (min k 3)).fire (chProd n 13)
    if tries ≠ 0 && tries ≤ k then ((d.raise HV_STAT.SC_LATCH n).hvDisable n).fault 2 else d.raise HV_STAT.FOLD n

/-- One HV sample of the current limit (R230, R231): whether the limit is active is open while it was active within the last 8
samples, for the load decides it; the short-circuit integrator counts, but for a fold-back (R232), and a short is declared at its
threshold. A limit that becomes active after 8 samples without is `ILIM_ONSET` (log entry 66). -/
def Dev.limitSample (d : Dev) (n : Fin 8) : Dev :=
  let h := d.chs[n].hv
  if !h.limAct && 8 ≤ h.limClear && h.integ = 0 then d
  else
    let p : Bool × Dev := if h.stage ≠ .off && (h.limAct || h.limClear < 8) then d.freeBit else (false, d)
    let d := p.2
    let k := if d.flag HV_STAT.FOLD n then 0 else if p.1 then h.integ + 1 else h.integ - 1
    let d := (d.onCh n (fun c => { c with hv := { c.hv with
      limAct := p.1, limClear := if p.1 then 0 else min 8 (h.limClear + 1), integ := k } })).set HV_STAT.ILIM_ACT n 0 (if p.1 then 1 else 0)
    if 0 < k && 500 * d.get HV_ILIM_EFF.SC_EFF n ≤ k then d.shortDeclared n 0 else d

/-- One HV sample from the value before the clamp: clamp, limiter, predistorter, forced-code selector (R199 to R207). -/
def Dev.hvSample (d : Dev) (n : Fin 8) (h : Nat) (x : Int) (sat : Bool) : Dev :=
  let st := d.chs[n].hv
  let c := d.clampOf n x
  let dd := slew st.sl (d.get HV_SLEW.RATE n) (d.get HV_SLEW.STEP n) h st.d c
  let p := if st.pd then predistort (d.coef n) (dd :: st.hist) else (dd, false)
  let code := if d.hvState n = 3 then d.forcedCode n else p.1
  let d := d.raiseIf (sat || c ≠ x) HV_STAT.CLIP n
  let d := if sat || c ≠ x then d.count HV_CLIPCNT.COUNT n else d
  let d := (d.raiseIf (dd ≠ c) HV_STAT.SLEW n).raiseIf p.2 HV_STAT.PD_SAT n
  (d.onCh n (fun k => { k with hv := { k.hv with d := dd, prev := k.hv.code, hist := (dd :: st.hist).take 7, code := code } })).limitSample n

/-! ### The power estimator (R236) -/

/-- The load power of one sample in 0.1 mW, from voltages in 0.1 V and a Sense B code of 2.5 A / 32,768 (R236, R245). -/
def loadPower (vhp vhn v i : Int) : Nat := (max (vhp - v) 0 * max i 0 + max (v - vhn) 0 * max (-i) 0).toNat * 2500 / 32768

/-- The estimate after one more sample: the difference enters by 1/2^20. -/
def estimateStep (avg p : Nat) : Nat := avg + p - avg / 2 ^ 20

/-- A Sense B sample enters the estimate of its channel (R236). In a slot Plumb keeps the estimate below 2.5 W: a sample that would lift
it there draws no power (R274). -/
def Dev.loadSample (d : Dev) (n : Fin 8) (v i : Int) : Dev :=
  let c := d.chs[n]
  let a := estimateStep c.hv.pAvg (loadPower (d.get HV_RAIL.VHP n) (d.getS HV_RAIL.VHN n) v i)
  let a := if c.slot.isSome && 2500 * (10 * 2 ^ 20) ≤ a then estimateStep c.hv.pAvg 0 else a
  d.onCh n (fun c => { c with hv := { c.hv with pAvg := a } })

/-- A cause of rank 3 or above begins on the channel: its slot aborts, and the receive switch opens (R228, R281). -/
def Dev.forceCh (d : Dev) (n : Fin 8) : Dev :=
  (d.onCh n (fun c => { c with hv := { c.hv with rxClosed := false } })).abortSlot n

/-- What the Porter does when a channel's estimate has gone from `old` to a new value (R237). -/
def Dev.powerActs (d : Dev) (n : Fin 8) (old : Nat) : Dev :=
  let mw := d.chPower n
  let tot := d.totPower
  let d := d.raiseIf (old < 3150 && 3150 ≤ mw) HV_STAT.PWR_WARN n
  let d := if 3500 ≤ mw && d.chs[n].hv.trip = 0 then
      (((d.raise HV_STAT.PWR_TRIP n).onCh n (fun c => { c with hv := { c.hv with trip := 1 } })).forceCh n).fault 3
    else d
  if 24000 ≤ tot && allCh.all (fun k => d.chs[k].hv.totTrip = 0) then
    (d.eachCh (fun k d => ((d.raise HV_STAT.TOT_TRIP k).onCh k (fun c => { c with
      hv := { c.hv with totTrip := 1, totClr := false } })).forceCh k)).fault 3
  else d

/-- One sample of the estimator, on the even ticks since lock (R236, R245, R246). The output voltage, between the rails, and the current
are the load's, each a free value (log entry 67); an output that is off stands at 0 V, with a residual current below 5 mA. -/
def Dev.powerTick (d : Dev) (n : Fin 8) : Dev :=
  let h := d.chs[n].hv
  let off : Bool := h.stage = .off
  let vhp : Int := d.get HV_RAIL.VHP n
  let vhn := d.getS HV_RAIL.VHN n
  if (d.time.abs - d.time.lock) % 2 = 1 || (off && vhp = 0 && vhn = 0 && h.pAvg < 2 ^ 20) then d
  else
    let a := d.free
    let b := a.2.free
    let v := if off then 0 else vhn + (a.1 % ((vhp - vhn).toNat + 1) : Nat)
    let i := if off then ((b.1 % 131 : Nat) : Int) - 65 else ((b.1 % 65536 : Nat) : Int) - 32768
    let e := b.2.loadSample n v i
    if e.chPower n = d.chPower n && e.totPower = d.totPower then e else (e.powerShow n).powerActs n (d.chPower n)

/-! ### Markers -/

/-- The level and the position of line j in a stretch, k ticks into its pass (R73, R74); `none` is content that the channel lacks. A
HOLD repeats the level at the end of the step before it, which a mute in between does not change; in the first step of a run it repeats
the level kept last (log entry 91, DESIGN CHOICE). -/
def Dev.mkLevel (d : Dev) (m : Memory) (n : Fin 8) (f : Option Frag) (k j : Nat) : Option (Bool × Nat) :=
  let pos0 := fun p => if k = 0 then p else 0
  match (match f with | some f => f.mkr | none => .quiet 0) with
  | .quiet p => some (d.bit MK_QUIET.LEVEL n 0 j, pos0 p)
  | .hold => some (bitAt d.chs[n].lv.mkHold j, 0)
  | .levels lv p => some (bitAt lv j, pos0 p)
  | .pattern w p => some (bitAt w (8 * j + k % 8), p)
  | .seg ns => (f.bind (fun f => d.nsByte m n f.laid f.feed (f.span ns 4) (ns + 4 * k + j))).map (fun b => (bitAt b.toNat 7, b.toNat % 128))

/-- One change of line j at a position of the tick, kept 2 ns from the line's last change (R188) (log entry 84, DEDUCED). -/
def Dev.mkChange (d : Dev) (n : Fin 8) (j : Nat) (level : Bool) (pos : Nat) : Dev :=
  let l := d.chs[n].lv
  if bitAt l.mkr j = level then d
  else
    let prev := l.mkAt.getD j (-1000)
    let place := if (pos : Int) - prev < 64 then prev + 64 else (pos : Int)
    let d := d.raiseIf (place ≠ (pos : Int)) LV_STAT.MK_SQZ n
    d.onCh n (fun c => { c with lv := { c.lv with
      mkr := if level then setBitAt c.lv.mkr j else clrBitAt c.lv.mkr j, mkAt := c.lv.mkAt.set j place } })

/-- The levels that the lines have now are those that a later HOLD repeats (R73). -/
def Dev.mkKeep (d : Dev) (n : Fin 8) : Dev := d.onCh n (fun c => { c with lv := { c.lv with mkHold := c.lv.mkr } })

/-- The marker lines follow a stretch in tick t, up to the position lim of the tick; what the jump phase pushes past the end of the
tick is kept for the next (R135). -/
def Dev.mkPlay (m : Memory) (n : Fin 8) (t lim : Nat) (f : Option Frag) (p : Dev × Bool) : Dev × Bool :=
  let k := match f with | some f => f.ofs + t - f.t0 | none => 1
  let phi := match f with | some f => f.phi | none => 0
  let one := fun (p : Dev × Bool) (j : Nat) =>
    match p.1.mkLevel m n f k j with
    | none => (p.1.mkChange n j (p.1.bit MK_QUIET.LEVEL n 0 j) 0, true)
    | some (lv, pos) =>
      let at_ := pos + 8 * phi
      if lim ≤ at_ then p
      else if at_ < 128 then (p.1.mkChange n j lv at_, p.2)
      else (p.1.onCh n (fun c => { c with lv := { c.lv with mkNext := c.lv.mkNext ++ [(j, if lv then 1 else 0, at_ - 128)] } }), p.2)
  let p := [0, 1, 2, 3].foldl one p
  if f.all (fun f => f.mkr = .hold) then p else (p.1.mkKeep n, p.2)

/-- The marker lines over a tick: the changes the jump phase pushed into it, an old step's up to a cut, then its own (R135, R188);
`none` drives the quiet levels. -/
def Dev.mkTick (d : Dev) (m : Memory) (n : Fin 8) (b : Option Beat) (t : Nat) : Dev × Bool :=
  let d := d.onCh n (fun c => { c with lv := { c.lv with mkAt := c.lv.mkAt.map (· - 128) } })
  let cur := b.bind (·.cur)
  let under := if b.any (·.begins) then b.bind (·.under) else none
  let starts := match cur with
    | none => 0
    | some f => if b.any (·.begins) then 8 * f.phi else if f.what = .run then 128 else 0
  let carried := d.chs[n].lv.mkNext.filter (fun x => x.2.2 < starts)
  let d := carried.foldl (fun d x => d.mkChange n x.1 (x.2.1 = 1) x.2.2) d
  let d := if carried.isEmpty then d else d.mkKeep n
  let d := d.onCh n (fun c => { c with lv := { c.lv with mkNext := [] } })
  let p := match under with
    | some u => Dev.mkPlay m n t starts (some u) (d, false)
    | none => (d, false)
  Dev.mkPlay m n t 256 cur p

/-! ### The tick -/

/-- The channel plays its quiet code whatever its course holds: a lay miss, starvation, a slot (R30, R183, R331). -/
def Chan.muted (c : Chan) : Bool := c.miss || c.starved || c.slot.isSome

/-- The beat of tick t on a channel. -/
def Chan.beat (c : Chan) (t : Nat) : Beat :=
  let f := c.fragAt t
  let u := c.cur.bind (fun e => e.under.find? (fun f => f.t0 ≤ t && t < f.t0 + f.n))
  { prev := c.now, under := u, cur := f, t := t
    begins := match f with | some f => f.t0 = t && f.ofs = 0 && (f.what = .run || f.phi ≠ 0) | none => false }

/-- The stretch whose content a beat plays. -/
def Beat.frag (b : Beat) : Option Frag := match b.cur with | some f => some f | none => b.prev

/-- Starvation begins: the channel goes quiet, and the episode is reported once with the course it falls in (R331, R332). -/
def Dev.starveNow (d : Dev) (n : Fin 8) : Dev :=
  let d := d.onCh n (fun c => { c with starved := true })
  if d.flag MSN_CHn_STAT.STARVED n then d
  else (((d.raise MSN_CHn_STAT.STARVED n).raise MSN_CHn_STAT.STARVE n).countWrap MSN_STARVEn.COURSES n).fire (chProd n 6)

/-- The rings that feed a stretch have run dry (R333), unless they hold nothing yet; `back` is the tick at which they do again. -/
def Dev.runDry (d : Dev) (n : Fin 8) (f : Option Frag) (back : Option Nat) : Dev :=
  match f with
  | none => d
  | some f => if d.ringHolds n f.feed then d.onCh n (fun c => { c with dry := some (f.feed.ring, back) }) else d

/-- A delay line k steps further on its way to its target (R186, R214). -/
def moveLine (k v t : Nat) : Nat := if v + k ≤ t then v + k else if t + k ≤ v then v - k else t

/-- A delay line that has reached its target is no longer busy (R186, R214). -/
def Dev.linesMoved (d : Dev) (n : Fin 8) : Dev :=
  let c := d.chs[n]
  let d := if c.lv.dly = c.lv.target then d.clear LV_STAT.DLY_BUSY n else d
  if c.hv.dly = c.hv.target then d.clear HV_STAT.DLY_BUSY n else d

/-- Channel n plays tick t of the course (log entry 86, DEDUCED). -/
def Dev.playCh (d : Dev) (m : Memory) (n : Fin 8) : Dev :=
  let t := d.time.tick
  let d := d.applyTick n t
  let c := d.chs[n]
  let b := c.beat t
  let dds := d.ddsRun n b 16
  let mute := c.muted
  let lv := (List.range 16).foldl (d.lvSample m n b dds.1) ⟨c.lv.last, c.lv.code, 0, false⟩
  let h0 := d.hvTrack m n b dds.1 c.hv.last 0
  let h8 := d.hvTrack m n b dds.1 h0.1.1 8
  let qh := d.getS QUIET_CODE_HV.CODE n
  let mk := d.mkTick m n (if mute then none else some b) t
  let lacks := !mute && (lv.lacks || h0.2 || h8.2 || mk.2)
  let quiet := mute || lacks
  let holds := b.cur.any (fun f => f.mkr = .hold)
  let d := if quiet then (fun (e : Dev) => if holds then e else e.mkKeep n) (d.mkTick m n none t).1 else mk.1
  let d := if lv.sats = 0 then d else (d.countBy lv.sats LV_SATCNT.COUNT n).raise LV_STAT.SAT n
  let d := if lacks then (d.runDry n b.frag none).starveNow n else d
  let d := d.onCh n (fun c => { c with
    dds := { dds.2 with pofs := c.dds.pofs },
    lv := { c.lv with last := lv.last, code := if quiet then d.getS QUIET_CODE_LV.CODE n else lv.code, dly := moveLine 16 c.lv.dly c.lv.target },
    hv := { c.hv with last := h8.1.1, dly := moveLine 2 c.hv.dly c.hv.target },
    now := b.cur.map (fun f => { f with ofs := f.ofs + t - f.t0, t0 := 0, n := 1 }) })
  let d := d.hvSample n (2 * t) (if quiet then qh else h0.1.2.1) (!quiet && h0.1.2.2)
  ((d.hvSample n (2 * t + 1) (if quiet then qh else h8.1.2.1) (!quiet && h8.1.2.2)).linesMoved n).powerTick n

/-- Every channel plays the present tick. -/
def Dev.playTick (d : Dev) (m : Memory) : Dev := d.eachCh (fun n d => d.playCh m n)


end Sys2Proof.Machine
end

