-- ==== Sys2Proof/Machine/Sieve.lean ====
section
/-!
DEFINITION. Sense paths and the Sieve (chapter 07): the taps' arithmetic (R252, R254, R260), timestamps (R259), settling
(R257, R258), comparators (R262), capture (R264 to R270), starts, stops and pauses (R250, R251, R271), and the commands
of this family.
-/
namespace Sys2Proof.Machine
open Reg

/-! ### Instants -/

/-- The course and the offset in 1/256 tick of an instant since lock (R259); before the oldest known stretch, its start. -/
def Dev.locate (d : Dev) (u : Int) : Nat × Nat :=
  match d.time.grid.find? (fun g => ((g.2.1 * 256 : Nat) : Int) ≤ u) with
  | some g =>
    let x := (u - (g.2.1 * 256 : Nat)).toNat
    (g.1 + x / (256 * g.2.2), x % (256 * g.2.2))
  | none => match d.time.grid.getLast? with
    | some g => (g.1, 0)
    | none => (0, 0)

/-- The instant, in 1/256 tick since lock, of a place on the course grid. -/
def Dev.instant (d : Dev) (crs tick fine : Nat) : Int :=
  match d.time.grid.find? (fun g => g.1 ≤ crs) with
  | some g => ((g.2.1 + (crs - g.1) * g.2.2 + tick) * 256 + fine : Nat)
  | none => 0

/-! ### Tap settings -/

/-- Tap k of a channel. -/
def Chan.tap (c : Chan) (k : Nat) : Tap := c.sieve.taps.getD k {}

/-- Tap k changed. -/
def Dev.onTap (d : Dev) (n : Fin 8) (k : Nat) (f : Tap → Tap) : Dev :=
  d.onCh n (fun c => { c with sieve := { c.sieve with taps := c.sieve.taps.set k (f (c.tap k)) } })

/-- The tap takes Sense B (R248). -/
def Dev.tapB (d : Dev) (n k : Nat) : Bool := d.flag TAPk_CFG.SRC n k

/-- The input period in 1/256 tick: 2 ns or 8 ns (R259). -/
def Dev.tapPeriod (d : Dev) (n k : Nat) : Nat := if d.tapB n k then 512 else 128

/-- The unsettled count U after a settling cause (R257). -/
def Dev.unsetCount (d : Dev) (n k : Nat) : Nat :=
  let p := if d.tapB n k then 32 else 256
  let dec := max 1 (d.get TAPk_CFG.DEC n k)
  (p + dec - 1) / dec + (if 1 < dec then d.get TAPk_CFG.CIC_N n k else 0) + d.get TAPk_SETTLE.SETTLE n k

/-- The sections of a tap (R248). -/
def Dev.tapSections (d : Dev) (n k : Nat) : List Nat :=
  (List.range (d.get TAPk_CFG.SOS_NUM n k)).map (· + d.get TAPk_CFG.SOS_BASE n k)

/-- Coefficient c of section s, signed Q2.29. -/
def Dev.sosCoef (d : Dev) (n s c : Nat) : Int := d.getS SOSs_c.COEF n (s * 5 + c)

/-- The sum of two fractions. -/
def fracAdd (a b : Int × Int) : Int × Int := (a.1 * b.2 + b.1 * a.2, a.2 * b.2)

/-- The denominators of R260 of a section, in units of 2^−29. -/
def Dev.delayDens (d : Dev) (n s : Nat) : Int × Int :=
  let c := d.sosCoef n s
  (c 0 + c 1 + c 2, 2 ^ 29 + c 3 + c 4)

/-- The group delay g of the tap's sections as a fraction; `none` where a denominator's magnitude lies below `lim` units (R260). -/
def Dev.delaySum (d : Dev) (lim n k : Nat) : Option (Int × Int) :=
  let one := fun (acc : Option (Int × Int)) (s : Nat) =>
    let c := d.sosCoef n s
    let db := (d.delayDens n s).1
    let da := (d.delayDens n s).2
    match acc with
    | none => none
    | some g => if db.natAbs < lim || da.natAbs < lim then none
                else some (fracAdd (fracAdd g (c 1 + 2 * c 2, db)) (-(c 3 + 2 * c 4), da))
  (d.tapSections n k).foldl one (some (0, 1))

/-- g as the engine computes it: a denominator below 2^−20 counts as 0 (R619). -/
def Dev.groupDelay (d : Dev) (n k : Nat) : Option (Int × Int) := d.delaySum 512 n k

/-- τ of the tap in 1/256 tick as a fraction with a positive denominator, and whether g could not be computed (R259,
R260). -/
def Dev.tapTau (d : Dev) (n k : Nat) : (Int × Nat) × Bool :=
  let dec := d.get TAPk_CFG.DEC n k
  let cic : Int := if 1 < dec then (d.get TAPk_CFG.CIC_N n k * (dec - 1) * (d.tapPeriod n k / 2) : Nat) else 0
  if d.flag TAPk_GD.SRC_USER n k then ((cic + d.getS TAPk_GD.USER n k, 1), false)
  else match d.groupDelay n k with
    | none => ((cic, 1), true)
    | some g =>
      let p := g.1 * (dec * d.tapPeriod n k : Nat)
      let s : Int × Nat := if 0 < g.2 then (p, g.2.natAbs) else (-p, g.2.natAbs)
      ((cic * s.2 + s.1, s.2), false)

/-! ### Arithmetic of a tap -/

/-- A 56-bit register. -/
def wrap56 (x : Int) : Int := signed 56 (unsigned 56 x)

/-- The least s with m^n at most 2^s: ceil(n log2 m) (R252). -/
def cicShift (n m : Nat) : Nat := ((List.range 40).find? (fun s => m ^ n ≤ 2 ^ s)).getD 40

/-- One input into the n integrators (R252). -/
def cicIntegrate (n : Nat) (x : Int) (l : List Int) : List Int :=
  let a := wrap56 (l.getD 0 0 + x)
  let b := if 2 ≤ n then wrap56 (l.getD 1 0 + a) else l.getD 1 0
  let c := if 3 ≤ n then wrap56 (l.getD 2 0 + b) else l.getD 2 0
  [a, b, c]

/-- The combs on a sum: the value and the comb registers (R252). -/
def cicComb (n : Nat) (v : Int) (l : List Int) : Int × List Int :=
  let one := fun (p : Int × List Int) (q : Nat) =>
    if q < n then (wrap56 (p.1 - l.getD q 0), p.2.set q p.1) else p
  [0, 1, 2].foldl one (v, l)

/-- The CIC stage over the inputs of one output: Q0.23 value, integrators and combs (R252). -/
def cicStage (n m : Nat) (xs : List Int) (integ comb : List Int) : Int × List Int × List Int :=
  if m ≤ 1 then (xs.getLast?.getD 0 * 2 ^ 8, integ, comb)
  else
    let i := xs.foldl (fun l x => cicIntegrate n x l) integ
    let c := cicComb n (i.getD (n - 1) 0) comb
    let s := cicShift n m
    let y := if s ≤ 8 then c.1 * 2 ^ (8 - s) else asr (c.1 + 2 ^ (s - 9)) (s - 8)
    (y, i, c.2)

/-- One section: output, delay lines, saturated or not (R254). -/
def sosStep (c : Nat → Int) (x : Int) (z : List Int) : Int × List Int × Bool :=
  let acc := c 0 * x + c 1 * z.getD 0 0 + c 2 * z.getD 1 0 - c 3 * z.getD 2 0 - c 4 * z.getD 3 0
  let a := clampI (-(2 ^ 55 - 1)) (2 ^ 55 - 1) acc
  let y := asr (a + 2 ^ 28) 29
  let o := clampI (-(2 ^ 23 - 1)) (2 ^ 23 - 1) y
  (o, [x, z.getD 0 0, o, z.getD 2 0], a ≠ acc || o ≠ y)

/-! ### Capture queue and records -/

/-- Bytes of outputs the capture queue holds (R270); record headers take none of its 8 KiB (DEDUCED, log entry 8). -/
def Tap.held (t : Tap) : Nat := (t.queue.filter (fun b => b.1 = .samples)).length * 64 + t.part.length

/-- The header of a record (R268). -/
def Dev.recHeader (d : Dev) (n k : Nat) (r : Rec) (reason : Nat) : List (BitVec 8) :=
  let at_ := d.locate r.ts0
  let b := fun (x : Bool) (i : Nat) => if x then 2 ^ i else 0
  let h0 := b r.cont 31 + b r.sat 30 + k * 2 ^ 28 + b (d.flag CAPk_CTRL.FMT n k) 27 + reason * 2 ^ 24 + r.seq % 2 ^ 16
  let h8 := b (d.tapB n k) 31 + d.get TAPk_CFG.CIC_N n k * 2 ^ 29 + d.get TAPk_CFG.DEC n k * 2 ^ 16
  wordsBytes [h0, r.count, at_.1 % 2 ^ 32, at_.1 / 2 ^ 32 % 2 ^ 32, at_.2, min r.unset 65535, r.trig.getD 0xFFFFFF,
    min r.lost (2 ^ 32 - 1), h8, d.get TAPk_CFG.DEC n k * d.tapPeriod n k, 0, 0, 0, 0, 0, 0]

/-- Bytes taken into the partial block of the queue, whole blocks moved into the queue. -/
def Tap.take (t : Tap) (bytes : List (BitVec 8)) : Tap :=
  let all := t.part ++ bytes
  if 64 ≤ all.length then { t with queue := t.queue ++ [(.samples, all.take 64)], part := all.drop 64 }
  else { t with part := all }

/-- Where the open header block still stands in the queue, it takes its final form (log entry 8). -/
def markHeader (h : List (BitVec 8)) : List (BlockKind × List (BitVec 8)) → List (BlockKind × List (BitVec 8))
  | [] => []
  | (.header, _) :: r => (.closed, h) :: r
  | x :: r => x :: markHeader h r

/-- The oldest whole block of the capture queue written at `WR`, which advances; a full ring takes none (R269). A block that
overwrites the header of the record in progress leaves no place for its final form. -/
def blockWrite (n : Fin 8) (k : Nat) (p : Dev × Memory) : Dev × Memory :=
  let (d, m) := p
  let size := d.get CAPk_SIZE.SIZE n k
  let wr := d.get CAPk_WR.WR n k
  if size = 0 || (wr + 64) % size = d.get CAPk_RD.RD n k then p
  else match (d.chs[n].tap k).queue with
    | [] => p
    | (kind, b) :: rest =>
      let base := d.getPair CAPk_BASE_LO.BASE_LO CAPk_BASE_HI.BASE_HI n k
      let place := fun (r : Rec) =>
        if kind = .header then { r with hdrAt := some wr } else if r.hdrAt = some wr then { r with hdrAt := none } else r
      let d := d.onTap n k (fun t => { t with queue := rest, record := t.record.map place })
      ((d.ringRequest n (base + wr)).set CAPk_WR.WR n k ((wr + 64) % size), m.writeBytes (dramAt n (base + wr)) b)

/-- Blocks leave the queue until it has room for `need` bytes or the ring is full: while the ring is not full no output is lost
(R270). -/
def drain (n : Fin 8) (k need : Nat) : Nat → Dev × Memory → Dev × Memory
  | 0, p => p
  | f + 1, p => if (p.1.chs[n].tap k).held + need ≤ 8192 then p else drain n k need f (blockWrite n k p)

/-- The record in progress ends: its header takes its final form in the queue, or in the ring when it is already there, and
its last block is padded with zeros (R267, R268, log entry 8); a header that the ring has wrapped over takes none. -/
def endRecord (n : Fin 8) (k reason : Nat) (p : Dev × Memory) : Dev × Memory :=
  let (d, m) := p
  match (d.chs[n].tap k).record with
  | none => p
  | some r =>
    let h := d.recHeader n k r reason
    let base := d.getPair CAPk_BASE_LO.BASE_LO CAPk_BASE_HI.BASE_HI n k
    let (d, m) := match r.hdrAt with
      | some o => (d.ringRequest n (base + o), m.writeBytes (dramAt n (base + o)) h)
      | none => (d, m)
    let d := d.onTap n k (fun t =>
      let t := { t with queue := if r.hdrAt.isNone then markHeader h t.queue else t.queue }
      let t := if t.part.isEmpty then t else t.take (List.replicate (64 - t.part.length) 0)
      { t with record := none })
    (d, m)

/-- A record begins with an output (R268). -/
def beginRecord (n : Fin 8) (k : Nat) (o : TapOut) (left : Nat) (trig : Option Nat) (d : Dev) : Dev :=
  let t := d.chs[n].tap k
  let r : Rec := {
    cont := (match t.lastJ with | some j => j + 1 = o.j | none => false) && t.lost = 0, sat := false, seq := t.seq, count := 0,
    ts0 := o.ts, unset := 0, unsetRun := true, trig := trig, lost := t.lost, left := left, lastTs := o.ts, hdrAt := none }
  d.onTap n k (fun t => { t with
    record := some r, seq := (t.seq + 1) % 2 ^ 16, lost := 0,
    queue := t.queue ++ [(.header, List.replicate 64 0)] })

/-- The bytes of a sample: S24, or S16 rounded to Q0.15; where the rounded value does not fit 16 bits the spec states none
(log entry 1). -/
def Dev.sampleBytes (d : Dev) (n k : Nat) (y : Int) : List (BitVec 8) × Dev :=
  if d.flag CAPk_CTRL.FMT n k then (leBytes 4 (unsigned 24 y * 256), d)
  else
    let v := asr (y + 128) 8
    if v ≤ 32767 then (leBytes 2 (unsigned 16 v), d)
    else let p := d.free; (leBytes 2 (p.1 % 65536), p.2)

/-- An output goes into the record in progress; with its last output the record ends with reason LEN (R264, R265). -/
def addOutput (n : Fin 8) (k : Nat) (o : TapOut) (p : Dev × Memory) : Dev × Memory :=
  match (p.1.chs[n].tap k).record with
  | none => p
  | some r =>
    let sb := p.1.sampleBytes n k o.y
    let run := r.unsetRun && o.unset
    let r' := { r with
      sat := r.sat || o.sat, count := r.count + 1, left := r.left - 1, lastTs := o.ts, unsetRun := run,
      unset := if run then r.unset + 1 else r.unset }
    let d := sb.2.onTap n k (fun t => { t.take sb.1 with record := some r', lastJ := some o.j })
    if r.left ≤ 1 then endRecord n k 0 (d, p.2) else (d, p.2)

/-- An output that the queue cannot take is lost (R270). -/
def loseOutput (n : Fin 8) (k : Nat) (p : Dev × Memory) : Dev × Memory :=
  let p := endRecord n k 3 p
  let d := p.1.count CAPk_LOSS.COUNT n k
  (d.onTap n k (fun t => { t with losing := true, lost := t.lost + 1, trig := none, lastJ := none }), p.2)

/-- Outputs of a record: `LEN` × 64 (R264). -/
def Dev.capLen (d : Dev) (n k : Nat) : Nat := d.get CAPk_LEN.LEN n k * 64

/-- Bytes of a sample in the format set. -/
def Dev.capBytes (d : Dev) (n k : Nat) : Nat := if d.flag CAPk_CTRL.FMT n k then 4 else 2

/-- Capture takes nothing now: no ring, the mode OFF, or IDLE (R264, R269, R271). -/
def Dev.capOff (d : Dev) (n : Fin 8) (k : Nat) : Bool :=
  d.get CAPk_SIZE.SIZE n k = 0 || d.get CAPk_CTRL.MODE n k = 0 || d.chs[n].sieve.capHold

/-- CAPk is busy (R266): a tap settles while a settling cause has unsettled outputs to come. -/
def Dev.capBusy (d : Dev) (n : Fin 8) (k : Nat) : Bool :=
  let t := d.chs[n].tap k
  t.record.isSome || t.trig.isSome || d.get CAPk_CTRL.MODE n k ≠ 2 || !d.flag SIEVE_STAT.RUNNING n || d.flag SIEVE_STAT.PAUSED n
  || d.chs[n].sieve.capHold || (!d.flag SIEVE_CTRL.SETTLE_MODE n && !t.runs.isEmpty)

/-- A firing held on CAPk acts once the consumer is not busy: its trigger sample is the next output delivered (R266). -/
def Dev.capFree (d : Dev) (n : Fin 8) (k : Nat) : Dev :=
  let t := d.chs[n].tap k
  if t.heldTrig.isNone || d.capBusy n k then d
  else
    let now := match t.hist.head? with | some o => o.ts | none => -(2 ^ 64)
    (d.onTap n k (fun t => { t with heldTrig := none, trig := some now })).clear CAPk_CTRL.PEND n k

/-- A firing reaches CAPk with its trigger instant (R265, R266); one that lands at the joint at which the engine stops or pauses
is dropped (R271). The second component says whether the firing was dropped. -/
def Dev.capTrigger (d : Dev) (n : Fin 8) (k : Nat) (at_ : Int) (slots : List (Nat × Nat)) : Dev × Bool :=
  let d := d.capFree n k
  if d.chs[n].sieve.ended.any (fun a => a = d.time.abs && at_ = ((a * 256 : Nat) : Int)) then (d.overrun slots, true)
  else if !d.capBusy n k then (d.onTap n k (fun t => { t with trig := some at_ }), false)
  else if d.flag CAPk_CTRL.POL n k && (d.chs[n].tap k).heldTrig.isNone then
    ((d.onTap n k (fun t => { t with heldTrig := some slots })).raise CAPk_CTRL.PEND n k, false)
  else (d.overrun slots, true)

/-- A firing on another line merges with one that CAPk took on the same tick: a held one takes its slots (R119, R129), an accepted one
the trigger instant of the best source (R146, R265). -/
def Dev.capMerge (d : Dev) (n : Fin 8) (k : Nat) (at_ : Int) (slots : List (Nat × Nat)) : Dev :=
  d.onTap n k (fun t => match t.heldTrig with
    | some l => { t with heldTrig := some (l ++ slots) }
    | none => { t with trig := t.trig.map (fun _ => at_) })

/-- A joint shift landed after one output's timestamp and not after another's (R267). -/
def Tap.crosses (t : Tap) (before after : Int) : Bool :=
  t.shifts.any (fun x => before < ((x * 256 : Nat) : Int) && ((x * 256 : Nat) : Int) ≤ after)

/-- The queue is given room for one sample, or for 64 bytes while outputs are being lost; whether it has it (R270). -/
def Dev.roomFor (n : Fin 8) (k : Nat) (p : Dev × Memory) : Bool × Dev × Memory :=
  let t := p.1.chs[n].tap k
  let need := if t.losing then 64 else p.1.capBytes n k
  let p := drain n k need t.queue.length p
  ((p.1.chs[n].tap k).held + need ≤ 8192, p.1.onTap n k (fun t => { t with losing := false }), p.2)

/-- An output of a record in progress: after a shift it begins the next one, which in TRIG carries the rest (R267); without room it is
lost (R270). -/
def putOutput (n : Fin 8) (k : Nat) (o : TapOut) (p : Dev × Memory) : Dev × Memory :=
  match (p.1.chs[n].tap k).record with
  | none => loseOutput n k p
  | some r =>
    let cut := (p.1.chs[n].tap k).crosses r.lastTs o.ts
    let left := if p.1.get CAPk_CTRL.MODE n k = 1 then p.1.capLen n k else r.left
    let q := Dev.roomFor n k (if cut then endRecord n k 1 p else p)
    if !q.1 then loseOutput n k q.2
    else addOutput n k o (if cut then beginRecord n k o left none q.2.1 else q.2.1, q.2.2)

/-- The trigger sample has come: the record with its earlier outputs from the history (R265). A shift inside it splits it, and then no
part of it before the trigger sample has a trigger index (DEDUCED, log entry 8). Outputs that are missing, suppressed or lost with a link word,
leave no gap in the history: the record takes the outputs delivered (log entry 97, DESIGN CHOICE). -/
def triggered (n : Fin 8) (k : Nat) (o : TapOut) (p : Dev × Memory) : Dev × Memory :=
  let t := p.1.chs[n].tap k
  let pre := (t.hist.take (min (p.1.get CAPk_CTRL.PRE n k) (p.1.capLen n k - 1))).reverse
  let head := pre.headD o
  let idx := if t.crosses head.ts o.ts then none else some pre.length
  let d := beginRecord n k head (p.1.capLen n k) idx (p.1.onTap n k (fun t => { t with trig := none }))
  (pre ++ [o]).foldl (fun q x => putOutput n k x q) (d, p.2)

/-- A delivered output into capture (R264, R265, R267, R270). -/
def capture (n : Fin 8) (k : Nat) (o : TapOut) (p : Dev × Memory) : Dev × Memory :=
  let t := p.1.chs[n].tap k
  if p.1.capOff n k then p
  else if t.record.isSome then putOutput n k o p
  else
    let due := p.1.get CAPk_CTRL.MODE n k = 1 || t.trig.any (fun a => a ≤ o.ts)
    if !t.losing && !due then p
    else
      let q := Dev.roomFor n k p
      if !q.1 then loseOutput n k q.2
      else if q.2.1.get CAPk_CTRL.MODE n k = 1 then addOutput n k o (beginRecord n k o (q.2.1.capLen n k) none q.2.1, q.2.2)
      else if due then triggered n k o q.2
      else q.2

/-- A delivered output joins the history, and shifts that it no longer spans go (R265). -/
def Tap.remember (t : Tap) (o : TapOut) : Tap :=
  let h := (o :: t.hist).take 4096
  { t with hist := h, shifts := t.shifts.filter (fun x => (h.getLastD o).ts < ((x * 256 : Nat) : Int)) }

/-! ### Comparators -/

/-- A producer of the Sieve fires on the tick `at_`, counted from the first lock, and is captured on the next (R118, R263). -/
def Dev.fireOn (d : Dev) (code at_ : Nat) : Dev :=
  let p := d.locate ((at_ * 256 : Nat) : Int)
  let q := d.locate (((at_ + 1) * 256 : Nat) : Int)
  let new := (d.linesOf code).map (fun l => (⟨l, p.1, p.2 / 256, 0, q.1, q.2 / 256, false, false⟩ : Src))
  { d with ev := { d.ev with srcs := d.ev.srcs ++ new } }

/-- Λ in 1/256 tick: 16 ns or 40 ns, 6 ns, 1 ns a section and 1 ns a tap number (R263). -/
def Dev.lambda (d : Dev) (n k : Nat) : Nat := 64 * ((if d.tapB n k then 40 else 16) + 6 + d.get TAPk_CFG.SOS_NUM n k + k)

/-- The first tick that begins at least Λ after the instant of an output's newest input (R263). -/
def Dev.tripTick (d : Dev) (n k newest : Nat) : Nat := (newest + d.lambda n k + 255) / 256

/-- A settled output at the comparator (R262): it arms, or trips, and CMPk fires Λ after its newest input (R263). The rounding is not saturated: an
output of 1 - 2^-16 or more gives 32,768, above every threshold (log entry 96, DESIGN CHOICE). -/
def Dev.compare (d : Dev) (n k newest : Nat) (y : Int) : Dev :=
  let v := asr (y + 128) 8
  let hi := d.getS CMPk_LVL.HI n k
  let lo := d.getS CMPk_LVL.LO n k
  let mode := d.get CMPk_CTRL.MODE n k
  let trips := if mode = 1 then hi < v else if mode = 2 then v < lo else false
  let arms := if mode = 1 then v < lo else if mode = 2 then hi < v else false
  if d.flag CMPk_CTRL.ARMED n k then
    if trips then ((d.clear CMPk_CTRL.ARMED n k).raise CMPk_CTRL.TRIP n k).fireOn (chProd n (8 + k)) (d.tripTick n k newest) else d
  else if arms then d.raise CMPk_CTRL.ARMED n k else d

/-! ### Starts, stops, pauses -/

/-- The enabled taps. -/
def Dev.tapsOn (d : Dev) (n : Nat) : List Nat := [0, 1, 2, 3].filter (fun k => d.flag TAPk_CFG.EN n k)

/-- The conditions of a start (R250). -/
def Dev.sieveOk (d : Dev) (n : Nat) : Bool :=
  let secs := (d.tapsOn n).flatMap (d.tapSections n)
  let load := ((d.tapsOn n).map (fun k =>
    d.get TAPk_CFG.SOS_NUM n k * (if !d.tapB n k && d.get TAPk_CFG.DEC n k = 1 then 2 else 1))).sum
  let fits := (d.tapsOn n).all (fun k => d.get TAPk_CFG.SOS_BASE n k + d.get TAPk_CFG.SOS_NUM n k ≤ 12)
  secs.eraseDups.length = secs.length && fits && load ≤ 12

/-- A settling cause at the present joint for a tap: a record in progress ends, and the first U outputs from here on are unsettled,
whatever an earlier cause still has to come (R257, R258, R267). -/
def settleCause (n : Fin 8) (k : Nat) (p : Dev × Memory) : Dev × Memory :=
  let p := endRecord n k 2 p
  let u := p.1.unsetCount n k
  (p.1.onTap n k (fun t => { t with runs := t.runs ++ [(p.1.time.abs * 256, u)] }), p.2)

/-- A tap starts at the present joint: states clear, decimation counted from here (R250, R253, R271). Shifts that landed before stand: the
timestamps of its first outputs may lie before them (R267). -/
def startTap (n : Fin 8) (k : Nat) (p : Dev × Memory) : Dev × Memory :=
  let d := p.1
  let a := d.time.abs
  let first := (if d.tapB n k then a + (a - d.time.lock) % 2 else a) * 256
  let tau := d.tapTau n k
  let d := d.onTap n k (fun t => { t with
    integ := [0, 0, 0], comb := [0, 0, 0], outs := 0, first := first, tau := tau.1, runs := [], hist := [],
    trig := none, lastJ := none })
  let secs := d.tapSections n k
  let d := d.onCh n (fun c => { c with sieve := { c.sieve with
    sos := secs.foldl (fun l s => l.set s [0, 0, 0, 0]) c.sieve.sos } })
  let d := if tau.2 then d.setBit SIEVE_STAT.GD_UNDEF n 0 k else d.clrBit SIEVE_STAT.GD_UNDEF n 0 k
  let d := (d.set TAPk_GD_EFF.TAU n k (unsigned 32 (divRound tau.1.1 tau.1.2))).clear CMPk_CTRL.ARMED n k
  settleCause n k (d, p.2)

/-- The records of every tap end with a reason, comparators disarm, awaited triggers go (R251, R267, R271). -/
def quietTaps (n : Fin 8) (reason : Nat) (p : Dev × Memory) : Dev × Memory :=
  [0, 1, 2, 3].foldl (fun p k =>
    let p := endRecord n k reason p
    (((p.1.onTap n k (fun t => { t with trig := none, hist := [], lastJ := none })).clear CMPk_CTRL.ARMED n k), p.2))
    (p.1.onCh n (fun c => { c with sieve := { c.sieve with ended := some p.1.time.abs } }), p.2)

/-- The engine starts at the present joint, or the start is refused (R250). -/
def sieveStart (n : Fin 8) (p : Dev × Memory) : Dev × Memory :=
  if !p.1.sieveOk n then ((p.1.clear SIEVE_CTRL.RUN n).raise SIEVE_STAT.CFG_REJ n, p.2)
  else (p.1.tapsOn n).foldl (fun p k => startTap n k p) (p.1.raise SIEVE_STAT.RUNNING n, p.2)

/-- The engine stops at the present joint: records end with STOP, held firings are discarded (R251, R266). -/
def sieveStop (n : Fin 8) (p : Dev × Memory) : Dev × Memory :=
  let p := quietTaps n 4 p
  (((p.1.dropCaps n).clear SIEVE_STAT.RUNNING n).clear SIEVE_STAT.PAUSED n, p.2)

/-- The engine pauses (R271). -/
def sievePause (n : Fin 8) (p : Dev × Memory) : Dev × Memory :=
  if !p.1.flag SIEVE_STAT.RUNNING n || p.1.flag SIEVE_STAT.PAUSED n then p
  else
    let p := quietTaps n 5 p
    (p.1.raise SIEVE_STAT.PAUSED n, p.2)

/-- A pause ends at the present joint (R271). -/
def sieveResume (n : Fin 8) (p : Dev × Memory) : Dev × Memory :=
  if !p.1.flag SIEVE_STAT.PAUSED n then p
  else (p.1.tapsOn n).foldl (fun p k => startTap n k p) (p.1.clear SIEVE_STAT.PAUSED n, p.2)

/-- Capture settings that land at the joint: the record in progress ends with STOP; a held firing goes when the mode leaves
TRIG (R264, R266, R267), and an accepted trigger that awaits its sample stays while it does not (log entry 98, DESIGN CHOICE). The word is `CAPk_CTRL` (register 0) or `CAPk_LEN` (1) of tap k, coded 2k + register. -/
def landCap (n : Fin 8) (x : Nat × Nat) (p : Dev × Memory) : Dev × Memory :=
  let k := x.1 / 2
  let p := endRecord n k 4 p
  let d := p.1
  let trig := d.get CAPk_CTRL.MODE n k = 2
  if x.1 % 2 = 1 then (d.set CAPk_LEN.LEN n k (bitsOf x.2 0 18), p.2)
  else
    let d := (d.set CAPk_CTRL.PRE n k (bitsOf x.2 16 12)).set CAPk_CTRL.POL n k (bitsOf x.2 4 1)
    let d := (d.set CAPk_CTRL.FMT n k (bitsOf x.2 2 1)).set CAPk_CTRL.MODE n k (bitsOf x.2 0 2)
    let t := d.chs[n].tap k
    let d := if bitsOf x.2 0 2 = 2 || !trig then d
      else (((t.heldTrig.toList).foldl (fun d s => d.overrun s) d).onTap n k (fun t => { t with heldTrig := none, trig := none })).clear CAPk_CTRL.PEND n k
    (d, p.2)

/-- A calibration slot stands at the present joint or begins there with a CAL step (R46, R276). -/
def Dev.slotHere (d : Dev) (n : Fin 8) : Bool :=
  d.chs[n].slot.isSome || (d.chs[n].laid.find? (fun e => e.crs = d.time.crs)).any (fun e =>
    e.fx.any (fun x => match x with | (0, .slotBegin _ _ _) => true | _ => false))

/-- A requested stop and start land first, then capture settings, a pause, and the Sense A input, so that a record that several of them
end carries the first of STOP, PAUSE, SETTLE and SHIFT; a pause ends where its causes have ended (R242, R250, R251, R264, R271).
`shifted` says that a joint shift lands here (R267). -/
def sieveJoint (shifted : Bool) (n : Fin 8) (p : Dev × Memory) : Dev × Memory :=
  let sv := p.1.chs[n].sieve
  let p := match sv.want with
    | some true => if p.1.flag SIEVE_STAT.RUNNING n then p else sieveStart n p
    | some false => if p.1.flag SIEVE_STAT.RUNNING n then sieveStop n p else p
    | none => p
  let p := (p.1.onCh n (fun c => { c with sieve := { c.sieve with want := none } }), p.2)
  let p := sv.capNext.foldl (fun p x => landCap n x p) p
  let p := (p.1.onCh n (fun c => { c with sieve := { c.sieve with capNext := [], capHold := p.1.get PWR_STAT.STATE ≠ 0 } }), p.2)
  let p := if p.1.slotHere n then sievePause n p
    else if p.1.flag SIEVE_STAT.PAUSED n && p.1.ticking then sieveResume n p
    else p
  let p := match sv.snsNext with
    | none => p
    | some w =>
      let d := p.1
      let old := (d.get SNS_A.A_SEL n, d.get SNS_A.A_RANGE n, d.get SNS_A.A_TERM n)
      let new := (bitsOf w 0 2, bitsOf w 4 1, bitsOf w 5 1)
      let d := ((d.set SNS_A.A_SEL n 0 new.1).set SNS_A.A_RANGE n 0 new.2.1).set SNS_A.A_TERM n 0 new.2.2
      let q := (d.onCh n (fun c => { c with sieve := { c.sieve with snsNext := none } }), p.2)
      if old = new || !d.flag SIEVE_STAT.RUNNING n || d.flag SIEVE_STAT.PAUSED n then q
      else ((d.tapsOn n).filter (fun k => !d.tapB n k)).foldl (fun q k => settleCause n k q) q
  if shifted then ([0, 1, 2, 3].foldl (fun d k => d.onTap n k (fun t => { t with shifts := t.shifts ++ [d.time.abs] })) p.1, p.2)
  else p

/-! ### The meanings of this family -/

/-- `SNS_A_WRITE` (R242): the setting lands at the next joint. -/
def execSnsAWrite (n : Fin 8) (w : BitVec 32) (s : State) : Host.Outcome State Fault Refusal :=
  .next (s.withDev (s.dev.onCh n (fun c => { c with sieve := { c.sieve with snsNext := some w.toNat } })))

/-- The registers behind the lock of R249. -/
inductive SieveReg | cfg (k : Fin 4) | settle (k : Fin 4) | gd (k : Fin 4) | mode | coef (s : Fin 12) (c : Fin 5)
  deriving DecidableEq, Repr

/-- A locked Sieve register written (R249): `DEC` outside 1 to 4,096 or `CIC_N` = 0 refuses the whole write. -/
def Dev.sieveCfg (d : Dev) (n : Nat) (r : SieveReg) (w : Nat) : Dev :=
  if d.flag SIEVE_STAT.RUNNING n then d.raise SIEVE_STAT.CFG_REJ n
  else match r with
    | .cfg k =>
      let dec := bitsOf w 16 13
      if dec = 0 || 4096 < dec || bitsOf w 29 2 = 0 then d.raise SIEVE_STAT.CFG_REJ n
      else
        let d := ((d.set TAPk_CFG.SRC n k (bitsOf w 31 1)).set TAPk_CFG.CIC_N n k (bitsOf w 29 2)).set TAPk_CFG.DEC n k dec
        ((d.set TAPk_CFG.SOS_BASE n k (bitsOf w 8 4)).set TAPk_CFG.SOS_NUM n k (bitsOf w 4 4)).set TAPk_CFG.EN n k (bitsOf w 0 1)
    | .settle k => d.set TAPk_SETTLE.SETTLE n k (bitsOf w 0 16)
    | .gd k => (d.set TAPk_GD.SRC_USER n k (bitsOf w 31 1)).set TAPk_GD.USER n k (bitsOf w 0 28)
    | .mode => d.set SIEVE_CTRL.SETTLE_MODE n 0 (w % 2)
    | .coef s c => d.set SOSs_c.COEF n (s * 5 + c) w

/-- The register that a number 0 to 72 names: 0 to 3 `TAPk_CFG`, 4 to 7 `TAPk_SETTLE`, 8 to 11 `TAPk_GD`, 12
`SETTLE_MODE`, 13 + 5s + c section coefficients. -/
def sieveRegOf (i : Fin 73) : SieveReg :=
  if h : i.val < 4 then .cfg ⟨i.val, h⟩
  else if i.val < 8 then .settle (Fin.ofNat 4 (i.val - 4))
  else if i.val < 12 then .gd (Fin.ofNat 4 (i.val - 8))
  else if i.val = 12 then .mode
  else .coef (Fin.ofNat 12 ((i.val - 13) / 5)) (Fin.ofNat 5 ((i.val - 13) % 5))

/-- `SIEVE_CFG_WRITE` (R249). -/
def execSieveCfgWrite (n : Fin 8) (reg : Fin 73) (w : BitVec 32) (s : State) : Host.Outcome State Fault Refusal :=
  .next (s.withDev (s.dev.sieveCfg n (sieveRegOf reg) w.toNat))

/-- `RUN` written: the start or stop lands at the next joint (R250, R251). -/
def Dev.sieveRun (d : Dev) (n : Fin 8) (on : Bool) : Dev :=
  (d.set SIEVE_CTRL.RUN n 0 (if on then 1 else 0)).onCh n (fun c => { c with sieve := { c.sieve with want := some on } })

/-- `SIEVE_RUN_START` (R250). -/
def execSieveRunStart (n : Fin 8) (s : State) : Host.Outcome State Fault Refusal := .next (s.withDev (s.dev.sieveRun n true))

/-- `SIEVE_RUN_STOP` (R251). -/
def execSieveRunStop (n : Fin 8) (s : State) : Host.Outcome State Fault Refusal := .next (s.withDev (s.dev.sieveRun n false))

/-- The converter code of a sample in Q0.15 (R252): Sense A's 14 bits in [15:2]. -/
def tapInput (b : Bool) (x : BitVec 16) : Int := if b then signed 16 x.toNat else signed 14 x.toNat * 4

/-- The samples of a tap's next output, in Q0.15. -/
def Dev.tapSamples (d : Dev) (n k : Nat) (codes : SenseCodes) : List Int :=
  let b := d.tapB n k
  (List.range (d.get TAPk_CFG.DEC n k)).map (fun i => tapInput b ((if b then codes.b else codes.a).getD i 0))

/-- Some sample of a converter is at full scale (R247). -/
def fullCode (b : Bool) (codes : List (BitVec 16)) : Bool :=
  codes.any (fun c => let x := tapInput b c; x = -32768 || x = (if b then 32767 else 32764))

/-- Samples at full scale set the flag of their converter, whatever the taps do with them (R247). -/
def Dev.fullScale (d : Dev) (n : Nat) (codes : SenseCodes) : Dev :=
  (d.raiseIf (fullCode false codes.a) SIEVE_STAT.A_OVR n).raiseIf (fullCode true codes.b) SIEVE_STAT.B_OVR n

/-- The instant of the newest input of output j of a tap since its start (R253). -/
def Dev.newestOf (d : Dev) (n : Fin 8) (k j : Nat) : Nat :=
  (d.chs[n].tap k).first + ((j + 1) * d.get TAPk_CFG.DEC n k - 1) * d.tapPeriod n k

/-- An output with its newest input at an instant counts for every settling cause at or before it (R257). -/
def runsPast (newest : Nat) (l : List (Nat × Nat)) : List (Nat × Nat) :=
  (l.map (fun r => if r.1 ≤ newest then (r.1, r.2 - 1) else r)).filter (fun r => r.2 ≠ 0)

/-- A tap produces its next output from its inputs (R252 to R259, R262, R264 to R270). -/
def tapOutput (n : Fin 8) (k : Fin 4) (codes : SenseCodes) (p : Dev × Memory) : Dev × Memory :=
  let d := p.1
  let t := d.chs[n].tap k
  let dec := d.get TAPk_CFG.DEC n k
  let xs := d.tapSamples n k codes
  let c := cicStage (d.get TAPk_CFG.CIC_N n k) dec xs t.integ t.comb
  let run := (d.tapSections n k).foldl (fun (a : Int × List (List Int) × Bool) s =>
    let r := sosStep (d.sosCoef n s) a.1 (a.2.1.getD s [0, 0, 0, 0])
    (r.1, a.2.1.set s r.2.1, a.2.2 || r.2.2)) (c.1, d.chs[n].sieve.sos, false)
  let newest := d.newestOf n k t.outs
  let q : Int := (t.tau.2 : Nat)
  let ts := (2 * ((newest : Int) * q - t.tau.1) + q) / (2 * q)
  let unset := t.runs.any (fun r => r.1 ≤ newest)
  let o : TapOut := ⟨t.outs, ts, run.1, unset, run.2.2⟩
  let d := (d.onCh n (fun c => { c with sieve := { c.sieve with sos := run.2.1 } })).onTap n k (fun t => { t with
    integ := c.2.1, comb := c.2.2, outs := t.outs + 1, runs := runsPast newest t.runs })
  let d := if run.2.2 then d.setBit SIEVE_STAT.SAT n 0 k else d
  let d := if unset then d.setBit SIEVE_STAT.SETTLING n 0 k else d.clrBit SIEVE_STAT.SETTLING n 0 k
  let d := if unset then d else d.compare n k newest o.y
  if unset && !d.flag SIEVE_CTRL.SETTLE_MODE n then (d, p.2)
  else
    let d := d.capFree n k
    let r := capture n k o (d, p.2)
    (r.1.onTap n k (fun t => t.remember o), r.2)

/-- `TAP_OUTPUT` (R247, R253): the converters' samples of the time of a tap's next output; an enabled tap of a running engine takes those of
its source. -/
def execTapOutput (n : Fin 8) (k : Fin 4) (codes : SenseCodes) (s : State) : Host.Outcome State Fault Refusal :=
  let d := s.dev.fullScale n codes
  if d.flag SIEVE_STAT.RUNNING n && !d.flag SIEVE_STAT.PAUSED n && d.flag TAPk_CFG.EN n k then
    let p := tapOutput n k codes (d, s.mem)
    .next { s with dev := p.1, mem := p.2 }
  else .next (s.withDev d)

/-- `CMPk_LVL` and `CMPk_CTRL.MODE` written (R262). -/
def Dev.cmpWrite (d : Dev) (n k : Nat) (ctrl : Bool) (w : Nat) : Dev :=
  if ctrl then
    if bitsOf w 0 2 = 3 then d.raise SIEVE_STAT.CFG_REJ n
    else ((if bitAt w 16 then d.clear CMPk_CTRL.TRIP n k else d).set CMPk_CTRL.MODE n k (bitsOf w 0 2)).clear CMPk_CTRL.ARMED n k
  else if signed 16 (bitsOf w 16 16) < signed 16 (bitsOf w 0 16) then d.raise SIEVE_STAT.CFG_REJ n
  else (d.set CMPk_LVL.HI n k (bitsOf w 16 16)).set CMPk_LVL.LO n k (bitsOf w 0 16)

/-- `CMP_WRITE` (R262): `ctrl` selects `CMPk_CTRL`, else `CMPk_LVL`. -/
def execCmpWrite (n : Fin 8) (k : Fin 4) (ctrl : Bool) (w : BitVec 32) (s : State) : Host.Outcome State Fault Refusal :=
  .next (s.withDev (s.dev.cmpWrite n k ctrl w.toNat))

/-- `CAPk_CTRL` or `CAPk_LEN` written: checked, then landing at the next joint (R264). -/
def Dev.capWrite (d : Dev) (n : Fin 8) (k : Nat) (len : Bool) (w : Nat) : Dev :=
  if (len && bitsOf w 0 18 = 0) || (!len && bitsOf w 0 2 = 3) then d.raise SIEVE_STAT.CFG_REJ n
  else d.onCh n (fun c => { c with sieve := { c.sieve with
    capNext := (c.sieve.capNext.filter (fun x => x.1 ≠ 2 * k + (if len then 1 else 0))) ++ [(2 * k + (if len then 1 else 0), w)] } })

/-- `CAP_CTRL_WRITE` (R264): `len` selects `CAPk_LEN`, else `CAPk_CTRL`. -/
def execCapCtrlWrite (n : Fin 8) (k : Fin 4) (len : Bool) (w : BitVec 32) (s : State) : Host.Outcome State Fault Refusal :=
  .next (s.withDev (s.dev.capWrite n k len w.toNat))

/-- `CAP_RD_WRITE` (R269): refused unless a multiple of 64 below the ring's size. -/
def execCapRdWrite (n : Fin 8) (k : Fin 4) (w : BitVec 32) (s : State) : Host.Outcome State Fault Refusal :=
  let d := s.dev
  if w.toNat % 64 ≠ 0 || d.get CAPk_SIZE.SIZE n k ≤ w.toNat then .next (s.withDev (d.raise SIEVE_STAT.CFG_REJ n))
  else .next (s.withDev (d.set CAPk_RD.RD n k w.toNat))

/-- `CAPTURE_BLOCK_COMPLETE` (R269). -/
def execCaptureBlockComplete (n : Fin 8) (k : Fin 4) (s : State) : Host.Outcome State Fault Refusal :=
  let p := blockWrite n k (s.dev, s.mem)
  .next { s with dev := p.1, mem := p.2 }

/-- Outputs of a tap lost with a return-link word (R270, R529): they count among its outputs (R253, R257, R259), and the record ends
with LOSS at the last complete output. -/
def linkLoss (n : Fin 8) (lost : Nat) (k : Nat) (p : Dev × Memory) : Dev × Memory :=
  let outs := (p.1.chs[n].tap k).outs
  let past := (List.range lost).map (fun i => p.1.newestOf n k (outs + i))
  let p := (p.1.onTap n k (fun t => { t with outs := outs + lost, runs := past.foldl (fun l x => runsPast x l) t.runs }), p.2)
  if lost = 0 || p.1.capOff n k then p
  else
    let p := endRecord n k 3 p
    let d := p.1.countBy lost CAPk_LOSS.COUNT n k
    (d.onTap n k (fun t => { t with lost := t.lost + lost, lastJ := none }), p.2)

/-- `RETURN_WORD_BAD` (R529): the word is counted and each running tap loses the outputs its samples carried (`lost`, tap
by tap). -/
def execReturnWordBad (n : Fin 8) (lost : List Nat) (s : State) : Host.Outcome State Fault Refusal :=
  let d := s.dev.count PWR_LINK.RETURN
  if d.flag SIEVE_STAT.RUNNING n && !d.flag SIEVE_STAT.PAUSED n then
    let p := [0, 1, 2, 3].foldl (fun p k => linkLoss n (lost.getD k 0) k p) (d, s.mem)
    .next { s with dev := p.1, mem := p.2 }
  else .next (s.withDev d)

end Sys2Proof.Machine
end

