-- ==== Sys2Proof/Machine/Bench.lean ====
section
/-!
DEFINITION. The bench bus (chapter 13): addresses and the allow-list (R456, R464), messages (R461 to R463), filters
(R466), the receive queue (R469, R470), sending (R471 to R474), STOP (R475, R476), PLCA (R458 to R460), bench time (R477
to R479), and the commands of this family.
-/
namespace Sys2Proof.Machine
open Reg

/-! ### Time on the bench -/

/-- Bench time in ns now, on its 40 ns grid (R478). -/
def Dev.benchNs (d : Dev) : Nat := (d.bench.ns0 + 4 * (d.time.abs - d.bench.abs0)) / 40 * 40

/-- The seconds and nanoseconds of a message's `TIME`, valid or not (R471). -/
def Dev.benchStamp (d : Dev) : Bool × Nat × Nat :=
  if d.flag BB_PTP_STAT.VALID then (true, d.benchNs / 1000000000 % 2 ^ 32, d.benchNs % 1000000000) else (false, 0, 0)

/-- The port runs (R457). -/
def Dev.benchOn (d : Dev) : Bool := d.flag BB_CTRL.EN && (d.get PWR_STAT.STATE = 0 || d.get PWR_STAT.STATE = 1)

/-! ### The allow-list -/

/-- The address of allow-list entry a. -/
def Dev.allowMac (d : Dev) (a : Nat) : Nat := d.get BB_ALLOWa_LO.MAC_LO a + 2 ^ 32 * d.get BB_ALLOWa_HI.MAC_HI a

/-- A source address matches allow-list entry a (R464). -/
def Dev.allows (d : Dev) (a src : Nat) : Bool := d.flag BB_ALLOWa_HI.EN a && decide (d.allowMac a = src)

/-- The enabled entry that a source address matches, the lowest where several hold it (log entry 108, DESIGN CHOICE); 16 for none (R464). -/
def Dev.allowOf (d : Dev) (src : Nat) : Nat := ((List.range 16).find? (fun a => d.allows a src)).getD 16

/-- A STOP or RESUME of this source acts (R465): with `ALLOW_EN` 1 an entry that it matches must allow it. -/
def Dev.stopOk (d : Dev) (src : Nat) : Bool :=
  !d.flag BB_CTRL.ALLOW_EN || (List.range 16).any (fun a => d.allows a src && d.flag BB_ALLOWa_HI.STOP_OK a)

/-- The port's own MAC address. -/
def Dev.macOf (d : Dev) : Nat := d.get BB_MAC_LO.MAC_LO + 2 ^ 32 * d.get BB_MAC_HI.MAC_HI

/-- The bench group address (R456). -/
def benchGroup : Nat := 0x01005E7B0000

/-- The address a `DEST` names (R471). -/
def Dev.benchDest (d : Dev) (dest : Nat) : Nat := if dest < 16 then d.allowMac dest else benchGroup

/-! ### Messages -/

/-- A number from bytes, most significant first (R461). -/
def beNat (bs : List (BitVec 8)) : Nat := bs.foldl (fun a b => 256 * a + b.toNat) 0

/-- The k bytes of a number, most significant first. -/
def beBytes (k v : Nat) : List (BitVec 8) := (leBytes k v).reverse

/-- The bytes of a message after the EtherType (R461). -/
def benchBytes (kind seq flags topic : Nat) (t : Nat × Nat) (payload : List (BitVec 8)) : List (BitVec 8) :=
  beBytes 2 0x6B42 ++ beBytes 1 1 ++ beBytes 1 kind ++ beBytes 2 seq ++ beBytes 2 flags ++ beBytes 4 topic
  ++ beBytes 2 payload.length ++ [0, 0] ++ beBytes 4 t.1 ++ beBytes 4 t.2 ++ payload

/-- A message to be sent, with the next message number (R471, R472). -/
def Dev.benchFrame (d : Dev) (x dest kind topic : Nat) (ess : Bool) (payload : List (BitVec 8)) : BenchWait :=
  let t := d.benchStamp
  let flags := (if ess then 1 else 0) + (if t.1 then 2 else 0)
  let body := benchBytes kind d.bench.seq flags topic t.2 payload
  ⟨x, ess || kind = 3 || kind = 4, .frame (d.benchDest dest) kind topic body, max 64 (18 + body.length) + 8⟩

/-- A message waits to be sent. -/
def Dev.benchQueue (d : Dev) (w : BenchWait) : Dev :=
  { d with bench := { d.bench with wait := d.bench.wait ++ [w], seq := (d.bench.seq + 1) % 2 ^ 16 } }

/-- The payload bytes that words hold, the first byte sent lowest. -/
def payloadOf (ws : List Nat) (len : Nat) : List (BitVec 8) := (wordsBytes ws).take len

/-- A firing on consumer BENCH_TXx (R471). -/
def Dev.benchTx (d : Dev) (x : Nat) (slots : List (Nat × Nat)) : Dev :=
  let kind := d.get BB_TXx_0.KIND x
  let ess := d.flag BB_TXx_0.ESS x || kind = 3 || kind = 4
  if d.flag BB_TXx_0.BUSY x || (d.flag BB_STAT.STOPPED && !ess) then d.overrun slots
  else
    let pl := payloadOf ((List.range 8).map (fun i => d.get BB_TXx_D.DATA x i)) (d.get BB_TXx_0.LEN x)
    (d.benchQueue (d.benchFrame x (d.get BB_TXx_0.DEST x) kind (d.get BB_TXx_1.TOPIC x) (d.flag BB_TXx_0.ESS x) pl)).raise BB_TXx_0.BUSY x

/-- A template or the host send no longer waits; a BENCH_SEND command completes with its frame, or with BUSY where the frame
was discarded or dropped (R507, log entry 27). -/
def Dev.benchFree (d : Dev) (w : BenchWait) (sent : Bool) : Dev :=
  if w.x < 16 then d.clear BB_TXx_0.BUSY w.x
  else
    let d := d.clear BB_HTX_CTRL.BUSY
    match d.cmds.find? (fun c => c.opcode = 0x7C) with
    | some c => if sent then d.finish c.m c.slot 0 [] else d.finish c.m c.slot 1 [3]
    | none => d

/-! ### PLCA -/

/-- `PLCA_ACT` and `COORD` follow what decides them (R458, R460). -/
def Dev.plcaShow (d : Dev) : Dev :=
  let p := d.bench.plca
  let act := p.1 && p.2.1 < 255 && d.bench.heard && !d.bench.dropped
  (d.set BB_STAT.PLCA_ACT 0 0 (if act then 1 else 0)).set BB_STAT.COORD 0 0 (if p.2.1 = 0 then 1 else 0)

/-- A beacon: settings written since take effect; a follower's cycle without its own opportunity counts (R458 to R460). -/
def Dev.beacon (d : Dev) : Dev :=
  let b := d.bench
  let follower := b.plca.1 && b.plca.2.1 < 255 && b.plca.2.1 ≠ 0 && b.heard && !b.dropped
  let missed := if follower && !b.opp then b.missed + 1 else 0
  let drop := 4 ≤ missed
  let d := { d with bench := { b with
    heard := true, opp := false, missed := if drop then 0 else missed, dropped := b.dropped || drop, sentLast := b.sentLast && b.opp,
    plca := (d.flag BB_PLCA.EN, d.get BB_PLCA.ID, d.get BB_PLCA.NCNT, d.get BB_PLCA.TOT) } }
  (d.raiseIf drop BB_STAT.NO_TO).plcaShow

/-- Collisions met while sending (R459, R480). -/
def Dev.collide (d : Dev) (k late : Nat) : Dev :=
  let d := d.countBy late BB_ERR2.LATE_COLL
  if d.flag BB_STAT.PLCA_ACT then
    let recent := ((List.replicate k d.time.abs) ++ d.bench.colls).filter (fun t => d.time.abs ≤ t + 250000000)
    let dup := 8 ≤ recent.length
    let d := { d with bench := { d.bench with colls := if dup then [] else recent, dropped := d.bench.dropped || dup } }
    ((d.countBy k BB_ERR1.PLCA_COLL).raiseIf dup BB_STAT.DUP_ID).plcaShow
  else d.countBy k BB_ERR2.COLL

/-! ### Receiving -/

/-- Whether filter x matches a message (R466). -/
def Dev.filterHit (d : Dev) (x : Nat) (m : BenchMsg) : Bool :=
  let mask := d.get BB_FLTx_2.TMASK x
  let pm := d.get BB_FLTx_4.PMASK x
  let ofs := 4 * d.get BB_FLTx_0.POFS x
  let word := beNat ((m.payload.drop ofs).take 4)
  d.flag BB_FLTx_0.EN x && (d.get BB_FLTx_0.SRC x = 16 || d.allows (d.get BB_FLTx_0.SRC x) m.src)
  && (d.get BB_FLTx_0.KIND x = 0 || d.get BB_FLTx_0.KIND x = m.kind)
  && (m.topic &&& mask) = (d.get BB_FLTx_1.TOPIC x &&& mask)
  && (pm = 0 || (ofs + 4 ≤ m.payload.length && (word &&& pm) = (d.get BB_FLTx_3.PVAL x &&& pm)))

/-- The message registers show the oldest message (R470); on an empty queue they keep what they showed (log entry 9). -/
def Dev.rxShow (d : Dev) : Dev :=
  let d := d.set BB_RXQ_00.COUNT 0 0 d.bench.rxq.length
  match d.bench.rxq with
  | [] => d
  | m :: _ =>
    let d := ((d.set BB_RXQ_08.SRC_LO 0 0 (m.src % 2 ^ 32)).set BB_RXQ_0C.SRC_HI 0 0 (m.src / 2 ^ 32)).set BB_RXQ_0C.SEQ 0 0 m.seq
    let d := ((d.set BB_RXQ_10.TOPIC 0 0 m.topic).set BB_RXQ_14.KIND 0 0 m.kind).set BB_RXQ_14.FLAGS 0 0 m.flags
    let d := ((d.set BB_RXQ_14.LEN 0 0 m.len).set BB_RXQ_14.ENTRY 0 0 m.entry).set BB_RXQ_14.TRUNC 0 0 (if 256 < m.len then 1 else 0)
    let d := ((d.set BB_RXQ_18.T_SEC 0 0 m.sec).set BB_RXQ_1C.T_NS 0 0 m.ns).set BB_RXQ_20.CRS_LO 0 0 (m.crs % 2 ^ 32)
    let d := (d.set BB_RXQ_24.CRS_HI 0 0 (m.crs / 2 ^ 32)).set BB_RXQ_28.TICK 0 0 m.tick
    let bytes := m.payload.take 256
    (List.range 64).foldl (fun d w => d.set BB_RXQ_Dw.DATA w 0 (leNat ((bytes.drop (4 * w)).take 4))) d

/-- A STOP or RESUME that is acted on (R465, R475, R476). -/
def Dev.benchStop (d : Dev) (m : BenchMsg) : Dev :=
  if m.kind = 4 then
    ((d.clear BB_STAT.STOPPED).clear BB_STOP.UNTIL_RESUME).clear BB_STOP.LEFT
  else
    let hold := beNat (m.payload.take 2)
    let fin := max (if d.flag BB_STAT.STOPPED then d.bench.stopEnd else 0) (d.time.abs + hold * 250000)
    let gone := d.bench.wait.filter (fun w => !w.ess)
    let d := gone.foldl (fun d w => d.benchFree w false) d
    let d := { d with bench := { d.bench with wait := d.bench.wait.filter (fun w => w.ess), stopEnd := fin } }
    let d := ((d.raiseIf (!gone.isEmpty) BB_STAT.TX_DISC).raise BB_STAT.STOPPED).set BB_STOP.SRC 0 0 m.entry
    let d := d.raiseIf (hold = 0) BB_STOP.UNTIL_RESUME
    d.set BB_STOP.LEFT 0 0 ((fin - d.time.abs + 249999) / 250000)

/-- A well-formed message: accepted or a stranger's; STOP, filters, queue (R464 to R469). -/
def Dev.benchAccept (d : Dev) (m : BenchMsg) : Dev :=
  if d.flag BB_CTRL.ALLOW_EN && m.entry = 16 then (d.count BB_ERR4.STRANGER).raise BB_STAT.STRANGER
  else
    let acts := (m.kind = 3 || m.kind = 4) && d.stopOk m.src
    let d := if acts then d.benchStop m else d
    let hits := (List.range 16).filter (fun x => d.filterHit x m)
    let d := if hits.isEmpty then d else { d with bench := { d.bench with fires := d.bench.fires ++ [hits] } }
    if d.flag BB_CTRL.RXALL || hits.any (fun x => d.flag BB_FLTx_0.Q x) then
      if 32 ≤ d.bench.rxq.length then (d.raise BB_STAT.RXQ_OVF).count BB_RXQ_00.LOST
      else { d with bench := { d.bench with rxq := d.bench.rxq ++ [m] } }.rxShow
    else d

/-- A frame's bytes after the EtherType as a message, where it is well-formed (R461 to R463). -/
def Dev.benchParse (d : Dev) (src : Nat) (at_ : Nat × Nat) (b : List (BitVec 8)) : Option BenchMsg :=
  let f := fun i k => beNat ((b.drop i).take k)
  let len := f 12 2
  let kind := f 3 1
  if b.length < 24 || f 0 2 ≠ 0x6B42 || f 2 1 ≠ 1 || kind = 0 || 5 ≤ kind || b.length < 24 + len || (kind = 3 && len < 2) then none
  else some { src := src, seq := f 4 2, topic := f 8 4, kind := kind, flags := f 6 2 % 4, len := len, entry := d.allowOf src,
              sec := f 16 4, ns := f 20 4, crs := at_.1, tick := at_.2, payload := (b.drop 24).take len }

/-- A frame's EtherType and what follows it, once an IEEE 802.1Q tag has been removed (R455). -/
def untag (etype : Nat) (body : List (BitVec 8)) : Nat × List (BitVec 8) :=
  if etype = 0x8100 then (beNat ((body.drop 2).take 2), body.drop 4) else (etype, body)

/-- A frame received whole (R456, R462, R480). A frame of bench time (0x88F7) goes to the servo, which has a row of its own (R477). `ago` is how many ticks ago its SFD ended (R468); `syms` symbol errors;
`jabber` a reception ended as jabber. -/
def Dev.benchReceive (d : Dev) (dst src etype : Nat) (fcs : Bool) (syms : Nat) (jabber : Bool) (ago : Nat)
    (body : List (BitVec 8)) : Dev :=
  if !d.benchOn then d
  else
    let d := d.countBy syms BB_ERR0.SYM
    let d := if jabber then d.count BB_ERR3.JABBER else d
    let t := untag etype body
    let mine := dst = d.macOf || dst = 2 ^ 48 - 1 || dst = 0x011B19000000 || dst = benchGroup
    if !fcs then (d.count BB_ERR0.CRC).count BB_ERR4.DISCARD
    else if mine && t.1 = 0x88F7 then d
    else if !mine || t.1 ≠ 0x88B5 then d.count BB_ERR4.DISCARD
    else
      let u := d.locate (((d.time.abs - ago) * 256 : Nat) : Int)
      match d.benchParse src (u.1, u.2 / 256) t.2 with
      | none => d.count BB_ERR4.DISCARD
      | some m => d.benchAccept m

/-! ### Sending -/

/-- Whether a waiting frame may be sent now (R474, R475). -/
def Dev.benchMay (d : Dev) (w : BenchWait) : Bool :=
  if w.ess then ((d.bench.essAt.filter (fun t => d.time.abs < t + 2500000)).length < 4)
  else !d.flag BB_STAT.STOPPED
    && (if d.flag BB_STAT.PLCA_ACT then !d.bench.sentLast else d.bench.lastEnd + d.bench.lastDur ≤ d.time.abs)

/-- The place of an essential frame in the order of R473: STOP, RESUME, then templates by ascending x and the host send. -/
def BenchWait.rank (w : BenchWait) : Nat :=
  match w.frame with
  | .frame _ 3 _ _ => 0
  | .frame _ 4 _ _ => 1
  | _ => 2 + w.x

/-- The first waiting frame in the order of R473 that may be sent. -/
def Dev.benchPick (d : Dev) : Option BenchWait :=
  let ess := (List.range 19).findSome? (fun r => d.bench.wait.find? (fun w => w.ess && w.rank = r && d.benchMay w))
  let tpl := (List.range 17).findSome? (fun x => d.bench.wait.find? (fun w => w.x = x && !w.ess && d.benchMay w))
  match ess with
  | some w => some w
  | none => tpl

/-- A transmit opportunity or deferral point: at most one frame goes on the line (R473). -/
def Dev.benchOpp (d : Dev) : Dev :=
  if !d.benchOn || d.bench.line.isSome then d
  else match d.benchPick with
    | none => { d with bench := { d.bench with opp := true, sentLast := false } }
    | some w => { d with bench := { d.bench with
        opp := true, sentLast := true, wait := d.bench.wait.erase w, line := some w,
        essAt := if w.ess then d.time.abs :: d.bench.essAt.take 3 else d.bench.essAt } }

/-- The frame on the line completes, or is dropped after 16 collisions (R473). -/
def Dev.benchSent (d : Dev) (colls late : Nat) : Dev :=
  match d.bench.line with
  | none => d
  | some w =>
    let d := (d.collide (min colls 16) late).benchFree w (decide (colls < 16))
    let d := { d with bench := { d.bench with line := none, lastEnd := d.time.abs, lastDur := w.len * 200 } }
    if 16 ≤ colls then (d.count BB_ERR3.XCOLL).raise BB_STAT.TX_DROP else d.emit w.frame

/-- The host send queued with its header kept in `BB_HTX_CTRL`, or refused: the write is then ignored (R472). -/
def Dev.hostSend (d : Dev) (dest kind topic len : Nat) (ess : Bool) (payload : List (BitVec 8)) : Dev :=
  let e := ess || kind = 3 || kind = 4
  if d.flag BB_HTX_CTRL.BUSY || 256 < len || kind = 0 || 5 ≤ kind || (d.flag BB_STAT.STOPPED && !e) then d.raise BB_STAT.TX_REJ
  else
    let d := (d.benchQueue (d.benchFrame 16 dest kind topic ess (payload.take len))).raise BB_HTX_CTRL.BUSY
    (((d.set BB_HTX_CTRL.ESS 0 0 (if ess then 1 else 0)).set BB_HTX_CTRL.DEST 0 0 dest).set BB_HTX_CTRL.LEN 0 0 len).set BB_HTX_CTRL.KIND 0 0 kind

/-! ### Settings -/

/-- `BB_PLCA` written (R459, R460); after a drop, `EN` must be written 0 and then 1 (R620). -/
def Dev.plcaWrite (d : Dev) (w : Nat) : Dev :=
  let n := bitsOf w 8 8
  if n = 0 || 32 < n || bitsOf w 16 8 < 16 then d.raise BB_STAT.CFG_REJ
  else
    let back := bitAt w 31 && !d.flag BB_PLCA.EN
    let d := ((d.set BB_PLCA.EN 0 0 (bitsOf w 31 1)).set BB_PLCA.TOT 0 0 (bitsOf w 16 8)).set BB_PLCA.NCNT 0 0 n
    { d.set BB_PLCA.ID 0 0 (bitsOf w 0 8) with bench := { d.bench with
      dropped := d.bench.dropped && !back, colls := [], missed := 0 } }.plcaShow

/-- A filter word written (R466): an `SRC` above 16 is refused. -/
def Dev.filterWrite (d : Dev) (x word w : Nat) : Dev :=
  match word with
  | 0 => if 16 < bitsOf w 0 5 then d.raise BB_STAT.CFG_REJ
         else
          let d := (d.set BB_FLTx_0.EN x 0 (bitsOf w 31 1)).set BB_FLTx_0.Q x 0 (bitsOf w 30 1)
          ((d.set BB_FLTx_0.POFS x 0 (bitsOf w 16 6)).set BB_FLTx_0.KIND x 0 (bitsOf w 8 8)).set BB_FLTx_0.SRC x 0 (bitsOf w 0 5)
  | 1 => d.set BB_FLTx_1.TOPIC x 0 w
  | 2 => d.set BB_FLTx_2.TMASK x 0 w
  | 3 => d.set BB_FLTx_3.PVAL x 0 w
  | 4 => d.set BB_FLTx_4.PMASK x 0 w
  | _ => d

/-- A template word written (R471): a `LEN` above 32 or a reserved `KIND` is refused. -/
def Dev.templateWrite (d : Dev) (x word w : Nat) : Dev :=
  if word = 0 then
    if 32 < bitsOf w 16 6 || bitsOf w 0 8 = 0 || 5 ≤ bitsOf w 0 8 then d.raise BB_STAT.CFG_REJ
    else
      let d := (d.set BB_TXx_0.ESS x 0 (bitsOf w 30 1)).set BB_TXx_0.DEST x 0 (bitsOf w 24 5)
      (d.set BB_TXx_0.LEN x 0 (bitsOf w 16 6)).set BB_TXx_0.KIND x 0 (bitsOf w 0 8)
  else if word = 1 then d.set BB_TXx_1.TOPIC x 0 w
  else d.set BB_TXx_D.DATA x (word - 2) w

/-- `BB_PTP_CTRL` written: with `EN` 0 bench time ends (R478). -/
def Dev.ptpWrite (d : Dev) (w : Nat) : Dev :=
  let d := (d.set BB_PTP_CTRL.DOMAIN 0 0 (bitsOf w 8 8)).set BB_PTP_CTRL.EN 0 0 (w % 2)
  if w % 2 = 0 then (d.clear BB_PTP_STAT.VALID).set BB_PTP_STAT.STATE 0 0 0
  else if d.get BB_PTP_STAT.STATE = 0 then d.set BB_PTP_STAT.STATE 0 0 1 else d

/-! ### Meanings -/

/-- `BENCH_FRAME_RECEIVE` (R456). -/
def execBenchFrameReceive (dst src : BitVec 48) (etype : BitVec 16) (fcs : Bool) (syms : Nat) (jabber : Bool) (ago : Nat)
    (body : List (BitVec 8)) (s : State) : Host.Outcome State Fault Refusal :=
  .next (s.withDev (s.dev.benchReceive dst.toNat src.toNat etype.toNat fcs syms jabber ago body))

/-- `BENCH_FIRE` (R467): the filters of the oldest message fire their producers on the present tick. -/
def execBenchFire (s : State) : Host.Outcome State Fault Refusal :=
  match s.dev.bench.fires with
  | [] => .next s
  | xs :: rest =>
    .next (s.withDev (xs.foldl (fun d x => d.fire (0x10 + x)) { s.dev with bench := { s.dev.bench with fires := rest } }))

/-- `TRANSMIT_OPPORTUNITY` (R473). -/
def execTransmitOpportunity (s : State) : Host.Outcome State Fault Refusal := .next (s.withDev s.dev.benchOpp)

/-- `BENCH_FRAME_SENT` (R473): `colls` collisions met, `late` of them late. -/
def execBenchFrameSent (colls late : Nat) (s : State) : Host.Outcome State Fault Refusal :=
  .next (s.withDev (s.dev.benchSent colls late))

/-- `BEACON_RECEIVE` (R458). -/
def execBeaconReceive (s : State) : Host.Outcome State Fault Refusal :=
  .next (s.withDev (if s.dev.benchOn then s.dev.beacon else s.dev))

/-- `BEACON_TIMEOUT` (R459). -/
def execBeaconTimeout (s : State) : Host.Outcome State Fault Refusal :=
  let d := s.dev
  if d.benchOn && d.bench.plca.1 && d.bench.plca.2.1 < 255 then
    .next (s.withDev ({ d.count BB_ERR1.BCN_LOSS with bench := { d.bench with heard := false } }).plcaShow)
  else .next s

/-- `BEACON_SEND` (R460): only the coordinator sends beacons. -/
def execBeaconSend (s : State) : Host.Outcome State Fault Refusal :=
  let d := s.dev
  if d.benchOn && d.flag BB_PLCA.EN && d.get BB_PLCA.ID = 0 then .next (s.withDev (d.beacon.emit (.frame 0 0 0 []))) else .next s

/-- `STOP_HOLD_EXPIRY` (R476): a STOP without end holds on. -/
def execStopHoldExpiry (s : State) : Host.Outcome State Fault Refusal :=
  let d := s.dev
  if d.flag BB_STOP.UNTIL_RESUME then .next s
  else .next (s.withDev ((d.clear BB_STAT.STOPPED).clear BB_STOP.LEFT))

/-- `PTP_MESSAGE_RECEIVE` (R477, R478): `sync` says that the message completes a Sync exchange, `ofs` is the measured offset
in 10 ns, `held` that the servo has held ±1 µs for 10 s, `ns` the bench time of this instant after the servo acted. -/
def execPtpMessageReceive (sync : Bool) (ofs : Int) (held : Bool) (ns : Nat) (s : State) : Host.Outcome State Fault Refusal :=
  let d := s.dev
  if !d.benchOn || !d.flag BB_PTP_CTRL.EN then .next s
  else if !sync then .next (s.withDev (d.set BB_PTP_STAT.STATE 0 0 (max 2 (d.get BB_PTP_STAT.STATE))))
  else
    let d := d.set BB_PTP_STAT.OFS 0 0 (unsigned 16 (clampI (-32768) 32767 ofs))
    let d := { d with bench := { d.bench with ns0 := ns, abs0 := d.time.abs } }
    .next (s.withDev ((d.raiseIf held BB_PTP_STAT.VALID).set BB_PTP_STAT.STATE 0 0 (if held then 3 else max 2 (d.get BB_PTP_STAT.STATE))))

/-- `PTP_SYNC_TIMEOUT` (R478). -/
def execPtpSyncTimeout (s : State) : Host.Outcome State Fault Refusal :=
  let d := s.dev
  if d.flag BB_PTP_CTRL.EN then .next (s.withDev ((d.clear BB_PTP_STAT.VALID).set BB_PTP_STAT.STATE 0 0 1)) else .next s

/-- `BB_PLCA_WRITE` (R460). -/
def execBbPlcaWrite (w : BitVec 32) (s : State) : Host.Outcome State Fault Refusal := .next (s.withDev (s.dev.plcaWrite w.toNat))

/-- `BB_FILTER_WRITE` (R466). -/
def execBbFilterWrite (x : Fin 16) (word : Fin 5) (w : BitVec 32) (s : State) : Host.Outcome State Fault Refusal :=
  .next (s.withDev (s.dev.filterWrite x word w.toNat))

/-- `BB_TEMPLATE_WRITE` (R471). -/
def execBbTemplateWrite (x : Fin 16) (word : Fin 10) (w : BitVec 32) (s : State) : Host.Outcome State Fault Refusal :=
  .next (s.withDev (s.dev.templateWrite x word w.toNat))

/-- `BB_HTX_GO` (R472): the word's settings and the message in `BB_HTX`. -/
def execBbHtxGo (w : BitVec 32) (s : State) : Host.Outcome State Fault Refusal :=
  let d := s.dev
  let v := w.toNat
  let pl := payloadOf ((List.range 64).map (fun i => d.get BB_HTX_Dw.DATA i)) 256
  .next (s.withDev (d.hostSend (bitsOf v 24 5) (bitsOf v 0 8) (d.get BB_HTX_TOPIC.TOPIC) (bitsOf v 8 9) (bitAt v 30) pl))

/-- `BB_RXQ_POP` (R470). -/
def execBbRxqPop (s : State) : Host.Outcome State Fault Refusal :=
  .next (s.withDev { s.dev with bench := { s.dev.bench with rxq := s.dev.bench.rxq.drop 1 } }.rxShow)

end Sys2Proof.Machine
end

