-- ==== Sys2Proof/Machine/Events.lean ====
section
/-!
DEFINITION. Event lines and system events (chapter 03): producers and captures, consumers and their delivery, local fast
jumps, originations, the pending store, timestamps.
-/
namespace Sys2Proof.Machine
open Reg

/-! ### Codes and slots -/

/-- Whether a producer code is one of R121. -/
def prodLegal (c : Nat) : Bool :=
  c ≤ 9 || (0x10 ≤ c && c ≤ 0x27) || (0x100 ≤ c && c < 0x200 && c % 32 ≤ 14 && c % 32 ≠ 7)

/-- Whether a consumer code is one of R122. -/
def consLegal (c : Nat) : Bool :=
  c ≤ 8 || (0x10 ≤ c && c ≤ 0x12) || (0x20 ≤ c && c ≤ 0x3F) || (0x100 ≤ c && c < 0x200 && c % 32 ≤ 11 && c % 32 ≠ 7)

/-- A slot's new contents: a reserved code in an enabled slot keeps the old ones (R120); the second component says so. -/
def slotWrite (legal : Nat → Bool) (mask old new : Nat) : Nat × Bool :=
  if bitAt new 15 && !legal (new % 1024) then (old, true) else (new &&& mask, false)

/-- `EVL_SRCn_r` written (R120). -/
def Dev.srcWrite (d : Dev) (l r w : Nat) : Dev :=
  let lo := slotWrite prodLegal 0x83FF (d.get EVL_SRCn_r.SLOT_LO l r) (bitsOf w 0 16)
  let hi := slotWrite prodLegal 0x83FF (d.get EVL_SRCn_r.SLOT_HI l r) (bitsOf w 16 16)
  ((d.set EVL_SRCn_r.SLOT_LO l r lo.1).set EVL_SRCn_r.SLOT_HI l r hi.1).raiseIf (lo.2 || hi.2) EVL_STAT.CFG_REJ

/-- `EVL_DSTn_r` written (R120): what it changes when, R124 says in `localFire` and `resolve`. -/
def Dev.dstWrite (d : Dev) (l r w : Nat) : Dev :=
  let lo := slotWrite consLegal 0xC3FF (d.get EVL_DSTn_r.SLOT_LO l r) (bitsOf w 0 16)
  let hi := slotWrite consLegal 0xC3FF (d.get EVL_DSTn_r.SLOT_HI l r) (bitsOf w 16 16)
  ((d.set EVL_DSTn_r.SLOT_LO l r lo.1).set EVL_DSTn_r.SLOT_HI l r hi.1).raiseIf (lo.2 || hi.2) EVL_STAT.CFG_REJ

/-- The active consumer slots of a line: slot number, code, `LAND`. -/
def Dev.routes (d : Dev) (l : Nat) : List (Nat × Nat × Bool) :=
  (List.range 16).filterMap (fun k =>
    let w := d.dstSlot l k
    if slotCode w = 0 then none else some (k, slotCode w, bitAt w 14))

/-- A consumer that takes every local firing as IMMEDIATE: WAKE, HALT_REQ, SYS_TX (R123). -/
def alwaysNow (code : Nat) : Bool := code = 0x11 || code = 0x12 || (0x20 ≤ code && code < 0x30)

/-- A consumer that takes the line before its synchroniser and acts without a clock: WAKE, HALT_REQ (R118). -/
def clockless (code : Nat) : Bool := code = 0x11 || code = 0x12

/-- The channel and the number of a channel consumer. -/
def chCons (code : Nat) : Option (Fin 8 × Nat) :=
  if 0x100 ≤ code && code < 0x200 then some (Fin.ofNat 8 ((code - 0x100) / 32), code % 32) else none

/-! ### Places and actions -/

/-- The place k ticks after a place of the course grid, and 1/256 ticks into it. -/
def Dev.placeOn (d : Dev) (crs tick k : Nat) : Nat × Nat :=
  let p := d.locate (d.instant crs tick 0 + (k * 256 : Nat))
  (p.1, p.2 / 256)

/-- The tick at which the rings that a redirect restarts now hold content: at most 3 µs on; when is open (R309, R312, log entry 1)
(log entry 71, DEDUCED). -/
def Dev.restartRing (d : Dev) : Nat × Dev := (d.time.abs + d.free.1 % 751, d.free.2)

/-- An action accepted for channel n (R32, R39): one that takes a run to a step restarts the channel's idle rings (R312). -/
def Dev.addAct (d : Dev) (n : Fin 8) (kind : ActKind) (org : Origin) (land acc : Nat) (slots : List (Nat × Nat)) : Dev :=
  let goes := match kind with | .start | .restart | .jump _ | .jumpTo _ => true | _ => false
  let r := if goes then d.restartRing else (0, d)
  let d := r.2
  let a : Act := { kind := kind, org := org, land := land, acc := acc, seq := d.actSeq, grp := none, stale := false, slots := slots, ring := r.1 }
  let d := { d with actSeq := d.actSeq + 1 }
  (d.onCh n (fun c => { c with acts := c.acts ++ [a] })).showState n

/-- The stretch that plays at a place of the course grid, as laid. -/
def Chan.fragOn (c : Chan) (p : Nat × Nat) : Option Frag :=
  match (c.cur.toList ++ c.laid).find? (fun e => e.crs = p.1) with
  | none => none
  | some e => e.frags.find? (fun f => f.t0 ≤ p.2 && p.2 < f.t0 + f.n)

/-- The source from which R146 times a firing: the earliest TRIG edge, else a producer, else software. -/
def Dev.bestSrc (d : Dev) (l : List Src) : Option Src :=
  let at_ := fun (s : Src) => d.instant s.crs s.tick s.fine
  let trigs := l.filter (fun s => s.trig)
  match trigs with
  | t :: ts => some (ts.foldl (fun a b => if at_ b < at_ a then b else a) t)
  | [] => match l.find? (fun s => !s.soft) with
    | some s => some s
    | none => l.head?

/-- A timestamp written if the line's is armed (R146). -/
def Dev.stamp (d : Dev) (l crs tick fine : Nat) (sys : Bool) : Dev :=
  let arm := if l < 32 then EVL_TS_ARM_LO.ARM_LO else EVL_TS_ARM_HI.ARM_HI
  if !d.bit arm 0 0 (l % 32) then d
  else
    let d := (d.clrBit arm 0 0 (l % 32)).setPair EVL_TSn_LO.CRS_LO EVL_TSn_HI.CRS_HI l 0 crs
    ((d.set EVL_TSn_POS.SYS l 0 (if sys then 1 else 0)).set EVL_TSn_POS.FINE l 0 fine).set EVL_TSn_POS.TICK l 0 tick

/-! ### System events -/

/-- The device tells the root of a late or lost firing (R143): a CONTROL payload of kind 6 (log entry 83, DEDUCED). -/
def Dev.lateNotice (d : Dev) (id : Nat) : Dev :=
  if d.isMember then d.publish 6 [id] else d

/-- A system firing that is late or lost (R143). -/
def Dev.sysLate (d : Dev) (id : Nat) : Dev :=
  (((d.count EVS_LATE.COUNT).set EVS_LATE.LAST_ID 0 0 id).fire 3).lateNotice id

/-- The line that `EVS_MAP` gives an ID, if its entry is enabled. -/
def Dev.mapLine (d : Dev) (id : Nat) : Option Nat :=
  if id % 2 = 0 then (if d.flag EVS_MAP.EN_EVEN (id / 2) then some (d.get EVS_MAP.LINE_EVEN (id / 2)) else none)
  else if d.flag EVS_MAP.EN_ODD (id / 2) then some (d.get EVS_MAP.LINE_ODD (id / 2)) else none

/-- A system event with landing joint m reaches the pending store of its line (R141 to R143, R37); it lands at joint `least` at the earliest. -/
def Dev.sysTake (d : Dev) (id m least : Nat) : Dev :=
  match d.mapLine id with
  | none => d
  | some l =>
    if 1024 ≤ (d.ev.waits.filter (fun w => w.sys.isSome)).length then (d.raise EVS_STAT.PEND_OVF).sysLate id
    else
      let late := m < least
      let land := max m least
      let d := { d with ev := { d.ev with waits := d.ev.waits ++ [⟨l, land, some id, (d.time.crs, d.time.tick)⟩] } }
      if late then ((d.raise EVS_STAT.LATE).raise CRS_STAT.SYS_LATE).sysLate id else d

/-- A system event with ID `id` for joint m is taken (R141 to R143): one that comes too late lands at the earliest joint that R32 allows. -/
def Dev.sysDeliver (d : Dev) (id m : Nat) : Dev := d.sysTake id m (d.time.crs + 2)

/-- A system event originated with landing distance L (R139, R141): its landing joint and the block after it. -/
def Dev.originate (d : Dev) (id l : Nat) : Nat × Dev :=
  let dist := if l = 0 then d.lmin else max l d.lmin
  let m := (d.time.crs + dist) % 2 ^ 64
  let rec_ : Seen := ⟨d.get RING_ID.INDEX, d.ev.seqNo, id, m⟩
  let d := d.raiseIf (l ≠ 0 && l < d.lmin) EVS_STAT.L_RAISED
  let d := d.setPair EVS_LAND_LO.LAND_LO EVS_LAND_HI.LAND_HI 0 0 m
  let sent := if d.isMember || d.isRoot then [(0, rec_), (1, rec_)] else []
  let d := { d with ev := { d.ev with
    origs := d.ev.origs + 1
    seqNo := (d.ev.seqNo + 1) % 256
    seen := d.ev.seen ++ [rec_]
    out := d.ev.out ++ sent } }
  (m, d.sysDeliver id m)

/-- A firing on SYS_TXx (R122, R139, R144, R145); the second component says whether it was dropped. -/
def Dev.sysTx (d : Dev) (x : Nat) (slots : List (Nat × Nat)) : Dev × Bool :=
  if !d.flag EVS_TXx.EN x then (d, false)
  else if d.islanded then (d.raise EVS_STAT.REFUSED, false)
  else if d.ev.txBusy.contains x || 4 ≤ d.ev.origs then (d.overrun slots, true)
  else
    let d := (d.originate (d.get EVS_TXx.ID x) (d.get EVS_TXx.L x)).2
    ({ d with ev := { d.ev with txBusy := d.ev.txBusy ++ [x] } }, false)

/-! ### Consumers that are not sequencer inputs -/

/-- A consumer acts (R122): `at_` is the instant in 1/256 tick that R146 would record (R265). The second component says
whether the firing was dropped. -/
def Dev.consume (d : Dev) (code : Nat) (at_ : Int) (slots : List (Nat × Nat)) : Dev × Bool :=
  if 1 ≤ code && code ≤ 8 then
    if d.bit HP_EVIRQ.PEND 0 0 (code - 1) then (d.overrun slots, true)
    else ((d.setBit HP_EVIRQ.PEND 0 0 (code - 1)).vector (10 + (code - 1)), false)
  else if code = 0x10 then
    if d.ev.clerkIrq then (d.overrun slots, true) else ({ d with ev := { d.ev with clerkIrq := true } }, false)
  else if code = 0x11 then (d.wake 1, false)
  else if code = 0x12 then (d.assertHalt 1, false)
  else if 0x20 ≤ code && code < 0x30 then d.sysTx (code - 0x20) slots
  else if 0x30 ≤ code && code < 0x40 then
    let e := d.benchTx (code - 0x30) slots
    (e, d.flag BB_TXx_0.BUSY (code - 0x30) || (d.flag BB_STAT.STOPPED && !e.flag BB_TXx_0.BUSY (code - 0x30)))
  else match chCons code with
    | some (n, i) => if 8 ≤ i then d.capTrigger n (i - 8) at_ slots else (d, false)
    | none => (d, false)

/-! ### Local fast jumps -/

/-- What the playing course does on tick t to the channel's visible state, as laid. -/
def Chan.fxAt (c : Chan) (t : Nat) : List Fx :=
  match c.cur with
  | none => []
  | some e => (e.fx.filter (fun x => x.1 = t)).map (·.2)

/-- The jump phase in force at the decision instant (R133, R135): what lands at a joint has already set it to 0 there. -/
def Dev.phiNow (d : Dev) (n : Fin 8) : Nat :=
  let t := d.time.tick
  let lags := (d.chs[n].fragOn (d.time.crs, t)).any (fun f => f.t0 = t && f.what ≠ .run && f.phi ≠ 0)
  if (d.chs[n].fxAt t).contains (.phi 0) && !lags then 0 else d.get FJ_LASTn.PHASE n

/-- The held events of channel n at the start of the present tick (R99), as a mask of the jump inputs. -/
def Dev.pendNow (d : Dev) (n : Fin 8) : Nat :=
  (d.chs[n].fxAt d.time.tick).foldl (fun p f => match f with | .pend jmps _ => jmps | _ => p) (d.get SEQ_PEND.JMP n)

/-- Where a fast jump cuts: course, tick and jump phase (R132, R133, R633). -/
def Dev.cutPlace (d : Dev) (n : Fin 8) (s : Src) : Nat × Nat × Nat :=
  if s.trig then
    let k := (s.fine + 8) / 16
    let p := d.placeOn s.crs s.tick (6 + k / 16)
    (p.1, p.2, k % 16)
  else
    let p := if s.soft then d.placeOn s.capCrs s.cap 5 else d.placeOn s.crs s.tick 6
    (p.1, p.2, d.phiNow n)

/-- The tick from which the channel's jump inputs take fast firings again: the first that begins at least 32 ticks after the cut
(R137). -/
def Dev.busyEnd (d : Dev) (p : Nat × Nat × Nat) : Nat :=
  (d.instant p.1 p.2.1 0 / 256).toNat + 32 + (if p.2.2 = 0 then 0 else 1)

/-- The playing course and the entries of channel n laid again for its fast jump, from the cut on (R38, R136); a cut that another
merging line moves takes the place of `old`. -/
def Dev.layCut (d : Dev) (m : Memory) (n : Fin 8) (old : Option FastJump) (j : FastJump) : Dev :=
  match d.chs[n].cur with
  | none => d
  | some e =>
    let stood := (old.toList ++ [j]).filter (fun x => x.crs = e.crs)
    match stood with
    | [] => (d.layAgain m n (min j.crs ((old.map (·.crs)).getD j.crs))).1
    | x :: xs =>
      let rest := e.cuts.filter (fun y => old ≠ some y)
      let cuts := if j.crs = e.crs then insertCut j rest else rest
      (d.relayPlaying m n cuts (xs.foldl (fun t y => min t y.tick) x.tick)).relayRest m n

/-- The decision of a fast jump lays the queue again, and that one re-lay counts (R31, R34, R38). -/
def Dev.cutRelay (d : Dev) (m : Memory) (n : Fin 8) (j : FastJump) : Dev :=
  let d := d.layCut m n none j
  if d.chs[n].laid.isEmpty then d else d.recordRelay n (relayBound d.chs[n].laid)

/-- A firing held on a jump input of the playing sequencer at its consumer tick; the steps entered after it see it (R98, R99,
R137). -/
def Dev.holdJump (d : Dev) (m : Memory) (n : Fin 8) (j : Nat) (a : Act) (place : Nat × Nat) : Dev :=
  let d := d.setBit SEQ_PEND.JMP n 0 j
  match d.chs[n].cur with
  | none => d
  | some e =>
    if place.1 = e.crs then
      let h : FastJump := { act := a, target := 0, tick := place.2, phi := 0, crs := place.1, hold := some j }
      (d.relayPlaying m n (insertCut h e.cuts) place.2).followHold m n
    else
      (d.onCh n (fun c => { c with cur := some { e with after := { e.after with heldJ := e.after.heldJ ++ [(j, a)] } } })).followHold m n

/-- The step that plays on channel n at the start of a tick: where a pass begins inside the tick, the step before it (R131,
R135). -/
def Chan.stepOn (c : Chan) (place : Nat × Nat) : Option Nat :=
  let ofFrag := fun (f : Frag) => if f.what = Content.run then some f.step else none
  match c.fragOn place with
  | none => none
  | some f => if f.phi ≠ 0 && f.ofs + (place.2 - f.t0) = 0 then c.now.bind ofFrag else ofFrag f

/-- Step i as the lay of the playing course read it, at a place of it (R66). -/
def Dev.laidStep (d : Dev) (m : Memory) (n : Fin 8) (i : Nat) (place : Nat × Nat) : Step :=
  let e := d.chs[n].entries.find? (fun e => e.crs = place.1)
  let read := e.bind (fun e =>
    let k := (e.cuts.filter (fun j => j.hold.isNone && j.tick < place.2)).length
    (e.reads.filter (fun r => r.at_ = i && r.cuts ≤ k)).getLast?)
  match read with
  | some r => r.step
  | none => readStep m n i

/-- Jump input j has an event accepted and not yet taken effect, at a place of the playing course (R97). -/
def Dev.jumpPending (d : Dev) (n : Fin 8) (j : Nat) (place : Nat × Nat) : Bool :=
  let c := d.chs[n]
  let landed := match c.cur with
    | none => false
    | some e => (e.before.waiting.map (·.1) ++ e.acts).any (fun a => a.kind = .jump j
        && !e.fx.any (fun x => decide (x.1 ≤ place.2) && (x.2 = .took a || x.2 = .dropped a false || x.2 = .dropped a true)))
  c.acts.any (fun x => x.kind = .jump j) || landed || bitAt (d.pendNow n) j

/-- A local firing reaches JMPj of channel n on its consumer tick (R131, R137): the action it became and whether it was
dropped. -/
def Dev.localJump (d : Dev) (m : Memory) (n : Fin 8) (j l : Nat) (slots : List (Nat × Nat)) (src : Src)
    (place : Nat × Nat) : Dev × Nat × Bool :=
  let c := d.chs[n]
  let seq := d.actSeq
  let s := (c.stepOn place).map (fun i => d.laidStep m n i place)
  let r := d.restartRing
  let a : Act := { kind := .jump j, org := .line l, land := place.1 + 2, acc := place.1, seq := seq, grp := none, stale := false, slots := slots, ring := r.1 }
  let asJoint : Dev × Nat × Bool := (d.addAct n (.jump j) (.line l) (place.1 + 2) place.1 slots, seq, false)
  match s with
  | none => asJoint
  | some s =>
    if !(s.jmpMode = 2 && s.enables j) then asJoint
    else if c.fjBusy.any (fun x => d.time.abs < x) then
      let pol := if j = 0 then d.get SEQ_TRIG.JMP0_POL n else if j = 1 then d.get SEQ_TRIG.JMP1_POL n
        else if j = 2 then d.get SEQ_TRIG.JMP2_POL n else d.get SEQ_TRIG.JMP3_POL n
      if pol = 1 && !bitAt (d.pendNow n) j then
        ({ r.2 with actSeq := seq + 1 }.holdJump m n j a place, seq, false)
      else (d.overrun slots, seq, true)
    else if d.jumpPending n j place then asJoint
    else
      let p := d.cutPlace n src
      let fj : FastJump := { act := a, target := s.target j, tick := p.2.1, phi := p.2.2, crs := p.1, hold := none }
      let d := { r.2 with actSeq := seq + 1 }.onCh n (fun c => { c with jump := some fj, fjBusy := some (d.busyEnd p) })
      (d.cutRelay m n fj, seq, false)

/-- Slots, and an earlier place in the order of R39, added to an action already taken (R119). -/
def Act.join (l : Nat) (slots : List (Nat × Nat)) (a : Act) : Act :=
  { a with slots := a.slots ++ slots, org := match a.org with | .line k => .line (min k l) | o => o }

/-- The action that a merged firing has become takes the slots and the place of line l; a fast jump is timed anew where the best
source has changed (R119, R633), and so is the trigger of a capture (R146, R265). -/
def Dev.mergeAct (d : Dev) (m : Memory) (l : Nat) (slots : List (Nat × Nat)) (t : Took) (best : Src) : Dev :=
  match chCons t.code, t.seq with
    | some (n, i), none => if 8 ≤ i then d.capMerge n (i - 8) (d.instant best.crs best.tick best.fine) slots else d
    | some (n, _), some seq =>
      let f := fun (a : Act) => if a.seq = seq then a.join l slots else a
      let d := d.onCh n (fun c => { c with
        acts := c.acts.map f
        cur := c.cur.map (fun e => { e with after := { e.after with heldJ := e.after.heldJ.map (fun h => (h.1, f h.2)) } }) })
      let d := match d.chs[n].cur.bind (fun e => e.cuts.find? (fun x => x.hold.isSome && x.act.seq = seq)), d.chs[n].cur with
        | some h, some e => d.relayPlaying m n (e.cuts.map (fun x => if x = h then { x with act := f x.act } else x)) h.tick
        | _, _ => d
      let held := d.chs[n].cur.any (fun e => e.after.heldJ.any (fun h => h.2.seq = seq))
      let d := if held then d.followHold m n else d
      match d.chs[n].jump with
      | some j =>
        if j.act.seq ≠ seq then d
        else
          let p := d.cutPlace n best
          let fj := { j with act := f j.act, tick := p.2.1, phi := p.2.2, crs := p.1 }
          (d.onCh n (fun c => { c with jump := some fj, fjBusy := some (d.busyEnd p) })).layCut m n (some j) fj
      | none => d
    | _, _ => d

/-- A firing on another line merges with one that the consumer took on the same tick (R119, R633); dropped, it is reported for
each of its lines (R129). -/
def Dev.merge (d : Dev) (m : Memory) (l : Nat) (slots : List (Nat × Nat)) (src : Src) (t : Took) : Dev :=
  if t.lost then d.overrun slots
  else
    let best := (d.bestSrc [t.src, src]).getD t.src
    let d := { d with ev := { d.ev with took := d.ev.took.map (fun x => if x = t then { x with src := best } else x) } }
    d.mergeAct m l slots t best

/-! ### A line fires -/

/-- The consumer is a jump input of a channel. -/
def isJump (code : Nat) : Bool := (chCons code).any (fun x => 3 ≤ x.2 && x.2 ≤ 6)

/-- Whether a slot takes a local firing on the consumer tick (R118, R123, R124). -/
def takesNow (r : Nat × Nat × Bool) : Bool :=
  !((chCons r.2.1).any (fun x => x.2 ≤ 2)) && !clockless r.2.1 && (!r.2.2 || isJump r.2.1 || alwaysNow r.2.1)

/-- The consumers that a line's firing reaches on the consumer tick, each with the line's slots that name it. -/
def Dev.consumersNow (d : Dev) (l : Nat) : List (Nat × List (Nat × Nat)) :=
  let rs := (d.routes l).filter takesNow
  ((rs.map (·.2.1)).eraseDups).map (fun code => (code, (rs.filter (fun r => r.2.1 = code)).map (fun r => (l, r.1))))

/-- A local firing of a line reaches one of its consumers on the consumer tick (R119, R123, R124). -/
def Dev.localConsumer (m : Memory) (f : Fired) (d : Dev) (r : Nat × List (Nat × Nat)) : Dev :=
  let (code, slots) := r
  match d.ev.took.find? (fun t => t.code = code && t.place = f.place) with
  | some t => d.merge m f.line slots f.src t
  | none =>
    let p : Dev × Option Nat × Bool := match chCons code with
      | some (n, i) =>
        if isJump code then (fun q => (q.1, some q.2.1, q.2.2)) (d.localJump m n (i - 3) f.line slots f.src f.place)
        else (fun q => (q.1, none, q.2)) (d.consume code (d.instant f.src.crs f.src.tick f.src.fine) slots)
      | none => (fun q => (q.1, none, q.2)) (d.consume code (d.instant f.src.crs f.src.tick f.src.fine) slots)
    let t : Took := { code := code, place := f.place, seq := p.2.1, lost := p.2.2, src := f.src }
    { p.1 with ev := { p.1.ev with took := p.1.ev.took ++ [t] } }

/-- A captured firing reaches its consumers on the consumer tick (R123). -/
def Dev.firedNow (m : Memory) (d : Dev) (f : Fired) : Dev :=
  let d := { d with ev := { d.ev with took := d.ev.took.filter (fun t => t.place = f.place) } }
  (d.consumersNow f.line).foldl (Dev.localConsumer m f) d

/-- A firing put where its line's number places it among those that wait (R119). -/
def insertFired (f : Fired) : List Fired → List Fired
  | [] => [f]
  | g :: r => if f.due < g.due || (f.due = g.due && f.line < g.line) then f :: g :: r else g :: insertFired f r

/-- The firings whose consumer tick has come reach their consumers, the lowest line first. -/
def Dev.firedDue (d : Dev) (m : Memory) : Dev :=
  let now := d.ev.fired.filter (fun f => f.due ≤ d.time.abs)
  now.foldl (Dev.firedNow m) { d with ev := { d.ev with fired := d.ev.fired.filter (fun f => d.time.abs < f.due) } }

/-- A line fires on its capture tick from its sources there (R118, R123, R146): WAKE and HALT_REQ act, the firing waits for its
consumer tick, and a JOINT firing waits in the line. -/
def Dev.lineFire (d : Dev) (m : Memory) (l : Nat) : Dev :=
  let bare := (d.routes l).foldl (fun d r => if r.2.1 = 0x11 then d.wake 1 else if r.2.1 = 0x12 then d.assertHalt 1 else d)
  let mine := d.ev.srcs.filter (fun s => s.line = l)
  match mine with
  | [] => d
  | s0 :: _ =>
    if !d.ticking then
      let d := { d with ev := { d.ev with srcs := d.ev.srcs.filter (fun s => s.line ≠ l) } }
      let lost := d.asleep && (d.routes l).any (fun r => !clockless r.2.1)
      bare (if !lost then d else if l < 32 then d.setBit EVL_SLEEP_LO.SEEN_LO 0 0 l else d.setBit EVL_SLEEP_HI.SEEN_HI 0 0 (l - 32))
    else
      let first := mine.foldl (fun (a : Nat × Nat) s =>
        if s.capCrs < a.1 || (s.capCrs = a.1 && s.cap < a.2) then (s.capCrs, s.cap) else a) (s0.capCrs, s0.cap)
      let now := mine.filter (fun s => (s.capCrs, s.cap) = first)
      let place := d.placeOn first.1 first.2 1
      let due := (d.instant first.1 first.2 0 / 256).toNat + 1
      let d := { d with ev := { d.ev with srcs := d.ev.srcs.filter (fun s => !(s.line = l && (s.capCrs, s.cap) = first)) } }
      match d.bestSrc now with
      | none => d
      | some src =>
        let d := d.stamp l src.crs src.tick src.fine false
        let d := bare { d with ev := { d.ev with fired := insertFired ⟨l, src, due, place⟩ d.ev.fired } }
        let d := d.firedDue m
        { d with ev := { d.ev with waits := d.ev.waits ++ [⟨l, place.1 + 2, none, place⟩] } }

/-! ### Time passes inside a course -/

/-- One tick passes inside a course: the firings whose consumer tick it is act, then it plays. -/
def Dev.tickOn (d : Dev) (m : Memory) : Dev :=
  ({ d with time := { d.time with tick := d.time.tick + 1, abs := d.time.abs + 1 } }.firedDue m).playTick m

/-- The rest of the playing course's ticks pass, up to k of them. -/
def Dev.finishCourse (m : Memory) : Nat → Dev → Dev
  | 0, d => d
  | k + 1, d => if d.ticking && d.time.tick + 1 < d.time.clen then Dev.finishCourse m k (d.tickOn m) else d

/-- Ticks pass up to tick `at_`, counted from the first lock, as far as the course goes. -/
def Dev.playUpTo (d : Dev) (m : Memory) (at_ : Nat) : Dev := Dev.finishCourse m (at_ - d.time.abs) d

/-! ### Joint delivery -/

/-- The firings that line waits bring to one consumer at the joint before their landing joint: the origin and the slots, a
system firing merged at the lowest ID (R142), local firings of one consumer tick at the lowest line (R119). -/
def Dev.arrivals (d : Dev) (code : Nat) (ws : List Wait) : List (Origin × List (Nat × Nat)) :=
  let i := (chCons code).map (·.2)
  let slotsOf := fun (w : Wait) => ((d.routes w.line).filter (fun r => r.2.1 = code
    && (w.sys.isSome && !(0x20 ≤ code && code < 0x30)
      || w.sys.isNone && !alwaysNow code && !isJump code && (r.2.2 || i.any (fun i => i ≤ 2))))).map
    (fun r => (w.line, r.1))
  let hit := ws.filter (fun w => !(slotsOf w).isEmpty)
  let sys := hit.filter (fun w => w.sys.isSome)
  let ids := sys.filterMap (·.sys)
  let s := match ids with
    | [] => []
    | x :: xs => [(Origin.sys (xs.foldl min x), (sys.flatMap slotsOf).eraseDups)]
  let loc := hit.filter (fun w => w.sys.isNone)
  let places := (loc.map (·.at_)).eraseDups
  s ++ places.map (fun p =>
    let g := loc.filter (fun w => w.at_ = p)
    (Origin.line ((g.map (·.line)).foldl min 63), (g.flatMap slotsOf).eraseDups))

/-- The place of a firing among those that land at one joint: system events by ID, then local lines (R39, R142). -/
def Origin.rank : Origin → Nat
  | .sys id => id
  | .line l => 4096 + l
  | _ => 8192

/-- A consumer that acts at a later joint, put behind those that act before it there (R142). -/
def insertDue (x : Due) : List Due → List Due
  | [] => [x]
  | y :: r => if x.ord < y.ord then x :: y :: r else y :: insertDue x r

/-- A consumer outside the sequencers waits for its joint (R124). -/
def Dev.later (d : Dev) (x : Due) : Dev := { d with ev := { d.ev with due := insertDue x d.ev.due } }

/-- The firings that land at joint `land`, this one or the next, are delivered through the routes in force (R124, R141): sequencer inputs take
them into the batch that closes at this joint, other consumers act at joint `land`. -/
def Dev.resolveAt (d : Dev) (land : Nat) : Dev :=
  let c := d.time.crs
  let ws := d.ev.waits.filter (fun w => w.land = land)
  let d := { d with ev := { d.ev with waits := d.ev.waits.filter (fun w => w.land ≠ land) } }
  let codes := ((ws.flatMap (fun w => (d.routes w.line).map (·.2.1)))).eraseDups
  let d := codes.foldl (fun d code =>
    (d.arrivals code ws).foldl (fun d x =>
      match chCons code with
      | some (n, i) =>
        if i = 0 then d.addAct n .start x.1 land (c - 1) x.2
        else if i = 1 then d.addAct n .stop x.1 land (c - 1) x.2
        else if i = 2 then d.addAct n .snap x.1 land (c - 1) x.2
        else if i ≤ 6 then d.addAct n (.jump (i - 3)) x.1 land (c - 1) x.2
        else d.later ⟨code, land, x.1.rank, x.2⟩
      | none => d.later ⟨code, land, x.1.rank, x.2⟩) d) d
  let lines := (ws.filter (fun w => w.sys.isSome)).map (fun w => (w.line, land))
  { d with ev := { d.ev with sysDue := d.ev.sysDue ++ lines } }

/-- At joint c the consumers outside the sequencers act on what lands there in the order of the firings, and the lines that system events fire there
take their timestamps (R142, R146). -/
def Dev.landDue (d : Dev) : Dev :=
  let c := d.time.crs
  let now := d.ev.due.filter (fun x => x.land = c)
  let lines := (d.ev.sysDue.filter (fun x => x.2 = c)).map (·.1)
  let d := { d with ev := { d.ev with
    due := d.ev.due.filter (fun x => x.land ≠ c)
    sysDue := d.ev.sysDue.filter (fun x => x.2 ≠ c)
    origs := 0
    txBusy := []
    seen := d.ev.seen.filter (fun s => c ≤ s.land) } }
  let d := lines.foldl (fun d l => d.stamp l c 0 0 true) d
  now.foldl (fun d x => (d.consume x.code ((d.time.abs * 256 : Nat) : Int) x.slots).1) d

/-! ### The meanings of this family -/

/-- An active edge on TRIGn is timed and fires its producer (R127, R128). While the tick clock stands still the model has no time,
and a free bit says whether an edge follows the last accepted one by less than 8 ns (log entry 1). -/
def Dev.trigTake (d : Dev) (n : Fin 8) (rising : Bool) (fine widthPs : Nat) : Dev :=
  let active := d.bit TRIG_CTRL.EN 0 0 n && (d.bit TRIG_CTRL.EDGE 0 0 n ≠ rising) && 2000 ≤ widthPs
  let at_ := d.time.abs * 256 + fine
  let last := d.ev.trigLast.getD n none
  let p : Bool × Dev := if !active then (false, d)
    else if d.ticking then (last.any (fun x => at_ < x + 512), d)
    else if last.isSome then d.freeBit else (false, d)
  let d := p.2
  if !active || p.1 then d
  else
    let cap := d.tickAfter (if fine = 0 then 1 else 2)
    let new := (d.linesOf (0x20 + n)).map (fun l =>
      (⟨l, d.time.crs, d.time.tick, fine, cap.1, cap.2, true, false⟩ : Src))
    { d with ev := { d.ev with srcs := d.ev.srcs ++ new, trigLast := d.ev.trigLast.set n (some at_) } }

/-- An edge on TRIGn. One in the last 2 µs of an entry into SLEEP is lost (R627): during an entry a free bit says whether it
falls there. -/
def Dev.trigEdge (d : Dev) (n : Fin 8) (rising : Bool) (fine widthPs : Nat) : Dev :=
  if d.power.entry = some 2 then
    let b := d.freeBit
    if b.1 then b.2 else b.2.trigTake n rising fine widthPs
  else d.trigTake n rising fine widthPs

/-- `TRIG_EDGE` (R128). -/
def execTrigEdge (n : Fin 8) (rising : Bool) (fine : Fin 256) (widthPs : Nat) (s : State) : Host.Outcome State Fault Refusal :=
  .next (s.withDev (s.dev.trigEdge n rising fine widthPs))

/-- `LINE_FIRE` (R118). -/
def execLineFire (l : Fin 64) (s : State) : Host.Outcome State Fault Refusal := .next (s.withDev (s.dev.lineFire s.mem l))

/-- `FAST_JUMP_CUT` (R132): the course plays on to the cut, where the target begins; a jump dropped before it, or whose
cut's course has not begun, leaves the block as it is (R138). -/
def Dev.jumpCut (d : Dev) (m : Memory) (n : Fin 8) : Dev :=
  match d.chs[n].jump with
  | none => d
  | some j =>
    if j.crs < d.time.crs then d.onCh n (fun c => { c with jump := none })
    else if d.time.crs < j.crs then d
    else
      let d := Dev.finishCourse m (j.tick - d.time.tick) d
      let cut := (d.chs[n].cur).any (fun e => e.fx.any (fun x => x.2 = .took j.act))
      let d := d.onCh n (fun c => { c with jump := none })
      if cut then (d.raise FJ_LASTn.CUT n).set FJ_LASTn.TICK n 0 j.tick else d

/-- `FAST_JUMP_CUT`. -/
def execFastJumpCut (n : Fin 8) (s : State) : Host.Outcome State Fault Refusal := .next (s.withDev (s.dev.jumpCut s.mem n))

/-- The jump inputs of channel n take fast firings again (R137): ticks pass up to the 32nd after the cut, as far as the course
goes; where that tick has not come, they stay busy. -/
def Dev.jumpBusyEnd (d : Dev) (m : Memory) (n : Fin 8) : Dev :=
  match d.chs[n].fjBusy with
  | none => d
  | some x =>
    let d := d.playUpTo m x
    if d.time.abs < x then d else d.onCh n (fun c => { c with fjBusy := none })

/-- `FAST_JUMP_BUSY_END` (R137) (log entry 82, DESIGN CHOICE). -/
def execFastJumpBusyEnd (n : Fin 8) (s : State) : Host.Outcome State Fault Refusal :=
  .next (s.withDev (s.dev.jumpBusyEnd s.mem n))

/-- The selected lines fire on the next tick (R126). -/
def Dev.evlFire (d : Dev) (lines : Nat) : Dev :=
  let cap := d.tickAfter 1
  let new := ((List.range 64).filter (fun l => bitAt lines l)).map (fun l => (⟨l, cap.1, cap.2, 0, cap.1, cap.2, false, true⟩ : Src))
  { d with ev := { d.ev with srcs := d.ev.srcs ++ new } }

/-- `EVL_FIRE_WRITE` (R126). -/
def execEvlFireWrite (lines : BitVec 64) (s : State) : Host.Outcome State Fault Refusal :=
  .next (s.withDev (s.dev.evlFire lines.toNat))

/-- `EVL_SRC_WRITE` (R120). -/
def execEvlSrcWrite (l : Fin 64) (r : Fin 4) (w : BitVec 32) (s : State) : Host.Outcome State Fault Refusal :=
  .next (s.withDev (s.dev.srcWrite l r w.toNat))

/-- `EVL_DST_WRITE` (R120, R124). -/
def execEvlDstWrite (l : Fin 64) (r : Fin 8) (w : BitVec 32) (s : State) : Host.Outcome State Fault Refusal :=
  .next (s.withDev (s.dev.dstWrite l r w.toNat))

/-- `EVS_FIRE` written (R139, R144, R145). -/
def Dev.evsFire (d : Dev) (w : Nat) : Dev :=
  if d.islanded then d.raise EVS_STAT.REFUSED
  else if 4 ≤ d.ev.origs then d.raise EVS_STAT.RATE
  else (d.originate (bitsOf w 0 12) (bitsOf w 16 8)).2

/-- `EVS_FIRE_WRITE`. -/
def execEvsFireWrite (w : BitVec 32) (s : State) : Host.Outcome State Fault Refusal := .next (s.withDev (s.dev.evsFire w.toNat))

/-- `EVENT_CELL_INSERT` (R414): the oldest origination that waits for this port leaves in an EVENT cell (R413). -/
def Dev.cellInsert (d : Dev) (port : Nat) : Dev :=
  match d.ev.out.find? (fun x => x.1 = port) with
  | none => d
  | some x =>
    let e := x.2
    let d := { d with ev := { d.ev with out := d.ev.out.erase x } }
    d.sendCell port 0xFB (octets 7 (e.orig * 2 ^ 46 + e.seq * 2 ^ 38 + e.id * 2 ^ 26 + e.land % 2 ^ 16 * 2 ^ 10)) false

/-- `EVENT_CELL_INSERT`. -/
def execEventCellInsert (port : Fin 2) (s : State) : Host.Outcome State Fault Refusal := .next (s.withDev (s.dev.cellInsert port))

/-- A received EVENT cell (R141, R145): a second copy is discarded, and an islanded device delivers none; a joining one keeps it for its
admission (R426). -/
def Dev.sysReceive (d : Dev) (orig seq id land : Nat) : Dev :=
  let e : Seen := ⟨orig, seq, id, land⟩
  if d.get RING_STAT.STATE = 2 then { d with ring := { d.ring with earlyEv := d.ring.earlyEv ++ [(orig, seq, id, land % 65536)] } }
  else if d.islanded || !(d.isMember || d.isRoot) || d.ev.seen.contains e then d
  else if land < d.ring.takeFrom then d
  else { d with ev := { d.ev with seen := d.ev.seen ++ [e] } }.sysDeliver id land

/-- `SYS_EVENT_RECEIVE` (R141). -/
def execSysEventReceive (orig : BitVec 10) (seq : BitVec 8) (id : BitVec 12) (land : BitVec 64) (s : State) :
    Host.Outcome State Fault Refusal :=
  .next (s.withDev (s.dev.sysReceive orig.toNat seq.toNat id.toNat land.toNat))

/-- `LATE_NOTICE_RECEIVE` (R143): the root alone acts on it. -/
def execLateNoticeReceive (id : BitVec 12) (s : State) : Host.Outcome State Fault Refusal :=
  let _ := id
  if s.dev.isRoot then .next (s.withDev ((s.dev.raise EVS_STAT.REMOTE_LATE).fire 3)) else .next s

/-- `HP_EVIRQ_ACK` (R515). -/
def execHpEvirqAck (w : BitVec 8) (s : State) : Host.Outcome State Fault Refusal :=
  .next (s.withDev (s.dev.set HP_EVIRQ.PEND 0 0 (s.dev.get HP_EVIRQ.PEND &&& (255 - w.toNat))))

end Sys2Proof.Machine
end

