-- ==== Sys2Proof/Machine/Course.lean ====
section
/-!
DEFINITION. Commands of the course grid, the clocks, the course queue and the sequencer registers (chapters 01, 02), but for
the joint itself.
-/
namespace Sys2Proof.Machine
open Reg

/-! ### Refused bus requests (R489, R490) -/

/-- A refused request is counted, recorded while nothing is, and its vector sent. Causes: 1 CROSS, 2 SIZE, 3 POISON, 4
NO_ANSWER. -/
def Dev.refuse (d : Dev) (cause : Nat) (write : Bool) (bar off : Nat) : Dev :=
  let d := if d.flag REG_ERR.VALID then d
    else
      let d := ((d.raise REG_ERR.VALID).set REG_ERR.CAUSE 0 0 cause).set REG_ERR.WRITE 0 0 (if write then 1 else 0)
      (d.set REG_ERR.BAR 0 0 bar).set REG_ERR_ADDR.OFFSET 0 0 off
  (d.count REG_ERR.COUNT).vector 26

/-! ### Course length and counter -/

/-- The lock of `CRS_LEN` is open (R17). -/
def Dev.lenOpen (d : Dev) : Bool :=
  let st := d.get RING_STAT.STATE
  d.allIdle && (st = 0 || st = 1 || (st = 4 && (d.get RING_ROSTER.N ≤ 1 || d.ring.membersIdle)))

/-- The minimum landing distance of n members (R140). -/
def lminOf (n len : Nat) : Nat := if n < 2 then 2 else 2 + ((40 * (n - 1) + 240) * 2 + 7 * len - 1) / (7 * len)

/-- A new length taken, with its joint (R18); the root publishes it and the L_min that goes with it for the members that the roster then
has, those about to be admitted counted (R140, R437). -/
def Dev.lenAccept (d : Dev) (v : Nat) : Dev :=
  let land := if d.isRoot then d.time.crs + d.lmin else d.time.crs + 2
  let d := { d with time := { d.time with lenPend := some (v, land, d.time.crs) } }.raise CRS_CTRL.LEN_PEND
  if d.isRoot then
    let l := (lminOf (d.get RING_ROSTER.N + d.ring.adds.length) v, land)
    ({ d with ring := { d.ring with lmins := d.ring.lmins ++ [l] } }.publish 1 [v, land]).publish 3 [l.1, land]
  else d

/-- Whether a length is legal (R15). -/
def lenLegal (v : Nat) : Bool := 64 ≤ v && v ≤ 16384 && v % 16 = 0

/-- `CRS_LEN` written (R16 to R18). -/
def Dev.lenWrite (d : Dev) (v : Nat) : Dev :=
  if !lenLegal v || !d.lenOpen || d.flag CRS_CTRL.LEN_PEND then d.raise CRS_STAT.LEN_REJ else d.lenAccept v

/-- `CRS_LEN_WRITE`. -/
def execCrsLenWrite (w : BitVec 32) (s : State) : Host.Outcome State Fault Refusal :=
  .next (s.withDev (s.dev.lenWrite (w.toNat % 65536)))

/-- The shadow of a requester. -/
def Dev.shadow (d : Dev) (r : Requester) : Shadow :=
  match r with | .host => d.time.host | .clerk => d.time.clerk | .i2c => d.time.i2c

/-- The shadow of a requester changed. -/
def Dev.onShadow (d : Dev) (r : Requester) (f : Shadow → Shadow) : Dev :=
  match r with
  | .host => { d with time := { d.time with host := f d.time.host } }
  | .clerk => { d with time := { d.time with clerk := f d.time.clerk } }
  | .i2c => { d with time := { d.time with i2c := f d.time.i2c } }

/-- The shadow that a read latches: an I2C read in the same core cycle as a 4-byte host read of the register latches the host's, and
the I2C shadow keeps what it held (R25, R618). -/
def latched (r : Reader) : Requester := if r.who = .i2c && r.shared then .host else r.who

/-- A narrow read of `CRS_NOW_LO` latches the requester's shadow (R24, R25). -/
def Dev.latchNow (d : Dev) (r : Requester) : Dev :=
  d.onShadow r (fun x => { x with hi := d.time.crs / 2 ^ 32, tick := d.time.tick, clen := d.time.clen })

/-- A read of `BB_TOD_CRS_LO` latches the rest of the bench-time record into the requester's shadow (R479). -/
def Dev.latchTod (d : Dev) (r : Requester) : Dev :=
  d.onShadow r (fun x => { x with tod := [d.get BB_TOD_CRS_HI.CRS_HI, d.get BB_TOD_SEC_LO.SEC_LO, d.get BB_TOD_SEC_HI.SEC_HI,
    d.get BB_TOD_NS.NS] })

/-- `CRS_NOW_READ` (R24, R618): the answer is the low word. -/
def execCrsNowRead (r : Reader) (s : State) : Host.Outcome State Fault Refusal :=
  let d := s.dev.latchNow (latched r)
  .next (s.withDev { d with reply := { data := leBytes 4 (d.time.crs % 2 ^ 32) } })

/-- `BB_TOD_READ` (R479, R618): the low word of the record's course, and the rest of the record into the shadow. -/
def execBbTodRead (r : Reader) (s : State) : Host.Outcome State Fault Refusal :=
  let d := s.dev.latchTod (latched r)
  .next (s.withDev { d with reply := { data := leBytes 4 (d.get BB_TOD_CRS_LO.CRS_LO) } })

/-! ### SYNC_IN -/

/-- The joint whose capture window holds a place of the present course, with the offset in 1/256 tick (R48)
(log entry 78, DESIGN CHOICE). -/
def Dev.syncWindow (d : Dev) (fine : Nat) : Option (Nat × Int) :=
  let w := d.get CRS_LEN.LEN / 8 * 256
  let pos := d.time.tick * 256 + fine
  let left := d.time.clen * 256 - pos
  if pos ≤ w then some (d.time.crs, (pos : Int))
  else if left ≤ w then some (d.time.crs + 1, -(left : Int))
  else none

/-- An accepted edge at joint j with this offset (R47, R49, R50, R52). -/
def Dev.syncAccept (d : Dev) (j : Nat) (ofs : Int) : Dev :=
  let e := (ofs + 128) / 256
  let on := d.flag SYNC_CTRL.EN
  let land := if d.isRoot then j + d.lmin else j + 2
  let d := ((d.set SYNC_LAST.SHIFT 0 0 (unsigned 16 e)).set SYNC_LAST.RESID 0 0 (unsigned 8 (ofs - 256 * e))).set
    SYNC_LAST.MOVED 0 0 (if on then 1 else 0)
  let d := d.set SYNC_LAST.SYS 0 0 (if on && d.isRoot then 1 else 0)
  let d := (d.setPair SYNC_CRS_LO.CRS_LO SYNC_CRS_HI.CRS_HI 0 0 land).countWrap SYNC_CNT.ACCEPT
  let d := { d with time := { d.time with winUsed := some j } }.fire 2
  if !on then d
  else
    let d := { d with time := { d.time with shifts := d.time.shifts ++ [(land, e, d.time.crs)] } }
    if d.isRoot then d.publish 2 [unsigned 16 e, land] else d

/-- An active SYNC_IN edge (R47 to R52). -/
def Dev.syncEdge (d : Dev) (rising : Bool) (fine widthPs : Nat) : Dev :=
  if !d.ticking || widthPs < 2000 || d.flag SYNC_CTRL.EDGE = rising then d
  else if d.isMember then (d.raise CRS_STAT.SYNC_IGN).countWrap SYNC_CNT.REJECT
  else match d.syncWindow fine with
    | none => (d.raise CRS_STAT.SYNC_OOW).countWrap SYNC_CNT.REJECT
    | some (j, ofs) =>
      if d.time.winUsed = some j then (d.raise CRS_STAT.SYNC_MULTI).countWrap SYNC_CNT.REJECT else d.syncAccept j ofs

/-- `SYNC_IN_EDGE` (R49). -/
def execSyncInEdge (rising : Bool) (fine : Fin 256) (widthPs : Nat) (s : State) : Host.Outcome State Fault Refusal :=
  .next (s.withDev (s.dev.syncEdge rising fine widthPs))

/-! ### Clocks -/

/-- The state of the ring changes (R419), with its notice (R516). -/
def Dev.ringState (d : Dev) (st : Nat) : Dev :=
  if d.get RING_STAT.STATE = st then d
  else
    let d := (d.set RING_STAT.STATE 0 0 st).notice 8 0xFF [st]
    d.set CRS_CTRL.SYS_MODE 0 0 (if st = 3 || st = 4 then 1 else 0)

/-- The PLL reference changes (R55). -/
def Dev.clkSrc (d : Dev) (src : Nat) : Dev :=
  if d.get CLK_STAT.SRC = src then d else (d.set CLK_STAT.SRC 0 0 src).raise CLK_STAT.SRC_CHG

/-- The upstream port: fewer hops, West at a tie (chapter 12, "Alignment"). -/
def Dev.upPort (d : Dev) : Nat := if d.get RING_Pp_STAT.HOPS 0 < d.get RING_Pp_STAT.HOPS 1 then 0 else 1

/-- The upstream port becomes the PLL reference; the 10 ms of R432 begin anew at a port that was not. -/
def Dev.follow (d : Dev) (p : Nat) : Dev :=
  let good := if d.flag RING_Pp_STAT.UP p then d.ring.good else 0
  let d : Dev := { d with ring := { d.ring with good := good, frozen := false } }
  ((d.set RING_Pp_STAT.UP p 0 1).set RING_Pp_STAT.UP (1 - p) 0 0).clkSrc (p + 1)

/-- Whether claim a wins over claim b: the higher priority, then the lower UID (R422). -/
def Claim.wins (a b : Claim) : Bool := b.prio < a.prio || (a.prio = b.prio && a.uid < b.uid)

/-- The other root candidates: those claims that have come, in a system those of its other members (R422, R423). -/
def Dev.rivals (d : Dev) : List Claim :=
  if d.get RING_STAT.STATE < 3 then d.ring.cands
  else d.ring.cands.filter (fun c => d.ring.roster.contains c.index && c.index ≠ d.get RING_ID.INDEX)

/-- The best of the other root candidates (R422). -/
def Dev.bestCand (d : Dev) : Option Claim :=
  match d.rivals with
  | [] => none
  | c :: cs => some (cs.foldl (fun a b => if b.wins a then b else a) c)

/-- `REF_LOSS` (R57): the root freezes its loop and hands its role to the best candidate, or asserts FAULT_N (R423). -/
def Dev.refLoss (d : Dev) : Dev :=
  let d := d.raise CLK_STAT.REF_LOSS
  if !d.isRoot then d
  else
    let d : Dev := { d with ring := { d.ring with frozen := true } }
    match d.bestCand with
    | none => d.fault 12
    | some c => ((((d.ringState 3).set RING_ROSTER.ROOT 0 0 c.index).raise RING_STAT.ROOT_CHG).publish 12 [c.index]).follow d.upPort

/-- `REF_LOSS`. -/
def execRefLoss (s : State) : Host.Outcome State Fault Refusal := .next (s.withDev s.dev.refLoss)

/-- `PLL_LOCK` (R21, R58, R167): the clocks and the counter start, from 0 at the first lock. -/
def Dev.pllLock (d : Dev) : Dev :=
  if d.locked || !d.boot.up then d
  else
    let again := d.boot.locked1
    let d := { (d.raise CLK_STAT.LOCK).live 0 false with
      boot := { d.boot with locked1 := true }, ev := { d.ev with trigLast := d.ev.trigLast.map (fun _ => none) }
      time := { d.time with lock := d.time.abs } }
    if again then d.eachCh (fun n d => d.raise DDS_STAT.GAP n) else d

/-- `PLL_LOCK`. -/
def execPllLock (s : State) : Host.Outcome State Fault Refusal := .next (s.withDev s.dev.pllLock)

/-! ### The course queue -/

/-- `CQ_AHEAD_WRITE` (R28). -/
def execCqAheadWrite (n : Fin 8) (ahead : BitVec 4) (s : State) : Host.Outcome State Fault Refusal :=
  let a := ahead.toNat
  if a < 2 || 8 < a then .next (s.withDev (s.dev.raise CQ_STAT.CFG_REJ n))
  else .next (s.withDev ((s.dev.set CQ_CTRL.AHEAD n 0 a).onCh n (fun c => { c with aheadNext := some a })))

/-- The sequencer of a channel that was stopped at once, `gone` ticks on: a slot that runs on to its last joint still holds the channel
(R276, R277, R281). -/
def Chan.rest (c : Chan) (gone : Nat) : Arch :=
  match c.slot with
  | some s => { c.base with req := some (s.kind, s.left - gone) }
  | none => c.base

/-- The state from which channel n lays its next entry, `gone` ticks on where it has none. -/
def Chan.tip (c : Chan) (gone : Nat) : Arch :=
  match c.laid.getLast?, c.cur with
  | some e, _ => e.after
  | none, some e => e.after
  | none, none => c.rest gone

/-- The course after those that channel n has laid; `first` where it has laid none. -/
def Dev.layAfter (d : Dev) (n : Fin 8) (first : Nat) : Nat := (d.chs[n].laid.getLast?.map (fun e => e.crs + 1)).getD first

/-- The course that channel n lays next. -/
def Dev.nextLay (d : Dev) (n : Fin 8) : Nat := d.layAfter n (d.time.crs + 1)

/-- Channel n lays course c at the end of its queue. -/
def Dev.layAt (d : Dev) (m : Memory) (n : Fin 8) (c : Nat) : Dev :=
  let gone := if c = d.time.crs then 0 else d.time.clen
  let e := d.layCourse m n (d.chs[n].tip gone) c (d.chs[n].landing c d.time.crs) (d.chs[n].cutsIn c)
  d.onCh n (fun ch => { ch with laid := ch.laid ++ [e] })

/-- The next entry of channel n's course queue is laid. -/
def Dev.layNext (d : Dev) (m : Memory) (n : Fin 8) : Dev := d.layAt m n (d.nextLay n)

/-- Whether a credit and the run-ahead let channel n lay (R27 to R29): none while its pair is halted (R111). -/
def Dev.mayLay (d : Dev) (n : Fin 8) : Bool :=
  d.ticking && d.chs[n].badLay.isNone && decide (d.chs[n].laid.length < min d.chs[n].ahead 8)

/-- `LAY_COURSE` (R27). -/
def execLayCourse (n : Fin 8) (s : State) : Host.Outcome State Fault Refusal :=
  if s.dev.mayLay n then .next (s.withDev (s.dev.layNext s.mem n)) else .next s

/-! ### Lockstep (R111 to R114) -/

/-- Whether the spare is free for channel n: it serves no channel, and none waits for it whose pair was halted before (R113). -/
def Dev.spareFree (d : Dev) (n : Nat) : Bool :=
  !d.flag SEQ_LS.ON_SPARE n && !d.flag SEQ_LS.SPARE_TAKEN n && allCh.all (fun k => k.val = n || d.chs[k].badLay.isNone)

/-- The spare takes channel n's place (R111, R113). -/
def Dev.onSpare (d : Dev) (n : Fin 8) : Dev :=
  ((d.raise SEQ_LS.ON_SPARE n).eachCh (fun k d => if k = n then d else d.raise SEQ_LS.SPARE_TAKEN k)).fire (chProd n 5)

/-- The spare lays from the mismatching entry, which is for course `first` where none is laid before it, in the pass that laid
`redone` again (R111). -/
def Dev.switchover (d : Dev) (m : Memory) (n : Fin 8) (first redone : Nat) : Dev :=
  let d := (d.onCh n (fun c => { c with badLay := none })).onSpare n
  let d := d.layAt m n (d.layAfter n first)
  d.recordRelay n (4 + redone + relayBound ((d.chs[n].laid.getLast?).toList))

/-- The switchover for the course that begins next can end too late (R617): `CRS_LEN` 64 and a course of 56 or 57 ticks. -/
def Dev.shortCourse (d : Dev) : Bool := d.get CRS_LEN.LEN = 64 && d.time.clen ≤ 57

/-- The run of channel n ends in a step fault at the head of the entry to be laid, and every later lay of that course ends it there
while the run goes on (R113). -/
def Dev.faultNext (d : Dev) (m : Memory) (n : Fin 8) : Dev :=
  let mark := fun (a : Arch) => { a with lsEnd := some (d.nextLay n) }
  let entry := fun (e : Entry) => { e with before := mark e.before, after := mark e.after }
  (d.onCh n (fun c => { c with base := mark c.base, cur := c.cur.map entry, laid := c.laid.map entry })).layNext m n

/-- `LOCKSTEP_MISMATCH` (R111, R113); a switchover that ends too late, as a free bit says, leaves the next course unlaid (R617). -/
def Dev.mismatch (d : Dev) (m : Memory) (n : Fin 8) : Dev :=
  if !d.ticking || d.chs[n].badLay.isSome then d
  else
    let free := d.spareFree n
    let d := ((d.count SEQ_LS.MISMATCH n).raise SEQ_LS.SWITCH n).count STK_CHn_WEAR3.MISMATCH n
    let c := d.nextLay n
    if !free then (match (d.chs[n].tip 0).mode with | .running | .calWait _ | .calSlot _ _ => d.faultNext m n | _ => d)
    else if c = d.time.crs + 1 then
      let b : Bool × Dev := if d.shortCourse then d.freeBit else (false, d)
      if b.1 then (b.2.onSpare n).onCh n (fun ch => { ch with badLay := some c }) else b.2.switchover m n c 0
    else d.onCh n (fun ch => { ch with badLay := some c })

/-- `LOCKSTEP_MISMATCH`. -/
def execLockstepMismatch (n : Fin 8) (s : State) : Host.Outcome State Fault Refusal :=
  .next (s.withDev (s.dev.mismatch s.mem n))

/-- `PAIR_TEST_DONE` (R114): only while the channel, stopped, is on the spare and its pair is not retired; a start that has landed
has abandoned the test, one that is accepted and has not landed has not. -/
def Dev.pairTested (d : Dev) (n : Fin 8) (pass : Bool) : Dev :=
  if !d.flag SEQ_LS.ON_SPARE n || d.flag SEQ_LS.PAIR_RETIRED n || d.get SEQ_STAT.STATE n = 2 then d
  else if pass then (d.clear SEQ_LS.ON_SPARE n).eachCh (fun k d => d.clear SEQ_LS.SPARE_TAKEN k)
  else d.raise SEQ_LS.PAIR_RETIRED n

/-- `PAIR_TEST_DONE`. -/
def execPairTestDone (n : Fin 8) (pass : Bool) (s : State) : Host.Outcome State Fault Refusal :=
  .next (s.withDev (s.dev.pairTested n pass))

/-! ### Step tables and sequencer registers -/

/-- One byte written through BAR4 (R64, R305, R343). -/
def bar4Byte (p : Dev × Memory) (off : Nat) (b : BitVec 8) : Dev × Memory :=
  if 0x2000000 ≤ off then (p.1.raise MEM_STAT.B4_RSV, p.2)
  else if 0x40000 ≤ off % 0x400000 then (p.1.raise MSN_STAT.B4_WR, p.2)
  else (p.1, p.2.write (sramAt off) b)

/-- Bytes written through BAR4 from an offset upward. -/
def bar4Bytes : Dev × Memory → Nat → List (BitVec 8) → Dev × Memory
  | p, _, [] => p
  | p, off, b :: bs => bar4Bytes (bar4Byte p off b) (off + 1) bs

/-- A write that covers whole granules of the step table gives them valid check bits (R349). -/
def Dev.healGranules (d : Dev) (off len : Nat) : Dev :=
  let n := off / 0x400000
  let a := off % 0x400000
  let hit := fun (b : Nat × Nat × Nat × Nat) =>
    b.1 = n && b.2.1 = 0 && a ≤ 64 * b.2.2.1 + 8 * b.2.2.2 && 64 * b.2.2.1 + 8 * b.2.2.2 + 8 ≤ a + len
  { d with sram := { d.sram with bad := d.sram.bad.filter (fun b => !hit b) } }

/-- `BAR4_WRITE` (R65, R305, R343, R489). -/
def execBar4Write (off : BitVec 26) (bytes : List (BitVec 8)) (s : State) : Host.Outcome State Fault Refusal :=
  if 512 < bytes.length then .next (s.withDev (s.dev.refuse 2 true 2 off.toNat))
  else
    let p := bar4Bytes (s.dev.healGranules off.toNat bytes.length, s.mem) off.toNat bytes
    .next { s with dev := p.1, mem := p.2 }

/-- `SEQ_CMD` written (R109): every refusal that applies sets its flag. -/
def Dev.seqCmd (d : Dev) (n : Fin 8) (kind : ActKind) : Dev :=
  let at_ := d.getPair SEQ_AT_LO.AT_LO SEQ_AT_HI.AT_HI n
  let land := if at_ = 0 then d.time.crs + 2 else at_
  let late := land < d.time.crs + 2
  let st := d.get SEQ_STAT.STATE n
  let rej := d.flag SEQ_STAT.CMD_PEND n || d.time.crs + 2 ^ 24 < land || (kind = .start && (st = 1 || st = 2))
  if late || rej then (d.raiseIf late SEQ_STAT.CMD_LATE n).raiseIf rej SEQ_STAT.CMD_REJ n
  else (d.raise SEQ_STAT.CMD_PEND n).addAct n kind .reg land d.time.crs []

/-- `SEQ_CMD_START`. -/
def execSeqCmdStart (n : Fin 8) (s : State) : Host.Outcome State Fault Refusal := .next (s.withDev (s.dev.seqCmd n .start))

/-- `SEQ_CMD_STOP`. -/
def execSeqCmdStop (n : Fin 8) (s : State) : Host.Outcome State Fault Refusal := .next (s.withDev (s.dev.seqCmd n .stop))

/-- `SEQ_CMD_RESTART`. -/
def execSeqCmdRestart (n : Fin 8) (s : State) : Host.Outcome State Fault Refusal := .next (s.withDev (s.dev.seqCmd n .restart))

/-- Whether a `SEQ_TRIG` word holds an illegal policy (R100). -/
def trigBad (w : Nat) : Bool :=
  bitsOf w 0 2 = 3 || 1 < bitsOf w 8 2 || 1 < bitsOf w 10 2 || 1 < bitsOf w 12 2 || 1 < bitsOf w 14 2

/-- The policies set. -/
def Dev.trigSet (d : Dev) (n w : Nat) : Dev :=
  let d := ((d.set SEQ_TRIG.START_POL n 0 (bitsOf w 0 2)).set SEQ_TRIG.JMP0_POL n 0 (bitsOf w 8 2)).set SEQ_TRIG.JMP1_POL n 0 (bitsOf w 10 2)
  (d.set SEQ_TRIG.JMP2_POL n 0 (bitsOf w 12 2)).set SEQ_TRIG.JMP3_POL n 0 (bitsOf w 14 2)

/-- `SEQ_TRIG_WRITE` (R100). -/
def execSeqTrigWrite (n : Fin 8) (w : BitVec 32) (s : State) : Host.Outcome State Fault Refusal :=
  if trigBad w.toNat then .next (s.withDev (s.dev.raise SEQ_STAT.CFG_REJ n)) else .next (s.withDev (s.dev.trigSet n w.toNat))

/-- `SEQ_SNAP_REQ` (R88, R89). -/
def execSeqSnapReq (n : Fin 8) (s : State) : Host.Outcome State Fault Refusal :=
  if s.dev.flag SEQ_SNAP.DONE n then .next s else .next (s.withDev (s.dev.raise SEQ_SNAP.PEND n))

end Sys2Proof.Machine
end

