-- ==== Sys2Proof/Machine/Plumb.lean ====
section
/-!
DEFINITION. Plumb (chapter 08): requests, the check and commit of a slot's results, the end of a slot, loads, the table and
its updates; and the loss of PLL lock (R58), which ends slots at once.
-/
namespace Sys2Proof.Machine
open Reg

/-! ### The live set (R285) -/

/-- The words of a set with its format, channel and CRC in place. -/
def sealSet (n : Nat) (ws : List Nat) : List Nat :=
  let ws := (ws.take 127).set 0 (1 + n * 2 ^ 16)
  ws ++ [crc32 (wordsBytes ws)]

/-- The live set of channel n: S0 and S127 follow from the others. -/
def Dev.liveSet (d : Dev) (n : Nat) : List Nat :=
  sealSet n ((List.range 127).map (fun w => d.get PLB_SET.WORD n w))

/-- Spare cells in use, by a spare map (R285). -/
def sparesUsed (w : Nat) : Nat := ((List.range 4).filter (fun s => bitAt w (8 * s + 7))).length

/-- The live set replaced: delay targets follow (R185, R213), and the Stockroom's counts of the spare cells in use (R282). -/
def Dev.setLive (d : Dev) (n : Nat) (ws : List Nat) : Dev :=
  let ws := sealSet n ws
  let d := (List.range 128).foldl (fun d w => d.set PLB_SET.WORD n w (ws.getD w 0)) d
  let d := (d.set STK_CHn_WEAR1.LV_SPARES n 0 (sparesUsed (ws.getD 7 0))).set STK_CHn_WEAR1.HV_SPARES n 0 (sparesUsed (ws.getD 27 0))
  (d.set LV_DLY_CAL.CAL n 0 (ws.getD 6 0)).set HV_DLY_CAL.CAL n 0 (ws.getD 26 0)

/-- The bits that R285 gives word i of a set; the others are reserved and 0. -/
def setMask (i : Nat) : Nat :=
  if i = 0 || i = 4 || i = 23 || i = 24 || i = 43 then 2 ^ 24 - 1
  else if i = 5 || i = 25 then 2 ^ 16 - 1
  else if i = 6 || i = 26 then 2 ^ 15 - 1
  else if i = 7 || i = 27 then 0xBFBFBFBF
  else if 76 ≤ i && i ≤ 125 then 0
  else if i = 126 then 1
  else 2 ^ 32 - 1

/-! ### A calibration flash slot (R293, R295) -/

/-- The words of a flash slot: the header with a CRC, the sets of eight points a channel, unused ones zero, and the rest erased. -/
def calWords (gen modes : Nat) (points : List (List (List Nat))) (crc : Nat) : List Nat :=
  let counts := (List.range 8).foldl (fun v n => v + (points.getD n []).length * 2 ^ (4 * n)) 0
  let sets := (List.range 64).flatMap (fun i => ((points.getD (i / 8) []).getD (i % 8) [] ++ List.replicate 128 0).take 128)
  [1, gen % 2 ^ 32, modes, counts, crc] ++ List.replicate 11 0 ++ sets ++ List.replicate 8176 (2 ^ 32 - 1)

/-- A flash slot as a store writes it. -/
def calImage (gen modes : Nat) (points : List (List (List Nat))) : List Nat :=
  calWords gen modes points (crc32 (wordsBytes (calWords gen modes points 0)))

/-- Point p of channel n in a flash slot: at byte 64 + (8n + p) × 512. -/
def calPoint (img : List Nat) (n p : Nat) : List Nat := (img.drop (16 + (8 * n + p) * 128)).take 128

/-- A set's CRC is correct. -/
def setSealed (ws : List Nat) : Bool := crc32 (wordsBytes (ws.take 127)) = ws.getD 127 0

/-- What a flash slot holds, where it is valid (R295). -/
def calCopy (img : List Nat) : Option CalCopy :=
  if img.getD 0 0 % 2 ^ 16 ≠ 1 then none
  else if crc32 (wordsBytes (img.set 4 0)) ≠ img.getD 4 0 then none
  else
    let points := (List.range 8).map (fun n => (List.range (bitsOf (img.getD 3 0) (4 * n) 4)).map (fun p => calPoint img n p))
    if points.all (fun l => l.all setSealed) then some ⟨img.getD 1 0, img.getD 2 0 % 256, points⟩ else none

/-- The predistortion coefficients of a set go to the inactive bank, which becomes active (R209, R210). -/
def Dev.swapIn (d : Dev) (n : Nat) (ws : List Nat) : Dev :=
  let b := 1 - d.get HV_STAT.PD_BANK n
  let d := (List.range 24).foldl (fun d w => d.set HV_PDb_w.COEF n (24 * b + w) (ws.getD (44 + w) 0)) d
  d.set HV_STAT.PD_BANK n 0 b

/-- A signed number's bounds. -/
def within (lim : Nat) (x : Int) : Bool := decide (x.natAbs ≤ lim)

/-- Whether a Sense trim word lies within R282: ±12 %, ±128 LSB. -/
def senseOk (w : Nat) : Bool := within 31457 (signed 16 (w / 2 ^ 16)) && within 2048 (signed 16 w)

/-- Whether a gain and an offset trim lie within ±3 % and ±128 LSB (R282, R285). -/
def trimOk (g o : Nat) : Bool := within 503316 (signed 24 g) && within 2048 (signed 16 o)

/-- Whether a delay lies within Plumb's range (R185, R282). -/
def dlyOk (w : Nat) : Bool := 15360 ≤ w && w ≤ 17407

/-! ### Requests -/

/-- The cases of R275 that a request of a kind meets: joint unreachable, too far, reserved kind, slot pending or running. -/
def Dev.slotRefused (d : Dev) (n kind land : Nat) (arch : Bool) : Bool × Bool × Bool × Bool :=
  let st := d.get PLB_STAT.STATE n
  (land < d.time.crs + 2, d.time.crs + 2 ^ 24 < land, kind = 3, st = 1 || arch)

/-- A requested slot is pending or running on the channel. -/
def Chan.requested (c : Chan) : Bool :=
  c.acts.any (fun a => match a.kind with | .slot _ => true | _ => false) || c.slot.any (fun s => s.req)

/-- A slot requested, accepted (R275). -/
def Dev.slotAccept (d : Dev) (n : Fin 8) (kind land : Nat) (org : Origin) : Dev :=
  let d := d.addAct n (.slot kind) org land d.time.crs []
  if d.get PLB_STAT.STATE n = 2 then d else (d.set PLB_STAT.STATE n 0 1).set PLB_STAT.KIND n 0 kind

/-- `PLB_REQ_WRITE` (R275): every case that applies sets its flag. -/
def execPlbReqWrite (n : Fin 8) (kind : BitVec 2) (s : State) : Host.Outcome State Fault Refusal :=
  let d := s.dev
  let at_ := d.getPair PLB_AT_LO.AT_LO PLB_AT_HI.AT_HI n
  let land := if at_ = 0 then d.time.crs + 2 else at_
  let r := d.slotRefused n kind.toNat land d.chs[n].requested
  if r.1 || r.2.1 || r.2.2.1 || r.2.2.2 then
    .next (s.withDev ((d.raiseIf r.1 PLB_STAT.REQ_LATE n).raiseIf (r.2.1 || r.2.2.1 || r.2.2.2) PLB_STAT.REQ_REJ n))
  else .next (s.withDev (d.slotAccept n kind.toNat land .reg))

/-- `PLB_MODE_WRITE` (R287): the mode lands at the next joint. -/
def execPlbModeWrite (n : Fin 8) (table : Bool) (s : State) : Host.Outcome State Fault Refusal :=
  .next (s.withDev (s.dev.set PLB_CTRL.MODE n 0 (if table then 1 else 0)))

/-- The staged set takes the place of a load that waits; the mailbox slot that asked for that one completes with it. -/
def Plumb.stage (p : Plumb) : Plumb := { p with load := some (none, p.load.bind (·.2)) }

/-- `PLB_LOAD` (R288): the staged set is loaded at the next joint. -/
def execPlbLoad (n : Fin 8) (s : State) : Host.Outcome State Fault Refusal :=
  .next (s.withDev (s.dev.onCh n (fun c => { c with plumb := c.plumb.stage })))

/-! ### The commit phase -/

/-- What a slot's measurement found besides the set it proposes: cells beyond 0.5 LSB on LV and HV, a residual cell error
beyond 0.25 LSB on LV and HV, coefficients out of range or INL too large. -/
structure Measured where
  lvOver : Nat
  hvOver : Nat
  lvRes : Bool
  hvRes : Bool
  pdBad : Bool

/-- The words of a set in [a, b] taken from another. -/
def takeWords (a b : Nat) (src dst : List Nat) : List Nat :=
  (List.range (b + 1 - a)).foldl (fun l i => l.set (a + i) (src.getD (a + i) 0)) dst

/-- Runs of words of a set taken from another. -/
def takeParts (parts : List (Nat × Nat)) (src dst : List Nat) : List Nat := parts.foldl (fun l w => takeWords w.1 w.2 src l) dst

/-- One part of R282: not marked for the kind, skipped, failed, or committed with its words. The state is the words committed so far,
and whether some part failed or was skipped. -/
def commitPart (marked skip fail : Bool) (words : List (Nat × Nat)) (p : List (Nat × Nat) × Bool) : List (Nat × Nat) × Bool :=
  if !marked then p
  else if skip || fail then (p.1, true)
  else (p.1 ++ words, p.2)

/-- The results of a slot are checked and kept for its last joint with the words that commit, and `PLB_RES` and `PLB_TSLOT` take them
(R273, R280, R282 to R285). -/
def Dev.slotCommit (d : Dev) (n : Fin 8) (new : List Nat) (x : Measured) : Dev :=
  match d.chs[n].slot with
  | none => d
  | some s =>
    if s.aborted || s.committed then d
    else
      let w := fun i => new.getD i 0
      let full := s.kind = 0
      let quick := s.kind ≤ 1
      let snsFail := !([68, 69, 70, 71, 72, 73].all (fun i => senseOk (w i)))
      let lvLin := 4 < x.lvOver || x.lvRes
      let hvLin := 4 < x.hvOver || x.hvRes
      let lvGain := !trimOk (w 4) (w 5)
      let hvGain := !trimOk (w 24) (w 25)
      let time := !dlyOk (w 6) || (!s.hvSkip && !dlyOk (w 26))
      let pdSkip := s.pdSkip || s.hvSkip
      let pdFail := full && !pdSkip && x.pdBad
      let p : List (Nat × Nat) × Bool := ([], false)
      let p := commitPart quick false snsFail [(68, 73)] p
      let p := commitPart full false lvLin [(7, 23)] p
      let p := commitPart quick false lvGain [(4, 5)] p
      let p := commitPart full s.hvSkip hvLin [(27, 43)] p
      let p := commitPart quick s.hvSkip hvGain [(24, 25)] p
      let p := commitPart full pdSkip pdFail [(44, 67), (126, 126)] p
      let p := commitPart true false time (if s.hvSkip then [(6, 6)] else [(6, 6), (26, 26)]) p
      let part := p.2 || s.hvSkip
      let temps := unsigned 16 (d.getS PLB_TEMP.T_LOG n) + 2 ^ 16 * unsigned 16 (d.getS PLB_TEMP.T_HV n)
      let set := (((List.range 128).map (fun i => w i &&& setMask i)).set 126 1).set 1 temps
      let code := if p.1.isEmpty then 4 else if part then 2 else 1
      let drift := s.drift || 32 < (d.getS PLB_TEMP.T_LOG n - s.tLog0).natAbs || 32 < (d.getS PLB_TEMP.T_HV n - s.tHv0).natAbs
      let b := fun (c : Bool) => if c then 1 else 0
      let d := ((d.set PLB_RES.CODE n 0 code).set PLB_RES.KIND n 0 s.kind).set PLB_RES.TEMP_DRIFT n 0 (b drift)
      let d := (d.set PLB_RES.SPARES_OUT n 0 (b (full && (lvLin || (!s.hvSkip && hvLin))))).set PLB_RES.TIME_FAIL n 0 (b time)
      let d := ((d.set PLB_RES.PD_FAIL n 0 (b pdFail)).set PLB_RES.PD_SKIP n 0 (b (full && s.pdSkip))).set PLB_RES.HV_SKIP n 0 (b s.hvSkip)
      let d := (d.set PLB_RES.HV_FAIL n 0 (b (!s.hvSkip && ((full && hvLin) || (quick && hvGain))))).set PLB_RES.LV_FAIL n 0
        (b ((full && lvLin) || (quick && lvGain)))
      let d := d.set PLB_RES.SNS_FAIL n 0 (b (quick && snsFail))
      let d := if time then d
        else (d.set PLB_TSLOT.T_LOG n 0 (unsigned 16 (d.getS PLB_TEMP.T_LOG n))).set PLB_TSLOT.T_HV n 0 (unsigned 16 (d.getS PLB_TEMP.T_HV n))
      d.onCh n (fun c => { c with slot := some { s with committed := true, newSet := set, parts := p.1, drift := drift } })

/-- `PLUMB_COMMIT_PHASE` (R283): `set` is the set that the measurement proposes. -/
def execPlumbCommitPhase (n : Fin 8) (set : List (BitVec 32)) (lvOver hvOver : Nat) (lvRes hvRes pdBad : Bool) (s : State) :
    Host.Outcome State Fault Refusal :=
  .next (s.withDev (s.dev.slotCommit n (set.map BitVec.toNat) ⟨lvOver, hvOver, lvRes, hvRes, pdBad⟩))

/-! ### The table (R289 to R291) -/

/-- A point's temperature: logic die, or HV die. -/
def tempOf (hv : Bool) (ws : List Nat) : Int := if hv then signed 16 (ws.getD 1 0 / 2 ^ 16) else signed 16 (ws.getD 1 0)

/-- The point nearest in `T_LOG` to a temperature, with its distance. -/
def nearest (t : Int) (pts : List (List Nat)) : Option (List Nat × Nat) :=
  match pts with
  | [] => none
  | p :: ps =>
    let dist := fun (q : List Nat) => (tempOf false q - t).natAbs
    let q := ps.foldl (fun a b => if dist b < dist a then b else a) p
    some (q, dist q)

/-- A slot's set enters the table (R289). -/
def tableEnter (full good : Bool) (set : List Nat) (fields : List Nat → List Nat) (pts : List (List Nat)) : List (List Nat) × Bool :=
  let t := tempOf false set
  if full then
    if !good then (pts, false)
    else
      let pts' := match nearest t pts with
        | some (q, x) => if x ≤ 40 || 8 ≤ pts.length then pts.map (fun p => if p = q then set else p) else pts ++ [set]
        | none => [set]
      let same := fun (p : List Nat) => p.getD 7 0 = set.getD 7 0 && p.getD 27 0 = set.getD 27 0
      ((if pts'.all same then pts' else [set]), true)
  else match nearest t pts with
    | some (q, x) => if x ≤ 80 then (pts.map (fun p => if p = q then fields p else p), true) else (pts, false)
    | none => (pts, false)

/-- Insert a point by temperature. -/
def insertPt (hv : Bool) (p : List Nat) : List (List Nat) → List (List Nat)
  | [] => [p]
  | q :: r => if tempOf hv p ≤ tempOf hv q then p :: q :: r else q :: insertPt hv p r

/-- The value of a field interpolated between sorted points (R290). -/
def interp (hv : Bool) (t : Int) (f : List Nat → Int) : List (List Nat) → Int
  | [] => 0
  | [p] => f p
  | a :: b :: r =>
    let ta := tempOf hv a
    let tb := tempOf hv b
    if t ≤ ta then f a
    else if t < tb then divRound (f a * (tb - ta) + (f b - f a) * (t - ta)) (tb - ta).toNat
    else interp hv t f (b :: r)

/-- A value moved towards a target by at most k. -/
def towards (k : Nat) (v t : Int) : Int := v + clampI (-(k : Int)) k (t - v)

/-- One part of a word (w bits from bit lo, read by `f`) moved towards its interpolated value by at most k (R291). -/
def moveBy (f : List Nat → Int) (hv : Bool) (t : Int) (pts : List (List Nat)) (word lo w k : Nat) (l : List Nat) : List Nat :=
  let old := l.getD word 0
  let v := towards k (f l) (interp hv t f pts)
  l.set word (old - bitsOf old lo w * 2 ^ lo + unsigned w v * 2 ^ lo)

/-- A signed part of a word moved. -/
def moveField (hv : Bool) (t : Int) (pts : List (List Nat)) (word lo w k : Nat) (l : List Nat) : List Nat :=
  moveBy (fun p => signed w (bitsOf (p.getD word 0) lo w)) hv t pts word lo w k l

/-- A delay, which is unsigned (R285), goes to its interpolated value. -/
def moveDelay (hv : Bool) (t : Int) (pts : List (List Nat)) (word : Nat) (l : List Nat) : List Nat :=
  moveBy (fun p => (bitsOf (p.getD word 0) 0 15 : Nat)) hv t pts word 0 15 (2 ^ 15) l

/-- The set that an update gives: every field but the coefficients (R291). -/
def tableStep (tLog tHv : Int) (pts : List (List Nat)) (l : List Nat) : List Nat :=
  let lo := pts.foldr (insertPt false) []
  let hi := pts.foldr (insertPt true) []
  let l := moveField false tLog lo 4 0 24 64 l
  let l := moveField false tLog lo 5 0 16 4 l
  let l := moveDelay false tLog lo 6 l
  let l := (List.range 63).foldl (fun l c => moveField false tLog lo (8 + c / 4) (8 * (c % 4)) 8 1 l) l
  let l := moveField true tHv hi 24 0 24 64 l
  let l := moveField true tHv hi 25 0 16 4 l
  let l := moveDelay true tHv hi 26 l
  let l := (List.range 63).foldl (fun l c => moveField true tHv hi (28 + c / 4) (8 * (c % 4)) 8 1 l) l
  let l := [68, 69, 70, 71, 72, 73].foldl (fun l w => moveField false tLog lo w 0 16 4 (moveField false tLog lo w 16 16 1 l)) l
  (l.set 7 ((pts.headD []).getD 7 0)).set 27 ((pts.headD []).getD 27 0)

/-- A TABLE channel's update at a joint whose number is a multiple of 1,024 (R290, R291). -/
def Dev.tableUpdate (d : Dev) (n : Fin 8) : Dev :=
  let pts := d.chs[n].plumb.points
  if !d.chs[n].plumb.mode || pts.isEmpty then d
  else
    let tLog := d.getS PLB_TEMP.T_LOG n
    let tHv := d.getS PLB_TEMP.T_HV n
    let l := tableStep tLog tHv pts (d.liveSet n)
    let hi := pts.foldr (insertPt true) []
    let pd := (List.range 24).map (fun w => interp true tHv (fun p => signed 32 (p.getD (44 + w) 0)) hi)
    let far := (List.range 24).any (fun w => 2 ^ 13 < (pd.getD w 0 - d.coef n w).natAbs)
    if far && !d.flag HV_CTRL.OWN n then
      let l := (List.range 24).foldl (fun l w => l.set (44 + w) (unsigned 32 (pd.getD w 0))) l
      let l := l.set 126 ((interp true tHv (fun p => ((p.getD 126 0 % 2 : Nat) : Int)) hi).toNat)
      (d.swapIn n l).setLive n l
    else d.setLive n l

/-! ### The end of a slot -/

/-- The words that a slot committed take effect, and enter the table in TABLE mode (R283, R289); a slot that committed none changes
nothing. -/
def Dev.commitSet (d : Dev) (n : Fin 8) (kind : Nat) (parts : List (Nat × Nat)) (new : List Nat) : Dev :=
  if parts.isEmpty then d else
  let pd := parts.contains (44, 67)
  let set := takeParts ((1, 1) :: parts) new (d.liveSet n)
  let set := sealSet n ((set.set 2 (d.time.crs % 2 ^ 32)).set 3 (d.time.crs / 2 ^ 32))
  let d := if pd && !d.flag HV_CTRL.OWN n then d.swapIn n set else d
  let d := d.setLive n set
  let d := if pd then d.set PLB_AGE.FULL_H n 0 0 else d
  if !d.chs[n].plumb.mode then d
  else
    let fields := fun (p : List Nat) => sealSet n (takeParts parts set p)
    let r := tableEnter (kind = 0) (d.get PLB_RES.CODE n = 1 || d.get PLB_RES.CODE n = 2) set fields d.chs[n].plumb.points
    let d := d.onCh n (fun c => { c with plumb := { c.plumb with points := r.1, dirty := c.plumb.dirty || (r.2 && kind = 0) } })
    (d.set PLB_TBL.POINTS n 0 r.1.length).set PLB_STAT.NO_TABLE n 0 (if r.1.isEmpty then 1 else 0)

/-- The slot of channel n ends (R46, R281, R283): its values take effect if it committed; CAL_END fires whatever the
result; a CAL_SLOT command completes. A slot whose commit phase has not come commits nothing. -/
def Dev.slotEnd (d : Dev) (n : Fin 8) : Dev :=
  match d.chs[n].slot with
  | none => d
  | some s =>
    let d := d.onCh n (fun c => { c with slot := none })
    let d := if s.committed then d.commitSet n s.kind s.parts s.newSet
      else
        let d := ((((d.set PLB_RES.TEMP_DRIFT n 0 0).set PLB_RES.SPARES_OUT n 0 0).set PLB_RES.TIME_FAIL n 0 0).set PLB_RES.PD_FAIL n 0 0).set
          PLB_RES.PD_SKIP n 0 0
        let d := (((d.set PLB_RES.HV_SKIP n 0 0).set PLB_RES.HV_FAIL n 0 0).set PLB_RES.LV_FAIL n 0 0).set PLB_RES.SNS_FAIL n 0 0
        (d.set PLB_RES.CODE n 0 (if s.aborted then 3 else 4)).set PLB_RES.KIND n 0 s.kind
    let d := (d.setPair PLB_RES_CRS_LO.CRS_LO PLB_RES_CRS_HI.CRS_HI n 0 d.time.crs).countWrap PLB_CNT.DONE n
    let d := if s.aborted then d.count PLB_CNT.ABORTED n else d
    let pend := d.chs[n].acts.find? (fun a => match a.kind with | .slot _ => true | _ => false)
    let d := match pend with
      | some a => (d.set PLB_STAT.STATE n 0 1).set PLB_STAT.KIND n 0 (match a.kind with | .slot k => k | _ => 0)
      | none => d.set PLB_STAT.STATE n 0 0
    let d := d.fire (chProd n 14)
    match (s.act.map Act.org : Option Origin) with
    | some (Origin.mbx m slot) =>
      let res := d.get PLB_RES.CODE n * 2 ^ 29 + d.get PLB_RES.KIND n * 2 ^ 26 + d.get PLB_RES.TEMP_DRIFT n * 2 ^ 9
        + d.get PLB_RES.SPARES_OUT n * 2 ^ 8 + d.get PLB_RES.TIME_FAIL n * 2 ^ 7 + d.get PLB_RES.PD_FAIL n * 2 ^ 6
        + d.get PLB_RES.PD_SKIP n * 2 ^ 5 + d.get PLB_RES.HV_SKIP n * 2 ^ 4 + d.get PLB_RES.HV_FAIL n * 2 ^ 3
        + d.get PLB_RES.LV_FAIL n * 2 ^ 2 + d.get PLB_RES.SNS_FAIL n * 2
      d.finish m slot 0 [res]
    | _ => d

/-- Slots count a course that has ended; one that has run its stated length ends at this joint (R46). -/
def Dev.slotCourse (d : Dev) (n : Fin 8) (ticks : Nat) : Dev :=
  match d.chs[n].slot with
  | none => d
  | some s =>
    let d := d.onCh n (fun c => { c with slot := some { s with left := s.left - ticks } })
    if s.left ≤ ticks then d.slotEnd n else d

/-- Whether a set may be loaded on channel n (R288): CRC, format, channel, module, the ranges of R285, and reserved bits 0 (DEDUCED, log
entry 69). -/
def Dev.setLegal (_d : Dev) (n : Nat) (ws : List Nat) : Bool :=
  let w := fun i => ws.getD i 0
  let spare := fun (x : Nat) => (List.range 4).all (fun s => let b := bitsOf x (8 * s) 8; b < 128 || b % 64 ≤ 62)
  ws.length = 128 && sealSet n ws = ws && w 74 = Config.uid % 2 ^ 32 && w 75 = Config.uid / 2 ^ 32 % 2 ^ 32
  && trimOk (w 4) (w 5) && trimOk (w 24) (w 25) && dlyOk (w 6) && dlyOk (w 26) && spare (w 7) && spare (w 27)
  && (List.range 127).all (fun i => w i &&& setMask i = w i)

/-- A load lands at the joint (R288). -/
def Dev.loadLand (d : Dev) (n : Fin 8) : Dev :=
  match d.chs[n].plumb.load with
  | none => d
  | some (set, cmd) =>
    let ws := set.getD ((List.range 128).map (fun w => d.get PLB_STAGE.WORD n w))
    let d := d.onCh n (fun c => { c with plumb := { c.plumb with load := none } })
    let busy := !d.seqIdle n || d.chs[n].slot.isSome || d.get PLB_STAT.STATE n ≠ 0
    if d.setLegal n ws && !d.chs[n].plumb.mode && !busy then
      let d := (if d.flag HV_CTRL.OWN n then d else d.swapIn n ws).setLive n ws
      let d := d.set PLB_STAT.SRC n 0 3
      match cmd with | some c => d.finish c.1 c.2 0 [] | none => d
    else match cmd with
      | some c => if busy then d.finish c.1 c.2 1 [3] else d.finish c.1 c.2 3 []
      | none => d.raise PLB_STAT.LOAD_REJ n

/-- The mode lands at the joint (R287). -/
def Dev.modeLand (d : Dev) (n : Fin 8) : Dev :=
  let t := d.flag PLB_CTRL.MODE n
  let d := d.onCh n (fun c => { c with plumb := { c.plumb with mode := t, modeDirty := c.plumb.modeDirty || c.plumb.mode != t } })
  d.set PLB_STAT.NO_TABLE n 0 (if t && d.chs[n].plumb.points.isEmpty then 1 else 0)

/-! ### Loss of lock -/

/-- Channel n goes quiet through the hold driver and the forced code: its sequencer stops, and its slot ends at once with
what it committed (R58, R179, R221, R281). -/
def Dev.quietStatic (d : Dev) (n : Fin 8) : Dev :=
  let d := (d.stopNow n).slotEnd n
  (d.onCh n (fun c => { c with lv := { c.lv with last := .quiet, mkNext := [] }, hv := { c.hv with last := .quiet } })).quietFollow n

/-- Every Sieve pauses (R271). -/
def pauseSieves (p : Dev × Memory) : Dev × Memory := allCh.foldl (fun p n => sievePause n p) p

/-- The system PLL loses lock (R58, R281, R363). -/
def pllUnlock (p : Dev × Memory) : Dev × Memory :=
  let d := p.1
  if !d.locked then p
  else
    let d := (d.clear CLK_STAT.LOCK).raise CLK_STAT.UNLOCK
    let d := (((d.live 0 true).fault 0).raise CRS_STAT.GAP).marchEnd 5
    pauseSieves (d.eachCh (fun n d => d.quietStatic n), p.2)

/-- `PLL_UNLOCK` (R58). -/
def execPllUnlock (s : State) : Host.Outcome State Fault Refusal :=
  let p := pllUnlock (s.dev, s.mem)
  .next { s with dev := p.1, mem := p.2 }

end Sys2Proof.Machine
end

