-- ==== Sys2Proof/Machine/Hv.lean ====
section
/-!
DEFINITION. Commands of the phase engine, the LV path and the HV stage (chapters 04 to 06), with the HV segment tests
(R579) and the sample link (R529).
-/
namespace Sys2Proof.Machine
open Reg

/-! ### Phase engine -/

/-- `DDS_AMP_WRITE` (R154). -/
def execDdsAmpWrite (n : Fin 8) (w : BitVec 32) (s : State) : Host.Outcome State Fault Refusal :=
  let lv := w.toNat % 2 ^ 16
  let hv := w.toNat / 2 ^ 16
  if 0x8000 < lv || 0x8000 < hv then .next (s.withDev (s.dev.raise DDS_STAT.CFG_REJ n))
  else .next (s.withDev ((s.dev.set DDS_AMP.AMP_LV n 0 lv).set DDS_AMP.AMP_HV n 0 hv))

/-- `DDS_EPOCH_WRITE` (R163). -/
def execDdsEpochWrite (n : Fin 8) (w : BitVec 64) (s : State) : Host.Outcome State Fault Refusal :=
  if s.dev.seqIdle n then .next (s.withDev (s.dev.setPair DDS_EPOCH_LO.EPOCH_LO DDS_EPOCH_HI.EPOCH_HI n 0 w.toNat))
  else .next (s.withDev (s.dev.raise DDS_STAT.CFG_REJ n))

/-- The refusals of an apply at a joint (R171): unreachable; too far ahead or one pending. -/
def Dev.applyRefused (d : Dev) (n land : Nat) : Bool × Bool :=
  (decide (land < d.time.crs + 2), decide (d.time.crs + 2 ^ 24 < land) || d.flag DDS_STAT.APPLY_PEND n)

/-- An apply of a phase offset accepted for a joint (R169, R170). -/
def Dev.applyAccept (d : Dev) (n : Fin 8) (pofs land : Nat) (org : Origin) : Dev :=
  (d.raise DDS_STAT.APPLY_PEND n).addAct n (.apply pofs) org land d.time.crs []

/-- `DDS_APPLY` (R169 to R171). -/
def execDdsApply (n : Fin 8) (s : State) : Host.Outcome State Fault Refusal :=
  let d := s.dev
  let at_ := d.getPair DDS_AT_LO.AT_LO DDS_AT_HI.AT_HI n
  let land := if at_ = 0 then d.time.crs + 2 else at_
  let r := d.applyRefused n land
  if r.1 || r.2 then .next (s.withDev ((d.raiseIf r.1 DDS_STAT.APPLY_LATE n).raiseIf r.2 DDS_STAT.APPLY_REJ n))
  else .next (s.withDev (d.applyAccept n (d.getPair DDS_POFS_NEXT_LO.NEXT_LO DDS_POFS_NEXT_HI.NEXT_HI n) land .reg))

/-! ### LV path -/

/-- `LV_EN_WRITE` (R181): in force from the next joint. -/
def execLvEnWrite (n : Fin 8) (en : Bool) (s : State) : Host.Outcome State Fault Refusal :=
  .next (s.withDev (s.dev.set LV_CTRL.EN n 0 (if en then 1 else 0)))

/-- `LV_DLY_WRITE` (R186): the line starts to move at the next joint. -/
def execLvDlyWrite (n : Fin 8) (user : BitVec 14) (s : State) : Host.Outcome State Fault Refusal :=
  .next (s.withDev (s.dev.set LV_DLY.USER n 0 user.toNat))

/-- The ticks that a delay line needs to reach its target in force: 16 LV or 2 HV samples each, a step a sample (R186, R214). -/
def Chan.lineTicks (c : Chan) (hv : Bool) : Nat :=
  if hv then (((c.hv.target : Int) - c.hv.dly).natAbs + 1) / 2 else (((c.lv.target : Int) - c.lv.dly).natAbs + 15) / 16

/-- A delay line reaches its target in force (R186, R214): the ticks pass that it needs, as far as the course goes. -/
def Dev.delayArrived (d : Dev) (m : Memory) (n : Fin 8) (hv : Bool) : Dev :=
  (d.playUpTo m (d.time.abs + d.chs[n].lineTicks hv)).linesMoved n

/-- `DELAY_LINE_ARRIVED` (R186). -/
def execDelayLineArrived (n : Fin 8) (hv : Bool) (s : State) : Host.Outcome State Fault Refusal :=
  .next (s.withDev (s.dev.delayArrived s.mem n hv))

/-- The targets of both delay lines at a joint (R185, R186, R213). -/
def Dev.delayJoint (d : Dev) (n : Fin 8) : Dev :=
  let lv := ((d.get LV_DLY_CAL.CAL n : Int) + d.getS LV_DLY.USER n).toNat
  let hv := ((d.get HV_DLY_CAL.CAL n : Int) + d.getS HV_DLY.USER n).toNat
  let c := d.chs[n]
  let d := if lv = c.lv.target then d else d.set LV_STAT.DLY_BUSY n 0 (if lv = c.lv.dly then 0 else 1)
  let d := if hv = c.hv.target then d else d.set HV_STAT.DLY_BUSY n 0 (if hv = c.hv.dly then 0 else 1)
  d.onCh n (fun c => { c with
    lv := { c.lv with target := lv }
    hv := { c.hv with target := hv } })

/-! ### HV settings -/

/-- `HV_EN_WRITE` (R219): in force from the next joint. -/
def execHvEnWrite (n : Fin 8) (en : Bool) (s : State) : Host.Outcome State Fault Refusal :=
  .next (s.withDev (s.dev.set HV_CTRL.EN n 0 (if en then 1 else 0)))

/-- A clamp range taken unless `HI` lies below `LO` (R201). -/
def Dev.clampWrite (d : Dev) (n : Fin 8) (lo hi : Nat) : Dev :=
  if signed 16 hi < signed 16 lo then d.raise HV_STAT.CFG_REJ n
  else ((d.set HV_CLAMP.LO n 0 lo).set HV_CLAMP.HI n 0 hi).quietFollow n

/-- `HV_CLAMP_WRITE` (R201). -/
def execHvClampWrite (n : Fin 8) (w : BitVec 32) (s : State) : Host.Outcome State Fault Refusal :=
  .next (s.withDev (s.dev.clampWrite n (w.toNat % 2 ^ 16) (w.toNat / 2 ^ 16)))

/-- Whether a slew setting is in range (R205). -/
def slewOk (rate step : Nat) : Bool := rate ≤ 5 && step ≠ 0

/-- `HV_SLEW_WRITE` (R205). -/
def execHvSlewWrite (n : Fin 8) (w : BitVec 32) (s : State) : Host.Outcome State Fault Refusal :=
  let rate := bitsOf w.toNat 16 3
  let step := bitsOf w.toNat 0 15
  if slewOk rate step then .next (s.withDev ((s.dev.set HV_SLEW.RATE n 0 rate).set HV_SLEW.STEP n 0 step))
  else .next (s.withDev (s.dev.raise HV_STAT.CFG_REJ n))

/-- Whether the fields of an `HV_ILIM` word are in range (R229, R231, R239). -/
def ilimOk (w : Nat) : Bool :=
  25 ≤ bitsOf w 0 8 && bitsOf w 0 8 ≤ 240 && 1 ≤ bitsOf w 8 6 && bitsOf w 8 6 ≤ 50 && 1 ≤ bitsOf w 16 10 && bitsOf w 16 10 ≤ 1000

/-- `HV_ILIM` set (R229). -/
def Dev.ilimSet (d : Dev) (n : Fin 8) (w : Nat) : Dev :=
  let d := ((d.set HV_ILIM.ILIM n 0 (bitsOf w 0 8)).set HV_ILIM.SC_TIME n 0 (bitsOf w 8 6)).set HV_ILIM.RETRY n 0 (bitsOf w 16 10)
  (d.set HV_ILIM.TRIES n 0 (bitsOf w 30 2)).ilimRefresh n

/-- `HV_ILIM_WRITE` (R239). -/
def execHvIlimWrite (n : Fin 8) (w : BitVec 32) (s : State) : Host.Outcome State Fault Refusal :=
  if ilimOk w.toNat then .next (s.withDev (s.dev.ilimSet n w.toNat)) else .next (s.withDev (s.dev.raise HV_STAT.CFG_REJ n))

/-- `HV_PD_COEF_WRITE` (R209). -/
def execHvPdCoefWrite (n : Fin 8) (bank : Fin 2) (word : Fin 24) (w : BitVec 32) (s : State) : Host.Outcome State Fault Refusal :=
  if bank.val = s.dev.get HV_STAT.PD_BANK n then .next (s.withDev (s.dev.raise HV_STAT.CFG_REJ n))
  else .next (s.withDev (s.dev.set HV_PDb_w.COEF n (24 * bank.val + word.val) w.toNat))

/-- `PD_SWAP` (R209). -/
def execPdSwap (n : Fin 8) (s : State) : Host.Outcome State Fault Refusal :=
  if s.dev.chs[n].hv.swap then .next (s.withDev (s.dev.raise HV_STAT.CFG_REJ n))
  else .next (s.withDev (s.dev.onCh n (fun c => { c with hv := { c.hv with swap := true } })))

/-! ### Latches (R233, R237) -/

/-- A short latch is released; a channel without one is left as it is. -/
def Dev.scClr (d : Dev) (n : Nat) : Dev := d.clear HV_STAT.SC_LATCH n

/-- `SC_CLR` (R233). -/
def execScClr (n : Fin 8) (s : State) : Host.Outcome State Fault Refusal := .next (s.withDev (s.dev.scClr n))


/-- A power trip is released (R237): the channel's below 80 % of 3.5 W; the total's below 80 % of 24 W, once every tripped
channel has been released (log entry 20). -/
def Dev.tripClr (d : Dev) (n : Fin 8) : Dev :=
  let d := if d.chPower n < 2800 then d.onCh n (fun c => { c with hv := { c.hv with trip := 0 } }) else d
  if d.totPower < 19200 && d.chs[n].hv.totTrip ≠ 0 then
    let d := d.onCh n (fun c => { c with hv := { c.hv with totClr := true } })
    if allCh.all (fun k => d.chs[k].hv.totTrip = 0 || d.chs[k].hv.totClr) then
      d.eachCh (fun k d => d.onCh k (fun c => { c with hv := { c.hv with totTrip := 0, totClr := false } }))
    else d
  else d

/-- `TRIP_CLR` (R237). -/
def execTripClr (n : Fin 8) (s : State) : Host.Outcome State Fault Refusal := .next (s.withDev (s.dev.tripClr n))

/-! ### Receive switch (R226 to R228) -/

/-- `HV_RX_WRITE` (R226). -/
def execHvRxWrite (n : Fin 8) (w : BitVec 32) (s : State) : Host.Outcome State Fault Refusal :=
  let mode := bitsOf w.toNat 0 2
  if mode = 3 then .next (s.withDev (s.dev.raise HV_STAT.CFG_REJ n))
  else .next (s.withDev ((s.dev.set HV_RX.MODE n 0 mode).set HV_RX.LINE n 0 (bitsOf w.toNat 4 2)))

/-- The level that a marker line commands: a change at position 96 or later of the present tick does not count yet (R628). -/
def Dev.rxLine (d : Dev) (n : Fin 8) : Bool :=
  let j := d.get HV_RX.LINE n
  let l := d.chs[n].lv
  let up := d.mkBall n j
  if l.mkEn.testBit j && 96 ≤ l.mkAt.getD j (-1000) then !up else up

/-- Whether the switch is commanded closed (R226). -/
def Dev.rxWanted (d : Dev) (n : Fin 8) : Bool :=
  d.get HV_RX.MODE n = 2 || (d.get HV_RX.MODE n = 1 && d.rxLine n)

/-- `RX_COMMAND` (R227): the command in force reaches the switch; an opening command opens it. -/
def execRxCommand (n : Fin 8) (s : State) : Host.Outcome State Fault Refusal :=
  let on := s.dev.rxWanted n
  .next (s.withDev (s.dev.onCh n (fun c => { c with hv := { c.hv with rxCmd := on, rxClosed := c.hv.rxClosed && on } })))

/-- `RX_BALL_IN_BAND` (R227): the switch closes unless a cause of ranks 1 to 4 holds it open (R228). -/
def execRxBallInBand (n : Fin 8) (s : State) : Host.Outcome State Fault Refusal :=
  let d := s.dev
  let ok := d.chs[n].hv.rxCmd && !d.hvOffCause n && !d.hvLatched n && d.chs[n].hv.stage ≠ .off && !d.hvForced n
    && d.chs[n].slot.isNone
  if ok then .next (s.withDev (d.onCh n (fun c => { c with hv := { c.hv with rxClosed := true } }))) else .next s

/-- `RX_WAIT_TIMEOUT` (R227): the closing command still waits. -/
def execRxWaitTimeout (n : Fin 8) (s : State) : Host.Outcome State Fault Refusal :=
  if s.dev.chs[n].hv.rxCmd && !s.dev.chs[n].hv.rxClosed then .next (s.withDev (s.dev.raise HV_STAT.RX_WAIT n)) else .next s

/-! ### Rails (R200, R202) -/

/-- Whether the rails lie inside their fault windows: VHP and the magnitude of VHN in 0.1 V, VHL in 10 mV. -/
def railsIn (hvlim : Bool) (vhp vhn vhl : Nat) : Bool :=
  let top := if hvlim then 1100 else 660
  180 ≤ vhp && vhp ≤ top && 180 ≤ vhn && vhn ≤ top && 450 ≤ vhl && vhl ≤ 550

/-- The channels of an HV die. -/
def chsOf (die : Nat) : List (Fin 8) := if die = 0 then [0, 1, 2, 3] else [4, 5, 6, 7]

/-- Which of VHL (bit 0), VHP (1) and VHN (2) a die finds in their operating ranges (R522). -/
def railsGood (vhp vhn vhl : Nat) : Nat :=
  (if 475 ≤ vhl && vhl ≤ 525 then 1 else 0) + (if 200 ≤ vhp && vhp ≤ 1050 then 2 else 0) + (if 200 ≤ vhn && vhn ≤ 1050 then 4 else 0)

/-- `PWR_RAIL.GOOD` shows an HV rail that both dies find in range (R554; log entry 109, DEDUCED). -/
def Dev.hvGoodShow (d : Dev) : Dev :=
  d.set PWR_RAIL.GOOD 0 0 (d.get PWR_RAIL.GOOD % 1024 + 1024 * (d.porter.goodHv.getD 0 0 &&& d.porter.goodHv.getD 1 0))

/-- A rail measurement of a die; rails that leave their window turn the outputs off (R202, R565). -/
def Dev.railMeasure (d : Dev) (die : Fin 2) (vhp vhn vhl : Nat) : Dev :=
  let d := (chsOf die).foldl (fun d (n : Fin 8) =>
    (((d.set HV_RAIL.VHP n 0 vhp).set HV_RAIL.VHN n 0 (unsigned 16 (-(vhn : Int)))).ilimRefresh n).quietFollow n) d
  let was := d.porter.railIn.getD die false
  let now := railsIn (d.flag HV_STAT.HVLIM (4 * die.val)) vhp vhn vhl
  let d := { d with porter := { d.porter with
    railIn := d.porter.railIn.set die now
    railBad := if now then d.porter.railBad else d.porter.railBad.set die true
    goodHv := d.porter.goodHv.set die (railsGood vhp vhn vhl) } }.hvGoodShow
  if was && !now then
    let d := (chsOf die).foldl (fun d (n : Fin 8) => d.raise HV_STAT.RAIL n) d
    (d.eachCh (fun n d => d.hvDisable n)).fault 1
  else d

/-- `RAIL_MEASURE` (R200). -/
def execRailMeasure (die : Fin 2) (vhp vhn vhl : Nat) (s : State) : Host.Outcome State Fault Refusal :=
  .next (s.withDev (s.dev.railMeasure die vhp vhn vhl))

/-- `RAIL_WINDOW_RESTORED` (R202): enabled channels enter ENABLING at the next joint. -/
def execRailWindowRestored (die : Fin 2) (s : State) : Host.Outcome State Fault Refusal :=
  let d := s.dev
  if d.porter.railIn.getD die false then
    .next (s.withDev { d with porter := { d.porter with railBad := d.porter.railBad.set die false } })
  else .next s

/-! ### Output segments (R234, R235, R579) -/

/-- `SEG_DEGRADED` and the limit in force follow the healthy segments (R235). -/
def Dev.segShow (d : Dev) (n : Fin 8) : Dev :=
  (d.set HV_STAT.SEG_DEGRADED n 0 (if d.segsLeft n < 12 then 1 else 0)).ilimRefresh n

/-- A segment is disconnected and recorded (R234, R579, R583). -/
def Dev.segRetire (d : Dev) (n : Fin 8) (k : Nat) : Dev :=
  if !d.bit HV_SEG.ACTIVE n 0 k then d
  else
    let d := (d.clrBit HV_SEG.ACTIVE n 0 k).setBit HV_SEG.RETIRED n 0 k
    let d := (d.count STK_CHn_WEAR1.SEG_RET n).onCh n (fun c => { c with
      hv := { c.hv with segRet := c.hv.segRet.set k (c.hv.segRet.getD k 0 + 1) } })
    let d := if 3 ≤ d.chs[n].hv.segRet.getD k 0 then d.setBit STK_CHn_WEAR3.SEG_PERM n 0 k else d
    d.segShow n

/-- `SEG_RETIRE` (R234). -/
def execSegRetire (n : Fin 8) (seg : Fin 14) (s : State) : Host.Outcome State Fault Refusal :=
  .next (s.withDev (s.dev.segRetire n seg))

/-- The retired segments of a channel are tested (R579); `passed` names those that share the current. -/
def Dev.segTest (d : Dev) (n : Fin 8) (passed : Nat) : Dev :=
  let back := (List.range 14).filter (fun k => d.bit HV_SEG.RETIRED n 0 k && bitAt passed k && !d.bit STK_CHn_WEAR3.SEG_PERM n 0 k)
  (back.foldl (fun d k => (d.clrBit HV_SEG.RETIRED n 0 k).setBit HV_SEG.ACTIVE n 0 k) d).segShow n

/-- `ENABLING_SWITCH_CLOSE` (R219): the bias phase ends, with the segment tests of the first entry after POR_N (R579); the switch
closes with the DAC at the code for 0 V, or at the forced code where a cause of rank 3 acts (R217, R221). -/
def execEnablingSwitchClose (n : Fin 8) (passed : BitVec 14) (s : State) : Host.Outcome State Fault Refusal :=
  let d := s.dev
  if d.chs[n].hv.stage ≠ .enabling then .next s
  else
    let d := if d.chs[n].hv.enabledOnce then d else d.segTest n passed.toNat
    .next (s.withDev ((d.onCh n (fun c => { c with hv := { c.hv with stage := .on, d := 0, code := 0, enabledOnce := true } })).forceNow n))

/-! ### HV_EN (R220) -/

/-- Every channel whose supply was there (`was`) begins an HV removal: the 1 ms of R220 counts anew (log entry 79, DEDUCED). -/
def Dev.removeHv (d was : Dev) : Dev :=
  { d with porter := { d.porter with hvReady := false } }.eachCh (fun n d => d.rampDown n (was.hvRemoved n))

/-- `HV_EN_FALL` (R220). -/
def execHvEnFall (s : State) : Host.Outcome State Fault Refusal :=
  .next (s.withDev ({ s.dev with porter := { s.dev.porter with hvEn := false } }.removeHv s.dev))

/-- `HV_RAMPDOWN_END` (R220). -/
def execHvRampdownEnd (s : State) : Host.Outcome State Fault Refusal :=
  .next (s.withDev (s.dev.eachCh (fun n d => d.rampEnd n)))

/-- `HV_EN_RISE` (R220): the 1 ms begins. -/
def execHvEnRise (s : State) : Host.Outcome State Fault Refusal :=
  .next (s.withDev { s.dev with porter := { s.dev.porter with hvEn := true, hvReady := false } })

/-- `HV_EN_STABLE` (R220, R560): 1 ms with HV_EN high and no HV_OFF in force. -/
def execHvEnStable (s : State) : Host.Outcome State Fault Refusal :=
  let p := s.dev.porter
  if p.hvEn && !p.hvOff && !p.tsdLog then .next (s.withDev { s.dev with porter := { p with hvReady := true } }) else .next s

/-! ### Current limit (R230 to R232) -/

/-- `ILIM_ONSET` (R230). -/
def execIlimOnset (n : Fin 8) (s : State) : Host.Outcome State Fault Refusal := .next (s.withDev (s.dev.limitOnset n))

/-- `SHORT_DECLARED` (R231, R232): the sample that brings the integrator to its threshold, `gapMs` after the short before it. -/
def execShortDeclared (n : Fin 8) (gapMs : Nat) (s : State) : Host.Outcome State Fault Refusal :=
  let d := s.dev
  if 500 * d.get HV_ILIM_EFF.SC_EFF n ≤ d.chs[n].hv.integ + 1 then .next (s.withDev (d.shortDeclared n gapMs)) else .next s

/-- `FOLD_BACK_END` (R229, R232). -/
def execFoldBackEnd (n : Fin 8) (s : State) : Host.Outcome State Fault Refusal :=
  .next (s.withDev ((s.dev.clear HV_STAT.FOLD n).ilimRefresh n))

/-! ### Power limits (R236, R237) -/

/-- `PWR_LIMIT_CROSSED` (R236, R237): the sample whose power brings an estimate over a level. -/
def execPwrLimitCrossed (n : Fin 8) (x : LoadSample) (s : State) : Host.Outcome State Fault Refusal :=
  let d := s.dev
  .next (s.withDev (((d.loadSample n x.v.toInt x.i.toInt).powerShow n).powerActs n (d.chPower n)))

/-- The second stage of a trip (R237): the estimate still stands at its limit. -/
def Dev.tripSecond (d : Dev) (n : Fin 8) (total : Bool) : Dev :=
  if total then
    if 24000 ≤ d.totPower && d.chs[n].hv.totTrip = 1 then
      (d.eachCh (fun k d => ((d.raise HV_STAT.TOT_TRIP k).onCh k (fun c => { c with hv := { c.hv with totTrip := 2 } })).hvDisable k)).fault 3
    else d
  else if 3500 ≤ d.chPower n && d.chs[n].hv.trip = 1 then
    (((d.raise HV_STAT.PWR_TRIP n).onCh n (fun c => { c with hv := { c.hv with trip := 2 } })).hvDisable n).fault 3
  else d

/-- `PWR_TRIP_SECOND_STAGE` (R237). -/
def execPwrTripSecondStage (n : Fin 8) (total : Bool) (s : State) : Host.Outcome State Fault Refusal :=
  .next (s.withDev (s.dev.tripSecond n total))

/-! ### Sample link (R529, R566) -/

/-- A bad sample word, the `inRow`-th in a row: the code before it is repeated; the fourth forces the channel. -/
def Dev.sampleBad (d : Dev) (n : Fin 8) (inRow : Nat) : Dev :=
  let at_ := d.time.abs
  let d := (d.count PWR_LINK.SAMPLE).onCh n (fun c => { c with hv := { c.hv with code := c.hv.prev, linkAt := at_ } })
  if 4 ≤ inRow then ((d.onCh n (fun c => { c with hv := { c.hv with linkBad := true } })).forceCh n).fault 4 else d

/-- `SAMPLE_WORD_BAD` (R529). -/
def execSampleWordBad (n : Fin 8) (inRow : Nat) (s : State) : Host.Outcome State Fault Refusal :=
  .next (s.withDev (s.dev.sampleBad n inRow))

/-! ### HV at a joint -/

/-- The settings of a channel that land at a joint, and its way into ENABLING (R181, R190, R202, R204, R207, R209, R218 to
R220, R566). -/
def Dev.outputJoint (d : Dev) (n : Fin 8) : Dev :=
  let en := d.flag HV_CTRL.EN n
  let off := d.chs[n].hv.en && !en
  let d := if d.chs[n].hv.swap then d.set HV_STAT.PD_BANK n 0 (1 - d.get HV_STAT.PD_BANK n) else d
  let at_ := d.time.abs
  let d := d.onCh n (fun c => { c with
    lv := { c.lv with en := d.flag LV_CTRL.EN n, mkEn := d.get MK_CTRL.EN n }
    hv := { c.hv with
      en := en, swap := false
      sl := d.flag HV_CTRL.SL_EN n, pd := d.flag HV_CTRL.PD_EN n
      linkBad := c.hv.linkBad && decide (at_ < c.hv.linkAt + 250000) } })
  let d := if off then d.hvDisable n else d
  if d.hvMayEnable n then d.onCh n (fun c => { c with hv := { c.hv with stage := .enabling } }) else d

end Sys2Proof.Machine
end

