-- ==== Sys2Proof/Machine/Mason.lean ====
section
/-!
DEFINITION. The Mason (chapter 09): the namespace and its extents, frames and copies, the walk of a step graph, requests to
host backing, the at-risk check, horizons, starvation, and what the Mason does at a joint.
-/
namespace Sys2Proof.Machine
open Reg

/-! ### Pages -/

/-- The first page and the count of an extent's words (R325). -/
def extStart (w : List Nat) : Nat := w.getD 0 0 + 2 ^ 32 * bitsOf (w.getD 1 0) 0 4

/-- The host bus address of a DIRECT extent (R325). -/
def extAddr (w : List Nat) : Nat := w.getD 4 0 + 2 ^ 32 * w.getD 5 0

/-- The host bus address from which a DIRECT extent's page is read (R325). -/
def extPage (w : List Nat) (p : Nat) : Nat := (extAddr w + (p - extStart w) * 65536) % 2 ^ 64

/-- The type of an extent: 0 NONE, 1 DIRECT, 2 SERVICED. -/
def extType (w : List Nat) : Nat := bitsOf (w.getD 3 0) 0 2

/-- The declared latency of a SERVICED extent in µs. -/
def extLat (w : List Nat) : Nat := bitsOf (w.getD 3 0) 16 16

/-- Whether an extent covers a page. -/
def extHas (w : List Nat) (p : Nat) : Bool := extStart w ≤ p && p < extStart w + w.getD 2 0

/-- The committed extent that covers a page. -/
def Dev.extOf (d : Dev) (p : Nat) : Option (Nat × List Nat) := d.mason.exts.find? (fun e => extHas e.2 p)

/-- A page is HELD (R300). -/
def Dev.isHeld (d : Dev) (p : Nat) : Bool := (d.mason.held.lookup p).isSome

/-- A page has content: BACKED or HELD (R300). -/
def Dev.pageDefined (d : Dev) (p : Nat) : Bool := d.isHeld p || (d.extOf p).isSome

/-- A segment is defined (R300). -/
def Dev.segDefined (d : Dev) (x : Desc) : Bool := x.pages.all d.pageDefined

/-- A copy that nothing has replaced or released, and that has not been found uncorrectable. -/
def Copy.good (c : Copy) : Bool := c.till.isNone && !c.poison

/-- A good copy that may be staged: its joint has come (R318). -/
def Dev.usable (d : Dev) (c : Copy) : Bool := c.good && c.left = 0 && c.since ≤ d.time.crs

/-- A page is in a channel's DRAM, usable for staging. -/
def Dev.inDram (d : Dev) (n p : Nat) : Bool := d.mason.copies.any (fun c => c.page = p && c.ch = n && d.usable c)

/-- A page is in a channel's DRAM or on its way there: what it still waits for is its joint or the copy budget. -/
def Dev.coming (d : Dev) (n p : Nat) : Bool := d.mason.copies.any (fun c => c.page = p && c.ch = n && c.good)

/-! ### Frames (R306, R370, R371, R388, R402) -/

/-- The lowest 96 frames of each rank are reserved. -/
def Dev.frameReserved (d : Dev) (f : Nat) : Bool := f % rankFrames d.flash.half < 96

/-- A rank takes pages. -/
def Dev.rankOpen (d : Dev) (n r : Nat) : Bool := d.get DMC_RANKr.STATE n r = 0

/-- A frame of the channel may hold content: not reserved, not retired, not in a capture ring; with `MIRROR` those of rank
0 alone, which both ranks hold (R402). -/
def Dev.frameUsable (d : Dev) (n f : Nat) : Bool :=
  !d.frameReserved f && !d.mason.reserved.contains (n, f) && !d.mason.retired.contains (n, f) && !(d.mason.capRings.any (fun r => r.1 = n && r.2.2.1 ≤ f && f < r.2.2.1 + r.2.2.2))
  && (!d.flag DMC_CTRL.MIRROR n || f < rankFrames d.flash.half)

/-- A frame holds a page. -/
def Dev.frameUsed (d : Dev) (n f : Nat) : Bool := d.mason.copies.any (fun c => c.ch = n && c.frame = f)

/-- A page may be placed in a frame as far as its ranks go: its own takes pages, with `MIRROR` one of the two (R399, R401, R402). -/
def Dev.frameOpen (d : Dev) (n f : Nat) : Bool :=
  if d.flag DMC_CTRL.MIRROR n then d.rankOpen n 0 || d.rankOpen n 1 else d.rankOpen n (d.rankOf f)

/-- A frame is in service: its rank is not retired, with `MIRROR` one of the two is not (R401, R402). -/
def Dev.frameLives (d : Dev) (n f : Nat) : Bool :=
  if d.flag DMC_CTRL.MIRROR n then d.get DMC_RANKr.STATE n 0 ≠ 3 || d.get DMC_RANKr.STATE n 1 ≠ 3 else d.get DMC_RANKr.STATE n (d.rankOf f) ≠ 3

/-- A free frame for a page: the lowest for content that is retained, else the highest (R388). -/
def Dev.freeFrame (d : Dev) (n : Nat) (low : Bool) : Option Nat :=
  let ok := fun f => d.frameUsable n f && !d.frameUsed n f && !d.mason.retire.contains (n, f) && d.frameOpen n f
  if low then (List.range d.framesAll).find? ok else ((List.range d.framesAll).map (fun i => d.framesAll - 1 - i)).find? ok

/-- The usable frames of a channel: those of ranks that are not retired. -/
def Dev.usableFrames (d : Dev) (n : Nat) : Nat :=
  ((List.range d.framesAll).filter (fun f => d.frameUsable n f && d.frameLives n f)).length

/-- The at-risk check runs on its own: one of its inputs has changed (chapter 09, "The at-risk check"). -/
def Dev.checkRuns (d : Dev) : Dev := d.raise MSN_STAT.CHECK_BUSY

/-- `MSN_FRAMESn` and `MSN_FREEn` follow; a change of the usable frames starts the check. -/
def Dev.framesShow (d : Dev) (n : Nat) : Dev :=
  let u := d.usableFrames n
  let held := (((d.mason.copies.filter (fun c => c.ch = n)).map (·.frame)).eraseDups).length
  let d := if u = d.get MSN_FRAMESn.USABLE n then d else d.checkRuns
  (d.set MSN_FRAMESn.USABLE n 0 u).set MSN_FREEn.FREE n 0 (u - held)

/-- A stretch of channel n reads a copy: its rings stage one of its ranges from it (R45, R310). -/
def Dev.readsCopy (d : Dev) (n : Nat) (c : Copy) (f : Frag) : Bool :=
  f.ranges.any (fun r => (pagesOf r.1 r.2).contains c.page && (d.residentFor n f.laid r).isNone) && d.copyFor n c.page f.laid = some c

/-- Some laid entry, or the one that plays, still reads a copy that is released (R45): a copy serves the laid courses of its own channel. -/
def Dev.bound (d : Dev) (c : Copy) : Bool :=
  d.chs[Fin.ofNat 8 c.ch].entries.any (fun e => d.time.crs ≤ e.crs && e.frags.any (d.readsCopy c.ch c))

/-- A page of content written into a frame of a channel, usable from the next joint (R318); of `left` bytes the copy budget decides
(R319). -/
def placeIn (n page frame : Nat) (held : Bool) (left : Nat) (bytes : List (BitVec 8)) (p : Dev × Memory) : Dev × Memory :=
  let d := p.1
  let c : Copy := { page := page, ch := n, frame := frame, since := d.time.crs + 1, till := none, held := held, poison := false,
                    last := d.time.crs, left := left, played := false }
  let d := { d with mason := { d.mason with copies := d.mason.copies ++ [c], wants := d.mason.wants.filter (fun w => !(w.ch = n && w.page = page)) } }
  let d := d.request n (d.rankOf frame) 4
  (d.framesShow n, p.2.writeBytes (dramAt n (frame * 65536)) (bytes.take 65536))

/-- The 64 KiB of a copy. -/
def copyBytes (m : Memory) (c : Copy) : List (BitVec 8) := m.readBytes (dramAt c.ch (c.frame * 65536)) 65536

/-! ### Descriptors (R78, R79, R303, R304) -/

/-- The descriptor as last written, its joint come or not. -/
def Dev.descLatest (d : Dev) (i : Nat) : List Nat := (d.mason.descPend.lookup i).getD (d.descWords i)

/-- Whether words may be written into descriptor i. -/
def Dev.descLegal (d : Dev) (i : Nat) (w : List Nat) : Bool :=
  let g := fun k => w.getD k 0
  let x := Desc.ofWords w
  let others := ((d.mason.descPend ++ d.mason.descs).map (·.1)).eraseDups.filter (fun j => j ≠ i)
  bitsOf (g 1) 27 1 = 0 && bitsOf (g 1) 30 1 = 0 && bitsOf (g 3) 14 2 = 0 && bitsOf (g 3) 18 14 = 0 && bitsOf (g 4) 20 12 = 0
  && bitsOf (g 5) 18 14 = 0 && x.fbKind ≠ 3 && bitsOf (g 5) 16 2 ≠ 3
  && (x.kind = 3 || (4 ≤ x.len64 && x.len64 ≤ 2 ^ 26 && x.ns + x.bytes ≤ 2 ^ 52
    && (bitsOf (g 5) 0 8 = 0 || x.bytes ≤ 3840 * 1024)
    && others.all (fun j => (Desc.ofWords (d.descLatest j)).kind = 3 || (Desc.ofWords (d.descLatest j)).segId ≠ x.segId)))

/-- A descriptor write accepted: it is in force for courses laid from the next joint. -/
def Dev.descAccept (d : Dev) (i : Nat) (w : List Nat) : Dev :=
  let old := d.descLatest i
  let w1 := w.getD 1 0 % 2 ^ 31 + (if bitAt (old.getD 1 0) 31 then 2 ^ 31 else 0)
  let ws := [w.getD 0 0, w1, w.getD 2 0, w.getD 3 0, w.getD 4 0, w.getD 5 0, 0, (old.getD 7 0 + 1) % 65536]
  { d with mason := { d.mason with descPend := (i, ws) :: d.mason.descPend.filter (fun x => x.1 ≠ i) } }

/-- Channel n's step table names a descriptor. -/
def Dev.names (d : Dev) (m : Memory) (n i : Nat) : Bool :=
  let _ := d
  (List.range 8192).any (fun s => let x := readStep m n s; x.type = 0 && x.segs.any (fun y => y.2 = i))

/-- The eight words of a descriptor as a read shows them, D6 kept by the device (R303). -/
def Dev.descView (d : Dev) (m : Memory) (i : Nat) : List Nat :=
  let ws := d.descLatest i
  let x := Desc.ofWords ws
  let bits := fun (f : Nat → Bool) => ((List.range 8).filter f).foldl setBitAt 0
  let use := bits (fun n => d.names m n i)
  let dram := bits (fun n => x.kind ≠ 3 && x.pages.all (d.inDram n))
  let sram := bits (fun n => d.mason.resident.any (fun r => r.ch = n && r.head.isNone && r.desc = i && r.till.isNone && r.since.any (· ≤ d.time.crs)))
  let risk := bits (fun n => (d.mason.risks.getD n []).any (fun r => (readStep m n r.step).segs.any (fun y => y.2 = i)))
  ws.set 6 (use + 2 ^ 8 * dram + 2 ^ 16 * sram + 2 ^ 24 * risk)

/-- `MSN_DESC_WINDOW_READ` (R340). -/
def execMsnDescWindowRead (s : State) : Host.Outcome State Fault Refusal :=
  let d := s.dev
  let ws := d.descView s.mem (d.get MSN_DESC_IDX.IDX)
  .next (s.withDev ((List.range 8).foldl (fun d w => d.set MSN_DESC_Dw.WORD w 0 (ws.getD w 0)) d))

/-- `MSN_DESC_WINDOW_WRITE` (R304). -/
def execMsnDescWindowWrite (s : State) : Host.Outcome State Fault Refusal :=
  let d := s.dev
  let i := d.get MSN_DESC_IDX.IDX
  let ws := (List.range 8).map (fun w => d.get MSN_DESC_Dw.WORD w)
  if d.descLegal i ws then .next (s.withDev (d.descAccept i ws)) else .next (s.withDev (d.raise MSN_STAT.DESC_REJ))

/-! ### Extents (R325, R326) -/

/-- Whether an extent may be committed at an index. -/
def Dev.extLegal (d : Dev) (i : Nat) (w : List Nat) : Bool :=
  let a := extStart w
  let k := w.getD 2 0
  extType w ≠ 3 && !(extType w = 2 && extLat w = 0) && a + k ≤ 2 ^ 36 && d.mason.held.all (fun h => !extHas w h.1)
  && d.mason.exts.all (fun e => e.1 = i || e.2.getD 2 0 = 0 || k = 0 || a + k ≤ extStart e.2 || extStart e.2 + e.2.getD 2 0 ≤ a)

/-- An extent commit accepted for the next joint. -/
def Dev.extAccept (d : Dev) (i : Nat) (w : List Nat) (cmd : Option (Nat × Nat)) : Dev :=
  { d with mason := { d.mason with extPend := some (i, w, cmd) } }.raise MSN_EXT_CMD.PEND

/-- `MSN_EXT_COMMIT` (R326). -/
def execMsnExtCommit (idx : BitVec 12) (s : State) : Host.Outcome State Fault Refusal :=
  let d := s.dev
  let w := (List.range 8).map (fun k => d.get MSN_EXTi_w.WORD idx.toNat k)
  if d.mason.extPend.isSome || !d.extLegal idx.toNat w then .next (s.withDev (d.raise MSN_STAT.EXT_REJ))
  else .next (s.withDev (d.extAccept idx.toNat w none))

/-- A page that the extents' change touches forgets what its old backing did. -/
def Mason.forget (x : Mason) (hit : Nat → Bool) : Mason :=
  { x with
    unavail := x.unavail.filter (fun p => !hit p)
    failed := x.failed.filter (fun p => !hit p)
    wants := x.wants.filter (fun w => !hit w.page)
    waits := x.waits.filter (fun w => !hit w.page)
    again := x.again.filter (fun w => !hit w.1) }

/-- Resident content is given up from joint j on: what has not come goes at once (R318). -/
def Resident.leave (j : Nat) (hit : Resident → Bool) (l : List Resident) : List Resident :=
  (l.filter (fun r => !(hit r && r.since.isNone))).map (fun r => if hit r && r.till.isNone then { r with till := some j } else r)

/-- Resident content holds part of a page that a condition hits. -/
def Resident.holds (r : Resident) (hit : Nat → Bool) : Bool := (pagesOf r.ns r.bytes).any hit

/-- The commit at its joint: the copies of the extent's old and new pages are discarded (R326). -/
def Dev.extLand (d : Dev) : Dev :=
  match d.mason.extPend with
  | none => d
  | some (i, w, cmd) =>
    let old := (d.mason.exts.lookup i).getD []
    let hit := fun p => extHas w p || extHas old p
    let x := d.mason.forget hit
    let rest := x.exts.filter (fun e => e.1 ≠ i)
    let j := d.time.crs
    let x := { x with
      exts := if extType w = 0 then rest else rest ++ [(i, w)]
      extPend := none
      copies := x.copies.map (fun c => if hit c.page && !c.held && c.till.isNone then { c with till := some j } else c)
      resident := Resident.leave j (fun r => r.holds hit) x.resident }
    let d := { d with mason := x }.clear MSN_EXT_CMD.PEND
    match cmd with
    | some c => d.finish c.1 c.2 0 [i]
    | none => d

/-! ### The step graph (R314, R320) -/

/-- A step can follow a step this many ticks after it begins (chapter 09, "The walk"); a WAIT step ends only by a jump. -/
def Dev.stepEdges (d : Dev) (m : Memory) (n i : Nat) : List (Nat × Nat) :=
  let s := readStep m n i
  let len := d.get CRS_LEN.LEN
  let all :=
    if s.type = 1 then [(i + 1, (slotTicks (s.mkOpd % 4) + len - 1) / len * len)]
    else if s.type = 0 then
      (if s.rep = 1 then [] else (i + 1, d.passTicks s) :: (if s.lpClose then [(s.lpBegin, d.passTicks s)] else []))
      ++ s.targets.map (fun t => (t, 0))
    else []
  all.filter (fun x => x.1 ≤ 8191)

/-- Least arrivals from steps with their times, in ticks. -/
def arrive (edges : Nat → List (Nat × Nat)) : Nat → List (Nat × Nat) → List (Nat × Nat) → List (Nat × Nat)
  | 0, _, best => best
  | _ + 1, [], best => best
  | k + 1, (i, t) :: rest, best =>
    if (best.lookup i).any (fun u => u ≤ t) then arrive edges k rest best
    else arrive edges k (rest ++ (edges i).map (fun e => (e.1, t + e.2))) ((i, t) :: best.filter (fun b => b.1 ≠ i))

/-- The targets of jump inputs that some step enables, by step. -/
def Dev.jumpTargets (d : Dev) (m : Memory) (n : Nat) (fast : Bool) : List Nat :=
  let _ := d
  ((List.range 8192).flatMap (fun i => let s := readStep m n i
    if s.type = 0 && (s.jmpMode = 2) = fast then s.targets.filter (fun t => t ≤ 8191) else [])).eraseDups


/-- The entry points, ranked as the check ranks their heads (R321). -/
def Dev.entryPoints (d : Dev) (m : Memory) (n : Nat) : List Nat :=
  (d.get SEQ_CTRL.START_STEP n :: (d.jumpTargets m n true ++ d.declared n ++ d.jumpTargets m n false)).eraseDups

/-- The jumps that a step enables, taken at its first sample. -/
def jumpEdges (s : Step) (t : Nat) : List (Nat × Nat) := (if s.type = 0 then s.targets.filter (fun j => j ≤ 8191) else []).map (fun j => (j, t))

/-- The path from a step with loops under way, with the loop counts in force (R82, R314): the arrivals on it while any loop is, and the
ways that leave it, by a jump or at the end of the last loop. -/
def Dev.livePath (d : Dev) (m : Memory) (n : Nat) : Nat → Nat → List Lvl → Nat → List (Nat × Nat) × List (Nat × Nat)
  | 0, _, _, _ => ([], [])
  | k + 1, i, st, t =>
    let s := readStep m n i
    let go := fun (j : Nat) (st : List Lvl) (u : Nat) =>
      let r := d.livePath m n k j st u
      ((i, t) :: r.1, jumpEdges s t ++ r.2)
    let stop := ([(i, t)], jumpEdges s t)
    if 8191 < i then ([], [])
    else if st.isEmpty then ([], [(i, t)])
    else if s.type = 1 then go (i + 1) st (t + slotTicks (s.mkOpd % 4))
    else if s.type = 2 || s.rep = 1 then stop
    else match nextStep s i st with
      | .go j st' => go j st' (t + d.passTicks s)
      | .fault _ => stop

/-- The stretch that a running sequencer plays. -/
def Chan.playing (c : Chan) : Option Frag := c.now.filter (fun f => f.what = .run)

/-- The playing position, with the live loop state (R314): arrivals in the loops under way, and what else may follow. -/
def Dev.playStarts (d : Dev) (m : Memory) (n : Fin 8) : List (Nat × Nat) × List (Nat × Nat) :=
  match d.chs[n].playing with
  | none => ([], [])
  | some f =>
    let s := readStep m n f.step
    let r := if s.rep = 1 then ([], []) else match nextStep s f.step f.stack with
      | .go j st => d.livePath m n (2 ^ 26) j st (d.passTicks s - (f.ofs + 1))
      | .fault _ => ([], [])
    ((f.step, 0) :: r.1, jumpEdges s 0 ++ r.2)

/-- The earliest arrivals of channel n's steps, in ticks from now. -/
def Dev.arrivals' (d : Dev) (m : Memory) (n : Fin 8) : List (Nat × Nat) :=
  let x := d.playStarts m n
  let all := arrive (d.stepEdges m n) (2 ^ 26) ((d.entryPoints m n).map (fun i => (i, 0)) ++ x.2) []
  x.1.foldl (fun l a => if (l.lookup a.1).any (fun u => u ≤ a.2) then l else a :: l.filter (fun b => b.1 ≠ a.1)) all

/-- The pages that bytes of the segments a step names lie in, `whole` or as far as its pass plays them, each with the ticks into the
step at which its first byte plays; of a DAMAGED descriptor those of its fallback (R315, R324). -/
def Dev.stepPages (d : Dev) (m : Memory) (whole : Bool) (n i : Nat) : List (Nat × Nat) :=
  let s := readStep m n i
  if s.type ≠ 0 then [] else
  s.segs.flatMap (fun y => match d.played y.2 with
    | none => []
    | some x =>
      let b := bytesPerTick y.1
      (if whole then x.pages else pagesOf x.ns (b * d.passTicks s)).map (fun p => (p, (p * 65536 - x.ns) / b)))

/-- Insert by arrival. -/
def insertBy {α : Type} (key : α → Nat) (a : α) : List α → List α
  | [] => [a]
  | b :: r => if key a ≤ key b then a :: b :: r else b :: insertBy key a r

/-- A list in rising order of a key. -/
def sortBy {α : Type} (key : α → Nat) (l : List α) : List α := l.foldr (insertBy key) []

/-- The first of each page in a list in order of arrival. -/
def firstOf (l : List (Nat × Nat)) : List (Nat × Nat) :=
  (sortBy (·.2) l).foldl (fun l x => if l.any (fun y => y.1 = x.1) then l else l ++ [x]) []

/-- The pages of the segments named by steps that arrive within the DRAM horizon, in order of earliest arrival (R315): page and ticks
from now. -/
def Dev.pageNeeds (d : Dev) (m : Memory) (n : Fin 8) : List (Nat × Nat) :=
  let near := (d.arrivals' m n).filter (fun a => a.2 ≤ d.chs[n].dhz * 250000)
  firstOf (near.flatMap (fun a => (d.stepPages m true n a.1).map (fun p => (p.1, a.2 + p.2))))

/-- The pages pinned in a channel's DRAM. -/
def Dev.pinned (d : Dev) (n : Nat) : List Nat :=
  (d.mason.descs.flatMap (fun e => if bitAt (e.2.getD 5 0) (8 + n) then (Desc.ofWords e.2).pages else [])).eraseDups

/-- The eviction class of a page: 0 STREAM, 1 NORMAL, 2 PARKED. -/
def Dev.pageClass (d : Dev) (p : Nat) : Nat :=
  let cs := (d.mason.descs.filter (fun e => (Desc.ofWords e.2).pages.contains p)).map (fun e => bitsOf (e.2.getD 5 0) 16 2)
  if cs.contains 2 then 2 else if cs.contains 0 || cs.isEmpty then 1 else 0

/-! ### Blocks of segment SRAM (R308 to R313, R356) -/

/-- 1 KiB blocks of the segment area that the capture rings of a channel running SRAM-only take (R269, log entry 60). -/
def Dev.ringSram (d : Dev) (n : Nat) : Nat :=
  64 * ((d.mason.capRings.filter (fun r => r.1 = n && framesOf false ≤ r.2.2.1)).map (fun r => r.2.2.2)).sum

/-- The highest-numbered healthy segment bank of a channel (R356, R361). -/
def Dev.topBank (d : Dev) (n : Nat) : Nat :=
  (((List.range 16).reverse).find? (fun b => b ≠ 0 && !d.bit MEM_BANKn.RETIRED n 0 b)).getD 15

/-- The bank that the step table of a channel lies in, or goes to at the next joint (R356). -/
def Dev.stepHome (d : Dev) (n : Nat) : Nat :=
  let b := d.get MEM_MAPn.STEP_BANK n
  if d.bit MEM_BANKn.RETIRED n 0 b then d.topBank n else b

/-- A bank of a channel is taken out of the Mason's hands by a march test: evacuated, tested, or not returned yet (R361). -/
def Dev.marched (d : Dev) (n b : Nat) : Bool :=
  (d.sram.test.toList ++ d.sram.back).any (fun t => t.ch = n && (t.bank = b || t.lent = some b))

/-- 1 KiB blocks of the segment area that are in service. -/
def Dev.segBlocks (d : Dev) (n : Nat) : Nat :=
  256 * ((List.range 16).filter (fun b => b ≠ 0 && b ≠ d.stepHome n && !d.bit MEM_BANKn.RETIRED n 0 b && !d.marched n b)).length - d.ringSram n

/-- ⌈a / b⌉. -/
def ceilDiv (a b : Nat) : Nat := (a + b - 1) / b

/-- The kinds of track that a channel's table names segments on. -/
def Dev.trackKinds (d : Dev) (m : Memory) (n : Nat) : List Nat :=
  let _ := d
  [0, 1, 2].filter (fun k => (List.range 8192).any (fun i => let s := readStep m n i; s.type = 0 && s.segs.any (fun y => y.1 = k)))

/-- Blocks of both rings of each track (R308). -/
def Dev.ringBlocks (d : Dev) (m : Memory) (n lead : Nat) : Nat :=
  if d.flag MSN_CHn_STAT.SRAM_ONLY n then 0
  else ((d.trackKinds m n).map (fun k => 2 * ceilDiv (lead * (if k = 0 then 8000 else 1000)) 1024)).sum

/-- The path that the sequencer takes when no event arrives, up to a time in ticks: steps with their times. -/
def Dev.predicted (d : Dev) (m : Memory) (n lim : Nat) : Nat → Nat → List Lvl → Nat → List (Nat × Nat)
  | 0, _, _, _ => []
  | k + 1, i, st, t =>
    let s := readStep m n i
    if lim ≤ t || 8191 < i then []
    else if s.type = 2 then []
    else if s.type = 1 then d.predicted m n lim k (i + 1) st (t + slotTicks (s.mkOpd % 4))
    else if d.passTicks s = 0 then []
    else (i, t) :: (match nextStep s i st with
      | .go j st' => d.predicted m n lim k j st' (t + d.passTicks s)
      | .fault _ => [])

/-- The head of an entry point of `us` µs (R310): of each segment that its tracks play, the descriptor, the place and how many bytes,
once however often the path passes it. -/
def Dev.headParts (d : Dev) (m : Memory) (n us i : Nat) : List (Nat × Nat × Nat) :=
  let lim := us * 250
  let parts := (d.predicted m n lim (lim + 2) i [] 0).flatMap (fun x =>
    let s := readStep m n x.1
    s.segs.filterMap (fun y => (d.played y.2).map (fun z => (y.2, z.ns, min (d.passTicks s) (lim - x.2) * bytesPerTick y.1))))
  parts.foldl (fun l x => match l.find? (fun y => y.1 = x.1) with
    | some y => if y.2.2 < x.2.2 then x :: l.filter (fun y => y.1 ≠ x.1) else l
    | none => l ++ [x]) []

/-- Blocks of the head of an entry point: each segment's part in whole blocks (R310). -/
def Dev.headBlocks (d : Dev) (m : Memory) (n us i : Nat) : Nat := ((d.headParts m n us i).map (fun x => ceilDiv x.2.2 1024)).sum

/-- Blocks of a whole segment. -/
def Desc.blocks (x : Desc) : Nat := ceilDiv x.bytes 1024

/-- The resident window W in ticks (R311). -/
def Dev.window (d : Dev) (n : Fin 8) : Nat := max (d.chs[n].lead * 250) ((d.chs[n].ahead + 1) * d.get CRS_LEN.LEN)

/-- The entry points whose heads are resident now: `START_STEP`, declared ones, and targets of steps within W (R311). -/
def Dev.headsNow (d : Dev) (m : Memory) (n : Fin 8) : List Nat :=
  let near := ((d.arrivals' m n).filter (fun a => a.2 ≤ d.window n)).flatMap (fun a =>
    let s := readStep m n a.1; if s.type = 0 then s.targets.filter (fun t => t ≤ 8191) else [])
  (d.get SEQ_CTRL.START_STEP n :: (d.declared n ++ near)).eraseDups

/-- The steps that the path without events passes from a step on, each once: to an END step, a step that repeats, or the close of a
loop that no count ends, which is illegal (R82, R83). -/
def pathSteps (m : Memory) (n : Nat) : Nat → Nat → List Nat
  | 0, _ => []
  | k + 1, i =>
    let s := readStep m n i
    if 8191 < i || s.type = 2 then []
    else i :: (if s.type = 0 && (s.rep = 1 || (s.lpClose && s.lpCount = 0)) then [] else pathSteps m n k (i + 1))

/-- The descriptors that the steps of a loop's body name. -/
def bodySegs (m : Memory) (n beg close : Nat) : List Nat :=
  ((List.range (close + 1 - beg)).flatMap (fun k => let s := readStep m n (beg + k); if s.type = 0 then s.segs.map (·.2) else [])).eraseDups

/-- The descriptors pinned in a channel's segment SRAM (R303). -/
def Dev.pinsSram (d : Dev) (n : Nat) : List Nat :=
  (d.mason.descs.filter (fun e => bitAt (e.2.getD 5 0) n && (Desc.ofWords e.2).kind ≠ 3)).map (·.1)

/-- A loop that closes at step i, which the path comes to, is to return to its beginning: more passes follow the one in hand. -/
def returns (m : Memory) (n : Nat) (st : List Lvl) (i : Nat) : Bool :=
  let s := readStep m n i
  s.type = 0 && s.lpClose && (match st.find? (fun l => l.close = i) with | some l => l.done + 1 < s.lpCount | none => 1 < s.lpCount)

/-- The loops on the predicted path, by first and closing step (R313): those that it comes to, and those inside a loop that will return. -/
def Dev.pathLoops (d : Dev) (m : Memory) (n : Fin 8) : List (Nat × Nat) :=
  let f := d.chs[n].playing
  let fwd := pathSteps m n 8192 ((f.map (·.step)).getD (d.get SEQ_CTRL.START_STEP n))
  let st := (f.map (·.stack)).getD []
  let back := (fwd.filter (returns m n st)).flatMap (fun i => let b := (readStep m n i).lpBegin; (List.range (i + 1 - b)).map (· + b))
  ((fwd ++ back).eraseDups).filterMap (fun i => let s := readStep m n i
    if s.type = 0 && s.lpClose then some (s.lpBegin, i) else none)

/-- What may be resident, in the order of R313, each group whole or not at all: pinned segments; loop bodies on the predicted path and
segments whose staging has been limited (R390), by arrival; segments named within W. -/
def Dev.residentOrder (d : Dev) (m : Memory) (n : Fin 8) : List (List Nat) :=
  let arr := d.arrivals' m n
  let bodies := (d.pathLoops m n).map (fun x => ((arr.lookup x.1).getD (2 ^ 64), bodySegs m n x.1 x.2))
  let hot := (d.mason.descs.filter (fun e => d.mason.hot.any (fun h => h.1 = n && (Desc.ofWords e.2).pages.contains h.2))).map (fun e =>
    (((arr.filter (fun a => (readStep m n a.1).segs.any (fun y => y.2 = e.1))).map (·.2)).foldl min (2 ^ 64), [e.1]))
  let near := (sortBy (·.2) (arr.filter (fun a => a.2 ≤ d.window n))).flatMap (fun a => (readStep m n a.1).segs.map (·.2))
  (d.pinsSram n).map (fun i => [i]) ++ (sortBy (·.1) (bodies ++ hot)).map (·.2) ++ near.map (fun i => [i])

/-- A page from which resident blocks of channel n can be filled (R307, R338): it is in the channel's DRAM; for a channel that runs
SRAM-only it has content anywhere. -/
def Dev.fillable (d : Dev) (n p : Nat) : Bool := if d.flag MSN_CHn_STAT.SRAM_ONLY n then d.pageDefined p else d.inDram n p

/-- The groups that fit in a number of blocks, in order, as descriptors. -/
def Dev.fitResident (d : Dev) (n : Fin 8) : List (List Nat) → List Nat → Nat → List Nat
  | [], got, _ => got
  | g :: r, got, room =>
    let new := g.filter (fun i => !got.contains i)
    let size := (new.map (fun i => (d.desc i).blocks)).sum
    if new.all (fun i => (d.desc i).kind ≠ 3 && (d.desc i).pages.all (d.fillable n)) && size ≤ room then d.fitResident n r (got ++ new) (room - size)
    else d.fitResident n r got room

/-- A head lies in resident blocks, complete (R311). -/
def Dev.headIn (d : Dev) (m : Memory) (n : Fin 8) (i : Nat) : Bool :=
  (d.headParts m n d.chs[n].headUs i).all (fun x => d.mason.resident.any (fun r =>
    r.ch = n.val && r.head = some i && r.ns = x.2.1 && r.bytes = x.2.2 && r.till.isNone && r.since.any (· ≤ d.time.crs)))

/-- Every page of the segments within the DRAM horizon is in the channel's DRAM and every head that R311 requires is resident (R324). -/
def Dev.ready (d : Dev) (m : Memory) (n : Fin 8) : Bool :=
  (d.pageNeeds m n).all (fun x => d.inDram n x.1) && (d.headsNow m n).all (d.headIn m n)

/-- `READY` follows, with its notice (R324, R516). -/
def Dev.readyShow (d : Dev) (m : Memory) (n : Fin 8) : Dev :=
  let r := if d.ready m n then 1 else 0
  if d.get MSN_CHn_STAT.READY n = r then d else (d.set MSN_CHn_STAT.READY n 0 r).notice 1 n [r]

/-- Entry points whose heads do not fit, ranked (R321, reason 3). -/
def Dev.headRisk (d : Dev) (m : Memory) (n : Fin 8) (room : Nat) : List Nat → List Nat
  | [] => []
  | i :: r =>
    let k := d.headBlocks m n d.chs[n].headUs i
    if k ≤ room then d.headRisk m n (room - k) r else i :: d.headRisk m n room r

/-- The entry points of channel n whose heads do not fit after the rings and the pinned segments, with `less` blocks fewer (R321, R362). -/
def Dev.headsLess (d : Dev) (m : Memory) (n : Fin 8) (less : Nat) : List Nat :=
  let pins := ((d.pinsSram n).map (fun i => (d.desc i).blocks)).sum
  d.headRisk m n (d.segBlocks n - less - (d.ringBlocks m n d.chs[n].lead + pins)) (d.entryPoints m n)

/-- The entry points of channel n whose heads do not fit now (R321). -/
def Dev.headsOut (d : Dev) (m : Memory) (n : Fin 8) : List Nat := d.headsLess m n 0

/-- What is to lie in resident blocks of channel n becomes `want` (head, descriptor, place, bytes): what lies there stays, the rest is
given up at the next joint, and the new content is to be copied (R318, R319). -/
def Dev.resettle (d : Dev) (n : Nat) (want : List (Option Nat × Nat × Nat × Nat)) : Dev :=
  let is := fun (r : Resident) (w : Option Nat × Nat × Nat × Nat) => r.head = w.1 && r.desc = w.2.1 && r.ns = w.2.2.1 && r.bytes = w.2.2.2
  let mine := fun (r : Resident) => r.ch = n && r.till.isNone
  let new := want.filter (fun w => !d.mason.resident.any (fun r => mine r && is r w))
  let keep := Resident.leave (d.time.crs + 1) (fun r => mine r && !want.any (is r)) d.mason.resident
  { d with mason := { d.mason with resident := keep ++ new.map (fun w =>
      { ch := n, head := w.1, desc := w.2.1, ns := w.2.2.1, bytes := w.2.2.2, data := [], since := none, till := none, gaps := [] }) } }

/-- The blocks of channel n are shared out again (R311, R313). -/
def Dev.blocksShow (d : Dev) (m : Memory) (n : Fin 8) : Dev :=
  let rings := d.ringBlocks m n d.chs[n].lead
  let out := d.headsOut m n
  let heads := if d.flag MSN_CHn_STAT.SRAM_ONLY n then [] else ((d.headsNow m n).filter (fun i => !out.contains i)).flatMap (fun i =>
    (d.headParts m n d.chs[n].headUs i).map (fun x => (some i, x)))
  let room := d.segBlocks n - (rings + (heads.map (fun x => ceilDiv x.2.2.2 1024)).sum)
  let res := d.fitResident n (d.residentOrder m n) [] room
  let used := (res.map (fun i => (d.desc i).blocks)).sum
  let whole : List (Option Nat × Nat × Nat × Nat) := res.map (fun i => (none, i, (d.desc i).ns, (d.desc i).bytes))
  let d := d.resettle n (heads ++ whole)
  (d.set MSN_SRAMn.RINGS n 0 (min rings 4095)).set MSN_SRAMn.FREE n 0 (room - used)

/-- The copies on a channel that eviction may take: not HELD, pinned or within the DRAM horizon (R316). -/
def Dev.spareCopies (d : Dev) (m : Memory) (n : Fin 8) : List Copy :=
  let needs := (d.pageNeeds m n).map (·.1)
  let pins := d.pinned n
  d.mason.copies.filter (fun c => c.ch = n.val && !c.held && !needs.contains c.page && !pins.contains c.page)

/-- The rank of a copy among those to evict (R316): STREAM pages played past, then the others least recently played first, PARKED
pages last. -/
def Dev.evictRank (d : Dev) (c : Copy) : Nat :=
  let k := d.pageClass c.page
  (if k = 2 then 2 else if k = 0 && c.played then 0 else 1) * 2 ^ 64 + c.last

/-- Pages evicted to make room for k, those given up before counted (R316). -/
def Dev.evict (d : Dev) (m : Memory) (n : Fin 8) (k : Nat) : Dev :=
  let mine := d.spareCopies m n
  let ok := fun (c : Copy) => mine.contains c && c.till.isNone && !d.bound c
  let gone := (d.mason.copies.filter (fun c => c.ch = n.val && c.till.isSome)).length
  let out := (sortBy d.evictRank (d.mason.copies.filter ok)).take (k - gone)
  let j := d.time.crs + 1
  { d with mason := { d.mason with copies := d.mason.copies.map (fun c => if out.contains c then { c with till := some j } else c) } }

/-- The pages that the resident content of a channel without DRAM still lacks and that no channel's DRAM holds (R338), each with the
ticks until its segment can play. -/
def Dev.fillNeeds (d : Dev) (m : Memory) (n : Fin 8) : List (Nat × Nat) :=
  let needs := d.pageNeeds m n
  (d.mason.resident.filter (fun r => r.ch = n.val && r.since.isNone && r.till.isNone)).flatMap (fun r =>
    (pagesOf (r.ns + r.data.length) (r.bytes - r.data.length)).map (fun p => (p, (needs.lookup p).getD 0)))

/-- The Mason walks channel n's graph: how it shares the blocks, what it wants in DRAM, what it evicts (R314 to R316). -/
def Dev.masonWalk (d : Dev) (m : Memory) (n : Fin 8) : Dev :=
  let d := d.blocksShow m n
  let now := d.time.abs
  let dry := d.flag MSN_CHn_STAT.SRAM_ONLY n
  let needs := firstOf (if dry then (d.fillNeeds m n).filter (fun x => !d.mason.copies.any (fun c => c.page = x.1 && d.usable c))
    else (d.pinned n).map (fun p => (p, 0)) ++ d.pageNeeds m n)
  let old := fun p => d.mason.wants.find? (fun w => w.ch = n.val && w.page = p && w.urgent)
  let mine := (needs.filter (fun x => d.pageDefined x.1 && !d.coming n x.1)).map (fun x =>
    (⟨n.val, x.1, now + x.2, (old x.1).isSome, (old x.1).any (·.held)⟩ : Want))
  let rest := d.mason.wants.filter (fun w => w.ch ≠ n.val || (w.urgent && !mine.any (fun v => v.page = w.page)))
  let d := { d with mason := { d.mason with wants := rest ++ mine } }
  let d := if dry then d else d.evict m n (mine.length - d.get MSN_FREEn.FREE n)
  d.readyShow m n

/-! ### Fetches and copies (R307, R315) -/

/-- A run that waits 1 ms holds a page. -/
def Later.has (x : Later) (p : Nat) : Bool := x.page ≤ p && p < x.page + x.count

/-- Whether content that a page's channel wants may be fetched now: the device runs, and the page waits for nothing. -/
def Dev.mayFetch (d : Dev) (w : Want) : Bool :=
  d.get PWR_STAT.STATE = 0 && !d.mason.unavail.contains w.page && !d.mason.waits.any (fun x => x.has w.page)

/-- The place of a want among the fetches (R315, R330, R332): by earliest arrival, a starving channel's and urgent ones first. -/
def Dev.wantKey (d : Dev) (w : Want) : Nat := (if w.urgent || d.flag MSN_CHn_STAT.STARVED w.ch then 0 else 2 ^ 70) + w.due

/-- A page that lies in some channel's DRAM, or is on its way there, is copied across (R307). -/
def Dev.somewhere (d : Dev) (p : Nat) : Bool := d.mason.copies.any (fun c => c.page = p && c.good)

/-- A want is served by a DIRECT read (R325). -/
def Dev.directWant (d : Dev) (w : Want) : Bool :=
  d.mayFetch w && !d.somewhere w.page && (d.extOf w.page).any (fun e => extType e.2 = 1)

/-- The function may issue requests on the link (R484). -/
def Dev.mayIssue (d : Dev) : Bool := d.port.up && d.port.bme && !d.port.d3

/-- Host backing may be read again: k pages take their share of the budget since the latest read ended (R330). The model counts the
time in ticks, and while these stand still it counts none (log entry 72, DEDUCED). -/
def Dev.hostReady (d : Dev) (k : Nat) : Bool :=
  let eff := d.get MSN_BW_EFF.HOST_EFF
  d.mayIssue && eff ≠ 0 && d.mason.hostEnd.all (fun t => !d.ticking || t * eff + k * 163840 ≤ d.time.abs * eff)

/-- The page stands in the lowest free frames of its channel (R388). -/
def Dev.keepLow (d : Dev) (n p : Nat) : Bool := d.isHeld p || (d.pinned n).contains p || d.pageClass p = 2

/-- Resident content of a channel without DRAM takes the bytes of a page that come next in it (R338). -/
def Resident.takePage (page : Nat) (bytes : List (BitVec 8)) (r : Resident) : Resident :=
  let at_ := r.ns + r.data.length
  if r.data.length < r.bytes && at_ / 65536 = page then
    { r with data := r.data ++ ((bytes.drop (at_ % 65536)).take (r.bytes - r.data.length)) }
  else r

/-- Page content that has come for channel n: into a frame, or for a channel without DRAM into resident blocks (R338). -/
def pageIn (n : Fin 8) (page : Nat) (held : Bool) (left : Nat) (bytes : List (BitVec 8)) (p : Dev × Memory) : Dev × Memory :=
  let d := p.1
  if d.flag MSN_CHn_STAT.SRAM_ONLY n then
    ({ d with mason := { d.mason with
        resident := d.mason.resident.map (fun r => if r.ch = n.val && r.since.isNone then r.takePage page bytes else r)
        wants := d.mason.wants.filter (fun w => !(w.ch = n && w.page = page)) } }, p.2)
  else match d.freeFrame n (d.keepLow n page) with
    | none => p
    | some f => placeIn n page f held left bytes p

/-- A page has been read from a DIRECT extent (R325, R329, R330). -/
def Dev.hostGot (d : Dev) (page : Nat) : Dev :=
  let d := match d.extOf page with
    | some e => d.emit (.hostRead (extPage e.2 page) 65536)
    | none => d
  { d with mason := { d.mason with hostEnd := some d.time.abs, failed := d.mason.failed.filter (fun p => p ≠ page) } }

/-- Where a page wanted by a channel would go there is room: resident blocks for a channel without DRAM, else a free frame. -/
def Dev.wantRoom (d : Dev) (w : Want) : Bool := d.flag MSN_CHn_STAT.SRAM_ONLY w.ch || (d.freeFrame w.ch (d.keepLow w.ch w.page)).isSome

/-- The place among the reads of a run whose buffer has come: that of its first want. -/
def Dev.runKey (d : Dev) (r : Req) : Nat :=
  ((d.mason.wants.filter (fun w => r.page ≤ w.page && w.page < r.page + r.count)).map d.wantKey).foldl min (2 ^ 80)

/-- A read of host backing at place k comes before every other that could be made now, of DIRECT extents or of buffers (R315, R330). -/
def Dev.readFirst (d : Dev) (k : Nat) : Bool :=
  d.mason.wants.all (fun v => !d.directWant v || !d.wantRoom v || k ≤ d.wantKey v)
  && d.mason.reqs.all (fun r => r.buf.isNone || d.mason.waits.any (fun x => x.has r.page) || k ≤ d.runKey r)

/-- A fetch or copy of a page ends (R307, R315): another channel's copy, whose rank is read, is taken before host backing, whose content is
`bytes`, and reads of host backing keep their order and their budget (R330). -/
def pageFetched (n : Fin 8) (page : Nat) (bytes : List (BitVec 8)) (p : Dev × Memory) : Dev × Memory :=
  let d := p.1
  match d.mason.wants.find? (fun w => w.ch = n.val && w.page = page) with
  | none => p
  | some w =>
    if !d.mayFetch w then p
    else
      match d.mason.copies.find? (fun c => c.page = page && d.usable c) with
      | some c => pageIn n page (w.held && d.isHeld page) 65536 (copyBytes p.2 c) (d.request c.ch (d.rankOf c.frame) 4, p.2)
      | none =>
        if d.directWant w && d.wantRoom w && d.readFirst (d.wantKey w) && d.hostReady 1 then pageIn n page false 0 bytes (d.hostGot page, p.2) else p

/-- `PAGE_FETCH_DONE` (R315). -/
def execPageFetchDone (n : Fin 8) (page : BitVec 36) (bytes : List (BitVec 8)) (s : State) : Host.Outcome State Fault Refusal :=
  let p := pageFetched n page.toNat bytes (s.dev, s.mem)
  .next { s with dev := p.1, mem := p.2 }

/-! ### SERVICED backing (R327 to R329) -/

/-- A wanted page that must be asked of host software: it has not been, and no channel has it to copy. -/
def Dev.askable (d : Dev) (w : Want) : Bool :=
  d.mayFetch w && !d.somewhere w.page && (d.extOf w.page).any (fun e => extType e.2 = 2)
  && !d.mason.reqs.any (fun r => r.page ≤ w.page && w.page < r.page + r.count)

/-- The first wanted page that must be asked of host software, by deadline. -/
def Dev.nextAsk (d : Dev) : Option Want := (sortBy d.wantKey (d.mason.wants.filter d.askable)).head?

/-- The pages of a run from a wanted page: those after it in its extent that must be asked for as well. -/
def Dev.runLen (d : Dev) (e : List Nat) (p : Nat) : Nat → Nat
  | 0 => 0
  | k + 1 => if extHas e p && d.mason.wants.any (fun w => w.page = p && d.askable w) then 1 + d.runLen e (p + 1) k else 0

/-- A request is written into the request ring, if a tag and room are free (R327). -/
def Dev.requestPost (d : Dev) : Dev :=
  match d.nextAsk with
  | none => d
  | some w =>
    match d.extOf w.page with
    | none => d
    | some (x, e) =>
      let size := 2 ^ d.get MSN_RQ_CFG.SIZE
      let t := d.get MSN_RQ_TAIL.TAIL
      if !d.flag MSN_RQ_CFG.EN || !d.port.up || !d.port.bme || d.port.d3 || d.get MSN_BK.OUT ≤ d.mason.reqs.length then d
      else if (t + 1) % size = d.get MSN_RQ_HEAD.HEAD then d.raise MSN_STAT.RQ_FULL
      else
        let again := d.mason.again.find? (fun a => a.1 ≤ w.page && w.page < a.1 + a.2.1)
        let first := match again with | some a => a.1 | none => w.page
        let k := match again with | some a => a.2.1 | none => max 1 (d.runLen e w.page 16)
        let fr := d.free
        let d := fr.2
        let used := fun g => d.mason.reqs.any (fun r => r.tag = g)
        let tag := if used (fr.1 % 65536) then ((List.range 256).find? (fun g => !used g)).getD 0 else fr.1 % 65536
        let chs := ((d.mason.wants.filter (fun v => first ≤ v.page && v.page < first + k)).map (·.ch)).foldl setBitAt 0
        let dl := d.time.crs + (d.time.tick + (w.due - d.time.abs)) / d.get CRS_LEN.LEN
        let urgent := w.urgent || d.flag MSN_CHn_STAT.STARVED w.ch || decide (w.due < d.time.abs + 2 * extLat e * 250)
        let ws := [(if d.mason.phase then 2 ^ 31 else 0) + (if urgent then 2 ^ 30 else 0) + chs * 2 ^ 16 + tag,
          first % 2 ^ 32, k * 2 ^ 16 + first / 2 ^ 32, x, dl % 2 ^ 32, dl / 2 ^ 32 % 2 ^ 32, 0, 0]
        let r : Req := { tag := tag, ext := x, page := first, count := k, chs := chs, again := again.any (·.2.2), buf := none }
        let base := d.get MSN_RQ_BASE_LO.BASE_LO * 4096 + d.get MSN_RQ_BASE_HI.BASE_HI * 2 ^ 32
        let flip := t + 1 = size && d.get MSN_RQ_CFG.SIZE ≠ 12
        let d := { d with mason := { d.mason with
          reqs := d.mason.reqs ++ [r]
          freed := d.mason.freed.filter (fun g => g ≠ tag)
          phase := if flip then !d.mason.phase else d.mason.phase
          again := d.mason.again.filter (fun a => again ≠ some a) } }
        ((d.emit (.hostWrite (base + 32 * t) (wordsBytes ws))).set MSN_RQ_TAIL.TAIL 0 0 ((t + 1) % size)).vector 9

/-- `REQUEST_POST` (R327). -/
def execRequestPost (s : State) : Host.Outcome State Fault Refusal := .next (s.withDev s.dev.requestPost)

/-- `MSN_CQ_HEAD` passes the entries whose buffers are free (R328). -/
def Dev.compHead (d : Dev) : Dev :=
  let k := (d.mason.comps.takeWhile (fun c => c.2)).length
  let size := 2 ^ d.get MSN_CQ_CFG.SIZE
  { d with mason := { d.mason with comps := d.mason.comps.drop k } }.set MSN_CQ_HEAD.HEAD 0 0 ((d.get MSN_CQ_HEAD.HEAD + k) % size)

/-- A run's pages become unavailable (R329). -/
def Mason.fail (x : Mason) (page count : Nat) : Mason :=
  { x with unavail := x.unavail ++ (List.range count).map (· + page) }

/-- One completion entry (R328, R329): status, tag and buffer address. -/
def Dev.completion (d : Dev) (c : Nat × Nat × Nat) : Dev :=
  let (status, tag, buf) := c
  let put := fun (d : Dev) (done : Bool) => { d with mason := { d.mason with comps := d.mason.comps ++ [(tag, done)] } }
  match d.mason.reqs.find? (fun r => r.tag = tag && r.buf.isNone) with
  | none => if d.mason.freed.contains tag then put d true else (put d true).raise MSN_STAT.BK_ERR
  | some r =>
    let gone := fun (d : Dev) => { d with mason := { d.mason with reqs := d.mason.reqs.filter (fun x => x.tag ≠ tag) } }
    if status = 0 then
      put { d with mason := { d.mason with reqs := d.mason.reqs.map (fun x => if x.tag = tag then { x with buf := some buf } else x) } } false
    else if status = 1 then
      let d := gone d
      put { d with mason := { d.mason with waits := d.mason.waits ++ [⟨r.page, r.count, true, r.again⟩] } } true
    else if status = 2 then
      let d := gone d
      (put { d with mason := d.mason.fail r.page r.count } true).raise MSN_STAT.BK_ERR
    else (put d true).raise MSN_STAT.BK_ERR

/-- `MSN_CQ_DOORBELL` (R328): `entries` is what the device reads of the completion ring from the last tail on: status, tag,
buffer address. -/
def execMsnCqDoorbell (tail : BitVec 12) (entries : List (Fin 4 × BitVec 16 × BitVec 64)) (s : State) : Host.Outcome State Fault Refusal :=
  let d := s.dev
  let size := 2 ^ d.get MSN_CQ_CFG.SIZE
  let k := (tail.toNat + size - d.get MSN_CQ_TAIL.TAIL % size) % size
  let d := d.set MSN_CQ_TAIL.TAIL 0 0 tail.toNat
  .next (s.withDev ((((entries.take k).map (fun e => (e.1.val, e.2.1.toNat, e.2.2.toNat))).foldl Dev.completion d).compHead))

/-- A run's content reaches the channels that want it. -/
def runPlaced (first : Nat) (bytes : List (BitVec 8)) (k : Nat) (p : Dev × Memory) : Dev × Memory :=
  let page := first + k
  let part := (bytes.drop (65536 * k)).take 65536
  allCh.foldl (fun p (n : Fin 8) =>
    if p.1.mason.wants.any (fun w => w.ch = n.val && w.page = page) then pageIn n page false 0 part p else p) p

/-- The buffer of a completion has been read in full (R328), in its place among the reads and within the budget (R330), and not in the
1 ms after a read that failed (R329). -/
def bufferRead (tag : Nat) (bytes : List (BitVec 8)) (p : Dev × Memory) : Dev × Memory :=
  match p.1.mason.reqs.find? (fun r => r.tag = tag && r.buf.isSome) with
  | none => p
  | some r =>
    if !p.1.hostReady r.count || p.1.mason.waits.any (fun x => x.has r.page) || !p.1.readFirst (p.1.runKey r) then p
    else
      let d := p.1.emit (.hostRead (r.buf.getD 0) (65536 * r.count))
      let p := (List.range r.count).foldl (fun p k => runPlaced r.page bytes k p) (d, p.2)
      let d := p.1
      let d := { d with mason := { d.mason with
        reqs := d.mason.reqs.filter (fun x => x.tag ≠ tag)
        comps := d.mason.comps.map (fun (c : Nat × Bool) => if c.1 = tag then (tag, true) else c)
        failed := d.mason.failed.filter (fun p => p ≠ r.page)
        hostEnd := some d.time.abs } }
      (d.compHead, p.2)

/-- `COMPLETION_BUFFER_READ` (R328). -/
def execCompletionBufferRead (tag : BitVec 16) (bytes : List (BitVec 8)) (s : State) : Host.Outcome State Fault Refusal :=
  let p := bufferRead tag.toNat bytes (s.dev, s.mem)
  .next { s with dev := p.1, mem := p.2 }

/-- `BACKING_TIMEOUT` (R329): the first frees the tag and asks again, the second makes the pages unavailable. -/
def execBackingTimeout (tag : BitVec 16) (s : State) : Host.Outcome State Fault Refusal :=
  let d := s.dev
  match d.mason.reqs.find? (fun r => r.tag = tag.toNat && r.buf.isNone) with
  | none => .next s
  | some r =>
    let x := { d.mason with
      reqs := d.mason.reqs.filter (fun y => y.tag ≠ r.tag)
      freed := d.mason.freed ++ [r.tag] }
    let x := if r.again then x.fail r.page r.count else { x with again := x.again ++ [(r.page, r.count, true)] }
    .next (s.withDev ({ d with mason := x }.raise MSN_STAT.BK_TMO))

/-- The longest waiting run is to be asked for whole, or may be read, again (R329). -/
def Mason.retry (x : Mason) : Mason :=
  match x.waits with
  | [] => x
  | w :: ws => { x with waits := ws, again := if w.ask then x.again ++ [(w.page, w.count, w.again)] else x.again }

/-- `BACKING_RETRY` (R329). -/
def execBackingRetry (s : State) : Host.Outcome State Fault Refusal :=
  .next (s.withDev { s.dev with mason := s.dev.mason.retry })

/-- `HOST_READ_FAIL` (R329): pages are read again after 1 ms; a second failure makes them unavailable. -/
def execHostReadFail (page : BitVec 36) (s : State) : Host.Outcome State Fault Refusal :=
  let d := s.dev
  let req := d.mason.reqs.find? (fun r => r.buf.isSome && r.page ≤ page.toNat && page.toNat < r.page + r.count)
  let run := match req with | some r => (r.page, r.count) | none => (page.toNat, 1)
  let wanted := req.isSome || d.mason.wants.any (fun w => w.page = page.toNat && d.directWant w)
  if !wanted then .next s
  else if d.mason.failed.contains run.1 then
    let x := { d.mason.fail run.1 run.2 with
      failed := d.mason.failed.filter (fun p => p ≠ run.1)
      reqs := d.mason.reqs.filter (fun r => !(req = some r))
      comps := d.mason.comps.map (fun c => if req.any (fun r => r.tag = c.1) then (c.1, true) else c) }
    .next (s.withDev ({ d with mason := x }.compHead.raise MSN_STAT.BK_ERR))
  else .next (s.withDev { d with mason := { d.mason with failed := d.mason.failed ++ [run.1], waits := d.mason.waits ++ [⟨run.1, run.2, false, false⟩] } })

/-! ### The at-risk check (R320 to R323) -/

/-- Tracks of a step that name descriptors meeting a condition, as a mask. -/
def trackMask (s : Step) (bad : Nat → Bool) : Nat := ((s.segs.filter (fun y => bad y.2)).map (·.1)).foldl setBitAt 0

/-- Pages that do not fit in the usable frames left after HELD copies and pins, ranked by arrival (reason 4). -/
def Dev.dramRisk (d : Dev) (m : Memory) (n : Fin 8) : List Nat :=
  let held := (d.mason.copies.filter (fun c => c.ch = n.val && c.held && c.till.isNone)).map (·.page)
  let pins := d.pinned n
  let own := (held ++ pins).eraseDups
  let rest := ((d.pageNeeds m n).map (·.1)).filter (fun p => !own.contains p)
  rest.drop (d.get MSN_FRAMESn.USABLE n - own.length)

/-- Every page that some channel plays and has not in its DRAM, once for each channel, with its arrival in ticks, in order of arrival
(R322): (channel, page, arrival). -/
def Dev.hostNeeds (d : Dev) (m : Memory) : List (Nat × Nat × Nat) :=
  let of := fun (n : Fin 8) => firstOf ((d.arrivals' m n).flatMap (fun a =>
    ((d.stepPages m false n a.1).filter (fun p => !d.inDram n p.1)).map (fun p => (p.1, a.2 + p.2))))
  sortBy (fun x => x.2.2) (allCh.flatMap (fun n => (of n).map (fun x => (n.val, x.1, x.2))))

/-- The walk of R322: the pages, by channel, that cannot arrive in time. The time t runs in units of 1/(100 × `HOST_EFF`) µs. -/
def Dev.hostWalk (d : Dev) : List (Nat × Nat × Nat) → Nat → List (Nat × Nat)
  | [], _ => []
  | (n, p, a) :: r, t =>
    let eff := 100 * d.get MSN_BW_EFF.HOST_EFF
    if !d.pageDefined p then d.hostWalk r t
    else
      let lat := match d.extOf p with | some e => if extType e.2 = 1 then 20 else extLat e.2 | none => 20
      let t' := max t (lat * eff) + 65536
      let late := eff = 0 || a * 4 * eff < t' * 1000 || d.mason.unavail.contains p
      if late then (n, p) :: d.hostWalk r t' else d.hostWalk r t'

/-- The steps of channel n at risk, with their lowest reason, in order of arrival (R321, R323); a step that nothing reaches
has the greatest arrival. -/
def Dev.riskList (d : Dev) (m : Memory) (n : Fin 8) : List Risk :=
  let arr := d.arrivals' m n
  let heads := d.headsOut m n
  let dram := d.dramRisk m n
  let host := (d.hostWalk (d.hostNeeds m) 0).filterMap (fun x => if x.1 = n.val then some x.2 else none)
  let one := fun (i : Nat) =>
    let s := readStep m n i
    let undef := fun y => (d.desc y).kind ≠ 3 && !d.segDefined (d.desc y)
    let hurt := fun y => (d.desc y).damaged
    let big := fun y => d.segBlocks n < (d.desc y).blocks
    let pages := (d.stepPages m true n i).map (·.1)
    let plays := (d.stepPages m false n i).map (·.1)
    let all := (s.segs.map (·.1)).foldl setBitAt 0
    let at_ := match arr.lookup i with | some t => min (t * 4 / 1000) (2 ^ 32 - 1) | none => 2 ^ 32 - 1
    if s.type ≠ 0 then none
    else if s.segs.any (fun y => undef y.2) then some (⟨i, 1, trackMask s undef, at_⟩ : Risk)
    else if s.segs.any (fun y => hurt y.2) then some ⟨i, 2, trackMask s hurt, at_⟩
    else if heads.contains i then some ⟨i, 3, all, at_⟩
    else if pages.any (fun p => dram.contains p) then some ⟨i, 4, all, at_⟩
    else if plays.any (fun p => host.contains p) then some ⟨i, 5, all, at_⟩
    else if d.flag MSN_CHn_STAT.SRAM_ONLY n && s.segs.any (fun y => big y.2) then some ⟨i, 6, trackMask s big, at_⟩
    else none
  sortBy (·.arrival) ((List.range 8192).filterMap one)

/-- The steps of channel n for which the check's hard reason holds (R321). -/
def Dev.hardSteps (d : Dev) (m : Memory) (n : Fin 8) : List Nat :=
  if d.flag MSN_CHn_STAT.SRAM_ONLY n then
    (List.range 8192).filter (fun i => let s := readStep m n i
      s.type = 0 && s.segs.any (fun y => d.segBlocks n < (d.desc y.2).blocks))
  else []

/-- The results of channel n's check are published (R323, R516). -/
def Dev.riskPublish (d : Dev) (m : Memory) (n : Fin 8) : Dev :=
  let l := d.riskList m n
  let d := { d with mason := { d.mason with risks := d.mason.risks.set n l } }
  let was := d.get MSN_CHn_STAT.RISKS n
  let d := (d.set MSN_CHn_STAT.RISKS n 0 l.length).set MSN_CHn_STAT.RISK_OVF n 0 (if 256 < l.length then 1 else 0)
  let d := (List.range 256).foldl (fun d e =>
    let r := l.getD e ⟨0, 0, 0, 0⟩
    (((d.set MSN_RISKn_e0.REASON n e r.reason).set MSN_RISKn_e0.TRACKS n e r.tracks).set MSN_RISKn_e0.STEP n e r.step).set
      MSN_RISKn_e1.ARRIVAL n e r.arrival) d
  let d := d.set MSN_STAT.RISK 0 0 (if d.mason.risks.any (fun l => !l.isEmpty) then 1 else 0)
  let d := if was = l.length then d else d.notice 2 n [l.length]
  d.readyShow m n

/-- `MSN_CHECK` (R321): the check of every channel starts. -/
def execMsnCheck (s : State) : Host.Outcome State Fault Refusal := .next (s.withDev (s.dev.raise MSN_STAT.CHECK_BUSY))

/-- `AT_RISK_CHECK_DONE` (R321, R323). -/
def execAtRiskCheckDone (s : State) : Host.Outcome State Fault Refusal :=
  .next (s.withDev ((s.dev.eachCh (fun n d => d.riskPublish s.mem n)).clear MSN_STAT.CHECK_BUSY))

/-! ### Horizons and budgets (R317, R330, R357) -/

/-- 1 KiB blocks of the segment area that retirement has left (R356, R357). -/
def Dev.blocksLeft (d : Dev) (n : Nat) : Nat :=
  256 * ((List.range 16).filter (fun b => b ≠ 0 && b ≠ d.stepHome n && !d.bit MEM_BANKn.RETIRED n 0 b)).length

/-- A `MSN_HZn` value in range whose rings, where the channel has them (R338), and one full head fit in the remaining blocks. -/
def Dev.hzOk (d : Dev) (n lead head : Nat) : Bool :=
  let rings := if d.flag MSN_CHn_STAT.SRAM_ONLY n then 0 else 2 * (ceilDiv (lead * 8000) 1024 + 2 * ceilDiv (lead * 1000) 1024)
  4 ≤ lead && lead ≤ 128 && 4 ≤ head && head ≤ 64
  && rings + ceilDiv (head * 8000) 1024 + 2 * ceilDiv (head * 1000) 1024 ≤ d.blocksLeft n

/-- `MSN_HZn` or `MSN_DHZn` written (R317, R357). -/
def Dev.hzWrite (d : Dev) (n : Fin 8) (dhz : Bool) (w : Nat) : Dev :=
  if dhz then
    let v := bitsOf w 0 16
    if v = 0 || 60000 < v then d.raise MSN_STAT.CFG_REJ else (d.set MSN_DHZn.DHZ n 0 v).checkRuns
  else
    let lead := bitsOf w 0 8
    let head := bitsOf w 16 8
    if d.hzOk n lead head then
      let d := ((d.set MSN_HZn.LEAD n 0 lead).set MSN_HZn.HEAD n 0 head).checkRuns
      d.set MSN_CHn_STAT.HZ_PEND n 0 (if lead = d.chs[n].lead && head = d.chs[n].headUs then 0 else 1)
    else d.raise MSN_STAT.CFG_REJ

/-- `MSN_HZ_WRITE` (R317). -/
def execMsnHzWrite (n : Fin 8) (dhz : Bool) (w : BitVec 32) (s : State) : Host.Outcome State Fault Refusal :=
  .next (s.withDev (s.dev.hzWrite n dhz w.toNat))

/-- `MSN_BW_EFF` follows the budget and the width trained (R330). -/
def Dev.bwShow (d : Dev) : Dev :=
  d.set MSN_BW_EFF.HOST_EFF 0 0 (min (d.get MSN_BW.HOST) (14 * d.get MSN_BW_EFF.LANES))

/-- `MSN_BW_WRITE` (R330). -/
def execMsnBwWrite (w : BitVec 32) (s : State) : Host.Outcome State Fault Refusal :=
  let host := bitsOf w.toNat 0 6
  let copy := bitsOf w.toNat 8 6
  if host = 0 || 56 < host || copy = 0 || 32 < copy then .next (s.withDev (s.dev.raise MSN_STAT.CFG_REJ))
  else .next (s.withDev (((s.dev.set MSN_BW.HOST 0 0 host).set MSN_BW.COPY 0 0 copy).bwShow.checkRuns))

/-- Horizons at a joint (R317): `DHZ` always; `LEAD` and `HEAD` while the sequencer is STOPPED or in FAULT, cut to what fits
(R357). -/
def Dev.hzLand (d : Dev) (n : Fin 8) : Dev :=
  let dhz := d.get MSN_DHZn.DHZ n
  let d := (if dhz = d.chs[n].dhz then d else d.checkRuns).onCh n (fun c => { c with dhz := dhz })
  if !d.seqIdle n then d
  else
    let fit := ((List.range 129).reverse.find? (fun l => l ≤ d.get MSN_HZn.LEAD n && d.hzOk n l (min (d.get MSN_HZn.HEAD n) 4))).getD 4
    let lead := if d.hzOk n (d.get MSN_HZn.LEAD n) (d.get MSN_HZn.HEAD n) then d.get MSN_HZn.LEAD n else fit
    let head := ((List.range 65).reverse.find? (fun h => h ≤ d.get MSN_HZn.HEAD n && d.hzOk n lead h)).getD 4
    let d := if lead = d.chs[n].lead && head = d.chs[n].headUs then d else d.checkRuns
    (d.onCh n (fun c => { c with lead := lead, headUs := head })).clear MSN_CHn_STAT.HZ_PEND n

/-! ### Late content (R331 to R333) -/

/-- The channel has the content of an entry in its DRAM or its resident blocks, ring or not. -/
def Dev.contentIn (d : Dev) (n : Nat) (e : Entry) : Bool := e.frags.all (d.fragIn n true)

/-- The channel has the whole content of an entry in segment SRAM, as bound when it was laid (R310, R333): in resident blocks, or in
rings that hold content, which reach the rest of the course in time. -/
def Dev.complete (d : Dev) (n : Fin 8) (e : Entry) : Bool := e.frags.all (fun f => d.fragIn n (d.ringHolds n f.feed) f)

/-- The rings of a channel restart now where they have run dry and the content of an entry is there (R309, R333): they hold content at
most 3 µs on (log entry 1). -/
def Dev.refill (d : Dev) (n : Fin 8) : Dev :=
  match d.chs[n].dry, d.chs[n].cur with
  | some (r, none), some e =>
    if d.contentIn n e then
      let f := d.free
      f.2.onCh n (fun c => { c with dry := some (r, some (d.time.abs + f.1 % 751)) })
    else d
  | _, _ => d

/-- `STARVE_BEGIN` (R332): a track lacks samples at the deadline, so that its ring has run dry. -/
def Dev.starveBegin (d : Dev) (n : Fin 8) : Dev :=
  if d.chs[n].starved then d else ((d.runDry n (d.chs[n].fragAt d.time.tick) none).refill n).starveNow n

/-- `STARVE_BEGIN`. -/
def execStarveBegin (n : Fin 8) (s : State) : Host.Outcome State Fault Refusal := .next (s.withDev (s.dev.starveBegin n))

/-- Starvation at a joint: it ends when the course that begins is complete (R333); else the course counts (R332), and rings whose
content has come restart. -/
def Dev.starveJoint (d : Dev) (n : Fin 8) : Dev :=
  if !d.chs[n].starved then d
  else if (d.chs[n].cur).all (fun e => d.complete n e) then
    (d.onCh n (fun c => { c with starved := false, dry := none })).clear MSN_CHn_STAT.STARVED n
  else (if d.flag MSN_CHn_STAT.STARVED n then d.countWrap MSN_STARVEn.COURSES n else d).refill n

/-! ### Loss of pages (R334, R335, R337) -/

/-- A copy in a frame of a channel is found uncorrectable (R334, R335): the page is fetched again at urgency, or lost; what the rings hold
of it plays on (R308). A copy that was replaced or released already is only unreadable, and one found before changes nothing. -/
def Dev.poison (d : Dev) (n frame : Nat) : Dev :=
  match d.mason.copies.find? (fun c => c.ch = n && c.frame = frame && !c.poison) with
  | none => d
  | some c =>
    let now := d.time.abs
    let rings : Bool := d.chs[Fin.ofNat 8 n].dry.isNone && c.since ≤ d.time.crs && c.left = 0
    let d : Dev := { d with mason := { d.mason with
      copies := d.mason.copies.map (fun y => if y = c then { y with poison := true, till := some (c.till.getD (d.time.crs + 1)) } else y)
      kept := if rings then d.mason.kept ++ [⟨c.page, n, frame, now⟩] else d.mason.kept } }
    if c.till.isSome then d
    else if d.somewhere c.page || (d.extOf c.page).isSome then
      { d with mason := { d.mason with wants := ⟨n, c.page, now, true, c.held⟩ :: d.mason.wants.filter (fun w => !(w.ch = n && w.page = c.page)) } }
    else
      let d := { d with mason := { d.mason with
        held := d.mason.held.filter (fun h => h.1 ≠ c.page)
        lost := d.mason.lost ++ [c.page] } }
      let d := ((d.raise MSN_STAT.LOSS).count MSN_LOSS.COUNT).setPair MSN_LOSS_PG_LO.PG_LO MSN_LOSS_PG_HI.PG_HI 0 0 c.page
      d.checkRuns.fire 4

/-- The replacement of a poisoned copy has yet to come: it is wanted, or has not committed (R334, R393). -/
def Dev.replacing (d : Dev) (c : Copy) : Bool :=
  c.poison && (d.mason.wants.any (fun w => w.ch = c.ch && w.page = c.page && w.urgent)
    || d.mason.copies.any (fun x => x.ch = c.ch && x.page = c.page && x.good && !d.usable x))

/-- A descriptor's `DAMAGED` at a joint: set where it covers a lost page, cleared once its pages all have content again. -/
def Dev.damage (d : Dev) (ws : List Nat) : List Nat :=
  let x := Desc.ofWords ws
  if x.kind = 3 then ws
  else if x.pages.any (fun p => d.mason.lost.contains p) then ws.set 1 (setBitAt (ws.getD 1 0) 31)
  else if x.damaged && d.segDefined x then ws.set 1 (clrBitAt (ws.getD 1 0) 31)
  else ws

/-- Copies into a channel's DRAM get their share of the budget, in order; one that it covers commits (R318, R319)
(log entry 73, DEDUCED). -/
def spendCopies (n j : Nat) : List Copy → Nat → List Copy × Nat
  | [], k => ([], k)
  | c :: r, k =>
    if c.ch ≠ n || c.left = 0 then let p := spendCopies n j r k; (c :: p.1, p.2)
    else
      let u := min c.left k
      let p := spendCopies n j r (k - u)
      ({ c with left := c.left - u, since := if u = c.left then j else c.since } :: p.1, p.2)

/-- The bytes of a range out of DRAM: of the channel's own, or any channel's for one that runs SRAM-only (R307, R338), as far as they
come one after another. -/
def Dev.fillBytes (d : Dev) (m : Memory) (n ns k : Nat) : List (BitVec 8) :=
  let src := fun p => d.mason.copies.find? (fun c => c.page = p && d.usable c && (c.ch = n || d.flag MSN_CHn_STAT.SRAM_ONLY n))
  (((pagesOf ns k).map (fun p => (p, src p))).takeWhile (fun x => x.2.isSome)).flatMap (fun x => match x.2 with
    | some c =>
      let lo := max ns (x.1 * 65536)
      m.readBytes (dramAt c.ch (c.frame * 65536 + lo % 65536)) (min (ns + k) ((x.1 + 1) * 65536) - lo)
    | none => [])

/-- Resident content gets its share of the budget, in order: absent rows are copied again (R336), and content that is whole commits (R318,
R319). -/
def Dev.spendResident (d : Dev) (m : Memory) (n : Nat) : List Resident → Nat → List Resident
  | [], _ => []
  | r :: rs, k =>
    if r.ch ≠ n then r :: d.spendResident m n rs k
    else
      let back := (r.gaps.filter (fun g => !(d.fillBytes m n (r.ns + 64 * g) (min 64 (r.bytes - 64 * g))).isEmpty)).take (k / 64)
      let r := { r with gaps := r.gaps.filter (fun g => !back.contains g) }
      let k := k - 64 * back.length
      if r.since.isSome then r :: d.spendResident m n rs k
      else
        let new := d.fillBytes m n (r.ns + r.data.length) (min k (r.bytes - r.data.length))
        let data := r.data ++ new
        { r with data := data, since := if r.bytes ≤ data.length then some d.time.crs else none } :: d.spendResident m n rs (k - new.length)

/-- Content stands in a channel's segment area, so that it no longer reads as zero (R359, R364): in resident blocks, or in rings. -/
def Dev.areaUsed (d : Dev) (n : Nat) : Bool :=
  d.mason.resident.any (fun r => r.ch = n && !r.data.isEmpty) || d.mason.capRings.any (fun r => r.1 = n && framesOf false ≤ r.2.2.1)
  || d.chs[Fin.ofNat 8 n].entries.any (fun e => e.frags.any (fun f => f.ranges.any (fun r => d.staged n f.laid r)))

/-- The copies of the course that has ended, `old` ticks long, within the copy budget of each channel (R319). -/
def Dev.copyJoint (d : Dev) (m : Memory) (old : Nat) : Dev :=
  let budget := d.get MSN_BW.COPY * 2 * old
  let d := allCh.foldl (fun d (n : Fin 8) =>
    let p := spendCopies n d.time.crs d.mason.copies budget
    let d : Dev := { d with mason := { d.mason with copies := p.1 } }
    { d with mason := { d.mason with resident := d.spendResident m n d.mason.resident p.2 } }) d
  { d with sram := { d.sram with blank := d.sram.blank.filter (fun n => !d.areaUsed n) } }

/-- A directory entry is being rebuilt: moves that need it wait, which here all that were to commit now do (R352, log entry 102). -/
def Dev.movesWait (d : Dev) : Dev :=
  { d with mason := { d.mason with copies := d.mason.copies.map (fun c => if c.since = d.time.crs then { c with since := c.since + 1 } else c) } }

/-- Resident content given up leaves its blocks once no laid entry of its channel is bound to it (R45). -/
def Dev.residentJoint (d : Dev) : Dev :=
  let kept := fun (r : Resident) => match r.till with
    | none => true
    | some t => d.time.crs < t || d.chs[Fin.ofNat 8 r.ch].entries.any (fun e => d.time.crs ≤ e.crs && e.frags.any (fun f => f.ranges.any (fun x => d.residentFor r.ch f.laid x = some r)))
  { d with mason := { d.mason with resident := d.mason.resident.filter kept } }

/-- `READY` follows what commits at a joint (R324). -/
def Dev.readyJoint (d : Dev) (m : Memory) (x : Mason) : Dev :=
  let j := d.time.crs
  let news := x.extPend.isSome || !x.descPend.isEmpty || !x.lost.isEmpty
  d.eachCh (fun n d =>
    if news || d.mason.copies.any (fun c => c.ch = n.val && (c.since = j || c.till = some j || c.poison))
      || d.mason.resident.any (fun r => r.ch = n.val && (r.since = some j || r.till = some j)) then d.readyShow m n else d)

/-- The lowest free frame of a rank (R371): with `MIRROR`, of rank 1 one whose number no page has. -/
def Dev.lowFrame (d : Dev) (n r : Nat) : Option Nat :=
  let k := rankFrames d.flash.half
  ((List.range k).map (· + k * r)).find? (fun f =>
    !d.frameReserved f && !d.mason.reserved.contains (n, f) && !d.mason.retired.contains (n, f) && !d.mason.retire.contains (n, f)
    && !d.mason.capRings.any (fun x => x.1 = n && x.2.2.1 ≤ f && f < x.2.2.1 + x.2.2.2)
    && !d.frameUsed n (if d.flag DMC_CTRL.MIRROR n then f % k else f))

/-- A frame has been retired: in place of a reserved one the reserved set takes the lowest free frame of its rank (R371). -/
def Dev.reserveAnew (d : Dev) (f : Nat × Nat) : Dev :=
  if !(d.frameReserved f.2 || d.mason.reserved.contains f) then d
  else match d.lowFrame f.1 (d.rankOf f.2) with
    | some g => { d with mason := { d.mason with reserved := d.mason.reserved ++ [(f.1, g)] } }
    | none => d

/-- What the Mason does at a joint, `old` being the length of the course that has ended: descriptor writes, the extent commit, lost
pages, copies and released copies (R304, R318, R319, R326, R335, R337, R393). -/
def Dev.masonJoint (d : Dev) (m : Memory) (old : Nat) : Dev :=
  let j := d.time.crs
  let x := d.mason
  let d := { d with mason := { x with
    descs := x.descPend ++ x.descs.filter (fun (e : Nat × List Nat) => !x.descPend.any (fun (p : Nat × List Nat) => p.1 = e.1))
    descPend := []
    kept := x.kept.filter (fun k => d.time.abs ≤ k.at_ + 250 * d.chs[Fin.ofNat 8 k.ch].lead) } }
  let d := if x.descPend.isEmpty && x.extPend.isNone then d else d.checkRuns
  let d := d.extLand
  let d := { d with mason := { d.mason with descs := d.mason.descs.map (fun (e : Nat × List Nat) => (e.1, d.damage e.2)) } }
  let d : Dev := { d with mason := { d.mason with lost := [] } }
  let d := (if d.time.abs < d.sram.dirUntil then d.movesWait else d.copyJoint m old).readyJoint m x
  let d := d.residentJoint
  let free := fun (c : Copy) => c.till.any (fun t => t ≤ j) && !d.bound c && !d.replacing c
  let shut := d.mason.retire.filter (fun (f : Nat × Nat) => !d.mason.copies.any (fun c => c.ch = f.1 && c.frame = f.2 && !free c))
  let d := { d with mason := { d.mason with
    copies := d.mason.copies.filter (fun c => !free c)
    retire := d.mason.retire.filter (fun (f : Nat × Nat) => !shut.contains f)
    retired := d.mason.retired ++ shut } }
  let d := shut.foldl Dev.reserveAnew d
  let d := shut.foldl (fun (d : Dev) (f : Nat × Nat) => ((d.raise DMC_STAT.FRAME_RET f.1).countWrap DMC_RETFR.COUNT f.1).count STK_CHn_WEAR2.FRAMES_RET f.1) d
  allCh.foldl (fun d (n : Fin 8) => if x.copies.any (fun c => c.ch = n.val) || !shut.isEmpty then d.framesShow n else d) d

/-- The pages of the course that begins have been played last in it (R316); their ranks have had requests (R385). -/
def Dev.playedPages (d : Dev) : Dev :=
  let j := d.time.crs
  let used := fun (c : Copy) => (d.chs[Fin.ofNat 8 c.ch].cur).any (fun e => e.frags.any (fun f => f.pages.contains c.page))
  let ranks := ((d.mason.copies.filter used).map (fun c => (c.ch, d.rankOf c.frame))).eraseDups
  let d := { d with mason := { d.mason with copies := d.mason.copies.map (fun c => if used c then { c with last := j, played := true } else c) } }
  ranks.foldl (fun d x => [0, 1, 2].foldl (fun d p => d.request x.1 x.2 p) d) d

end Sys2Proof.Machine
end

