-- ==== Sys2Proof/Machine/Stock.lean ====
section
/-!
DEFINITION. The Stockroom's on-chip memory (chapter 10) and the DRAM controllers (chapter 11): errors, repair, retirement,
the march tests, refresh, low power, drains and sweeps.
-/
namespace Sys2Proof.Machine
open Reg

/-! ### The arrays (R341) -/

/-- Spare columns of a bank of an array. -/
def spareCols (arr : Nat) : Nat := if arr = 9 then 2 else 4

/-- Banks of an array. -/
def banksOf (arr : Nat) : Nat := if arr < 8 then 16 else if arr = 8 then 8 else if arr = 9 then 1 else 4

/-- Spare columns that a bank has used. -/
def Dev.colsUsed (d : Dev) (arr bank : Nat) : Nat :=
  ((d.sram.spares.find? (fun x => x.1 = arr && x.2.1 = bank)).map (·.2.2)).getD 0

/-- Spare columns brought into service in a bank: the last one used shows (R355), and the channel's record follows (R583). -/
def Dev.useCols (d : Dev) (arr bank k : Nat) : Dev :=
  let used := d.colsUsed arr bank + k
  let d := { d with sram := { d.sram with spares := (arr, bank, used) :: d.sram.spares.filter (fun x => !(x.1 = arr && x.2.1 = bank)) } }
  let d := if arr < 8 then d.set STK_CHn_WEAR1.SRAM_COLS arr 0 (min 64 (d.get STK_CHn_WEAR1.SRAM_COLS arr + k)) else d
  if used < spareCols arr then d
  else
    let d := d.raise MEM_STAT.SPARE_OUT
    if arr < 8 then d.setBit MEM_BANKn.SPARE_OUT arr 0 bank else d

/-- A column is marked for repair (R353): its repair starts, or waits for the bank's repair under way (R355); a bank without
a spare left runs on with inline correction. -/
def Dev.markColumn (d : Dev) (arr bank col : Nat) : Dev :=
  let waiting := (d.sram.repairs.filter (fun r => r.1 = arr && r.2.1 = bank)).length
  if d.sram.repairs.contains (arr, bank, col) || spareCols arr ≤ d.colsUsed arr bank + waiting then d
  else { d with sram := { d.sram with repairs := d.sram.repairs ++ [(arr, bank, col)] } }

/-- `COLUMN_REPAIR_DONE` (R354): the copier's walk of the bank ends; the spare takes the column's place, whose errors count no more. -/
def Dev.columnDone (d : Dev) (arr bank : Nat) : Dev :=
  match d.sram.repairs.find? (fun r => r.1 = arr && r.2.1 = bank) with
  | none => d
  | some r =>
    let d := { d with sram := { d.sram with
      repairs := d.sram.repairs.erase r
      fixes := d.sram.fixes.filter (fun f => !(f.arr = arr && f.bank = bank && f.col = r.2.2)) } }
    (d.useCols arr bank 1).raise MEM_STAT.REPAIR

/-- `COLUMN_REPAIR_DONE`. -/
def execColumnRepairDone (arr : Fin 11) (bank : Fin 16) (s : State) : Host.Outcome State Fault Refusal :=
  .next (s.withDev (s.dev.columnDone arr bank))

/-- A bank of a channel is retired (R356): its content leaves it with its blocks, and its fault (R565) and notice (R516) come. -/
def Dev.bankRetire (d : Dev) (m : Memory) (n bank : Nat) : Dev :=
  if d.bit MEM_BANKn.RETIRED n 0 bank then d
  else ((((d.setBit MEM_BANKn.RETIRED n 0 bank).raise MEM_STAT.BANK_RET).blocksShow m (Fin.ofNat 8 n)).fault 9).notice 5 n [n, bank]

/-- At a joint the step table leaves a retired bank (R356). -/
def Dev.stepBankJoint (d : Dev) (n : Nat) : Dev :=
  if d.bit MEM_BANKn.RETIRED n 0 (d.get MEM_MAPn.STEP_BANK n) then d.set MEM_MAPn.STEP_BANK n 0 (d.topBank n) else d

/-! ### Errors (R351, R352) -/

/-- An array counts an error. -/
def Dev.countEcc (d : Dev) (arr : Nat) (ue : Bool) : Dev :=
  if arr < 8 then (if ue then d.count MEM_ECCn.UE arr else d.count MEM_ECCn.CE arr)
  else if arr = 8 then (if ue then d.count MEM_ECC_TCM.UE else d.count MEM_ECC_TCM.CE)
  else if arr = 9 then (if ue then d.count MEM_ECC_MBX.UE else d.count MEM_ECC_MBX.CE)
  else (if ue then d.count MEM_ECC_DIR.UE else d.count MEM_ECC_DIR.CE)

/-- The findings that lie less than `span` ticks back. -/
def recent (span now : Nat) (l : List Finding) : List Finding := l.filter (fun f => now < f.at_ + span)

/-- A finding joins a list, in place of an earlier one at its place. -/
def noted (f : Finding) (l : List Finding) : List Finding :=
  f :: l.filter (fun x => !(x.arr = f.arr && x.bank = f.bank && x.col = f.col && x.row = f.row))

/-- A corrected error (R351): with the third distinct row of one bit position of the bank within 10 s its column is marked (R353). -/
def Dev.eccFixed (d : Dev) (arr bank col row : Nat) : Dev :=
  let d := (d.countEcc arr false).raise MEM_STAT.CE
  let l := noted ⟨arr, bank, col, row, d.time.abs⟩ (recent 2500000000 d.time.abs d.sram.fixes)
  let d : Dev := { d with sram := { d.sram with fixes := l } }
  if 3 ≤ (l.filter (fun f => f.arr = arr && f.bank = bank && f.col = col)).length then d.markColumn arr bank col else d

/-- An uncorrectable error is counted and recorded (R352); with the sixteenth distinct row of a segment SRAM bank within 1 hour the bank is
retired (R356). -/
def Dev.eccLost (d : Dev) (m : Memory) (arr bank row : Nat) : Dev :=
  let d := (d.countEcc arr true).raise MEM_STAT.UE
  let d := if d.flag MEM_LAST_UE.VALID then d
    else ((((d.raise MEM_LAST_UE.VALID).set MEM_LAST_UE.ARRAY 0 0 arr).set MEM_LAST_UE.BANK 0 0 bank).set MEM_LAST_UE.ROW 0 0 row)
  let l := noted ⟨arr, bank, 0, row, d.time.abs⟩ (recent 900000000000 d.time.abs d.sram.losses)
  let d : Dev := { d with sram := { d.sram with losses := l } }
  if arr < 8 && 16 ≤ (l.filter (fun f => f.arr = arr && f.bank = bank)).length then d.bankRetire m arr bank else d

/-- A ring's row is absent until staging has brought it again, at most 3 µs on (R309, R336): samples that play before that starve, the 16
ticks that a row lasts on the slowest track at most. When the row would play is open (log entry 101). -/
def Dev.ringGone (d : Dev) (n : Fin 8) : Dev :=
  let f := d.free
  let g := f.2.free
  let plays := d.time.abs + f.1 % (250 * d.chs[n].lead + 1)
  let back := d.time.abs + g.1 % 751
  if plays < back then g.2.onCh n (fun c => { c with gap := some (plays, min back (plays + 16)) }) else g.2

/-- A 64-byte row of a channel's segment area is treated as absent (R352, R336): a row of resident content is copied again, one of a ring is
staged again, another held nothing. Which of these it is is open, since the layout is not published (R305, log entry 101). -/
def Dev.rowGone (d : Dev) (n : Fin 8) : Dev :=
  let rows := d.mason.resident.zipIdx.flatMap (fun x =>
    if x.1.ch = n.val then (List.range (ceilDiv x.1.data.length 64)).map (fun g => (x.2, g)) else [])
  let f := d.free
  let k := f.1 % (rows.length + 2)
  match rows[k]? with
  | some (i, g) => { f.2 with mason := { f.2.mason with
      resident := f.2.mason.resident.modify i (fun r => if r.gaps.contains g then r else { r with gaps := r.gaps ++ [g] }) } }
  | none => if k = rows.length then f.2.ringGone n else f.2

/-- An entry of the Mason's directory is rebuilt within 50 µs (R352). -/
def Dev.directoryGone (d : Dev) : Dev :=
  let f := d.free
  { f.2 with sram := { f.2.sram with dirUntil := d.time.abs + f.1 % 12501 } }

/-- Work in progress whose mailbox slot the Clerk no longer knows. -/
def unasked {α β γ : Type} (t : α × β × Option γ) : α × β × Option γ := (t.1, t.2.1, none)

/-- The Clerk restarts (R502, R538, R569): both cores are reset, steps 4 and 5 of the boot flow run again, and the consumers
whose interrupts it had taken are free (log entry 15). Reasons: 1 watchdog, 2 FW_RESTART, 3 TCM reload. -/
def Dev.clerkReset (d : Dev) (reason : Nat) : Dev :=
  if (d.get MBX_CLERK.STATE ≠ 1 && d.get MBX_CLERK.STATE ≠ 2 && !d.boot.recovery && reason ≠ 1) || d.get PWR_STRAP.BOOT = 3 then d
  else
    let d := { d with
      boot := { d.boot with again := some reason, recovery := false }
      ev := { d.ev with clerkIrq := false }
      cmds := []
      rung := []
      sram := { d.sram with test := d.sram.test.map (fun (t : March) => { t with cmd := none }) }
      mason := { d.mason with extPend := d.mason.extPend.map unasked } }
    let d := d.eachCh (fun n d => d.onCh n (fun c => { c with
      plumb := { c.plumb with load := c.plumb.load.map (fun (t : Option (List Nat) × Option (Nat × Nat)) => (t.1, none)) } }))
    (d.settleOwn.set MBX_CLERK.STATE 0 0 2).set PWR_BOOT.STAGE 0 0 3

/-- A row of a bank is found uncorrectable by a refill engine, staging, the scrubber or the Mason (R352): one of the segment area, or of the
directory. -/
def Dev.areaGone (d : Dev) (arr bank : Nat) : Dev :=
  if arr = 10 then d.directoryGone
  else if arr < 8 && bank ≠ 0 && bank ≠ d.get MEM_MAPn.STEP_BANK arr then d.rowGone (Fin.ofNat 8 arr)
  else d

/-- What an uncorrectable row means to its reader (R352): a step table's granule stays so for the sequencer when a second
reading, `again`, fails too; a row of the segment area is absent to the refill engines and to staging; the Clerk's command ends; TCM restarts
the Clerk. -/
def Dev.eccReader (d : Dev) (arr bank row : Nat) (reader : SramReader) (gran : Fin 8) (again : Bool) (cmd : Option (Fin 9 × Fin 16)) : Dev :=
  match reader with
  | .sequencer =>
    if arr < 8 && bank = d.get MEM_MAPn.STEP_BANK arr && again then
      { d with sram := { d.sram with bad := (arr, 0, row, gran.val) :: d.sram.bad } }
    else d.areaGone arr bank
  | .staging => d.areaGone arr bank
  | .clerk =>
    if arr = 8 then d.clerkReset 3
    else if arr = 9 then
      let m := row / 16
      let s := row % 16
      if m < 9 && d.bit MBX_BUSYm.BUSY m 0 s then d.finish m s 3 [] else d
    else match cmd with
      | some c => if arr < 8 && d.bit MBX_BUSYm.BUSY c.1 0 c.2 then
          d.finish c.1 c.2 1 [3] else d
      | none => d

/-- Whether the arrays are powered and in service: the start-up march has ended. -/
def Dev.arraysUp (d : Dev) (arr bank : Nat) : Bool :=
  d.flag MEM_STAT.START_OK && decide (bank < banksOf arr) && !(decide (arr < 8) && d.bit MEM_BANKn.RETIRED arr 0 bank)

/-- `SRAM_READ_ERROR` (R352): a read of a bank's row finds a correctable error at a bit of a granule, or an uncorrectable granule. -/
def execSramReadError (arr : Fin 11) (bank : Fin 16) (row : BitVec 12) (ue : Bool) (reader : SramReader) (gran : Fin 8)
    (again : Bool) (bit : Fin 72) (cmd : Option (Fin 9 × Fin 16)) (s : State) : Host.Outcome State Fault Refusal :=
  let d := s.dev
  if !d.arraysUp arr bank then .next s
  else if ue then .next (s.withDev ((d.eccLost s.mem arr bank row.toNat).eccReader arr bank row.toNat reader gran again cmd))
  else .next (s.withDev (d.eccFixed arr bank (72 * gran.val + bit.val) row.toNat))

/-- `SRAM_SCRUB` (R580): the scrubber visits a row, and finds a correctable error in a column, or an uncorrectable one; on wake from SLEEP it
reads every row before any other port is admitted (R365). -/
def execSramScrub (arr : Fin 11) (bank : Fin 16) (row : BitVec 12) (found : Ecc) (col : Fin 576) (s : State) :
    Host.Outcome State Fault Refusal :=
  let d := s.dev
  if !d.arraysUp arr bank || d.get PWR_STAT.STATE = 2 then .next s
  else match found with
    | .clean => .next s
    | .fixed => .next (s.withDev (d.eccFixed arr bank col row.toNat))
    | .lost =>
      let d := (d.eccLost s.mem arr bank row.toNat).areaGone arr bank
      .next (s.withDev (if arr.val = 8 then d.clerkReset 3 else d))

/-! ### March tests (R358 to R363) -/

/-- A bank's failing columns at start-up: repaired from spares, or the bank is out of service (R359, R360). -/
def Dev.marchBank (m : Memory) (d : Dev) (x : Nat × Nat × Nat) : Dev :=
  if x.2.2 ≤ spareCols x.1 then (if x.2.2 = 0 then d else (d.useCols x.1 x.2.1 x.2.2).raise MEM_STAT.REPAIR)
  else if x.1 < 8 then (d.bankRetire m x.1 x.2.1).stepBankJoint x.1
  else (d.raise MEM_STAT.MT_FAIL).set PWR_BOOT.FAIL 0 0 3

/-- Memory with every array cleared: segment SRAM; the mailbox SRAM is cleared beside it (R359). -/
def clearSram (m : Memory) : Memory := m.filter (fun c => !(decide (sramAt 0 ≤ c.1) && decide (c.1 < sramAt 0x2000000)))

/-- `STARTUP_MARCH_DONE` (R359, R360): `bad` lists array, bank and failing columns. -/
def execStartupMarchDone (bad : List (Fin 11 × Fin 16 × Nat)) (s : State) : Host.Outcome State Fault Refusal :=
  let d := s.dev
  if !d.locked || d.flag MEM_STAT.START_OK || d.flag MEM_STAT.MT_FAIL then .next s
  else
    let d := (((bad.map (fun x => (x.1.val, x.2.1.val, x.2.2))).filter (fun x => x.2.1 < banksOf x.1)).foldl (Dev.marchBank s.mem)
      { d with sram := { d.sram with spares := [], repairs := [], bad := [], fixes := [], losses := [], blank := List.range 8, tcm := [] } })
    let d := if d.flag MEM_STAT.MT_FAIL then d.fault 11 else d.raise MEM_STAT.START_OK
    .next { s with dev := { d with mbx := [] }, mem := clearSram s.mem }

/-- Whether a march test of a bank is refused (R362): one runs or its bank has not returned yet, the bank is retired, the channel is
SRAM-only, or a head that fits now would not fit without the 256 blocks. -/
def Dev.marchRefused (d : Dev) (m : Memory) (n : Fin 8) (bank : Nat) : Bool :=
  let now := d.headsOut m n
  d.sram.test.isSome || !d.sram.back.isEmpty || d.bit MEM_BANKn.RETIRED n 0 bank || d.flag MSN_CHn_STAT.SRAM_ONLY n
  || (d.headsLess m n 256).any (fun i => !now.contains i)

/-- The highest-numbered healthy segment bank of a channel besides one (R361). -/
def Dev.lentBank (d : Dev) (n bank : Nat) : Option Nat :=
  ((List.range 16).reverse).find? (fun b => b ≠ 0 && b ≠ bank && !d.bit MEM_BANKn.RETIRED n 0 b)

/-- A march test is requested (R361, R362); `cmd` is the mailbox slot that asked. The Mason gives the bank's blocks up, and those of the bank
lent where the step table lies in the bank to be tested. -/
def Dev.marchAsk (d : Dev) (m : Memory) (n : Fin 8) (bank : Nat) (cmd : Option (Nat × Nat)) : Dev :=
  if d.marchRefused m n bank then
    let d := d.set MEM_MT.RESULT 0 0 4
    match cmd with | some c => d.finish c.1 c.2 0 [4] | none => d
  else
    let t : March := { ch := n.val, bank := bank, lent := if bank = d.stepHome n then d.lentBank n bank else none, tests := false, cmd := cmd }
    ({ d with sram := { d.sram with test := some t } }.raise MEM_MT.BUSY).blocksShow m n

/-- Blocks of the segment area that hold content of a channel: rings, heads and resident segments. -/
def Dev.blocksHeld (d : Dev) (m : Memory) (n : Fin 8) : Nat :=
  d.ringBlocks m n d.chs[n].lead + ((d.mason.resident.filter (fun r => r.ch = n.val)).map (fun r => ceilDiv r.bytes 1024)).sum

/-- A bank returns after its test: the step table goes back to it, unless it was retired (R361, R363). -/
def Dev.marchBack (m : Memory) (d : Dev) (t : March) : Dev :=
  let d := if t.lent.isNone || d.bit MEM_BANKn.RETIRED t.ch 0 t.bank then d else d.set MEM_MAPn.STEP_BANK t.ch 0 t.bank
  d.blocksShow m (Fin.ofNat 8 t.ch)

/-- The march test at a joint (R361): banks return, and once what the bank held has moved the step table's ports go to the bank lent and the
test itself begins. -/
def Dev.marchJoint (d : Dev) (m : Memory) : Dev :=
  let d := d.sram.back.foldl (Dev.marchBack m) { d with sram := { d.sram with back := [] } }
  match d.sram.test with
  | none => d
  | some t =>
    if t.tests || d.segBlocks t.ch < d.blocksHeld m (Fin.ofNat 8 t.ch) then d
    else
      let d : Dev := { d with sram := { d.sram with test := some { t with tests := true } } }
      match t.lent with
      | some b => d.set MEM_MAPn.STEP_BANK t.ch 0 b
      | none => d

/-- `MEM_MT_START` (R361, R363): the word written to `MEM_MT` with `START` = 1. A start while a test runs is ignored. -/
def execMemMtStart (w : BitVec 32) (s : State) : Host.Outcome State Fault Refusal :=
  let d := (s.dev.set MEM_MT.BANK 0 0 (bitsOf w.toNat 8 4)).set MEM_MT.CH 0 0 (bitsOf w.toNat 4 3)
  if d.flag MEM_MT.BUSY then .next (s.withDev d)
  else .next (s.withDev (d.marchAsk s.mem (Fin.ofNat 8 (bitsOf w.toNat 4 3)) (bitsOf w.toNat 8 4) none))

/-- `MARCH_TEST_DONE` (R361, R363): `cols` failing columns were found, or the test aborts. No test ends before its bank is empty. -/
def execMarchTestDone (cols : Nat) (abort : Bool) (s : State) : Host.Outcome State Fault Refusal :=
  let d := s.dev
  match d.sram.test with
  | none => .next s
  | some t =>
    if abort then .next (s.withDev (d.marchEnd 5))
    else if !t.tests then .next s
    else if cols = 0 then .next (s.withDev (d.marchEnd 1))
    else if d.colsUsed t.ch t.bank + cols ≤ spareCols t.ch then
      .next (s.withDev (((d.useCols t.ch t.bank cols).raise MEM_STAT.REPAIR).marchEnd 2))
    else .next (s.withDev ((d.bankRetire s.mem t.ch t.bank).marchEnd 3))

/-! ### DRAM: refresh and low power (R380 to R387) -/

/-- A rank's debt. -/
def Dev.debt (d : Dev) (n r : Nat) : Nat := if r = 0 then d.get DMC_REF.DEBT0 n else d.get DMC_REF.DEBT1 n

/-- A rank's debt set. -/
def Dev.setDebt (d : Dev) (n r v : Nat) : Dev := if r = 0 then d.set DMC_REF.DEBT0 n 0 v else d.set DMC_REF.DEBT1 n 0 v

/-- A rank in service: brought up, not retired. -/
def Dev.rankOn (d : Dev) (n r : Nat) : Bool := decide (r < 2) && d.get DMC_STAT.STATE n ≠ 0 && d.get DMC_RANKr.STATE n r ≠ 3

/-- The temperature band with 2 °C of hysteresis at each edge (R398): `t` in 1/16 °C leaves band b once it is 1 °C past an edge (log
entry 77). -/
def bandAt (b t : Int) : Int := if 160 * b - 16 ≤ t ∧ t < 160 * b + 176 then b else t / 160

/-- The temperature of a channel's tile has entered a new band: both ranks await its delays (R398). -/
def Dev.delayBand (d : Dev) (n : Fin 8) (t : Int) : Dev :=
  let b := bandAt d.chs[n].delays.band t
  if b = d.chs[n].delays.band then d
  else d.onCh n (fun c => { c with delays := { c.delays with band := b, due := [0, 1].filter (fun r => c.delays.rows.getD r 0 ≠ b) } })

/-- A rank refreshes: the delays that it awaits are written (R398). -/
def Dev.delayWrite (d : Dev) (n : Fin 8) (r : Nat) : Dev :=
  if !d.chs[n].delays.due.contains r then d
  else d.onCh n (fun c => { c with delays := { c.delays with rows := c.delays.rows.set r c.delays.band, due := c.delays.due.filter (· ≠ r) } })

/-- The narrowest window of a sweep (R396). -/
def narrowest (l : List LaneWindow) : Nat := if l.isEmpty then 0 else l.foldl (fun w x => min w x.steps.toNat) 255

/-- The centre of a lane's window, in 1/64 of a unit interval (R396). -/
def LaneWindow.centre (x : LaneWindow) : Nat := x.first.toNat + x.steps.toNat / 2

/-- The delay of a lane of a rank that is in force (R396, R398), in 1/64 of a unit interval: that of the sweep, moved by the fuses' coefficient
for each band between (log entry 104). -/
def Dev.laneDelay (d : Dev) (n : Fin 8) (r lane : Nat) : Int :=
  let t := d.chs[n].delays
  ((t.centres.getD r []).getD lane 0 : Nat) + Config.laneCoef n r lane * (t.rows.getD r 0 - t.found.getD r 0)

/-- A sweep sets a rank's delays, in the band that the temperature is in (R396). -/
def Dev.delaySwept (d : Dev) (n : Fin 8) (r : Nat) (lanes : List LaneWindow) : Dev :=
  let b := d.getS PWR_TLOGs.TEMP n / 160
  d.onCh n (fun c => { c with delays := { c.delays with
    centres := c.delays.centres.set r (lanes.map LaneWindow.centre), found := c.delays.found.set r b
    band := b, rows := c.delays.rows.set r b, due := if b = c.delays.band then c.delays.due.filter (· ≠ r) else [0, 1].filter (· ≠ r) } })

/-- A refresh interval of a rank has gone: with 8,192 of them the window of R389 ends, and with it its counts and limits. -/
def Dev.windowStep (d : Dev) (n : Fin 8) (r : Nat) : Dev :=
  let k := d.chs[n].dram.window.getD r 0 + 1
  let over_ := 8192 ≤ k
  d.onCh n (fun c => { c with dram := { c.dram with
    window := c.dram.window.set r (if over_ then 0 else k)
    acts := if over_ then c.dram.acts.filter (fun x => x.1 ≠ r) else c.dram.acts
    limited := if over_ then c.dram.limited.filter (fun x => x.1 ≠ r) else c.dram.limited } })

/-- `REFRESH_DUE` (R382): issued, postponed while a refill port has a request pending, forced at debt 8. In self-refresh the
dies refresh themselves (R384). -/
def Dev.refreshDue (d : Dev) (n : Fin 8) (r : Nat) (pending : Bool) : Dev :=
  if !d.rankOn n r then d
  else
    let d := d.windowStep n r
    if d.flag DMC_RANKr.SELF_REF n r then d
    else if d.debt n r = 8 then ((d.count DMC_REF.FORCED n).raise DMC_STAT.FORCED_REF n).delayWrite n r
    else if pending then d.setDebt n r (d.debt n r + 1)
    else d

/-- `REFRESH_DUE`. -/
def execRefreshDue (n : Fin 8) (r : Fin 2) (pending : Bool) (s : State) : Host.Outcome State Fault Refusal :=
  .next (s.withDev (s.dev.refreshDue n r pending))

/-- The rings of channel n stage from a rank (R383). -/
def Dev.stagesFrom (d : Dev) (n : Fin 8) (r : Nat) : Bool :=
  d.chs[n].entries.any (fun e => e.frags.any (fun f => f.pages.any (fun p =>
    d.mason.copies.any (fun c => c.ch = n.val && c.page = p && c.left = 0 && d.rankOf c.frame = r))))

/-- A repayment burst of k refreshes begins (R383), with the delays that the rank awaits (R398). It lasts `t_rfc` for each and what is served
between them, which is open (log entries 1 and 64). -/
def Dev.burstBegin (d : Dev) (n : Fin 8) (r k : Nat) : Dev :=
  let f := d.free
  let e := d.time.abs + ceilDiv (k * (if d.flash.half then 210 else 280)) 4 + f.1
  ((f.2.setDebt n r (d.debt n r - k)).onCh n (fun c => { c with dram := { c.dram with burst := c.dram.burst.set r e } })).delayWrite n r

/-- The repayment burst of a rank at a joint (R383): none while one runs. How long the rings' content lasts, `LEAD` µs at most (R308), is a
free number (log entry 1); a rank from which no ring stages repays its whole debt. -/
def Dev.repay (d : Dev) (n : Fin 8) (r : Nat) : Dev :=
  if d.debt n r = 0 || d.time.abs < d.chs[n].dram.burst.getD r 0 then d
  else if d.stagesFrom n r then
    let p := d.free
    let k := min (d.debt n r) ((p.1 % (1000 * d.chs[n].lead + 1) - 2000) / (if d.flash.half then 210 else 280))
    if k = 0 then p.2 else p.2.burstBegin n r k
  else d.burstBegin n r (d.debt n r)

/-- `DRAM_TEMP_POLL` (R381, R568): the highest rate that the channel's dies report. -/
def Dev.tempPoll (d : Dev) (n band : Nat) : Dev :=
  let d := d.set DMC_STAT.TBAND n 0 band
  let d := d.live 6 (allCh.any (fun k => d.get DMC_STAT.TBAND k = 3))
  if band = 3 then d.fault 6 else d

/-- `DRAM_TEMP_POLL`. -/
def execDramTempPoll (n : Fin 8) (band : Fin 4) (s : State) : Host.Outcome State Fault Refusal :=
  .next (s.withDev (s.dev.tempPoll n band))

/-- `POWER_DOWN_ENTRY` (R385). -/
def execPowerDownEntry (n : Fin 8) (r : Fin 2) (s : State) : Host.Outcome State Fault Refusal :=
  if s.dev.rankOn n r && !s.dev.flag DMC_RANKr.SELF_REF n r then .next (s.withDev (s.dev.raise DMC_RANKr.PD n r)) else .next s

/-- A rank enters self-refresh with its debt repaid (R384). -/
def Dev.selfRefresh (d : Dev) (n r : Nat) : Dev :=
  if d.rankOn n r then ((d.setDebt n r 0).clear DMC_RANKr.PD n r).raise DMC_RANKr.SELF_REF n r else d

/-- A rank holds nothing in use (R386): no page that a ring stages or a laid entry reads, no part of an enabled capture
ring. -/
def Dev.rankIdle (d : Dev) (m : Memory) (n : Fin 8) (r : Nat) : Bool :=
  let near := ((d.arrivals' m n).filter (fun a => a.2 ≤ d.chs[n].lead * 250)).flatMap (fun a => (d.stepPages m false n a.1).map (·.1))
  let laid := d.chs[n].entries.flatMap (fun e => e.frags.flatMap Frag.pages)
  let own := d.mason.copies.filter (fun c => c.ch = n.val && d.rankOf c.frame = r)
  !(own.any (fun c => laid.contains c.page || (d.chs[n].now.isSome && near.contains c.page)))
  && !(d.mason.capRings.any (fun x => x.1 = n.val && d.get CAPk_CTRL.MODE n x.2.1 ≠ 0
    && (d.rankOf x.2.2.1 = r || d.rankOf (x.2.2.1 + x.2.2.2 - 1) = r)))

/-- `SELF_REFRESH_ENTRY` (R386). -/
def execSelfRefreshEntry (n : Fin 8) (r : Fin 2) (s : State) : Host.Outcome State Fault Refusal :=
  if s.dev.get DMC_LP.SR_TMR n ≠ 0 && s.dev.rankIdle s.mem n r then .next (s.withDev (s.dev.selfRefresh n r)) else .next s

/-- `DMC_CTRL.PAGE` written (R380). -/
def Dev.pageWrite (d : Dev) (n v : Nat) : Dev := if v = 3 then d.raise DMC_STAT.CFG_REJ n else d.set DMC_CTRL.PAGE n 0 v

/-- `DMC_PAGE_WRITE` (R380). -/
def execDmcPageWrite (n : Fin 8) (page : BitVec 2) (s : State) : Host.Outcome State Fault Refusal :=
  .next (s.withDev (s.dev.pageWrite n page.toNat))

/-- Whether a port's target may be set to a value in 16 ns (R376). -/
def qosOk (p v : Nat) : Bool := (p = 4 || p = 6) && 256 ≤ v && v ≤ 65535

/-- `DMC_QOS_WRITE` (R376). -/
def execDmcQosWrite (n : Fin 8) (p : Fin 7) (target : BitVec 16) (s : State) : Host.Outcome State Fault Refusal :=
  if qosOk p target.toNat then .next (s.withDev (s.dev.set DMC_QOSp.TARGET n p target.toNat))
  else .next (s.withDev (s.dev.raise DMC_STAT.CFG_REJ n))

/-- Whether a `DMC_LP` word is in range (R385, R387). -/
def lpOk (w : Nat) : Bool := bitsOf w 24 2 ≠ 3 && bitsOf w 0 8 ≠ 0

/-- `DMC_LP` set. -/
def Dev.lpSet (d : Dev) (n w : Nat) : Dev :=
  ((d.set DMC_LP.RETAIN n 0 (bitsOf w 24 2)).set DMC_LP.SR_TMR n 0 (bitsOf w 8 16)).set DMC_LP.PD_TMR n 0 (bitsOf w 0 8)

/-- `DMC_LP_WRITE` (R385 to R387). -/
def execDmcLpWrite (n : Fin 8) (w : BitVec 32) (s : State) : Host.Outcome State Fault Refusal :=
  if lpOk w.toNat then .next (s.withDev (s.dev.lpSet n w.toNat)) else .next (s.withDev (s.dev.raise DMC_STAT.CFG_REJ n))

/-! ### DRAM: errors, repair and retirement (R391 to R403) -/

/-- The channel mirrors: `MIRROR` is set and both ranks are in service (R402). -/
def Dev.mirrors (d : Dev) (n : Nat) : Bool :=
  d.flag DMC_CTRL.MIRROR n && d.get DMC_RANKr.STATE n 0 ≠ 3 && d.get DMC_RANKr.STATE n 1 ≠ 3

/-- Spares left and rows listed for repair show (R394). -/
def Dev.pprShow (d : Dev) (n : Nat) : Dev :=
  let spent := (d.flash.spent.filter (fun x => x.1 = n)).map (·.2)
  let listed := ((d.mason.repairs.filter (fun x => x.1 = n)).map (fun x => d.dieBank x.2.1 x.2.2)).eraseDups
  (d.set DMC_PPR.SPARE n 0 (64 - spent.length)).set DMC_PPR.PEND n 0 (listed.filter (fun b => !spent.contains b)).length

/-- A place for a HELD page's copy on another channel: one that holds no copy of the page, off the stacks of those that stay (R301, R399). -/
def Dev.otherPlace (d : Dev) (c : Copy) : Option (Fin 8 × Nat) :=
  let near := fun (k : Nat) => d.mason.copies.any (fun y => y.page = c.page && y.good && y ≠ c && (y.ch = k || y.ch / 2 = k / 2))
  allCh.findSome? (fun (k : Fin 8) => if k.val = c.ch || near k then none else (d.freeFrame k true).map (fun g => (k, g)))

/-- A page leaves a frame (R334, R393, R399): to another frame of its channel, for a HELD page to another channel's, else, if it is
BACKED, it is evicted. The old copy, which is read for that, serves until the next joint (R318). -/
def movePage (n f : Nat) (p : Dev × Memory) : Dev × Memory :=
  let d := p.1
  match d.mason.copies.find? (fun c => c.ch = n && c.frame = f && c.good) with
  | none => p
  | some c =>
    let gone := fun (d : Dev) => { d with mason := { d.mason with copies := d.mason.copies.map (fun y =>
      if y = c then { y with till := some (d.time.crs + 1) } else y) } }
    let read := d.request n (d.rankOf f) 4
    match d.freeFrame n (d.keepLow n c.page), c.held, d.otherPlace c with
    | some g, _, _ => let q := placeIn n c.page g c.held c.left (copyBytes p.2 c) (read, p.2); (gone q.1, q.2)
    | none, true, some x => let q := placeIn x.1 c.page x.2 true 0 (copyBytes p.2 c) (read, p.2); (gone q.1, q.2)
    | none, _, _ => if (d.extOf c.page).isSome then (gone d, p.2) else p

/-- The frames of a channel that pages are still to leave: those to be retired, and those in ranks that take no pages (R393, R399). -/
def Dev.leaving (d : Dev) (n : Nat) : List Nat :=
  ((d.mason.copies.filter (fun c => c.ch = n && c.good && (d.mason.retire.contains (n, c.frame) || !d.frameOpen n c.frame))).map (·.frame)).eraseDups

/-- The pages that are to leave frames of a channel leave them as far as there is room. -/
def moveOut (n : Nat) (p : Dev × Memory) : Dev × Memory := (p.1.leaving n).foldl (fun p f => movePage n f p) p

/-- `MASON_WALK` (R314): a page that has found no place to leave its frame for tries again (R393, R399). -/
def execMasonWalk (n : Fin 8) (s : State) : Host.Outcome State Fault Refusal :=
  let p := moveOut n (s.dev.masonWalk s.mem n, s.mem)
  .next { s with dev := p.1, mem := p.2 }

/-- A die row is marked for repair (R393, R395): its frame is to be retired once its page has gone, and the Stockroom lists the row. -/
def markRow (n f k : Nat) (p : Dev × Memory) : Dev × Memory :=
  let d := p.1
  if d.mason.repairs.contains (n, f, k) then p
  else
    let d := d.raiseIf (d.flash.spent.contains (n, d.dieBank f k)) DMC_STAT.PPR_OUT n
    let d := { d with mason := { d.mason with repairs := d.mason.repairs ++ [(n, f, k)] } }.pprShow n
    let d := if d.mason.retire.contains (n, f) || d.mason.retired.contains (n, f) then d
      else { d with mason := { d.mason with retire := d.mason.retire ++ [(n, f)] } }
    movePage n f (d, p.2)

/-- The shares of the descriptor table that a rank holds are rebuilt in reserved frames of other channels, off the stack of the second copy
(R306, R338, R399); with `MIRROR` the other rank has them too. Which frames take them is open (log entry 100). -/
def Dev.rehome (d : Dev) (n r : Nat) : Dev :=
  if d.mirrors n then d
  else
    let off := fun (a other : Nat) =>
      if a = 2 * n + r then
        ((List.range 16).find? (fun k => k / 2 ≠ n && k / 4 ≠ other / 4 && d.rankOpen (k / 2) (k % 2))).getD a
      else a
    { d with mason := { d.mason with homes := d.mason.homes.map (fun h => let a := off h.1 h.2; (a, off h.2 a)) } }

/-- A rank begins to drain (R399): its pages leave it, and its share of the descriptor table. A mirrored channel moves nothing (R402). -/
def rankDrain (n r : Nat) (p : Dev × Memory) : Dev × Memory :=
  let d := p.1
  if d.get DMC_RANKr.STATE n r ≠ 0 then p
  else
    let d := (((d.set DMC_RANKr.STATE n r 1).raise DMC_STAT.DRAIN n).notice 4 n [r, 1])
    if d.mirrors n then (d, p.2) else moveOut n (d.rehome n r, p.2)

/-- A rank has lost bursts in 4 distinct frames within 1 hour: it drains (R399). -/
def lostDrain (n r f : Nat) (p : Dev × Memory) : Dev × Memory :=
  let now := p.1.time.abs
  let l := (r, f, now) :: p.1.chs[Fin.ofNat 8 n].dram.lost.filter (fun x => !(x.1 = r && x.2.1 = f) && now < x.2.2 + 900000000000)
  let d := p.1.onCh (Fin.ofNat 8 n) (fun c => { c with dram := { c.dram with lost := l } })
  if 4 ≤ (l.filter (fun x => x.1 = r)).length then rankDrain n r (d, p.2) else (d, p.2)

/-- A burst read from rank r stays uncorrectable (R392, R393): with `MIRROR` the page has the same frame number in both ranks (R402). -/
def burstLost (n r a port : Nat) (p : Dev × Memory) : Dev × Memory :=
  let d := (p.1.count DMC_UE.UE n).raise DMC_STAT.UE n
  let x := d.mapAddr n a
  let f := a / 65536
  let d := if d.flag DMC_LAST_HI.VALID n then d
    else
      let d := ((d.set DMC_LAST_LO.ADDR_LO n 0 (a % 2 ^ 32)).raise DMC_LAST_HI.VALID n).set DMC_LAST_HI.ADDR_HI n 0 (a / 2 ^ 32)
      ((d.set DMC_LAST_HI.SUB n 0 x.1).set DMC_LAST_HI.BANK n 0 x.2.2.1).set DMC_LAST_HI.COL n 0 x.2.2.2
  let d := d.poison n (if d.flag DMC_CTRL.MIRROR n then f % rankFrames d.flash.half else f)
  let d := if port = 5 then d.abortSlot (Fin.ofNat 8 n) else d
  lostDrain n r f (markRow n f (d.dieRow n a) (d, p.2))

/-- A DRAM read's finding on rank r (R391 to R393). `bursts` is how many distinct bursts of the row the code has corrected within 24
hours. -/
def dramRead (n r a port : Nat) (found : DramFinding) (bursts : Nat) (p : Dev × Memory) : Dev × Memory :=
  let d := p.1.rankWake n r
  match found with
  | .clean => (d, p.2)
  | .linkFixed => (d.count DMC_ECC.CE n, p.2)
  | .codeFixed =>
    let d := d.count DMC_ECC.CE n
    if 3 ≤ bursts then markRow n (a / 65536) (d.dieRow n a) (d, p.2) else (d, p.2)
  | .linkBad => ((d.count DMC_ECC.REPLAY n).raise DMC_STAT.REPLAY n, p.2)
  | .codeBad => ((d.count DMC_ECC.REPLAY n).raise DMC_STAT.REPLAY n, p.2)
  | .lost => if d.mirrors n then ((d.count DMC_ECC.REPLAY n).raise DMC_STAT.REPLAY n, p.2) else burstLost n r a port (d, p.2)

/-- The rank from which a frame is read: its own, or with `MIRROR` the other where its own is out of service (R402). -/
def Dev.servedBy (d : Dev) (n f : Nat) : Option Nat :=
  let r := d.rankOf f
  if 2 ≤ r then none
  else if d.rankOn n r then some r
  else if d.flag DMC_CTRL.MIRROR n && d.rankOn n (1 - r) then some (1 - r)
  else none

/-- `DRAM_READ_RESULT` (R391, R392, R399, R389): `drain` says that the rank's link ECC has now reported more than 1,000 errors within one
second; `act`, that the read activates its row; `late`, that its urgency had reached 8 (R376). -/
def execDramReadResult (n : Fin 8) (addr : BitVec 33) (found : DramFinding) (port : Fin 7) (bursts : Nat) (drain : Bool)
    (act : Bool) (late : Bool) (s : State) : Host.Outcome State Fault Refusal :=
  match s.dev.servedBy n (addr.toNat / 65536) with
  | none => .next s
  | some r =>
    let d := if late then s.dev.count DMC_QOSp.LATE n port else s.dev
    let p := dramRead n r addr.toNat port found bursts (d, s.mem)
    let p := if drain then rankDrain n r p else p
    let d := if act then p.1.activate n addr.toNat port else p.1
    .next { s with dev := d, mem := p.2 }

/-- A burst that the scrubber loses has been replayed twice (R391). -/
def Dev.replayed (d : Dev) (n : Nat) (lost : Bool) : Dev :=
  if lost && !d.mirrors n then (d.countBy 2 DMC_ECC.REPLAY n).raise DMC_STAT.REPLAY n else d

/-- A read of the scrubber at a frame: its request, and its activation of the row, which the open row may spare it (R376, R380, R389). -/
def Dev.scrubRequest (d : Dev) (n r a : Nat) : Dev :=
  let x := (d.request n r 6).freeBit
  if x.1 then x.2.activate n a 6 else x.2

/-- `DRAM_SCRUB` (R581, R582): the scrubber reads a frame that holds something; it waits in IDLE and SLEEP. `hour` says that
16 or more corrected errors came within an hour (some true) or fewer than 4 in a full hour (some false); `last`, that this
read ends a pass. -/
def execDramScrub (n : Fin 8) (addr : BitVec 33) (found : Ecc) (bursts : Nat) (hour : Option Bool) (last : Bool) (s : State) :
    Host.Outcome State Fault Refusal :=
  let d := s.dev
  let a := addr.toNat
  let f := a / 65536
  match d.servedBy n f with
  | none => .next s
  | some r =>
    if d.get PWR_STAT.STATE ≠ 0 then .next s
    else
      let what := match found with | .clean => DramFinding.clean | .fixed => DramFinding.codeFixed | .lost => DramFinding.lost
      let home := if d.flag DMC_CTRL.MIRROR n then f % rankFrames d.flash.half else f
      let visit := d.frameReserved f || d.mason.reserved.contains (n.val, f) || d.frameUsed n home
      let p := if visit then dramRead n r a 6 what bursts ((d.scrubRequest n r a).replayed n (found = .lost), s.mem) else (d, s.mem)
      let d := match hour with
        | some true => p.1.setBit STK_SCRUB_STAT.FAST 0 0 n
        | some false => p.1.clrBit STK_SCRUB_STAT.FAST 0 0 n
        | none => p.1
      .next { s with dev := if last then d.countWrap STK_SCRUB_STAT.PASSES else d, mem := p.2 }

/-- `RANK_DRAIN_DONE` (R400): the rank holds no page, and its sweep begins. -/
def execRankDrainDone (n : Fin 8) (r : Fin 2) (s : State) : Host.Outcome State Fault Refusal :=
  let d := s.dev
  if d.get DMC_RANKr.STATE n r = 1
      && (d.mirrors n || !d.mason.copies.any (fun c => c.ch = n.val && (d.flag DMC_CTRL.MIRROR n || d.rankOf c.frame = r.val))) then
    .next (s.withDev (((d.set DMC_RANKr.STATE n r 2).set DMC_RANKr.TRIES n r 0).notice 4 n [r.val, 2]))
  else .next s

/-- `DMC_STAT.STATE` follows the ranks; with both retired the channel runs SRAM-only (R338, R401). -/
def Dev.dramState (d : Dev) (n : Nat) : Dev :=
  let out := ([0, 1].filter (fun r => d.get DMC_RANKr.STATE n r = 3)).length
  let only := if out = 2 then 1 else 0
  let d := if only = d.get MSN_CHn_STAT.SRAM_ONLY n then d else d.checkRuns
  ((d.set DMC_STAT.STATE n 0 (1 + out)).set MSN_CHn_STAT.SRAM_ONLY n 0 only).framesShow n

/-- A rank is retired (R400, R402, R565, R516). -/
def Dev.rankRetire (d : Dev) (n r : Nat) : Dev :=
  let d := ((d.set DMC_RANKr.STATE n r 3).raise DMC_STAT.RANK_RET n).raiseIf (d.flag DMC_CTRL.MIRROR n) DMC_STAT.MIRROR_LOST n
  ((((d.setDebt n r 0).dramState n).rehome n r).fault 10).notice 4 n [r, 3]

/-- The DRAM_DRAIN commands of the rank complete (R507). -/
def Dev.drainDone (d : Dev) (n r status : Nat) : Dev :=
  (d.cmds.filter (fun c => c.opcode = 0x171 && c.m = n && c.took = r)).foldl (fun d c => d.finish c.m c.slot status []) d

/-- A sweep of a rank ends with the windows of its lanes (R396, R397, R400). -/
def Dev.sweepDone (d : Dev) (n : Fin 8) (r : Nat) (lanes : List LaneWindow) : Dev :=
  let tries := d.get DMC_RANKr.TRIES n r + 1
  let win := narrowest lanes
  let d := (d.set DMC_RANKr.TRIES n r tries).set DMC_RANKr.WIN n r win
  if 16 ≤ win then
    (((d.delaySwept n r lanes).set DMC_RANKr.STATE n r 0).notice 4 n [r, 0]).drainDone n r (if d.flag MSN_CHn_STAT.SRAM_ONLY n then 9 else 0)
  else if 3 ≤ tries then (d.rankRetire n r).drainDone n r 9
  else d

/-- `RANK_SWEEP_DONE` (R397, R400). -/
def execRankSweepDone (n : Fin 8) (r : Fin 2) (lanes : List LaneWindow) (s : State) : Host.Outcome State Fault Refusal :=
  if s.dev.get DMC_RANKr.STATE n r = 2 then .next (s.withDev (s.dev.sweepDone n r lanes)) else .next s

end Sys2Proof.Machine
end

