-- ==== Sys2Proof/Machine/Ring.lean ====
section
/-!
DEFINITION. Commands of the Bond ring (chapter 12): cells and lanes, link frames and alignment, links lost and found,
election, joining, partition and rejoin, HALT over the ring, small messages. CONTROL payloads are kept by kind: 1 length,
2 shift, 3 L_min, 4 HALT release, 5 its request, 6 late notice, 7 join request, 8 admission, 9 claim, 10 counts, 11 decision,
12 new root, 13 refusal, 14 eviction, 15 calibration, 16 its request, 17 its end, 18 request of a rejoin, 19 rejoin, 20 the loop's closing.
-/
namespace Sys2Proof.Machine
open Reg

/-! ### Standing -/

/-- The state of the device on the ring (R419). -/
def Dev.ringSt (d : Dev) : Nat := d.get RING_STAT.STATE

/-- Member or root of a system (R419). -/
def Dev.joined (d : Dev) : Bool := d.ringSt = 3 || d.ringSt = 4

/-- What a port measures. -/
def Dev.measOf (d : Dev) (p : Nat) : Meas := d.ring.meas.getD p {}

/-- What a port measures, changed. -/
def Dev.onMeas (d : Dev) (p : Nat) (f : Meas → Meas) : Dev :=
  { d with ring := { d.ring with meas := d.ring.meas.set p (f (d.measOf p)) } }

/-- The link of a port is up (R446). -/
def Dev.linked (d : Dev) (p : Nat) : Bool := d.flag RING_Pp_STAT.LINK p

/-- Cells cross this port (R411, R419): an islanded device forwards within its piece only. -/
def Dev.crosses (d : Dev) (p : Nat) : Bool :=
  3 ≤ d.ringSt && d.linked p && (d.ringSt = 3 || d.ringSt = 4 || d.ringSt = 7 || (d.measOf p).island)

/-- `RING_Pp_STAT.FWD` of both ports. -/
def Dev.fwdShow (d : Dev) : Dev :=
  [0, 1].foldl (fun d p => d.set RING_Pp_STAT.FWD p 0 (if d.crosses p then 1 else 0)) d

/-- The device starts the lane that leaves a port (R413): the root of a closed loop, the end of a line otherwise. -/
def Dev.startsLane (d : Dev) (p : Nat) : Bool :=
  d.ringed && d.linked p && !d.flag RING_Pp_STAT.REV p && ((d.isRoot && d.ring.closed) || !d.crosses (1 - p) || !d.crosses p)

/-- No port is the PLL reference; the source given is (R55). -/
def Dev.noUp (d : Dev) (src : Nat) : Dev :=
  let d : Dev := { d with ring := { d.ring with good := 0 } }
  ((d.set RING_Pp_STAT.UP 0 0 0).set RING_Pp_STAT.UP 1 0 0).clkSrc src

/-- The port that is the PLL reference. -/
def Dev.upIs (d : Dev) : Option Nat := [0, 1].find? (fun p => d.flag RING_Pp_STAT.UP p)

/-- The device reports aligned (R432, R433, R436): a root while its PLL is locked, an island head, a member locked to its upstream port with
its offset inside the bound for 10 ms (15,625 frames), every link calibrated and the closure inside its bound; in holdover an island head alone. -/
def Dev.aligned (d : Dev) : Bool :=
  let st := d.ringSt
  let src := d.get CLK_STAT.SRC
  let head := st = 5 && d.flag RING_STAT.ISL_HEAD
  let caled := [0, 1].all (fun p => !d.linked p || (d.measOf p).caled)
  d.locked && !d.ring.asym && (head || (st = 4 && src ≠ 3)
    || ((st = 3 || st = 5) && d.upIs.any (fun p => src = p + 1) && 15625 ≤ d.ring.good && caled
      && (!d.flag RING_STAT.CROSS || (d.getS RING_CLOSE.CLOSE).natAbs ≤ 30)))

/-! ### Cells and lanes -/

/-- An IDLE cell of a kind leaves a port with a payload and its CRC good or inverted. -/
def Dev.sendIdle (d : Dev) (p : Nat) (reserved : Bool) (payload : Nat) (bad : Bool) : Dev :=
  d.sendCell p (if reserved then 0x1C else 0xBC) (octets 7 payload) bad

/-- A new IDLE cell leaves a port; its payload is open (log entry 1). -/
def Dev.newIdle (d : Dev) (p : Nat) (reserved : Bool) : Dev :=
  let x := d.free
  x.2.sendIdle p reserved (x.1 % 2 ^ 56) false

/-- A CONTROL or MESSAGE cell may go on the lane now: one in any four consecutive cells (R413). -/
def Dev.laneFree (d : Dev) (p : Nat) : Bool := decide (d.ring.lane.getD p 0 ≤ d.time.abs)

/-- A CONTROL or MESSAGE cell goes on the lane. -/
def Dev.laneTake (d : Dev) (p : Nat) : Dev :=
  { d with ring := { d.ring with lane := d.ring.lane.set p (d.time.abs - d.tcount % 10 + 40) } }

/-- What fills a free cell that leaves a port: EVENT, then CONTROL, then MESSAGE, else the IDLE cell, which `idle` sends (R413). -/
def Dev.fillCell (d : Dev) (p : Nat) (reserved : Bool) (idle : Dev → Dev) : Dev :=
  if d.ev.out.any (fun x => x.1 = p) then d.cellInsert p
  else if reserved || !d.laneFree p then idle d
  else match d.ring.ctl.find? (fun x => x.1 = p) with
    | some c =>
      ({ d with ring := { d.ring with ctl := d.ring.ctl.erase c } }.laneTake p).emit (.control p c.2.1 c.2.2)
    | none => match d.ring.tx.find? (fun x => x.1 = p) with
      | some x =>
        let tx := d.ring.tx.erase x
        let d := ({ d with ring := { d.ring with tx := tx } }.laneTake p).emit (.message p x.2.1 x.2.2.seq x.2.2.payload)
        if tx.isEmpty then d.clear RING_MTX_CTRL.BUSY else d
      | none => idle d

/-- The landing joint that the low 16 bits of an EVENT cell name (R413). -/
def expandLand (crs low : Nat) : Nat :=
  let b := crs / 65536 * 65536 + low
  if b + 32768 < crs then b + 65536 else if crs + 32768 < b && 65536 ≤ b then b - 65536 else b

/-- A received cell goes on out of the other port one cell later (R411, R412); in its originator it becomes an IDLE cell of
its kind. An origination that waits past a cell already taken sets `EV_WAIT` (R414). -/
def Dev.passCell (d : Dev) (p : Nat) (cls : CellClass) (payload : Nat) (good : Bool) : Dev :=
  let q := 1 - p
  if !d.crosses p || !d.crosses q then d
  else
    let taken := fun (d : Dev) (k : Nat) =>
      (d.raiseIf (d.ev.out.any (fun x => x.1 = q)) RING_STAT.EV_WAIT).sendCell q k (octets 7 payload) !good
    match cls with
    | .idle r => d.fillCell q r (fun d => d.sendIdle q r payload !good)
    | .event r => if good && payload / 2 ^ 46 = d.get RING_ID.INDEX then d.newIdle q r else taken d 0xFB
    | .control own => if own then d.newIdle q false else taken d 0xFD
    | .message own => if own then d.newIdle q false else taken d 0xFE

/-! ### HALT -/

/-- HALT reaches the device over the ring (R443); `symbol` says that a symbol brought it. -/
def Dev.haltRing (d : Dev) (p : Nat) (symbol : Bool) : Dev :=
  let was := d.porter.halt
  let d := d.setBit PORTER_HALT.SRC 0 0 2
  let d := if symbol || !was then d.emit (.haltSym (1 - p)) else d
  if was then d else ({ d with porter := { d.porter with halt := true } }.stopAll).fire 8

/-- A release of HALT is accepted for joint r (R562). -/
def Dev.relAccept (d : Dev) (r : Nat) : Dev :=
  let d := { d with porter := { d.porter with relAt := some r } }.setPair PORTER_REL_LO.REL_LO PORTER_REL_HI.REL_HI 0 0 r
  if d.porter.halt then d.raise PORTER_HALT.REL_PEND else d

/-- The root accepts a release request and publishes its joint (R437, R562, R564). -/
def Dev.relRoot (d : Dev) : Dev :=
  if d.porter.relAt.isSome then d
  else let r := d.time.crs + d.lmin; (d.publish 4 [r]).relAccept r

/-! ### Links -/

/-- The device's claim goes out, on links that stand (R422). -/
def Dev.claimOut (d : Dev) : Dev :=
  if d.get RING_CTRL.ROLE = 2 && (d.linked 0 || d.linked 1) then
    d.publish 9 [d.get RING_ID.INDEX, d.get RING_ID.PRIO, Config.uid % 2 ^ 40]
  else d

/-- A candidate's claim goes out of one port: an unjoined device passes on what it has heard (R422). -/
def Dev.claimOn (p : Nat) (d : Dev) (c : Claim) : Dev :=
  { d with ring := { d.ring with ctl := d.ring.ctl ++ [(p, 9, [c.index, c.prio, c.uid])] } }

/-- The device is UNJOINED again: what it took of a join goes, and an election may begin (R422, R424). -/
def Dev.unjoin (d : Dev) : Dev :=
  let d := d.ringState 1
  { d with ring := { d.ring with
    cands := [], synced := false, asked := false, early := [], earlyEv := [], linkAt := d.time.abs } }.claimOut

/-- A port's link goes (R435, R446, R447): reported, and a member that followed it takes its clock from the other port while the loop was
closed, and else holds its frequency (R436): what the neighbour there counts as its hops then came through this device. `rev`: a reversal
calibration takes the link, which ends no join (R430). -/
def Dev.linkDown (d : Dev) (p : Nat) (rev : Bool) : Dev :=
  let up := d.flag RING_Pp_STAT.UP p
  let loop := d.ring.closed
  let d := (((d.clear RING_Pp_STAT.LINK p).clear RING_Pp_STAT.FWD p).set RING_Pp_STAT.HOPS p 0 511).set RING_Pp_STAT.PEER p 0 1023
  let d := ((d.raise RING_STAT.LINK_CHG).count RING_CNT.LOSSES).fire 6
  let gone := fun (x : Nat × Nat × Nat) => if p = 0 then (x.1, 511, x.2.2) else (x.1, x.2.1, 511)
  let d := ({ d with ring := { d.ring with
    closed := false, close := (0, 0), heard := [], linkAt := d.time.abs, places := d.ring.places.map gone
    cands := if d.ringSt = 1 then d.ring.cands.filter (fun c => c.port ≠ p) else d.ring.cands } }.onMeas p (fun _ => {})).clear RING_STAT.CROSS
  let h := d.get RING_Pp_STAT.HOPS (1 - p)
  if !up then d
  else if loop && d.linked (1 - p) && h ≠ 511 then d.follow (1 - p)
  else
    let d := if h = 511 then d else d.onMeas (1 - p) (fun m => { m with old := some h })
    if d.ringSt = 2 && !rev then (d.noUp 0).unjoin else d.noUp 3

/-- A port's link comes up (R446). -/
def Dev.linkBack (d : Dev) (p : Nat) : Dev :=
  let d : Dev := { d with ring := { d.ring with linkAt := d.time.abs } }
  (((d.raise RING_Pp_STAT.LINK p).raise RING_STAT.LINK_CHG).fire 6).fwdShow

/-- `LINK_LOST` (R446, R448): the ends of the piece begin to exchange counts. -/
def Dev.linkLost (d : Dev) (p : Nat) : Dev :=
  if !d.ringed || !d.linked p then d
  else
    let j := d.joined
    let d := d.linkDown p false
    if j then d.publish 10 [d.get RING_ID.INDEX] else d

/-- Code violations that a port's receiver has seen are counted (R454). -/
def Dev.violations (d : Dev) (p cv : Nat) : Dev := if d.ringed && d.linked p then d.countBy cv RING_Pp_ERR.CV p else d

/-- `LINK_LOST` (R446): `cv` counts the code violations of its last words. -/
def execLinkLost (p : Fin 2) (cv : Nat) (s : State) : Host.Outcome State Fault Refusal :=
  .next (s.withDev ((s.dev.violations p cv).linkLost p))

/-- A reversal calibration of the link begins (R430): the link carries nothing, and its loss is reported (R623). -/
def Dev.calStart (d : Dev) (p : Nat) (named : Bool) : Dev :=
  if !d.linked p then d else ((d.linkDown p true).raise RING_Pp_STAT.REV p).onMeas p (fun m => { m with named := named })

/-- The link at port q of member i is calibrated (R430): both its ends reverse, the named one and the neighbour at its other end, whose
port has the other name (R405); the loop is open meanwhile. -/
def Dev.calLink (d : Dev) (i q : Nat) : Dev :=
  let d : Dev := { d with ring := { d.ring with closed := false } }.clear RING_STAT.CROSS
  if i = d.get RING_ID.INDEX then (if d.linked q then d.calStart q true else if d.isRoot then d else d.publish 17 [i, q])
  else if d.linked (1 - q) && d.get RING_Pp_STAT.PEER (1 - q) = i then d.calStart (1 - q) false
  else d

/-- The root sends out the calibration at the head of its list (R430); its own links that do not stand leave the list. -/
def Dev.calNext (d : Dev) : Dev :=
  let l := d.ring.recals.dropWhile (fun x => x.1 = d.get RING_ID.INDEX && !d.linked x.2)
  let d : Dev := { d with ring := { d.ring with recals := l, asym := d.ring.asym && !l.isEmpty } }
  match l with
  | [] => d
  | x :: _ => (d.calLink x.1 x.2).publish 15 [x.1, x.2]

/-- The root takes a calibration into its list; it never has two links out (R430). -/
def Dev.calAsk (d : Dev) (index p : Nat) : Dev :=
  if d.ring.recals.contains (index, p) then d
  else
    let first := d.ring.recals.isEmpty
    let d := { d with ring := { d.ring with recals := d.ring.recals ++ [(index, p)] } }
    if first then d.calNext else d

/-- The calibration of a link has ended: where it is the one that the root has out, the next follows. -/
def Dev.calDone (d : Dev) (index p : Nat) : Dev :=
  if d.ring.recals.head? = some (index, p) then { d with ring := { d.ring with recals := d.ring.recals.drop 1 } }.calNext else d

/-- The device's links that stand and have had no calibration are reported to the root, which calibrates each once (R430). -/
def Dev.calNew (d : Dev) : Dev :=
  let i := d.get RING_ID.INDEX
  [0, 1].foldl (fun d p =>
    if !d.linked p || (d.measOf p).caled then d
    else if d.isRoot then d.calAsk i p
    else if d.isMember then d.publish 16 [i, p]
    else d) d

/-- The request of a join or of a piece's rejoin goes out once steps 3 to 5 of R425 have been run: the tick count taken, the offset on
the upstream link 0, the links to joined neighbours calibrated (R426, R438, R452). -/
def Dev.joinAsk (d : Dev) : Dev :=
  let st := d.ringSt
  let done := d.upIs.any (fun p => (d.measOf p).known && (d.measOf p).x = 0)
    && [0, 1].all (fun p => !d.linked p || !(d.measOf p).joined || (d.measOf p).caled)
  if !(st = 2 || st = 6) || !d.ring.synced || d.ring.asked || !done then d
  else
    let d : Dev := { d with ring := { d.ring with asked := true } }
    if st = 2 then d.publish 7 [Config.uid % 2 ^ 40]
    else if [0, 1].any (fun p => d.linked p && (d.measOf p).joined && !(d.measOf p).island) then d.publish 18 []
    else d

/-- `LINK_UP` (R406, R407, R422, R430, R446). -/
def Dev.linkUp (d : Dev) (p delay : Nat) : Dev :=
  if !d.ringed || d.linked p then d
  else if (d.measOf p).same then d.raise RING_STAT.WIRING
  else if 180000 < delay then d.raise RING_STAT.LONG
  else
    let d := (d.set RING_Pp_DLY.DELAY p 0 delay).linkBack p
    if d.isRoot then d.calAsk (d.get RING_ID.INDEX) p
    else if d.isMember then d.publish 16 [d.get RING_ID.INDEX, p]
    else if d.ringSt = 1 then (d.ring.cands.foldl (Dev.claimOn p) d).claimOut
    else d

/-- `LINK_UP`. -/
def execLinkUp (p : Fin 2) (delay : BitVec 24) (s : State) : Host.Outcome State Fault Refusal :=
  .next (s.withDev (s.dev.linkUp p delay.toNat))

/-- `RECAL_DONE` (R430, R623): the asymmetry is taken, the return is reported, `REV` ends 10 µs later. -/
def Dev.recalDone (d : Dev) (p asym : Nat) : Dev :=
  if !d.flag RING_Pp_STAT.REV p || (d.measOf p).revEnd.isSome then d
  else
    let d := ((d.set RING_Pp_ASYM.ASYM p 0 asym).count RING_CNT.LOSSES).linkBack p
    let named := (d.measOf p).named
    let d := d.onMeas p (fun m => { m with caled := true, revEnd := some (d.time.abs + 2500), dCal := none, named := false })
    let d : Dev := { d with ring := { d.ring with baseDue := true } }
    let i := d.get RING_ID.INDEX
    let d := if !named then d else if d.isRoot then d.calDone i p else d.publish 17 [i, p]
    (if (d.ringSt = 2 || d.ringSt = 6) && d.upIs.isNone then d.follow p else d).joinAsk

/-- `RECAL_DONE`. -/
def execRecalDone (p : Fin 2) (asym : BitVec 16) (s : State) : Host.Outcome State Fault Refusal :=
  .next (s.withDev (s.dev.recalDone p asym.toNat))

/-- `REV` ends where its 10 µs have passed (R623). -/
def Dev.revEnds (d : Dev) : Dev :=
  [0, 1].foldl (fun d p =>
    if (d.measOf p).revEnd.any (fun t => t ≤ d.time.abs) then (d.clear RING_Pp_STAT.REV p).onMeas p (fun m => { m with revEnd := none })
    else d) d

/-- `RING_RECAL_CMD` (R430): the root is asked to calibrate this device's links again. -/
def Dev.recalCmd (d : Dev) : Dev :=
  let i := d.get RING_ID.INDEX
  if d.isRoot then (d.calAsk i 0).calAsk i 1
  else if d.isMember then (d.publish 16 [i, 0]).publish 16 [i, 1]
  else d.raise RING_STAT.CFG_REJ

/-- `RING_RECAL_CMD`. -/
def execRingRecalCmd (s : State) : Host.Outcome State Fault Refusal := .next (s.withDev s.dev.recalCmd)

/-! ### Link frames (R415 to R417) -/

/-- A quotient rounded down or, when it is not exact, up, as a free bit says (R416 gives a resolution and no rounding). -/
def Dev.avg (d : Dev) (a : Int) (b : Nat) : Int × Dev :=
  if a % b = 0 then (a / b, d) else let x := d.freeBit; (a / b + (if x.1 then 1 else 0), x.2)

/-- The joining device's neighbour that reports `JOINED` and is not islanded. -/
def Dev.joinedPort (d : Dev) : Option Nat :=
  let ok := fun p => d.linked p && (d.measOf p).joined && !(d.measOf p).island
  if ok 0 && ok 1 then some d.upPort else if ok 0 then some 0 else if ok 1 then some 1 else none

/-- The device is ready to rejoin (R452). -/
def Dev.rejoinReady (d : Dev) : Bool := (d.flag RING_CTRL.AUTO_REJOIN && d.allStopped) || d.ring.ready

/-- `RING_STAT.WAIT` (R424, R452). -/
def Dev.waitShow (d : Dev) : Dev :=
  let role := d.get RING_CTRL.ROLE
  let w := d.joinedPort.isSome && ((d.ringSt = 1 && (role = 1 || role = 2) && !d.allStopped) || (d.ringSt = 5 && !d.rejoinReady))
  d.set RING_STAT.WAIT 0 0 (if w then 1 else 0)

/-- The neighbour's frame bits, index and hops; hops that it counted through this device stand until they change (R435). To an unjoined
device the frame's course tells when a partition decision that it has heard of has passed (R424). -/
def Dev.framePeer (d : Dev) (p f : Nat) : Dev :=
  let far := bitsOf f 97 9
  let hops := if far = 511 then 511 else far + 1
  let passed := d.ringSt < 3 && bitAt f 125 && d.ring.decision.any (fun j => (bitsOf f 0 16 + 65536 - j % 65536) % 65536 < 32768)
  let d : Dev := if passed then { d with ring := { d.ring with decision := none } } else d
  let d := d.onMeas p (fun m => { m with joined := bitAt f 125, island := bitAt f 124, old := m.old.filter (fun h => h = hops) })
  (d.set RING_Pp_STAT.PEER p 0 (bitsOf f 110 10)).set RING_Pp_STAT.HOPS p 0 hops

/-- A device that joins or rejoins takes the ring tick count from its upstream's frame, in the bits that the frame holds (step 4 of R425,
R410). -/
def Dev.frameSync (d : Dev) (p f : Nat) : Dev :=
  if !(d.ringSt = 2 || d.ringSt = 6) || d.ring.synced || d.upIs ≠ some p then d
  else
    let t : Nat := (bitsOf f 64 32 + d.get RING_Pp_DLY.DELAY p / 40000) % 2 ^ 32
    { d with ring := { d.ring with synced := true, tbase := Int.ofNat t - d.time.abs } }

/-- Delay and offset of the link from the frame's report and its arrival (R416): averages over 1,024 frames. -/
def Dev.frameTime (d : Dev) (p f : Nat) (b : Int) : Dev :=
  let a := signed 32 (bitsOf f 32 32)
  let asym := d.getS RING_Pp_ASYM.ASYM p
  let m := d.measOf p
  let sd := m.sumD + a + b - asym
  let sx := m.sumX + a - b - asym
  let d := if m.n + 1 < 1024 then d.onMeas p (fun m => { m with report := b, sumD := sd, sumX := sx, n := m.n + 1 })
    else
      let x := d.avg sd 2048
      let y := x.2.avg sx 2048
      (y.2.set RING_Pp_DLY.DELAY p 0 (unsigned 24 x.1)).onMeas p (fun m =>
        { m with report := b, sumD := 0, sumX := 0, n := 0, x := y.1, known := true
                 dCal := if m.dCal.isNone && m.caled then some (unsigned 24 x.1) else m.dCal })
  d.set RING_Pp_OFS.OFS p 0 (unsigned 32 (signed 16 (bitsOf f 16 16) + (d.measOf p).x))

/-- The frame's counters, taken back by the line delay, disagree with the device's (R417). -/
def Dev.frameOff (d : Dev) (p f : Nat) (b : Int) : Bool :=
  let dly := d.get RING_Pp_DLY.DELAY p
  let place := d.locate ((d.time.abs * 256 : Nat) - (dly * 256 / 40000 : Nat))
  20000 < (b - dly).natAbs || place.1 % 65536 ≠ bitsOf f 0 16

/-- A member follows the port whose lane reaches the root in fewer hops, one that disagrees with it left out (R417, chapter 12
"Alignment"), and so does a device that rejoins; the members of an islanded piece follow its head (R451). While neither port reaches the root
a member holds its frequency (R55, R435) (log entry 75, DEDUCED). -/
def Dev.reselect (d : Dev) : Dev :=
  let st := d.ringSt
  if !(st = 3 || st = 6 || (st = 5 && !d.flag RING_STAT.ISL_HEAD)) then d
  else
    let reach := fun p => d.linked p && d.get RING_Pp_STAT.HOPS p ≠ 511 && (d.measOf p).old.isNone && (st ≠ 5 || (d.measOf p).island)
    let ok := fun p => reach p && decide ((d.measOf p).bad < 4)
    let pick := if ok 0 && ok 1 then some d.upPort else if ok 0 then some 0 else if ok 1 then some 1 else none
    match pick with
    | some p => if d.flag RING_Pp_STAT.UP p then d else d.follow p
    | none => if st = 6 || reach 0 || reach 1 then d else d.noUp 3

/-- A member that disagrees with every joined neighbour leaves the system as if islanded alone with the policy QUIET (R417); unjoined, it
runs on REFCLK (R55). -/
def Dev.leaveAlone (d : Dev) : Dev :=
  let d := { d with ring := { d.ring with roster := [], adds := [], lmins := [], piece := none, decision := none } }.stopAll
  let d := ((d.fire 5).noUp 0).unjoin
  (((d.set RING_ID.INDEX 0 0 1023).set RING_ROSTER.N 0 0 0).set RING_ROSTER.ROOT 0 0 1023).set EVS_LMIN.LMIN 0 0 2

/-- The check of R417. -/
def Dev.frameCheck (d : Dev) (p f : Nat) (b : Int) : Dev :=
  if !d.joined || !bitAt f 125 then d
  else if !d.frameOff p f b then d.onMeas p (fun m => { m with bad := 0 })
  else
    let d := d.onMeas p (fun m => { m with bad := m.bad + 1 })
    if (d.measOf p).bad < 4 then d
    else
      let d := d.raise RING_STAT.JOINT_ERR
      let near := [0, 1].filter (fun q => d.linked q && (d.measOf q).joined)
      if d.isMember && near.all (fun q => 4 ≤ (d.measOf q).bad) then d.leaveAlone
      else if d.flag RING_Pp_STAT.UP p && d.linked (1 - p) then d.follow (1 - p)
      else d

/-- A member moves its phase towards its upstream, once for each frame (R429): with a time constant of 10 ms a frame moves it by the
15,625th part of the averaged offset and by 0.1 ps at most, the parts kept until they make a step; while it joins or rejoins it slews, 0.1 ps
a frame (R425) (log entry 49, DEDUCED). -/
def Dev.phaseStep (d : Dev) (p : Nat) : Dev :=
  let x := (d.measOf p).x
  let st := d.ringSt
  if !d.flag RING_Pp_STAT.UP p || !(d.measOf p).known || !(st = 2 || st = 3 || st = 5 || st = 6) || d.flag RING_STAT.ISL_HEAD then d
  else
    let sum := d.ring.servo + clampI (-15625) 15625 x
    let step := if st = 2 || st = 6 then x.sign else Int.tdiv sum 15625
    let d : Dev := { d with ring := { d.ring with
      good := if x.natAbs ≤ 2 then d.ring.good + 1 else 0
      servo := if st = 2 || st = 6 then 0 else sum - 15625 * step } }
    if step = 0 then d else d.set RING_PHASE.PHASE 0 0 (unsigned 32 (d.getS RING_PHASE.PHASE + step))

/-- The links whose delay has moved by more than 1 ps since the latest calibration are to be calibrated again (R433). -/
def Dev.calMoved (d : Dev) : Dev :=
  let i := d.get RING_ID.INDEX
  [0, 1].foldl (fun d p =>
    if !(d.measOf p).dCal.any (fun x => 10 < ((d.get RING_Pp_DLY.DELAY p : Int) - x).natAbs) then d
    else if d.isRoot then d.calAsk i p
    else d.publish 16 [i, p]) d

/-- Every link of the roster is calibrated in turn (R433). -/
def Dev.calAll (d : Dev) : Dev := (d.ring.roster.flatMap (fun i => [(i, 0), (i, 1)])).foldl (fun d x => d.calAsk x.1 x.2) d

/-- The closure and its watch (R431, R433): averaged over 100 ms, 156,250 frames of the upstream port; the closure measured first after a
calibration is the one that it is held against. -/
def Dev.closure (d : Dev) (p : Nat) : Dev :=
  let on := d.ring.closed && d.joined && d.linked 0 && d.linked 1
  let d := d.set RING_STAT.CROSS 0 0 (if on then 1 else 0)
  if !on then { d with ring := { d.ring with close := (0, 0) } }
  else
    let u := d.upPort
    let c := d.getS RING_Pp_OFS.OFS (1 - u) - d.getS RING_Pp_OFS.OFS u
    let d := d.set RING_CLOSE.CLOSE 0 0 (unsigned 32 c)
    let d : Dev := if d.ring.baseDue then
        { d.set RING_CLOSE_BASE.BASE 0 0 (unsigned 32 c) with ring := { d.ring with baseDue := false, close := (0, 0) } }
      else d
    let sum := d.ring.close.1 + c
    let n := d.ring.close.2 + 1
    if p ≠ u then d
    else if n < 156250 then { d with ring := { d.ring with close := (sum, n) } }
    else
      let d := { d with ring := { d.ring with close := (0, 0) } }
      if (sum / 156250 - d.getS RING_CLOSE_BASE.BASE).natAbs ≤ 30 then d
      else
        { d.raise RING_STAT.ASYM with ring := { d.ring with good := 0, asym := d.isRoot } }.calMoved


/-- The 128 bits of the link frame that a port sends (R415). -/
def Dev.frameBits (d : Dev) (p : Nat) : Nat :=
  let st := d.ringSt
  let bit := fun (c : Bool) (k : Nat) => if c then 2 ^ k else 0
  let head := st = 5 && d.flag RING_STAT.ISL_HEAD
  let hops := if d.isRoot || head then 0 else match d.upIs with | some q => d.get RING_Pp_STAT.HOPS q | none => 511
  bit d.porter.halt 127 + bit d.aligned 126 + bit d.joined 125 + bit (st = 5 || st = 6) 124 + bit d.isRoot 123
    + bit (3 ≤ st) 122 + 2 ^ 120 + d.get RING_ID.INDEX * 2 ^ 110 + hops * 2 ^ 97 + d.tcount % 2 ^ 32 * 2 ^ 64
    + unsigned 32 (d.measOf p).report * 2 ^ 32 + (if d.isRoot then 0 else d.get RING_Pp_OFS.OFS (1 - p) % 2 ^ 16) * 2 ^ 16
    + (if d.joined then d.time.crs % 2 ^ 16 else 0)

/-- `LINK_FRAME_SEND` (R415, R430). -/
def Dev.frameOut (d : Dev) : Dev :=
  let d := d.revEnds
  if !d.ringed then d
  else [0, 1].foldl (fun d p =>
    if d.flag RING_Pp_STAT.REV p && (d.measOf p).revEnd.isNone then d
    else
      let f := d.frameBits p
      { d with ring := { d.ring with frame := d.ring.frame.set p f } }.emit (.linkFrame p f)) d

/-- `LINK_FRAME_SEND`. -/
def execLinkFrameSend (s : State) : Host.Outcome State Fault Refusal := .next (s.withDev s.dev.frameOut)

/-- `LANE_CELL_SEND` (R413): the kinds alternate, event-reserved on even lattice positions. -/
def execLaneCellSend (p : Fin 2) (s : State) : Host.Outcome State Fault Refusal :=
  let d := s.dev
  let r : Bool := d.tcount / 10 % 2 = 0
  if d.startsLane p then .next (s.withDev (d.fillCell p r (fun d => d.newIdle p r))) else .next s

/-! ### Election, joining -/

/-- The device's own claim. -/
def Dev.myClaim (d : Dev) : Claim := ⟨d.get RING_ID.INDEX, d.get RING_ID.PRIO, Config.uid % 2 ^ 40, 0⟩

/-- The device wins over every other candidate it knows. -/
def Dev.wins (d : Dev) : Bool :=
  d.get RING_CTRL.ROLE = 2 && (match d.bestCand with | none => true | some c => d.myClaim.wins c)

/-- A new root of a running system (R423, R450). -/
def Dev.newRoot (d : Dev) (i : Nat) : Dev := (d.set RING_ROSTER.ROOT 0 0 i).raise RING_STAT.ROOT_CHG

/-- The election ends (R422, R450): a system forms of unjoined nodes that are linked, where none of the neighbours is of one. A root elected
in a running system stays in holdover, since R450 names no instant that ends its slew (log entry 58, DEDUCED). -/
def Dev.elect (d : Dev) : Dev :=
  if d.ringSt = 1 then
    if !d.wins || d.joinedPort.isSome || !(d.linked 0 || d.linked 1) then d
    else
      let d : Dev := { d with ring := { d.ring with
        roster := [0], adds := [], lmins := [], piece := none, decision := none, recals := [], tbase := -d.time.abs } }
      let d := ((d.set RING_ID.INDEX 0 0 0).set RING_ROSTER.N 0 0 1).set RING_ROSTER.ROOT 0 0 0
      (((d.set EVS_LMIN.LMIN 0 0 2).noUp 0).ringState 4).fwdShow.calNew
  else if d.isMember && d.ring.piece.any (fun x => x.1 && !x.2.2) then
    let d := { d with ring := { d.ring with piece := none } }
    if d.wins then ((d.newRoot (d.get RING_ID.INDEX)).noUp 3).ringState 4
    else match d.bestCand with
      | some c => d.newRoot c.index
      | none => d
  else d

/-- An election that no claim has ended is over 2 ms after the last link change, at the latest link frame before it (R422)
(log entry 58, DEDUCED). -/
def Dev.electDue (d : Dev) : Dev :=
  if d.ringSt = 1 && d.get RING_CTRL.ROLE = 2 && decide (d.ring.linkAt + 499840 ≤ d.time.abs) then d.elect else d

/-- A link frame that a port takes (R406, R416, R417, R425, R429 to R433, R435, R443): from a port of the same name the link does not
come up, or stands no longer. -/
def Dev.frameIn (d : Dev) (p f : Nat) (b : Int) (same : Bool) : Dev :=
  let d := d.revEnds
  if !d.ringed then d
  else
    let d := if same then (d.linkLost p).raise RING_STAT.WIRING else d
    let d := d.onMeas p (fun m => { m with same := same })
    if same || !d.linked p then d
    else
      let d := d.framePeer p f
      let d := if bitAt f 127 && !d.porter.halt && d.porter.haltIgnore ≤ d.time.abs then d.haltRing p false else d
      let d := ((d.frameSync p f).frameTime p f b).frameCheck p f b
      let d := ((d.reselect.phaseStep p).closure p).joinAsk
      (d.electDue.fwdShow).waitShow

/-- `LINK_FRAME_RECEIVE`. -/
def execLinkFrameReceive (p : Fin 2) (f : BitVec 128) (b : BitVec 32) (same : Bool) (s : State) : Host.Outcome State Fault Refusal :=
  .next (s.withDev (s.dev.frameIn p f.toNat b.toInt same))

/-- A continuing piece has no candidate: its lowest-index member is root in holdover (R450). -/
def Dev.noCand (d : Dev) : Dev :=
  match d.ring.piece with
  | some (true, low, false) =>
    let d := ({ d with ring := { d.ring with piece := none } }.newRoot low).raise RING_STAT.NO_CAND
    if d.get RING_ID.INDEX = low then (d.noUp 3).ringState 4 else d
  | _ => d

/-- A join starts (R424, step 3 of R425): the clock comes from the joined neighbour. -/
def Dev.joinStart (d : Dev) : Dev :=
  let role := d.get RING_CTRL.ROLE
  match d.joinedPort with
  | none => d
  | some p =>
    if d.ringSt ≠ 1 || !(role = 1 || role = 2) || d.ring.decision.isSome then d
    else if !d.allStopped then d.raise RING_STAT.WAIT
    else
      let d : Dev := { d with ring := { d.ring with synced := false, asked := false, early := [], earlyEv := [] } }
      ((d.clear RING_STAT.WAIT).follow p).ringState 2

/-- `JOIN_START` (R424). -/
def execJoinStart (s : State) : Host.Outcome State Fault Refusal := .next (s.withDev s.dev.joinStart)

/-- `RING_CMD.JOIN` (R424): the sequencers stop at once, and the join starts. -/
def Dev.joinCmd (d : Dev) : Dev := if d.ringSt = 1 then d.stopAll.joinStart else d.raise RING_STAT.CFG_REJ

/-- `RING_JOIN_CMD`. -/
def execRingJoinCmd (s : State) : Host.Outcome State Fault Refusal := .next (s.withDev s.dev.joinCmd)

/-- The lowest index that is in neither list (R420). -/
def lowestFree (used : List Nat) : Nat := ((List.range 512).find? (fun i => !used.contains i)).getD 512

/-- The values of L_min for n members from joint `at_` on: for the length in force there, and for one that lands later (R140)
(log entry 75, DEDUCED). -/
def Dev.lminPlan (d : Dev) (n at_ : Nat) : List (Nat × Nat) :=
  (lminOf n (d.lenAt at_), at_) :: ((d.time.lenPend.toList.filter (fun x => at_ < x.2.1)).map (fun x => (lminOf n x.1, x.2.1)))

/-- New values of L_min at their joints, published by the root (R140, R437). -/
def Dev.lminTell (d : Dev) (l : List (Nat × Nat)) : Dev :=
  l.foldl (fun d x => d.publish 3 [x.1, x.2]) { d with ring := { d.ring with lmins := d.ring.lmins ++ l } }

/-- `JOIN_REQUEST_RECEIVE` (R426, R427): the root raises L_min for one member more and admits two distances later. -/
def Dev.joinRequest (d : Dev) : Dev :=
  let used := d.ring.roster ++ d.ring.adds.map (·.1)
  if !d.isRoot then d
  else if 512 ≤ used.length then d.publish 13 []
  else
    let k := d.time.crs
    let l := d.lmin
    let i := lowestFree used
    let d := d.lminTell (d.lminPlan (used.length + 1) (k + l))
    { d with ring := { d.ring with adds := d.ring.adds ++ [(i, k + 2 * l)] } }.publish 8 [i, k + 2 * l]

/-- `JOIN_REQUEST_RECEIVE`. -/
def execJoinRequestReceive (s : State) : Host.Outcome State Fault Refusal := .next (s.withDev s.dev.joinRequest)

/-- `RING_STAT.STATE` while no device of the ring takes this one (R427). -/
def Dev.joinRefused (d : Dev) (repeater : Bool) : Dev :=
  if d.ringSt ≠ 2 then d
  else if repeater then ((d.raise RING_STAT.REFUSED).noUp 0).unjoin
  else ((d.raise RING_STAT.REFUSED).ringState 7).fwdShow

/-- The roster shows (R420). -/
def Dev.rosterShow (d : Dev) : Dev := d.set RING_ROSTER.N 0 0 d.ring.roster.length

/-- A member is evicted (R421). -/
def Dev.evictMember (d : Dev) (i : Nat) : Dev :=
  let out := d.ring.recals.any (fun x => x.1 = i)
  let d : Dev := { d with ring := { d.ring with
    roster := d.ring.roster.filter (· ≠ i), cands := d.ring.cands.filter (fun c => c.index ≠ i), recals := d.ring.recals.filter (fun x => x.1 ≠ i) } }
  (if out then d.calNext else d).rosterShow

/-- `EVICT_TIMEOUT` (R421, R428): the root lowers L_min one distance after the eviction. -/
def Dev.evictTimeout (d : Dev) (i : Nat) : Dev :=
  if !d.isRoot || d.get RING_CFG.EVICT = 0 || i = d.get RING_ID.INDEX || !d.ring.roster.contains i then d
  else
    let d := d.evictMember i
    (d.publish 14 [i]).lminTell (d.lminPlan (d.ring.roster.length + d.ring.adds.length) (d.time.crs + d.lmin))

/-- `EVICT_TIMEOUT`. -/
def execEvictTimeout (index : Fin 512) (s : State) : Host.Outcome State Fault Refusal := .next (s.withDev (s.dev.evictTimeout index))

/-- A port of a standalone device is powered down (R418): it reports no link. -/
def Dev.portOff (d : Dev) (p : Nat) : Dev :=
  let d := ((d.clear RING_Pp_STAT.LINK p).clear RING_Pp_STAT.UP p).clear RING_Pp_STAT.FWD p
  let d := ((d.clear RING_Pp_STAT.REV p).set RING_Pp_STAT.HOPS p 0 511).set RING_Pp_STAT.PEER p 0 1023
  { d with ring := { d.ring with cands := [], ctl := [], closed := false } }.onMeas p (fun _ => {})

/-- `RING_CTRL.ROLE` written (R418). -/
def Dev.roleWrite (d : Dev) (role : Nat) : Dev :=
  if 2 ≤ d.ringSt then d.raise RING_STAT.CFG_REJ
  else
    let d := (d.set RING_CTRL.ROLE 0 0 role).raiseIf (role = 3) RING_STAT.CFG_REJ
    if role = 1 || role = 2 then { (d.ringState 1) with ring := { d.ring with linkAt := d.time.abs } }.claimOut
    else (([0, 1].foldl Dev.portOff d).ringState 0).clear RING_STAT.WAIT

/-- `RING_ROLE_WRITE`. -/
def execRingRoleWrite (role : BitVec 2) (s : State) : Host.Outcome State Fault Refusal := .next (s.withDev (s.dev.roleWrite role.toNat))

/-! ### Partition and rejoin -/

/-- The first joint that begins at least k ticks from now. -/
def Dev.jointAfter (d : Dev) (k : Nat) : Nat :=
  let p := d.locate (((d.time.abs + k) * 256 : Nat) : Int)
  if p.2 = 0 then p.1 else p.1 + 1

/-- The counts of the piece are known (R448, R449): its lowest-index member chooses the decision joint. -/
def Dev.counted (d : Dev) (members low : Nat) (root : Bool) : Dev :=
  let n := d.ring.roster.length
  if !d.joined || n ≤ members then d
  else
    let least := d.ring.roster.foldl min 1023
    let go := n < 2 * members || (2 * members = n && low = least)
    let anew := go && !root && d.ring.piece.isNone
    let d : Dev := { d with ring := { d.ring with piece := some (go, low, root), cands := if anew then [] else d.ring.cands } }
    let d := if anew then d.claimOut else d
    if d.get RING_ID.INDEX ≠ low || d.ring.decision.isSome then d
    else
      let j := d.jointAfter 25000
      { d with ring := { d.ring with decision := some j } }.publish 11 [j]

/-- The device becomes islanded at the decision joint (R451). -/
def Dev.island (d : Dev) (low : Nat) : Dev :=
  let head := d.get RING_ID.INDEX = low
  let root := d.isRoot
  let d := ((d.ringState 5).set RING_STAT.ISL_HEAD 0 0 (if head then 1 else 0)).fire 5
  let d := if head then (if root then d else d.noUp 3) else if root then d.follow d.upPort else d
  { d with ring := { d.ring with policyAt := some (d.time.crs + 1) } }.fwdShow

/-- `REJOIN_START` (R452): every member of the piece is ready. A member beside the joining link follows it; the others take their new
upstream from the frames that come then (`Dev.reselect`). -/
def Dev.rejoinStart (d : Dev) : Dev :=
  if d.ringSt ≠ 5 then d
  else if !d.rejoinReady then d.raise RING_STAT.WAIT
  else
    let d : Dev := { d with ring := { d.ring with synced := false, asked := false, early := [], earlyEv := [] } }
    let d := (d.clear RING_STAT.WAIT).clear RING_STAT.ISL_HEAD
    ((match d.joinedPort with | some p => d.follow p | none => d).ringState 6).fwdShow

/-- `REJOIN_START`. -/
def execRejoinStart (s : State) : Host.Outcome State Fault Refusal := .next (s.withDev s.dev.rejoinStart)

/-- `RING_CMD.REJOIN` (R452): the sequencers stop, and the member is ready. -/
def Dev.rejoinCmd (d : Dev) : Dev :=
  if d.ringSt = 5 then { d.stopAll with ring := { d.ring with ready := true } }.waitShow else d.raise RING_STAT.CFG_REJ

/-- `RING_REJOIN_CMD`. -/
def execRingRejoinCmd (s : State) : Host.Outcome State Fault Refusal := .next (s.withDev s.dev.rejoinCmd)

/-! ### What a received cell says -/

/-- The joint at which a published action lands here: the joint named, or the earliest that R32 allows (R37, R437). -/
def Dev.landSys (d : Dev) (land : Nat) : Nat × Dev :=
  if land < d.time.crs + 2 then (d.time.crs + 2, d.raise CRS_STAT.SYS_LATE) else (land, d)

/-- The joint that a published action names (R437). -/
def actLand : RingAction → Option Nat
  | .crsLen _ l => some l.toNat
  | .shift _ l => some l.toNat
  | .lmin _ l => some l.toNat
  | .joins _ l => some l.toNat
  | .haltRel l => some l.toNat
  | _ => none

/-- A published action waits for joint `land`, accepted in course `acc` (R437). -/
def Dev.actPend (d : Dev) (land acc : Nat) : RingAction → Dev
  | .crsLen len _ => { d with time := { d.time with lenPend := some (len.toNat, land, acc) } }.raise CRS_CTRL.LEN_PEND
  | .shift ticks _ => { d with time := { d.time with shifts := d.time.shifts ++ [(land, ticks.toInt, acc)] } }
  | .lmin v _ => { d with ring := { d.ring with lmins := d.ring.lmins ++ [(v.toNat, land)] } }
  | .joins i _ => { d with ring := { d.ring with adds := d.ring.adds ++ [(i.val, land)] } }
  | .haltRel _ => d.relAccept land
  | _ => d

/-- A candidate's claim (R422): kept, and passed on by an unjoined device that had not heard it. -/
def Dev.claimIn (d : Dev) (p : Nat) (c : Claim) : Dev :=
  let known := d.ring.cands.any (fun x => x.uid = c.uid)
  let out := fun (x : Claim) => x.uid = c.uid && (3 ≤ d.ringSt || x.port = p)
  if c.uid = Config.uid % 2 ^ 40 then d
  else
    let d : Dev := { d with ring := { d.ring with cands := d.ring.cands.filter (fun x => !out x) ++ [c] } }
    if d.ringSt = 1 && !known && d.linked (1 - p) then d.claimOn (1 - p) c else d

/-- The loop is known to be closed, or open (R431). -/
def Dev.loopIs (d : Dev) (closed : Bool) : Dev :=
  let d : Dev := { d with ring := { d.ring with closed := closed } }
  if closed then d else d.clear RING_STAT.CROSS

/-- A piece that has run steps 3 to 5 of R425 asks to rejoin: the root publishes the rejoin joint and the first course from which the piece
takes system events (R426, R437, R452, R453). -/
def Dev.rejoinAsked (d : Dev) : Dev :=
  let jr := d.time.crs + 2 * d.lmin
  d.publish 19 [jr, jr + d.lmin]

/-- A CONTROL cell's action (R422, R426, R430, R431, R433, R437 to R439, R448 to R453). Late notices and join requests have commands of their
own. A device that joins or rejoins keeps what is published for its admission. -/
def Dev.control (d : Dev) (p : Nat) (act : RingAction) : Dev :=
  match actLand act with
  | some l =>
    if d.isMember then let x := d.landSys l; x.2.actPend x.1 d.time.crs act
    else if d.ringSt = 2 || d.ringSt = 6 then { d with ring := { d.ring with early := d.ring.early ++ [act] } }
    else d
  | none => match act with
    | .admission rejoin i own land len tc roster root lmin =>
      if (if rejoin then d.ringSt = 6 else d.ringSt = 2) then
        let a : Admission := ⟨max own.toNat (d.time.crs + 1), land.toNat, len.toNat, tc.toNat, i, roster.map (·.val), root,
          lmin.toNat, rejoin⟩
        { d with ring := { d.ring with admission := some a } }
      else d
    | .refuse repeater => d.joinRefused repeater
    | .haltReq => if d.isRoot then d.relRoot else d
    | .claim i prio uid last =>
      let d := d.claimIn p ⟨i.toNat, prio.toNat, uid.toNat, p⟩
      if last then d.elect else d
    | .noCandidate => d.noCand
    | .counts n low root => (d.loopIs false).counted n.toNat low.toNat root
    | .decision land =>
      if d.ringSt < 3 then { d with ring := { d.ring with decision := some land.toNat } }
      else if d.joined && d.ring.piece.isSome then
        { d with ring := { d.ring with decision := some (max land.toNat (d.time.crs + 1)) } }
      else d
    | .evict i => if d.isMember then d.evictMember i else d
    | .calibrate i q => if d.isRoot then d else d.calLink i q
    | .recal i q => if d.isRoot then d.calAsk i q else d
    | .recalDone i q =>
      let d : Dev := { d with ring := { d.ring with baseDue := true } }
      if d.isRoot then d.calDone i q else d
    | .steady => if d.isRoot && d.ring.asym then d.calAll else d
    | .loop closed => d.loopIs closed
    | .place i east west =>
      { d with ring := { d.ring with places := (i.val, east.toNat, west.toNat) :: d.ring.places.filter (fun x => x.1 ≠ i.val) } }
    | .rejoinReq => if d.isRoot then d.rejoinAsked else d
    | .rootIs i =>
      if !d.isMember then d
      else if d.get RING_ID.INDEX = i then ((d.newRoot i).noUp 0).ringState 4 else d.newRoot i
    | .idle b => if d.isRoot then { d with ring := { d.ring with membersIdle := b } } else d
    | _ => d

/-- An action that is published on both lanes and may not act twice (R437). -/
def published : RingAction → Bool
  | .recal _ _ => true
  | .recalDone _ _ => true
  | .steady => true
  | .rejoinReq => true
  | act => (actLand act).isSome

/-- A published action acts once on a closed loop, where its cells come over both lanes (R412, R437) (log entry 74, DEDUCED). -/
def Dev.controlOnce (d : Dev) (p : Nat) (act : RingAction) : Dev :=
  if !published act then d.control p act
  else match d.ring.heard.find? (fun x => x.1 ≠ p && x.2.2 = act) with
    | some x => { d with ring := { d.ring with heard := d.ring.heard.erase x } }
    | none => { d with ring := { d.ring with heard := d.ring.heard ++ [(p, d.time.crs, act)] } }.control p act

/-- `CELL_RECEIVE` (R409, R411, R412): the cell is checked, read and passed on. A message's cells are read by
`RING_MSG_RECEIVE`. -/
def Dev.cellIn (d : Dev) (p : Nat) (cls : CellClass) (payload : Nat) (good : Bool) (act : RingAction) : Dev :=
  if !d.ringed || !d.linked p then d
  else
    let d := if good then d else d.count RING_Pp_ERR.CRC p
    let own := match cls with
      | .event _ => d.joined && payload / 2 ^ 46 = d.get RING_ID.INDEX
      | .control o => o
      | .message o => o
      | .idle _ => false
    let d := if good && own then
        (let e : Dev := { d with ring := { d.ring with closed := true } }; if d.isRoot && !d.ring.closed then e.publish 20 [1] else e)
      else d
    let d := if !good then d else match cls with
      | .event _ => d.sysReceive (bitsOf payload 46 10) (bitsOf payload 38 8) (bitsOf payload 26 12) (expandLand d.time.crs (bitsOf payload 10 16))
      | .control _ => if own then d else d.controlOnce p act
      | _ => d
    d.passCell p cls payload good

/-- `CELL_RECEIVE`. -/
def execCellReceive (p : Fin 2) (cls : CellClass) (payload : BitVec 56) (good : Bool) (cv : Nat) (act : RingAction) (s : State) :
    Host.Outcome State Fault Refusal :=
  .next (s.withDev ((s.dev.violations p cv).cellIn p cls payload.toNat good act))

/-- `HALT_SYMBOL_RECEIVE` (R443). -/
def execHaltSymbolReceive (p : Fin 2) (s : State) : Host.Outcome State Fault Refusal :=
  if s.dev.ringed then .next (s.withDev (s.dev.haltRing p true)) else .next s

/-! ### At a joint -/

/-- A course number after the counter has been replaced: `land` in place of `old`. -/
def moveCrs (old land c : Nat) : Nat := c + land - old

/-- What waits for joints of the replaced counter waits for the joints as many courses on (log entry 58, DEDUCED). -/
def Dev.renumber (d : Dev) (old land : Nat) : Dev :=
  let f := moveCrs old land
  let act := fun (a : Act) => { a with land := f a.land, acc := f a.acc }
  let jump := fun (j : FastJump) => { j with crs := f j.crs, act := act j.act }
  let entry := fun (e : Entry) => { e with crs := f e.crs, frags := e.frags.map (fun g => { g with laid := f g.laid }), binds := e.binds.map f, acts := e.acts.map act, cuts := e.cuts.map jump }
  let d : Dev := d.eachCh (fun n d => d.onCh n (fun c => { c with
    laid := c.laid.map entry, cur := c.cur.map entry, acts := c.acts.map act, jump := c.jump.map jump, badLay := c.badLay.map f }))
  { d with
    ev := { d.ev with
      waits := d.ev.waits.map (fun w => { w with land := f w.land, at_ := (f w.at_.1, w.at_.2) })
      due := d.ev.due.map (fun x => { x with land := f x.land })
      sysDue := d.ev.sysDue.map (fun x => (x.1, f x.2)) }
    cmds := d.cmds.map (fun c => if c.opcode = 0x70 then c else { c with land := f c.land })
    groups := d.groups.map (fun g => { g with land := f g.land, acc := f g.acc })
    porter := { d.porter with relAt := d.porter.relAt.map f }
    mason := { d.mason with
      copies := d.mason.copies.map (fun c => { c with since := f c.since, till := c.till.map f, last := f c.last })
      resident := d.mason.resident.map (fun r => { r with since := r.since.map f, till := r.till.map f }) } }

/-- What a joining device has heard of actions that land by its joint is in what it takes there (R426, R437). -/
def Admission.amend (a : Admission) (act : RingAction) : Admission :=
  if (actLand act).any (fun l => a.land < l) then a
  else match act with
    | .crsLen v _ => { a with len := v.toNat }
    | .lmin v _ => { a with lmin := v.toNat }
    | .joins i _ => { a with roster := if a.roster.contains i.val then a.roster else a.roster ++ [i.val] }
    | _ => a

/-- A system event that came while the device was joining is delivered where it lands at the device's joint or after it (R426). -/
def Dev.earlyTake (d : Dev) (x : Nat × Nat × Nat × Nat) : Dev :=
  let land := expandLand d.time.crs x.2.2.2
  let e : Seen := ⟨x.1, x.2.1, x.2.2.1, land⟩
  if land < d.ring.takeFrom || d.ev.seen.contains e then d
  else { d with ev := { d.ev with seen := d.ev.seen ++ [e] } }.sysTake x.2.2.1 land d.time.crs

/-- What came while the device was joining and lands after its joint waits (R426, R437). -/
def Dev.earlyActs (d : Dev) : Dev :=
  let acts := d.ring.early
  let evs := d.ring.earlyEv
  let c := d.time.crs
  let d : Dev := { d with ring := { d.ring with early := [], earlyEv := [], synced := false, asked := false } }
  let d := acts.foldl (fun d x => match actLand x with
    | some l => if c < l then d.actPend l (c - 1) x else d
    | none => d) d
  evs.foldl Dev.earlyTake d

/-- The joint that begins is the device's admission or rejoin (R22, R426, R453): the system's counter, length and ring tick
count, the index and the roster are taken, and what the queues hold is numbered anew. -/
def Dev.admitJoint (d : Dev) : Dev :=
  match d.ring.admission with
  | none => d
  | some a =>
    if a.at_ ≠ d.time.crs then d
    else
      let a := d.ring.early.foldl Admission.amend a
      let d := d.renumber a.at_ a.land
      let d := { d with
        time := { d.time with
                              crs := a.land, lenPend := none, shifts := [], winUsed := none,
                              grid := (a.land, d.time.abs, a.len) :: d.time.grid }
        ring := { d.ring with
          admission := none, roster := a.roster, adds := [], lmins := [], ready := false, piece := none, decision := none, policyAt := none
          tbase := (a.tcount : Int) - d.time.abs, heard := [], takeFrom := if a.rejoin then a.land + a.lmin else a.land } }
      let d := ((d.set CRS_LEN.LEN 0 0 a.len).clear CRS_CTRL.LEN_PEND).raise CRS_STAT.GAP
      let d := (((d.set RING_ID.INDEX 0 0 a.index).set RING_ROSTER.ROOT 0 0 a.root).set EVS_LMIN.LMIN 0 0 a.lmin).rosterShow
      let d := d.setPair RING_JOIN_LO.JOIN_LO RING_JOIN_HI.JOIN_HI 0 0 a.land
      let d := if a.rejoin then
          ((d.setPair RING_ACCEPT_LO.ACC_LO RING_ACCEPT_HI.ACC_HI 0 0 (a.land + a.lmin)).clear RING_STAT.ISL_HEAD).fire 5
        else d
      let d := ((d.ringState 3).fwdShow.earlyActs.claimOut).calNew
      match d.cmds.find? (fun c => c.opcode = 0x70) with
      | some c => d.finish c.m c.slot 0 []
      | none => d

/-- What lands of the ring at a joint (R426, R428, R449, R451). -/
def Dev.ringJoint (d : Dev) : Dev :=
  let c := d.time.crs
  let d : Dev := d.revEnds
  let d : Dev := (d.ring.lmins.filter (fun x => x.2 ≤ c)).foldl (fun d x => d.set EVS_LMIN.LMIN 0 0 x.1) d
  let now := ((d.ring.adds.filter (fun x => x.2 ≤ c)).map (·.1)).eraseDups
  let d : Dev := { d with ring := { d.ring with
    lmins := d.ring.lmins.filter (fun x => c < x.2)
    heard := d.ring.heard.filter (fun x => c ≤ x.2.1 + 256)
    adds := d.ring.adds.filter (fun x => c < x.2)
    roster := d.ring.roster ++ now.filter (fun i => !d.ring.roster.contains i) } }
  let d : Dev := if now.isEmpty then d else d.rosterShow
  let d : Dev := if d.joined && d.ring.decision = some c then
      let d : Dev := ({ d with ring := { d.ring with decision := none } }.raise RING_STAT.SPLIT).count RING_CNT.PARTS
      match d.ring.piece with
      | some (false, low, _) => { d with ring := { d.ring with piece := none } }.island low
      | some (true, _, true) => { d with ring := { d.ring with piece := none } }
      | _ => d
    else d
  if d.ring.policyAt = some c then
    let d : Dev := { d with ring := { d.ring with policyAt := none } }
    if d.ringSt = 5 && d.flag RING_CTRL.ISL_POL then d.stopAll else d
  else d

/-! ### Small messages (R439, R440) -/

/-- The parts of a message of five bytes to a cell: 13 cells for 64 bytes (R441). -/
def msgParts : Nat → List (BitVec 8) → List (List (BitVec 8))
  | 0, _ => []
  | k + 1, b => if b.isEmpty then [] else b.take 5 :: msgParts k (b.drop 5)

/-- Hops to a member on the lane that leaves a port, 511 where the lane does not reach it (R439): its neighbour is one away, of the others
it is what the ring has told of their places; `none` where it has told nothing. -/
def Dev.hopsOn (d : Dev) (dest p : Nat) : Option Nat :=
  if !d.linked p then some 511
  else if d.get RING_Pp_STAT.PEER p = dest then some 1
  else (d.ring.places.find? (fun x => x.1 = dest)).map (fun x => if p = 0 then x.2.1 else x.2.2)

/-- The lane of a unicast message (R439): that with fewer hops to its destination, a lost link on a lane making it the other; at equal hops,
or where the device does not know them, a free bit says which (log entry 49). -/
def Dev.msgLane (d : Dev) (dest : Nat) : Nat × Dev :=
  let open_ := let x := d.freeBit; ((if x.1 then 1 else 0), x.2)
  match d.hopsOn dest 0, d.hopsOn dest 1 with
  | some e, some w => if e < w then (0, d) else if w < e then (1, d) else open_
  | _, _ => open_

/-- A message is sent to a member or to all (R439); one to all goes out on both lanes of an open line. -/
def Dev.msgSend (d : Dev) (dest : Nat) (bytes : List (BitVec 8)) : Dev :=
  let up := [0, 1].filter (fun p => d.linked p)
  let x := if up.length = 2 && (dest ≠ 1023 || d.ring.closed) then d.msgLane dest else (0, d)
  let d := x.2
  let ports := if up.length < 2 || (dest = 1023 && !d.ring.closed) then up else [x.1]
  let msg := (msgParts 13 bytes).map (fun b => (⟨d.get RING_ID.INDEX, d.ring.txSeq, b⟩ : RingMsg))
  let tx := ports.flatMap (fun p => msg.map (fun m => (p, dest, m)))
  let d : Dev := { d with ring := { d.ring with tx := d.ring.tx ++ tx, txSeq := (d.ring.txSeq + 1) % 256 } }
  if tx.isEmpty then d else d.raise RING_MTX_CTRL.BUSY

/-- `RING_MTX_CTRL` written with `GO` = 1 (R439); where the `GO` is refused, `LEN` and `DEST` of that write are not stored (log entry 90,
DESIGN CHOICE). -/
def Dev.msgGo (d : Dev) (w : Nat) : Dev :=
  if d.flag RING_MTX_CTRL.BUSY || !d.joined then d.raise RING_STAT.CFG_REJ
  else
    let d := (d.set RING_MTX_CTRL.LEN 0 0 (bitsOf w 16 6)).set RING_MTX_CTRL.DEST 0 0 (bitsOf w 0 10)
    d.msgSend (bitsOf w 0 10) (payloadOf ((List.range 16).map (fun i => d.get RING_MTX_Dw.DATA i)) (bitsOf w 16 6 + 1))

/-- `RING_MSG_GO`. -/
def execRingMsgGo (w : BitVec 32) (s : State) : Host.Outcome State Fault Refusal := .next (s.withDev (s.dev.msgGo w.toNat))

/-- The oldest message shows (R440, R454). -/
def Dev.mrxShow (d : Dev) : Dev :=
  let d := d.set RING_MRX_STAT.COUNT 0 0 d.ring.queue.length
  match d.ring.queue with
  | [] => d
  | m :: _ =>
    let d := ((d.set RING_MRX_HDR.SEQ 0 0 m.seq).set RING_MRX_HDR.LEN 0 0 (m.payload.length - 1)).set RING_MRX_HDR.SRC 0 0 m.src
    (List.range 16).foldl (fun d i => d.set RING_MRX_Dw.DATA i 0 (leNat ((m.payload.drop (4 * i)).take 4))) d

/-- Gaps in a source's sequence (R440), and the message that B0 counts at each wrap (R624). -/
def Dev.msgGap (d : Dev) (src seq : Nat) : Dev :=
  let lost := match d.ring.seqs.lookup src with
    | none => 0
    | some last => (seq + 511 - last) % 256 + (if seq ≤ last then 1 else 0)
  let d : Dev := { d with ring := { d.ring with seqs := (src, seq) :: d.ring.seqs.filter (fun x => x.1 ≠ src) } }
  if lost = 0 then d else (d.countBy lost RING_MRX_STAT.LOST).raise RING_STAT.MSG_LOST

/-- `RING_MSG_RECEIVE` (R440). -/
def Dev.msgReceive (d : Dev) (src seq : Nat) (bytes : List (BitVec 8)) (whole : Bool) : Dev :=
  if d.ringSt < 3 || d.ringSt = 7 then d
  else
    let d := d.msgGap src seq
    if !whole || 16 ≤ d.ring.queue.length then d.count RING_MRX_STAT.LOST
    else
      let m : RingMsg := ⟨src, seq, bytes.take 64⟩
      { d with ring := { d.ring with queue := d.ring.queue ++ [m] } }.mrxShow

/-- `RING_MSG_RECEIVE`. -/
def execRingMsgReceive (src : Fin 512) (seq : BitVec 8) (bytes : List (BitVec 8)) (whole : Bool) (s : State) :
    Host.Outcome State Fault Refusal :=
  .next (s.withDev (s.dev.msgReceive src seq.toNat bytes whole))

/-- `RING_MRX_POP` (R440). -/
def execRingMrxPop (s : State) : Host.Outcome State Fault Refusal :=
  let d := s.dev
  .next (s.withDev { d with ring := { d.ring with queue := d.ring.queue.drop 1 } }.mrxShow)

end Sys2Proof.Machine
end

