-- ==== Sys2Proof/Machine/Porter.lean ====
section
/-!
DEFINITION. Commands of the Porter and the Stockroom (chapter 16), of the urgent doorbell (R506) and of the temperature
sensors (R551, R553). While POR_N holds the device the Porter acts on nothing (R557): the balls are only remembered.
-/
namespace Sys2Proof.Machine
open Reg

/-- The block changed, unless POR_N holds the device. -/
def State.whileUp (s : State) (f : Dev → Dev) : Host.Outcome State Fault Refusal :=
  if s.dev.boot.up then .next (s.withDev (f s.dev)) else .next s

/-! ### Quiet -/

/-- A channel becomes quiet by a Porter cause (R559, R281): its sequencer stops, its slot aborts. -/
def Dev.quietNow (d : Dev) (n : Fin 8) : Dev := (d.stopNow n).forceCh n

/-- Urgent QUIET on the channels of a mask (R506). -/
def Dev.urgentQuiet (d : Dev) (mask : Nat) : Dev :=
  d.eachCh (fun n d => if bitAt mask n then (d.setBit PORTER_STATUS.QUIET 0 0 n).quietNow n else d)

/-- QUIET released on the channels of a mask (R506, R560). -/
def Dev.urgentRelease (d : Dev) (mask : Nat) : Dev :=
  d.eachCh (fun n d => if bitAt mask n then d.clrBit PORTER_STATUS.QUIET 0 0 n else d)

/-- Urgent or watchdog HV_OFF (R506, R571). -/
def Dev.hvOff (d : Dev) : Dev := { d with porter := { d.porter with hvOff := true } }.removeHv d

/-- `URGENT_QUIET` (R506). -/
def execUrgentQuiet (mask : BitVec 8) (s : State) : Host.Outcome State Fault Refusal := s.whileUp (fun d => d.urgentQuiet mask.toNat)

/-- `URGENT_RELEASE` (R506). -/
def execUrgentRelease (mask : BitVec 8) (s : State) : Host.Outcome State Fault Refusal := s.whileUp (fun d => d.urgentRelease mask.toNat)

/-- `URGENT_HALT` (R506, R561). -/
def execUrgentHalt (s : State) : Host.Outcome State Fault Refusal := s.whileUp (fun d => d.assertHalt 3)

/-- `URGENT_HV_OFF` (R506). -/
def execUrgentHvOff (s : State) : Host.Outcome State Fault Refusal := s.whileUp Dev.hvOff

/-- `CLR_N_ASSERT` (R183, R559). -/
def execClrNAssert (s : State) : Host.Outcome State Fault Refusal :=
  let d := { s.dev with porter := { s.dev.porter with clr := true } }
  .next (s.withDev (if d.boot.up then d.eachCh (fun n d => d.quietNow n) else d))

/-- `CLR_N_RELEASE` (R560). -/
def execClrNRelease (s : State) : Host.Outcome State Fault Refusal :=
  .next (s.withDev { s.dev with porter := { s.dev.porter with clr := false } })

/-! ### HALT (R556, R561 to R564) -/

/-- The device drives HALT_N low (R556). -/
def Dev.driving (d : Dev) : Bool := d.porter.halt && d.flag PORTER_CTRL.HALT_DRV

/-- `HALT_N_LOW` (R556). -/
def execHaltNLow (s : State) : Host.Outcome State Fault Refusal :=
  let d := { s.dev with porter := { s.dev.porter with haltIn := true } }
  .next (s.withDev (if d.boot.up && !d.driving then d.assertHalt 0 else d))

/-- `HALT_N_RESAMPLE` (R556): the ball is sampled 200 ns after the device stopped driving it; still low, it asserts HALT
again. After a release the release has failed on it (R563, the example of R564). -/
def Dev.haltResample (d : Dev) (low : Bool) : Dev :=
  if d.driving then d
  else
    let after := d.porter.driveEnd
    let d := { d with porter := { d.porter with haltIn := low, driveEnd := false } }
    if low then (d.raiseIf after PORTER_HALT.REL_FAIL).assertHalt 0 else d

/-- `HALT_N_RESAMPLE`. -/
def execHaltNResample (low : Bool) (s : State) : Host.Outcome State Fault Refusal := s.whileUp (fun d => d.haltResample low)

/-- `PORTER_HALT.REL` written with its key (R562, R564). -/
def Dev.haltRel (d : Dev) : Dev :=
  if !d.porter.halt || d.flag PORTER_HALT.REL_PEND then d
  else if d.isMember then (d.publish 5 []).raise PORTER_HALT.REL_PEND
  else if d.isRoot then d.relRoot
  else d.relAccept (d.time.crs + 2)

/-- `PORTER_HALT_REL`. -/
def execPorterHaltRel (s : State) : Host.Outcome State Fault Refusal := s.whileUp Dev.haltRel

/-- The sources of HALT that persist (R561). -/
def Dev.haltHeld (d : Dev) : List Bool :=
  [d.porter.haltIn && !d.driving, false, false, false, d.porter.tsdLog, d.porter.hwdHalt]

/-- The release of HALT at its joint (R563). -/
def Dev.haltJoint (d : Dev) : Dev :=
  if d.porter.relAt ≠ some d.time.crs then d
  else
    let d := { d with porter := { d.porter with relAt := none } }.clear PORTER_HALT.REL_PEND
    if !d.porter.halt then d
    else
      let held := d.haltHeld
      let src := (List.range 6).foldl (fun v b => if held.getD b false then v else clrBitAt v b) (d.get PORTER_HALT.SRC)
      let drove := d.driving
      let d := d.set PORTER_HALT.SRC 0 0 src
      if src ≠ 0 then (d.raise PORTER_HALT.REL_FAIL).haltOut
      else { d with porter := { d.porter with halt := false, driveEnd := drove, haltIgnore := d.time.abs + 320 } }

/-! ### Faults (R565, R566) -/

/-- Whether the condition of a cause of R565 persists. -/
def Dev.faultHolds (d : Dev) (b : Nat) : Bool :=
  match b with
  | 0 => d.porter.faultLive.getD 0 false
  | 1 => d.porter.railIn.any (fun x => !x)
  | 2 => allCh.any (fun n => d.flag HV_STAT.SC_LATCH n)
  | 3 => allCh.any (fun n => d.chs[n].hv.trip ≠ 0 || d.chs[n].hv.totTrip ≠ 0)
  | 4 => d.porter.laneBad.any id || allCh.any (fun n => d.chs[n].hv.linkBad)
  | 5 => d.porter.tsdLog || d.porter.tsdHv.any id
  | 6 => allCh.any (fun n => d.get DMC_STAT.TBAND n = 3)
  | 8 => d.porter.clerkFail
  | 11 => d.get PWR_BOOT.FAIL ≠ 0
  | _ => false

/-- The channels of a die come back from a failed lane: 1 ms clean, and `LANE` cleared (R566). -/
def Dev.laneBack (d : Dev) (die : Nat) : Dev :=
  if d.porter.laneBad.getD die false || d.bit PORTER_FAULT.CAUSE 0 0 4 || !(chsOf die).any (fun n => d.chs[n].hv.laneDown) then d
  else
    let d := { d with porter := { d.porter with hvReady := false } }
    (chsOf die).foldl (fun d n => d.onCh n (fun c => { c with hv := { c.hv with laneDown := false } })) d

/-- `PORTER_FAULT_CLEAR` (R565): a bit whose condition persists is set again at once. -/
def Dev.faultClear (d : Dev) (w : Nat) : Dev :=
  let d := (List.range 14).foldl (fun d b =>
    if bitAt w b && d.bit PORTER_FAULT.CAUSE 0 0 b then
      let d := d.clrBit PORTER_FAULT.CAUSE 0 0 b
      if d.faultHolds b then d.fault b else d
    else d) d
  (d.laneBack 0).laneBack 1

/-- `PORTER_FAULT_CLEAR`. -/
def execPorterFaultClear (w : BitVec 14) (s : State) : Host.Outcome State Fault Refusal := s.whileUp (fun d => d.faultClear w.toNat)

/-- `PORTER_CLR_HV_OFF` (R560): the 1 ms before the channels enable begins. -/
def execPorterClrHvOff (s : State) : Host.Outcome State Fault Refusal :=
  s.whileUp (fun d => if d.porter.hvOff then { d with porter := { d.porter with hvOff := false, hvReady := false } } else d)

/-- `PORTER_LANE_FAIL` (R566). -/
def Dev.laneFail (d : Dev) (die : Fin 2) : Dev :=
  let d := if die = 0 then d.count PORTER_LANE.DIE0 else d.count PORTER_LANE.DIE1
  let d := { d with porter := { d.porter with laneBad := d.porter.laneBad.set die true } }
  let d := (chsOf die).foldl (fun d (n : Fin 8) => (d.onCh n (fun c => { c with hv := { c.hv with laneDown := true } })).rampDown n (d.hvRemoved n)) d
  d.fault 4

/-- `PORTER_LANE_FAIL`. -/
def execPorterLaneFail (die : Fin 2) (s : State) : Host.Outcome State Fault Refusal := s.whileUp (fun d => d.laneFail die)

/-- `PORTER_LANE_CLEAN` (R566). -/
def execPorterLaneClean (die : Fin 2) (s : State) : Host.Outcome State Fault Refusal :=
  s.whileUp (fun d => { d with porter := { d.porter with laneBad := d.porter.laneBad.set die false } }.laneBack die)

/-! ### Temperature (R551, R553, R567) -/

/-- A stage of thermal shutdown: the cause is latched, and the FAULT producer fires at each stage (R567). -/
def Dev.tsdStage (d : Dev) : Dev := if d.bit PORTER_FAULT.CAUSE 0 0 5 then d.fire 7 else d.fault 5

/-- The first stage on the logic die (R567). -/
def Dev.tsdLogic (d : Dev) : Dev :=
  if d.porter.tsdLog then d
  else
    let was := d
    let d := { d with porter := { d.porter with tsdLog := true } }
    let d := (d.eachCh (fun n d => d.stopNow n)).removeHv was
    let d := if d.flag PORTER_CTRL.THERM_HALT then d.assertHalt 4 else d
    d.tsdStage

/-- The first stage on an HV die (R567): its channels go, the sequencers run on. -/
def Dev.tsdDie (d : Dev) (die : Nat) : Dev :=
  if d.porter.tsdHv.getD die false then d
  else
    let d := { d with porter := { d.porter with tsdHv := d.porter.tsdHv.set die true } }
    let d := (chsOf die).foldl (fun d (n : Fin 8) => (d.onCh n (fun c => { c with hv := { c.hv with tempDown := true } })).rampDown n (d.hvRemoved n)) d
    d.tsdStage

/-- A warning threshold in °C passed, or left by 5 °C (R553). -/
def Dev.thermWarn (d : Dev) (k : Nat) (lim : Nat) (t : Int) : Dev :=
  let was := d.porter.warned.getD k false
  let mark := fun (d : Dev) (b : Bool) => { d with porter := { d.porter with warned := d.porter.warned.set k b } }
  if !was && (lim : Int) * 16 < t then ((mark d true).raise PWR_STAT.THERM_WARN).fire 9
  else if was && t ≤ (lim : Int) * 16 - 80 then mark d false
  else d

/-- A slot of channel n notes a drift of more than 2 °C (chapter 08, `TEMP_DRIFT`). -/
def Dev.slotDrift (d : Dev) (n : Fin 8) : Dev :=
  match d.chs[n].slot with
  | none => d
  | some s =>
    if 32 < (d.getS PLB_TEMP.T_LOG n - s.tLog0).natAbs || 32 < (d.getS PLB_TEMP.T_HV n - s.tHv0).natAbs then
      d.onCh n (fun c => { c with slot := some { s with drift := true } })
    else d

/-- The reading of a sensor (R551), with the greatest since cleared and in life (R583). -/
def Dev.tempShow (d : Dev) (hv : Bool) (s : Nat) (t : Int) : Dev :=
  let tf := if hv then PWR_THVs.TEMP else PWR_TLOGs.TEMP
  let mf := if hv then PWR_THVs.MAX else PWR_TLOGs.MAX
  let lf := if hv then STK_TMAX.HV else STK_TMAX.LOG
  let d := d.set tf s 0 (unsigned 16 t)
  let d := d.set mf s 0 (unsigned 16 (max (d.getS mf s) t))
  let d := d.set lf 0 0 (max (d.get lf) (min (t / 16).toNat 255))
  if s < 8 then (if hv then d.set PLB_TEMP.T_HV s 0 (unsigned 16 t) else d.set PLB_TEMP.T_LOG s 0 (unsigned 16 t)) else d

/-- The part's variant shows in every state (R3, R574). -/
def Dev.variantShow (d : Dev) : Dev := if d.flash.half then d.set DEV_ID.VARIANT 0 0 0x20 else d

/-- The records that survive every reset but a loss of VAON, and what POR_N leaves of the block (R524, R536, R579, R611)
(log entries 87 and 109, DEDUCED). -/
def Dev.porReset (d : Dev) (cause : Nat) : Dev :=
  let keep := fun (e : Dev) (n : Fin 8) =>
    let e := (e.set HV_SEG.ACTIVE n 0 (d.get HV_SEG.ACTIVE n)).set HV_SEG.RETIRED n 0 (d.get HV_SEG.RETIRED n)
    ((e.set STK_CHn_WEAR3.SEG_PERM n 0 (d.get STK_CHn_WEAR3.SEG_PERM n)).onCh n (fun c => { c with
      hv := { c.hv with segRet := d.chs[n].hv.segRet } })).segShow n
  let new : Dev := {
    flash := d.flash, out := d.out, fresh := d.fresh, reply := d.reply
    port := { perst := d.port.perst }
    boot := { vaon := d.boot.vaon, por := d.boot.por, rail := d.boot.rail, straps := d.boot.straps }
    porter := { clr := d.porter.clr, haltIn := d.porter.haltIn, hvEn := d.porter.hvEn, thermHold := d.porter.thermHold } }
  let new := (new.variantShow.set PORTER_LAST.CAUSE 0 0 cause).set PWR_STAT.RAIL_LOW 0 0 (d.get PWR_STAT.RAIL_LOW)
  let new := new.set PWR_RAIL.GOOD 0 0 (d.get PWR_RAIL.GOOD % 1024)
  allCh.foldl keep new

/-- A sensor passes its second threshold: the device is held as under POR_N (R567). -/
def Dev.thermHold (d : Dev) : Dev := ({ d with porter := { d.porter with thermHold := true } }.tsdStage).porReset 3

/-- A sensor's reading acts (R553, R567): sensors 0 to 8 of the logic die, 0 to 7 of the HV dies. The second component says
that the device is now held in reset. -/
def Dev.tempSample (d : Dev) (hv : Bool) (s : Nat) (t : Int) : Dev × Bool :=
  if hv && 8 ≤ s then (d, false)
  else
    let d := d.tempShow hv s t
    let d := d.thermWarn (if hv then 9 + s else s) (if hv then d.get PWR_TWARN.HV else d.get PWR_TWARN.LOG) t
    let d := if s < 8 then d.slotDrift (Fin.ofNat 8 s) else d
    let d := if !hv && s < 8 then d.delayBand (Fin.ofNat 8 s) t else d
    if hv then
      let d := if 2240 < t then d.tsdDie (dieOf s) else d
      if 2400 < t then (d.thermHold, true) else (d, false)
    else
      let d := if 1840 < t then d.tsdLogic else d
      if 2000 < t then (d.thermHold, true) else (d, false)

/-- `TEMP_SAMPLE` (R551). -/
def execTempSample (hv : Bool) (s : Fin 9) (t : BitVec 16) (st : State) : Host.Outcome State Fault Refusal :=
  if !st.dev.boot.up then .next st
  else
    let p := st.dev.tempSample hv s t.toInt
    .next { st with dev := p.1, mem := if p.2 then [] else st.mem }

/-- `PORTER_CLR.TSD` (R567): each kind whose sensors are all below its release level is released. -/
def Dev.tsdClear (d : Dev) : Dev :=
  let logOk := (List.range 9).all (fun s => d.getS PWR_TLOGs.TEMP s < 1520)
  let hvOk := (List.range 8).all (fun s => d.getS PWR_THVs.TEMP s < 1920)
  let d := if d.porter.tsdLog && logOk then { d with porter := { d.porter with tsdLog := false, hvReady := false } } else d
  if d.porter.tsdHv.any id && hvOk then
    { d with porter := { d.porter with tsdHv := [false, false], hvReady := false } }.eachCh (fun n d =>
      d.onCh n (fun c => { c with hv := { c.hv with tempDown := false } }))
  else d

/-- `PORTER_CLR_TSD`. -/
def execPorterClrTsd (s : State) : Host.Outcome State Fault Refusal := s.whileUp Dev.tsdClear

/-! ### Watchdogs (R569 to R571) -/

/-- `WDT_KICK` (R569): writes from PCIe and I2C are ignored. -/
def execWdtKick (r : Requester) (s : State) : Host.Outcome State Fault Refusal :=
  s.whileUp (fun d => if r = .clerk && d.porter.wdtArmed then { d with porter := { d.porter with wdtLeft := d.get PORTER_WDT.TMO } } else d)

/-- `WDT_EXPIRY` (R569, R570), `ms` milliseconds after POR_N rose: the third within 10 s holds the Clerk in reset. -/
def Dev.wdtExpiry (d : Dev) (ms : Nat) : Dev :=
  if !d.porter.wdtArmed then d
  else
    let d := (d.fault 7).count PORTER_WDT.RESETS
    let runs := d.porter.wdtRuns.filter (fun t => ms ≤ t + 10000) ++ [ms]
    let d := { d with porter := { d.porter with wdtRuns := runs, wdtArmed := false, wdtLeft := 0 } }
    if runs.length < 3 then d.clerkReset 1
    else
      let d := (d.clerkReset 1).set MBX_CLERK.STATE 0 0 3
      { d with porter := { d.porter with clerkFail := true }, boot := { d.boot with again := none } }.fault 8

/-- `WDT_EXPIRY`. -/
def execWdtExpiry (ms : Nat) (s : State) : Host.Outcome State Fault Refusal := s.whileUp (fun d => d.wdtExpiry ms)

/-- `URGENT_CLERK_RESET` (R506, R570): a watchdog reset that restarts the Clerk and clears the count. -/
def Dev.urgentReset (d : Dev) : Dev :=
  if d.get PWR_STRAP.BOOT = 3 then d
  else
    let d := (d.fault 7).count PORTER_WDT.RESETS
    { d with porter := { d.porter with wdtRuns := [], wdtArmed := false, wdtLeft := 0, clerkFail := false } }.clerkReset 1

/-- `URGENT_CLERK_RESET`. -/
def execUrgentClerkReset (s : State) : Host.Outcome State Fault Refusal := s.whileUp Dev.urgentReset

/-- `PORTER_HWD` written (R571). -/
def Dev.hwdWrite (d : Dev) (w : Nat) : Dev :=
  if bitsOf w 0 16 = 0 then d
  else
    let d := ((d.set PORTER_HWD.EN 0 0 (bitsOf w 31 1)).set PORTER_HWD.ACT 0 0 (bitsOf w 24 3)).set PORTER_HWD.TMO 0 0 (bitsOf w 0 16)
    { d with porter := { d.porter with hwdRun := bitAt w 31, hwdLeft := if bitAt w 31 then bitsOf w 0 16 else 0 } }

/-- `HWD_WRITE` (R571). -/
def execHwdWrite (w : BitVec 32) (s : State) : Host.Outcome State Fault Refusal := s.whileUp (fun d => d.hwdWrite w.toNat)

/-- `PORTER_HWD_KICK` written with its key (R561, R571). -/
def Dev.hwdKick (d : Dev) : Dev :=
  let on := d.flag PORTER_HWD.EN
  { d with porter := { d.porter with hwdHalt := false, hwdRun := on, hwdLeft := if on then d.get PORTER_HWD.TMO else 0 } }

/-- `HWD_KICK`. -/
def execHwdKick (s : State) : Host.Outcome State Fault Refusal := s.whileUp Dev.hwdKick

/-- `HWD_EXPIRY` (R571): once, until restarted; not in SLEEP. -/
def Dev.hwdExpiry (d : Dev) : Dev :=
  if !d.porter.hwdRun || d.asleep then d
  else
    let act := d.get PORTER_HWD.ACT
    let d := { d with porter := { d.porter with hwdRun := false, hwdLeft := 0, hwdHalt := d.porter.hwdHalt || decide (act = 3) } }.fault 13
    if act = 1 then d.urgentQuiet 255 else if act = 3 then d.assertHalt 5 else if act = 4 then d.hvOff else d

/-- `HWD_EXPIRY`. -/
def execHwdExpiry (s : State) : Host.Outcome State Fault Refusal := s.whileUp Dev.hwdExpiry

/-- `I2C_BUS_TIMEOUT` (R573). -/
def execI2cBusTimeout (s : State) : Host.Outcome State Fault Refusal := s.whileUp (fun d => d.count I2C_STAT.TMO)

/-- `CLERK_BEAT` (R521): the running firmware's beat, with which it takes its event interrupt (R122, log entry 15). -/
def execClerkBeat (s : State) : Host.Outcome State Fault Refusal :=
  s.whileUp (fun d => if d.get MBX_CLERK.STATE = 1 then { d.countWrap MBX_CLERK.BEAT with ev := { d.ev with clerkIrq := false } } else d)

/-! ### Wear records, tests and scrub periods (R579 to R585) -/

/-- The wear records as they stand (R583). -/
def Dev.wearNow (d : Dev) (gen : Nat) : WearCopy :=
  let ch := fun (n : Fin 8) =>
    [d.get STK_CHn_WEAR0.HV_HOURS n, d.get STK_CHn_WEAR1.LV_SPARES n, d.get STK_CHn_WEAR1.HV_SPARES n, d.get STK_CHn_WEAR1.SEG_RET n,
     d.get STK_CHn_WEAR1.SRAM_COLS n, d.get STK_CHn_WEAR2.FRAMES_RET n, d.get STK_CHn_WEAR2.SHORTS n, d.get STK_CHn_WEAR3.SEG_PERM n,
     d.get STK_CHn_WEAR3.MISMATCH n] ++ d.chs[n].hv.segRet
  ⟨gen, d.get STK_HOURS.HOURS, (d.get STK_TMAX.LOG, d.get STK_TMAX.HV), allCh.map ch, d.mason.repairs⟩

/-- Which of two copies is rewritten: an invalid one, else the older (R294, R584); with the generation it takes. -/
def olderCopy {α : Type} (gen : α → Nat) (cs : List (Option α)) : Nat × Nat :=
  match cs.getD 0 none, cs.getD 1 none with
  | none, none => (0, 1)
  | none, some b => (0, gen b + 1)
  | some a, none => (1, gen a + 1)
  | some a, some b => if gen a < gen b then (0, gen b + 1) else (1, gen a + 1)

/-- The valid copy with the greater generation. -/
def newerCopy {α : Type} (gen : α → Nat) (cs : List (Option α)) : Option α :=
  match cs.getD 0 none, cs.getD 1 none with
  | none, b => b
  | a, none => a
  | some a, some b => if gen a < gen b then some b else some a

/-- The wear records are stored; `good` says that the read-back agrees (R584). -/
def Dev.wearStore (d : Dev) (good : Bool) : Dev :=
  let x := olderCopy WearCopy.gen d.flash.wear
  let c := if good then some (d.wearNow x.2) else none
  { d with flash := { d.flash with wear := d.flash.wear.set x.1 c } }.raiseIf (!good) STK_STAT.SAVE_FAIL

/-- `STK_SAVE` (R584). -/
def execStkSave (good : Bool) (s : State) : Host.Outcome State Fault Refusal := s.whileUp (fun d => d.wearStore good)

/-- `WEAR_STORE` (R584). -/
def execWearStore (good : Bool) (s : State) : Host.Outcome State Fault Refusal := s.whileUp (fun d => d.wearStore good)

/-- `STK_SEG_TEST` (R579): only while the channel is OFF. -/
def execStkSegTest (n : Fin 8) (passed : BitVec 14) (s : State) : Host.Outcome State Fault Refusal :=
  s.whileUp (fun d =>
    let d := d.set STK_CMD.CH 0 0 n
    if d.hvState n = 0 then d.segTest n passed.toNat else d)

/-- `STK_SCRUB` written (R585). -/
def Dev.scrubWrite (d : Dev) (w : Nat) : Dev :=
  let h := bitsOf w 16 8
  let t := bitsOf w 0 10
  if h = 0 || 168 < h || t = 0 || 1000 < t then d.raise STK_STAT.CFG_REJ
  else (d.set STK_SCRUB.DRAM_T 0 0 h).set STK_SCRUB.SRAM_T 0 0 t

/-- `STK_SCRUB_WRITE`. -/
def execStkScrubWrite (w : BitVec 32) (s : State) : Host.Outcome State Fault Refusal := s.whileUp (fun d => d.scrubWrite w.toNat)

/-- `POWER_ON_HOUR` (R583; `PLB_AGE` in chapter 08): every counter saturates; the wait for the next automatic store runs down (R294). -/
def execPowerOnHour (s : State) : Host.Outcome State Fault Refusal :=
  s.whileUp (fun d => ({ d with boot := { d.boot with calWait := d.boot.calWait - 1 } }.count STK_HOURS.HOURS).eachCh (fun n d =>
    let d := d.count PLB_AGE.FULL_H n
    if d.hvState n = 2 then d.count STK_CHn_WEAR0.HV_HOURS n else d))

end Sys2Proof.Machine
end

