-- ==== Sys2Proof/Machine/Power.lean ====
section
/-!
DEFINITION. Power and boot (chapter 15): POR_N and the rails, the boot flow step by step, power states and their requests,
the stores of calibration tables (R294).
-/
namespace Sys2Proof.Machine
open Reg

/-! ### Reset -/

/-- The memories while POR_N holds the device: nothing is kept. -/
def State.held (s : State) (d : Dev) : Host.Outcome State Fault Refusal := .next { s with dev := d, mem := [] }

/-- POR_N is held low (R536). -/
def Dev.porLow (d : Dev) : Dev :=
  let d : Dev := { d with boot := { d.boot with por := true } }
  if d.boot.vaon then d.porReset 1 else d

/-- `POR_N_ASSERT`. -/
def execPorNAssert (s : State) : Host.Outcome State Fault Refusal := s.held s.dev.porLow

/-- A logic-side rail falls (R524): the effect of POR_N, recorded where `RAIL_LOW`, of 8 bits, has a bit for it (log entry 109, DEDUCED). -/
def Dev.railFell (d : Dev) (r : Nat) : Dev :=
  if !d.boot.vaon then d
  else
    let d := (if r < 8 then d.setBit PWR_STAT.RAIL_LOW 0 0 r else d).clrBit PWR_RAIL.GOOD 0 0 r
    let d : Dev := { d with boot := { d.boot with rail := true } }
    d.porReset 2

/-- `RAIL_LOW` (R524): rail r of the rows of R522. -/
def execRailLow (r : Fin 10) (s : State) : Host.Outcome State Fault Refusal := s.held (s.dev.railFell r)

/-- VAON goes (R524): the Porter and its records too; the flash alone keeps what it holds. -/
def Dev.vaonLost (d : Dev) : Dev :=
  let e : Dev := {
    flash := d.flash, out := d.out, fresh := d.fresh, reply := d.reply
    boot := { vaon := false, por := d.boot.por, rail := true }
    port := { perst := d.port.perst } }
  e.variantShow

/-- `VAON_LOSS`. -/
def execVaonLoss (s : State) : Host.Outcome State Fault Refusal := s.held s.dev.vaonLost

/-- `VAON_UP` (R524): the Porter starts. -/
def execVaonUp (s : State) : Host.Outcome State Fault Refusal :=
  let d := s.dev
  if d.boot.vaon then .next s
  else .next (s.withDev ({ d with boot := { d.boot with vaon := true } }.set PORTER_LAST.CAUSE 0 0 0))

/-- `SEQUENCING_BREACH` (R527): the HV outputs are held off. -/
def execSequencingBreach (s : State) : Host.Outcome State Fault Refusal :=
  let d := s.dev
  if !d.boot.vaon then .next s
  else
    let d : Dev := { d.raise PWR_STAT.SEQ_ERR with porter := { d.porter with railBad := [true, true] } }
    .next (s.withDev (d.eachCh (fun n d => d.hvDisable n)))

/-! ### Start -/

/-- The straps and the bank voltages show (R187, R418, R523, R540): BOOT [1:0], REFSEL [2], RING [4:3], HVLIM [5], LANES [6],
CLRSEL [7], VIO [8], VIO_MK [9]; and what a GT8H-32 shows of its own (R1, R611). -/
def Dev.strapShow (d : Dev) : Dev :=
  let w := d.boot.straps
  let role := bitsOf w 3 2
  let d := ((d.set PWR_STRAP.BOOT 0 0 (bitsOf w 0 2)).set PWR_STRAP.REFSEL 0 0 (bitsOf w 2 1)).set PWR_STRAP.RING 0 0 role
  let d := ((d.set PWR_STRAP.HVLIM 0 0 (bitsOf w 5 1)).set PWR_STRAP.LANES 0 0 (bitsOf w 6 1)).set PWR_STRAP.CLRSEL 0 0 (bitsOf w 7 1)
  let d := (d.set PWR_STRAP.VIO 0 0 (bitsOf w 8 1)).set CLK_STAT.REFSEL 0 0 (bitsOf w 2 1)
  let d := ((d.set RING_CTRL.ROLE 0 0 role).raiseIf (role = 3) RING_STAT.CFG_REJ).set RING_STAT.STATE 0 0
    (if role = 1 || role = 2 then 1 else 0)
  let d := if d.flash.half then
      d.variantShow.eachCh (fun n d => (d.set MSN_FRAMESn.USABLE n 0 0xFF40).set MSN_FREEn.FREE n 0 0xFF40)
    else d
  d.eachCh (fun n d => (d.set HV_STAT.HVLIM n 0 (bitsOf w 5 1)).set LV_STAT.VIO_MK n 0 (bitsOf w 9 1))

/-- The device starts once nothing holds it (R524, R536, R548): step 1 of the boot flow. HALT_N found low asserts HALT (R556). -/
def Dev.bootStart (d : Dev) : Dev :=
  if !d.boot.vaon || d.boot.por || d.boot.rail || d.porter.thermHold || d.boot.up then d
  else
    let d : Dev := { d with boot := { d.boot with up := true } }
    let d := ((d.strapShow).set PWR_RAIL.GOOD 0 0 (d.get PWR_RAIL.GOOD / 1024 * 1024 + 1023)).set PWR_BOOT.STAGE 0 0 1
    if d.porter.haltIn then d.assertHalt 0 else d

/-- `POR_N_RELEASE` (R548): the straps are sampled on this edge. -/
def execPorNRelease (straps : BitVec 10) (s : State) : Host.Outcome State Fault Refusal :=
  let d := s.dev
  .next (s.withDev (Dev.bootStart { d with boot := { d.boot with por := false, straps := straps.toNat } }))

/-- `RAIL_LOW_RECOVERED` (R524): the straps are sampled again. -/
def execRailLowRecovered (straps : BitVec 10) (s : State) : Host.Outcome State Fault Refusal :=
  let d := s.dev
  if !d.boot.rail || !d.boot.vaon then .next s
  else .next (s.withDev (Dev.bootStart { d with boot := { d.boot with rail := false, straps := straps.toNat } }))

/-- `THERM_HOLD_END` (R567). -/
def execThermHoldEnd (s : State) : Host.Outcome State Fault Refusal :=
  let d := s.dev
  if !d.porter.thermHold then .next s
  else .next (s.withDev (Dev.bootStart { d with porter := { d.porter with thermHold := false } }))

/-! ### The strap-override area (R544) -/

/-- Whether the register of a FLASH_CFG item takes a value: `GRAIN` (0 to 10, log entry 32), `BXOR`, `MIRROR`, PLCA `ID`, the
quiet codes, the quiet marker levels. -/
def ovrOk (item value : Nat) : Bool :=
  if item = 1 then value ≤ 10 else if item = 2 || item = 3 then value ≤ 1 else if item = 4 then value ≤ 255
  else if item = 5 || item = 6 then value < 2 ^ 16 else if item = 7 then value < 16 else false

/-- The entries in force: those of the newer valid copy. -/
def Dev.overrides (d : Dev) : List (Nat × Nat × Nat) :=
  match newerCopy OvrCopy.gen d.flash.ovr with
  | some c => c.entries.filter (fun e => ovrOk e.1 e.2.2)
  | none => []

/-- The entries of an item given to its register. -/
def Dev.override (d : Dev) (item : Nat) (f : Dev → Nat → Nat → Dev) : Dev :=
  (d.overrides.filter (fun e => e.1 = item)).foldl (fun d e => f d e.2.1 e.2.2) d

/-! ### Boot -/

/-- A boot failure (R550): `PWR_BOOT.FAIL`, and FAULT_N. -/
def Dev.bootFail (d : Dev) (cause : Nat) : Dev :=
  if d.get PWR_BOOT.FAIL = cause then d else (d.set PWR_BOOT.FAIL 0 0 cause).fault 11

/-- A firmware image slot: 0 A, 1 B. -/
def Dev.fwSlot (d : Dev) (i : Nat) : FwSlot := d.flash.fw.getD i ⟨[], 0, 0, none⟩

/-- The image that the boot takes (R520): the greater generation among those that verify. -/
def Dev.bootImage (d : Dev) (x : BootNews) : Option Nat :=
  match (if x.imgA then (d.fwSlot 0).gen else none), (if x.imgB then (d.fwSlot 1).gen else none) with
  | none, none => none
  | some _, none => some 0
  | none, some _ => some 1
  | some a, some b => if a < b then some 1 else some 0

/-- Mailbox service begins (R502, R548): after a restart of a Clerk that had served, every RUNG slot completes with TIMEOUT, and
the restart is reported. -/
def Dev.bootServe (d : Dev) : Dev :=
  let again := d.boot.again
  let d : Dev := { d with boot := { d.boot with again := none, served := true, recovery := false } }
  let d := (d.set MBX_CLERK.STATE 0 0 1).set PWR_BOOT.STAGE 0 0 8
  match again with
  | none => d
  | some r =>
    let gone := (List.range 9).flatMap (fun m => ((List.range 16).filter (fun k => d.bit MBX_BUSYm.BUSY m 0 k)).map (fun k => (m, k)))
    let d := gone.foldl (fun d x => d.finish x.1 x.2 0x0B []) { d with rung := [] }
    d.notice 6 0xFF [r]

/-- Step 4 (R542, R548, R550, R569). -/
def Dev.bootLoader (d : Dev) (x : BootNews) : Dev :=
  match x.loader with
  | none => (d.bootFail 1).set MBX_CLERK.STATE 0 0 3
  | some k =>
    if !x.suspend then d.bootFail 5
    else
      let d := (d.set PWR_BOOT.LDR 0 0 k.val).set FLS_ID.JEDEC 0 0 x.jedec.toNat
      let d : Dev := { d with porter := { d.porter with wdtArmed := true, wdtLeft := 500 } }
      (d.set PORTER_WDT.TMO 0 0 500).set PWR_BOOT.STAGE 0 0 4

/-- Step 5 (R544, R547, R548, R550, R569): the image goes into TCM (R341), and the watchdog timeout that the firmware sets is its own (log entry 1). -/
def Dev.bootFirmware (d : Dev) (x : BootNews) : Dev :=
  if d.get PWR_STRAP.BOOT = 2 && d.boot.again ≠ some 2 then { d with boot := { d.boot with recovery := true } }.set MBX_CLERK.STATE 0 0 0
  else match d.bootImage x with
    | none => { d.bootFail 2 with boot := { d.boot with recovery := true } }.set MBX_CLERK.STATE 0 0 0
    | some i =>
      let old := match (d.fwSlot i).gen, (d.fwSlot (1 - i)).gen with
        | some a, some b => decide (a < b)
        | _, _ => false
      let first := !d.boot.served
      let d := if d.get PWR_BOOT.FAIL = 2 || d.get PWR_BOOT.FAIL = 1 || d.get PWR_BOOT.FAIL = 5 then d.clear PWR_BOOT.FAIL else d
      let d := (d.set MBX_CLERK.IMAGE 0 0 i).set PWR_BOOT.STAGE 0 0 5
      let d := if old then d.notice 7 0xFF [i] else d
      let d : Dev := { d with sram := { d.sram with tcm := (d.fwSlot i).bytes } }
      let f := d.free
      let t := 10 + f.1 % 991
      let d : Dev := { f.2 with porter := { f.2.porter with wdtLeft := t } }
      let d := d.set PORTER_WDT.TMO 0 0 t
      let d := if first then
          let c := newerCopy OvrCopy.gen d.flash.ovr
          let d := d.raiseIf (c.isNone || c.any (fun c => c.entries.any (fun e => !ovrOk e.1 e.2.2))) PWR_BOOT.OVR_DEF
          d.override 4 (fun d _ v => d.set BB_PLCA.ID 0 0 v)
        else d
      if d.boot.served then d.bootServe else d

/-- The wear records of the newer valid copy come back; a permanently retired segment stays retired (R235, R579, R583, R584). -/
def Dev.wearLoad (d : Dev) : Dev :=
  match newerCopy WearCopy.gen d.flash.wear with
  | none => d.raise STK_STAT.REC_DEF
  | some c =>
    let d := (d.set STK_HOURS.HOURS 0 0 c.hours).set STK_TMAX.LOG 0 0 (max c.tmax.1 (d.get STK_TMAX.LOG))
    let d := d.set STK_TMAX.HV 0 0 (max c.tmax.2 (d.get STK_TMAX.HV))
    let d : Dev := { d with mason := { d.mason with repairs := c.rows } }
    d.eachCh (fun n d =>
      let w := c.chans.getD n []
      let g := fun i => w.getD i 0
      let d := ((d.set STK_CHn_WEAR0.HV_HOURS n 0 (g 0)).set STK_CHn_WEAR1.LV_SPARES n 0 (g 1)).set STK_CHn_WEAR1.HV_SPARES n 0 (g 2)
      let d := (d.set STK_CHn_WEAR1.SEG_RET n 0 (g 3)).set STK_CHn_WEAR1.SRAM_COLS n 0 (max (g 4) (d.get STK_CHn_WEAR1.SRAM_COLS n))
      let d := ((d.set STK_CHn_WEAR2.FRAMES_RET n 0 (g 5)).set STK_CHn_WEAR2.SHORTS n 0 (g 6)).set STK_CHn_WEAR3.MISMATCH n 0 (g 8)
      let perm := d.get STK_CHn_WEAR3.SEG_PERM n ||| g 7
      let d := (d.set STK_CHn_WEAR3.SEG_PERM n 0 perm).set HV_SEG.RETIRED n 0 (d.get HV_SEG.RETIRED n ||| perm)
      let d := (d.set HV_SEG.ACTIVE n 0 (d.get HV_SEG.ACTIVE n &&& (2 ^ 14 - 1 - perm % 2 ^ 14))).segShow n
      d.onCh n (fun k => { k with hv := { k.hv with
        segRet := (List.range 14).map (fun s => max (k.hv.segRet.getD s 0) (g (9 + s))) } }))

/-- What step 6 loads (R182, R223, R286, R295, R548): factory sets, tables and modes, quiet codes when CLRSEL is 1. -/
def Dev.calLoad (d : Dev) : Dev :=
  let d := d.eachCh (fun n d => d.setLive n (((d.liveSet n).set 74 (Config.uid % 2 ^ 32)).set 75 (Config.uid / 2 ^ 32 % 2 ^ 32)))
  let d := match newerCopy CalCopy.gen (d.flash.cal.map calCopy) with
    | none => d
    | some c => d.eachCh (fun n d =>
        let pts := c.points.getD n []
        let table := bitAt c.modes n
        let src := if !table || pts.isEmpty then 0 else if c.gen = d.flash.calTop then 1 else 2
        let d := d.onCh n (fun k => { k with plumb := { k.plumb with mode := table, points := pts } })
        let d := (d.set PLB_CTRL.MODE n 0 (if table then 1 else 0)).set PLB_TBL.POINTS n 0 pts.length
        (d.set PLB_STAT.NO_TABLE n 0 (if table && pts.isEmpty then 1 else 0)).set PLB_STAT.SRC n 0 src)
  let d := d.wearLoad
  let d := if d.flag PWR_STRAP.CLRSEL then
      let d := d.override 5 (fun d n v => d.set QUIET_CODE_LV.CODE n 0 v)
      let d := d.override 6 (fun d n v => d.set QUIET_CODE_HV.CODE n 0 v)
      d.override 7 (fun d n v => d.set MK_QUIET.LEVEL n 0 v)
    else d
  { d with boot := { d.boot with loaded := true } }.eachCh (fun n d => d.quietFollow n)

/-- Step 6 (R548): it loads once after POR_N, and a boot that a Clerk restart takes up again keeps what was loaded (R182). -/
def Dev.bootCal (d : Dev) : Dev := (if d.boot.loaded then d else d.calLoad).set PWR_BOOT.STAGE 0 0 6

/-- Hard repair of a listed row at bring-up (R394, R395): the row leaves the list, in the flash too, and its frame goes back into service; or
its frame stays retired. -/
def Dev.rowRepair (d : Dev) (x : Nat × Nat × Nat) : Dev :=
  let b := d.dieBank x.2.1 x.2.2
  if !d.flash.spent.contains (x.1, b) then
    { d with
      flash := { d.flash with
        spent := d.flash.spent ++ [(x.1, b)]
        wear := d.flash.wear.map (fun c => c.map (fun w => { w with rows := w.rows.filter (· ≠ x) })) }
      mason := { d.mason with repairs := d.mason.repairs.filter (· ≠ x) } }
  else if d.mason.retired.contains (x.1, x.2.1) then d
  else
    let d : Dev := { d with mason := { d.mason with retired := d.mason.retired ++ [(x.1, x.2.1)] } }
    (d.countWrap DMC_RETFR.COUNT x.1).reserveAnew (x.1, x.2.1)

/-- The delay sweeps of a rank at bring-up (R396, R397): three at most. -/
def Dev.rankSweep (d : Dev) (n : Fin 8) (r : Nat) (sweeps : List (List LaneWindow)) : Dev :=
  let w := (sweeps.take 3).map narrowest
  match w.findIdx? (fun x => 16 ≤ x) with
  | some i => ((d.set DMC_RANKr.WIN n r (w.getD i 0)).set DMC_RANKr.TRIES n r (i + 1)).delaySwept n r (sweeps.getD i [])
  | none => ((d.set DMC_RANKr.WIN n r ((w.getLast?).getD 0)).set DMC_RANKr.TRIES n r 3).rankRetire n r

/-- DRAM bring-up after POR_N (R372, R394, R396, R397). -/
def Dev.dramUp (d : Dev) (x : BootNews) : Dev :=
  let d := d.override 1 (fun d n v => d.set DMC_CTRL.GRAIN n 0 v)
  let d := d.override 2 (fun d n v => d.set DMC_CTRL.BXOR n 0 v)
  let d := d.override 3 (fun d n v => d.set DMC_CTRL.MIRROR n 0 v)
  let d := d.mason.repairs.foldl Dev.rowRepair d
  let d := d.eachCh (fun n d =>
    let d := ((d.pprShow n).set DMC_STAT.STATE n 0 1)
    let d := d.rankSweep n 0 (x.sweeps.getD (2 * n.val) [])
    let d := d.rankSweep n 1 (x.sweeps.getD (2 * n.val + 1) [])
    d.dramState n)
  { d with boot := { d.boot with swept := true } }

/-- Step 7 (R548): the bring-up is done once after POR_N; a restart of the Clerk keeps the delays and does not sweep (R397). -/
def Dev.bootDram (d : Dev) (x : BootNews) : Dev := (if d.boot.swept then d else d.dramUp x).set PWR_BOOT.STAGE 0 0 7

/-- The next step of the boot flow ends, or fails (R548, R550). -/
def Dev.bootNext (d : Dev) (x : BootNews) : Dev :=
  match d.get PWR_BOOT.STAGE with
  | 1 =>
    if !x.refclk then d.bootFail 4
    else if d.locked then (if d.get PWR_BOOT.FAIL = 4 then d.clear PWR_BOOT.FAIL else d).set PWR_BOOT.STAGE 0 0 2
    else d
  | 2 => if d.flag MEM_STAT.START_OK then d.set PWR_BOOT.STAGE 0 0 3 else d
  | 3 => if d.get PWR_STRAP.BOOT = 3 || d.porter.clerkFail || d.get MBX_CLERK.STATE = 3 then d else d.bootLoader x
  | 4 => if d.boot.recovery then d else d.bootFirmware x
  | 5 => d.bootCal
  | 6 => d.bootDram x
  | 7 => d.bootServe
  | _ => d

/-- `BOOT_STEP_COMPLETE` (R548): `ms` milliseconds after POR_N rose. -/
def execBootStepComplete (ms : BitVec 12) (x : BootNews) (s : State) : Host.Outcome State Fault Refusal :=
  s.whileUp (fun d => (d.set PWR_BOOT.MS 0 0 (max (d.get PWR_BOOT.MS) ms.toNat)).bootNext x)

/-- `FLASH_FETCH` (R545): a fetch suspends an operation that runs, unless it was resumed less than 100 µs ago. -/
def execFlashFetch (running rested : Bool) (s : State) : Host.Outcome State Fault Refusal :=
  s.whileUp (fun d => if running && rested then d.count FLS_STAT.SUSPENDS else d)

/-! ### Calibration stores -/

/-- The calibration tables are stored; `good` says that the read-back agrees (R294). What a store that fails its check leaves in its
flash slot is not valid, and the model holds nothing of it (log entry 68). -/
def Dev.calStore (d : Dev) (good : Bool) : Dev :=
  let x := olderCopy CalCopy.gen (d.flash.cal.map calCopy)
  let modes := allCh.foldl (fun v (n : Fin 8) => if d.flag PLB_CTRL.MODE n then setBitAt v n else v) 0
  let img := if good then calImage x.2 modes (allCh.map (fun n => d.chs[n].plumb.points)) else []
  let d : Dev := { d with flash := { d.flash with cal := d.flash.cal.set x.1 img, calTop := max d.flash.calTop x.2 } }
  if good then d.eachCh (fun n d => d.onCh n (fun k => { k with plumb := { k.plumb with dirty := false, modeDirty := false } }))
  else d.eachCh (fun n d => d.raise PLB_STAT.STORE_FAIL n)

/-- The Clerk stores the tables on its own (R294): a mode has changed, or a full slot has changed a table and the seventh hour mark since
the previous automatic store has come, so that 6 hours have passed; and every Plumb block is its own (R298) (log entry 70, DEDUCED). -/
def Dev.autoStoreDue (d : Dev) : Bool :=
  d.get MBX_CLERK.STATE = 1 && allCh.all (fun n => !d.flag PLB_CTRL.OWN n)
    && allCh.any (fun n => d.chs[n].plumb.modeDirty || (d.chs[n].plumb.dirty && d.boot.calWait = 0))

/-- `CAL_AUTO_STORE` (R294). -/
def execCalAutoStore (good : Bool) (s : State) : Host.Outcome State Fault Refusal :=
  s.whileUp (fun d =>
    if d.autoStoreDue then
      let e := d.calStore good
      ({ e with boot := { e.boot with calWait := 7 } } : Dev).notice 3 0xFF [if good then 0 else 1]
    else d)

/-! ### Power states (R530 to R535) -/

/-- What refuses IDLE and SLEEP (R531). -/
def Dev.powerBusy (d : Dev) : Bool :=
  allCh.any (fun n => d.get SEQ_STAT.STATE n = 1 || d.get SEQ_STAT.STATE n = 2 || d.get PLB_STAT.STATE n ≠ 0 || d.chs[n].slot.isSome)

/-- A state is requested (R531, R533, R534), from wake source `src`; the second component says that it is refused. -/
def Dev.powerRequest (d : Dev) (st src : Nat) : Dev × Bool :=
  let now := d.get PWR_STAT.STATE
  let keep := fun (d : Dev) => { d with power := { d.power with held := some (st, src) } }
  if st = 3 then (d, true)
  else if d.power.entry.isSome || now = 3 then (keep d, false)
  else if now = st then (d, false)
  else if st = 0 then (d.wake src, false)
  else if now = 2 then (keep (d.wake src), false)
  else if d.powerBusy then (d, true)
  else ({ d with power := { d.power with entry := some st } }, false)

/-- A request at the registers: a refusal sets `ENTRY_REJ`. -/
def Dev.powerGo (d : Dev) (st src : Nat) : Dev := let p := d.powerRequest st src; p.1.raiseIf p.2 PWR_STAT.ENTRY_REJ

/-- `PWR_GO` (R531): a write of `PWR_CTRL` with `GO` = 1. -/
def execPwrGo (req : BitVec 2) (s : State) : Host.Outcome State Fault Refusal :=
  s.whileUp (fun d => (d.set PWR_CTRL.REQ 0 0 req.toNat).powerGo req.toNat 2)

/-- The request that waited for the end of a transition acts (R534). -/
def Dev.powerHeld (d : Dev) : Dev :=
  match d.power.held with
  | none => d
  | some x => { d with power := { d.power with held := none } }.powerGo x.1 x.2

/-- The ranks of a channel enter self-refresh; with `RETAIN` = PARKED the content of the other segments goes (R384, R387). -/
def Dev.retain (d : Dev) (n : Fin 8) : Dev :=
  let d := (d.selfRefresh n 0).selfRefresh n 1
  if d.get DMC_LP.RETAIN n ≠ 2 then d
  else
    let pins := d.pinned n
    let mine := d.mason.copies.filter (fun c => c.ch = n.val)
    let keep := ((mine.filter (fun c => c.held || pins.contains c.page || d.pageClass c.page = 2)).map (fun c => c.frame / (rankFrames d.flash.half / 8)))
      ++ ((d.mason.reserved.filter (fun x => x.1 = n.val)).map (fun x => x.2 / (rankFrames d.flash.half / 8))) ++ [0, 8]
    let d : Dev := { d with mason := { d.mason with copies := d.mason.copies.filter (fun c => c.ch ≠ n.val || keep.contains (c.frame / (rankFrames d.flash.half / 8))) } }
    d.framesShow n

/-- A channel enters SLEEP: its sequencer keeps its state and its queue empties; outputs, capture queues and, with `RET_CH` = 0,
the segment area go (R225, R364, R531, log entry 24). -/
def Dev.sleepCh (d : Dev) (n : Fin 8) : Dev :=
  let d := (if d.seqIdle n then d else d.stopNow n).abortSlot n
  let d := d.slotEnd n
  let c := d.chs[n]
  let a := c.tip 0
  let base := { a with mode := (match a.mode with | .held => Mode.stopped | m => m), req := none }
  let d := (d.onCh n (fun c => { c with
    cur := none, laid := [], base := base, now := none, jump := none, miss := false, starved := false, dry := none, gap := none
    lv := { c.lv with code := d.getS QUIET_CODE_LV.CODE n, last := .quiet, mkr := 0, mkHold := 0, mkNext := [] }
    hv := { c.hv with last := .quiet, ramp := false }
    sieve := { c.sieve with taps := c.sieve.taps.map (fun t => { t with queue := [], part := [] }) } })).hvDisable n
  let d := d.clear MSN_CHn_STAT.STARVED n
  if d.bit MEM_CTRL.RET_CH 0 0 n then d
  else { d with
    mason := { d.mason with resident := d.mason.resident.filter (fun x => x.ch ≠ n.val) }
    sram := { d.sram with blank := n.val :: d.sram.blank.filter (· ≠ n.val) } }.clear MSN_CHn_STAT.READY n

/-- What SLEEP switches off of a channel's segment area with `RET_CH` = 0 (R364): a step table that lies there, and the capture rings of a
channel that runs SRAM-only, read as zero on wake. -/
def areaOff (n : Fin 8) (p : Dev × Memory) : Dev × Memory :=
  if p.1.bit MEM_CTRL.RET_CH 0 0 n then p
  else
    let table := fun a => sramAt (0x400000 * n.val) ≤ a && a < sramAt (0x400000 * n.val + 0x40000)
    let ring := fun a => p.1.mason.capRings.any (fun r => r.1 = n.val && framesOf false ≤ r.2.2.1
      && dramAt n (r.2.2.1 * 65536) ≤ a && a < dramAt n ((r.2.2.1 + r.2.2.2) * 65536))
    (p.1, p.2.filter (fun c => !(p.1.get MEM_MAPn.STEP_BANK n ≠ 0 && table c.1) && !ring c.1))

/-- The rest of the device enters SLEEP (R130, R363, R457, R478, R532). -/
def Dev.sleepDev (d : Dev) : Dev :=
  let d := d.marchEnd 5
  let d := (d.clear BB_PTP_STAT.VALID).clear BB_STAT.PLCA_ACT
  let d : Dev := { d with bench := { d.bench with heard := false }, ev := { d.ev with srcs := [], fired := [] } }
  let d := if d.linked 0 then d.linkDown 0 false else d
  if d.linked 1 then d.linkDown 1 false else d

/-- Entry into IDLE or SLEEP completes (R364, R387, R271); a wake that came meanwhile begins (R534). -/
def entryDone (p : Dev × Memory) : Dev × Memory :=
  match p.1.power.entry with
  | none => p
  | some st =>
    let d := p.1
    let d : Dev := { d with power := { d.power with entry := none } }
    let p : Dev × Memory := if st = 2 then pauseSieves (d, p.2)
      else allCh.foldl (fun p n =>
        let q := [0, 1, 2, 3].foldl (fun q k => endRecord n k 5 q) p
        (q.1.onCh n (fun c => { c with sieve := { c.sieve with capHold := true } }), q.2)) (d, p.2)
    let d := p.1.eachCh (fun n d => d.retain n)
    let d := if st = 2 then d.eachCh (fun n d => d.sleepCh n) else d
    let d := d.set PWR_STAT.STATE 0 0 st
    let d := if st = 2 then d.sleepDev else d
    let m := if st = 2 then (allCh.foldl (fun p n => areaOff n p) (d, p.2)).2 else p.2
    (d.powerHeld, m)

/-- `POWER_ENTRY_DONE` (R531). -/
def execPowerEntryDone (s : State) : Host.Outcome State Fault Refusal :=
  let p := entryDone (s.dev, s.mem)
  .next { s with dev := p.1, mem := p.2 }

/-- A wake ends (R22, R386, R535): DRAM leaves self-refresh; from SLEEP the counter has a gap, and a joined device is islanded
until it rejoins. -/
def Dev.wakeDone (d : Dev) : Dev :=
  if d.get PWR_STAT.STATE ≠ 3 then d
  else
    let slept := d.power.left = 2
    let late := d.power.refused
    let d : Dev := { d with power := { d.power with left := 0, refused := [] } }
    let d := d.set PWR_STAT.STATE 0 0 0
    let d := late.foldl (fun d x => d.refuse x.1 x.2.1 x.2.2.1 x.2.2.2) d
    let d := d.eachCh (fun n d => d.rankWake n 0 |>.rankWake n 1)
    let d := if slept then (d.raise CRS_STAT.GAP).eachCh (fun n d => d.raise DDS_STAT.GAP n) else d
    let st := d.ringSt
    let d : Dev := if !slept then d
      else { d with ev := { d.ev with trigLast := d.ev.trigLast.map (fun _ => none) }, time := { d.time with lock := d.time.abs } }
    let gone := fun (d : Dev) => (((d.noUp (if st = 4 then d.get CLK_STAT.SRC else 3)).ringState 5).raise RING_STAT.ISL_HEAD).fwdShow
    let d := if slept && (st = 3 || st = 4) then (gone d).fire 5 else if slept && st = 6 then gone d else d
    d.powerHeld

/-- `WAKE_DONE` (R535). -/
def execWakeDone (s : State) : Host.Outcome State Fault Refusal := s.whileUp Dev.wakeDone

end Sys2Proof.Machine
end

