-- ==== Sys2Proof/Machine/Joint.lean ====
section
/-!
DEFINITION. The joint (R19 to R22): the course that plays runs out, and everything that lands at the next joint does so in the
order in which one thing decides another: the grid, the ring, the Mason, slots and settings, deliveries, re-lays, the entries
that begin to play, what shows at the joint, and the mailbox commands that complete there.
-/
namespace Sys2Proof.Machine
open Reg

/-! ### The grid (R18, R53) -/

/-- The lengths and shifts that land at the joint: the course that begins gets its length. -/
def Dev.gridJoint (d : Dev) : Dev :=
  let c := d.time.crs
  let len := d.lenAt c
  let sum := d.shiftSum c
  let clen := ((len : Int) + d.shiftAt c).toNat
  let landed := d.time.lenPend.any (fun x => x.2.1 ≤ c)
  let d : Dev := d.raiseIf (len / 8 < sum.natAbs) CRS_STAT.SYNC_CLIP
  let d : Dev := if landed then (d.set CRS_LEN.LEN 0 0 len).clear CRS_CTRL.LEN_PEND else d
  let grid := match d.time.grid with
    | (g, a, k) :: r => if k = clen then (g, a, k) :: r else (c, d.time.abs, clen) :: (g, a, k) :: r
    | [] => [(c, d.time.abs, clen)]
  { d with time := { d.time with
    clen := clen
    grid := grid
    shifts := d.time.shifts.filter (fun x => c < x.1)
    lenPend := if landed then none else d.time.lenPend
    winUsed := d.time.winUsed.filter (fun w => c ≤ w) } }

/-! ### Groups (R504, R505) -/

/-- Consumer slot k of line l written. -/
def Dev.setDst (d : Dev) (l k w : Nat) : Dev :=
  if k % 2 = 0 then d.set EVL_DSTn_r.SLOT_LO l (k / 2) w else d.set EVL_DSTn_r.SLOT_HI l (k / 2) w

/-- A code written into the first inactive consumer slot of a line; a line without one keeps its slots. -/
def Dev.addDst (d : Dev) (l w : Nat) : Dev :=
  match (List.range 16).find? (fun k => slotCode (d.dstSlot l k) = 0) with
  | some k => d.setDst l k w
  | none => d

/-- A line serves a group for channel input i when its active slots for that input name exactly the group's members: the
slots then name the new members (DEDUCED: the spec does not say which lines are a group's). -/
def Dev.groupLine (old new l : Nat) (d : Dev) (i : Nat) : Dev :=
  let mine := (d.routes l).filter (fun r => (chCons r.2.1).any (fun x => x.2 = i))
  let mask := (mine.filterMap (fun r => (chCons r.2.1).map (fun x => x.1.val))).foldl setBitAt 0
  if old = 0 || mask ≠ old then d
  else
    let land := if mine.any (fun r => r.2.2) then 2 ^ 14 else 0
    let d := mine.foldl (fun d r => d.setDst l r.1 0) d
    ((List.range 8).filter (fun n => bitAt new n)).foldl (fun d n => d.addDst l (2 ^ 15 + land + 0x100 + 0x20 * n + i)) d

/-- The routes of a group's lines take its new members. -/
def Dev.groupRoutes (d : Dev) (old new : Nat) : Dev :=
  (List.range 64).foldl (fun d l => [0, 1, 2, 3, 4, 5, 6, 8, 9, 10, 11].foldl (Dev.groupLine old new l) d) d

/-- Group changes at a joint: those that land take effect and end every other change of the same group that was accepted
under the old epoch; the routes for firings that land at the next joint follow the changes that land there (R124). -/
def Dev.groupJoint (d : Dev) : Dev :=
  let c := d.time.crs
  let now := d.groups.filter (fun x => x.land = c)
  let d : Dev := now.foldl (fun d x =>
    if !d.groups.contains x then d
    else
      let d : Dev := (d.set GRPg.MASK x.g 0 x.mask).countWrap GRPg.EPOCH x.g
      let d : Dev := { d with groups := d.groups.filter (fun y => y.g ≠ x.g) }
      if (d.cmdOf x.m x.slot).any (fun y => y.opcode = 0x58) then d.finish x.m x.slot 0 [] else d) d
  (d.groups.filter (fun x => x.land = c + 1)).foldl (fun d x => d.groupRoutes (d.get GRPg.MASK x.g) x.mask) d

/-! ### The batch (R33) -/

/-- The lowest course that the batch closed at this joint makes channel n lay again: a landing action, a shift or a length
change accepted during the course that has ended, or an entry whose course has changed its length. -/
def Dev.batchFrom (d : Dev) (n : Fin 8) : Option Nat :=
  let k := d.time.crs - 1
  let ch := d.chs[n]
  let acts := (ch.acts.filter (fun a => a.acc = k)).map (·.land)
  let moves := (d.time.shifts.filter (fun x => x.2.2 = k)).map (·.1) ++ (d.time.lenPend.toList.filter (fun x => x.2.2 = k)).map (·.2.1)
  let lens := (ch.laid.filter (fun e => e.clen ≠ d.courseLen e.crs)).map (·.crs)
  match acts ++ moves ++ lens with
  | [] => none
  | c :: cs => some (max (cs.foldl min c) d.time.crs)

/-- The batch of channel n closes; where its pair has been halted, the spare takes its place in the same pass (R111). -/
def Dev.batchClose (d : Dev) (m : Memory) (n : Fin 8) : Dev :=
  let from_ := d.batchFrom n
  match d.chs[n].badLay with
  | none => match from_ with | some c => d.relayFrom m n c | none => d
  | some _ =>
    if d.flag SEQ_LS.ON_SPARE n then
      let d : Dev := d.onCh n (fun ch => { ch with badLay := none })
      match from_ with | some c => d.relayFrom m n c | none => d
    else
      let keep := match from_ with
        | some c => d.chs[n].laid.filter (fun e => e.crs < c)
        | none => d.chs[n].laid
      let redo := d.chs[n].laid.drop keep.length
      let start := match keep.getLast?, d.chs[n].cur with
        | some p, _ => p.after
        | none, some e => e.after
        | none, none => d.chs[n].rest 0
      let es := d.layRun m n redo.length (d.time.crs + keep.length) start
      (d.onCh n (fun ch => { ch with laid := keep ++ es })).switchover m n d.time.crs (relayBound es)

/-! ### The entry that begins to play (R30, R43, R505) -/

/-- The phase offset that actions at the joint apply (R169, R170). -/
def Dev.applyOfs (d : Dev) (n : Fin 8) (acts : List Act) : Dev :=
  (sortActs acts).foldl (fun (d : Dev) (a : Act) => match a.kind with
    | .apply p =>
      let d : Dev := d.onCh n (fun c => { c with dds := { c.dds with pofs := p } })
      (d.setPair DDS_POFS_LO.POFS_LO DDS_POFS_HI.POFS_HI n 0 p).clear DDS_STAT.APPLY_PEND n
    | _ => d) d

/-- The entry of the course that begins becomes the playing one. An action whose epoch has changed is discarded (R505). -/
def Dev.playEntry (d : Dev) (n : Fin 8) (e : Entry) (miss : Bool) : Dev :=
  let c := d.time.crs
  let stale := d.chs[n].acts.filter (fun a => a.stale && a.land ≤ c)
  let d : Dev := d.onCh n (fun ch => { ch with
    cur := some e, laid := ch.laid.filter (fun x => c < x.crs), miss := miss, acts := ch.acts.filter (fun a => c < a.land) })
  let d : Dev := stale.foldl (fun d a => d.dropAct n a .stale) d
  d.applyOfs n e.acts

/-- Channel n takes its entry for the course that begins; without one it has missed a lay (R30); halted or cleared, it discards
what lands and stays quiet (R43). -/
def Dev.takeEntry (d : Dev) (m : Memory) (n : Fin 8) : Dev :=
  let c := d.time.crs
  if d.deaf n then
    let gone := d.chs[n].acts.filter (fun a => a.land ≤ c)
    let a := match d.chs[n].cur with | some e => e.after | none => d.chs[n].rest 0
    let d : Dev := gone.foldl (fun d a => d.dropAct n a .discarded) d
    let d : Dev := d.onCh n (fun ch => { ch with acts := ch.acts.filter (fun a => c < a.land) })
    (d.playEntry n (d.layCourse m n a c [] []) false).relayRest m n
  else match d.chs[n].laid.find? (fun e => e.crs = c) with
    | some e => d.playEntry n e false
    | none =>
      let e := d.layCourse m n (d.chs[n].tip 0) c (d.chs[n].landing c c) (d.chs[n].cutsIn c)
      let d : Dev := d.playEntry n e true
      ((d.raise CQ_STAT.LAY_MISS n).countWrap CQ_MISS.COUNT n).fire (chProd n 3)

/-! ### What shows at the joint (R86 to R89, R173, R634) -/

/-- The step, the whole ticks into its pass and the loop stack (top first) at the first sample of the course, before a boundary that lies inside
its first tick (R86, R135); `none` keeps what showed before. A CAL step has no pass: its ticks are open (log entry 1). -/
def Chan.atJoint (c : Chan) (free : Nat) : Option (Nat × Nat × List Lvl) :=
  match c.cur with
  | none => none
  | some e =>
    let was := (e.before.step, e.before.ofs - 1, e.before.stack)
    if c.vis = 2 then
      match e.frags.find? (fun f => f.t0 = 0) with
      | some f =>
        if f.ofs = 0 && f.phi ≠ 0 && e.before.mode = .running then some was
        else if f.what ≠ .run then some (f.step, free, f.stack)
        else some (f.step, if f.phi = 0 then f.ofs else f.ofs - 1, f.stack)
      | none => none
    else
      let now := e.fx.filter (fun x => x.1 = 0)
      let lag := e.before.phi ≠ 0 && e.before.mode = .running
      now.foldl (fun r x => match x.2 with
        | .runStop s o st => some (s, o, st)
        | .runEnd s st => if lag && e.frags.any (fun f => f.t0 = 0 && f.phi ≠ 0) then some was else some (s, 0, st)
        | .fault s _ o st => if lag && !now.any (fun y => y.2 = .phi 0) then some was else some (s, o, st)
        | _ => r) none

/-- The counts and closing steps of the levels, level 0 first. -/
def levels (st : List Lvl) : List (Nat × Nat) := st.reverse.map (fun l => (l.done, l.close))

/-- The live loop registers show a stack (R87). -/
def Dev.loopShow (d : Dev) (n : Nat) (st : List Lvl) : Dev :=
  (List.range 4).foldl (fun d x =>
    let v := ((levels st).getD x (0, 0)).1
    (d.set SEQ_LOOPx_LO.DONE_LO n x (v % 2 ^ 32)).set SEQ_LOOPx_HI.DONE_HI n x (v / 2 ^ 32)) d

/-- The course begins in a CAL step. -/
def Chan.inCal (c : Chan) : Bool :=
  match c.cur with
  | some e => c.vis = 2 && e.frags.any (fun f => f.t0 = 0 && f.phi = 0 && f.what ≠ .run)
  | none => false

/-- The visible loop state of channel n at the joint (R86, R87, R634). -/
def Dev.seqShow (d : Dev) (n : Fin 8) : Dev :=
  let cal := d.chs[n].inCal
  let fr : Nat × Dev := if cal then d.free else (0, d)
  let d := fr.2
  match d.chs[n].atJoint (fr.1 % 2 ^ 28) with
  | none => d.showState n
  | some (step, ofs, st) =>
    let changed := (levels st).map (·.1) ≠ (levels d.chs[n].visStack).map (·.1)
    let d : Dev := (d.set SEQ_STAT.STEP n 0 step).loopShow n st
    let g := d.get SEQ_LOOPx_HI.GEN n 0 + (if changed then 1 else 0)
    let d : Dev := (List.range 4).foldl (fun d x => d.set SEQ_LOOPx_HI.GEN n x g) d
    (d.onCh n (fun c => { c with visOfs := ofs, visStack := st })).showState n

/-- A snapshot of channel n (R88). -/
def Dev.snapTake (d : Dev) (n : Fin 8) : Dev :=
  let c := d.chs[n]
  let d : Dev := d.setPair SEQ_SNAP_CRS_LO.CRS_LO SEQ_SNAP_CRS_HI.CRS_HI n 0 d.time.crs
  let d : Dev := ((d.set SEQ_SNAP_POS.STATE n 0 (d.get SEQ_STAT.STATE n)).set SEQ_SNAP_POS.DEPTH n 0 c.visStack.length).set
    SEQ_SNAP_POS.STEP n 0 (d.get SEQ_STAT.STEP n)
  let d : Dev := d.set SEQ_SNAP_OFS.TICKS n 0 c.visOfs
  let d : Dev := (List.range 4).foldl (fun d x =>
    let l := (levels c.visStack).getD x (0, 0)
    ((d.set SEQ_SNAP_Lx_LO.DONE_LO n x (l.1 % 2 ^ 32)).set SEQ_SNAP_Lx_HI.DONE_HI n x (l.1 / 2 ^ 32)).set SEQ_SNAP_Lx_HI.CLOSE n x l.2) d
  ((d.set SEQ_SNAP.GEN n 0 (d.get SEQ_LOOPx_HI.GEN n 0)).raise SEQ_SNAP.DONE n).clear SEQ_SNAP.PEND n

/-- Snapshot events and requests at the joint: one snapshot serves them all; an event that finds one held is dropped (R89). -/
def Dev.snapJoint (d : Dev) (n : Fin 8) : Dev :=
  let acts : List Act := match d.chs[n].cur with
    | some e => e.acts.filter (fun a => a.kind = .snap)
    | none => []
  if d.flag SEQ_SNAP.DONE n then acts.foldl (fun d a => d.overrun a.slots) d
  else if d.flag SEQ_SNAP.PEND n || !acts.isEmpty then d.snapTake n
  else d

/-- The frequency word and accumulator at the first sample of the joint show (R173). -/
def Dev.ddsShow (d : Dev) (n : Fin 8) : Dev :=
  let x := (d.ddsRun n (d.chs[n].beat 0) 1).2
  let freq := x.freq
  let acc := x.acc
  let crs := d.time.crs % 2 ^ 16
  let d : Dev := ((d.set DDS_FREQ_LO.FREQ_LO n 0 (freq % 2 ^ 32)).set DDS_FREQ_HI.FREQ_HI n 0 (freq / 2 ^ 32)).set DDS_FREQ_HI.CRS n 0 crs
  ((d.set DDS_PHASE_LO.PHASE_LO n 0 (acc % 2 ^ 32)).set DDS_PHASE_HI.PHASE_HI n 0 (acc / 2 ^ 32)).set DDS_PHASE_HI.CRS n 0 crs

/-- The bench time of the joint recorded (R479). -/
def Dev.todJoint (d : Dev) : Dev :=
  if d.time.crs % 1024 = 0 && d.flag BB_PTP_STAT.VALID then
    let ns := d.benchNs
    let d : Dev := d.setPair BB_TOD_CRS_LO.CRS_LO BB_TOD_CRS_HI.CRS_HI 0 0 d.time.crs
    (d.setPair BB_TOD_SEC_LO.SEC_LO BB_TOD_SEC_HI.SEC_HI 0 0 (ns / 10 ^ 9)).set BB_TOD_NS.NS 0 0 (ns % 10 ^ 9)
  else d

/-! ### Commands that complete at the joint -/

/-- The thirteen result words of SNAP (R507). -/
def Dev.snapWords (d : Dev) (n : Nat) : List Nat :=
  [d.get SEQ_SNAP_CRS_LO.CRS_LO n, d.get SEQ_SNAP_CRS_HI.CRS_HI n,
   d.get SEQ_SNAP_POS.STATE n * 2 ^ 20 + d.get SEQ_SNAP_POS.DEPTH n * 2 ^ 16 + d.get SEQ_SNAP_POS.STEP n,
   d.get SEQ_SNAP_OFS.TICKS n]
  ++ (List.range 4).flatMap (fun x => [d.get SEQ_SNAP_Lx_LO.DONE_LO n x,
    d.get SEQ_SNAP_Lx_HI.CLOSE n x * 2 ^ 16 + d.get SEQ_SNAP_Lx_HI.DONE_HI n x])
  ++ [d.get SEQ_SNAP.GEN n]

/-- A command that waits for this joint completes (R498, R507): CRS_SET, SNAP, SIEVE_RUN, CAL_MODE; a GROUP_SET overtaken by
another (R505); a GROUP_ACT on an empty group; a JOIN or REJOIN after 1 s. -/
def Dev.cmdEnd (d : Dev) (c : Cmd) : Dev :=
  if c.opcode = 0x70 then (if c.land ≤ d.time.abs then d.finish c.m c.slot 0x0B [] else d)
  else if d.time.crs < c.land then d
  else if c.opcode = 0x60 || c.opcode = 0x151 then d.finish c.m c.slot 0 []
  else if c.opcode = 0x118 then (d.finish c.m c.slot 0 (d.snapWords c.m)).clear SEQ_SNAP.DONE c.m
  else if c.opcode = 0x142 then
    (if c.took = 1 && !d.flag SIEVE_STAT.RUNNING c.m then d.finish c.m c.slot 3 [] else d.finish c.m c.slot 0 [])
  else if c.opcode = 0x58 then d.finish c.m c.slot 4 []
  else if c.opcode = 0x59 && c.left = 0 then d.finish c.m c.slot 0 [0]
  else d

/-- The waiting commands complete where this joint ends their wait. -/
def Dev.cmdJoint (d : Dev) : Dev := d.cmds.foldl Dev.cmdEnd d

/-! ### The joint -/

/-- Channel n's slot ends or goes on, and its settings land (R46, R181, R185, R219, R287, R288, R290, R317); `old` is the length
of the course that has ended. A full slot that commits coefficients at an update joint takes the place of the update (R626). -/
def Dev.settle (d : Dev) (n : Fin 8) (old : Nat) : Dev :=
  let bank := d.get HV_STAT.PD_BANK n
  let d : Dev := (d.slotCourse n old).modeLand n |>.loadLand n
  let swapped := d.get HV_STAT.PD_BANK n ≠ bank
  let table := d.chs[n].plumb.mode && !d.chs[n].plumb.points.isEmpty
  let d : Dev := if d.time.crs % 1024 ≠ 0 then d
    else if swapped && table then d.raise HV_STAT.CFG_REJ n
    else d.tableUpdate n
  (d.delayJoint n).outputJoint n

/-- Settings, then the Sieve, channel by channel. -/
def settleAll (shifted : Bool) (old : Nat) (p : Dev × Memory) : Dev × Memory :=
  allCh.foldl (fun p n => sieveJoint shifted n (p.1.settle n old, p.2)) p

/-- The channels whose slot begins at this joint with their first tick pause their Sieves (R271). -/
def pauseSlots (p : Dev × Memory) : Dev × Memory :=
  allCh.foldl (fun p n => if p.1.chs[n].slot.isSome then sievePause n p else p) p

/-- The joint's part before the samples: from the count of the course to the entries that begin. -/
def jointBegin (p : Dev × Memory) : Dev × Memory :=
  let m := p.2
  let d := Dev.finishCourse m p.1.time.clen p.1
  let old := d.time.clen
  let d : Dev := { d with time := { d.time with crs := (d.time.crs + 1) % 2 ^ 64, tick := 0, abs := d.time.abs + 1 } }
  let d : Dev := d.admitJoint
  let shifted := d.shiftSum d.time.crs ≠ 0
  let d : Dev := (d.gridJoint.ringJoint.haltJoint.masonJoint m old).marchJoint m
  let d : Dev := d.eachCh (fun n d =>
    let d : Dev := ((d.repay n 0).repay n 1).stepBankJoint n
    d.onCh n (fun c => { c with ahead := c.aheadNext.getD c.ahead, aheadNext := none }))
  let p := settleAll shifted old (d, m)
  let d : Dev := ((p.1.groupJoint.resolveAt p.1.time.crs).landDue).resolveAt (p.1.time.crs + 1)
  let d : Dev := d.eachCh (fun n d => (d.batchClose p.2 n).takeEntry p.2 n)
  ((d.eachCh (fun n d => d.starveJoint n)).playedPages, p.2)

/-- The joint's part with the first tick of the course and what shows after it. -/
def jointEnd (p : Dev × Memory) : Dev × Memory :=
  let d := (p.1.firedDue p.2).eachCh (fun n d => d.ddsShow n)
  let p := pauseSlots (d.playTick p.2, p.2)
  let d : Dev := p.1.eachCh (fun n d => ((d.seqShow n).snapJoint n).hzLand n)
  let d : Dev := if d.time.crs % 2 ^ d.get EVL_CTRL.DIV = 0 then d.fire 1 else d
  (d.todJoint.cmdJoint, p.2)

/-- The joint: only while the tick clock runs (R21). -/
def joint (p : Dev × Memory) : Dev × Memory := if p.1.ticking then jointEnd (jointBegin p) else p

/-- `JOINT` (R21): the ticks left of the course that plays pass, and the next course begins. -/
def execJoint (s : State) : Host.Outcome State Fault Refusal :=
  let p := joint (s.dev, s.mem)
  .next { s with dev := p.1, mem := p.2 }

end Sys2Proof.Machine
end

