-- ==== Sys2Proof/Machine/View.lean ====
section
/-!
DEFINITION. What a read of a register shows (R8, R9): most fields show their value in the bank; those that follow from the state
of the block are worked out here.
-/
namespace Sys2Proof.Machine
open Reg

/-- A condition as a field's bit. -/
def bitN (b : Bool) : Nat := if b then 1 else 0

/-- The channels that meet a condition, as a mask. -/
def chMask (f : Fin 8 → Bool) : Nat := allCh.foldl (fun v n => if f n then setBitAt v n else v) 0


/-- A channel's field that follows from the state (R108, R179, R216); `none` for the others. -/
def Dev.viewCh (d : Dev) (f : Fld) (n : Fin 8) : Option Nat :=
  if f.id = CQ_STAT.DEPTH.id then some d.chs[n].laid.length
  else if f.id = LV_STAT.HOLD.id then some (bitN (d.lvHold n))
  else if f.id = HV_STAT.STATE.id then some (d.hvState n)
  else none

/-- A field of the device that follows from the state (R432, R555, R559, R560, R567 to R572). -/
def Dev.viewPorter (d : Dev) (f : Fld) : Option Nat :=
  let p := d.porter
  if f.id = PORTER_STATUS.FAULT.id then some (bitN (d.get PORTER_FAULT.CAUSE ≠ 0))
  else if f.id = PORTER_STATUS.HALT.id then some (bitN p.halt)
  else if f.id = PORTER_STATUS.HALT_IN.id then some (bitN p.haltIn)
  else if f.id = PORTER_STATUS.CLR.id then some (bitN p.clr)
  else if f.id = PORTER_STATUS.HV_EN.id then some (bitN p.hvEn)
  else if f.id = PORTER_STATUS.HV_OFF.id then some (bitN p.hvOff)
  else if f.id = PORTER_STATUS.TSD.id then some (bitN (p.tsdLog || p.tsdHv.any id))
  else if f.id = PORTER_STATUS.CLERK_FAIL.id then some (bitN p.clerkFail)
  else if f.id = PORTER_STATUS.SAFE.id then some (chMask d.safe)
  else if f.id = RING_STAT.ALIGNED.id then some (bitN d.aligned)
  else if f.id = PORTER_STATUS.HV_DOWN.id then some (chMask (fun n => d.hvState n = 0 || d.hvState n = 6))
  else none

/-- A field that a requester's shadow or the live counter answers (R24, R25, R479). -/
def Dev.viewShadow (d : Dev) (r : Requester) (f : Fld) : Option Nat :=
  let x := d.shadow r
  if f.id = CRS_NOW_LO.NOW_LO.id then some (d.time.crs % 2 ^ 32)
  else if f.id = CRS_NOW_HI.NOW_HI.id then some x.hi
  else if f.id = CRS_TICK.CLEN.id then some x.clen
  else if f.id = CRS_TICK.TICK.id then some x.tick
  else if f.id = BB_TOD_CRS_HI.CRS_HI.id then some (x.tod.getD 0 0)
  else if f.id = BB_TOD_SEC_LO.SEC_LO.id then some (x.tod.getD 1 0)
  else if f.id = BB_TOD_SEC_HI.SEC_HI.id then some (x.tod.getD 2 0)
  else if f.id = BB_TOD_NS.NS.id then some (x.tod.getD 3 0)
  else none

/-- The time left of a STOP in ms (R476); the rounding is open (log entry 1). -/
def Dev.stopLeft (d : Dev) : Nat × Dev :=
  let k := d.bench.stopEnd - d.time.abs
  let b := d.freeBit
  if d.flag BB_STAT.STOPPED && !d.flag BB_STOP.UNTIL_RESUME then
    if k % 250000 = 0 then (k / 250000, d) else (k / 250000 + bitN b.1, b.2)
  else (d.get BB_STOP.LEFT, d)

/-- Words S0 and S127 of the live set follow from the others (R285). -/
def Dev.liveWord (d : Dev) (n i : Nat) : Nat :=
  if i = 0 || i = 127 then (d.liveSet n).getD i 0 else d.get PLB_SET.WORD n i

/-- The value that a read of a field shows to a requester: of `CRS_LEN` the value last accepted (R8, R18). -/
def Dev.view (d : Dev) (r : Requester) (f : Fld) (n i : Nat) : Nat × Dev :=
  if f.id = BB_STOP.LEFT.id then d.stopLeft
  else if f.id = PLB_SET.WORD.id then (d.liveWord n i, d)
  else if f.id = CRS_LEN.LEN.id then ((d.time.lenPend.map (·.1)).getD (d.get CRS_LEN.LEN), d)
  else match d.viewPorter f, d.viewShadow r f with
    | some v, _ => (v, d)
    | none, some v => (v, d)
    | none, none =>
      if h : n < 8 then ((d.viewCh f ⟨n, h⟩).getD (d.get f n i), d) else (d.get f n i, d)

/-- The register has this field. -/
def Row.has (r : Row) (f : Fld) : Bool := r.cells.any (fun c => c.fld.id = f.id)

/-- The word of a register that waits for the next joint (R242, R264). -/
def Dev.awaited (d : Dev) (r : Row) (n i : Nat) : Option Nat :=
  let sv := d.chs[Fin.ofNat 8 n].sieve
  let cap := fun (x : Nat) => (sv.capNext.find? (fun y => y.1 = 2 * (i % 4) + x)).map (·.2)
  if r.has SNS_A.A_SEL then sv.snsNext
  else if r.has CAPk_CTRL.MODE then cap 0
  else if r.has CAPk_LEN.LEN then cap 1
  else none

/-- The cells of a register put together into its word; a WO field reads 0, an RW field what was written, `was` where that waits for the
joint (R8, R265). -/
def Dev.viewCells (r : Requester) (n i : Nat) (was : Option Nat) : List Cellf → Nat × Dev → Nat × Dev
  | [], p => p
  | c :: cs, p =>
    if c.acc = .wo then Dev.viewCells r n i was cs p
    else
      let v := p.2.view r c.fld n i
      let x := if c.acc = .rw then (was.map (fun w => w / 2 ^ c.lo)).getD v.1 else v.1
      Dev.viewCells r n i was cs (p.1 + x % 2 ^ c.fld.w * 2 ^ c.lo, v.2)

/-- The register that lies at a word address, with its indices (R611). -/
def regAt (a : Nat) : Option (Row × Nat × Nat) := regRows.findSome? (fun r => (r.hit a).map (fun x => (r, x.1, x.2)))

/-- The word that a read of the register at a word address shows; a reserved address reads 0 (R487). -/
def Dev.word (d : Dev) (r : Requester) (a : Nat) : Nat × Dev :=
  match regAt a with
  | none => (0, d)
  | some x => Dev.viewCells r x.2.1 x.2.2 (d.awaited x.1 x.2.1 x.2.2) x.1.cells (0, d)

/-- A whole read clears the RC fields of a register (R10). -/
def Dev.readClear (d : Dev) (a : Nat) : Dev :=
  match regAt a with
  | none => d
  | some x => x.1.cells.foldl (fun d c => if c.acc = .rc then d.clear c.fld x.2.1 x.2.2 else d) d

end Sys2Proof.Machine
end

