-- ==== Sys2Proof/Machine/Mailbox.lean ====
section
/-!
DEFINITION. The mailboxes (R495 to R505): doorbells and freed slots, and how the Clerk takes up a command: which one is next, the
checks of R499 in their order, and what an accepted command leaves behind.
-/
namespace Sys2Proof.Machine
open Reg

/-! ### Doorbells -/

/-- A doorbell of mailbox m names a slot (R497). -/
def Dev.ring_ (d : Dev) (m slot : Nat) : Dev :=
  if d.bit MBX_BUSYm.BUSY m 0 slot || d.bit MBX_DONEm.DONE m 0 slot then d.raise MBX_STATm.DB_REJ m
  else { d.setBit MBX_BUSYm.BUSY m 0 slot with rung := d.rung ++ [(m, slot)] }

/-- `MBX_DOORBELL` (R497). -/
def execMbxDoorbell (m : Fin 9) (slot : Fin 16) (s : State) : Host.Outcome State Fault Refusal :=
  .next (s.withDev (s.dev.ring_ m slot))

/-- `MBX_DONE_CLEAR` (R497): each slot whose bit is written 1 is FREE again. -/
def execMbxDoneClear (m : Fin 9) (w : BitVec 16) (s : State) : Host.Outcome State Fault Refusal :=
  .next (s.withDev (s.dev.set MBX_DONEm.DONE m 0 (s.dev.get MBX_DONEm.DONE m &&& (65535 - w.toNat))))

/-! ### The command in a slot -/

/-- A command as the Clerk reads it (R496): its mailbox and slot, `EPOCH`, whether M1[15:8] is 0, `LEN`, A0 to A13. -/
structure Call where
  m : Nat
  slot : Nat
  epoch : Nat
  clean : Bool
  len : Nat
  args : List Nat
  deriving DecidableEq, Repr

/-- Argument word k; beyond `LEN` it reads 0 (R496). -/
def Call.arg (c : Call) (k : Nat) : Nat := if k < c.len then c.args.getD k 0 else 0

/-- Bits [lo + w − 1 : lo] of argument word k. -/
def Call.bits (c : Call) (k lo w : Nat) : Nat := bitsOf (c.arg k) lo w

/-- Argument words k and k + 1 as one number, the low word first. -/
def Call.pair (c : Call) (k : Nat) : Nat := c.arg k + 2 ^ 32 * c.arg (k + 1)

/-- The channel of a channel mailbox. -/
def Call.ch (c : Call) : Fin 8 := Fin.ofNat 8 c.m

/-- The command in a slot. -/
def Dev.call (d : Dev) (m slot : Nat) : Call :=
  let w := fun k => d.mbx.word (slotWordAt m slot k)
  ⟨m, slot, w 1 / 2 ^ 16, bitsOf (w 1) 8 8 = 0, bitsOf (w 1) 0 4, (List.range 14).map (fun k => w (2 + k))⟩

/-- The opcode in a slot. -/
def Dev.opcodeIn (d : Dev) (m slot : Nat) : Nat := d.mbx.word (slotWordAt m slot 0) / 2 ^ 16

/-- The joint that a timed command names: 0 the earliest that R32 allows (R498). -/
def Call.land (c : Call) (d : Dev) : Nat := if c.pair 0 = 0 then d.time.crs + 2 else c.pair 0

/-- The joint does not lie too far ahead (R36). -/
def Call.near (c : Call) (d : Dev) : Bool := c.land d ≤ d.time.crs + 2 ^ 24

/-- The joint cannot be reached (R36). -/
def Call.late (c : Call) (d : Dev) : Bool := c.land d < d.time.crs + 2

/-- The buffer address is a multiple of 4 (R503). -/
def Call.aligned (c : Call) : Bool := c.arg 0 % 4 = 0

/-- The opcodes of MBX8 (R507). -/
def opsSys : List Nat :=
  [0x01, 0x10, 0x11, 0x12, 0x18, 0x20, 0x30, 0x31, 0x32, 0x40, 0x41, 0x42, 0x43, 0x50, 0x51, 0x52, 0x53, 0x58, 0x59, 0x60, 0x61,
   0x70, 0x71, 0x78, 0x79, 0x7A, 0x7B, 0x7C, 0x80, 0x90]

/-- The opcodes of MBX0 to MBX7 (R507). -/
def opsChan : List Nat :=
  [0x100, 0x101, 0x110, 0x111, 0x112, 0x113, 0x118, 0x120, 0x121, 0x122, 0x123, 0x130, 0x131, 0x132, 0x140, 0x141, 0x142, 0x143,
   0x144, 0x145, 0x150, 0x151, 0x152, 0x153, 0x160, 0x161, 0x170, 0x171]

/-- The opcodes that the boot loader serves in RECOVERY (R547). -/
def opsBoot : List Nat := [0x01, 0x10, 0x11, 0x12]

/-- The opcode exists for the mailbox (R499, R547). -/
def Dev.knows (d : Dev) (m op : Nat) : Bool :=
  if m = 8 then (if d.boot.recovery then opsBoot else opsSys).contains op else !d.boot.recovery && opsChan.contains op

/-- The Clerk takes commands (R502, R547). -/
def Dev.clerkUp (d : Dev) : Bool := d.get MBX_CLERK.STATE = 1 || d.boot.recovery

/-- The slot is the one whose command its mailbox's next is (R498). -/
def Dev.nextRung (d : Dev) (m slot : Nat) : Bool := d.clerkUp && d.rung.find? (fun x => x.1 = m) = some (m, slot)

/-! ### The checks of R499 -/

/-- How an accepted command stands when its meaning ends: it completes with a status and results; it goes on, its completion
recorded or already written; it has not been able to begin and stays rung. -/
inductive Answer
  | done (status : Nat) (res : List Nat)
  | goes
  | stays
  deriving DecidableEq, Repr

/-- A row of R507: opcode, the epoch that the command must carry, the `OWN` fields (number, index) of the functions it touches,
whether its arguments are in range, and its own conditions with its effect. -/
structure Order where
  op : Nat
  epoch : Dev → Call → Option Nat
  own : Dev → Call → List (Nat × Nat)
  legal : Dev → Memory → Call → Bool
  act : Dev → Memory → Call → (Dev × Memory) × Answer

/-- The command carries no epoch (R504). -/
def noEpoch (_ : Dev) (_ : Call) : Option Nat := none

/-- The command carries its channel's epoch (R504). -/
def chEpoch (d : Dev) (c : Call) : Option Nat := some (d.get ROLE_EPOCHn.EPOCH c.m)

/-- The command carries the epoch of the group in A2[3:0] (R504). -/
def grpEpoch (d : Dev) (c : Call) : Option Nat := some (d.get GRPg.EPOCH (c.bits 2 0 4))

/-- No function is touched. -/
def noOwn (_ : Dev) (_ : Call) : List (Nat × Nat) := []

/-- Every argument is in range. -/
def anyArgs (_ : Dev) (_ : Memory) (_ : Call) : Bool := true

/-- The `OWN` field of a function of the device. -/
def ownOf (f : Fld) (_ : Dev) (_ : Call) : List (Nat × Nat) := [(f.id, 0)]

/-- The `OWN` field of a function of the mailbox's channel. -/
def ownCh (f : Fld) (_ : Dev) (c : Call) : List (Nat × Nat) := [(f.id, c.m)]

/-- An `OWN` field reads 1. -/
def Dev.owned (d : Dev) (f : Nat × Nat) : Bool := d.get ⟨f.1, 1, 0, []⟩ f.2 0 ≠ 0

/-- The slot's command is begun, or taken up again after a wait. -/
def Dev.begun (d : Dev) (m slot : Nat) : Dev :=
  { d with rung := d.rung.filter (fun x => x ≠ (m, slot)), cmds := d.cmds.filter (fun x => !(x.m = m && x.slot = slot && x.opcode = 0)) }

/-- A command that has begun waits for something before it can go on: it runs in its functions meanwhile, so that an `OWN` written 1
waits for it (R6), and it is taken up again in its turn. -/
def Dev.stay (d : Dev) (c : Call) (rung own : List (Nat × Nat)) : Dev :=
  { d with rung := rung, cmds := d.cmds ++ [⟨c.m, c.slot, 0, 0, 0, 0, 0, own⟩] }

/-- The first failure of R499, steps 2 to 4, as a status. -/
def Order.refusal (o : Order) (d : Dev) (mem : Memory) (c : Call) : Option Nat :=
  if !c.clean || 14 < c.len || !o.legal d mem c then some 3
  else if (o.epoch d c).any (fun e => c.epoch ≠ e) then some 4
  else if (o.own d c).any d.owned then some 8
  else none

/-- The meaning of a command begun, or its refusal. -/
def Order.carry (o : Order) (d : Dev) (mem : Memory) (c : Call) : Dev × Memory :=
  match o.refusal d mem c with
  | some status => ((d.begun c.m c.slot).finish c.m c.slot status [], mem)
  | none =>
    let r := o.act (d.begun c.m c.slot) mem c
    match r.2 with
    | .done status res => (r.1.1.finish c.m c.slot status res, r.1.2)
    | .goes => r.1
    | .stays => (r.1.1.stay c d.rung (o.own d c), r.1.2)

/-- The Clerk takes up the command in a slot, if it is that mailbox's next and this row's, or no row's (R499). -/
def Order.serve (o : Order) (d : Dev) (mem : Memory) (m slot : Nat) : Dev × Memory :=
  if !d.nextRung m slot then (d, mem)
  else if !d.knows m (d.opcodeIn m slot) then ((d.begun m slot).finish m slot 2 [], mem)
  else if d.opcodeIn m slot ≠ o.op then (d, mem)
  else o.carry d mem (d.call m slot)

/-- A command row as a step of the block. -/
def Order.run (o : Order) (m : Fin 9) (slot : Fin 16) (s : State) : Host.Outcome State Fault Refusal :=
  let p := o.serve s.dev s.mem m slot
  .next { s with dev := p.1, mem := p.2 }

/-! ### What meanings share -/

/-- Reason 3 of BUSY (R500). -/
def busy3 : Answer := .done 1 [3]

/-- The command ends with OK and these results. -/
def okWith (res : List Nat) : Answer := .done 0 res

/-- A command that changes the block alone and completes. -/
def okDev (f : Dev → Call → Dev) (d : Dev) (mem : Memory) (c : Call) : (Dev × Memory) × Answer := ((f d c, mem), okWith [])

/-- A command that goes on: what its completion waits for, the parts still out, what it took, the functions it runs in (R6). -/
def Dev.enrol (d : Dev) (c : Call) (op land left took : Nat) (own : List (Nat × Nat)) : Dev :=
  { d with cmds := d.cmds ++ [⟨c.m, c.slot, op, land, left, 0, took, own⟩] }


/-- k bytes of a host buffer as read; what the reader does not give reads as 0. -/
def bufBytes (bytes : List (BitVec 8)) (k : Nat) : List (BitVec 8) := bytes.take k ++ List.replicate (k - bytes.length) 0

/-- A host buffer of k bytes is read: a read that fails or cannot be issued completes the command with TIMEOUT (R501). -/
def withBuf (buf : Option (List (BitVec 8))) (k : Dev → Call → Nat)
    (f : List (BitVec 8) → Dev → Memory → Call → (Dev × Memory) × Answer) (d : Dev) (mem : Memory) (c : Call) : (Dev × Memory) × Answer :=
  match buf with
  | none => ((d, mem), .done 0x0B [])
  | some b =>
    if d.mayIssue then f (bufBytes b (k d c)) (d.emit (.hostRead (c.pair 0) (k d c))) mem c else ((d, mem), .done 0x0B [])

/-- The entries of channel n laid anew, where an action in them no longer lands (R505); no re-lay of R33. -/
def Dev.relayQuiet (d : Dev) (mem : Memory) (n : Fin 8) (land : Nat) : Dev :=
  let c := d.chs[n]
  let keep := c.laid.filter (fun e => e.crs < land)
  match c.laid.drop keep.length with
  | [] => d
  | e :: es =>
    let start := match keep.getLast? with
      | some p => p.after
      | none => e.before
    let new := d.layRun mem n (es.length + 1) e.crs start
    d.onCh n (fun c => { c with laid := keep ++ new })

/-- The actions of channel n that meet a condition carry an epoch that has changed, and the entries in which they land are laid
without them (R505). -/
def Dev.goStale (d : Dev) (mem : Memory) (n : Fin 8) (hit : Act → Bool) : Dev :=
  match ((d.chs[n].acts.filter hit).map (·.land)) with
  | [] => d
  | l :: ls =>
    let d := d.onCh n (fun c => { c with acts := c.acts.map (fun a => if hit a then { a with stale := true } else a) })
    d.relayQuiet mem n (ls.foldl min l)

/-- Whether an action came from a mailbox. -/
def Act.fromMbx (a : Act) : Bool := match a.org with | .mbx _ _ => true | _ => false

end Sys2Proof.Machine
end

