-- ==== Sys2Proof/Machine/Dma.lean ====
section
/-!
DEFINITION. The DMA queues (R508 to R512): tails, enabling, resuming, and a descriptor that completes.
-/
namespace Sys2Proof.Machine
open Reg

/-- `DMA_TAIL_DOORBELL` (R508). -/
def execDmaTailDoorbell (q : Fin 8) (tail : BitVec 12) (s : State) : Host.Outcome State Fault Refusal :=
  .next (s.withDev (s.dev.set DMA_Qq_TAIL.TAIL q 0 tail.toNat))

/-- A queue has a descriptor to take: it runs, and the host has handed one over. -/
def Dev.dmaReady (d : Dev) (q : Nat) : Bool :=
  (d.flag DMA_Qq_CFG.EN q || d.dmaLast.contains q) && !d.flag DMA_Qq_STAT.STOPPED q
  && d.get DMA_Qq_HEAD.HEAD q ≠ d.get DMA_Qq_TAIL.TAIL q % 2 ^ d.get DMA_Qq_CFG.SIZE q

/-- `EN` written: a start puts `HEAD` and `TAIL` to 0, a stop lets the descriptor in progress complete (R508, R512). -/
def Dev.dmaEnable (d : Dev) (q : Nat) (en : Bool) : Dev :=
  let on := d.flag DMA_Qq_CFG.EN q
  let rest := d.dmaLast.filter (fun x => x ≠ q)
  if en && !on then
    (({ d with dmaLast := rest }.raise DMA_Qq_CFG.EN q).set DMA_Qq_HEAD.HEAD q 0 0).set DMA_Qq_TAIL.TAIL q 0 0
  else if !en && on then
    { d.clear DMA_Qq_CFG.EN q with dmaLast := if d.dmaReady q && d.mayIssue then rest ++ [q] else rest }
  else d

/-- `DMA_ENABLE_WRITE` (R508, R512). -/
def execDmaEnableWrite (q : Fin 8) (en : Bool) (s : State) : Host.Outcome State Fault Refusal :=
  .next (s.withDev (s.dev.dmaEnable q en))

/-- `DMA_RESUME` (R511): the queue goes on from the next descriptor. -/
def execDmaResume (q : Fin 8) (s : State) : Host.Outcome State Fault Refusal :=
  .next (s.withDev (s.dev.clear DMA_Qq_STAT.STOPPED q))

/-- A descriptor's fields (R509). -/
structure DmaDesc where
  op : Nat
  irq : Bool
  rdAdv : Bool
  ch : Fin 8
  tap : Nat
  len : Nat
  host : Nat
  dev : Nat
  deriving DecidableEq, Repr

/-- The fields of the descriptor words G0 to G4. -/
def DmaDesc.ofWords (g : List (BitVec 32)) : DmaDesc :=
  let w := fun i => (g.getD i 0).toNat
  { op := bitsOf (w 0) 0 4, irq := bitAt (w 0) 8, rdAdv := bitAt (w 0) 12, ch := Fin.ofNat 8 (bitsOf (w 0) 16 3),
    tap := bitsOf (w 0) 20 2, len := bitsOf (w 1) 0 27, host := w 2 + 2 ^ 32 * w 3, dev := w 4 }

/-- A descriptor that moves no data (R509 to R511): a reserved operation, a length out of range, a tap with no ring or a wrong
place in it, a range of segment SRAM beyond a step table. -/
def Dev.dmaBad (d : Dev) (x : DmaDesc) : Bool :=
  x.len = 0 || 2 ^ 26 < x.len
  || (if x.op = 1 then x.len % 64 ≠ 0 || x.dev % 64 ≠ 0 || d.get CAPk_SIZE.SIZE x.ch x.tap ≤ x.dev
      else if x.op = 2 || x.op = 3 then 0x2000000 ≤ x.dev || 0x40000 < x.dev % 0x400000 + x.len
      else true)

/-- Bytes of a capture ring from an offset on, round its end (R510). -/
def ringBytes (mem : Memory) (base size : Nat) : Nat → Nat → List (BitVec 8)
  | _, 0 => []
  | ofs, k + 1 => mem.read (base + ofs % size) :: ringBytes mem base size (ofs + 1) k

/-- Data goes to host memory 64 bytes at a time; the blocks named meet an uncorrectable error and go out poisoned (R511). -/
def Dev.dmaBlocks (ue : List Nat) : Nat → Nat → List (BitVec 8) → Nat → Dev → Dev
  | 0, _, _, _, d => d
  | k + 1, addr, bytes, i, d =>
    let b := bytes.take 64
    let d := if ue.contains i then d.emit (.poisonWrite addr b.length) else d.emit (.hostWrite addr b)
    Dev.dmaBlocks ue k (addr + 64) (bytes.drop 64) (i + 1) d

/-- Data goes to host memory. -/
def Dev.dmaSend (d : Dev) (addr : Nat) (bytes : List (BitVec 8)) (ue : List Nat) : Dev :=
  if ue.isEmpty then d.emit (.hostWrite addr bytes) else Dev.dmaBlocks ue ((bytes.length + 63) / 64) addr bytes 0 d

/-- The blocks of a step-table read that hold a granule known to be uncorrectable (R352). -/
def Dev.sramUe (d : Dev) (x : DmaDesc) : List Nat :=
  let a := x.dev % 0x400000
  (d.sram.bad.filter (fun b => b.1 = x.dev / 0x400000 && b.2.1 = 0 && a < 64 * b.2.2.1 + 8 * b.2.2.2 + 8 && 64 * b.2.2.1 + 8 * b.2.2.2 < a + x.len)).map
    (fun b => (64 * b.2.2.1 + 8 * b.2.2.2 - a) / 64)

/-- Uncorrectable errors of a step table that a read meets in the blocks named count (R352). -/
def Dev.sramLost (d : Dev) (m : Memory) (x : DmaDesc) (ue : List Nat) : Dev :=
  let n := x.dev / 0x400000
  ue.eraseDups.foldl (fun d i => d.eccLost m n (d.get MEM_MAPn.STEP_BANK n) ((x.dev % 0x400000 + 64 * i) / 64)) d

/-- The blocks named of a capture ring's transfer meet uncorrectable bursts, each replayed twice (R391, R392): in the DRAM, or for a channel
that runs SRAM-only in its segment area, at a row that is open (R352, log entry 60). -/
def ringLost (x : DmaDesc) (base size : Nat) (p : Dev × Memory) (i : Nat) : Dev × Memory :=
  let a := base + (x.dev + 64 * i) % size
  if framesOf false ≤ a / 65536 then
    let f := p.1.free
    (f.2.eccLost p.2 x.ch (1 + f.1 % 15) (f.1 / 15 % 4096), p.2)
  else match p.1.servedBy x.ch (a / 65536) with
    | none => p
    | some r => dramRead x.ch r a 3 .lost 0 (p.1.replayed x.ch true, p.2)

/-- The blocks of a capture ring are read one after another through the capture port (R373). -/
def ringRead (x : DmaDesc) (base size : Nat) : Nat → Nat → Dev → Dev
  | _, 0, d => d
  | i, k + 1, d => ringRead x base size (i + 1) k (d.ringRequest x.ch (base + (x.dev + 64 * i) % size))

/-- `CAPk_RD` moves to the end of a transfer (R509); one that ends at the end of the ring is refused (R629). -/
def Dev.dmaAdvance (d : Dev) (x : DmaDesc) : Dev :=
  let size := d.get CAPk_SIZE.SIZE x.ch x.tap
  if (x.dev + x.len) % size = 0 then d.raise SIEVE_STAT.CFG_REJ x.ch else d.set CAPk_RD.RD x.ch x.tap ((x.dev + x.len) % size)

/-- The data of a legal descriptor moves: the block and memory after it, and its status (R510, R511). -/
def dmaMove (x : DmaDesc) (data : List (BitVec 8)) (hostErr : Bool) (ue : List Nat) (p : Dev × Memory) : (Dev × Memory) × Nat :=
  let d := p.1
  if x.op = 1 then
    let ring := d.getPair CAPk_BASE_LO.BASE_LO CAPk_BASE_HI.BASE_HI x.ch x.tap
    let size := d.get CAPk_SIZE.SIZE x.ch x.tap
    let ue := ue.filter (fun i => i < x.len / 64)
    let d := (ringRead x ring size 0 (x.len / 64) d).dmaSend x.host (ringBytes p.2 (dramAt x.ch ring) size x.dev x.len) ue
    let q := ue.eraseDups.foldl (ringLost x ring size) (d, p.2)
    ((if x.rdAdv then q.1.dmaAdvance x else q.1, q.2), if ue.isEmpty then 0 else 3)
  else if x.op = 2 then
    let ue := (ue ++ d.sramUe x).filter (fun i => 64 * i < x.len)
    (((d.dmaSend x.host (p.2.readBytes (sramAt x.dev) x.len) ue).sramLost p.2 x ue, p.2), if ue.isEmpty then 0 else 3)
  else
    let bytes := if hostErr then data.take x.len else bufBytes data x.len
    let d := (d.emit (.hostRead x.host x.len)).healGranules x.dev bytes.length
    (bar4Bytes (d, p.2) x.dev bytes, if hostErr then 2 else 0)

/-- A descriptor completes (R511): its completion word, its flag, the queue's place, and its vector (R493). -/
def Dev.dmaEnd (d : Dev) (q status : Nat) (irq : Bool) : Dev :=
  let head := d.get DMA_Qq_HEAD.HEAD q
  let base := 4096 * d.get DMA_Qq_BASE_LO.BASE_LO q + 2 ^ 32 * d.get DMA_Qq_BASE_HI.BASE_HI q
  let stop := status = 1 || status = 2
  let d := d.emit (.hostWrite (base + 32 * head + 24) (leBytes 4 (2 ^ 31 + 2 ^ 24 * status)))
  let d := d.set DMA_Qq_HEAD.HEAD q 0 ((head + 1) % 2 ^ d.get DMA_Qq_CFG.SIZE q)
  let d := ((d.raiseIf (status = 1) DMA_Qq_STAT.BAD_DESC q).raiseIf (status = 2) DMA_Qq_STAT.HOST_ERR q).raiseIf (status = 3) DMA_Qq_STAT.DEV_UE q
  let d := if stop then (d.raise DMA_Qq_STAT.STOPPED q).set DMA_Qq_STAT.ERR_IDX q 0 head else d
  let d : Dev := { d with dmaLast := d.dmaLast.filter (fun x => x ≠ q) }
  if irq || stop then d.vector (18 + q) else d

/-- A power state holds the descriptor back (R532). -/
def Dev.dmaWaits (d : Dev) (x : DmaDesc) : Bool := (x.op = 1 && d.get PWR_STAT.STATE ≠ 0) || d.asleep

/-- `DMA_DESCRIPTOR_DONE` (R511): `g` are the words G0 to G4 that the device reads, `data` what it reads of host memory, `hostErr`
says that such a read, the descriptor's own included, fails, `ue` names the 64-byte blocks whose device read meets an uncorrectable error. -/
def execDmaDescriptorDone (q : Fin 8) (g : List (BitVec 32)) (data : List (BitVec 8)) (hostErr : Bool) (ue : List Nat) (s : State) :
    Host.Outcome State Fault Refusal :=
  let d := s.dev
  let x := DmaDesc.ofWords g
  if !d.dmaReady q || !d.mayIssue || d.dmaWaits x then .next s
  else if hostErr && x.op ≠ 3 then .next (s.withDev (d.dmaEnd q 2 x.irq))
  else if d.dmaBad x then .next (s.withDev (d.dmaEnd q 1 x.irq))
  else
    let r := dmaMove x data hostErr ue (d, s.mem)
    .next { s with dev := r.1.1.dmaEnd q r.2 x.irq, mem := r.1.2 }

end Sys2Proof.Machine
end

