-- ==== Sys2Proof/Machine/Host.lean ====
section
/-!
DEFINITION. The PCIe link and the resets of the host port (R482 to R484, R514, R517, R537).
-/
namespace Sys2Proof.Machine
open Reg

/-- The vectors that wait and may now be sent go out, in the order in which they came (R484, R514; log entry 31). -/
def Dev.sendHeld (d : Dev) : Dev :=
  let go := d.port.held.filter d.maySend
  let d : Dev := { d with port := { d.port with held := d.port.held.filter (fun v => !d.maySend v) } }
  go.foldl (fun d v => d.emit (.msix v)) d

/-- Every queue stops and its registers take their reset values (R517). -/
def Dev.dmaReset (d : Dev) : Dev :=
  let d : Dev := (List.range 8).foldl (fun d q =>
    [DMA_Qq_BASE_LO.BASE_LO, DMA_Qq_BASE_HI.BASE_HI, DMA_Qq_CFG.EN, DMA_Qq_CFG.SIZE, DMA_Qq_TAIL.TAIL, DMA_Qq_HEAD.HEAD,
      DMA_Qq_STAT.STOPPED, DMA_Qq_STAT.ERR_IDX, DMA_Qq_STAT.HOST_ERR, DMA_Qq_STAT.DEV_UE, DMA_Qq_STAT.BAD_DESC].foldl
      (fun d f => d.set f q 0 (f.reset 0)) d) d
  { d with dmaLast := [] }

/-- `MSN_RQ_CFG.EN` is cleared and the outstanding SERVICED requests are freed (R517). -/
def Dev.requestsFree (d : Dev) : Dev :=
  let tags := d.mason.reqs.map (·.tag)
  let d : Dev := { d with mason := { d.mason with
    reqs := []
    freed := d.mason.freed ++ tags
    comps := d.mason.comps.map (fun c => (c.1, c.2 || tags.contains c.1)) } }
  (d.clear MSN_RQ_CFG.EN).compHead

/-- The link goes down (R517). -/
def Dev.pcieDown (d : Dev) : Dev :=
  let d : Dev := { d.dmaReset.requestsFree with port := { d.port with up := false } }
  (d.set HP_LINK.WIDTH 0 0 0).set HP_LINK.RATE 0 0 0

/-- The effects that PERST_N, a function level reset and a hot reset share (R517): a command that the Clerk has begun goes on, one that was
rung and not begun is gone with its `BUSY` (log entry 89, DEDUCED). -/
def Dev.hostReset (d : Dev) : Dev :=
  let d := d.dmaReset.requestsFree
  let d := ((((d.clear REG_ERR.VALID).set REG_ERR.CAUSE 0 0 0).clear REG_ERR.WRITE).set REG_ERR.BAR 0 0 0).set REG_ERR.COUNT 0 0 0
  let d := d.set HP_EVIRQ.PEND 0 0 0
  let d := (List.range 9).foldl (fun d m => ((d.set MBX_BUSYm.BUSY m 0 0).set MBX_DONEm.DONE m 0 0).clear MBX_STATm.DB_REJ m) d
  let d := ((d.set MBX_NOTE_HEAD.HEAD 0 0 0).set MBX_NOTE_TAIL.TAIL 0 0 0).set MBX_NOTE_TAIL.LOST 0 0 0
  { d with port := { up := d.port.up, perst := d.port.perst }
           rung := d.rung.filter (fun x => d.cmds.any (fun c => c.m = x.1 && c.slot = x.2 && c.opcode = 0)) }

/-- `PERST_N` falls or rises (R517, R537). -/
def execPerstN (low : Bool) (s : State) : Host.Outcome State Fault Refusal :=
  let d := s.dev
  let d : Dev := { d with port := { d.port with perst := low } }
  .next (s.withDev (if low then d.pcieDown.hostReset else d))

/-- `FUNCTION_LEVEL_RESET` (R517): the link stays as it is. -/
def execFunctionLevelReset (s : State) : Host.Outcome State Fault Refusal :=
  if s.dev.port.up then .next (s.withDev s.dev.hostReset) else .next s

/-- `HOT_RESET` (R517): the link trains again. -/
def execHotReset (s : State) : Host.Outcome State Fault Refusal :=
  if s.dev.port.up then .next (s.withDev s.dev.pcieDown.hostReset) else .next s

/-- `LINK_DOWN` (R517). -/
def execLinkDown (s : State) : Host.Outcome State Fault Refusal :=
  if s.dev.port.up then .next (s.withDev s.dev.pcieDown) else .next s

/-- Lanes of a trained link. -/
def lanesOf : LinkWidth → Nat
  | .x1 => 1
  | .x2 => 2
  | .x4 => 4

/-- `PCIE_LINK_UP` (R330, R482, R537): `rate` 0 to 3 stands for 2.5, 5, 8 and 16 GT/s. -/
def execPcieLinkUp (width : LinkWidth) (rate : Fin 4) (s : State) : Host.Outcome State Fault Refusal :=
  let d := s.dev
  if d.port.perst || !d.boot.up || d.port.up then .next s
  else
    let d : Dev := { d with port := { d.port with up := true } }
    let d := (d.set HP_LINK.WIDTH 0 0 (lanesOf width)).set HP_LINK.RATE 0 0 (rate.val + 1)
    .next (s.withDev ((d.set MSN_BW_EFF.LANES 0 0 (lanesOf width)).bwShow.sendHeld))

/-- `CONFIG_SPACE_WRITE` (R484, R514): Bus Master Enable, D3hot, MSI-X Enable and Function Mask as the write leaves them. -/
def execConfigSpaceWrite (bme d3 msix mask : Bool) (s : State) : Host.Outcome State Fault Refusal :=
  let d := s.dev
  if !d.port.up then .next s
  else .next (s.withDev { d with port := { d.port with bme := bme, d3 := d3, msixOn := msix, allMask := mask } }.sendHeld)

end Sys2Proof.Machine
end

