-- ==== Sys2Proof/Machine/Bus.lean ====
section
/-!
DEFINITION. Register accesses over PCIe and I2C (R4 to R10, R485 to R491, R573 to R575, R613, R614, R625).
-/
namespace Sys2Proof.Machine
open Reg

/-- What a command of the block does. -/
abbrev Meaning := State → Host.Outcome State Fault Refusal

/-- Meanings one after the other. -/
def runAll : List Meaning → State → State
  | [], s => s
  | f :: fs, s => match f s with
    | .next t => runAll fs t
    | _ => runAll fs s

/-- A change of the block alone, as a meaning. -/
def onDev (f : Dev → Dev) : Meaning := fun s => .next (s.withDev (f s.dev))

/-! ### One register -/

/-- The `OWN` fields (R4). -/
def ownIds : List Nat := [CRS_CTRL.OWN, PORTER_CTRL.OWN, PWR_CTRL.OWN, EVL_CTRL.OWN, RING_CTRL.OWN, MEM_CTRL.OWN, STK_CTRL.OWN,
  BB_CTRL.OWN, SEQ_CTRL.OWN, CQ_CTRL.OWN, DDS_CTRL.OWN, LV_CTRL.OWN, HV_CTRL.OWN, SIEVE_CTRL.OWN, PLB_CTRL.OWN, DMC_CTRL.OWN,
  MSN_CTRL.OWN].map (·.id)

/-- A write of an `OWN` field (R6): 1 waits for the commands that the Clerk is executing for the function. -/
def Dev.ownWrite (d : Dev) (f : Fld) (n v : Nat) : Dev :=
  let d : Dev := { d with ownWait := d.ownWait.filter (fun x => x ≠ (f.id, n)) }
  if v = 0 then d.clear f n
  else if d.flag f n then d
  else { d with ownWait := d.ownWait ++ [(f.id, n)] }.settleOwn

/-- The bits of a field that a write enables, in place. -/
def Cellf.part (c : Cellf) (w : Nat) : Nat := w / 2 ^ c.lo % 2 ^ c.fld.w

/-- A field's value with the enabled bits replaced. -/
def mixBits (wd old v m : Nat) : Nat := ((2 ^ wd - 1) ^^^ m) &&& old ||| (v &&& m)

/-- A write to one field, by its type (R8). -/
def Dev.cellWrite (d : Dev) (n i w m : Nat) (c : Cellf) : Dev :=
  let v := c.part w
  let e := c.part m
  let old := d.get c.fld n i
  if e = 0 then d
  else match c.acc with
    | .rw => if ownIds.contains c.fld.id then d.ownWrite c.fld n v else d.set c.fld n i (mixBits c.fld.w old v e)
    | .w1c => d.set c.fld n i (((2 ^ c.fld.w - 1) ^^^ (v &&& e)) &&& old)
    | .w1s => d.set c.fld n i (old ||| (v &&& e))
    | _ => d

/-- A write to the fields of a register but those named, by their types (R8, R9, R488). -/
def Row.plain (r : Row) (n i w m : Nat) (skip : List Fld) : Meaning :=
  onDev (fun d => (r.cells.filter (fun c => !skip.any (fun f => f.id = c.fld.id))).foldl (fun d c => d.cellWrite n i w m c) d)

/-- The word that a write leaves in the settable fields, with what it gives to the others in its enabled bits (R488); one that waits for
the joint is what a later write of other bytes goes into. -/
def Dev.merged (d : Dev) (r : Row) (n i w m : Nat) : Nat :=
  let was := d.awaited r n i
  r.cells.foldl (fun x c => x + 2 ^ c.lo * (if c.acc = .rw || c.acc = .rwl
    then mixBits c.fld.w ((was.map c.part).getD (d.get c.fld n i)) (c.part w) (c.part m) else c.part w &&& c.part m)) 0

/-- A field whose legal range the spec gives without saying what a value outside it does: such a write leaves a free value in the
range (log entry 1). -/
def Dev.setRange (d : Dev) (f : Fld) (n i lo hi v : Nat) : Dev :=
  if lo ≤ v && v ≤ hi then d.set f n i v
  else let x := d.free; x.2.set f n i (lo + x.1 % (hi + 1 - lo))

/-! ### The meanings of writes (R488, R611)

A register write that a row of the table describes has that row's meaning. `v` is the merged word, `m` the enabled bits. -/

/-- Meanings under a condition. -/
def onlyIf (b : Bool) (f : Meaning) : List Meaning := if b then [f] else []

/-- The urgent actions (R506). -/
def urgent (v : Nat) : List Meaning :=
  if bitsOf v 24 8 ≠ 0xC5 then []
  else match bitsOf v 8 3 with
    | 1 => [execUrgentQuiet (BitVec.ofNat 8 v)]
    | 2 => [execUrgentRelease (BitVec.ofNat 8 v)]
    | 3 => [execUrgentHalt]
    | 4 => [execUrgentHvOff]
    | 5 => [execUrgentClerkReset]
    | _ => []

/-- The course, Porter, mailbox, host-port and power blocks. -/
def lowWrite (x : WriteNews) (r : Row) (n v : Nat) (plain : List Fld → Meaning) : List Meaning :=
  if r.has CRS_LEN.LEN then [execCrsLenWrite (BitVec.ofNat 32 v)]
  else if r.has PORTER_FAULT.CAUSE then [execPorterFaultClear (BitVec.ofNat 14 v)]
  else if r.has PORTER_HALT.REL then plain [] :: onlyIf (bitsOf v 24 8 = 0xC5 && bitAt v 16) execPorterHaltRel
  else if r.has PORTER_CLR.HV_OFF then onlyIf (bitAt v 0) execPorterClrHvOff ++ onlyIf (bitAt v 1) execPorterClrTsd
  else if r.has PORTER_WDT.KICK then onlyIf (bitAt v 16) (execWdtKick .host)
  else if r.has PORTER_HWD.TMO then [execHwdWrite (BitVec.ofNat 32 v)]
  else if r.has PORTER_HWD_KICK.KEY then onlyIf (bitsOf v 24 8 = 0xC5) execHwdKick
  else if r.has MBX_DBm.SLOT then [execMbxDoorbell (Fin.ofNat 9 n) (Fin.ofNat 16 v)]
  else if r.has MBX_DONEm.DONE then [execMbxDoneClear (Fin.ofNat 9 n) (BitVec.ofNat 16 v)]
  else if r.has MBX_URGENT.KEY then urgent v
  else if r.has HP_EVIRQ.PEND then [execHpEvirqAck (BitVec.ofNat 8 v)]
  else if r.has PWR_CTRL.GO then plain [] :: onlyIf (bitAt v 0) (execPwrGo (BitVec.ofNat 2 (v / 2 ^ 16)))
  else if r.has STK_SCRUB.SRAM_T then [execStkScrubWrite (BitVec.ofNat 32 v)]
  else if r.has STK_CMD.SAVE then
    plain [] :: (onlyIf (bitAt v 0) (execStkSegTest (Fin.ofNat 8 (bitsOf v 4 3)) x.passed) ++ onlyIf (bitAt v 8) (execStkSave x.stored))
  else if r.has MEM_MT.START then if bitAt v 0 then [execMemMtStart (BitVec.ofNat 32 v)] else [plain []]
  else [plain []]

/-- The event, ring, bench and DMA blocks. -/
def highWrite (a : Nat) (r : Row) (n i v m : Nat) (d : Dev) (plain : List Fld → Meaning) : List Meaning :=
  if r.has EVL_FIRE_LO.FIRE_LO then [execEvlFireWrite (BitVec.ofNat 64 v)]
  else if r.has EVL_FIRE_HI.FIRE_HI then [execEvlFireWrite (BitVec.ofNat 64 (2 ^ 32 * v))]
  else if r.has EVS_FIRE.ID then [execEvsFireWrite (BitVec.ofNat 32 v)]
  else if r.has EVL_SRCn_r.SLOT_LO then [execEvlSrcWrite (Fin.ofNat 64 n) (Fin.ofNat 4 i) (BitVec.ofNat 32 v)]
  else if r.has EVL_DSTn_r.SLOT_LO then [execEvlDstWrite (Fin.ofNat 64 n) (Fin.ofNat 8 i) (BitVec.ofNat 32 v)]
  else if r.has RING_CTRL.ROLE then
    plain [RING_CTRL.ROLE] :: onlyIf (v % 4 ≠ d.get RING_CTRL.ROLE) (execRingRoleWrite (BitVec.ofNat 2 v))
  else if r.has RING_CMD.JOIN then
    onlyIf (bitAt v 0) execRingJoinCmd ++ onlyIf (bitAt v 1) execRingRejoinCmd ++ onlyIf (bitAt v 2) execRingRecalCmd
  else if r.has RING_MTX_CTRL.GO then if bitAt v 30 then [execRingMsgGo (BitVec.ofNat 32 v)] else [plain []]
  else if r.has RING_MRX_POP.POP then onlyIf (bitAt v 0) execRingMrxPop
  else if r.has BB_PLCA.ID then [execBbPlcaWrite (BitVec.ofNat 32 v)]
  else if r.has BB_PTP_CTRL.EN then
    [onDev (fun d => if 127 < bitsOf v 8 8 then d.raise BB_STAT.CFG_REJ else d.ptpWrite v)]
  else if 0x8200 ≤ a && a < 0x8400 then [execBbFilterWrite (Fin.ofNat 16 n) (Fin.ofNat 5 (a % 0x20 / 4)) (BitVec.ofNat 32 v)]
  else if 0x8400 ≤ a && a < 0x8800 then [execBbTemplateWrite (Fin.ofNat 16 n) (Fin.ofNat 10 (a % 0x40 / 4)) (BitVec.ofNat 32 v)]
  else if r.has BB_HTX_CTRL.GO then if bitAt v 29 then [execBbHtxGo (BitVec.ofNat 32 v)] else [plain []]
  else if r.has BB_RXQ_04.POP then onlyIf (bitAt v 0) execBbRxqPop
  else if r.has DMA_Qq_BASE_LO.BASE_LO || r.has DMA_Qq_BASE_HI.BASE_HI then onlyIf (!d.flag DMA_Qq_CFG.EN n) (plain [])
  else if r.has DMA_Qq_CFG.EN then
    onlyIf (m % 16 ≠ 0 && !d.flag DMA_Qq_CFG.EN n) (onDev (fun d => d.setRange DMA_Qq_CFG.SIZE n 0 4 12 (v % 16)))
      ++ onlyIf (bitAt m 31) (execDmaEnableWrite (Fin.ofNat 8 n) (bitAt v 31)) ++ onlyIf (bitAt v 16) (execDmaResume (Fin.ofNat 8 n))
  else if r.has DMA_Qq_TAIL.TAIL then [execDmaTailDoorbell (Fin.ofNat 8 n) (BitVec.ofNat 12 v)]
  else [plain []]

/-- A channel's sequencer, course queue, phase engine, LV and HV blocks. -/
def chanWrite (r : Row) (n : Fin 8) (i v m : Nat) (d : Dev) (plain : List Fld → Meaning) : List Meaning :=
  if r.has SEQ_CMD.CMD then
    match v % 4 with
    | 1 => [execSeqCmdStart n]
    | 2 => [execSeqCmdStop n]
    | 3 => [execSeqCmdRestart n]
    | _ => []
  else if r.has SEQ_TRIG.START_POL then [execSeqTrigWrite n (BitVec.ofNat 32 v)]
  else if r.has SEQ_SNAP.REQ then plain [] :: onlyIf (bitAt v 16) (execSeqSnapReq n)
  else if r.has CQ_CTRL.AHEAD then plain [CQ_CTRL.AHEAD] :: onlyIf (bitAt m 0) (execCqAheadWrite n (BitVec.ofNat 4 v))
  else if r.has DDS_CTRL.APPLY then plain [] :: onlyIf (bitAt v 0) (execDdsApply n)
  else if r.has DDS_AMP.AMP_LV then [execDdsAmpWrite n (BitVec.ofNat 32 v)]
  else if r.has DDS_EPOCH_LO.EPOCH_LO then
    [execDdsEpochWrite n (BitVec.ofNat 64 (v + 2 ^ 32 * d.get DDS_EPOCH_HI.EPOCH_HI n))]
  else if r.has DDS_EPOCH_HI.EPOCH_HI then
    [execDdsEpochWrite n (BitVec.ofNat 64 (d.get DDS_EPOCH_LO.EPOCH_LO n + 2 ^ 32 * v))]
  else if r.has LV_CTRL.EN then plain [LV_CTRL.EN] :: onlyIf (bitAt m 0) (execLvEnWrite n (bitAt v 0))
  else if r.has QUIET_CODE_LV.CODE || r.has QUIET_CODE_HV.CODE || r.has MK_QUIET.LEVEL then [plain [], onDev (fun d => d.quietFollow n)]
  else if r.has LV_DLY.USER then [execLvDlyWrite n (BitVec.ofNat 14 v)]
  else if r.has HV_CTRL.EN then
    plain [HV_CTRL.EN] :: (onlyIf (bitAt m 0) (execHvEnWrite n (bitAt v 0)) ++ onlyIf (bitAt v 16) (execPdSwap n))
  else if r.has HV_CLAMP.HI then [execHvClampWrite n (BitVec.ofNat 32 v)]
  else if r.has HV_SLEW.STEP then [execHvSlewWrite n (BitVec.ofNat 32 v)]
  else if r.has HV_ILIM.ILIM then [execHvIlimWrite n (BitVec.ofNat 32 v)]
  else if r.has HV_RX.MODE then [execHvRxWrite n (BitVec.ofNat 32 v)]
  else if r.has HV_CLR.SC_CLR then onlyIf (bitAt v 0) (execScClr n) ++ onlyIf (bitAt v 1) (execTripClr n)
  else if r.has HV_PDb_w.COEF then [execHvPdCoefWrite n (Fin.ofNat 2 (i / 24)) (Fin.ofNat 24 i) (BitVec.ofNat 32 v)]
  else [plain []]

/-- The DRAM settings that the Clerk loads; their lock is open until bring-up ends, and a write of their bytes after it is refused (R372). -/
def dramSet (n v m : Nat) (d : Dev) (plain : List Fld → Meaning) : List Meaning :=
  let now : Meaning :=
    if m % 2 ^ 16 = 0 then onDev id
    else if d.boot.swept then onDev (fun d => d.raise DMC_STAT.CFG_REJ n)
    else onDev (fun d => ((d.setRange DMC_CTRL.GRAIN n 0 0 10 (v % 16)).set DMC_CTRL.BXOR n 0 (bitsOf v 11 1)).set DMC_CTRL.MIRROR n 0 (bitsOf v 12 1))
  plain [DMC_CTRL.PAGE] :: now :: onlyIf (bitAt m 16) (execDmcPageWrite (Fin.ofNat 8 n) (BitVec.ofNat 2 (v / 2 ^ 16)))

/-- A channel's Sieve, Plumb and DRAM blocks. -/
def chanWrite' (r : Row) (n : Fin 8) (i v m : Nat) (d : Dev) (plain : List Fld → Meaning) : List Meaning :=
  let k : Fin 4 := Fin.ofNat 4 i
  if r.has SIEVE_CTRL.RUN then
    plain [SIEVE_CTRL.RUN] :: (onlyIf (bitsOf v 1 1 ≠ d.get SIEVE_CTRL.SETTLE_MODE n) (execSieveCfgWrite n 12 (BitVec.ofNat 32 (v / 2)))
      ++ (if bitAt m 0 then if bitAt v 0 then [execSieveRunStart n] else [execSieveRunStop n] else []))
  else if r.has SNS_A.A_SEL then [execSnsAWrite n (BitVec.ofNat 32 v)]
  else if r.has TAPk_CFG.SRC then [execSieveCfgWrite n (Fin.ofNat 73 (i % 4)) (BitVec.ofNat 32 v)]
  else if r.has TAPk_SETTLE.SETTLE then [execSieveCfgWrite n (Fin.ofNat 73 (4 + i % 4)) (BitVec.ofNat 32 v)]
  else if r.has TAPk_GD.USER then [execSieveCfgWrite n (Fin.ofNat 73 (8 + i % 4)) (BitVec.ofNat 32 v)]
  else if r.has SOSs_c.COEF then [execSieveCfgWrite n (Fin.ofNat 73 (13 + i % 60)) (BitVec.ofNat 32 v)]
  else if r.has CMPk_LVL.HI then [execCmpWrite n k false (BitVec.ofNat 32 v)]
  else if r.has CMPk_CTRL.MODE then
    if bitAt m 0 then [execCmpWrite n k true (BitVec.ofNat 32 v)] else [plain [CMPk_CTRL.MODE]]
  else if r.has CAPk_CTRL.MODE then [execCapCtrlWrite n k false (BitVec.ofNat 32 v)]
  else if r.has CAPk_LEN.LEN then [execCapCtrlWrite n k true (BitVec.ofNat 32 v)]
  else if r.has CAPk_RD.RD then [execCapRdWrite n k (BitVec.ofNat 32 v)]
  else if r.has PLB_CTRL.MODE then
    plain [PLB_CTRL.MODE] :: (onlyIf (bitAt m 8) (execPlbModeWrite n (bitAt v 8)) ++ onlyIf (bitAt v 0) (execPlbLoad n))
  else if r.has PLB_REQ.KIND then [execPlbReqWrite n (BitVec.ofNat 2 v)]
  else if r.has DMC_CTRL.PAGE then dramSet n v m d plain
  else if r.has DMC_QOSp.TARGET then [execDmcQosWrite n (Fin.ofNat 7 i) (BitVec.ofNat 16 v)]
  else if r.has DMC_LP.RETAIN then [execDmcLpWrite n (BitVec.ofNat 32 v)]
  else [plain []]

/-- The Mason block. -/
def masonWrite (x : WriteNews) (r : Row) (n v m : Nat) (d : Dev) (plain : List Fld → Meaning) : List Meaning :=
  let on := d.flag MSN_RQ_CFG.EN
  if r.has MSN_CTRL.CHECK then plain [] :: onlyIf (bitAt v 0) execMsnCheck
  else if r.has MSN_BW.HOST then [execMsnBwWrite (BitVec.ofNat 32 v)]
  else if r.has MSN_BK.OUT then
    [onDev (fun d => (d.setRange MSN_BK.OUT 0 0 1 255 (bitsOf v 16 8)).setRange MSN_BK.TMO 0 0 1 60000 (bitsOf v 0 16))]
  else if r.has MSN_RQ_CFG.EN then
    onlyIf (m % 16 ≠ 0 && !on) (onDev (fun d => d.setRange MSN_RQ_CFG.SIZE 0 0 6 12 (v % 16))) ++ [plain [MSN_RQ_CFG.SIZE]]
  else if r.has MSN_CQ_CFG.SIZE then onlyIf (!on) (onDev (fun d => d.setRange MSN_CQ_CFG.SIZE 0 0 6 12 (v % 16)))
  else if r.has MSN_CQ_TAIL.TAIL then [execMsnCqDoorbell (BitVec.ofNat 12 v) x.entries]
  else if r.has MSN_EXT_CMD.IDX then onlyIf (m % 4096 ≠ 0) (execMsnExtCommit (BitVec.ofNat 12 v))
  else if r.has MSN_DESC_CMD.CMD then onlyIf (v % 4 = 1) execMsnDescWindowRead ++ onlyIf (v % 4 = 2) execMsnDescWindowWrite
  else if r.has MSN_HZn.LEAD then [execMsnHzWrite (Fin.ofNat 8 n) false (BitVec.ofNat 32 v)]
  else if r.has MSN_DHZn.DHZ then [execMsnHzWrite (Fin.ofNat 8 n) true (BitVec.ofNat 32 v)]
  else [plain []]

/-- A write of the enabled bits `m` of the register at a word address. -/
def regWrite (x : WriteNews) (a w m : Nat) (s : State) : State :=
  match regAt a with
  | none => s
  | some (r, n, i) =>
    if r.cells.all (fun c => c.part m = 0) then s
    else
      let v := s.dev.merged r n i w m
      let plain := r.plain n i w m
      runAll (if a < 0x2000 || (0x7000 ≤ a && a < 0x8000) then lowWrite x r n v plain
        else if a < 0x10000000 then highWrite a r n i v m s.dev plain
        else if a < 0x12000000 then
          if a % 0x400000 / 0x1000 < 6 then chanWrite r (Fin.ofNat 8 n) i v m s.dev plain
          else chanWrite' r (Fin.ofNat 8 n) i v m s.dev plain
        else masonWrite x r n v m s.dev plain) s

/-! ### MSI-X table and mailbox SRAM (R485, R514, R614) -/

/-- A word with the enabled bits replaced. -/
def mixWord (old w m : Nat) : Nat := mixBits 32 old w m

/-- A word of the MSI-X table: bit 0 of the fourth word of an entry masks its vector (PRESUMED, PCIe: log entry 31). -/
def Port.msixWord (p : Port) (x : Nat) : Nat :=
  if x % 16 = 12 then bitsOf p.masks (x / 16) 1 else leNat (p.table.readBytes x 4)

/-- A write to the MSI-X table. -/
def Dev.msixWrite (d : Dev) (x w m : Nat) : Dev :=
  let v := mixWord (d.port.msixWord x) w m
  if x % 16 = 12 then
    { d with port := { d.port with masks := if bitAt v 0 then setBitAt d.port.masks (x / 16) else clrBitAt d.port.masks (x / 16) } }.sendHeld
  else { d with port := { d.port with table := d.port.table.writeBytes x (leBytes 4 v) } }

/-- A word of the pending bit array. -/
def Port.pendWord (p : Port) (x : Nat) : Nat := if x = 0 then p.held.foldl setBitAt 0 else 0

/-- A write of a word of a BAR at a word address. -/
def wordWrite (x : WriteNews) (a w m : Nat) (s : State) : State :=
  if 0x9000 ≤ a && a < 0x9200 then s.withDev (s.dev.msixWrite (a - 0x9000) w m)
  else if 0xC000 ≤ a && a < 0xE800 then
    let d := s.dev
    let old := leNat (d.mbx.readBytes (a - 0xC000) 4)
    s.withDev { d with mbx := d.mbx.writeBytes (a - 0xC000) (leBytes 4 (mixWord old w m)) }
  else regWrite x a w m s

/-! ### Accesses over PCIe -/

/-- The address of a BAR0 or BAR2 offset in the register table. -/
def barAt (bar : Fin 3) (off : Nat) : Nat := if bar = 0 then off % 0x10000 else 0x10000000 + off

/-- The block answers an access (R533, R537): the Porter always, the rest once the system PLL has locked; in SLEEP `PWR_CTRL` and
`PWR_STAT` besides the Porter. -/
def Dev.answers (d : Dev) (bar : Fin 3) (off : Nat) : Bool :=
  let porter := bar = 0 && 0x200 ≤ off && off < 0x400
  porter || (d.boot.locked1 && (!d.asleep || (bar = 0 && 0x1000 ≤ off && off < 0x1008)))

/-- An access without an answer (R490, R533): in SLEEP the refusal is recorded once the device is awake. -/
def Dev.silent (d : Dev) (write : Bool) (bar off : Nat) : Dev :=
  if d.boot.locked1 && d.asleep then { d with power := { d.power with refused := d.power.refused ++ [(4, write, bar, off)] } }
  else d.refuse 4 write bar off

/-- Completer Abort. -/
def Dev.aborted (d : Dev) : Dev := { d with reply := { abort := true } }

/-- A refusal whose cause is one of several that apply; which is recorded is open (log entry 1). -/
def Dev.refuseOne (d : Dev) (causes : List Nat) (write : Bool) (bar off : Nat) : Dev :=
  match causes with
  | [c] => d.refuse c write bar off
  | _ => let x := d.free; x.2.refuse (causes.getD (x.1 % causes.length) 0) write bar off

/-- The rules of R489 that a request breaks: its cause codes. -/
def brokenRules (bar : Fin 3) (off : Nat) (enables : List Bool) (write poison : Bool) : List Nat :=
  let on := (List.range enables.length).filter (fun k => enables.getD k false)
  let blocks := (on.map (fun k => (off + k) / 8)).eraseDups
  (if bar ≠ 2 && 1 < blocks.length then [1] else [])
    ++ (if (bar ≠ 2 && !write && 8 < enables.length) || (bar = 2 && 512 < enables.length) then [2] else [])
    ++ (if write && poison then [3] else [])

/-- Data and enabled bits of the word of an aligned block that starts at `a`, from the bytes at `off` on. -/
def laneWord (off a : Nat) (bytes : List (Option (BitVec 8))) : Nat × Nat :=
  (List.range 4).foldl (fun p k =>
    if a + k < off then p
    else match bytes.getD (a + k - off) none with
      | some b => (p.1 + b.toNat * 2 ^ (8 * k), p.2 + 0xFF * 2 ^ (8 * k))
      | none => p) (0, 0)

/-- A write that keeps the rules, to BAR0 or BAR2: whole 8-byte writes of `EVL_FIRE` and `DDS_EPOCH` act at once, the other pairs' two
words show no difference; any other access acts on the lower word first (R488, R613, R625). -/
def busWrite (x : WriteNews) (bar : Fin 3) (off : Nat) (bytes : List (Option (BitVec 8))) (s : State) : State :=
  let b := off - off % 8
  let lo := laneWord off b bytes
  let hi := laneWord off (b + 4) bytes
  let a := barAt bar b
  let whole := lo.2 = 2 ^ 32 - 1 && hi.2 = 2 ^ 32 - 1
  let w := BitVec.ofNat 64 (lo.1 + 2 ^ 32 * hi.1)
  if whole && a = 0x2008 then runAll [execEvlFireWrite w] s
  else if whole && 0x10000000 ≤ a && a < 0x12000000 && a % 0x400000 = 0x3010 then
    runAll [execDdsEpochWrite (Fin.ofNat 8 (a % 0x10000000 / 0x400000)) w] s
  else
    let s := if lo.2 = 0 then s else wordWrite x a lo.1 lo.2 s
    if hi.2 = 0 then s else wordWrite x (a + 4) hi.1 hi.2 s

/-- The runs of enabled bytes of a BAR4 write, one after the other. -/
def sramWrite (off : Nat) (bytes : List (Option (BitVec 8))) (s : State) : State :=
  if bytes.all Option.isSome then runAll [execBar4Write (BitVec.ofNat 26 off) (bytes.filterMap id)] s
  else (List.range bytes.length).foldl (fun s k => match bytes.getD k none with
    | some b => runAll [execBar4Write (BitVec.ofNat 26 (off + k)) [b]] s
    | none => s) s

/-- `REG_WRITE` (R4 to R9, R487 to R489, R533, R537, R549): a write request of the host to a BAR, byte by byte from an offset on (`none`:
not enabled). -/
def execRegWrite (bar : Fin 3) (off : BitVec 26) (bytes : List (Option (BitVec 8))) (poison : Bool) (news : WriteNews) (s : State) :
    Host.Outcome State Fault Refusal :=
  let d := s.dev
  let o := off.toNat
  let broken := brokenRules bar o (bytes.map Option.isSome) true poison
  if !d.port.up then .next s
  else if !broken.isEmpty then .next (s.withDev (d.refuseOne broken true bar o))
  else if !d.answers bar o then .next (s.withDev (d.silent true bar o))
  else if bar = 2 then .next (sramWrite o bytes s)
  else if bar = 1 && !d.quietLoaded then .next (s.withDev (d.raise PWR_BOOT.EARLY))
  else .next (busWrite news bar o bytes s)

/-- What a read by a requester latches (R24, R479): `CRS_NOW_LO` read alone, `BB_TOD_CRS_LO` always. -/
def Dev.readLatch (d : Dev) (r : Requester) (a : Nat) (alone : Bool) : Dev :=
  match regAt a with
  | none => d
  | some (x, _, _) =>
    if x.has CRS_NOW_LO.NOW_LO && alone then d.latchNow r
    else if x.has BB_TOD_CRS_LO.CRS_LO then d.latchTod r
    else d

/-- The word that the host reads at a word address; both words of `CRS_NOW` read in one access are live (R24). -/
def Dev.wordRead (d : Dev) (a : Nat) (alone : Bool) : Nat × Dev :=
  if 0x9000 ≤ a && a < 0x9200 then (d.port.msixWord (a - 0x9000), d)
  else if 0x9800 ≤ a && a < 0x9808 then (d.port.pendWord (a - 0x9800), d)
  else if 0xC000 ≤ a && a < 0xE800 then (leNat (d.mbx.readBytes (a - 0xC000) 4), d)
  else
    let d := d.readLatch .host a alone
    if !alone && (regAt a).any (fun x => x.1.has CRS_NOW_HI.NOW_HI) then (d.time.crs / 2 ^ 32 % 2 ^ 32, d)
    else d.word .host a

/-- A read of the enabled bytes of one word: its value, and its RC fields cleared where all of it is read (R10). -/
def Dev.laneRead (d : Dev) (a m : Nat) (alone : Bool) : Nat × Dev :=
  if m = 0 then (0, d)
  else
    let p := d.wordRead a alone
    (p.1, if m = 2 ^ 32 - 1 then p.2.readClear a else p.2)

/-- A read of BAR0 or BAR2 that keeps the rules: the enabled bytes, lowest first. -/
def Dev.busRead (d : Dev) (bar : Fin 3) (off : Nat) (enables : List Bool) : Dev :=
  let b := off - off % 8
  let bytes := enables.map (fun e => if e then some (0 : BitVec 8) else none)
  let lo := (laneWord off b bytes).2
  let hi := (laneWord off (b + 4) bytes).2
  let alone := lo = 0 || hi = 0
  let p := d.laneRead (barAt bar b) lo alone
  let q := p.2.laneRead (barAt bar (b + 4)) hi alone
  let word := p.1 + 2 ^ 32 * q.1
  let data := (List.range enables.length).filterMap (fun k =>
    if enables.getD k false then some (BitVec.ofNat 8 (word / 2 ^ (8 * ((off + k) % 8)))) else none)
  { q.2 with reply := { data := data } }

/-- A byte that a BAR4 read shows (R305, R343): the step table, also in the bank that it has moved to (R356); nothing in the reserved range, in
a retired bank and in a segment area that nothing has been written into (R359, R364); and a free value in the segment area otherwise, whose
layout is not published (log entry 1). -/
def sramByte (mem : Memory) (off : Nat) (p : List (BitVec 8) × Dev) : List (BitVec 8) × Dev :=
  let bank := off % 0x400000 / 0x40000
  let n := off / 0x400000
  if 0x2000000 ≤ off then (p.1 ++ [0], p.2)
  else if bank = 0 || bank = p.2.get MEM_MAPn.STEP_BANK n then (p.1 ++ [mem.read (sramAt (0x400000 * n + off % 0x40000))], p.2)
  else if bitAt (p.2.get MEM_BANKn.RETIRED n) bank || p.2.sram.blank.contains n then (p.1 ++ [0], p.2)
  else let x := p.2.free; (p.1 ++ [BitVec.ofNat 8 x.1], x.2)

/-- The rows of step-table granules known to be uncorrectable that a read meets (R352), one for each granule. -/
def Dev.badRows (d : Dev) (off len : Nat) : List Nat :=
  let a := off % 0x400000
  (d.sram.bad.filter (fun b => b.1 = off / 0x400000 && b.2.1 = 0 && a < 64 * b.2.2.1 + 8 * b.2.2.2 + 8
    && 64 * b.2.2.1 + 8 * b.2.2.2 < a + len)).map (·.2.2.1)

/-- Uncorrectable granules of a step table are read again, and count again (R352). -/
def Dev.stepRowsLost (d : Dev) (mem : Memory) (n : Nat) (rows : List Nat) : Dev :=
  rows.foldl (fun d row => d.eccLost mem n (d.get MEM_MAPn.STEP_BANK n) row) d

/-- A BAR4 read (R343, R352). -/
def Dev.sramRead (d : Dev) (mem : Memory) (off : Nat) (enables : List Bool) (bad : Bool) : Dev :=
  let p := (List.range enables.length).foldl (fun p k => if enables.getD k false then sramByte mem (off + k) p else p) ([], d)
  { p.2 with reply := { data := p.1, poison := bad } }

/-- The SRAM that a read reaches finds an uncorrectable granule in the row of its first byte (R341, R352). -/
def Dev.readFound (d : Dev) (mem : Memory) (bar : Fin 3) (off : Nat) : Dev :=
  if bar = 2 then
    let bank := off % 0x400000 / 0x40000
    let n := off / 0x400000
    d.eccLost mem n (if bank = 0 then d.get MEM_MAPn.STEP_BANK n else bank) (off % 0x40000 / 64)
  else d.eccLost mem 9 0 ((off % 0x10000 - 0xC000) / 64)

/-- `REG_READ` (R10, R24, R487 to R490, R533, R537, R614): a read request of the host. `found` says what a read of BAR4 or of mailbox SRAM
meets there. -/
def execRegRead (bar : Fin 3) (off : BitVec 26) (enables : List Bool) (found : SramFinding) (s : State) : Host.Outcome State Fault Refusal :=
  let d := s.dev
  let o := off.toNat
  let broken := brokenRules bar o enables false false
  let sram := (bar = 2 && o < 0x2000000) || (bar = 0 && 0xC000 ≤ o % 0x10000 && o % 0x10000 < 0xE800)
  let hit := sram && decide (found = .lost)
  let again := if bar = 2 && !hit then d.badRows o enables.length else []
  if !d.port.up then .next s
  else if !broken.isEmpty then .next (s.withDev (d.refuseOne broken false bar o).aborted)
  else if !d.answers bar o then .next (s.withDev (d.silent false bar o).aborted)
  else
    let d := if hit then d.readFound s.mem bar o else d.stepRowsLost s.mem (o / 0x400000) again
    if bar = 2 then .next (s.withDev (d.sramRead s.mem o enables (hit || !again.isEmpty)))
    else
      let d := d.busRead bar o enables
      .next (s.withDev { d with reply := { d.reply with poison := hit } })

/-- `BAR_READ_TIMEOUT` (R490): a block has not answered a read within 40 µs; the Porter always answers. -/
def execBarReadTimeout (bar : Fin 3) (off : BitVec 26) (s : State) : Host.Outcome State Fault Refusal :=
  let d := s.dev
  if !d.port.up || (bar = 0 && 0x200 ≤ off.toNat && off.toNat < 0x400) then .next s
  else .next (s.withDev (d.refuse 4 false bar off.toNat).aborted)

/-! ### The I2C port (R573 to R575) -/

/-- I2C serves a read of this BAR0 offset in the state in force (R574). -/
def Dev.i2cServes (d : Dev) (a : Nat) : Bool :=
  let st := d.get PWR_STAT.STATE
  let on := d.boot.up
  a = 0 || (0x200 ≤ a && a < 0x400) || a = 0x1004 || a = 0x1008 || a = 0x1010
    || (on && st ≠ 3 && ((regAt a).any (fun x => x.1.has PWR_TLOGs.TEMP || x.1.has PWR_THVs.TEMP)))
    || (on && st ≤ 1 && a < 0x2000)

/-- One register read over I2C: its word, or 0 with a flag (R574, R618). -/
def i2cWord (marks : I2cMarks) (word : Nat) (p : List (BitVec 8) × Dev) (k : Nat) : List (BitVec 8) × Dev :=
  let a := 4 * ((word + k) % 0x4000)
  let d := p.2
  let q := if !d.i2cServes a then (0, d.raise I2C_STAT.DENY)
    else if marks.silent.contains k then (0, d.raise I2C_STAT.NO_ANSWER)
    else (d.readLatch (latched ⟨.i2c, marks.shared.contains k⟩) a true).word .i2c a
  (p.1 ++ leBytes 4 q.1, q.2)

/-- `I2C_READ` (R573, R574, R618): `count` registers from a word offset on; `marks` says which do not answer within 40 µs
and which are read in the core cycle of a host read. -/
def execI2cRead (word : BitVec 14) (count : Nat) (marks : I2cMarks) (s : State) : Host.Outcome State Fault Refusal :=
  let d := s.dev
  if !d.boot.vaon then .next s
  else
    let p := (List.range count).foldl (i2cWord marks word.toNat) ([], d)
    .next (s.withDev { p.2 with reply := { data := p.1 } })

/-- `I2C_WRITE` (R533, R575): `PWR_CTRL.REQ` and `GO`, and the urgent actions; a write of `PWR_CTRL` wakes the device. -/
def execI2cWrite (word : BitVec 14) (data : BitVec 32) (s : State) : Host.Outcome State Fault Refusal :=
  let d := s.dev
  let v := data.toNat
  if !d.boot.vaon then .next s
  else if 4 * word.toNat = 0x234 then .next (runAll (urgent v) s)
  else if 4 * word.toNat = 0x1000 && d.boot.up then
    let d := (d.wake 3).set PWR_CTRL.REQ 0 0 (bitsOf v 16 2)
    .next (s.withDev (if bitAt v 0 then d.powerGo (bitsOf v 16 2) 3 else d))
  else .next (s.withDev (d.raise I2C_STAT.DENY))

end Sys2Proof.Machine
end

