-- ==== Sys2Proof/Machine/MbxChan.lean ====
section
/-!
DEFINITION. The channel commands of R507 on the outputs, the phase engine, the Sieve and Plumb.
-/
namespace Sys2Proof.Machine
open Reg

/-! ### Outputs -/

/-- LV_SET (R174, R178, R181, R182, R187, R190). -/
def orderLvSet : Order :=
  { op := 0x120, epoch := chEpoch, own := ownCh LV_CTRL.OWN, legal := anyArgs
    act := okDev (fun d c =>
      let n := c.m
      let d := ((d.set LV_CTRL.EN n 0 (c.bits 0 0 1)).set LV_GAIN.GAIN n 0 (c.bits 1 0 16)).set LV_OFS.OFS n 0 (c.bits 2 0 16)
      let d := (d.set QUIET_CODE_LV.CODE n 0 (c.bits 3 0 16)).set MK_CTRL.DRIVE n 0 (c.bits 4 4 4)
      ((d.set MK_CTRL.EN n 0 (c.bits 4 0 4)).set MK_QUIET.LEVEL n 0 (c.bits 4 8 4)).quietFollow c.ch) }

/-- `LV_SET`. -/
def execLvSet (m : Fin 9) (slot : Fin 16) (s : State) : Host.Outcome State Fault Refusal := orderLvSet.run m slot s

/-- HV_SET: all or nothing (R201, R205, R226, R229, R239). -/
def orderHvSet : Order :=
  { op := 0x121, epoch := chEpoch, own := ownCh HV_CTRL.OWN
    legal := fun _ _ c => signed 16 (c.bits 4 0 16) ≤ signed 16 (c.bits 4 16 16) && slewOk (c.bits 5 16 3) (c.bits 5 0 15)
      && ilimOk (c.arg 6) && c.bits 7 0 2 ≠ 3
    act := okDev (fun d c =>
      let n := c.m
      let d := ((d.set HV_CTRL.SL_EN n 0 (c.bits 0 2 1)).set HV_CTRL.PD_EN n 0 (c.bits 0 1 1)).set HV_CTRL.EN n 0 (c.bits 0 0 1)
      let d := ((d.set HV_GAIN.GAIN n 0 (c.bits 1 0 16)).set HV_OFS.OFS n 0 (c.bits 2 0 16)).set QUIET_CODE_HV.CODE n 0 (c.bits 3 0 16)
      let d := ((d.clampWrite c.ch (c.bits 4 0 16) (c.bits 4 16 16)).set HV_SLEW.RATE n 0 (c.bits 5 16 3)).set HV_SLEW.STEP n 0 (c.bits 5 0 15)
      ((d.ilimSet c.ch (c.arg 6)).set HV_RX.MODE n 0 (c.bits 7 0 2)).set HV_RX.LINE n 0 (c.bits 7 4 2)) }

/-- `HV_SET`. -/
def execHvSet (m : Fin 9) (slot : Fin 16) (s : State) : Host.Outcome State Fault Refusal := orderHvSet.run m slot s

/-- HV_CLEAR (R233, R237). -/
def orderHvClear : Order :=
  { op := 0x122, epoch := chEpoch, own := ownCh HV_CTRL.OWN, legal := anyArgs
    act := okDev (fun d c =>
      let d := if c.bits 0 0 1 = 1 then d.scClr c.m else d
      if c.bits 0 1 1 = 1 then d.tripClr c.ch else d) }

/-- `HV_CLEAR`. -/
def execHvClear (m : Fin 9) (slot : Fin 16) (s : State) : Host.Outcome State Fault Refusal := orderHvClear.run m slot s

/-- DELAY (R185, R186, R213). -/
def orderDelay : Order :=
  { op := 0x123, epoch := chEpoch
    own := fun _ c => [(LV_CTRL.OWN.id, c.m), (HV_CTRL.OWN.id, c.m)]
    legal := anyArgs
    act := okDev (fun d c => (d.set LV_DLY.USER c.m 0 (c.bits 0 0 14)).set HV_DLY.USER c.m 0 (c.bits 1 0 14)) }

/-- `DELAY`. -/
def execDelay (m : Fin 9) (slot : Fin 16) (s : State) : Host.Outcome State Fault Refusal := orderDelay.run m slot s

/-! ### The phase engine -/

/-- An entry of the phase operand table from the four words of 16 bytes (R157, R158). -/
def Dev.phPut (d : Dev) (n i : Nat) (w : List Nat) : Dev :=
  (d.setPair PHO_O0.FREQ_LO PHO_O1.FREQ_HI n i (w.getD 0 0 + 2 ^ 32 * w.getD 1 0)).setPair PHO_O2.PHASE_LO PHO_O3.PHASE_HI n i
    (w.getD 2 0 + 2 ^ 32 * w.getD 3 0)

/-- PH_LOAD. -/
def orderPhLoad (buf : Option (List (BitVec 8))) : Order :=
  { op := 0x130, epoch := chEpoch, own := ownCh DDS_CTRL.OWN
    legal := fun _ _ c => c.aligned && c.bits 2 0 10 + c.bits 2 16 10 + 1 ≤ 1024
    act := withBuf buf (fun _ c => 16 * (c.bits 2 16 10 + 1)) (fun bytes d mem c =>
      let ws := leWords bytes
      (((List.range (c.bits 2 16 10 + 1)).foldl (fun d i => d.phPut c.m (c.bits 2 0 10 + i) (ws.drop (4 * i))) d, mem), okWith [])) }

/-- `PH_LOAD`. -/
def execPhLoad (m : Fin 9) (slot : Fin 16) (buf : Option (List (BitVec 8))) (s : State) : Host.Outcome State Fault Refusal :=
  (orderPhLoad buf).run m slot s

/-- PH_OFFSET (R169 to R171). -/
def orderPhOffset : Order :=
  { op := 0x131, epoch := chEpoch, own := ownCh DDS_CTRL.OWN
    legal := fun d _ c => c.near d
    act := fun d mem c =>
      if c.late d then ((d, mem), .done 6 [])
      else if d.flag DDS_STAT.APPLY_PEND c.m then ((d, mem), busy3)
      else
        let d := d.enrol c 0x131 (c.land d) 1 0 [(DDS_CTRL.OWN.id, c.m)]
        ((d.applyAccept c.ch (c.pair 2 % 2 ^ 48) (c.land d) (.mbx c.m c.slot), mem), .goes) }

/-- `PH_OFFSET`. -/
def execPhOffset (m : Fin 9) (slot : Fin 16) (s : State) : Host.Outcome State Fault Refusal := orderPhOffset.run m slot s

/-- PH_CFG (R154, R163). -/
def orderPhCfg : Order :=
  { op := 0x132, epoch := chEpoch, own := ownCh DDS_CTRL.OWN
    legal := fun _ _ c => c.bits 0 0 16 ≤ 0x8000 && c.bits 0 16 16 ≤ 0x8000
    act := fun d mem c =>
      if d.getPair DDS_EPOCH_LO.EPOCH_LO DDS_EPOCH_HI.EPOCH_HI c.m ≠ c.pair 1 && !d.seqIdle c.m then ((d, mem), busy3)
      else
        let d := (d.set DDS_AMP.AMP_LV c.m 0 (c.bits 0 0 16)).set DDS_AMP.AMP_HV c.m 0 (c.bits 0 16 16)
        ((d.setPair DDS_EPOCH_LO.EPOCH_LO DDS_EPOCH_HI.EPOCH_HI c.m 0 (c.pair 1), mem), okWith []) }

/-- `PH_CFG`. -/
def execPhCfg (m : Fin 9) (slot : Fin 16) (s : State) : Host.Outcome State Fault Refusal := orderPhCfg.run m slot s

/-! ### The Sieve -/

/-- A preset of R256: source, decimation, the chain's coefficients (b0, b1, b2, a1, a2) by section as round(value × 2^29). -/
structure Preset where
  src : Nat
  dec : Nat
  chain : List (List Int)
  settle : Nat
  deriving DecidableEq, Repr

/-- The chain BW2, to full precision (R256). -/
def chainBw2 : List (List Int) := [[110902543, 221805086, 110902543, -198388500, 105127760]]

/-- The chain BW4, to full precision (R256). -/
def chainBw4 : List (List Int) :=
  [[98732168, 197464337, 98732168, -176617472, 34675233], [135990214, 271980428, 135990214, -243266690, 250356634]]

/-- The presets of R256. -/
def presets : List Preset :=
  [⟨0, 1, [], 0⟩, ⟨0, 8, chainBw4, 32⟩, ⟨0, 64, chainBw4, 32⟩, ⟨0, 512, chainBw4, 32⟩,
   ⟨1, 1, [], 0⟩, ⟨1, 16, chainBw2, 16⟩, ⟨1, 128, chainBw4, 32⟩, ⟨1, 4096, chainBw4, 32⟩]

/-- Coefficients set in sections from `base` on. -/
def Dev.sosPut (d : Dev) (n base : Nat) (secs : List (List Int)) : Dev :=
  secs.zipIdx.foldl (fun d s => s.1.zipIdx.foldl (fun d c => d.set SOSs_c.COEF n (5 * (base + s.2) + c.2) (unsigned 32 c.1)) d) d

/-- TAP_SET: the tap takes the preset and is enabled; the CIC order of a preset that decimates by 1 is open (log entry 1). -/
def orderTapSet : Order :=
  { op := 0x140, epoch := chEpoch, own := ownCh SIEVE_CTRL.OWN
    legal := fun _ _ c => c.bits 0 8 4 < 8 && c.bits 0 16 4 + ((presets.getD (c.bits 0 8 4) ⟨0, 1, [], 0⟩).chain).length ≤ 12
    act := fun d mem c =>
      if d.flag SIEVE_STAT.RUNNING c.m then ((d, mem), busy3)
      else
        let n := c.m
        let k := c.bits 0 0 2
        let base := c.bits 0 16 4
        let p := presets.getD (c.bits 0 8 4) ⟨0, 1, [], 0⟩
        let f := d.free
        let d := if p.dec = 1 then f.2.set TAPk_CFG.CIC_N n k (1 + f.1 % 3) else d.set TAPk_CFG.CIC_N n k 3
        let d := ((d.set TAPk_CFG.SRC n k p.src).set TAPk_CFG.DEC n k p.dec).set TAPk_CFG.SOS_BASE n k base
        let d := ((d.set TAPk_CFG.SOS_NUM n k p.chain.length).set TAPk_CFG.EN n k 1).set TAPk_SETTLE.SETTLE n k p.settle
        (((d.sosPut n base p.chain).set TAPk_GD.SRC_USER n k 0, mem), okWith []) }

/-- `TAP_SET`. -/
def execTapSet (m : Fin 9) (slot : Fin 16) (s : State) : Host.Outcome State Fault Refusal := orderTapSet.run m slot s

/-- A denominator of a section whose magnitude is nonzero and below 2^−20 (R619). -/
def Dev.tinyDen (d : Dev) (n s : Nat) : Bool :=
  let x := d.delayDens n s
  (x.1 ≠ 0 && x.1.natAbs < 512) || (x.2 ≠ 0 && x.2.natAbs < 512)

/-- The group delay that the Clerk writes for tap k where a section of its that was loaded falls under R619. -/
def Dev.userDelay (d : Dev) (n : Nat) (loaded : List Nat) (d0 : Dev) (k : Nat) : Dev :=
  if (d.tapSections n k).any (fun s => loaded.contains s && d.tinyDen n s) then
    match d.delaySum 1 n k with
    | none => d0
    | some g =>
      let a := g.1 * (d.get TAPk_CFG.DEC n k * d.tapPeriod n k : Nat)
      let u := if 0 < g.2 then divRound a g.2.natAbs else divRound (-a) g.2.natAbs
      (d0.set TAPk_GD.SRC_USER n k 1).set TAPk_GD.USER n k (unsigned 28 u)
  else d0

/-- SOS_LOAD (R254, R619). -/
def orderSosLoad : Order :=
  { op := 0x141, epoch := chEpoch, own := ownCh SIEVE_CTRL.OWN
    legal := fun _ _ c => 1 ≤ c.bits 0 4 2 && c.bits 0 4 2 ≤ 2 && c.bits 0 0 4 + c.bits 0 4 2 ≤ 12
    act := fun d mem c =>
      if d.flag SIEVE_STAT.RUNNING c.m then ((d, mem), busy3)
      else
        let first := c.bits 0 0 4
        let num := c.bits 0 4 2
        let d := (List.range (5 * num)).foldl (fun d i => d.set SOSs_c.COEF c.m (5 * first + i) (c.arg (1 + i))) d
        ((([0, 1, 2, 3].foldl (d.userDelay c.m ((List.range num).map (· + first))) d), mem), okWith []) }

/-- `SOS_LOAD`. -/
def execSosLoad (m : Fin 9) (slot : Fin 16) (s : State) : Host.Outcome State Fault Refusal := orderSosLoad.run m slot s

/-- SIEVE_RUN (R242, R249, R250): `SETTLE_MODE` is locked while the Sieve runs. -/
def orderSieveRun : Order :=
  { op := 0x142, epoch := chEpoch, own := ownCh SIEVE_CTRL.OWN
    legal := fun d _ c => !d.flag SIEVE_STAT.RUNNING c.m || c.bits 0 1 1 = d.get SIEVE_CTRL.SETTLE_MODE c.m
    act := fun d mem c =>
      let on := c.bits 0 0 1 = 1
      if on && !d.flag SIEVE_STAT.RUNNING c.m && !d.sieveOk c.m then ((d, mem), .done 3 [])
      else
        let d := d.enrol c 0x142 (d.time.crs + 1) 1 (if on then 1 else 0) [(SIEVE_CTRL.OWN.id, c.m)]
        let d := (d.set SIEVE_CTRL.SETTLE_MODE c.m 0 (c.bits 0 1 1)).sieveRun c.ch on
        ((d.onCh c.ch (fun x => { x with sieve := { x.sieve with snsNext := some (c.arg 1) } }), mem), .goes) }

/-- `SIEVE_RUN`. -/
def execSieveRun (m : Fin 9) (slot : Fin 16) (s : State) : Host.Outcome State Fault Refusal := orderSieveRun.run m slot s

/-- CMP_SET (R262). -/
def orderCmpSet : Order :=
  { op := 0x143, epoch := chEpoch, own := ownCh SIEVE_CTRL.OWN
    legal := fun _ _ c => signed 16 (c.bits 1 0 16) ≤ signed 16 (c.bits 1 16 16) && c.bits 2 0 2 ≠ 3
    act := okDev (fun d c => (d.cmpWrite c.m (c.bits 0 0 2) false (c.arg 1)).cmpWrite c.m (c.bits 0 0 2) true (c.bits 2 0 2)) }

/-- `CMP_SET`. -/
def execCmpSet (m : Fin 9) (slot : Fin 16) (s : State) : Host.Outcome State Fault Refusal := orderCmpSet.run m slot s

/-- CAP_SET (R264). -/
def orderCapSet : Order :=
  { op := 0x145, epoch := chEpoch, own := ownCh SIEVE_CTRL.OWN
    legal := fun _ _ c => c.bits 1 0 2 ≠ 3 && c.bits 2 0 18 ≠ 0
    act := okDev (fun d c => (d.capWrite c.ch (c.bits 0 0 2) false (c.arg 1)).capWrite c.ch (c.bits 0 0 2) true (c.arg 2)) }

/-- `CAP_SET`. -/
def execCapSet (m : Fin 9) (slot : Fin 16) (s : State) : Host.Outcome State Fault Refusal := orderCapSet.run m slot s

/-! ### Plumb -/

/-- CAL_SLOT (R275, R276). -/
def orderCalSlot : Order :=
  { op := 0x150, epoch := chEpoch, own := ownCh PLB_CTRL.OWN
    legal := fun d _ c => c.bits 2 0 2 ≠ 3 && c.near d
    act := fun d mem c =>
      if c.late d then ((d, mem), .done 6 [])
      else if d.chs[c.ch].requested then ((d, mem), busy3)
      else
        let d := d.enrol c 0x150 (c.land d) 1 0 [(PLB_CTRL.OWN.id, c.m)]
        ((d.slotAccept c.ch (c.bits 2 0 2) (c.land d) (.mbx c.m c.slot), mem), .goes) }

/-- `CAL_SLOT`. -/
def execCalSlot (m : Fin 9) (slot : Fin 16) (s : State) : Host.Outcome State Fault Refusal := orderCalSlot.run m slot s

/-- CAL_MODE (R287). -/
def orderCalMode : Order :=
  { op := 0x151, epoch := chEpoch, own := ownCh PLB_CTRL.OWN, legal := anyArgs
    act := fun d mem c =>
      (((d.enrol c 0x151 (d.time.crs + 1) 1 0 [(PLB_CTRL.OWN.id, c.m)]).set PLB_CTRL.MODE c.m 0 (c.bits 0 0 1), mem), .goes) }

/-- `CAL_MODE`. -/
def execCalMode (m : Fin 9) (slot : Fin 16) (s : State) : Host.Outcome State Fault Refusal := orderCalMode.run m slot s

/-- CAL_SAVE (R285): it waits while the device may issue no request (R484). -/
def orderCalSave : Order :=
  { op := 0x152, epoch := noEpoch, own := noOwn
    legal := fun _ _ c => c.aligned
    act := fun d mem c =>
      if d.mayIssue then ((d.emit (.hostWrite (c.pair 0) (wordsBytes (d.liveSet c.m))), mem), okWith []) else ((d, mem), .stays) }

/-- `CAL_SAVE`. -/
def execCalSave (m : Fin 9) (slot : Fin 16) (s : State) : Host.Outcome State Fault Refusal := orderCalSave.run m slot s

/-- CAL_RESTORE (R288): it waits for a load that is pending, and completes at the next joint. -/
def orderCalRestore (buf : Option (List (BitVec 8))) : Order :=
  { op := 0x153, epoch := chEpoch, own := ownCh PLB_CTRL.OWN
    legal := fun _ _ c => c.aligned
    act := fun d mem c =>
      if d.chs[c.ch].plumb.load.isSome then ((d, mem), .stays)
      else withBuf buf (fun _ _ => 512) (fun bytes d mem c =>
        let ws := leWords bytes
        if !d.setLegal c.m ws || d.chs[c.ch].plumb.mode || d.flag PLB_CTRL.MODE c.m then ((d, mem), .done 3 [])
        else if !d.seqIdle c.m || d.chs[c.ch].slot.isSome || d.get PLB_STAT.STATE c.m ≠ 0 then ((d, mem), busy3)
        else
          let d := d.enrol c 0x153 (d.time.crs + 1) 1 0 [(PLB_CTRL.OWN.id, c.m)]
          ((d.onCh c.ch (fun x => { x with plumb := { x.plumb with load := some (some ws, some (c.m, c.slot)) } }), mem), .goes)) d mem c }

/-- `CAL_RESTORE`. -/
def execCalRestore (m : Fin 9) (slot : Fin 16) (buf : Option (List (BitVec 8))) (s : State) : Host.Outcome State Fault Refusal :=
  (orderCalRestore buf).run m slot s

end Sys2Proof.Machine
end

