-- ==== Sys2Proof/Machine/MbxMason.lean ====
section
/-!
DEFINITION. The commands of R507 that act on what the Mason and the DRAM controller hold: descriptors, extents, uploads, backing,
horizons and entry points, the at-risk check, capture rings, DRAM settings and drains.
-/
namespace Sys2Proof.Machine
open Reg

/-- The first number that is free, going round from a free start: which one an allocation takes is open (log entry 1). -/
def Dev.firstFree (d : Dev) (size : Nat) (used : List Nat) : Option Nat × Dev :=
  let f := d.free
  (((List.range (min size (used.length + 1))).map (fun k => (f.1 + k) % size)).find? (fun i => !used.contains i), f.2)

/-! ### Descriptors -/

/-- The descriptors in use: those whose latest `KIND` is not 3 (R79). -/
def Dev.descUsed (d : Dev) : List Nat :=
  (((d.mason.descPend ++ d.mason.descs).map (·.1)).eraseDups).filter (fun i => (Desc.ofWords (d.descLatest i)).kind ≠ 3)

/-- Argument words 1 to 8. -/
def Call.eight (c : Call) : List Nat := (List.range 8).map (fun k => c.arg (1 + k))

/-- DESC_WRITE (R79, R304, R339). -/
def orderDescWrite : Order :=
  { op := 0x30, epoch := noEpoch, own := ownOf MSN_CTRL.OWN
    legal := fun d _ c => bitAt (c.arg 0) 31 || d.descLegal (c.bits 0 0 20) c.eight
    act := fun d mem c =>
      if bitAt (c.arg 0) 31 then
        let f := d.firstFree (2 ^ 20) d.descUsed
        match f.1 with
        | none => ((d, mem), .done 5 [])
        | some i => if d.descLegal i c.eight then ((f.2.descAccept i c.eight, mem), okWith [i]) else ((d, mem), .done 3 [])
      else ((d.descAccept (c.bits 0 0 20) c.eight, mem), okWith [c.bits 0 0 20]) }

/-- `DESC_WRITE`. -/
def execDescWrite (m : Fin 9) (slot : Fin 16) (s : State) : Host.Outcome State Fault Refusal := orderDescWrite.run m slot s

/-- DESC_READ: the descriptor as last written. -/
def orderDescRead : Order :=
  { op := 0x31, epoch := noEpoch, own := noOwn, legal := anyArgs
    act := fun d mem c => ((d, mem), okWith (d.descView mem (c.bits 0 0 20))) }

/-- `DESC_READ`. -/
def execDescRead (m : Fin 9) (slot : Fin 16) (s : State) : Host.Outcome State Fault Refusal := orderDescRead.run m slot s

/-- DESC_FREE. -/
def orderDescFree : Order :=
  { op := 0x32, epoch := noEpoch, own := ownOf MSN_CTRL.OWN, legal := anyArgs
    act := fun d mem c =>
      let i := c.bits 0 0 20
      if (d.descView mem i).getD 6 0 % 256 ≠ 0 then ((d, mem), busy3)
      else
        let w := d.descLatest i
        ((d.descAccept i (w.set 1 (w.getD 1 0 ||| 3 * 2 ^ 28)), mem), okWith []) }

/-- `DESC_FREE`. -/
def execDescFree (m : Fin 9) (slot : Fin 16) (s : State) : Host.Outcome State Fault Refusal := orderDescFree.run m slot s

/-! ### Extents and backing -/

/-- An extent's words lie in their ranges (R325). -/
def extRange (w : List Nat) : Bool := extType w = 0 || (w.getD 2 0 ≠ 0 && (extType w ≠ 1 || w.getD 4 0 % 4096 = 0))

/-- EXT_SET (R326, R339): it waits for a commit that is pending. -/
def orderExtSet : Order :=
  { op := 0x40, epoch := noEpoch, own := ownOf MSN_CTRL.OWN
    legal := fun _ _ c => extRange c.eight
    act := fun d mem c =>
      let go := fun (d : Dev) (i : Nat) =>
        if d.extLegal i c.eight then
          let d := c.eight.zipIdx.foldl (fun d x => d.set MSN_EXTi_w.WORD i x.2 x.1) d
          let d := d.enrol c 0x40 0 1 0 [(MSN_CTRL.OWN.id, 0)]
          ((d.extAccept i c.eight (some (c.m, c.slot)), mem), Answer.goes)
        else ((d, mem), .done 3 [])
      if d.mason.extPend.isSome then ((d, mem), .stays)
      else if bitAt (c.arg 0) 31 then
        let f := d.firstFree 4096 (d.mason.exts.map (·.1))
        match f.1 with
        | none => ((d, mem), .done 5 [])
        | some i => go f.2 i
      else go d (c.bits 0 0 12) }

/-- `EXT_SET`. -/
def execExtSet (m : Fin 9) (slot : Fin 16) (s : State) : Host.Outcome State Fault Refusal := orderExtSet.run m slot s

/-- BACKING: request and completion rings (R327, R328, R621). -/
def orderBacking : Order :=
  { op := 0x43, epoch := noEpoch, own := ownOf MSN_CTRL.OWN
    legal := fun _ _ c => 6 ≤ c.bits 4 0 4 && c.bits 4 0 4 ≤ 11 && 6 ≤ c.bits 4 4 4 && c.bits 4 4 4 ≤ 12
    act := fun d mem c =>
      let a := c.bits 4 0 4
      let b := c.bits 4 4 4
      if d.flag MSN_RQ_CFG.EN && (d.get MSN_RQ_CFG.SIZE ≠ a || d.get MSN_CQ_CFG.SIZE ≠ b) then ((d, mem), busy3)
      else
        let d := (d.set MSN_RQ_BASE_LO.BASE_LO 0 0 (c.bits 0 12 20)).set MSN_RQ_BASE_HI.BASE_HI 0 0 (c.arg 1)
        let d := (d.set MSN_CQ_BASE_LO.BASE_LO 0 0 (c.bits 2 12 20)).set MSN_CQ_BASE_HI.BASE_HI 0 0 (c.arg 3)
        (((d.set MSN_RQ_CFG.SIZE 0 0 a).set MSN_CQ_CFG.SIZE 0 0 b).set MSN_RQ_CFG.EN 0 0 (c.bits 4 16 1), mem) |> (·, okWith []) }

/-- `BACKING`. -/
def execBacking (m : Fin 9) (slot : Fin 16) (s : State) : Host.Outcome State Fault Refusal := orderBacking.run m slot s

/-! ### Uploads -/

/-- The first page that A2 and A3 name, of 36 bits. -/
def Call.page (c : Call) : Nat := c.arg 2 + 2 ^ 32 * c.bits 3 0 4

/-- A page is covered by an extent that is committed or about to be (R300). -/
def Dev.backed (d : Dev) (p : Nat) : Bool := (d.extOf p).isSome || d.mason.extPend.any (fun e => extHas e.2.1 p)

/-- A channel off the stack of another, if one is given, with a free frame: which one is taken is open (R301, R367, log entry 1). -/
def Dev.uploadCh (d : Dev) (off : Option Nat) : Option (Fin 8 × Nat) × Dev :=
  let f := d.free
  let order : List (Fin 8) := (List.range 8).map (fun k => Fin.ofNat 8 (f.1 + k))
  let ok := order.filter (fun (n : Fin 8) => off.all (fun o => n.val / 2 ≠ o / 2))
  (ok.findSome? (fun (n : Fin 8) => (d.freeFrame n true).map (fun g => (n, g))), f.2)

/-- The copies that an upload replaces are read by courses laid before the next joint (R301, R318). -/
def Dev.retirePage (d : Dev) (page : Nat) : Dev :=
  { d with mason := { d.mason with
    copies := d.mason.copies.map (fun y => if y.page = page && y.till.isNone then { y with till := some (d.time.crs + 1) } else y)
    resident := Resident.leave (d.time.crs + 1) (fun r => r.holds (fun p => p = page)) d.mason.resident } }

/-- One page uploaded in `copies` copies; `none` where the frames do not suffice. -/
def uploadPage (page copies : Nat) (bytes : List (BitVec 8)) (p : Dev × Memory) : Option (Dev × Memory) :=
  let a := p.1.uploadCh none
  match a.1 with
  | none => none
  | some (n, g) =>
    let d := a.2.retirePage page
    let d : Dev := { d with mason := { d.mason with
      held := (page, copies) :: d.mason.held.filter (fun h => h.1 ≠ page)
      lost := d.mason.lost.filter (fun l => l ≠ page) } }
    let q := placeIn n page g true 0 bytes (d, p.2)
    if copies < 2 then some q
    else
      let b := q.1.uploadCh (some n.val)
      match b.1 with
      | none => none
      | some (k, h) => some (placeIn k page h true 0 bytes (b.2, q.2))

/-- Pages uploaded one after another. -/
def uploadPages (copies : Nat) (bytes : List (BitVec 8)) : Nat → Nat → Dev × Memory → Option (Dev × Memory)
  | 0, _, p => some p
  | k + 1, page, p =>
    match uploadPage page copies (bytes.take 65536) p with
    | none => none
    | some q => uploadPages copies (bytes.drop 65536) k (page + 1) q

/-- Frames that are given up already, or that eviction could give up on some channel. -/
def Dev.canEvict (d : Dev) (mem : Memory) : Bool := d.mason.copies.any (fun c => c.till.isSome) || allCh.any (fun n => !(d.spareCopies mem n).isEmpty)

/-- Pages evicted on every channel to make room (R316). -/
def Dev.evictAll (d : Dev) (mem : Memory) (k : Nat) : Dev := allCh.foldl (fun d n => d.evict mem n k) d

/-- UPLOAD (R300, R301, R339): where other content must leave first, it waits for that. -/
def orderUpload (buf : Option (List (BitVec 8))) : Order :=
  { op := 0x41, epoch := noEpoch, own := ownOf MSN_CTRL.OWN
    legal := fun _ _ c => c.aligned && 1 ≤ c.bits 4 0 16 && c.bits 4 0 16 ≤ 256 && 1 ≤ c.bits 4 16 2 && c.bits 4 16 2 ≤ 2
      && c.page + c.bits 4 0 16 ≤ 2 ^ 36
    act := fun d mem c =>
      let k := c.bits 4 0 16
      if (List.range k).any (fun i => d.backed (c.page + i)) then ((d, mem), .done 3 [])
      else withBuf buf (fun _ _ => 65536 * k) (fun bytes e mem c =>
        match uploadPages (c.bits 4 16 2) bytes k c.page (e, mem) with
        | some q => ((q.1.checkRuns, q.2), okWith [])
        | none => if d.canEvict mem then ((d.evictAll mem (2 * k), mem), .stays) else ((d, mem), .done 5 [])) d mem c }

/-- `UPLOAD`. -/
def execUpload (m : Fin 9) (slot : Fin 16) (buf : Option (List (BitVec 8))) (s : State) : Host.Outcome State Fault Refusal :=
  (orderUpload buf).run m slot s

/-- RELEASE (R301): pages that are not HELD are skipped. -/
def Dev.releasePages (d : Dev) (page count : Nat) : Dev :=
  let hit := fun p => page ≤ p && p < page + count
  let gone := (d.mason.held.filter (fun h => hit h.1)).map (·.1)
  let d := if gone.isEmpty then d else d.checkRuns
  gone.foldl (fun d p => d.retirePage p) { d with mason := { d.mason with held := d.mason.held.filter (fun h => !hit h.1) } }

/-- RELEASE. -/
def orderRelease : Order :=
  { op := 0x42, epoch := noEpoch, own := ownOf MSN_CTRL.OWN
    legal := fun _ _ c => 1 ≤ c.bits 4 0 17 && c.bits 4 0 17 ≤ 65536 && c.page + c.bits 4 0 17 ≤ 2 ^ 36
    act := okDev (fun d c => d.releasePages c.page (c.bits 4 0 17)) }

/-- `RELEASE`. -/
def execRelease (m : Fin 9) (slot : Fin 16) (s : State) : Host.Outcome State Fault Refusal := orderRelease.run m slot s

/-! ### Horizons, entry points, the check -/

/-- MSN_SET (R310, R317). -/
def orderMsnSet : Order :=
  { op := 0x160, epoch := chEpoch, own := ownOf MSN_CTRL.OWN
    legal := fun d _ c => d.hzOk c.m (c.bits 0 0 8) (c.bits 0 16 8) && 1 ≤ c.bits 1 0 16 && c.bits 1 0 16 ≤ 60000
    act := okDev (fun d c =>
      let d := (d.hzWrite c.ch false (c.arg 0)).hzWrite c.ch true (c.arg 1)
      (List.range 16).foldl (fun d x =>
        (d.set MSN_ENTRYn_x.EN c.m x (c.bits 2 x 1)).set MSN_ENTRYn_x.STEP c.m x (c.bits (3 + x / 2) (16 * (x % 2)) 13)) d) }

/-- `MSN_SET`. -/
def execMsnSet (m : Fin 9) (slot : Fin 16) (s : State) : Host.Outcome State Fault Refusal := orderMsnSet.run m slot s

/-- The risk list of channel n as the words of `MSN_RISKn_e` (R323). -/
def Dev.riskWords (d : Dev) (n : Nat) : List Nat :=
  (List.range 256).flatMap (fun e =>
    [d.get MSN_RISKn_e0.REASON n e * 2 ^ 28 + d.get MSN_RISKn_e0.TRACKS n e * 2 ^ 24 + d.get MSN_RISKn_e0.STEP n e,
     d.get MSN_RISKn_e1.ARRIVAL n e])

/-- MSN_RISKS (R321, R323): it waits while the device may issue no request (R484). -/
def orderMsnRisks : Order :=
  { op := 0x161, epoch := noEpoch, own := noOwn
    legal := fun _ _ c => c.aligned
    act := fun d mem c =>
      if !d.mayIssue then ((d, mem), .stays)
      else
        let d := d.riskPublish mem c.ch
        let d := d.emit (.hostWrite (c.pair 0) (wordsBytes (d.riskWords c.m)))
        ((d, mem), okWith [d.get MSN_CHn_STAT.RISKS c.m, d.get MSN_CHn_STAT.READY c.m]) }

/-- `MSN_RISKS`. -/
def execMsnRisks (m : Fin 9) (slot : Fin 16) (s : State) : Host.Outcome State Fault Refusal := orderMsnRisks.run m slot s

/-! ### Capture rings -/

/-- The first frames of the runs of k frames that all meet a condition; the counter runs over the frames met so far. -/
def frameRuns (ok : Nat → Bool) (all k : Nat) : Nat → Nat → List Nat → List Nat
  | 0, _, acc => acc
  | fuel + 1, run, acc =>
    let f := all - (fuel + 1)
    if ok f then frameRuns ok all k fuel (run + 1) (if k ≤ run + 1 then (f + 1 - k) :: acc else acc) else frameRuns ok all k fuel 0 acc

/-- The frames on channel n that a capture ring could take once the copies given up have left them. -/
def Dev.ringRuns (d : Dev) (n k : Nat) (give : List Copy) : List Nat :=
  let taken := (d.mason.copies.filter (fun c => c.ch = n && !give.contains c)).map (·.frame)
  frameRuns (fun f => d.frameUsable n f && !taken.contains f && !d.mason.retire.contains (n, f)
    && d.frameOpen n f) d.framesAll k d.framesAll 0 []

/-- A capture ring reserved: the base that it takes is open (R269, log entry 1). -/
def Dev.ringTake (d : Dev) (n k first frames : Nat) : Dev :=
  let d : Dev := { d with mason := { d.mason with capRings := d.mason.capRings ++ [(n, k, first, frames)] } }
  let d := (d.setPair CAPk_BASE_LO.BASE_LO CAPk_BASE_HI.BASE_HI n k (first * 65536)).set CAPk_SIZE.SIZE n k (frames * 65536)
  ((d.set CAPk_WR.WR n k 0).set CAPk_RD.RD n k 0).framesShow n

/-- The ring of a tap released; what its base then reads is open (log entry 1). -/
def Dev.ringDrop (d : Dev) (n k : Nat) : Dev :=
  let f := d.free
  let d : Dev := { f.2 with mason := { f.2.mason with capRings := f.2.mason.capRings.filter (fun r => !(r.1 = n && r.2.1 = k)) } }
  ((d.setPair CAPk_BASE_LO.BASE_LO CAPk_BASE_HI.BASE_HI n k (f.1 % 2 ^ 64)).set CAPk_SIZE.SIZE n k 0).framesShow n

/-- Where a channel without DRAM keeps the ring of a tap: a number of its own outside the DRAM's addresses (log entry 60). -/
def sramRing (free k : Nat) : Nat := framesOf false + 16 * (free % 4096) + 4 * k

/-- A capture ring of `frames` frames for tap k of channel n. -/
def ringReserve (n : Fin 8) (k frames : Nat) (d : Dev) (mem : Memory) : (Dev × Memory) × Answer :=
  let base := fun (d : Dev) => [d.get CAPk_BASE_LO.BASE_LO n k, d.get CAPk_BASE_HI.BASE_HI n k]
  let f := d.free
  if d.flag MSN_CHn_STAT.SRAM_ONLY n then
    if 4 < frames || (d.ringDrop n k).segBlocks n < 64 * frames then ((d, mem), .done 5 [])
    else
      let e := (f.2.ringDrop n k).ringTake n k (sramRing f.1 k) frames
      ((e, mem), okWith (base e))
  else
    let e := f.2.ringDrop n k
    match e.ringRuns n frames [] with
    | a :: as =>
      let e := e.ringTake n k ((a :: as).getD (f.1 % (as.length + 1)) a) frames
      ((e, mem), okWith (base e))
    | [] =>
      let spare := d.spareCopies mem n
      match e.ringRuns n frames spare with
      | [] => ((d, mem), .done 5 [])
      | _ => ((d.evict mem n spare.length, mem), .stays)

/-- CAP_RING (R269): size 0 releases the ring. -/
def orderCapRing : Order :=
  { op := 0x144, epoch := chEpoch
    own := fun _ c => [(SIEVE_CTRL.OWN.id, c.m), (MSN_CTRL.OWN.id, 0)]
    legal := fun _ _ c => c.arg 1 % 65536 = 0 && c.arg 1 ≤ 2 ^ 30
    act := fun d mem c =>
      let k := c.bits 0 0 2
      if d.get CAPk_CTRL.MODE c.m k ≠ 0 then ((d, mem), busy3)
      else if c.arg 1 = 0 then
        let e := d.ringDrop c.m k
        ((e, mem), okWith [e.get CAPk_BASE_LO.BASE_LO c.m k, e.get CAPk_BASE_HI.BASE_HI c.m k])
      else ringReserve c.ch k (c.arg 1 / 65536) d mem }

/-- `CAP_RING`. -/
def execCapRing (m : Fin 9) (slot : Fin 16) (s : State) : Host.Outcome State Fault Refusal := orderCapRing.run m slot s

/-! ### DRAM -/

/-- DRAM_SET (R376, R380, R385 to R387). -/
def orderDramSet : Order :=
  { op := 0x170, epoch := chEpoch, own := ownCh DMC_CTRL.OWN
    legal := fun _ _ c => c.bits 0 16 2 ≠ 3 && lpOk (c.arg 1) && qosOk 4 (c.arg 2) && qosOk 6 (c.arg 3)
    act := okDev (fun d c =>
      let d := (d.pageWrite c.m (c.bits 0 16 2)).lpSet c.m (c.arg 1)
      (d.set DMC_QOSp.TARGET c.m 4 (c.arg 2)).set DMC_QOSp.TARGET c.m 6 (c.arg 3)) }

/-- `DRAM_SET`. -/
def execDramSet (m : Fin 9) (slot : Fin 16) (s : State) : Host.Outcome State Fault Refusal := orderDramSet.run m slot s

/-- DRAM_DRAIN (R399, R400): of a rank that is retired it ends at once. -/
def orderDramDrain : Order :=
  { op := 0x171, epoch := chEpoch, own := noOwn, legal := anyArgs
    act := fun d mem c =>
      let r := c.bits 0 0 1
      if d.get DMC_RANKr.STATE c.m r = 3 then ((d, mem), .done 9 [])
      else (rankDrain c.m r (d.enrol c 0x171 0 1 r [], mem), .goes) }

/-- `DRAM_DRAIN`. -/
def execDramDrain (m : Fin 9) (slot : Fin 16) (s : State) : Host.Outcome State Fault Refusal := orderDramDrain.run m slot s

end Sys2Proof.Machine
end

