-- ==== Sys2Proof/Machine/MbxSys.lean ====
section
/-!
DEFINITION. The system commands of MBX8 (R507) but those of the Mason: firmware and flash, event lines, groups, the course block,
the ring, the bench bus, power and the memory test.
-/
namespace Sys2Proof.Machine
open Reg

/-! ### Firmware and flash -/

/-- INFO: version, image in use with its SVN, UID. While the boot loader serves, no image is in use (log entry 1). -/
def orderInfo : Order :=
  { op := 0x01, epoch := noEpoch, own := noOwn, legal := anyArgs
    act := fun d mem _ =>
      let i := d.get MBX_CLERK.IMAGE
      let x := d.fwSlot i
      let uid := [Config.uid % 2 ^ 32, Config.uid / 2 ^ 32 % 2 ^ 32]
      if d.boot.recovery then
        let a := d.free
        let b := a.2.free
        ((b.2, mem), okWith ([a.1, b.1] ++ uid))
      else ((d, mem), okWith ([x.version, i + 2 ^ 8 * x.svn] ++ uid)) }

/-- `INFO`. -/
def execInfo (m : Fin 9) (slot : Fin 16) (s : State) : Host.Outcome State Fault Refusal := orderInfo.run m slot s

/-- The image slot that does not hold the running image (R519). -/
def Dev.otherSlot (d : Dev) : Nat := 1 - d.get MBX_CLERK.IMAGE

/-- The bytes of an image slot are kept inverted, so that an erased byte, 0xFF, is unlisted. -/
def flashByte (b : BitVec 8) : BitVec 8 := ~~~b

/-- A stretch of an image slot is written; a stage at offset 0 erases the slot first. A record stands only over the content it
was made for (R519). -/
def FwSlot.stage (x : FwSlot) (ofs : Nat) (bytes : List (BitVec 8)) : FwSlot :=
  let old := if ofs = 0 then [] else x.bytes
  let new := Memory.writeBytes old ofs (bytes.map flashByte)
  { x with bytes := new, gen := if ofs = 0 || new ≠ x.bytes then none else x.gen }

/-- FW_STAGE: `good` says that the flash holds what was written (R501). -/
def orderFwStage (buf : Option (List (BitVec 8))) (good : Bool) : Order :=
  { op := 0x10, epoch := noEpoch, own := noOwn
    legal := fun _ _ c => c.aligned && c.arg 2 % 4096 = 0 && 1 ≤ c.arg 3 && c.arg 3 ≤ 65536 && c.arg 2 + c.arg 3 ≤ 0x1FF000
    act := withBuf buf (fun _ c => c.arg 3) (fun bytes d mem c =>
      if good then
        let i := d.otherSlot
        (({ d with flash := { d.flash with fw := d.flash.fw.set i ((d.fwSlot i).stage (c.arg 2) bytes) } }, mem), okWith [])
      else ((d, mem), .done 0x0B [])) }

/-- `FW_STAGE`. -/
def execFwStage (m : Fin 9) (slot : Fin 16) (buf : Option (List (BitVec 8))) (good : Bool) (s : State) :
    Host.Outcome State Fault Refusal := (orderFwStage buf good).run m slot s

/-- Byte a of an image slot. -/
def FwSlot.byte (x : FwSlot) (a : Nat) : BitVec 8 := flashByte (x.bytes.read a)

/-- The little-endian word at offset a of an image slot. -/
def FwSlot.word (x : FwSlot) (a : Nat) : Nat := leNat [x.byte a, x.byte (a + 1), x.byte (a + 2), x.byte (a + 3)]

/-- `MAGIC`, `FMT` and `LENGTH` are legal (R518, R519). -/
def FwSlot.headOk (x : FwSlot) : Bool :=
  x.word 0 = 0x47544657 && x.word 4 % 65536 = 1 && x.word 0x14 % 4 = 0 && x.word 0x14 ≤ 1835008

/-- FW_COMMIT: `trusted` says that key, signature and security version hold and that the slot reads back right (R519, R520). The
first `GEN` of a part without a valid image is open (log entry 1). -/
def orderFwCommit (trusted : Bool) : Order :=
  { op := 0x11, epoch := noEpoch, own := noOwn, legal := anyArgs
    act := fun d mem _ =>
      let i := d.otherSlot
      let x := d.fwSlot i
      let put := fun (d : Dev) (y : FwSlot) => { d with flash := { d.flash with fw := d.flash.fw.set i y } }
      if trusted && x.headOk then
        let f := d.free
        let g := match (d.fwSlot (1 - i)).gen with
          | some g => ((g + 1) % 2 ^ 32, d)
          | none => (f.1 % 2 ^ 32, f.2)
        ((put g.2 { x with version := x.word 0x0C, svn := (x.byte 0x10).toNat, gen := some g.1 }, mem), okWith [g.1])
      else ((put d { x with gen := none }, mem), .done 3 []) }

/-- `FW_COMMIT`. -/
def execFwCommit (m : Fin 9) (slot : Fin 16) (trusted : Bool) (s : State) : Host.Outcome State Fault Refusal :=
  (orderFwCommit trusted).run m slot s

/-- FW_RESTART: it completes, then the Clerk restarts (R502, R538). -/
def orderFwRestart : Order :=
  { op := 0x12, epoch := noEpoch, own := noOwn, legal := anyArgs
    act := fun d mem c => (((d.finish c.m c.slot 0 []).clerkReset 2, mem), .goes) }

/-- `FW_RESTART`. -/
def execFwRestart (m : Fin 9) (slot : Fin 16) (s : State) : Host.Outcome State Fault Refusal := orderFwRestart.run m slot s

/-- An entry of the strap-override area is stored: the older or the invalid copy is rewritten; `good` says that it reads back
right (R544). -/
def Dev.ovrStore (d : Dev) (item ch value : Nat) (good : Bool) : Dev :=
  let x := olderCopy OvrCopy.gen d.flash.ovr
  let es := d.overrides.filter (fun e => !(e.1 = item && e.2.1 = ch)) ++ [(item, ch, value)]
  { d with flash := { d.flash with ovr := d.flash.ovr.set x.1 (if good then some ⟨x.2, es⟩ else none) } }

/-- FLASH_CFG: item 4 belongs to the device, the others to a channel. -/
def orderFlashCfg (good : Bool) : Order :=
  { op := 0x18, epoch := noEpoch, own := noOwn
    legal := fun _ _ c => ovrOk (c.bits 0 0 8) (c.arg 1)
    act := fun d mem c =>
      let item := c.bits 0 0 8
      ((d.ovrStore item (if item = 4 then 0 else c.bits 0 8 3) (c.arg 1) good, mem), if good then okWith [] else .done 0x0B []) }

/-- `FLASH_CFG`. -/
def execFlashCfg (m : Fin 9) (slot : Fin 16) (good : Bool) (s : State) : Host.Outcome State Fault Refusal :=
  (orderFlashCfg good).run m slot s

/-- CAL_STORE (R294). -/
def orderCalStore (good : Bool) : Order :=
  { op := 0x20, epoch := noEpoch
    own := fun _ _ => (List.range 8).map (fun n => (PLB_CTRL.OWN.id, n))
    legal := anyArgs
    act := fun d mem _ => ((d.calStore good, mem), if good then okWith [] else .done 0x0B []) }

/-- `CAL_STORE`. -/
def execCalStore (m : Fin 9) (slot : Fin 16) (good : Bool) (s : State) : Host.Outcome State Fault Refusal :=
  (orderCalStore good).run m slot s

/-! ### Event lines -/

/-- Both slots of a word hold codes that an enabled slot may hold (R120). -/
def slotsOk (legal : Nat → Bool) (w : Nat) : Bool :=
  (!bitAt w 15 || legal (w % 1024)) && (!bitAt w 31 || legal (bitsOf w 16 10))

/-- LINE_SET. -/
def orderLineSet : Order :=
  { op := 0x50, epoch := noEpoch, own := ownOf EVL_CTRL.OWN
    legal := fun _ _ c => [0, 1, 2, 3].all (fun r => slotsOk prodLegal (c.arg (1 + r)))
      && (List.range 8).all (fun r => slotsOk consLegal (c.arg (5 + r)))
    act := okDev (fun d c =>
      let l := c.bits 0 0 6
      let d := [0, 1, 2, 3].foldl (fun d r => d.srcWrite l r (c.arg (1 + r))) d
      (List.range 8).foldl (fun d r => d.dstWrite l r (c.arg (5 + r))) d) }

/-- `LINE_SET`. -/
def execLineSet (m : Fin 9) (slot : Fin 16) (s : State) : Host.Outcome State Fault Refusal := orderLineSet.run m slot s

/-- An ID is mapped to a line, or not (R141). -/
def Dev.mapSet (d : Dev) (id line en : Nat) : Dev :=
  if id % 2 = 1 then (d.set EVS_MAP.LINE_ODD (id / 2) 0 line).set EVS_MAP.EN_ODD (id / 2) 0 en
  else (d.set EVS_MAP.LINE_EVEN (id / 2) 0 line).set EVS_MAP.EN_EVEN (id / 2) 0 en

/-- SYS_MAP. -/
def orderSysMap : Order :=
  { op := 0x51, epoch := noEpoch, own := ownOf EVL_CTRL.OWN, legal := anyArgs
    act := okDev (fun d c => d.mapSet (c.bits 0 0 12) (c.bits 0 16 6) (c.bits 0 31 1)) }

/-- `SYS_MAP`. -/
def execSysMap (m : Fin 9) (slot : Fin 16) (s : State) : Host.Outcome State Fault Refusal := orderSysMap.run m slot s

/-- SYS_FIRE (R139, R144, R145). -/
def orderSysFire : Order :=
  { op := 0x52, epoch := noEpoch, own := ownOf EVL_CTRL.OWN, legal := anyArgs
    act := fun d mem c =>
      if d.islanded then ((d, mem), .done 0x0A [])
      else if 4 ≤ d.ev.origs then ((d.raise EVS_STAT.RATE, mem), busy3)
      else
        let r := d.originate (c.bits 0 0 12) (c.bits 0 16 8)
        ((r.2, mem), okWith [r.1 % 2 ^ 32, r.1 / 2 ^ 32]) }

/-- `SYS_FIRE`. -/
def execSysFire (m : Fin 9) (slot : Fin 16) (s : State) : Host.Outcome State Fault Refusal := orderSysFire.run m slot s

/-- `EVS_TXx` set. -/
def Dev.sysTxSet (d : Dev) (x w : Nat) : Dev :=
  ((d.set EVS_TXx.EN x 0 (bitsOf w 31 1)).set EVS_TXx.L x 0 (bitsOf w 16 8)).set EVS_TXx.ID x 0 (bitsOf w 0 12)

/-- SYS_TX_SET. -/
def orderSysTxSet : Order :=
  { op := 0x53, epoch := noEpoch, own := ownOf EVL_CTRL.OWN, legal := anyArgs
    act := okDev (fun d c => d.sysTxSet (c.bits 0 0 4) (c.arg 1)) }

/-- `SYS_TX_SET`. -/
def execSysTxSet (m : Fin 9) (slot : Fin 16) (s : State) : Host.Outcome State Fault Refusal := orderSysTxSet.run m slot s

/-! ### Groups -/

/-- The group actions that land at joint j or later carry an epoch that changes before they land (R504, R505). -/
def Dev.groupStale (d : Dev) (mem : Memory) (g j : Nat) : Dev :=
  allCh.foldl (fun (d : Dev) n => d.goStale mem n (fun a => a.grp = some g && j ≤ a.land && !a.stale)) d

/-- GROUP_SET (R504, R505). -/
def orderGroupSet : Order :=
  { op := 0x58, epoch := grpEpoch, own := ownOf EVL_CTRL.OWN
    legal := fun d _ c => c.near d
    act := fun d mem c =>
      if c.late d then ((d, mem), .done 6 [])
      else
        let j := c.land d
        let g := c.bits 2 0 4
        let d : Dev := d.enrol c 0x58 j 1 0 [(EVL_CTRL.OWN.id, 0)]
        let d : Dev := { d with groups := d.groups ++ [(⟨g, c.bits 2 16 8, j, d.time.crs, c.m, c.slot⟩ : GroupSet)] }
        ((d.groupStale mem g j, mem), .goes) }

/-- `GROUP_SET`. -/
def execGroupSet (m : Fin 9) (slot : Fin 16) (s : State) : Host.Outcome State Fault Refusal := orderGroupSet.run m slot s

/-- The channels of a mask. -/
def maskChs (mask : Nat) : List (Fin 8) := allCh.filter (fun n => bitAt mask n)

/-- The action that a SEQ_CMD or GROUP_ACT names: 0 JUMP, 1 START, 2 STOP, 3 RESTART. -/
def seqKind (code step : Nat) : ActKind :=
  if code = 0 then .jumpTo step else if code = 1 then .start else if code = 2 then .stop else .restart

/-- A timed sequencer action on channel n for a mailbox slot (R39, R507): START and RESTART set `START_STEP`; a START that finds the
sequencer ARMED or RUNNING ends its part with reason 3. -/
def Dev.seqAct (d : Dev) (n : Fin 8) (code step land m slot : Nat) (grp : Option Nat) : Dev :=
  let st := d.get SEQ_STAT.STATE n
  if code = 1 && (st = 1 || st = 2) then d.part m slot n 3
  else
    let d := if code = 1 || code = 3 then d.set SEQ_CTRL.START_STEP n 0 step else d
    let k := d.actSeq
    let d := d.addAct n (seqKind code step) (.mbx m slot) land d.time.crs []
    d.onCh n (fun c => { c with acts := c.acts.map (fun a => if a.seq = k then { a with grp := grp } else a) })

/-- GROUP_ACT: acts on every member as SEQ_CMD. An action that a group change accepted before it will overtake is stale (R505). -/
def orderGroupAct : Order :=
  { op := 0x59, epoch := grpEpoch
    own := fun d c => (maskChs (d.get GRPg.MASK (c.bits 2 0 4))).map (fun n => (SEQ_CTRL.OWN.id, n.val))
    legal := fun d _ c => c.near d
    act := fun d mem c =>
      if c.late d then ((d, mem), .done 6 [])
      else
        let g := c.bits 2 0 4
        let ns := maskChs (d.get GRPg.MASK g)
        let j := c.land d
        let d := d.enrol c 0x59 j ns.length 0 (ns.map (fun n => (SEQ_CTRL.OWN.id, n.val)))
        let d := ns.foldl (fun d n => d.seqAct n (c.bits 2 8 2) (c.bits 2 16 13) j c.m c.slot (some g)) d
        let d := if d.groups.any (fun x => x.g = g && x.land ≤ j) then d.groupStale mem g j else d
        ((d, mem), .goes) }

/-- `GROUP_ACT`. -/
def execGroupAct (m : Fin 9) (slot : Fin 16) (s : State) : Host.Outcome State Fault Refusal := orderGroupAct.run m slot s

/-! ### The course block -/

/-- CRS_SET (R15 to R18). -/
def orderCrsSet : Order :=
  { op := 0x60, epoch := noEpoch, own := ownOf CRS_CTRL.OWN
    legal := fun _ _ c => lenLegal (c.bits 0 0 16)
    act := fun d mem c =>
      if d.isMember then ((d, mem), .done 8 [])
      else if !d.lenOpen || d.flag CRS_CTRL.LEN_PEND then ((d, mem), busy3)
      else
        let d := d.lenAccept (c.bits 0 0 16)
        let j := match d.time.lenPend with
          | some x => x.2.1
          | none => d.time.crs
        ((d.enrol c 0x60 j 1 0 [(CRS_CTRL.OWN.id, 0)], mem), .goes) }

/-- `CRS_SET`. -/
def execCrsSet (m : Fin 9) (slot : Fin 16) (s : State) : Host.Outcome State Fault Refusal := orderCrsSet.run m slot s

/-- SYNC_SET. -/
def orderSyncSet : Order :=
  { op := 0x61, epoch := noEpoch, own := ownOf CRS_CTRL.OWN, legal := anyArgs
    act := okDev (fun d c => (d.set SYNC_CTRL.EDGE 0 0 (c.bits 0 1 1)).set SYNC_CTRL.EN 0 0 (c.bits 0 0 1)) }

/-- `SYNC_SET`. -/
def execSyncSet (m : Fin 9) (slot : Fin 16) (s : State) : Host.Outcome State Fault Refusal := orderSyncSet.run m slot s

/-! ### The ring -/

/-- RING_CTL: a JOIN or REJOIN that the ring block would ignore is refused (log entry 40). -/
def orderRingCtl : Order :=
  { op := 0x70, epoch := noEpoch, own := ownOf RING_CTRL.OWN
    legal := fun _ _ c => 1 ≤ c.bits 0 0 3 && c.bits 0 0 3 ≤ 5
    act := fun d mem c =>
      let a := c.bits 0 0 3
      let wait := fun (d : Dev) => d.enrol c 0x70 (d.time.abs + 250000000) 1 0 [(RING_CTRL.OWN.id, 0)]
      let alone := d.get RING_CTRL.ROLE = 0 || d.get RING_CTRL.ROLE = 3
      if alone then ((d, mem), .done 8 [])
      else if a = 4 then
        (((d.set RING_CTRL.AUTO_REJOIN 0 0 (c.bits 1 8 1)).set RING_CTRL.ISL_POL 0 0 (c.bits 1 4 1), mem), okWith [])
      else if a = 5 then ((d.set RING_ID.PRIO 0 0 (c.bits 1 0 8), mem), okWith [])
      else if a = 3 then (if d.joined then ((d.recalCmd, mem), okWith []) else ((d, mem), .done 0x0A []))
      else if a = 1 then (if d.ringSt = 1 then ((wait d.joinCmd, mem), .goes) else ((d, mem), .done 3 []))
      else if d.ringSt = 5 then ((wait d.rejoinCmd, mem), .goes) else ((d, mem), .done 3 []) }

/-- `RING_CTL`. -/
def execRingCtl (m : Fin 9) (slot : Fin 16) (s : State) : Host.Outcome State Fault Refusal := orderRingCtl.run m slot s

/-- RING_MSG (R439): it waits its turn while a message is being sent. -/
def orderRingMsg : Order :=
  { op := 0x71, epoch := noEpoch, own := ownOf RING_CTRL.OWN
    legal := fun _ _ c => c.bits 0 16 6 ≤ 51
    act := fun d mem c =>
      if !d.joined then ((d, mem), .done 0x0A [])
      else if d.flag RING_MTX_CTRL.BUSY then ((d, mem), .stays)
      else ((d.msgSend (c.bits 0 0 10) (payloadOf ((List.range 13).map (fun k => c.arg (1 + k))) (c.bits 0 16 6 + 1)), mem), okWith []) }

/-- `RING_MSG`. -/
def execRingMsg (m : Fin 9) (slot : Fin 16) (s : State) : Host.Outcome State Fault Refusal := orderRingMsg.run m slot s

/-! ### The bench bus -/

/-- BENCH_CFG: `EN` of the PLCA settings is written 0 first (R620). -/
def orderBenchCfg : Order :=
  { op := 0x78, epoch := noEpoch, own := ownOf BB_CTRL.OWN
    legal := fun _ _ c => 1 ≤ c.bits 1 8 8 && c.bits 1 8 8 ≤ 32 && 16 ≤ c.bits 1 16 8 && c.bits 2 8 8 ≤ 127
    act := okDev (fun d c =>
      let d := ((d.set BB_CTRL.RXALL 0 0 (c.bits 0 4 1)).set BB_CTRL.ALLOW_EN 0 0 (c.bits 0 3 1)).set BB_CTRL.EN 0 0 (c.bits 0 0 1)
      ((d.plcaWrite (c.arg 1 % 2 ^ 31)).plcaWrite (c.arg 1)).ptpWrite (c.arg 2)) }

/-- `BENCH_CFG`. -/
def execBenchCfg (m : Fin 9) (slot : Fin 16) (s : State) : Host.Outcome State Fault Refusal := orderBenchCfg.run m slot s

/-- BENCH_ALLOW. -/
def orderBenchAllow : Order :=
  { op := 0x79, epoch := noEpoch, own := ownOf BB_CTRL.OWN, legal := anyArgs
    act := okDev (fun d c =>
      let a := c.bits 0 0 4
      let d := (d.set BB_ALLOWa_LO.MAC_LO a 0 (c.arg 1)).set BB_ALLOWa_HI.MAC_HI a 0 (c.bits 2 0 16)
      (d.set BB_ALLOWa_HI.STOP_OK a 0 (c.bits 2 30 1)).set BB_ALLOWa_HI.EN a 0 (c.bits 2 31 1)) }

/-- `BENCH_ALLOW`. -/
def execBenchAllow (m : Fin 9) (slot : Fin 16) (s : State) : Host.Outcome State Fault Refusal := orderBenchAllow.run m slot s

/-- BENCH_FILTER (R466). -/
def orderBenchFilter : Order :=
  { op := 0x7A, epoch := noEpoch, own := ownOf BB_CTRL.OWN
    legal := fun _ _ c => c.bits 1 0 5 ≤ 16
    act := okDev (fun d c => [0, 1, 2, 3, 4].foldl (fun d k => d.filterWrite (c.bits 0 0 4) k (c.arg (1 + k))) d) }

/-- `BENCH_FILTER`. -/
def execBenchFilter (m : Fin 9) (slot : Fin 16) (s : State) : Host.Outcome State Fault Refusal := orderBenchFilter.run m slot s

/-- BENCH_TEMPLATE (R471). -/
def orderBenchTemplate : Order :=
  { op := 0x7B, epoch := noEpoch, own := ownOf BB_CTRL.OWN
    legal := fun _ _ c => c.bits 1 16 6 ≤ 32 && 1 ≤ c.bits 1 0 8 && c.bits 1 0 8 ≤ 4
    act := okDev (fun d c => (List.range 10).foldl (fun d k => d.templateWrite (c.bits 0 0 4) k (c.arg (1 + k))) d) }

/-- `BENCH_TEMPLATE`. -/
def execBenchTemplate (m : Fin 9) (slot : Fin 16) (s : State) : Host.Outcome State Fault Refusal := orderBenchTemplate.run m slot s

/-- The host send's topic and payload words. -/
def Dev.htxSet (d : Dev) (topic : Nat) (ws : List Nat) : Dev :=
  let d := d.set BB_HTX_TOPIC.TOPIC 0 0 topic
  ws.zipIdx.foldl (fun d x => d.set BB_HTX_Dw.DATA x.2 0 x.1) d

/-- BENCH_SEND (R472): refused where R472 refuses; it completes when its frame has been sent. -/
def orderBenchSend : Order :=
  { op := 0x7C, epoch := noEpoch, own := ownOf BB_CTRL.OWN
    legal := fun _ _ c => c.bits 0 8 9 ≤ 44 && 1 ≤ c.bits 0 0 8 && c.bits 0 0 8 ≤ 4
    act := fun d mem c =>
      let kind := c.bits 0 0 8
      let ess := bitAt (c.arg 0) 30
      if d.flag BB_HTX_CTRL.BUSY || (d.flag BB_STAT.STOPPED && !(ess || kind = 3 || kind = 4)) then ((d, mem), busy3)
      else
        let ws := (List.range 11).map (fun k => c.arg (2 + k))
        let len := c.bits 0 8 9
        let d := (d.enrol c 0x7C 0 1 0 [(BB_CTRL.OWN.id, 0)]).htxSet (c.arg 1) ws
        ((d.hostSend (c.bits 0 24 5) kind (c.arg 1) len ess (payloadOf ws len), mem), .goes) }

/-- `BENCH_SEND`. -/
def execBenchSend (m : Fin 9) (slot : Fin 16) (s : State) : Host.Outcome State Fault Refusal := orderBenchSend.run m slot s

/-! ### Power and memory -/

/-- POWER (R531, R533): it completes before entry begins. -/
def orderPower : Order :=
  { op := 0x80, epoch := noEpoch, own := noOwn
    legal := fun _ _ c => c.bits 0 0 2 ≠ 3
    act := fun d mem c =>
      let p := d.powerRequest (c.bits 0 0 2) 2
      ((p.1, mem), if p.2 then busy3 else okWith []) }

/-- `POWER`. -/
def execPower (m : Fin 9) (slot : Fin 16) (s : State) : Host.Outcome State Fault Refusal := orderPower.run m slot s

/-- MEM_TEST (R361 to R363). -/
def orderMemTest : Order :=
  { op := 0x90, epoch := noEpoch, own := ownOf MEM_CTRL.OWN, legal := anyArgs
    act := fun d mem c =>
      let d := d.enrol c 0x90 0 1 0 [(MEM_CTRL.OWN.id, 0)]
      ((d.marchAsk mem (Fin.ofNat 8 (c.bits 0 4 3)) (c.bits 0 8 4) (some (c.m, c.slot)), mem), .goes) }

/-- `MEM_TEST`. -/
def execMemTest (m : Fin 9) (slot : Fin 16) (s : State) : Host.Outcome State Fault Refusal := orderMemTest.run m slot s

end Sys2Proof.Machine
end

