-- ==== Sys2Proof/Machine/MbxSeq.lean ====
section
/-!
DEFINITION. The channel commands of R507 on the sequencer: state and epoch, the step table with the checks of R107, timed
commands, trigger policies, snapshots.
-/
namespace Sys2Proof.Machine
open Reg

/-- The address of channel n's window (R486, R611). -/
def winAt (n a : Nat) : Nat := 0x10000000 + 0x400000 * n + a

/-! ### State and epoch -/

/-- CH_STATE: four registers as the Clerk reads them, and the channel's epoch. -/
def orderChState : Order :=
  { op := 0x100, epoch := noEpoch, own := noOwn, legal := anyArgs
    act := fun d mem c =>
      let w := [winAt c.m 0x1004, winAt c.m 0x5004, 0x12001008 + 0x100 * c.m, winAt c.m 0x8004].foldl
        (fun (p : List Nat × Dev) a => let r := p.2.word .clerk a; (p.1 ++ [r.1], r.2)) ([], d)
      ((w.2, mem), okWith (w.1 ++ [d.get ROLE_EPOCHn.EPOCH c.m])) }

/-- `CH_STATE`. -/
def execChState (m : Fin 9) (slot : Fin 16) (s : State) : Host.Outcome State Fault Refusal := orderChState.run m slot s

/-- ROLE_BUMP: what the channel's old epoch has asked for and has not landed is stale (R504, R505). -/
def orderRoleBump : Order :=
  { op := 0x101, epoch := chEpoch, own := noOwn, legal := anyArgs
    act := fun d mem c =>
      let d := d.countWrap ROLE_EPOCHn.EPOCH c.m
      ((d.goStale mem c.ch (fun a => a.fromMbx && a.grp.isNone && !a.stale), mem), okWith [d.get ROLE_EPOCHn.EPOCH c.m]) }

/-- `ROLE_BUMP`. -/
def execRoleBump (m : Fin 9) (slot : Fin 16) (s : State) : Host.Outcome State Fault Refusal := orderRoleBump.run m slot s

/-! ### The check of a table (R107) -/

/-- The descriptors as last written, which a table is checked against. -/
def Dev.withLatest (d : Dev) : Dev :=
  { d with mason := { d.mason with
    descs := d.mason.descPend ++ d.mason.descs.filter (fun (e : Nat × List Nat) => !d.mason.descPend.any (fun (p : Nat × List Nat) => p.1 = e.1)) } }

/-- A place on a path: a step and the loop stack on entering it, its counts left out. -/
abbrev Spot := Nat × List Lvl

/-- The stack with its counts left out. -/
def bareStack (st : List Lvl) : List Lvl := st.map (fun l => { l with done := 0 })

/-- Where a path can go from a legal step, and the cause of nesting or depth that it can run into there (R82, R84, R91): a loop returns
unless its body runs once. That a path passes step 8,191 is no matter of this check (R107). -/
def spotNext (s : Step) (i : Nat) (st : List Lvl) : List Spot × List Nat :=
  let on := fun (t : Nat) (st : List Lvl) => ((if 8191 < t then [] else [(t, st)] : List Spot), ([] : List Nat))
  let jumps := if s.type = 0 then s.targets.map (fun t => (t, popTo t st)) else []
  let ends : List Spot × List Nat :=
    if s.type = 2 || s.rep = 1 then ([], [])
    else if s.type = 0 && s.lpClose then
      match countLoop s i st with
      | .error c => ([], [c])
      | .ok [] => on (i + 1) []
      | .ok (top :: rest) =>
        let out := on (i + 1) (bareStack rest)
        if s.lpCount = 1 then out else ((s.lpBegin, bareStack (top :: rest)) :: out.1, out.2)
    else on (i + 1) st
  (jumps ++ ends.1, ends.2)

/-- The places met on every path from the places in the work list, and the failures (step, cause); a path ends at an illegal step. -/
def Dev.walkPaths (d : Dev) (mem : Memory) (n : Nat) : Nat → List Spot → List Spot → List (Nat × Nat) → List Spot × List (Nat × Nat)
  | 0, _, seen, bad => (seen, bad)
  | _ + 1, [], seen, bad => (seen, bad)
  | k + 1, p :: rest, seen, bad =>
    if seen.contains p then d.walkPaths mem n k rest seen bad
    else
      let s := readStep mem n p.1
      if d.stepCause mem n p.1 s ≠ 0 then d.walkPaths mem n k rest (p :: seen) bad
      else
        let x := spotNext s p.1 p.2
        d.walkPaths mem n k (x.1 ++ rest) (p :: seen) (x.2.map (fun c => (p.1, c)) ++ bad)

/-- The failures of the steps themselves (R104). -/
def Dev.stepFails (d : Dev) (mem : Memory) (n : Nat) : List (Nat × Nat) :=
  (List.range 8192).filterMap (fun i => let c := d.stepCause mem n i (readStep mem n i); if c = 0 then none else some (i, c))

/-- A bound on the places that any walk can meet: a stack holds at most four levels, each set by the step that closes it. -/
def walkFuel : Nat := 2 ^ 80

/-- Every path through a table from its entry points, each with an empty loop stack (R107). -/
def Dev.paths (d : Dev) (mem : Memory) (n : Nat) : List Spot × List (Nat × Nat) :=
  d.walkPaths mem n walkFuel ((d.entryPoints mem n).map (fun i => (i, []))) [] []

/-- The deepest loop nesting that the check finds on any path (R107). R507 gives it no result word and no register shows it: what the
check reports of it at an interface is a depth beyond 4, as cause 5. -/
def Dev.deepest (d : Dev) (mem : Memory) (n : Nat) : Nat :=
  let w := d.paths mem n
  (w.1.map (fun p => p.2.length)).foldl max (if w.2.any (fun x => x.2 = 5) then 5 else 0)

/-- The first failing step of a table with the lowest cause that applies to it. -/
def Dev.tableFail (d : Dev) (mem : Memory) (n : Nat) : Option (Nat × Nat) :=
  let all := d.stepFails mem n ++ (d.paths mem n).2
  match all with
  | [] => none
  | x :: xs =>
    let i := (xs.map (·.1)).foldl min x.1
    match (all.filter (fun y => y.1 = i)).map (·.2) with
    | [] => none
    | c :: cs => some (i, cs.foldl min c)

/-- Steps loaded into channel n's table from step `first` on, once the whole table passes (R65, R107). A hard at-risk reason has
no cause of R106: which number answers for it is open (log entry 1). -/
def tableLoad (n : Fin 8) (first : Nat) (bytes : List (BitVec 8)) (d : Dev) (mem : Memory) : (Dev × Memory) × Answer :=
  let new := mem.writeBytes (stepAt n first) bytes
  let e := d.withLatest.healGranules (n.val * 0x400000 + first * 0x20) bytes.length
  match e.tableFail new n with
  | some (i, c) => ((d, mem), .done 3 [i, c])
  | none =>
    match e.hardSteps new n with
    | i :: _ => let f := d.free; ((f.2, mem), .done 3 [i, f.1])
    | [] =>
      let p := e.riskPublish new n
      let d : Dev := { p with mason := { p.mason with descs := d.mason.descs } }
      match d.mason.risks.getD n [] with
      | [] => ((d, new), okWith [])
      | r :: rs => ((d, new), .done 7 [rs.length + 1, (rs.map (·.reason)).foldl min r.reason])

/-- TABLE_LOAD. -/
def orderTableLoad (buf : Option (List (BitVec 8))) : Order :=
  { op := 0x110, epoch := chEpoch
    own := fun _ c => [(SEQ_CTRL.OWN.id, c.m), (MSN_CTRL.OWN.id, 0)]
    legal := fun _ _ c => c.aligned && c.bits 2 0 13 + c.bits 2 16 13 + 1 ≤ 8192
    act := fun d mem c =>
      if !d.seqIdle c.m then ((d, mem), busy3)
      else withBuf buf (fun _ c => 32 * (c.bits 2 16 13 + 1)) (fun bytes d mem c => tableLoad c.ch (c.bits 2 0 13) bytes d mem) d mem c }

/-- `TABLE_LOAD`. -/
def execTableLoad (m : Fin 9) (slot : Fin 16) (buf : Option (List (BitVec 8))) (s : State) : Host.Outcome State Fault Refusal :=
  (orderTableLoad buf).run m slot s

/-- STEP_WRITE. -/
def orderStepWrite : Order :=
  { op := 0x111, epoch := chEpoch
    own := fun _ c => [(SEQ_CTRL.OWN.id, c.m), (MSN_CTRL.OWN.id, 0)]
    legal := anyArgs
    act := fun d mem c => tableLoad c.ch (c.bits 0 0 13) (wordsBytes ((List.range 8).map (fun k => c.arg (1 + k)))) d mem }

/-- `STEP_WRITE`. -/
def execStepWrite (m : Fin 9) (slot : Fin 16) (s : State) : Host.Outcome State Fault Refusal := orderStepWrite.run m slot s

/-! ### Commands of the sequencer -/

/-- SEQ_CMD (R36, R39, R101, R109). -/
def orderSeqCmd : Order :=
  { op := 0x112, epoch := chEpoch, own := ownCh SEQ_CTRL.OWN
    legal := fun d _ c => c.near d
    act := fun d mem c =>
      if c.late d then ((d, mem), .done 6 [])
      else
        let j := c.land d
        let d := d.enrol c 0x112 j 1 0 [(SEQ_CTRL.OWN.id, c.m)]
        ((d.seqAct c.ch (c.bits 2 0 2) (c.bits 2 16 13) j c.m c.slot none, mem), .goes) }

/-- `SEQ_CMD`. -/
def execSeqCmd (m : Fin 9) (slot : Fin 16) (s : State) : Host.Outcome State Fault Refusal := orderSeqCmd.run m slot s

/-- SEQ_TRIG (R100). -/
def orderSeqTrig : Order :=
  { op := 0x113, epoch := chEpoch, own := ownCh SEQ_CTRL.OWN
    legal := fun _ _ c => !trigBad (c.arg 0)
    act := okDev (fun d c => d.trigSet c.m (c.arg 0)) }

/-- `SEQ_TRIG`. -/
def execSeqTrig (m : Fin 9) (slot : Fin 16) (s : State) : Host.Outcome State Fault Refusal := orderSeqTrig.run m slot s

/-- SNAP (R88, R89): a snapshot at the next joint. -/
def orderSnap : Order :=
  { op := 0x118, epoch := noEpoch, own := ownCh SEQ_CTRL.OWN, legal := anyArgs
    act := fun d mem c =>
      if d.flag SEQ_SNAP.DONE c.m then ((d, mem), busy3)
      else (((d.enrol c 0x118 (d.time.crs + 1) 1 0 [(SEQ_CTRL.OWN.id, c.m)]).raise SEQ_SNAP.PEND c.m, mem), .goes) }

/-- `SNAP`. -/
def execSnap (m : Fin 9) (slot : Fin 16) (s : State) : Host.Outcome State Fault Refusal := orderSnap.run m slot s

end Sys2Proof.Machine
end

