-- ==== Sys2Proof/Machine/Dispatch.lean ====
section
/-! DEFINITION. One arm per command: a direct call of its meaning. -/
namespace Sys2Proof.Machine

/-- What a command does to everything but the queue (a command without a meaning yet is refused by name). -/
def exec (i : Instr) (s : State) : Host.Outcome State Fault Refusal :=
  match i with
  | .joint => Sys2Proof.Machine.execJoint s
  | .layCourse n => Sys2Proof.Machine.execLayCourse n s
  | .syncInEdge rising fine widthPs => Sys2Proof.Machine.execSyncInEdge rising fine widthPs s
  | .refLoss => Sys2Proof.Machine.execRefLoss s
  | .pllUnlock => Sys2Proof.Machine.execPllUnlock s
  | .pllLock => Sys2Proof.Machine.execPllLock s
  | .crsLenWrite w => Sys2Proof.Machine.execCrsLenWrite w s
  | .crsNowRead r => Sys2Proof.Machine.execCrsNowRead r s
  | .cqAheadWrite n ahead => Sys2Proof.Machine.execCqAheadWrite n ahead s
  | .bar4Write off bytes => Sys2Proof.Machine.execBar4Write off bytes s
  | .seqCmdStart n => Sys2Proof.Machine.execSeqCmdStart n s
  | .seqCmdStop n => Sys2Proof.Machine.execSeqCmdStop n s
  | .seqCmdRestart n => Sys2Proof.Machine.execSeqCmdRestart n s
  | .seqTrigWrite n w => Sys2Proof.Machine.execSeqTrigWrite n w s
  | .seqSnapReq n => Sys2Proof.Machine.execSeqSnapReq n s
  | .lockstepMismatch n => Sys2Proof.Machine.execLockstepMismatch n s
  | .pairTestDone n pass => Sys2Proof.Machine.execPairTestDone n pass s
  | .trigEdge n rising fine widthPs => Sys2Proof.Machine.execTrigEdge n rising fine widthPs s
  | .lineFire l => Sys2Proof.Machine.execLineFire l s
  | .fastJumpCut n => Sys2Proof.Machine.execFastJumpCut n s
  | .fastJumpBusyEnd n => Sys2Proof.Machine.execFastJumpBusyEnd n s
  | .evlFireWrite lines => Sys2Proof.Machine.execEvlFireWrite lines s
  | .evlSrcWrite l r w => Sys2Proof.Machine.execEvlSrcWrite l r w s
  | .evlDstWrite l r w => Sys2Proof.Machine.execEvlDstWrite l r w s
  | .evsFireWrite w => Sys2Proof.Machine.execEvsFireWrite w s
  | .eventCellInsert port => Sys2Proof.Machine.execEventCellInsert port s
  | .sysEventReceive orig seq id land => Sys2Proof.Machine.execSysEventReceive orig seq id land s
  | .lateNoticeReceive id => Sys2Proof.Machine.execLateNoticeReceive id s
  | .hpEvirqAck w => Sys2Proof.Machine.execHpEvirqAck w s
  | .ddsAmpWrite n w => Sys2Proof.Machine.execDdsAmpWrite n w s
  | .ddsEpochWrite n w => Sys2Proof.Machine.execDdsEpochWrite n w s
  | .ddsApply n => Sys2Proof.Machine.execDdsApply n s
  | .lvEnWrite n en => Sys2Proof.Machine.execLvEnWrite n en s
  | .lvDlyWrite n user => Sys2Proof.Machine.execLvDlyWrite n user s
  | .hvEnWrite n en => Sys2Proof.Machine.execHvEnWrite n en s
  | .hvClampWrite n w => Sys2Proof.Machine.execHvClampWrite n w s
  | .hvSlewWrite n w => Sys2Proof.Machine.execHvSlewWrite n w s
  | .hvIlimWrite n w => Sys2Proof.Machine.execHvIlimWrite n w s
  | .hvPdCoefWrite n bank word w => Sys2Proof.Machine.execHvPdCoefWrite n bank word w s
  | .pdSwap n => Sys2Proof.Machine.execPdSwap n s
  | .scClr n => Sys2Proof.Machine.execScClr n s
  | .tripClr n => Sys2Proof.Machine.execTripClr n s
  | .hvRxWrite n w => Sys2Proof.Machine.execHvRxWrite n w s
  | .rxCommand n => Sys2Proof.Machine.execRxCommand n s
  | .rxBallInBand n => Sys2Proof.Machine.execRxBallInBand n s
  | .rxWaitTimeout n => Sys2Proof.Machine.execRxWaitTimeout n s
  | .railMeasure die vhp vhn vhl => Sys2Proof.Machine.execRailMeasure die vhp vhn vhl s
  | .railWindowRestored die => Sys2Proof.Machine.execRailWindowRestored die s
  | .enablingSwitchClose n passed => Sys2Proof.Machine.execEnablingSwitchClose n passed s
  | .hvEnFall => Sys2Proof.Machine.execHvEnFall s
  | .hvRampdownEnd => Sys2Proof.Machine.execHvRampdownEnd s
  | .hvEnStable => Sys2Proof.Machine.execHvEnStable s
  | .ilimOnset n => Sys2Proof.Machine.execIlimOnset n s
  | .shortDeclared n gapMs => Sys2Proof.Machine.execShortDeclared n gapMs s
  | .foldBackEnd n => Sys2Proof.Machine.execFoldBackEnd n s
  | .segRetire n seg => Sys2Proof.Machine.execSegRetire n seg s
  | .pwrLimitCrossed n mw => Sys2Proof.Machine.execPwrLimitCrossed n mw s
  | .pwrTripSecondStage n total => Sys2Proof.Machine.execPwrTripSecondStage n total s
  | .snsAWrite n w => Sys2Proof.Machine.execSnsAWrite n w s
  | .sieveCfgWrite n reg w => Sys2Proof.Machine.execSieveCfgWrite n reg w s
  | .sieveRunStart n => Sys2Proof.Machine.execSieveRunStart n s
  | .sieveRunStop n => Sys2Proof.Machine.execSieveRunStop n s
  | .tapOutput n k codes => Sys2Proof.Machine.execTapOutput n k codes s
  | .cmpWrite n k ctrl w => Sys2Proof.Machine.execCmpWrite n k ctrl w s
  | .capCtrlWrite n k len w => Sys2Proof.Machine.execCapCtrlWrite n k len w s
  | .capRdWrite n k w => Sys2Proof.Machine.execCapRdWrite n k w s
  | .captureBlockComplete n k => Sys2Proof.Machine.execCaptureBlockComplete n k s
  | .returnWordBad n lost => Sys2Proof.Machine.execReturnWordBad n lost s
  | .sampleWordBad n inRow => Sys2Proof.Machine.execSampleWordBad n inRow s
  | .plbReqWrite n kind => Sys2Proof.Machine.execPlbReqWrite n kind s
  | .plbModeWrite n table => Sys2Proof.Machine.execPlbModeWrite n table s
  | .plbLoad n => Sys2Proof.Machine.execPlbLoad n s
  | .plumbCommitPhase n set lvOver hvOver lvRes hvRes pdBad => Sys2Proof.Machine.execPlumbCommitPhase n set lvOver hvOver lvRes hvRes pdBad s
  | .calAutoStore good => Sys2Proof.Machine.execCalAutoStore good s
  | .masonWalk n => Sys2Proof.Machine.execMasonWalk n s
  | .pageFetchDone n page bytes => Sys2Proof.Machine.execPageFetchDone n page bytes s
  | .msnCheck => Sys2Proof.Machine.execMsnCheck s
  | .atRiskCheckDone => Sys2Proof.Machine.execAtRiskCheckDone s
  | .requestPost => Sys2Proof.Machine.execRequestPost s
  | .msnCqDoorbell tail entries => Sys2Proof.Machine.execMsnCqDoorbell tail entries s
  | .completionBufferRead tag bytes => Sys2Proof.Machine.execCompletionBufferRead tag bytes s
  | .backingTimeout tag => Sys2Proof.Machine.execBackingTimeout tag s
  | .backingRetry => Sys2Proof.Machine.execBackingRetry s
  | .hostReadFail page => Sys2Proof.Machine.execHostReadFail page s
  | .msnDescWindowRead => Sys2Proof.Machine.execMsnDescWindowRead s
  | .msnDescWindowWrite => Sys2Proof.Machine.execMsnDescWindowWrite s
  | .msnExtCommit idx => Sys2Proof.Machine.execMsnExtCommit idx s
  | .msnHzWrite n dhz w => Sys2Proof.Machine.execMsnHzWrite n dhz w s
  | .msnBwWrite w => Sys2Proof.Machine.execMsnBwWrite w s
  | .starveBegin n => Sys2Proof.Machine.execStarveBegin n s
  | .sramScrub arr bank row found many => Sys2Proof.Machine.execSramScrub arr bank row found many s
  | .columnRepairDone arr bank => Sys2Proof.Machine.execColumnRepairDone arr bank s
  | .startupMarchDone bad => Sys2Proof.Machine.execStartupMarchDone bad s
  | .memMtStart w => Sys2Proof.Machine.execMemMtStart w s
  | .marchTestDone cols abort => Sys2Proof.Machine.execMarchTestDone cols abort s
  | .refreshDue n r pending => Sys2Proof.Machine.execRefreshDue n r pending s
  | .dramTempPoll n band => Sys2Proof.Machine.execDramTempPoll n band s
  | .powerDownEntry n r => Sys2Proof.Machine.execPowerDownEntry n r s
  | .selfRefreshEntry n r => Sys2Proof.Machine.execSelfRefreshEntry n r s
  | .dramReadResult n addr found port bursts drain hot late => Sys2Proof.Machine.execDramReadResult n addr found port bursts drain hot late s
  | .rankDrainDone n r => Sys2Proof.Machine.execRankDrainDone n r s
  | .rankSweepDone n r win => Sys2Proof.Machine.execRankSweepDone n r win s
  | .dmcPageWrite n page => Sys2Proof.Machine.execDmcPageWrite n page s
  | .dmcQosWrite n p target => Sys2Proof.Machine.execDmcQosWrite n p target s
  | .dmcLpWrite n w => Sys2Proof.Machine.execDmcLpWrite n w s
  | .cellReceive p cls payload good cv act => Sys2Proof.Machine.execCellReceive p cls payload good cv act s
  | .linkFrameReceive p f b same => Sys2Proof.Machine.execLinkFrameReceive p f b same s
  | .linkLost p cv => Sys2Proof.Machine.execLinkLost p cv s
  | .linkUp p delay => Sys2Proof.Machine.execLinkUp p delay s
  | .haltSymbolReceive p => Sys2Proof.Machine.execHaltSymbolReceive p s
  | .joinStart => Sys2Proof.Machine.execJoinStart s
  | .joinRequestReceive => Sys2Proof.Machine.execJoinRequestReceive s
  | .rejoinStart => Sys2Proof.Machine.execRejoinStart s
  | .recalDone p asym => Sys2Proof.Machine.execRecalDone p asym s
  | .evictTimeout index => Sys2Proof.Machine.execEvictTimeout index s
  | .ringRoleWrite role => Sys2Proof.Machine.execRingRoleWrite role s
  | .ringJoinCmd => Sys2Proof.Machine.execRingJoinCmd s
  | .ringRejoinCmd => Sys2Proof.Machine.execRingRejoinCmd s
  | .ringRecalCmd => Sys2Proof.Machine.execRingRecalCmd s
  | .ringMsgGo w => Sys2Proof.Machine.execRingMsgGo w s
  | .ringMsgReceive src seq bytes whole => Sys2Proof.Machine.execRingMsgReceive src seq bytes whole s
  | .ringMrxPop => Sys2Proof.Machine.execRingMrxPop s
  | .benchFrameReceive dst src etype fcs syms jabber ago body => Sys2Proof.Machine.execBenchFrameReceive dst src etype fcs syms jabber ago body s
  | .benchFire => Sys2Proof.Machine.execBenchFire s
  | .transmitOpportunity => Sys2Proof.Machine.execTransmitOpportunity s
  | .benchFrameSent colls late => Sys2Proof.Machine.execBenchFrameSent colls late s
  | .beaconReceive => Sys2Proof.Machine.execBeaconReceive s
  | .beaconTimeout => Sys2Proof.Machine.execBeaconTimeout s
  | .beaconSend => Sys2Proof.Machine.execBeaconSend s
  | .stopHoldExpiry => Sys2Proof.Machine.execStopHoldExpiry s
  | .ptpMessageReceive sync ofs held ns => Sys2Proof.Machine.execPtpMessageReceive sync ofs held ns s
  | .ptpSyncTimeout => Sys2Proof.Machine.execPtpSyncTimeout s
  | .bbPlcaWrite w => Sys2Proof.Machine.execBbPlcaWrite w s
  | .bbFilterWrite x word w => Sys2Proof.Machine.execBbFilterWrite x word w s
  | .bbTemplateWrite x word w => Sys2Proof.Machine.execBbTemplateWrite x word w s
  | .bbHtxGo w => Sys2Proof.Machine.execBbHtxGo w s
  | .bbRxqPop => Sys2Proof.Machine.execBbRxqPop s
  | .bbTodRead r => Sys2Proof.Machine.execBbTodRead r s
  | .mbxDoorbell m slot => Sys2Proof.Machine.execMbxDoorbell m slot s
  | .mbxDoneClear m w => Sys2Proof.Machine.execMbxDoneClear m w s
  | .info m slot => Sys2Proof.Machine.execInfo m slot s
  | .fwStage m slot buf good => Sys2Proof.Machine.execFwStage m slot buf good s
  | .fwCommit m slot trusted => Sys2Proof.Machine.execFwCommit m slot trusted s
  | .fwRestart m slot => Sys2Proof.Machine.execFwRestart m slot s
  | .flashCfg m slot good => Sys2Proof.Machine.execFlashCfg m slot good s
  | .calStore m slot good => Sys2Proof.Machine.execCalStore m slot good s
  | .descWrite m slot => Sys2Proof.Machine.execDescWrite m slot s
  | .descRead m slot => Sys2Proof.Machine.execDescRead m slot s
  | .descFree m slot => Sys2Proof.Machine.execDescFree m slot s
  | .extSet m slot => Sys2Proof.Machine.execExtSet m slot s
  | .upload m slot buf => Sys2Proof.Machine.execUpload m slot buf s
  | .release m slot => Sys2Proof.Machine.execRelease m slot s
  | .backing m slot => Sys2Proof.Machine.execBacking m slot s
  | .lineSet m slot => Sys2Proof.Machine.execLineSet m slot s
  | .sysMap m slot => Sys2Proof.Machine.execSysMap m slot s
  | .sysFire m slot => Sys2Proof.Machine.execSysFire m slot s
  | .sysTxSet m slot => Sys2Proof.Machine.execSysTxSet m slot s
  | .groupSet m slot => Sys2Proof.Machine.execGroupSet m slot s
  | .groupAct m slot => Sys2Proof.Machine.execGroupAct m slot s
  | .crsSet m slot => Sys2Proof.Machine.execCrsSet m slot s
  | .syncSet m slot => Sys2Proof.Machine.execSyncSet m slot s
  | .ringCtl m slot => Sys2Proof.Machine.execRingCtl m slot s
  | .ringMsg m slot => Sys2Proof.Machine.execRingMsg m slot s
  | .benchCfg m slot => Sys2Proof.Machine.execBenchCfg m slot s
  | .benchAllow m slot => Sys2Proof.Machine.execBenchAllow m slot s
  | .benchFilter m slot => Sys2Proof.Machine.execBenchFilter m slot s
  | .benchTemplate m slot => Sys2Proof.Machine.execBenchTemplate m slot s
  | .benchSend m slot => Sys2Proof.Machine.execBenchSend m slot s
  | .power m slot => Sys2Proof.Machine.execPower m slot s
  | .memTest m slot => Sys2Proof.Machine.execMemTest m slot s
  | .chState m slot => Sys2Proof.Machine.execChState m slot s
  | .roleBump m slot => Sys2Proof.Machine.execRoleBump m slot s
  | .tableLoad m slot buf => Sys2Proof.Machine.execTableLoad m slot buf s
  | .stepWrite m slot => Sys2Proof.Machine.execStepWrite m slot s
  | .seqCmd m slot => Sys2Proof.Machine.execSeqCmd m slot s
  | .seqTrig m slot => Sys2Proof.Machine.execSeqTrig m slot s
  | .snap m slot => Sys2Proof.Machine.execSnap m slot s
  | .lvSet m slot => Sys2Proof.Machine.execLvSet m slot s
  | .hvSet m slot => Sys2Proof.Machine.execHvSet m slot s
  | .hvClear m slot => Sys2Proof.Machine.execHvClear m slot s
  | .delay m slot => Sys2Proof.Machine.execDelay m slot s
  | .phLoad m slot buf => Sys2Proof.Machine.execPhLoad m slot buf s
  | .phOffset m slot => Sys2Proof.Machine.execPhOffset m slot s
  | .phCfg m slot => Sys2Proof.Machine.execPhCfg m slot s
  | .tapSet m slot => Sys2Proof.Machine.execTapSet m slot s
  | .sosLoad m slot => Sys2Proof.Machine.execSosLoad m slot s
  | .sieveRun m slot => Sys2Proof.Machine.execSieveRun m slot s
  | .cmpSet m slot => Sys2Proof.Machine.execCmpSet m slot s
  | .capRing m slot => Sys2Proof.Machine.execCapRing m slot s
  | .capSet m slot => Sys2Proof.Machine.execCapSet m slot s
  | .calSlot m slot => Sys2Proof.Machine.execCalSlot m slot s
  | .calMode m slot => Sys2Proof.Machine.execCalMode m slot s
  | .calSave m slot => Sys2Proof.Machine.execCalSave m slot s
  | .calRestore m slot buf => Sys2Proof.Machine.execCalRestore m slot buf s
  | .msnSet m slot => Sys2Proof.Machine.execMsnSet m slot s
  | .msnRisks m slot => Sys2Proof.Machine.execMsnRisks m slot s
  | .dramSet m slot => Sys2Proof.Machine.execDramSet m slot s
  | .dramDrain m slot => Sys2Proof.Machine.execDramDrain m slot s
  | .urgentQuiet mask => Sys2Proof.Machine.execUrgentQuiet mask s
  | .urgentRelease mask => Sys2Proof.Machine.execUrgentRelease mask s
  | .urgentHalt => Sys2Proof.Machine.execUrgentHalt s
  | .urgentHvOff => Sys2Proof.Machine.execUrgentHvOff s
  | .urgentClerkReset => Sys2Proof.Machine.execUrgentClerkReset s
  | .dmaTailDoorbell q tail => Sys2Proof.Machine.execDmaTailDoorbell q tail s
  | .dmaDescriptorDone q g data hostErr ue => Sys2Proof.Machine.execDmaDescriptorDone q g data hostErr ue s
  | .dmaEnableWrite q en => Sys2Proof.Machine.execDmaEnableWrite q en s
  | .dmaResume q => Sys2Proof.Machine.execDmaResume q s
  | .regWrite bar off bytes poison news => Sys2Proof.Machine.execRegWrite bar off bytes poison news s
  | .barReadTimeout bar off => Sys2Proof.Machine.execBarReadTimeout bar off s
  | .perstN low => Sys2Proof.Machine.execPerstN low s
  | .functionLevelReset => Sys2Proof.Machine.execFunctionLevelReset s
  | .hotReset => Sys2Proof.Machine.execHotReset s
  | .linkDown => Sys2Proof.Machine.execLinkDown s
  | .porNAssert => Sys2Proof.Machine.execPorNAssert s
  | .porNRelease straps => Sys2Proof.Machine.execPorNRelease straps s
  | .bootStepComplete ms x => Sys2Proof.Machine.execBootStepComplete ms x s
  | .railLow r => Sys2Proof.Machine.execRailLow r s
  | .railLowRecovered straps => Sys2Proof.Machine.execRailLowRecovered straps s
  | .pwrGo req => Sys2Proof.Machine.execPwrGo req s
  | .powerEntryDone => Sys2Proof.Machine.execPowerEntryDone s
  | .wakeDone => Sys2Proof.Machine.execWakeDone s
  | .tempSample hv sensor t => Sys2Proof.Machine.execTempSample hv sensor t s
  | .thermHoldEnd => Sys2Proof.Machine.execThermHoldEnd s
  | .flashFetch running rested => Sys2Proof.Machine.execFlashFetch running rested s
  | .clrNAssert => Sys2Proof.Machine.execClrNAssert s
  | .clrNRelease => Sys2Proof.Machine.execClrNRelease s
  | .haltNLow => Sys2Proof.Machine.execHaltNLow s
  | .haltNResample low => Sys2Proof.Machine.execHaltNResample low s
  | .porterHaltRel => Sys2Proof.Machine.execPorterHaltRel s
  | .porterFaultClear w => Sys2Proof.Machine.execPorterFaultClear w s
  | .porterClrHvOff => Sys2Proof.Machine.execPorterClrHvOff s
  | .porterClrTsd => Sys2Proof.Machine.execPorterClrTsd s
  | .porterLaneFail die => Sys2Proof.Machine.execPorterLaneFail die s
  | .porterLaneClean die => Sys2Proof.Machine.execPorterLaneClean die s
  | .wdtKick r => Sys2Proof.Machine.execWdtKick r s
  | .wdtExpiry ms => Sys2Proof.Machine.execWdtExpiry ms s
  | .hwdWrite w => Sys2Proof.Machine.execHwdWrite w s
  | .hwdKick => Sys2Proof.Machine.execHwdKick s
  | .hwdExpiry => Sys2Proof.Machine.execHwdExpiry s
  | .i2cRead word count marks => Sys2Proof.Machine.execI2cRead word count marks s
  | .i2cWrite word data => Sys2Proof.Machine.execI2cWrite word data s
  | .i2cBusTimeout => Sys2Proof.Machine.execI2cBusTimeout s
  | .stkSave good => Sys2Proof.Machine.execStkSave good s
  | .stkSegTest n passed => Sys2Proof.Machine.execStkSegTest n passed s
  | .stkScrubWrite w => Sys2Proof.Machine.execStkScrubWrite w s
  | .wearStore good => Sys2Proof.Machine.execWearStore good s
  | .dramScrub n addr found bursts hour last => Sys2Proof.Machine.execDramScrub n addr found bursts hour last s
  | .hvEnRise => Sys2Proof.Machine.execHvEnRise s
  | .pcieLinkUp width rate => Sys2Proof.Machine.execPcieLinkUp width rate s
  | .configSpaceWrite bme d3 msix mask => Sys2Proof.Machine.execConfigSpaceWrite bme d3 msix mask s
  | .regRead bar off enables found => Sys2Proof.Machine.execRegRead bar off enables found s
  | .sramReadError arr bank row ue reader gran again many cmd => Sys2Proof.Machine.execSramReadError arr bank row ue reader gran again many cmd s
  | .delayLineArrived n hv => Sys2Proof.Machine.execDelayLineArrived n hv s
  | .linkFrameSend => Sys2Proof.Machine.execLinkFrameSend s
  | .laneCellSend p => Sys2Proof.Machine.execLaneCellSend p s
  | .vaonLoss => Sys2Proof.Machine.execVaonLoss s
  | .vaonUp => Sys2Proof.Machine.execVaonUp s
  | .sequencingBreach => Sys2Proof.Machine.execSequencingBreach s
  | .powerOnHour => Sys2Proof.Machine.execPowerOnHour s
  | .clerkBeat => Sys2Proof.Machine.execClerkBeat s

end Sys2Proof.Machine
end

