-- ==== Sys2Proof/Machine/Step.lean ====
section
/-!
DEFINITION. One step: the command at the front of the queue, or a tick while none waits.
-/
namespace Sys2Proof.Machine

/-- No command waits: a tick of the course passes, if the tick clock runs and the course has one left (the joint is a command of
its own); else the block idles (DESIGN CHOICE, log entry 5). -/
def State.idle (s : State) : State :=
  if s.dev.ticking && s.dev.time.tick + 1 < s.dev.time.clen then s.withDev (s.dev.tickOn s.mem) else s

/-- One step: the command at the front of the queue has its effect on the rest. -/
def step (s : State) : Host.Outcome State Fault Refusal :=
  match s.pending with
  | [] => .next s.idle
  | c :: rest => exec c { s with pending := rest }

/-- The state with the command that a word spells at the front of its queue; no word spells one. -/
def State.withFetchWord (s : State) (nbits w : Nat) : State :=
  match decodeTableWord nbits w with
  | some c => { s with pending := c :: s.pending }
  | none => s

end Sys2Proof.Machine
end

