-- ==== Sys2Proof/Safety.lean ====
section
/-!
DEFINITION. What counts as a safe run: the terms in which claims are made.
-/
namespace Sys2Proof.Machine
open Reg

/-- The memories of the block have their canonical form. -/
def State.memWf (s : State) : Bool := s.mem.wf

/-- The outcome is a next state. -/
def Outcome.goesOn (o : Host.Outcome State Fault Refusal) : Bool :=
  match o with
  | .next _ => true
  | _ => false

/-- The key of a field at indices n, i in the register bank. -/
def Fld.at (f : Fld) (n : Nat := 0) (i : Nat := 0) : Key := (f.id, n, i)

/-- Every register field reads in `e` as in `d`, but for those at these keys. -/
def Dev.regsBut (d e : Dev) (ks : List Key) : Prop :=
  ∀ (g : Fld) (m j : Nat), (g.id, m, j) ∉ ks → e.get g m j = d.get g m j

/-- `e` is `d` but for the register fields at these keys: nothing behind the registers differs either. -/
def Dev.onlyRegs (d e : Dev) (ks : List Key) : Prop := e = { d with regs := e.regs } ∧ d.regsBut e ks

/-- Every channel but n is in `e` as in `d`. -/
def Dev.chsBut (d e : Dev) (n : Fin 8) : Prop := ∀ m : Fin 8, m ≠ n → e.chs[m] = d.chs[m]

/-- Slot `slot` of mailbox m is DONE with this status and these result words (R496, R497). -/
def Dev.answered (d : Dev) (m slot status : Nat) (res : List Nat) : Prop :=
  d.bit MBX_DONEm.DONE m 0 slot = true ∧ d.bit MBX_BUSYm.BUSY m 0 slot = false
  ∧ d.mbx.word (slotWordAt m slot 1) % 2 ^ 16 = status * 2 ^ 8 + res.length
  ∧ ∀ k (h : k < res.length), d.mbx.word (slotWordAt m slot (2 + k)) = res[k] % 2 ^ 32

/-- The Clerk may take up row `o` in a slot of mailbox m: the slot's doorbell stands first in its mailbox, the slot holds the row's
opcode, and every check of R499 passes; the slot is BUSY, no field waits to become owned (R6), and the channel is not SRAM_ONLY. -/
def Dev.takesUp (d : Dev) (mem : Memory) (o : Order) (m : Fin 9) (slot : Fin 16) : Prop :=
  d.nextRung m slot = true ∧ d.knows m o.op = true ∧ d.opcodeIn m slot = o.op
  ∧ o.refusal d mem (d.call m slot) = none
  ∧ d.bit MBX_BUSYm.BUSY m 0 slot = true ∧ d.ownWait = [] ∧ (m.val < 8 → d.flag MSN_CHn_STAT.SRAM_ONLY m = false)

/-- The register keys that the end of a command of mailbox m changes. -/
def slotKeys (m : Fin 9) : List Key := [MBX_BUSYm.BUSY.at m, MBX_DONEm.DONE.at m]

/-- `e` is `d` with the command in a slot at its end: the slot answers, no register field changes but the mailbox's two and those
at these keys, and time stands. -/
def Dev.completes (d e : Dev) (m : Fin 9) (slot : Fin 16) (status : Nat) (res : List Nat) (ks : List Key) : Prop :=
  e.answered m slot status res ∧ d.regsBut e (slotKeys m ++ ks) ∧ e.time = d.time

/-- The command of a slot is under way: it waits for its landing point with this many parts still out. -/
def Dev.pends (d : Dev) (m : Fin 9) (slot : Fin 16) (op land left : Nat) : Prop :=
  ∃ took own, (⟨m, slot, op, land, left, 0, took, own⟩ : Cmd) ∈ d.cmds

/-- The command of a slot has begun and waits for something: nothing else differs but that it runs in these functions meanwhile (R6). -/
def Dev.waits (d e : Dev) (m : Fin 9) (slot : Fin 16) (own : List (Nat × Nat)) : Prop :=
  e = { d with cmds := e.cmds } ∧ (⟨m, slot, 0, 0, 0, 0, 0, own⟩ : Cmd) ∈ e.cmds
  ∧ ∀ c : Cmd, c.opcode ≠ 0 → (c ∈ e.cmds ↔ c ∈ d.cmds)

/-- The register keys that a request of port p to a rank of channel n changes (R376, R385, R386). -/
def requestKeys (n r p : Nat) : List Key := [DMC_RANKr.PD.at n r, DMC_RANKr.SELF_REF.at n r, DMC_QOSp.LATE.at n p]

/-- The register keys that the activation of a row of channel n changes (R389). -/
def hotKeys (n : Nat) : List Key := [DMC_STAT.HOT.at n, DMC_UE.HOT.at n, DMC_HOT.COUNT.at n, DMC_HOT.LAST_PORT.at n]

/-- The row of R507 that a mailbox command is, with its mailbox and slot. -/
def mailRow (i : Instr) : Option (Order × Fin 9 × Fin 16) :=
  match i with
  | .info m slot => some (orderInfo, m, slot)
  | .fwStage m slot buf good => some (orderFwStage buf good, m, slot)
  | .fwCommit m slot trusted => some (orderFwCommit trusted, m, slot)
  | .fwRestart m slot => some (orderFwRestart, m, slot)
  | .flashCfg m slot good => some (orderFlashCfg good, m, slot)
  | .calStore m slot good => some (orderCalStore good, m, slot)
  | .descWrite m slot => some (orderDescWrite, m, slot)
  | .descRead m slot => some (orderDescRead, m, slot)
  | .descFree m slot => some (orderDescFree, m, slot)
  | .extSet m slot => some (orderExtSet, m, slot)
  | .upload m slot buf => some (orderUpload buf, m, slot)
  | .release m slot => some (orderRelease, m, slot)
  | .backing m slot => some (orderBacking, m, slot)
  | .lineSet m slot => some (orderLineSet, m, slot)
  | .sysMap m slot => some (orderSysMap, m, slot)
  | .sysFire m slot => some (orderSysFire, m, slot)
  | .sysTxSet m slot => some (orderSysTxSet, m, slot)
  | .groupSet m slot => some (orderGroupSet, m, slot)
  | .groupAct m slot => some (orderGroupAct, m, slot)
  | .crsSet m slot => some (orderCrsSet, m, slot)
  | .syncSet m slot => some (orderSyncSet, m, slot)
  | .ringCtl m slot => some (orderRingCtl, m, slot)
  | .ringMsg m slot => some (orderRingMsg, m, slot)
  | .benchCfg m slot => some (orderBenchCfg, m, slot)
  | .benchAllow m slot => some (orderBenchAllow, m, slot)
  | .benchFilter m slot => some (orderBenchFilter, m, slot)
  | .benchTemplate m slot => some (orderBenchTemplate, m, slot)
  | .benchSend m slot => some (orderBenchSend, m, slot)
  | .power m slot => some (orderPower, m, slot)
  | .memTest m slot => some (orderMemTest, m, slot)
  | .chState m slot => some (orderChState, m, slot)
  | .roleBump m slot => some (orderRoleBump, m, slot)
  | .tableLoad m slot buf => some (orderTableLoad buf, m, slot)
  | .stepWrite m slot => some (orderStepWrite, m, slot)
  | .seqCmd m slot => some (orderSeqCmd, m, slot)
  | .seqTrig m slot => some (orderSeqTrig, m, slot)
  | .snap m slot => some (orderSnap, m, slot)
  | .lvSet m slot => some (orderLvSet, m, slot)
  | .hvSet m slot => some (orderHvSet, m, slot)
  | .hvClear m slot => some (orderHvClear, m, slot)
  | .delay m slot => some (orderDelay, m, slot)
  | .phLoad m slot buf => some (orderPhLoad buf, m, slot)
  | .phOffset m slot => some (orderPhOffset, m, slot)
  | .phCfg m slot => some (orderPhCfg, m, slot)
  | .tapSet m slot => some (orderTapSet, m, slot)
  | .sosLoad m slot => some (orderSosLoad, m, slot)
  | .sieveRun m slot => some (orderSieveRun, m, slot)
  | .cmpSet m slot => some (orderCmpSet, m, slot)
  | .capRing m slot => some (orderCapRing, m, slot)
  | .capSet m slot => some (orderCapSet, m, slot)
  | .calSlot m slot => some (orderCalSlot, m, slot)
  | .calMode m slot => some (orderCalMode, m, slot)
  | .calSave m slot => some (orderCalSave, m, slot)
  | .calRestore m slot buf => some (orderCalRestore buf, m, slot)
  | .msnSet m slot => some (orderMsnSet, m, slot)
  | .msnRisks m slot => some (orderMsnRisks, m, slot)
  | .dramSet m slot => some (orderDramSet, m, slot)
  | .dramDrain m slot => some (orderDramDrain, m, slot)
  | _ => none

end Sys2Proof.Machine
end

