-- ==== Sys2Proof/Certificates/Slice0/Obligations.lean ====
section
/-!
DEFINITION. The statements that the provers prove: what each command of the block does, in the words of the rules of spec/.
A statement that names a command says when it completes (its hypotheses are on the state and the operands alone), what the
next state holds, and what it leaves alone: `s.withDev e` keeps every byte of memory and the queue, `regsBut` and `onlyRegs`
name the register fields that can change.
-/
open Sys2Proof Sys2Proof.Machine Sys2Proof.Machine.Reg

/-! ### The queue of commands -/

/-- A step takes the command at the front of the queue and runs exactly its meaning on the rest (the queue is the model's, DESIGN
CHOICE, log entry 5). -/
def Obligations.StepRunsTheFrontCommand : Prop :=
  ∀ (c : Instr) (rest : List Instr) (s : State), step { s with pending := c :: rest } = exec c { s with pending := rest }

/-- A step on an empty queue answers a next state with the memories and the queue as they were; while the tick clock does not run,
nothing changes at all (DESIGN CHOICE, log entry 5). -/
def Obligations.IdleStep : Prop :=
  ∀ s : State, s.pending = [] →
    ∃ e, step s = .next (s.withDev e) ∧ (s.dev.ticking = false → e = s.dev)
      ∧ (s.dev.time.clen ≤ s.dev.time.tick + 1 → e = s.dev)

/-! ### Chapter 01: the course grid and the clocks -/

/-- R15 to R18: a legal length written while the lock is open and none is pending becomes the pending length, with the joint at
which it lands; any other write is refused with `LEN_REJ` and changes nothing else.
R24, R479, R618: a read of `CRS_NOW_LO` or of the first word of the bench-time record answers the low word and latches the rest for
that requester (an I2C read in the core cycle of a host's 4-byte read latches the host's shadow and leaves its own); no other shadow and
no register field changes. -/
def Obligations.CourseRegisters : Prop :=
  (∀ (s : State) (w : BitVec 32),
     let d := s.dev
     let v := w.toNat % 65536
     let ok := 64 ≤ v ∧ v ≤ 16384 ∧ v % 16 = 0 ∧ d.lenOpen = true ∧ d.flag CRS_CTRL.LEN_PEND = false
     (ok → ∃ e, exec (.crsLenWrite w) s = .next (s.withDev e)
       ∧ e.time = { d.time with lenPend := some (v, (if d.isRoot then d.time.crs + d.lmin else d.time.crs + 2), d.time.crs) }
       ∧ e.flag CRS_CTRL.LEN_PEND = true ∧ d.regsBut e [CRS_CTRL.LEN_PEND.at] ∧ e.chs = d.chs)
     ∧ (¬ ok → ∃ e, exec (.crsLenWrite w) s = .next (s.withDev e)
       ∧ e.flag CRS_STAT.LEN_REJ = true ∧ d.onlyRegs e [CRS_STAT.LEN_REJ.at]))
  ∧ (∀ (s : State) (r : Reader),
     let d := s.dev
     let q := if r.who = .i2c ∧ r.shared = true then .host else r.who
     (∃ e, exec (.crsNowRead r) s = .next (s.withDev e) ∧ e.regs = d.regs ∧ e.chs = d.chs
       ∧ e.reply.data = leBytes 4 (d.time.crs % 2 ^ 32) ∧ e.reply.abort = false
       ∧ e.shadow q = { d.shadow q with hi := d.time.crs / 2 ^ 32, tick := d.time.tick, clen := d.time.clen }
       ∧ (∀ x, x ≠ q → e.shadow x = d.shadow x) ∧ e.time.crs = d.time.crs ∧ e.time.tick = d.time.tick)
     ∧ (∃ e, exec (.bbTodRead r) s = .next (s.withDev e) ∧ e.regs = d.regs ∧ e.chs = d.chs
       ∧ e.reply.data = leBytes 4 (d.get BB_TOD_CRS_LO.CRS_LO) ∧ e.reply.abort = false
       ∧ e.shadow q = { d.shadow q with
           tod := [d.get BB_TOD_CRS_HI.CRS_HI, d.get BB_TOD_SEC_LO.SEC_LO, d.get BB_TOD_SEC_HI.SEC_HI, d.get BB_TOD_NS.NS] }
       ∧ (∀ x, x ≠ q → e.shadow x = d.shadow x) ∧ e.time.crs = d.time.crs))

/-- R49 to R52: an active SYNC_IN edge of 2 ns or more on a device that is not a member. Inside the capture window of a joint not yet
used it is accepted: counted, reported with the joint at which its shift lands, and queued as a shift while `SYNC_CTRL.EN`; outside
every window, or in a window already used, it is counted as rejected with its flag. On a member it is ignored with its flag. -/
def Obligations.SyncEdge : Prop :=
  ∀ (s : State) (rising : Bool) (fine : Fin 256) (width : Nat),
    let d := s.dev
    d.ticking = true → 2000 ≤ width → d.flag SYNC_CTRL.EDGE = !rising →
      (d.isMember = true → ∃ e, exec (.syncInEdge rising fine width) s = .next (s.withDev e)
        ∧ e.flag CRS_STAT.SYNC_IGN = true ∧ d.onlyRegs e [CRS_STAT.SYNC_IGN.at, SYNC_CNT.REJECT.at]
        ∧ e.get SYNC_CNT.REJECT = (d.get SYNC_CNT.REJECT + 1) % 2 ^ SYNC_CNT.REJECT.w)
      ∧ (d.isMember = false → d.syncWindow fine = none → ∃ e, exec (.syncInEdge rising fine width) s = .next (s.withDev e)
        ∧ e.flag CRS_STAT.SYNC_OOW = true ∧ d.onlyRegs e [CRS_STAT.SYNC_OOW.at, SYNC_CNT.REJECT.at]
        ∧ e.get SYNC_CNT.REJECT = (d.get SYNC_CNT.REJECT + 1) % 2 ^ SYNC_CNT.REJECT.w)
      ∧ (∀ j ofs, d.isMember = false → d.syncWindow fine = some (j, ofs) → d.time.winUsed = some j →
        ∃ e, exec (.syncInEdge rising fine width) s = .next (s.withDev e)
        ∧ e.flag CRS_STAT.SYNC_MULTI = true ∧ d.onlyRegs e [CRS_STAT.SYNC_MULTI.at, SYNC_CNT.REJECT.at]
        ∧ e.get SYNC_CNT.REJECT = (d.get SYNC_CNT.REJECT + 1) % 2 ^ SYNC_CNT.REJECT.w)
      ∧ (∀ j ofs, d.isMember = false → d.syncWindow fine = some (j, ofs) → d.time.winUsed ≠ some j →
        ∃ e, exec (.syncInEdge rising fine width) s = .next (s.withDev e)
        ∧ e.get SYNC_CNT.ACCEPT = (d.get SYNC_CNT.ACCEPT + 1) % 2 ^ SYNC_CNT.ACCEPT.w
        ∧ e.getPair SYNC_CRS_LO.CRS_LO SYNC_CRS_HI.CRS_HI = (if d.isRoot then j + d.lmin else j + 2) % 2 ^ 64
        ∧ e.time.winUsed = some j
        ∧ e.time.shifts = (if d.flag SYNC_CTRL.EN then
            d.time.shifts ++ [((if d.isRoot then j + d.lmin else j + 2), (ofs + 128) / 256, d.time.crs)] else d.time.shifts)
        ∧ e.chs = d.chs)

/-- R55 to R58: a lost reference sets `REF_LOSS`, and on a root without another candidate latches fault 12; a PLL lock outside reset
sets `LOCK`, keeps the counter, is the tick from which ticks since the lock count, and after the first lock flags a gap on every channel; a lock while locked, or in reset, changes
nothing.
R58: the loss of the PLL lock clears `LOCK`, sets `UNLOCK` and `CRS_STAT.GAP`, and latches fault 0 (no field waiting to become
owned); memory changes only where a running Sieve closes a capture record; while no lock is held it changes nothing. -/
def Obligations.ClockEvents : Prop :=
  (∀ s : State,
     let d := s.dev
     (∃ e, exec .refLoss s = .next (s.withDev e) ∧ e.flag CLK_STAT.REF_LOSS = true ∧ e.time = d.time ∧ e.chs = d.chs
       ∧ (d.isRoot = true → d.bestCand = none → e.bit PORTER_FAULT.CAUSE 0 0 12 = true)
       ∧ (d.isRoot = false → d.onlyRegs e [CLK_STAT.REF_LOSS.at]))
     ∧ (d.boot.up = true → d.locked = false → ∃ e, exec .pllLock s = .next (s.withDev e)
       ∧ e.locked = true ∧ e.time = { d.time with lock := d.time.abs } ∧ e.boot.locked1 = true ∧ e.chs = d.chs
       ∧ (d.boot.locked1 = true → ∀ n : Fin 8, e.flag DDS_STAT.GAP n = true)
       ∧ (d.boot.locked1 = false → d.regsBut e [CLK_STAT.LOCK.at]))
     ∧ ((d.boot.up = false ∨ d.locked = true) → exec .pllLock s = .next s))
  ∧ (∀ s : State,
     (s.dev.locked = true → s.dev.ownWait = [] → ∃ t, exec .pllUnlock s = .next t ∧ t.pending = s.pending
       ∧ ((∀ n : Fin 8, s.dev.flag SIEVE_STAT.RUNNING n = false) → t.mem = s.mem)
       ∧ t.dev.locked = false ∧ t.dev.flag CLK_STAT.UNLOCK = true ∧ t.dev.flag CRS_STAT.GAP = true
       ∧ t.dev.bit PORTER_FAULT.CAUSE 0 0 0 = true ∧ t.dev.time.crs = s.dev.time.crs)
     ∧ (s.dev.locked = false → exec .pllUnlock s = .next s))

/-- R21: while the tick clock runs and no admission to a ring waits, a joint begins the next course: the counter counts one and
the tick is 0; while it does not run, a joint changes nothing. -/
def Obligations.JointBeginsTheNextCourse : Prop :=
  ∀ s : State,
    (s.dev.ticking = true → s.dev.ring.admission = none → ∃ t, exec .joint s = .next t ∧ t.pending = s.pending
      ∧ t.dev.time.crs = (s.dev.time.crs + 1) % 2 ^ 64 ∧ t.dev.time.tick = 0)
    ∧ (s.dev.ticking = false → exec .joint s = .next s)

/-! ### Chapter 01: the course queue -/

/-- R27 to R29: `CQ_AHEAD_WRITE` takes 2 to 8 and refuses anything else with `CFG_REJ`; a channel that holds a credit lays exactly
one entry, for the course after those it has laid, and changes no register; one that holds none lays nothing. -/
def Obligations.CourseQueue : Prop :=
  ∀ (s : State) (n : Fin 8),
    let d := s.dev
    (∀ a : BitVec 4, 2 ≤ a.toNat → a.toNat ≤ 8 → ∃ e, exec (.cqAheadWrite n a) s = .next (s.withDev e)
      ∧ e.get CQ_CTRL.AHEAD n = a.toNat ∧ d.regsBut e [CQ_CTRL.AHEAD.at n] ∧ d.chsBut e n
      ∧ e.chs[n] = { d.chs[n] with aheadNext := some a.toNat })
    ∧ (∀ a : BitVec 4, (a.toNat < 2 ∨ 8 < a.toNat) → ∃ e, exec (.cqAheadWrite n a) s = .next (s.withDev e)
      ∧ e.flag CQ_STAT.CFG_REJ n = true ∧ d.onlyRegs e [CQ_STAT.CFG_REJ.at n])
    ∧ (d.mayLay n = true → ∃ e x, exec (.layCourse n) s = .next (s.withDev e)
      ∧ e.chs[n] = { d.chs[n] with laid := d.chs[n].laid ++ [x] }
      ∧ x.crs = (match d.chs[n].laid.getLast? with | some y => y.crs + 1 | none => d.time.crs + 1)
      ∧ e.regs = d.regs ∧ d.chsBut e n)
    ∧ (d.mayLay n = false → exec (.layCourse n) s = .next s)

/-! ### Chapter 02: the sequencers -/

/-- R64, R65, R305, R489: a BAR4 write of at most 512 bytes inside a channel's step table is stored, byte for byte, and no other byte
of memory changes; a write above the tables, or into the reserved upper half, stores nothing and sets its flag; a longer write stores nothing
and is recorded as refused. -/
def Obligations.StepTableWrite : Prop :=
  ∀ (s : State) (off : BitVec 26) (bytes : List (BitVec 8)),
    let o := off.toNat
    (bytes.length ≤ 512 → o < 0x2000000 → o % 0x400000 + bytes.length ≤ 0x40000 →
      ∃ t, exec (.bar4Write off bytes) s = .next t ∧ t.pending = s.pending ∧ t.dev.regs = s.dev.regs ∧ t.dev.chs = s.dev.chs
      ∧ (∀ i (h : i < bytes.length), t.mem.read (sramAt (o + i)) = bytes[i])
      ∧ ∀ a, (a < sramAt o ∨ sramAt o + bytes.length ≤ a) → t.mem.read a = s.mem.read a)
    ∧ (0 < bytes.length → bytes.length ≤ 512 → 0x2000000 ≤ o →
      ∃ t, exec (.bar4Write off bytes) s = .next t ∧ t.pending = s.pending ∧ t.mem = s.mem
      ∧ t.dev.flag MEM_STAT.B4_RSV = true ∧ s.dev.regsBut t.dev [MEM_STAT.B4_RSV.at])
    ∧ (0 < bytes.length → bytes.length ≤ 512 → o < 0x2000000 → 0x40000 ≤ o % 0x400000 → o % 0x400000 + bytes.length ≤ 0x400000 →
      ∃ t, exec (.bar4Write off bytes) s = .next t ∧ t.pending = s.pending ∧ t.mem = s.mem
      ∧ t.dev.flag MSN_STAT.B4_WR = true ∧ s.dev.regsBut t.dev [MSN_STAT.B4_WR.at])
    ∧ (512 < bytes.length → ∃ e, exec (.bar4Write off bytes) s = .next (s.withDev e)
      ∧ e.flag REG_ERR.VALID = true ∧ e.get REG_ERR.COUNT = satInc REG_ERR.COUNT.w (s.dev.get REG_ERR.COUNT) ∧ e.chs = s.dev.chs)

/-- R109: a write of `SEQ_CMD` whose joint lies less than two courses ahead sets `CMD_LATE`; one while a command is pending, or too far
ahead, or a START of an ARMED or RUNNING sequencer sets `CMD_REJ`; every cause that applies sets its flag and nothing else changes.
Otherwise the command is pending and its action is queued for its joint.
R100: a trigger policy word without an illegal code is taken, field by field; one with an illegal code is refused whole with
`CFG_REJ`. R89: a snapshot request while a snapshot is held changes nothing; otherwise it is pending. -/
def Obligations.SequencerCommands : Prop :=
  (∀ (s : State) (n : Fin 8) (c : Instr) (k : ActKind),
     (c, k) ∈ [(.seqCmdStart n, .start), (.seqCmdStop n, .stop), (.seqCmdRestart n, .restart)] →
     let d := s.dev
     let at_ := d.getPair SEQ_AT_LO.AT_LO SEQ_AT_HI.AT_HI n
     let land := if at_ = 0 then d.time.crs + 2 else at_
     let late := land < d.time.crs + 2
     let st := d.get SEQ_STAT.STATE n
     let rej := d.flag SEQ_STAT.CMD_PEND n = true ∨ d.time.crs + 2 ^ 24 < land ∨ (k = .start ∧ (st = 1 ∨ st = 2))
     ((late ∨ rej) → ∃ e, exec c s = .next (s.withDev e)
       ∧ (late → e.flag SEQ_STAT.CMD_LATE n = true) ∧ (rej → e.flag SEQ_STAT.CMD_REJ n = true)
       ∧ (¬ late → e.get SEQ_STAT.CMD_LATE n = d.get SEQ_STAT.CMD_LATE n)
       ∧ (¬ rej → e.get SEQ_STAT.CMD_REJ n = d.get SEQ_STAT.CMD_REJ n)
       ∧ d.onlyRegs e [SEQ_STAT.CMD_LATE.at n, SEQ_STAT.CMD_REJ.at n])
     ∧ (¬ late → ¬ rej → ∃ e a, exec c s = .next (s.withDev e) ∧ e.flag SEQ_STAT.CMD_PEND n = true
       ∧ e.chs[n] = { d.chs[n] with acts := d.chs[n].acts ++ [a] } ∧ a.kind = k ∧ a.org = .reg ∧ a.land = land ∧ a.acc = d.time.crs
       ∧ d.regsBut e [SEQ_STAT.CMD_PEND.at n, SEQ_STAT.STATE.at n] ∧ d.chsBut e n))
  ∧ (∀ (s : State) (n : Fin 8),
     let d := s.dev
     let illegal := fun (v : Nat) => bitsOf v 0 2 = 3 ∨ 2 ≤ bitsOf v 8 2 ∨ 2 ≤ bitsOf v 10 2 ∨ 2 ≤ bitsOf v 12 2 ∨ 2 ≤ bitsOf v 14 2
     (∀ w : BitVec 32, ¬ illegal w.toNat → ∃ e, exec (.seqTrigWrite n w) s = .next (s.withDev e)
       ∧ e.get SEQ_TRIG.START_POL n = bitsOf w.toNat 0 2 ∧ e.get SEQ_TRIG.JMP0_POL n = bitsOf w.toNat 8 2
       ∧ e.get SEQ_TRIG.JMP1_POL n = bitsOf w.toNat 10 2 ∧ e.get SEQ_TRIG.JMP2_POL n = bitsOf w.toNat 12 2
       ∧ e.get SEQ_TRIG.JMP3_POL n = bitsOf w.toNat 14 2
       ∧ d.onlyRegs e [SEQ_TRIG.START_POL.at n, SEQ_TRIG.JMP0_POL.at n, SEQ_TRIG.JMP1_POL.at n, SEQ_TRIG.JMP2_POL.at n,
           SEQ_TRIG.JMP3_POL.at n])
     ∧ (∀ w : BitVec 32, illegal w.toNat → ∃ e, exec (.seqTrigWrite n w) s = .next (s.withDev e)
       ∧ e.flag SEQ_STAT.CFG_REJ n = true ∧ d.onlyRegs e [SEQ_STAT.CFG_REJ.at n])
     ∧ (d.flag SEQ_SNAP.DONE n = false → ∃ e, exec (.seqSnapReq n) s = .next (s.withDev e)
       ∧ e.flag SEQ_SNAP.PEND n = true ∧ d.onlyRegs e [SEQ_SNAP.PEND.at n])
     ∧ (d.flag SEQ_SNAP.DONE n = true → exec (.seqSnapReq n) s = .next s))

/-- R111, R113, R114: a mismatch of a pair that plays counts, saturating, here and in the wear record, and sets `SWITCH`. Where the
spare is free, it takes the channel at once and lays the next course if nothing is laid after the mismatching course (outside the short
courses of R617); else the pair is halted until the courses laid before the mismatch have played. Where the spare is taken, a channel
without a run lays nothing and one with a run lays the entry in which the run ends in a step fault. A test that passes while the channel,
not RUNNING, is on the spare brings it home and frees the spare for every channel; one that fails retires the pair; where the channel is
not on the spare, its pair is retired, or it runs, the test does nothing. -/
def Obligations.Lockstep : Prop :=
  ∀ (s : State) (n : Fin 8),
    let d := s.dev
    let runs := match (d.chs[n].tip 0).mode with | .running | .calWait _ | .calSlot _ _ => true | _ => false
    (d.ticking = true → d.chs[n].badLay = none → ∃ e, exec (.lockstepMismatch n) s = .next (s.withDev e)
      ∧ e.get SEQ_LS.MISMATCH n = satInc SEQ_LS.MISMATCH.w (d.get SEQ_LS.MISMATCH n) % 2 ^ SEQ_LS.MISMATCH.w
      ∧ e.get STK_CHn_WEAR3.MISMATCH n = satInc STK_CHn_WEAR3.MISMATCH.w (d.get STK_CHn_WEAR3.MISMATCH n) % 2 ^ STK_CHn_WEAR3.MISMATCH.w
      ∧ e.flag SEQ_LS.SWITCH n = true ∧ e.time = d.time ∧ d.chsBut e n
      ∧ (d.spareFree n = true → d.chs[n].laid = [] → d.shortCourse = false → e.flag SEQ_LS.ON_SPARE n = true
          ∧ (∀ k : Fin 8, k ≠ n → e.flag SEQ_LS.SPARE_TAKEN k = true)
          ∧ ∃ x, e.chs[n] = { d.chs[n] with laid := [x] } ∧ x.crs = d.time.crs + 1)
      ∧ (d.spareFree n = true → (∀ y, d.chs[n].laid.getLast? = some y → y.crs ≠ d.time.crs) → d.chs[n].laid ≠ [] →
          e.chs[n] = { d.chs[n] with badLay := some (d.nextLay n) }
          ∧ d.regsBut e [SEQ_LS.MISMATCH.at n, SEQ_LS.SWITCH.at n, STK_CHn_WEAR3.MISMATCH.at n])
      ∧ (d.spareFree n = false → runs = false → e.chs = d.chs
          ∧ d.regsBut e [SEQ_LS.MISMATCH.at n, SEQ_LS.SWITCH.at n, STK_CHn_WEAR3.MISMATCH.at n])
      ∧ (d.spareFree n = false → runs = true → (∃ x, e.chs[n].laid.getLast? = some x ∧ x.crs = d.nextLay n
            ∧ x.before.lsEnd = some (d.nextLay n))
          ∧ d.regsBut e [SEQ_LS.MISMATCH.at n, SEQ_LS.SWITCH.at n, STK_CHn_WEAR3.MISMATCH.at n]))
    ∧ ((d.ticking = false ∨ d.chs[n].badLay ≠ none) → exec (.lockstepMismatch n) s = .next s)
    ∧ (d.flag SEQ_LS.ON_SPARE n = true → d.flag SEQ_LS.PAIR_RETIRED n = false → d.get SEQ_STAT.STATE n ≠ 2 →
      (∃ e, exec (.pairTestDone n true) s = .next (s.withDev e) ∧ e.flag SEQ_LS.ON_SPARE n = false
        ∧ (∀ k : Fin 8, e.flag SEQ_LS.SPARE_TAKEN k = false)
        ∧ d.onlyRegs e (SEQ_LS.ON_SPARE.at n :: allCh.map (fun k => SEQ_LS.SPARE_TAKEN.at k)))
      ∧ (∃ e, exec (.pairTestDone n false) s = .next (s.withDev e) ∧ e.flag SEQ_LS.PAIR_RETIRED n = true
        ∧ d.onlyRegs e [SEQ_LS.PAIR_RETIRED.at n]))
    ∧ (∀ pass : Bool, (d.flag SEQ_LS.ON_SPARE n = false ∨ d.flag SEQ_LS.PAIR_RETIRED n = true ∨ d.get SEQ_STAT.STATE n = 2) →
      exec (.pairTestDone n pass) s = .next s)

/-! ### Chapter 03: events -/

/-- R117, R125, R127: an edge is active in the direction that `TRIG_CTRL.EDGE` selects, on an enabled input, and 2 ns or more wide. While
no entry to SLEEP runs, an active edge that is the input's first or, while the tick clock runs, comes 2 ticks or more after the last one
taken gives every line that names the input a source at its place; one less than 2 ticks after the last one taken, or an edge that is not
active, changes nothing. Where the tick clock stands (R130) or an entry to SLEEP runs (R627), an edge is taken or lost as a free bit says.
R118, R123, R124: while the tick clock runs, a line with sources fires on the earliest capture tick among them: its firing waits for
the next tick, on which its consumers take it (where that tick has come it does not wait), and for the joint two courses on. In SLEEP a firing that has a consumer other than
WAKE or HALT_REQ is recorded in `EVL_SLEEP` and goes no further. A line without a source does nothing. R126: a software firing gives each
line selected one source, captured on the next tick, and touches nothing else. -/
def Obligations.TriggersAndLines : Prop :=
  (∀ (s : State) (n : Fin 8) (rising : Bool) (fine : Fin 256) (width : Nat),
     let d := s.dev
     let at_ := d.time.abs * 256 + fine.val
     let last := d.ev.trigLast.getD n none
     let active := d.bit TRIG_CTRL.EN 0 0 n = true ∧ d.bit TRIG_CTRL.EDGE 0 0 n = !rising ∧ 2000 ≤ width
     let taken := fun (e : Dev) => e.ev.trigLast = d.ev.trigLast.set n (some at_) ∧ ∃ new, e.ev.srcs = d.ev.srcs ++ new
       ∧ new.map (·.line) = d.linesOf (0x20 + n.val)
       ∧ ∀ x ∈ new, x.crs = d.time.crs ∧ x.tick = d.time.tick ∧ x.fine = fine.val ∧ x.trig = true
           ∧ (x.capCrs, x.cap) = d.tickAfter (if fine.val = 0 then 1 else 2)
     (d.power.entry ≠ some 2 → active → (last = none ∨ (d.ticking = true ∧ ∀ x, last = some x → x + 512 ≤ at_)) →
       ∃ e, exec (.trigEdge n rising fine width) s = .next (s.withDev e) ∧ taken e ∧ e.regs = d.regs ∧ e.chs = d.chs ∧ e.time = d.time)
     ∧ (d.power.entry ≠ some 2 → (¬ active ∨ (d.ticking = true ∧ ∃ x, last = some x ∧ at_ < x + 512)) →
       exec (.trigEdge n rising fine width) s = .next s)
     ∧ (∃ e, exec (.trigEdge n rising fine width) s = .next (s.withDev e) ∧ (taken e ∨ e.ev = d.ev)
       ∧ e.regs = d.regs ∧ e.chs = d.chs ∧ e.time = d.time))
  ∧ (∀ (s : State),
     let d := s.dev
     (∀ (l : Fin 64) (x : Src), d.ticking = true → x ∈ d.ev.srcs → x.line = l.val →
       (∀ y ∈ d.ev.srcs, y.line = l.val → x.capCrs < y.capCrs ∨ (x.capCrs = y.capCrs ∧ x.cap ≤ y.cap)) →
       ∃ e w, exec (.lineFire l) s = .next (s.withDev e) ∧ e.ev.waits.getLast? = some w ∧ w.line = l.val ∧ w.sys = none
       ∧ w.land = (d.placeOn x.capCrs x.cap 1).1 + 2
       ∧ (d.time.abs < (d.instant x.capCrs x.cap 0 / 256).toNat + 1 →
           ∃ f ∈ e.ev.fired, f.line = l.val ∧ f.place = d.placeOn x.capCrs x.cap 1))
     ∧ (∀ l : Fin 64, d.ticking = false → (∃ x ∈ d.ev.srcs, x.line = l.val) → ∃ e, exec (.lineFire l) s = .next (s.withDev e)
       ∧ e.ev.waits = d.ev.waits ∧ e.ev.fired = d.ev.fired
       ∧ (d.asleep = true → (∃ r ∈ d.routes l.val, r.2.1 ≠ 0x11 ∧ r.2.1 ≠ 0x12) →
           e.bit (if l.val < 32 then EVL_SLEEP_LO.SEEN_LO else EVL_SLEEP_HI.SEEN_HI) 0 0 (l.val % 32) = true))
     ∧ (∀ l : Fin 64, d.ev.srcs.filter (fun y => y.line = l.val) = [] → exec (.lineFire l) s = .next s)
     ∧ (∀ lines : BitVec 64, ∃ e new, exec (.evlFireWrite lines) s = .next (s.withDev e)
       ∧ e = { d with ev := { d.ev with srcs := d.ev.srcs ++ new } }
       ∧ new.map (·.line) = (List.range 64).filter (fun l => lines.getLsbD l)
       ∧ ∀ x ∈ new, (x.capCrs, x.cap) = d.tickAfter 1 ∧ x.soft = true ∧ x.trig = false))

/-- R120, R148: each half of a slot word is taken, its reserved bits read as 0, unless it activates a slot with a code that is not a
legal one for its side; a refused half keeps the slot and sets `CFG_REJ`. -/
def Obligations.EventLineSlots : Prop :=
  ∀ (s : State) (l : Fin 64) (w : BitVec 32),
    let d := s.dev
    let lo := bitsOf w.toNat 0 16
    let hi := bitsOf w.toNat 16 16
    (∀ r : Fin 4,
      let bad := fun x => bitAt x 15 = true ∧ prodLegal (x % 1024) = false
      ∃ e, exec (.evlSrcWrite l r w) s = .next (s.withDev e)
      ∧ (¬ bad lo → e.get EVL_SRCn_r.SLOT_LO l r = lo &&& 0x83FF) ∧ (¬ bad hi → e.get EVL_SRCn_r.SLOT_HI l r = hi &&& 0x83FF)
      ∧ (bad lo → e.get EVL_SRCn_r.SLOT_LO l r = d.get EVL_SRCn_r.SLOT_LO l r % 2 ^ 16)
      ∧ (bad hi → e.get EVL_SRCn_r.SLOT_HI l r = d.get EVL_SRCn_r.SLOT_HI l r % 2 ^ 16)
      ∧ ((bad lo ∨ bad hi) → e.flag EVL_STAT.CFG_REJ = true)
      ∧ (¬ bad lo → ¬ bad hi → e.get EVL_STAT.CFG_REJ = d.get EVL_STAT.CFG_REJ)
      ∧ d.onlyRegs e [EVL_SRCn_r.SLOT_LO.at l r, EVL_SRCn_r.SLOT_HI.at l r, EVL_STAT.CFG_REJ.at])
    ∧ (∀ r : Fin 8,
      let bad := fun x => bitAt x 15 = true ∧ consLegal (x % 1024) = false
      ∃ e, exec (.evlDstWrite l r w) s = .next (s.withDev e)
      ∧ (¬ bad lo → e.get EVL_DSTn_r.SLOT_LO l r = lo &&& 0xC3FF) ∧ (¬ bad hi → e.get EVL_DSTn_r.SLOT_HI l r = hi &&& 0xC3FF)
      ∧ (bad lo → e.get EVL_DSTn_r.SLOT_LO l r = d.get EVL_DSTn_r.SLOT_LO l r % 2 ^ 16)
      ∧ (bad hi → e.get EVL_DSTn_r.SLOT_HI l r = d.get EVL_DSTn_r.SLOT_HI l r % 2 ^ 16)
      ∧ ((bad lo ∨ bad hi) → e.flag EVL_STAT.CFG_REJ = true)
      ∧ (¬ bad lo → ¬ bad hi → e.get EVL_STAT.CFG_REJ = d.get EVL_STAT.CFG_REJ)
      ∧ d.onlyRegs e [EVL_DSTn_r.SLOT_LO.at l r, EVL_DSTn_r.SLOT_HI.at l r, EVL_STAT.CFG_REJ.at])

/-- R139, R144, R145: a system event fired by a register write is refused while the device is islanded (`REFUSED`) or has originated four
in the course (`RATE`); otherwise it is originated: one more this course, and `EVS_LAND` reads the joint at which it lands, the
requested distance after the present course but no nearer than L_min.
R141, R143, R411: a cell that waits for a port leaves it, oldest first; a port with none waiting sends nothing. A received system event that is new, on
a joined device and not older than its admission, is remembered; one that comes while the device joins is kept for its admission (R426); any other is dropped without a trace. A late notice marks the root alone. -/
def Obligations.SystemEvents : Prop :=
  (∀ (s : State) (w : BitVec 32),
     let d := s.dev
     let l := bitsOf w.toNat 16 8
     (d.islanded = true → ∃ e, exec (.evsFireWrite w) s = .next (s.withDev e)
       ∧ e.flag EVS_STAT.REFUSED = true ∧ d.onlyRegs e [EVS_STAT.REFUSED.at])
     ∧ (d.islanded = false → 4 ≤ d.ev.origs → ∃ e, exec (.evsFireWrite w) s = .next (s.withDev e)
       ∧ e.flag EVS_STAT.RATE = true ∧ d.onlyRegs e [EVS_STAT.RATE.at])
     ∧ (d.islanded = false → d.ev.origs < 4 → ∃ e, exec (.evsFireWrite w) s = .next (s.withDev e)
       ∧ e.ev.origs = d.ev.origs + 1 ∧ e.ev.seqNo = (d.ev.seqNo + 1) % 256
       ∧ e.getPair EVS_LAND_LO.LAND_LO EVS_LAND_HI.LAND_HI = (d.time.crs + (if l = 0 then d.lmin else max l d.lmin)) % 2 ^ 64
       ∧ (l ≠ 0 → l < d.lmin → e.flag EVS_STAT.L_RAISED = true) ∧ e.chs = d.chs ∧ e.time = d.time))
  ∧ (∀ (s : State),
     let d := s.dev
     (∀ (port : Fin 2) (x : Nat × Seen), d.ev.out.find? (fun y => y.1 = port.val) = some x →
       ∃ e ws, exec (.eventCellInsert port) s = .next (s.withDev e) ∧ e.ev.out = d.ev.out.erase x
       ∧ e.out = d.out ++ [.cell port ws] ∧ e.regs = d.regs ∧ e.chs = d.chs)
     ∧ (∀ port : Fin 2, d.ev.out.find? (fun y => y.1 = port.val) = none → exec (.eventCellInsert port) s = .next s)
     ∧ (∀ (orig : BitVec 10) (seq : BitVec 8) (id : BitVec 12) (land : BitVec 64),
       let x : Seen := ⟨orig.toNat, seq.toNat, id.toNat, land.toNat⟩
       let old := land.toNat < d.ring.takeFrom
       (d.islanded = false → (d.isMember = true ∨ d.isRoot = true) → x ∉ d.ev.seen → ¬ old →
         ∃ e, exec (.sysEventReceive orig seq id land) s = .next (s.withDev e) ∧ e.ev.seen = d.ev.seen ++ [x] ∧ e.chs = d.chs)
       ∧ (d.ringSt = 2 → ∃ e, exec (.sysEventReceive orig seq id land) s = .next (s.withDev e)
         ∧ e.ring.earlyEv = d.ring.earlyEv ++ [(orig.toNat, seq.toNat, id.toNat, land.toNat % 65536)] ∧ e.regs = d.regs ∧ e.chs = d.chs)
       ∧ (d.ringSt ≠ 2 → (d.islanded = true ∨ (d.isMember = false ∧ d.isRoot = false) ∨ x ∈ d.ev.seen ∨ old) →
         exec (.sysEventReceive orig seq id land) s = .next s))
     ∧ (∀ id : BitVec 12,
       (d.isRoot = true → ∃ e, exec (.lateNoticeReceive id) s = .next (s.withDev e)
         ∧ e.flag EVS_STAT.REMOTE_LATE = true ∧ d.regsBut e [EVS_STAT.REMOTE_LATE.at] ∧ e.chs = d.chs)
       ∧ (d.isRoot = false → exec (.lateNoticeReceive id) s = .next s)))

/-- R515: acknowledging event interrupts clears exactly the pending bits written 1. R137: the end of a fast jump's busy time takes the block
to the first tick 32 ticks after the cut, no further than the course goes; where that tick is reached the jump inputs take fast firings
again; an input that is not busy changes nothing. R132, R135, R138: the cut of a fast jump whose course plays ends the jump, where its tick has
come without a tick more, and where the playing entry carries it `FJ_LAST` reports it; a jump whose cut lies in a course to come stands,
and with none there is nothing to do. -/
def Obligations.AcknowledgeAndFastJump : Prop :=
  ∀ (s : State),
    let d := s.dev
    (∀ w : BitVec 8, ∃ e, exec (.hpEvirqAck w) s = .next (s.withDev e)
      ∧ (∀ b, b < 8 → e.bit HP_EVIRQ.PEND 0 0 b = (d.bit HP_EVIRQ.PEND 0 0 b && !w.getLsbD b)) ∧ d.onlyRegs e [HP_EVIRQ.PEND.at])
    ∧ (∀ (n : Fin 8) (x : Nat), d.chs[n].fjBusy = some x →
      (x ≤ d.time.abs → ∃ e, exec (.fastJumpBusyEnd n) s = .next (s.withDev e)
        ∧ e.chs[n] = { d.chs[n] with fjBusy := none } ∧ e.regs = d.regs ∧ d.chsBut e n)
      ∧ (d.time.abs < x → ∃ e, exec (.fastJumpBusyEnd n) s = .next (s.withDev e)
        ∧ e.time.crs = d.time.crs ∧ d.time.abs ≤ e.time.abs ∧ e.time.abs ≤ x ∧ (e.time.abs = x → e.chs[n].fjBusy = none)))
    ∧ (∀ n : Fin 8, d.chs[n].fjBusy = none → exec (.fastJumpBusyEnd n) s = .next s)
    ∧ (∀ (n : Fin 8) (j : FastJump), d.chs[n].jump = some j →
      (j.crs = d.time.crs → ∃ e, exec (.fastJumpCut n) s = .next (s.withDev e) ∧ e.chs[n].jump = none ∧ e.time.crs = d.time.crs)
      ∧ (j.crs = d.time.crs → j.tick ≤ d.time.tick →
        ∃ e, exec (.fastJumpCut n) s = .next (s.withDev e) ∧ e.chs[n] = { d.chs[n] with jump := none } ∧ d.chsBut e n
        ∧ ((d.chs[n].cur).any (fun x => x.fx.any (fun y => y.2 = .took j.act)) = true →
            e.flag FJ_LASTn.CUT n = true ∧ e.get FJ_LASTn.TICK n = j.tick % 2 ^ FJ_LASTn.TICK.w)
        ∧ d.regsBut e [FJ_LASTn.CUT.at n, FJ_LASTn.TICK.at n])
      ∧ (d.time.crs < j.crs → exec (.fastJumpCut n) s = .next s)
      ∧ (j.crs < d.time.crs → ∃ e, exec (.fastJumpCut n) s = .next (s.withDev e)
        ∧ e.chs[n] = { d.chs[n] with jump := none } ∧ e.regs = d.regs ∧ d.chsBut e n))
    ∧ (∀ n : Fin 8, d.chs[n].jump = none → exec (.fastJumpCut n) s = .next s)

/-! ### Chapter 04: the phase engine -/

/-- R154, R163: an amplitude above 1.0 in either half is refused with `CFG_REJ`, else both are taken; the epoch is taken whole while the
sequencer is STOPPED or in FAULT, else refused with `CFG_REJ`.
R169 to R171: a phase-offset request whose joint lies less than two courses ahead sets `APPLY_LATE`; one too far ahead, or while
another is pending, sets `APPLY_REJ`; else it is pending and queued with the offset staged at that moment. -/
def Obligations.PhaseEngine : Prop :=
  (∀ (s : State) (n : Fin 8),
     let d := s.dev
     (∀ w : BitVec 32,
       let lv := w.toNat % 2 ^ 16
       let hv := w.toNat / 2 ^ 16
       (lv ≤ 0x8000 → hv ≤ 0x8000 → ∃ e, exec (.ddsAmpWrite n w) s = .next (s.withDev e)
         ∧ e.get DDS_AMP.AMP_LV n = lv ∧ e.get DDS_AMP.AMP_HV n = hv ∧ d.onlyRegs e [DDS_AMP.AMP_LV.at n, DDS_AMP.AMP_HV.at n])
       ∧ ((0x8000 < lv ∨ 0x8000 < hv) → ∃ e, exec (.ddsAmpWrite n w) s = .next (s.withDev e)
         ∧ e.flag DDS_STAT.CFG_REJ n = true ∧ d.onlyRegs e [DDS_STAT.CFG_REJ.at n]))
     ∧ (∀ w : BitVec 64,
       (d.seqIdle n = true → ∃ e, exec (.ddsEpochWrite n w) s = .next (s.withDev e)
         ∧ e.getPair DDS_EPOCH_LO.EPOCH_LO DDS_EPOCH_HI.EPOCH_HI n = w.toNat
         ∧ d.onlyRegs e [DDS_EPOCH_LO.EPOCH_LO.at n, DDS_EPOCH_HI.EPOCH_HI.at n])
       ∧ (d.seqIdle n = false → ∃ e, exec (.ddsEpochWrite n w) s = .next (s.withDev e)
         ∧ e.flag DDS_STAT.CFG_REJ n = true ∧ d.onlyRegs e [DDS_STAT.CFG_REJ.at n])))
  ∧ (∀ (s : State) (n : Fin 8),
     let d := s.dev
     let at_ := d.getPair DDS_AT_LO.AT_LO DDS_AT_HI.AT_HI n
     let land := if at_ = 0 then d.time.crs + 2 else at_
     let late := land < d.time.crs + 2
     let rej := d.time.crs + 2 ^ 24 < land ∨ d.flag DDS_STAT.APPLY_PEND n = true
     ((late ∨ rej) → ∃ e, exec (.ddsApply n) s = .next (s.withDev e)
       ∧ (late → e.flag DDS_STAT.APPLY_LATE n = true) ∧ (rej → e.flag DDS_STAT.APPLY_REJ n = true)
       ∧ (¬ late → e.get DDS_STAT.APPLY_LATE n = d.get DDS_STAT.APPLY_LATE n)
       ∧ (¬ rej → e.get DDS_STAT.APPLY_REJ n = d.get DDS_STAT.APPLY_REJ n)
       ∧ d.onlyRegs e [DDS_STAT.APPLY_LATE.at n, DDS_STAT.APPLY_REJ.at n])
     ∧ (¬ late → ¬ rej → ∃ e a, exec (.ddsApply n) s = .next (s.withDev e) ∧ e.flag DDS_STAT.APPLY_PEND n = true
       ∧ e.chs[n] = { d.chs[n] with acts := d.chs[n].acts ++ [a] }
       ∧ a.kind = .apply (d.getPair DDS_POFS_NEXT_LO.NEXT_LO DDS_POFS_NEXT_HI.NEXT_HI n) ∧ a.land = land
       ∧ d.regsBut e [DDS_STAT.APPLY_PEND.at n, SEQ_STAT.STATE.at n] ∧ d.chsBut e n))

/-! ### Chapters 05 and 06: the LV and HV stages -/

/-- R181, R186, R219: the enables of the two stages and the LV delay are taken as written (the next joint brings them into force); a delay
line arrives after the ticks that its steps need, no further than the course goes, and once it is at its target it is no longer busy.
R201, R205, R239: a clamp whose upper bound is below its lower one, a slew setting with `RATE` above 5 or `STEP` 0, and a current limit
with a field outside its range are refused whole with `CFG_REJ`; any other is taken field by field; while the tick clock stands, a
forced output follows its clamp (R221); a current limit is in force at once, its limit after the fold-back that is under way (R229, R235). -/
def Obligations.StageSettings : Prop :=
  (∀ (s : State) (n : Fin 8),
     let d := s.dev
     (∀ en : Bool, ∃ e, exec (.lvEnWrite n en) s = .next (s.withDev e)
       ∧ e.flag LV_CTRL.EN n = en ∧ d.onlyRegs e [LV_CTRL.EN.at n])
     ∧ (∀ en : Bool, ∃ e, exec (.hvEnWrite n en) s = .next (s.withDev e)
       ∧ e.flag HV_CTRL.EN n = en ∧ d.onlyRegs e [HV_CTRL.EN.at n])
     ∧ (∀ u : BitVec 14, ∃ e, exec (.lvDlyWrite n u) s = .next (s.withDev e)
       ∧ e.getS LV_DLY.USER n = u.toInt ∧ d.onlyRegs e [LV_DLY.USER.at n])
     ∧ (∀ hv : Bool,
       let there := fun (e : Dev) => if hv then e.chs[n].hv.dly = e.chs[n].hv.target else e.chs[n].lv.dly = e.chs[n].lv.target
       let busy := if hv then HV_STAT.DLY_BUSY else LV_STAT.DLY_BUSY
       (∃ e, exec (.delayLineArrived n hv) s = .next (s.withDev e) ∧ e.time.crs = d.time.crs
         ∧ d.time.abs ≤ e.time.abs ∧ e.time.abs ≤ d.time.abs + d.chs[n].lineTicks hv ∧ (there e → e.flag busy n = false))
       ∧ (there d → ∃ e, exec (.delayLineArrived n hv) s = .next (s.withDev e)
         ∧ e.flag busy n = false ∧ d.onlyRegs e [LV_STAT.DLY_BUSY.at n, HV_STAT.DLY_BUSY.at n])))
  ∧ (∀ (s : State) (n : Fin 8) (w : BitVec 32),
     let d := s.dev
     let v := w.toNat
     let refused := fun c => ∃ e, exec c s = .next (s.withDev e) ∧ e.flag HV_STAT.CFG_REJ n = true ∧ d.onlyRegs e [HV_STAT.CFG_REJ.at n]
     (if signed 16 (v / 2 ^ 16) < signed 16 (v % 2 ^ 16) then refused (.hvClampWrite n w)
       else ∃ e, exec (.hvClampWrite n w) s = .next (s.withDev e)
         ∧ e.getS HV_CLAMP.LO n = signed 16 (v % 2 ^ 16) ∧ e.getS HV_CLAMP.HI n = signed 16 (v / 2 ^ 16)
         ∧ d.regsBut e [HV_CLAMP.LO.at n, HV_CLAMP.HI.at n] ∧ d.chsBut e n ∧ (d.ticking = true → e.chs = d.chs)
         ∧ (d.ticking = false → e.hvState n = 3 → e.chs[n].hv.code = e.forcedCode n))
     ∧ (if bitsOf v 16 3 ≤ 5 ∧ bitsOf v 0 15 ≠ 0 then
         ∃ e, exec (.hvSlewWrite n w) s = .next (s.withDev e)
         ∧ e.get HV_SLEW.RATE n = bitsOf v 16 3 ∧ e.get HV_SLEW.STEP n = bitsOf v 0 15
         ∧ d.onlyRegs e [HV_SLEW.RATE.at n, HV_SLEW.STEP.at n]
       else refused (.hvSlewWrite n w))
     ∧ (if 25 ≤ bitsOf v 0 8 ∧ bitsOf v 0 8 ≤ 240 ∧ 1 ≤ bitsOf v 8 6 ∧ bitsOf v 8 6 ≤ 50 ∧ 1 ≤ bitsOf v 16 10 ∧ bitsOf v 16 10 ≤ 1000 then
         ∃ e, exec (.hvIlimWrite n w) s = .next (s.withDev e)
         ∧ e.get HV_ILIM.ILIM n = bitsOf v 0 8 ∧ e.get HV_ILIM.SC_TIME n = bitsOf v 8 6 ∧ e.get HV_ILIM.RETRY n = bitsOf v 16 10
         ∧ e.get HV_ILIM.TRIES n = bitsOf v 30 2
         ∧ e.chs[n] = { d.chs[n] with hv := { d.chs[n].hv with
             ilim := if d.flag HV_STAT.FOLD n then d.chs[n].hv.ilim else bitsOf v 0 8 } } ∧ d.chsBut e n
         ∧ e.get HV_ILIM_EFF.ILIM_EFF n = e.ilimOf n % 2 ^ HV_ILIM_EFF.ILIM_EFF.w
         ∧ e.get HV_ILIM_EFF.SC_EFF n = e.scEff n (e.ilimOf n) % 2 ^ HV_ILIM_EFF.SC_EFF.w
         ∧ d.regsBut e [HV_ILIM.ILIM.at n, HV_ILIM.SC_TIME.at n, HV_ILIM.RETRY.at n, HV_ILIM.TRIES.at n,
             HV_ILIM_EFF.ILIM_EFF.at n, HV_ILIM_EFF.SC_EFF.at n]
       else refused (.hvIlimWrite n w)))

/-- R209: a coefficient of the inactive bank is taken, one of the active bank refused with `CFG_REJ`; a swap request is held for the next
joint, a second one refused. R226: a receive mode of 3 is refused, any other taken with its line.
R227, R228: the switch takes the command in force, and an opening command opens it at once; it closes when the ball is in the band
while a closing command stands and the output is on, neither off, latched, forced nor in a slot; a closing command still waiting after 2 µs
sets `RX_WAIT`. -/
def Obligations.HvCoefficientsAndReceive : Prop :=
  (∀ (s : State) (n : Fin 8),
     let d := s.dev
     (∀ (bank : Fin 2) (word : Fin 24) (w : BitVec 32),
       (d.get HV_STAT.PD_BANK n ≠ bank.val → ∃ e, exec (.hvPdCoefWrite n bank word w) s = .next (s.withDev e)
         ∧ e.get HV_PDb_w.COEF n (24 * bank.val + word.val) = w.toNat % 2 ^ HV_PDb_w.COEF.w
         ∧ d.onlyRegs e [HV_PDb_w.COEF.at n (24 * bank.val + word.val)])
       ∧ (d.get HV_STAT.PD_BANK n = bank.val → ∃ e, exec (.hvPdCoefWrite n bank word w) s = .next (s.withDev e)
         ∧ e.flag HV_STAT.CFG_REJ n = true ∧ d.onlyRegs e [HV_STAT.CFG_REJ.at n]))
     ∧ (d.chs[n].hv.swap = false → ∃ e, exec (.pdSwap n) s = .next (s.withDev e)
       ∧ e.chs[n].hv = { d.chs[n].hv with swap := true } ∧ e.regs = d.regs ∧ d.chsBut e n)
     ∧ (d.chs[n].hv.swap = true → ∃ e, exec (.pdSwap n) s = .next (s.withDev e)
       ∧ e.flag HV_STAT.CFG_REJ n = true ∧ d.onlyRegs e [HV_STAT.CFG_REJ.at n])
     ∧ (∀ w : BitVec 32,
       (bitsOf w.toNat 0 2 ≠ 3 → ∃ e, exec (.hvRxWrite n w) s = .next (s.withDev e)
         ∧ e.get HV_RX.MODE n = bitsOf w.toNat 0 2 ∧ e.get HV_RX.LINE n = bitsOf w.toNat 4 2
         ∧ d.onlyRegs e [HV_RX.MODE.at n, HV_RX.LINE.at n])
       ∧ (bitsOf w.toNat 0 2 = 3 → ∃ e, exec (.hvRxWrite n w) s = .next (s.withDev e)
         ∧ e.flag HV_STAT.CFG_REJ n = true ∧ d.onlyRegs e [HV_STAT.CFG_REJ.at n])))
  ∧ (∀ (s : State) (n : Fin 8),
     let d := s.dev
     (∃ e, exec (.rxCommand n) s = .next (s.withDev e) ∧ e.regs = d.regs ∧ d.chsBut e n
       ∧ e.chs[n].hv = { d.chs[n].hv with rxCmd := d.rxWanted n, rxClosed := d.chs[n].hv.rxClosed && d.rxWanted n })
     ∧ (d.chs[n].hv.rxCmd = true → d.chs[n].hv.stage = .on → d.hvOffCause n = false → d.hvLatched n = false → d.hvForced n = false →
         d.chs[n].slot = none → ∃ e, exec (.rxBallInBand n) s = .next (s.withDev e) ∧ e.regs = d.regs ∧ d.chsBut e n
         ∧ e.chs[n].hv = { d.chs[n].hv with rxClosed := true } ∧ e.hvState n = 5)
     ∧ ((d.chs[n].hv.rxCmd = false ∨ d.chs[n].hv.stage = .off ∨ d.hvOffCause n = true ∨ d.hvLatched n = true ∨ d.hvForced n = true
         ∨ d.chs[n].slot ≠ none) → exec (.rxBallInBand n) s = .next s)
     ∧ (d.chs[n].hv.rxCmd = true → d.chs[n].hv.rxClosed = false → ∃ e, exec (.rxWaitTimeout n) s = .next (s.withDev e)
       ∧ e.flag HV_STAT.RX_WAIT n = true ∧ d.onlyRegs e [HV_STAT.RX_WAIT.at n])
     ∧ ((d.chs[n].hv.rxCmd = false ∨ d.chs[n].hv.rxClosed = true) → exec (.rxWaitTimeout n) s = .next s))

/-- R200, R202: a measurement shows the rails on every channel of the die; one outside a window latches fault 1 and flags every channel of the die when
the rails stood inside before. Once they have been back inside for 1 ms the die's rail fault ends; while they are outside it does not.
R219, R220: closing the enabling switch ends ENABLING, with the DAC at the code for 0 V or, where the output is FORCED, the forced
code, and only then; the fall of HV_EN begins the ramp-down of every channel whose supply was there, with the forced code for 0 V at the DAC of each output that is on; at its end those outputs are off; its rise begins the 1 ms after which, HV_EN still high and no HV_OFF or shutdown in force, the outputs may enable. -/
def Obligations.HvRailsAndEnabling : Prop :=
  (∀ (s : State) (die : Fin 2),
     let d := s.dev
     d.porter.railIn.length = 2 →
     (∀ vhp vhn vhl : Nat, ∃ e, exec (.railMeasure die vhp vhn vhl) s = .next (s.withDev e)
       ∧ (∀ n ∈ chsOf die, e.get HV_RAIL.VHP n = vhp % 2 ^ HV_RAIL.VHP.w
           ∧ e.get HV_RAIL.VHN n = unsigned 16 (-(vhn : Int)) % 2 ^ HV_RAIL.VHN.w)
       ∧ e.porter.railIn.getD die false = railsIn (d.flag HV_STAT.HVLIM (4 * die.val)) vhp vhn vhl
       ∧ (railsIn (d.flag HV_STAT.HVLIM (4 * die.val)) vhp vhn vhl = false → d.porter.railIn.getD die false = true →
           e.bit PORTER_FAULT.CAUSE 0 0 1 = true ∧ ∀ n ∈ chsOf die, e.flag HV_STAT.RAIL n = true))
     ∧ (d.porter.railIn.getD die false = true → ∃ e, exec (.railWindowRestored die) s = .next (s.withDev e)
       ∧ e = { d with porter := { d.porter with railBad := d.porter.railBad.set die false } })
     ∧ (d.porter.railIn.getD die false = false → exec (.railWindowRestored die) s = .next s))
  ∧ (∀ (s : State),
     let d := s.dev
     (∀ (n : Fin 8) (p : BitVec 14), d.chs[n].hv.stage = .enabling → ∃ e, exec (.enablingSwitchClose n p) s = .next (s.withDev e)
       ∧ e.chs[n].hv.stage = .on ∧ e.chs[n].hv.d = 0 ∧ e.chs[n].hv.code = (if e.hvState n = 3 then e.forcedCode n else 0) ∧ e.chs[n].hv.enabledOnce = true ∧ d.chsBut e n
       ∧ (d.chs[n].hv.enabledOnce = true → e.regs = d.regs))
     ∧ (∀ (n : Fin 8) (p : BitVec 14), d.chs[n].hv.stage ≠ .enabling → exec (.enablingSwitchClose n p) s = .next s)
     ∧ (∃ e, exec .hvEnFall s = .next (s.withDev e) ∧ e.porter = { d.porter with hvEn := false, hvReady := false } ∧ e.regs = d.regs
       ∧ ∀ n : Fin 8, (∃ c, e.chs[n].hv = { d.chs[n].hv with ramp := d.chs[n].hv.ramp || !d.hvRemoved n, rxClosed := false, code := c })
           ∧ (e.hvState n = 3 → e.chs[n].hv.code = e.forcedCode n) ∧ (e.hvState n ≠ 3 → e.chs[n].hv.code = d.chs[n].hv.code))
     ∧ (∃ e, exec .hvRampdownEnd s = .next (s.withDev e) ∧ e.regs = d.regs ∧ e.porter = d.porter
       ∧ ∀ n : Fin 8, (d.chs[n].hv.ramp = true → e.chs[n].hv = { d.chs[n].hv with stage := .off, ramp := false, rxClosed := false })
           ∧ (d.chs[n].hv.ramp = false → e.chs[n] = d.chs[n]))
     ∧ (∃ e, exec .hvEnRise s = .next (s.withDev e) ∧ e = { d with porter := { d.porter with hvEn := true, hvReady := false } })
     ∧ (d.porter.hvEn = true → d.porter.hvOff = false → d.porter.tsdLog = false → ∃ e, exec .hvEnStable s = .next (s.withDev e)
       ∧ e = { d with porter := { d.porter with hvReady := true } })
     ∧ ((d.porter.hvEn = false ∨ d.porter.hvOff = true ∨ d.porter.tsdLog = true) → exec .hvEnStable s = .next s))

/-- R229 to R233: the onset of current limiting sets both flags and counts, and a limit active again within 8 samples counts no onset; a short at the
integrator's threshold, outside a fold-back, is declared: it counts, shows in `SHORT`,
clears the integrator, and folds back, or latches with fault 2 when it is the last of the tries; the end of the fold-back brings the limit in force back to its
setting; `SC_CLR` clears the latch and nothing else. -/
def Obligations.CurrentLimitAndShorts : Prop :=
  ∀ (s : State) (n : Fin 8),
    let d := s.dev
    (d.chs[n].hv.limAct = false → 8 ≤ d.chs[n].hv.limClear →
      ∃ e, exec (.ilimOnset n) s = .next (s.withDev e) ∧ e.flag HV_STAT.ILIM n = true ∧ e.flag HV_STAT.ILIM_ACT n = true
      ∧ e.get HV_ILIMCNT.ONSETS n = satInc HV_ILIMCNT.ONSETS.w (d.get HV_ILIMCNT.ONSETS n)
      ∧ d.regsBut e [HV_STAT.ILIM.at n, HV_STAT.ILIM_ACT.at n, HV_ILIMCNT.ONSETS.at n] ∧ d.chsBut e n
      ∧ e.chs[n] = { d.chs[n] with hv := { d.chs[n].hv with limAct := true, limClear := 0 } })
    ∧ ((d.chs[n].hv.limAct = true ∨ d.chs[n].hv.limClear < 8) →
      ∃ e, exec (.ilimOnset n) s = .next (s.withDev e) ∧ e.flag HV_STAT.ILIM_ACT n = true
      ∧ d.regsBut e [HV_STAT.ILIM_ACT.at n] ∧ d.chsBut e n
      ∧ e.chs[n] = { d.chs[n] with hv := { d.chs[n].hv with limAct := true, limClear := 0 } })
    ∧ (∀ gap : Nat, d.flag HV_STAT.FOLD n = false → 500 * d.get HV_ILIM_EFF.SC_EFF n ≤ d.chs[n].hv.integ + 1 →
      let k := if gap ≤ 1000 ∧ d.time.abs ≤ d.chs[n].hv.shortAt + 250000000 then d.chs[n].hv.shorts + 1 else 1
      let last := d.get HV_ILIM.TRIES n ≠ 0 ∧ d.get HV_ILIM.TRIES n ≤ k
      ∃ e, exec (.shortDeclared n gap) s = .next (s.withDev e) ∧ e.flag HV_STAT.SHORT n = true
      ∧ e.get HV_ILIMCNT.SHORTS n = satInc HV_ILIMCNT.SHORTS.w (d.get HV_ILIMCNT.SHORTS n) ∧ e.chs[n].hv.shorts = k ∧ e.chs[n].hv.integ = 0
      ∧ (last → e.flag HV_STAT.SC_LATCH n = true ∧ e.flag HV_STAT.FOLD n = false ∧ e.bit PORTER_FAULT.CAUSE 0 0 2 = true
          ∧ e.chs[n].hv.stage = .off)
      ∧ (¬ last → e.flag HV_STAT.FOLD n = true ∧ e.chs[n].hv.stage = d.chs[n].hv.stage) ∧ d.chsBut e n)
    ∧ (∀ gap : Nat, (d.flag HV_STAT.FOLD n = true ∨ d.chs[n].hv.integ + 1 < 500 * d.get HV_ILIM_EFF.SC_EFF n) →
        exec (.shortDeclared n gap) s = .next s)
    ∧ (∃ e, exec (.foldBackEnd n) s = .next (s.withDev e) ∧ e.flag HV_STAT.FOLD n = false
      ∧ e.get HV_ILIM_EFF.ILIM_EFF n = min (d.get HV_ILIM.ILIM n) (20 * d.segsLeft n) % 2 ^ HV_ILIM_EFF.ILIM_EFF.w
      ∧ e.chs[n] = { d.chs[n] with hv := { d.chs[n].hv with ilim := d.get HV_ILIM.ILIM n } } ∧ d.chsBut e n
      ∧ d.regsBut e [HV_STAT.FOLD.at n, HV_ILIM_EFF.ILIM_EFF.at n, HV_ILIM_EFF.SC_EFF.at n])
    ∧ (∃ e, exec (.scClr n) s = .next (s.withDev e) ∧ e.flag HV_STAT.SC_LATCH n = false ∧ d.onlyRegs e [HV_STAT.SC_LATCH.at n])

/-- R234, R235: a retired segment is active no longer, and the channel is marked degraded exactly while fewer than 12 are left; a segment already
retired changes nothing. R529: a bad sample word counts, and the output holds its last code; the fourth in a row latches fault 4. -/
def Obligations.SegmentsAndSampleWords : Prop :=
  ∀ (s : State) (n : Fin 8),
    let d := s.dev
    (∀ k : Fin 14, d.bit HV_SEG.ACTIVE n 0 k = true → ∃ e, exec (.segRetire n k) s = .next (s.withDev e)
      ∧ e.bit HV_SEG.ACTIVE n 0 k = false ∧ e.bit HV_SEG.RETIRED n 0 k = true
      ∧ e.flag HV_STAT.SEG_DEGRADED n = decide (e.segsLeft n < 12) ∧ d.chsBut e n)
    ∧ (∀ k : Fin 14, d.bit HV_SEG.ACTIVE n 0 k = false → exec (.segRetire n k) s = .next s)
    ∧ (∀ k : Nat, ∃ e, exec (.sampleWordBad n k) s = .next (s.withDev e)
      ∧ e.get PWR_LINK.SAMPLE = satInc PWR_LINK.SAMPLE.w (d.get PWR_LINK.SAMPLE)
      ∧ e.chs[n].hv.code = d.chs[n].hv.prev ∧ d.chsBut e n
      ∧ (4 ≤ k → e.chs[n].hv.linkBad = true ∧ e.bit PORTER_FAULT.CAUSE 0 0 4 = true)
      ∧ (k < 4 → e.chs[n].hv.linkBad = d.chs[n].hv.linkBad))

/-- R236, R237: a sample of the load enters the channel's estimate by 1/2^20 of its difference, which in a slot stays below 2.5 W
(R274); the estimate shows, alone and in the total, where its field holds it; crossing 3.15 W sets `PWR_WARN`, 3.5 W
trips the channel (first stage) and 24 W in total every channel, with fault 3; 10 ms later a channel still at 3.5 W or more, or every
channel where the total is still at 24 W or more, is latched (second stage); `TRIP_CLR` ends a trip of the channel once its estimate is
below 2.8 W and not before, and the trip of the total once it is below 19.2 W and every tripped channel has been released (log entry
20). -/
def Obligations.PowerTrips : Prop :=
  ∀ (s : State) (n : Fin 8),
    let d := s.dev
    (∀ x : LoadSample,
      let p := loadPower (d.get HV_RAIL.VHP n) (d.getS HV_RAIL.VHN n) x.v.toInt x.i.toInt
      let avg := d.chs[n].hv.pAvg
      ∃ e, exec (.pwrLimitCrossed n x) s = .next (s.withDev e)
      ∧ (d.chs[n].slot = none → e.chs[n].hv.pAvg = avg + p - avg / 2 ^ 20)
      ∧ (d.chs[n].slot ≠ none → d.chPower n < 2500 → e.chPower n < 2500)
      ∧ (e.chPower n < 2 ^ 12 → e.get HV_PWR.CH n = e.chPower n)
      ∧ (d.chPower n < 3150 → 3150 ≤ e.chPower n → e.flag HV_STAT.PWR_WARN n = true)
      ∧ (3500 ≤ e.chPower n → d.chs[n].hv.trip = 0 →
          e.flag HV_STAT.PWR_TRIP n = true ∧ e.chs[n].hv.trip = 1 ∧ e.bit PORTER_FAULT.CAUSE 0 0 3 = true)
      ∧ (e.chPower n < 3500 → e.chs[n].hv.trip = d.chs[n].hv.trip)
      ∧ (e.totPower < 2 ^ 15 → ∀ k : Fin 8, e.get HV_PWR.TOT k = e.totPower)
      ∧ (24000 ≤ e.totPower → (∀ k : Fin 8, d.chs[k].hv.totTrip = 0) → e.bit PORTER_FAULT.CAUSE 0 0 3 = true
          ∧ ∀ k : Fin 8, e.flag HV_STAT.TOT_TRIP k = true ∧ e.chs[k].hv.totTrip = 1)
      ∧ (e.totPower < 24000 → d.chsBut e n))
    ∧ (3500 ≤ d.chPower n → d.chs[n].hv.trip = 1 → ∃ e, exec (.pwrTripSecondStage n false) s = .next (s.withDev e)
      ∧ e.flag HV_STAT.PWR_TRIP n = true ∧ e.chs[n].hv.trip = 2 ∧ e.chs[n].hv.stage = .off
      ∧ e.bit PORTER_FAULT.CAUSE 0 0 3 = true ∧ d.chsBut e n)
    ∧ ((d.chPower n < 3500 ∨ d.chs[n].hv.trip ≠ 1) → exec (.pwrTripSecondStage n false) s = .next s)
    ∧ (24000 ≤ d.totPower → d.chs[n].hv.totTrip = 1 → ∃ e, exec (.pwrTripSecondStage n true) s = .next (s.withDev e)
      ∧ e.bit PORTER_FAULT.CAUSE 0 0 3 = true
      ∧ ∀ k : Fin 8, e.flag HV_STAT.TOT_TRIP k = true ∧ e.chs[k].hv.totTrip = 2 ∧ e.chs[k].hv.stage = .off)
    ∧ ((d.totPower < 24000 ∨ d.chs[n].hv.totTrip ≠ 1) → exec (.pwrTripSecondStage n true) s = .next s)
    ∧ (∃ e, exec (.tripClr n) s = .next (s.withDev e) ∧ e.regs = d.regs
      ∧ e.chs[n].hv.trip = (if d.chPower n < 2800 then 0 else d.chs[n].hv.trip)
      ∧ (∀ k : Fin 8, k ≠ n → e.chs[k].hv.trip = d.chs[k].hv.trip)
      ∧ (19200 ≤ d.totPower → ∀ k : Fin 8, e.chs[k].hv.totTrip = d.chs[k].hv.totTrip)
      ∧ (d.totPower < 19200 → d.chs[n].hv.totTrip ≠ 0 →
          (∀ k : Fin 8, k ≠ n → d.chs[k].hv.totTrip = 0 ∨ d.chs[k].hv.totClr = true) → ∀ k : Fin 8, e.chs[k].hv.totTrip = 0))

/-! ### Chapter 07: Sense and the Sieve -/

/-- R242, R250, R251: the Sense A setting and a start or stop of the engine are held for the next joint; `RUN` reads as written; nothing
else of the channel changes.
R249: while the engine runs, every configuration write is refused with `CFG_REJ`; while it does not, a tap configuration with a legal
decimation and CIC order is taken field by field and an illegal one refused; settling counts, group delays, the settle mode (the
register's index in the block: 0 to 3, 4 to 7, 8 to 11, 12) and coefficients are taken. -/
def Obligations.SieveSettings : Prop :=
  (∀ (s : State) (n : Fin 8),
     let d := s.dev
     (∀ w : BitVec 32, ∃ e, exec (.snsAWrite n w) s = .next (s.withDev e) ∧ e.regs = d.regs ∧ d.chsBut e n
       ∧ e.chs[n] = { d.chs[n] with sieve := { d.chs[n].sieve with snsNext := some w.toNat } })
     ∧ (∃ e, exec (.sieveRunStart n) s = .next (s.withDev e) ∧ e.flag SIEVE_CTRL.RUN n = true
       ∧ d.regsBut e [SIEVE_CTRL.RUN.at n] ∧ d.chsBut e n
       ∧ e.chs[n] = { d.chs[n] with sieve := { d.chs[n].sieve with want := some true } })
     ∧ (∃ e, exec (.sieveRunStop n) s = .next (s.withDev e) ∧ e.flag SIEVE_CTRL.RUN n = false
       ∧ d.regsBut e [SIEVE_CTRL.RUN.at n] ∧ d.chsBut e n
       ∧ e.chs[n] = { d.chs[n] with sieve := { d.chs[n].sieve with want := some false } }))
  ∧ (∀ (s : State) (n : Fin 8) (w : BitVec 32),
     let d := s.dev
     let v := w.toNat
     let refused := fun r => ∃ e, exec (.sieveCfgWrite n r w) s = .next (s.withDev e)
       ∧ e.flag SIEVE_STAT.CFG_REJ n = true ∧ d.onlyRegs e [SIEVE_STAT.CFG_REJ.at n]
     (d.flag SIEVE_STAT.RUNNING n = true → ∀ r : Fin 73, refused r)
     ∧ (d.flag SIEVE_STAT.RUNNING n = false →
       (∀ (r : Fin 73) (k : Nat), r.val = k → k < 4 →
         if bitsOf v 16 13 = 0 ∨ 4096 < bitsOf v 16 13 ∨ bitsOf v 29 2 = 0 then refused r
         else ∃ e, exec (.sieveCfgWrite n r w) s = .next (s.withDev e)
           ∧ e.get TAPk_CFG.SRC n k = bitsOf v 31 1 ∧ e.get TAPk_CFG.CIC_N n k = bitsOf v 29 2 ∧ e.get TAPk_CFG.DEC n k = bitsOf v 16 13
           ∧ e.get TAPk_CFG.SOS_BASE n k = bitsOf v 8 4 ∧ e.get TAPk_CFG.SOS_NUM n k = bitsOf v 4 4 ∧ e.get TAPk_CFG.EN n k = bitsOf v 0 1
           ∧ d.onlyRegs e [TAPk_CFG.SRC.at n k, TAPk_CFG.CIC_N.at n k, TAPk_CFG.DEC.at n k, TAPk_CFG.SOS_BASE.at n k,
               TAPk_CFG.SOS_NUM.at n k, TAPk_CFG.EN.at n k])
       ∧ (∀ (r : Fin 73) (k : Nat), r.val = 4 + k → k < 4 → ∃ e, exec (.sieveCfgWrite n r w) s = .next (s.withDev e)
         ∧ e.get TAPk_SETTLE.SETTLE n k = bitsOf v 0 16 ∧ d.onlyRegs e [TAPk_SETTLE.SETTLE.at n k])
       ∧ (∀ (r : Fin 73) (k : Nat), r.val = 8 + k → k < 4 → ∃ e, exec (.sieveCfgWrite n r w) s = .next (s.withDev e)
         ∧ e.get TAPk_GD.SRC_USER n k = bitsOf v 31 1 ∧ e.get TAPk_GD.USER n k = bitsOf v 0 28
         ∧ d.onlyRegs e [TAPk_GD.SRC_USER.at n k, TAPk_GD.USER.at n k])
       ∧ (∀ r : Fin 73, r.val = 12 → ∃ e, exec (.sieveCfgWrite n r w) s = .next (s.withDev e)
         ∧ e.get SIEVE_CTRL.SETTLE_MODE n = v % 2 ∧ d.onlyRegs e [SIEVE_CTRL.SETTLE_MODE.at n])
       ∧ (∀ (r : Fin 73) (i : Nat), r.val = 13 + i → ∃ e, exec (.sieveCfgWrite n r w) s = .next (s.withDev e)
         ∧ e.get SOSs_c.COEF n i = v % 2 ^ SOSs_c.COEF.w ∧ d.onlyRegs e [SOSs_c.COEF.at n i])))

/-- R262, R264, R269: a comparator mode of 3, an upper level below the lower, a capture length of 0, a capture mode of 3, and a read pointer off
its ring or its 64-byte grid are refused with `CFG_REJ`; any other is taken, a capture setting at the next joint.
R269: a block of the capture queue is written at the write pointer of the ring, which moves on by 64 within the ring, and no other byte of memory
changes; the write is a request of the capture port (R373, R376, R385) and may activate the row (R389); while the ring is full, absent, or the
queue is empty nothing changes. R253, R257: a tap that runs makes one more output, and
`SETTLING` says whether a settling cause at or before its newest input has unsettled outputs to come; one that does not run makes none.
R247: a sample at full scale sets the flag of its converter, whether the tap runs or not. R529: a bad return word counts, and while the
engine does not run that is all. -/
def Obligations.Captures : Prop :=
  (∀ (s : State) (n : Fin 8) (k : Fin 4) (w : BitVec 32),
     let d := s.dev
     let v := w.toNat
     (bitsOf v 0 2 ≠ 3 → ∃ e, exec (.cmpWrite n k true w) s = .next (s.withDev e)
       ∧ e.get CMPk_CTRL.MODE n k = bitsOf v 0 2 ∧ e.flag CMPk_CTRL.ARMED n k = false
       ∧ (bitAt v 16 = true → e.flag CMPk_CTRL.TRIP n k = false) ∧ (bitAt v 16 = false → e.get CMPk_CTRL.TRIP n k = d.get CMPk_CTRL.TRIP n k)
       ∧ d.onlyRegs e [CMPk_CTRL.MODE.at n k, CMPk_CTRL.ARMED.at n k, CMPk_CTRL.TRIP.at n k])
     ∧ (bitsOf v 0 2 = 3 → ∃ e, exec (.cmpWrite n k true w) s = .next (s.withDev e)
       ∧ e.flag SIEVE_STAT.CFG_REJ n = true ∧ d.onlyRegs e [SIEVE_STAT.CFG_REJ.at n])
     ∧ (if signed 16 (bitsOf v 16 16) < signed 16 (bitsOf v 0 16) then
         ∃ e, exec (.cmpWrite n k false w) s = .next (s.withDev e) ∧ e.flag SIEVE_STAT.CFG_REJ n = true ∧ d.onlyRegs e [SIEVE_STAT.CFG_REJ.at n]
       else ∃ e, exec (.cmpWrite n k false w) s = .next (s.withDev e)
         ∧ e.get CMPk_LVL.HI n k = bitsOf v 16 16 ∧ e.get CMPk_LVL.LO n k = bitsOf v 0 16
         ∧ d.onlyRegs e [CMPk_LVL.HI.at n k, CMPk_LVL.LO.at n k])
     ∧ (∀ len : Bool, (if len then bitsOf v 0 18 = 0 else bitsOf v 0 2 = 3) → ∃ e, exec (.capCtrlWrite n k len w) s = .next (s.withDev e)
       ∧ e.flag SIEVE_STAT.CFG_REJ n = true ∧ d.onlyRegs e [SIEVE_STAT.CFG_REJ.at n])
     ∧ (∀ len : Bool, (if len then bitsOf v 0 18 ≠ 0 else bitsOf v 0 2 ≠ 3) → ∃ e, exec (.capCtrlWrite n k len w) s = .next (s.withDev e)
       ∧ (2 * k.val + (if len then 1 else 0), v) ∈ e.chs[n].sieve.capNext ∧ e.regs = d.regs ∧ d.chsBut e n)
     ∧ ((v % 64 = 0 ∧ v < d.get CAPk_SIZE.SIZE n k) → ∃ e, exec (.capRdWrite n k w) s = .next (s.withDev e)
       ∧ e.get CAPk_RD.RD n k = v % 2 ^ CAPk_RD.RD.w ∧ d.onlyRegs e [CAPk_RD.RD.at n k])
     ∧ (¬ (v % 64 = 0 ∧ v < d.get CAPk_SIZE.SIZE n k) → ∃ e, exec (.capRdWrite n k w) s = .next (s.withDev e)
       ∧ e.flag SIEVE_STAT.CFG_REJ n = true ∧ d.onlyRegs e [SIEVE_STAT.CFG_REJ.at n]))
  ∧ (∀ (s : State) (n : Fin 8),
     let d := s.dev
     (∀ (k : Fin 4) (x : BlockKind × List (BitVec 8)) (rest : List (BlockKind × List (BitVec 8))),
       let size := d.get CAPk_SIZE.SIZE n k
       let wr := d.get CAPk_WR.WR n k
       let a := dramAt n (d.getPair CAPk_BASE_LO.BASE_LO CAPk_BASE_HI.BASE_HI n k + wr)
       d.chs[n].sieve.taps.length = 4 → size ≠ 0 → (wr + 64) % size ≠ d.get CAPk_RD.RD n k → (d.chs[n].tap k).queue = x :: rest →
       ∃ t, exec (.captureBlockComplete n k) s = .next t ∧ t.pending = s.pending
       ∧ t.dev.get CAPk_WR.WR n k = (wr + 64) % size % 2 ^ CAPk_WR.WR.w ∧ (t.dev.chs[n].tap k).queue = rest
       ∧ (∀ i (h : i < x.2.length), t.mem.read (a + i) = x.2[i])
       ∧ (∀ b, (b < a ∨ a + x.2.length ≤ b) → t.mem.read b = s.mem.read b)
       ∧ (let base := d.getPair CAPk_BASE_LO.BASE_LO CAPk_BASE_HI.BASE_HI n k
          d.regsBut t.dev (CAPk_WR.WR.at n k :: requestKeys n (d.rankOf ((base + wr) / 65536)) 3 ++ hotKeys n)) ∧ d.chsBut t.dev n)
     ∧ (∀ k : Fin 4, (d.get CAPk_SIZE.SIZE n k = 0 ∨ (d.get CAPk_WR.WR n k + 64) % d.get CAPk_SIZE.SIZE n k = d.get CAPk_RD.RD n k
         ∨ (d.chs[n].tap k).queue = []) → exec (.captureBlockComplete n k) s = .next s)
     ∧ (∀ (k : Fin 4) (codes : SenseCodes),
       let fullA := ∃ c ∈ codes.a, signed 14 c.toNat = -8192 ∨ signed 14 c.toNat = 8191
       let fullB := ∃ c ∈ codes.b, signed 16 c.toNat = -32768 ∨ signed 16 c.toNat = 32767
       (d.chs[n].sieve.taps.length = 4 → d.flag SIEVE_STAT.RUNNING n = true → d.flag SIEVE_STAT.PAUSED n = false →
           d.flag TAPk_CFG.EN n k = true →
         ∃ t, exec (.tapOutput n k codes) s = .next t ∧ t.pending = s.pending
         ∧ (t.dev.chs[n].tap k).outs = (d.chs[n].tap k).outs + 1 ∧ d.chsBut t.dev n ∧ t.dev.time = d.time
         ∧ t.dev.bit SIEVE_STAT.SETTLING n 0 k = (d.chs[n].tap k).runs.any (fun r => decide (r.1 ≤ d.newestOf n k (d.chs[n].tap k).outs))
         ∧ (fullA → t.dev.flag SIEVE_STAT.A_OVR n = true) ∧ (fullB → t.dev.flag SIEVE_STAT.B_OVR n = true))
       ∧ ((d.flag SIEVE_STAT.RUNNING n = false ∨ d.flag SIEVE_STAT.PAUSED n = true ∨ d.flag TAPk_CFG.EN n k = false) →
         (∃ e, exec (.tapOutput n k codes) s = .next (s.withDev e) ∧ (fullA → e.flag SIEVE_STAT.A_OVR n = true) ∧ (fullB → e.flag SIEVE_STAT.B_OVR n = true)
           ∧ (¬ fullA → e.flag SIEVE_STAT.A_OVR n = d.flag SIEVE_STAT.A_OVR n) ∧ (¬ fullB → e.flag SIEVE_STAT.B_OVR n = d.flag SIEVE_STAT.B_OVR n)
           ∧ d.onlyRegs e [SIEVE_STAT.A_OVR.at n, SIEVE_STAT.B_OVR.at n])))
     ∧ (∀ lost : List Nat, ∃ t, exec (.returnWordBad n lost) s = .next t ∧ t.pending = s.pending
       ∧ t.dev.get PWR_LINK.RETURN = satInc PWR_LINK.RETURN.w (d.get PWR_LINK.RETURN)
       ∧ ((d.flag SIEVE_STAT.RUNNING n = false ∨ d.flag SIEVE_STAT.PAUSED n = true) →
           t.mem = s.mem ∧ d.onlyRegs t.dev [PWR_LINK.RETURN.at])))

/-! ### Chapter 08: Plumb -/

/-- R275, R287, R288: a slot request whose joint lies less than two courses ahead sets `REQ_LATE`; one too far ahead, of kind 3, or while
one is requested or runs sets `REQ_REJ`; else it is queued for its joint. The mode reads as written; a staged load waits for the next joint.
R283: the commit phase of a slot that has neither aborted nor committed reports its kind with code 1, 2 or 4, and marks the slot
committed; without such a slot it changes nothing. -/
def Obligations.Calibration : Prop :=
  (∀ (s : State) (n : Fin 8),
     let d := s.dev
     (∀ kind : BitVec 2,
       let at_ := d.getPair PLB_AT_LO.AT_LO PLB_AT_HI.AT_HI n
       let land := if at_ = 0 then d.time.crs + 2 else at_
       let late := land < d.time.crs + 2
       let rej := d.time.crs + 2 ^ 24 < land ∨ kind = 3 ∨ d.get PLB_STAT.STATE n = 1 ∨ d.chs[n].requested = true
       ((late ∨ rej) → ∃ e, exec (.plbReqWrite n kind) s = .next (s.withDev e)
         ∧ (late → e.flag PLB_STAT.REQ_LATE n = true) ∧ (rej → e.flag PLB_STAT.REQ_REJ n = true)
         ∧ (¬ late → e.get PLB_STAT.REQ_LATE n = d.get PLB_STAT.REQ_LATE n)
         ∧ (¬ rej → e.get PLB_STAT.REQ_REJ n = d.get PLB_STAT.REQ_REJ n)
         ∧ d.onlyRegs e [PLB_STAT.REQ_LATE.at n, PLB_STAT.REQ_REJ.at n])
       ∧ (¬ late → ¬ rej → ∃ e a, exec (.plbReqWrite n kind) s = .next (s.withDev e)
         ∧ e.chs[n] = { d.chs[n] with acts := d.chs[n].acts ++ [a] } ∧ a.kind = .slot kind.toNat ∧ a.land = land
         ∧ (d.get PLB_STAT.STATE n ≠ 2 → e.get PLB_STAT.STATE n = 1 ∧ e.get PLB_STAT.KIND n = kind.toNat % 2 ^ PLB_STAT.KIND.w)
         ∧ d.regsBut e [PLB_STAT.STATE.at n, PLB_STAT.KIND.at n, SEQ_STAT.STATE.at n] ∧ d.chsBut e n))
     ∧ (∀ table : Bool, ∃ e, exec (.plbModeWrite n table) s = .next (s.withDev e)
       ∧ e.flag PLB_CTRL.MODE n = table ∧ d.onlyRegs e [PLB_CTRL.MODE.at n])
     ∧ (∃ e l, exec (.plbLoad n) s = .next (s.withDev e) ∧ e.regs = d.regs ∧ d.chsBut e n
       ∧ e.chs[n] = { d.chs[n] with plumb := { d.chs[n].plumb with load := some (none, l) } }))
  ∧ (∀ (s : State) (n : Fin 8) (set : List (BitVec 32)) (lvOver hvOver : Nat) (lvRes hvRes pdBad : Bool),
     let d := s.dev
     (∀ x : Slot, d.chs[n].slot = some x → x.aborted = false → x.committed = false →
       ∃ e y, exec (.plumbCommitPhase n set lvOver hvOver lvRes hvRes pdBad) s = .next (s.withDev e)
       ∧ e.chs[n] = { d.chs[n] with slot := some y } ∧ y.committed = true ∧ y.kind = x.kind ∧ y.left = x.left
       ∧ e.get PLB_RES.KIND n = x.kind % 2 ^ PLB_RES.KIND.w
       ∧ (e.get PLB_RES.CODE n = 1 ∨ e.get PLB_RES.CODE n = 2 ∨ e.get PLB_RES.CODE n = 4) ∧ d.chsBut e n)
     ∧ ((d.chs[n].slot = none ∨ ∃ x, d.chs[n].slot = some x ∧ (x.aborted = true ∨ x.committed = true)) →
       exec (.plumbCommitPhase n set lvOver hvOver lvRes hvRes pdBad) s = .next s))

/-! ### Chapter 09: the Mason -/

/-- R314, R315: a walk replaces what its own channel wants, and while no page is to leave a frame of the channel (R393, R399) it leaves memory and
the other channels' wants. R307, R319: a wanted page that another
channel's DRAM holds is copied from there, byte for byte, into the frame chosen for it, at a share of the copy budget that joints pay. R325,
R330: else the page of a DIRECT extent whose turn it is, within the budget, is read from the host into that frame, usable from the next
course. R338: for a channel that runs SRAM-only no frame takes it. Either way it is wanted no more; a page that nothing wants, or that may not
be fetched now, changes nothing. -/
def Obligations.WalkAndFetch : Prop :=
  ∀ (s : State) (n : Fin 8),
    let d := s.dev
    (∃ t, exec (.masonWalk n) s = .next t ∧ t.pending = s.pending ∧ t.dev.time = d.time ∧ t.dev.chs = d.chs
      ∧ ((d.masonWalk s.mem n).leaving n = [] → t.mem = s.mem
        ∧ (∀ w : Want, w.ch ≠ n.val → (w ∈ t.dev.mason.wants ↔ w ∈ d.mason.wants))))
    ∧ (∀ (page : BitVec 36) (bytes : List (BitVec 8)) (w : Want), bytes.length = 65536 →
      d.mason.wants.find? (fun v => v.ch = n.val && v.page = page.toNat) = some w → d.mayFetch w = true →
      (∀ (f : Nat) (c : Copy), d.flag MSN_CHn_STAT.SRAM_ONLY n = false → d.freeFrame n (d.keepLow n page.toNat) = some f →
        d.mason.copies.find? (fun x => x.page = page.toNat && d.usable x) = some c →
        let a := dramAt n (f * 65536)
        ∃ t c', exec (.pageFetchDone n page bytes) s = .next t ∧ t.pending = s.pending
        ∧ t.dev.mason.copies = d.mason.copies ++ [c'] ∧ c'.page = page.toNat ∧ c'.ch = n.val ∧ c'.frame = f ∧ c'.left = 65536
        ∧ t.dev.mason.wants.any (fun v => v.ch = n.val && v.page = page.toNat) = false
        ∧ (∀ i, i < 65536 → t.mem.read (a + i) = s.mem.read (dramAt c.ch (c.frame * 65536) + i))
        ∧ (∀ b, (b < a ∨ a + 65536 ≤ b) → t.mem.read b = s.mem.read b) ∧ t.dev.chs = d.chs)
      ∧ (∀ (e : Nat × List Nat), d.mason.copies.find? (fun x => x.page = page.toNat && d.usable x) = none →
        d.extOf page.toNat = some e → d.directWant w = true → d.readFirst (d.wantKey w) = true →
        d.hostReady 1 = true →
        (∀ f : Nat, d.flag MSN_CHn_STAT.SRAM_ONLY n = false → d.freeFrame n (d.keepLow n page.toNat) = some f →
          let a := dramAt n (f * 65536)
          ∃ t c', exec (.pageFetchDone n page bytes) s = .next t ∧ t.pending = s.pending
          ∧ t.dev.mason.copies = d.mason.copies ++ [c'] ∧ c'.page = page.toNat ∧ c'.ch = n.val ∧ c'.frame = f ∧ c'.left = 0
          ∧ c'.since = d.time.crs + 1 ∧ t.dev.out = d.out ++ [.hostRead (extPage e.2 page.toNat) 65536]
          ∧ t.dev.mason.wants.any (fun v => v.ch = n.val && v.page = page.toNat) = false
          ∧ (∀ i (h : i < bytes.length), t.mem.read (a + i) = bytes[i])
          ∧ (∀ b, (b < a ∨ a + 65536 ≤ b) → t.mem.read b = s.mem.read b) ∧ t.dev.chs = d.chs)
        ∧ (d.flag MSN_CHn_STAT.SRAM_ONLY n = true → ∃ x, exec (.pageFetchDone n page bytes) s = .next (s.withDev x)
          ∧ x.mason.copies = d.mason.copies ∧ x.out = d.out ++ [.hostRead (extPage e.2 page.toNat) 65536]
          ∧ x.mason.wants.any (fun v => v.ch = n.val && v.page = page.toNat) = false ∧ x.chs = d.chs)))
    ∧ (∀ (page : BitVec 36) (bytes : List (BitVec 8)),
      (∀ w, d.mason.wants.find? (fun v => v.ch = n.val && v.page = page.toNat) = some w → d.mayFetch w = false) →
      exec (.pageFetchDone n page bytes) s = .next s)

/-- R327: a wanted page of a backed extent is asked for while the ring is enabled, the function may issue requests and a tag is left: one more
request is outstanding, the tail moves on by one, and the entry is written to the ring; a full ring sets `RQ_FULL`; with nothing to ask
for nothing changes.
R328 to R330: the completion doorbell is taken as written; a buffer that is read within the budget, in its turn, ends its request; a request without an
answer times out with `BK_TMO` and its tag is free; the run that waits longest is taken up, to be asked for again where it must be; a read
that fails, of a buffer or of a wanted page of a DIRECT extent, waits 1 ms, a second failure makes its pages unavailable and sets `BK_ERR`;
what answers nothing outstanding, and a buffer read beyond the budget, in that wait or out of its turn, changes nothing. -/
def Obligations.PageRequests : Prop :=
  (∀ (s : State),
     let d := s.dev
     let size := 2 ^ d.get MSN_RQ_CFG.SIZE
     let t := d.get MSN_RQ_TAIL.TAIL
     (∀ (w : Want) (x : Nat × List Nat), d.nextAsk = some w → d.extOf w.page = some x → d.flag MSN_RQ_CFG.EN = true → d.mayIssue = true →
       d.mason.reqs.length < d.get MSN_BK.OUT →
       ((t + 1) % size ≠ d.get MSN_RQ_HEAD.HEAD → ∃ e r ws, exec .requestPost s = .next (s.withDev e)
         ∧ e.mason.reqs = d.mason.reqs ++ [r] ∧ r.page ≤ w.page ∧ w.page < r.page + r.count ∧ r.ext = x.1 ∧ r.buf = none
         ∧ (d.mason.again = [] → r.page = w.page)
         ∧ e.get MSN_RQ_TAIL.TAIL = (t + 1) % size % 2 ^ MSN_RQ_TAIL.TAIL.w
         ∧ .hostWrite (d.get MSN_RQ_BASE_LO.BASE_LO * 4096 + d.get MSN_RQ_BASE_HI.BASE_HI * 2 ^ 32 + 32 * t) ws ∈ e.out
         ∧ ws.length = 32 ∧ d.regsBut e [MSN_RQ_TAIL.TAIL.at] ∧ e.chs = d.chs)
       ∧ ((t + 1) % size = d.get MSN_RQ_HEAD.HEAD → ∃ e, exec .requestPost s = .next (s.withDev e)
         ∧ e.flag MSN_STAT.RQ_FULL = true ∧ d.onlyRegs e [MSN_STAT.RQ_FULL.at]))
     ∧ ((d.nextAsk = none ∨ d.flag MSN_RQ_CFG.EN = false ∨ d.mayIssue = false ∨ d.get MSN_BK.OUT ≤ d.mason.reqs.length) →
       exec .requestPost s = .next s))
  ∧ (∀ (s : State),
     let d := s.dev
     (∀ (tail : BitVec 12) (entries : List (Fin 4 × BitVec 16 × BitVec 64)), ∃ e, exec (.msnCqDoorbell tail entries) s = .next (s.withDev e)
       ∧ e.get MSN_CQ_TAIL.TAIL = tail.toNat ∧ d.regsBut e [MSN_CQ_TAIL.TAIL.at, MSN_CQ_HEAD.HEAD.at, MSN_STAT.BK_ERR.at] ∧ e.chs = d.chs)
     ∧ (∀ (tag : BitVec 16) (bytes : List (BitVec 8)),
       (∀ r, d.mason.reqs.find? (fun x => x.tag = tag.toNat && x.buf.isSome) = some r →
         let held := d.hostReady r.count = false ∨ d.mason.waits.any (fun x => x.has r.page) = true ∨ d.readFirst (d.runKey r) = false
         (¬ held → ∃ t, exec (.completionBufferRead tag bytes) s = .next t ∧ t.pending = s.pending
           ∧ t.dev.mason.reqs = d.mason.reqs.filter (fun x => x.tag ≠ tag.toNat) ∧ t.dev.mason.hostEnd = some d.time.abs ∧ t.dev.chs = d.chs)
         ∧ (held → exec (.completionBufferRead tag bytes) s = .next s))
       ∧ (d.mason.reqs.any (fun r => r.tag = tag.toNat && r.buf.isSome) = false → exec (.completionBufferRead tag bytes) s = .next s))
     ∧ (∀ tag : BitVec 16,
       (d.mason.reqs.any (fun r => r.tag = tag.toNat && r.buf.isNone) = true → ∃ e, exec (.backingTimeout tag) s = .next (s.withDev e)
         ∧ e.flag MSN_STAT.BK_TMO = true ∧ d.regsBut e [MSN_STAT.BK_TMO.at] ∧ tag.toNat ∈ e.mason.freed
         ∧ e.mason.reqs = d.mason.reqs.filter (fun r => r.tag ≠ tag.toNat))
       ∧ (d.mason.reqs.any (fun r => r.tag = tag.toNat && r.buf.isNone) = false → exec (.backingTimeout tag) s = .next s))
     ∧ (∀ x l, d.mason.waits = x :: l → ∃ e, exec .backingRetry s = .next (s.withDev e)
       ∧ e = { d with mason := { d.mason with waits := l, again := d.mason.again ++ (if x.ask then [(x.page, x.count, x.again)] else []) } })
     ∧ (d.mason.waits = [] → exec .backingRetry s = .next s)
     ∧ (∀ page : BitVec 36,
       let buffer := fun (r : Req) => r.buf.isSome && decide (r.page ≤ page.toNat) && decide (page.toNat < r.page + r.count)
       let fails := fun (p k : Nat) =>
         (p ∉ d.mason.failed → ∃ e, exec (.hostReadFail page) s = .next (s.withDev e) ∧ e.mason.failed = d.mason.failed ++ [p]
           ∧ e.mason.waits = d.mason.waits ++ [⟨p, k, false, false⟩] ∧ e.mason.reqs = d.mason.reqs ∧ e.regs = d.regs ∧ e.chs = d.chs)
         ∧ (p ∈ d.mason.failed → ∃ e, exec (.hostReadFail page) s = .next (s.withDev e) ∧ e.flag MSN_STAT.BK_ERR = true
           ∧ (∀ i, i < k → p + i ∈ e.mason.unavail) ∧ p ∉ e.mason.failed ∧ e.chs = d.chs)
       (∀ r, d.mason.reqs.find? buffer = some r → fails r.page r.count)
       ∧ (d.mason.reqs.find? buffer = none → (∃ w ∈ d.mason.wants, w.page = page.toNat ∧ d.directWant w = true) → fails page.toNat 1)
       ∧ (d.mason.reqs.find? buffer = none → (∀ w ∈ d.mason.wants, w.page = page.toNat → d.directWant w = false) →
         exec (.hostReadFail page) s = .next s)))

/-- R304, R326, R340: the descriptor window shows the descriptor that its index names; a legal descriptor written is pending for its
index, an illegal one sets `DESC_REJ`; an extent commit while one is pending, or of an illegal extent, sets `EXT_REJ`, else it is pending.
R317, R330: a horizon, horizon rate or bandwidth outside its range is refused with `CFG_REJ`, else taken; the effective host
bandwidth is the lower of the setting and 14 per lane. R321, R323: a check shows busy, and each of these starts one; when it is done each channel shows as many steps at
risk as were found and the block's flag says whether any was. R332, R337: a channel that begins to starve is flagged, counts one course and fires its
STARVE producer. -/
def Obligations.MasonSettings : Prop :=
  (∀ (s : State),
     let d := s.dev
     (∃ e, exec .msnDescWindowRead s = .next (s.withDev e)
       ∧ (∀ w : Fin 8, e.get MSN_DESC_Dw.WORD w = (d.descView s.mem (d.get MSN_DESC_IDX.IDX)).getD w 0 % 2 ^ MSN_DESC_Dw.WORD.w)
       ∧ d.onlyRegs e ((List.range 8).map (fun w => MSN_DESC_Dw.WORD.at w)))
     ∧ (let i := d.get MSN_DESC_IDX.IDX
        let ws := (List.range 8).map (fun w => d.get MSN_DESC_Dw.WORD w)
        (d.descLegal i ws = true → ∃ e v, exec .msnDescWindowWrite s = .next (s.withDev e)
           ∧ e.mason.descPend = (i, v) :: d.mason.descPend.filter (fun x => x.1 ≠ i)
           ∧ v.getD 0 0 = ws.getD 0 0 ∧ v.getD 7 0 = ((d.descLatest i).getD 7 0 + 1) % 65536 ∧ e.regs = d.regs)
        ∧ (d.descLegal i ws = false → ∃ e, exec .msnDescWindowWrite s = .next (s.withDev e)
           ∧ e.flag MSN_STAT.DESC_REJ = true ∧ d.onlyRegs e [MSN_STAT.DESC_REJ.at]))
     ∧ (∀ idx : BitVec 12,
        let ws := (List.range 8).map (fun k => d.get MSN_EXTi_w.WORD idx.toNat k)
        ((d.mason.extPend = none ∧ d.extLegal idx.toNat ws = true) → ∃ e, exec (.msnExtCommit idx) s = .next (s.withDev e)
           ∧ e.mason.extPend = some (idx.toNat, ws, none) ∧ e.flag MSN_EXT_CMD.PEND = true ∧ d.regsBut e [MSN_EXT_CMD.PEND.at])
        ∧ (¬ (d.mason.extPend = none ∧ d.extLegal idx.toNat ws = true) → ∃ e, exec (.msnExtCommit idx) s = .next (s.withDev e)
           ∧ e.flag MSN_STAT.EXT_REJ = true ∧ d.onlyRegs e [MSN_STAT.EXT_REJ.at])))
  ∧ (∀ (s : State),
     let d := s.dev
     (∀ (n : Fin 8) (w : BitVec 32), (1 ≤ bitsOf w.toNat 0 16 ∧ bitsOf w.toNat 0 16 ≤ 60000) →
       ∃ e, exec (.msnHzWrite n true w) s = .next (s.withDev e) ∧ e.get MSN_DHZn.DHZ n = bitsOf w.toNat 0 16 ∧ e.flag MSN_STAT.CHECK_BUSY = true
       ∧ d.onlyRegs e [MSN_DHZn.DHZ.at n, MSN_STAT.CHECK_BUSY.at])
     ∧ (∀ (n : Fin 8) (w : BitVec 32), ¬ (1 ≤ bitsOf w.toNat 0 16 ∧ bitsOf w.toNat 0 16 ≤ 60000) →
       ∃ e, exec (.msnHzWrite n true w) s = .next (s.withDev e) ∧ e.flag MSN_STAT.CFG_REJ = true ∧ d.onlyRegs e [MSN_STAT.CFG_REJ.at])
     ∧ (∀ (n : Fin 8) (w : BitVec 32), d.hzOk n (bitsOf w.toNat 0 8) (bitsOf w.toNat 16 8) = true →
       ∃ e, exec (.msnHzWrite n false w) s = .next (s.withDev e)
       ∧ e.get MSN_HZn.LEAD n = bitsOf w.toNat 0 8 % 2 ^ MSN_HZn.LEAD.w ∧ e.get MSN_HZn.HEAD n = bitsOf w.toNat 16 8 % 2 ^ MSN_HZn.HEAD.w
       ∧ e.flag MSN_STAT.CHECK_BUSY = true
       ∧ d.onlyRegs e [MSN_HZn.LEAD.at n, MSN_HZn.HEAD.at n, MSN_CHn_STAT.HZ_PEND.at n, MSN_STAT.CHECK_BUSY.at])
     ∧ (∀ (n : Fin 8) (w : BitVec 32), d.hzOk n (bitsOf w.toNat 0 8) (bitsOf w.toNat 16 8) = false →
       ∃ e, exec (.msnHzWrite n false w) s = .next (s.withDev e) ∧ e.flag MSN_STAT.CFG_REJ = true ∧ d.onlyRegs e [MSN_STAT.CFG_REJ.at])
     ∧ (∀ w : BitVec 32,
       let host := bitsOf w.toNat 0 6
       let copy := bitsOf w.toNat 8 6
       if 1 ≤ host ∧ host ≤ 56 ∧ 1 ≤ copy ∧ copy ≤ 32 then
         ∃ e, exec (.msnBwWrite w) s = .next (s.withDev e) ∧ e.get MSN_BW.HOST = host ∧ e.get MSN_BW.COPY = copy
         ∧ e.get MSN_BW_EFF.HOST_EFF = min host (14 * d.get MSN_BW_EFF.LANES) % 2 ^ MSN_BW_EFF.HOST_EFF.w
         ∧ e.flag MSN_STAT.CHECK_BUSY = true
         ∧ d.onlyRegs e [MSN_BW.HOST.at, MSN_BW.COPY.at, MSN_BW_EFF.HOST_EFF.at, MSN_STAT.CHECK_BUSY.at]
       else ∃ e, exec (.msnBwWrite w) s = .next (s.withDev e) ∧ e.flag MSN_STAT.CFG_REJ = true ∧ d.onlyRegs e [MSN_STAT.CFG_REJ.at])
     ∧ (∃ e, exec .msnCheck s = .next (s.withDev e) ∧ e.flag MSN_STAT.CHECK_BUSY = true ∧ d.onlyRegs e [MSN_STAT.CHECK_BUSY.at])
     ∧ (d.mason.risks.length = 8 → ∃ e, exec .atRiskCheckDone s = .next (s.withDev e) ∧ e.flag MSN_STAT.CHECK_BUSY = false
       ∧ (∀ n : Fin 8, e.get MSN_CHn_STAT.RISKS n = (e.mason.risks.getD n []).length % 2 ^ MSN_CHn_STAT.RISKS.w)
       ∧ e.flag MSN_STAT.RISK = e.mason.risks.any (fun l => !l.isEmpty) ∧ e.chs = d.chs ∧ e.time = d.time)
     ∧ (∀ n : Fin 8,
       (d.chs[n].starved = false → ∃ e, exec (.starveBegin n) s = .next (s.withDev e)
         ∧ e.chs[n].starved = true ∧ e.flag MSN_CHn_STAT.STARVED n = true
         ∧ (d.flag MSN_CHn_STAT.STARVED n = false → e.flag MSN_CHn_STAT.STARVE n = true
           ∧ e.get MSN_STARVEn.COURSES n = (d.get MSN_STARVEn.COURSES n + 1) % 2 ^ MSN_STARVEn.COURSES.w
           ∧ (d.asleep = false → ∀ l ∈ d.linesOf (chProd n 6), ∃ x ∈ e.ev.srcs, x.line = l))
         ∧ d.regsBut e [MSN_CHn_STAT.STARVED.at n, MSN_CHn_STAT.STARVE.at n, MSN_STARVEn.COURSES.at n] ∧ d.chsBut e n)
       ∧ (d.chs[n].starved = true → exec (.starveBegin n) s = .next s)))

/-! ### Chapter 10: on-chip memory -/

/-- R352, R580: in a bank that is up, a corrected granule counts for its array and sets `CE`, an uncorrectable one counts and sets `UE`,
the first of them recorded with its place; a clean row, a bank that is not up, and a scrub in SLEEP change nothing. R353: the third
distinct row with an error at one bit position of the bank within 10 s (2.5 × 10^9 ticks) has the column repaired while a spare is left.
R356: the sixteenth distinct uncorrectable row of a segment SRAM bank within 1 hour retires the bank.
R359 to R363: the march test of the start, once, clears segment SRAM and the mailboxes, leaves every other byte of memory, and with no bad column sets `START_OK`; a test on
request is taken while none runs (else the start is ignored), or refused with result 4; it ends only once its bank is empty, with 1 when no
column fails, or with 5 when it aborts; a column repair under way ends with one more spare used and
`REPAIR`. -/
def Obligations.SramErrorsAndTests : Prop :=
  (∀ (s : State) (arr : Fin 11) (bank : Fin 16) (row : BitVec 12),
     let d := s.dev
     let few := (d.sram.losses.filter (fun f => f.arr = arr.val && f.bank = bank.val)).length < 15
     let others := fun (span : Nat) (l : List Finding) (col : Nat) => ((recent span d.time.abs l).filter (fun f =>
       f.arr = arr.val && f.bank = bank.val && f.col = col && f.row ≠ row.toNat)).length
     let spare := d.colsUsed arr bank + (d.sram.repairs.filter (fun r => r.1 = arr.val && r.2.1 = bank.val)).length < spareCols arr
     (d.arraysUp arr bank = true → ∀ (r : SramReader) (g : Fin 8) (again : Bool) (bit : Fin 72) (c : Option (Fin 9 × Fin 16)),
       (∃ e, exec (.sramReadError arr bank row false r g again bit c) s = .next (s.withDev e)
         ∧ e.flag MEM_STAT.CE = true ∧ (arr.val < 8 → e.get MEM_ECCn.CE arr = satInc MEM_ECCn.CE.w (d.get MEM_ECCn.CE arr)) ∧ e.chs = d.chs
         ∧ (2 ≤ others 2500000000 d.sram.fixes (72 * g.val + bit.val) → spare → (arr.val, bank.val, 72 * g.val + bit.val) ∈ e.sram.repairs))
       ∧ (r = .staging → few → ∃ e, exec (.sramReadError arr bank row true r g again bit c) s = .next (s.withDev e)
         ∧ e.flag MEM_STAT.UE = true ∧ (arr.val < 8 → e.get MEM_ECCn.UE arr = satInc MEM_ECCn.UE.w (d.get MEM_ECCn.UE arr))
         ∧ e.flag MEM_LAST_UE.VALID = true
         ∧ (d.flag MEM_LAST_UE.VALID = false → e.get MEM_LAST_UE.ARRAY = arr.val ∧ e.get MEM_LAST_UE.BANK = bank.val ∧ e.get MEM_LAST_UE.ROW = row.toNat)
         ∧ (d.flag MEM_LAST_UE.VALID = true → e.get MEM_LAST_UE.ROW = d.get MEM_LAST_UE.ROW)
         ∧ (∀ n : Fin 8, n.val ≠ arr.val → e.chs[n] = d.chs[n]))
       ∧ (r = .staging → arr.val < 8 → 15 ≤ others 900000000000 d.sram.losses 0 →
         ∃ e, exec (.sramReadError arr bank row true r g again bit c) s = .next (s.withDev e) ∧ e.bit MEM_BANKn.RETIRED arr 0 bank = true))
     ∧ (d.arraysUp arr bank = false → ∀ (ue : Bool) (r : SramReader) (g : Fin 8) (again : Bool) (bit : Fin 72) (c : Option (Fin 9 × Fin 16)),
       exec (.sramReadError arr bank row ue r g again bit c) s = .next s)
     ∧ (∀ col : Fin 576, d.arraysUp arr bank = true → d.get PWR_STAT.STATE ≠ 2 →
       (exec (.sramScrub arr bank row .clean col) s = .next s)
       ∧ (∃ e, exec (.sramScrub arr bank row .fixed col) s = .next (s.withDev e)
         ∧ e.flag MEM_STAT.CE = true ∧ (arr.val < 8 → e.get MEM_ECCn.CE arr = satInc MEM_ECCn.CE.w (d.get MEM_ECCn.CE arr)) ∧ e.chs = d.chs
         ∧ (2 ≤ others 2500000000 d.sram.fixes col → spare → (arr.val, bank.val, col.val) ∈ e.sram.repairs))
       ∧ (few → arr.val ≠ 8 → ∃ e, exec (.sramScrub arr bank row .lost col) s = .next (s.withDev e)
         ∧ e.flag MEM_STAT.UE = true ∧ e.flag MEM_LAST_UE.VALID = true ∧ (∀ n : Fin 8, n.val ≠ arr.val → e.chs[n] = d.chs[n])))
     ∧ ((d.arraysUp arr bank = false ∨ d.get PWR_STAT.STATE = 2) → ∀ (f : Ecc) (col : Fin 576), exec (.sramScrub arr bank row f col) s = .next s))
  ∧ (∀ (s : State),
     let d := s.dev
     (d.locked = true → d.flag MEM_STAT.START_OK = false → d.flag MEM_STAT.MT_FAIL = false →
       ∃ t, exec (.startupMarchDone []) s = .next t ∧ t.pending = s.pending ∧ t.dev.flag MEM_STAT.START_OK = true ∧ t.dev.mbx = []
       ∧ t.dev.sram.blank = List.range 8
       ∧ d.regsBut t.dev [MEM_STAT.START_OK.at] ∧ t.dev.chs = d.chs
       ∧ (∀ x, x < 0x2000000 → t.mem.read (sramAt x) = Memory.blank)
       ∧ (∀ a, (a < sramAt 0 ∨ sramAt 0x2000000 ≤ a) → t.mem.read a = s.mem.read a))
     ∧ ((d.locked = false ∨ d.flag MEM_STAT.START_OK = true ∨ d.flag MEM_STAT.MT_FAIL = true) →
       ∀ bad, exec (.startupMarchDone bad) s = .next s)
     ∧ (∀ w : BitVec 32, d.flag MEM_MT.BUSY = true → ∃ e, exec (.memMtStart w) s = .next (s.withDev e)
       ∧ d.onlyRegs e [MEM_MT.BANK.at, MEM_MT.CH.at] ∧ e.get MEM_MT.BANK = bitsOf w.toNat 8 4 ∧ e.get MEM_MT.CH = bitsOf w.toNat 4 3)
     ∧ (∀ w : BitVec 32, d.flag MEM_MT.BUSY = false →
       ((d.set MEM_MT.BANK 0 0 (bitsOf w.toNat 8 4)).set MEM_MT.CH 0 0 (bitsOf w.toNat 4 3)).marchRefused s.mem
         (Fin.ofNat 8 (bitsOf w.toNat 4 3)) (bitsOf w.toNat 8 4) = false →
       ∃ e, exec (.memMtStart w) s = .next (s.withDev e) ∧ e.flag MEM_MT.BUSY = true
       ∧ (∃ t, e.sram.test = some t ∧ t.ch = bitsOf w.toNat 4 3 ∧ t.bank = bitsOf w.toNat 8 4 ∧ t.tests = false ∧ t.cmd = none)
       ∧ d.regsBut e [MEM_MT.BANK.at, MEM_MT.CH.at, MEM_MT.BUSY.at, MSN_SRAMn.RINGS.at (bitsOf w.toNat 4 3), MSN_SRAMn.FREE.at (bitsOf w.toNat 4 3)])
     ∧ (∀ w : BitVec 32, d.flag MEM_MT.BUSY = false →
       ((d.set MEM_MT.BANK 0 0 (bitsOf w.toNat 8 4)).set MEM_MT.CH 0 0 (bitsOf w.toNat 4 3)).marchRefused s.mem
         (Fin.ofNat 8 (bitsOf w.toNat 4 3)) (bitsOf w.toNat 8 4) = true →
       ∃ e, exec (.memMtStart w) s = .next (s.withDev e) ∧ e.get MEM_MT.RESULT = 4
       ∧ d.onlyRegs e [MEM_MT.BANK.at, MEM_MT.CH.at, MEM_MT.RESULT.at])
     ∧ (∀ (t : March) (cols : Nat), d.sram.test = some t → t.cmd = none →
       (∃ e, exec (.marchTestDone cols true) s = .next (s.withDev e) ∧ e.sram.test = none ∧ e.get MEM_MT.RESULT = 5 ∧ e.flag MEM_MT.BUSY = false
         ∧ d.regsBut e [MEM_MT.RESULT.at, MEM_MT.BUSY.at])
       ∧ (t.tests = false → exec (.marchTestDone cols false) s = .next s)
       ∧ (t.tests = true → ∃ e, exec (.marchTestDone 0 false) s = .next (s.withDev e) ∧ e.sram.test = none ∧ e.get MEM_MT.RESULT = 1 ∧ e.flag MEM_MT.BUSY = false
         ∧ d.regsBut e [MEM_MT.RESULT.at, MEM_MT.BUSY.at]))
     ∧ (∀ (cols : Nat) (abort : Bool), d.sram.test = none → exec (.marchTestDone cols abort) s = .next s)
     ∧ (∀ (arr : Fin 11) (bank : Fin 16),
       (∀ r, d.sram.repairs.find? (fun r => r.1 = arr.val && r.2.1 = bank.val) = some r → ∃ e, exec (.columnRepairDone arr bank) s = .next (s.withDev e)
         ∧ e.flag MEM_STAT.REPAIR = true ∧ e.sram.repairs = d.sram.repairs.erase r
         ∧ e.colsUsed arr bank = d.colsUsed arr bank + 1)
       ∧ (d.sram.repairs.find? (fun r => r.1 = arr.val && r.2.1 = bank.val) = none → exec (.columnRepairDone arr bank) s = .next s)))

/-! ### Chapter 11: DRAM -/

/-- R380, R376, R385 to R387: a page policy of 3, a QoS target of another port than 4 or 6 or below 256, and a low-power word with a retention code
of 3 or an idle time of 0 are refused with `CFG_REJ`; any other is taken; a rank that is on and not in self-refresh enters power-down; an
idle one enters self-refresh with its refresh debt paid.
R382, R384: a refresh that is due while requests wait adds to the rank's debt, below 8; at 8 it is forced, with its flag, and the delays that
the rank awaits are written (R398); in self-refresh a rank owes none. R389: each interval of a rank in service counts towards its window of
8,192, at whose end the activations counted in it and the limits go. A temperature poll shows the band, and the top band latches fault 6. -/
def Obligations.DramSettings : Prop :=
  (∀ (s : State) (n : Fin 8),
     let d := s.dev
     let refused := fun c => ∃ e, exec c s = .next (s.withDev e) ∧ e.flag DMC_STAT.CFG_REJ n = true ∧ d.onlyRegs e [DMC_STAT.CFG_REJ.at n]
     (∀ p : BitVec 2, if p = 3 then refused (.dmcPageWrite n p)
       else ∃ e, exec (.dmcPageWrite n p) s = .next (s.withDev e) ∧ e.get DMC_CTRL.PAGE n = p.toNat ∧ d.onlyRegs e [DMC_CTRL.PAGE.at n])
     ∧ (∀ (p : Fin 7) (t : BitVec 16), if (p = 4 ∨ p = 6) ∧ 256 ≤ t.toNat then
         ∃ e, exec (.dmcQosWrite n p t) s = .next (s.withDev e) ∧ e.get DMC_QOSp.TARGET n p = t.toNat ∧ d.onlyRegs e [DMC_QOSp.TARGET.at n p]
       else refused (.dmcQosWrite n p t))
     ∧ (∀ w : BitVec 32, if bitsOf w.toNat 24 2 ≠ 3 ∧ bitsOf w.toNat 0 8 ≠ 0 then
         ∃ e, exec (.dmcLpWrite n w) s = .next (s.withDev e) ∧ e.get DMC_LP.RETAIN n = bitsOf w.toNat 24 2
         ∧ e.get DMC_LP.SR_TMR n = bitsOf w.toNat 8 16 ∧ e.get DMC_LP.PD_TMR n = bitsOf w.toNat 0 8
         ∧ d.onlyRegs e [DMC_LP.RETAIN.at n, DMC_LP.SR_TMR.at n, DMC_LP.PD_TMR.at n]
       else refused (.dmcLpWrite n w))
     ∧ (∀ r : Fin 2, d.rankOn n r = true → d.flag DMC_RANKr.SELF_REF n r = false → ∃ e, exec (.powerDownEntry n r) s = .next (s.withDev e)
       ∧ e.flag DMC_RANKr.PD n r = true ∧ d.onlyRegs e [DMC_RANKr.PD.at n r])
     ∧ (∀ r : Fin 2, (d.rankOn n r = false ∨ d.flag DMC_RANKr.SELF_REF n r = true) → exec (.powerDownEntry n r) s = .next s)
     ∧ (∀ r : Fin 2, d.rankOn n r = true → d.get DMC_LP.SR_TMR n ≠ 0 → d.rankIdle s.mem n r = true →
       ∃ e, exec (.selfRefreshEntry n r) s = .next (s.withDev e) ∧ e.flag DMC_RANKr.SELF_REF n r = true ∧ e.flag DMC_RANKr.PD n r = false
       ∧ e.debt n r = 0 ∧ d.onlyRegs e [DMC_RANKr.SELF_REF.at n r, DMC_RANKr.PD.at n r, DMC_REF.DEBT0.at n, DMC_REF.DEBT1.at n])
     ∧ (∀ r : Fin 2, (d.get DMC_LP.SR_TMR n = 0 ∨ d.rankIdle s.mem n r = false) → exec (.selfRefreshEntry n r) s = .next s))
  ∧ (∀ (s : State) (n : Fin 8),
     let d := s.dev
     let counted := fun (r : Nat) =>
       let x := d.chs[n].dram
       if x.window.getD r 0 < 8191 then { x with window := x.window.set r (x.window.getD r 0 + 1) }
       else { x with window := x.window.set r 0, acts := x.acts.filter (fun y => y.1 ≠ r), limited := x.limited.filter (fun y => y.1 ≠ r) }
     (∀ (r : Fin 2) (pending : Bool), d.rankOn n r = true → d.flag DMC_RANKr.SELF_REF n r = false →
       (d.debt n r = 8 → ∃ e, exec (.refreshDue n r pending) s = .next (s.withDev e) ∧ e.flag DMC_STAT.FORCED_REF n = true
         ∧ e.get DMC_REF.FORCED n = satInc DMC_REF.FORCED.w (d.get DMC_REF.FORCED n)
         ∧ d.regsBut e [DMC_STAT.FORCED_REF.at n, DMC_REF.FORCED.at n] ∧ d.chsBut e n
         ∧ (let x := d.chs[n].delays
            (r.val ∈ x.due → e.chs[n] = { d.chs[n] with dram := counted r, delays := { x with rows := x.rows.set r x.band, due := x.due.filter (· ≠ r.val) } })
            ∧ (r.val ∉ x.due → e.chs[n] = { d.chs[n] with dram := counted r })))
       ∧ (d.debt n r < 8 → pending = true → ∃ e, exec (.refreshDue n r pending) s = .next (s.withDev e) ∧ e.debt n r = d.debt n r + 1
         ∧ e.debt n (1 - r.val) = d.debt n (1 - r.val) ∧ d.regsBut e [DMC_REF.DEBT0.at n, DMC_REF.DEBT1.at n] ∧ d.chsBut e n
         ∧ e.chs[n] = { d.chs[n] with dram := counted r })
       ∧ (d.debt n r < 8 → pending = false → ∃ e, exec (.refreshDue n r pending) s = .next (s.withDev e) ∧ e.regs = d.regs ∧ d.chsBut e n
         ∧ e.chs[n] = { d.chs[n] with dram := counted r }))
     ∧ (∀ (r : Fin 2) (pending : Bool), d.rankOn n r = true → d.flag DMC_RANKr.SELF_REF n r = true →
       ∃ e, exec (.refreshDue n r pending) s = .next (s.withDev e) ∧ e.regs = d.regs ∧ d.chsBut e n
       ∧ e.chs[n] = { d.chs[n] with dram := counted r })
     ∧ (∀ (r : Fin 2) (pending : Bool), d.rankOn n r = false → exec (.refreshDue n r pending) s = .next s)
     ∧ (∀ band : Fin 4, ∃ e, exec (.dramTempPoll n band) s = .next (s.withDev e) ∧ e.get DMC_STAT.TBAND n = band.val
       ∧ (band = 3 → e.bit PORTER_FAULT.CAUSE 0 0 6 = true) ∧ d.regsBut e [DMC_STAT.TBAND.at n, PORTER_FAULT.CAUSE.at] ∧ e.chs = d.chs))

/-- R391, R392, R402, R581: a read, which the frame's own rank serves or with `MIRROR` the other one, ends the rank's power-down and self-refresh; a link error corrected counts as corrected, a bad link or
code counts as replayed, and neither writes memory; a scrub of a sound frame in RUN changes no memory. A frame that no
rank serves is not read. R389: the activation that is a row's 2,048th in its window makes the row hot and is counted with its source.
R397, R400: a draining rank that holds no page, or with `MIRROR` has its pages in the other rank too (R402), begins its sweep with no tries made; a sweep whose narrowest window is 16 steps or more brings the
rank back with its lanes' delays at the centres of their windows (R396), in the present band (R398) (no command waiting on it), a narrower one is tried again, and the third retires the rank; a rank not in that state is left alone. -/
def Obligations.DramReadsAndDrains : Prop :=
  (∀ (s : State) (n : Fin 8) (addr : BitVec 33) (port : Fin 7) (bursts : Nat) (late : Bool),
     let d := s.dev
     let f := addr.toNat / 65536
     (∀ r, d.servedBy n f = some r →
       (∃ e, exec (.dramReadResult n addr .clean port bursts false false late) s = .next (s.withDev e)
         ∧ e.flag DMC_RANKr.PD n r = false ∧ e.flag DMC_RANKr.SELF_REF n r = false
         ∧ d.onlyRegs e [DMC_RANKr.PD.at n r, DMC_RANKr.SELF_REF.at n r, DMC_QOSp.LATE.at n port])
       ∧ (∃ e, exec (.dramReadResult n addr .linkFixed port bursts false false late) s = .next (s.withDev e)
         ∧ e.get DMC_ECC.CE n = satInc DMC_ECC.CE.w (d.get DMC_ECC.CE n)
         ∧ d.onlyRegs e [DMC_RANKr.PD.at n r, DMC_RANKr.SELF_REF.at n r, DMC_QOSp.LATE.at n port, DMC_ECC.CE.at n])
       ∧ (∀ b, b = .linkBad ∨ b = .codeBad → ∃ e, exec (.dramReadResult n addr b port bursts false false late) s = .next (s.withDev e)
         ∧ e.get DMC_ECC.REPLAY n = satInc DMC_ECC.REPLAY.w (d.get DMC_ECC.REPLAY n) ∧ e.flag DMC_STAT.REPLAY n = true
         ∧ d.onlyRegs e [DMC_RANKr.PD.at n r, DMC_RANKr.SELF_REF.at n r, DMC_QOSp.LATE.at n port, DMC_ECC.REPLAY.at n, DMC_STAT.REPLAY.at n]))
     ∧ (∀ r, d.servedBy n f = some r →
       let row := d.dieRow n addr.toNat
       d.chs[n].dram.acts.find? (fun x => x.1 = d.rankOf f && x.2.1 = row) = some (d.rankOf f, row, 2047) →
       d.chs[n].dram.limited.contains (d.rankOf f, row, port.val) = false →
       ∃ e, exec (.dramReadResult n addr .clean port bursts false true late) s = .next (s.withDev e)
       ∧ e.flag DMC_STAT.HOT n = true ∧ e.get DMC_UE.HOT n = satInc DMC_UE.HOT.w (d.get DMC_UE.HOT n)
       ∧ e.get DMC_HOT.COUNT n = satInc DMC_HOT.COUNT.w (d.get DMC_HOT.COUNT n) ∧ e.get DMC_HOT.LAST_PORT n = port.val % 2 ^ DMC_HOT.LAST_PORT.w
       ∧ (d.rankOf f, row, port.val) ∈ e.chs[n].dram.limited ∧ d.regsBut e (requestKeys n r port ++ hotKeys n) ∧ d.chsBut e n)
     ∧ (d.servedBy n f = none → ∀ b drain act, exec (.dramReadResult n addr b port bursts drain act late) s = .next s)
     ∧ (∀ r, d.get PWR_STAT.STATE = 0 → d.servedBy n f = some r → ∃ e, exec (.dramScrub n addr .clean bursts none true) s = .next (s.withDev e)
       ∧ e.get STK_SCRUB_STAT.PASSES = (d.get STK_SCRUB_STAT.PASSES + 1) % 2 ^ STK_SCRUB_STAT.PASSES.w ∧ d.chsBut e n
       ∧ d.regsBut e (STK_SCRUB_STAT.PASSES.at :: requestKeys n r 6 ++ hotKeys n))
     ∧ ((d.get PWR_STAT.STATE ≠ 0 ∨ d.servedBy n f = none) → ∀ b hour last, exec (.dramScrub n addr b bursts hour last) s = .next s))
  ∧ (∀ (s : State) (n : Fin 8) (r : Fin 2),
     let d := s.dev
     (d.get DMC_RANKr.STATE n r = 1 →
       (d.mirrors n = true ∨ d.mason.copies.any (fun c => c.ch = n.val && (d.flag DMC_CTRL.MIRROR n || d.rankOf c.frame = r.val)) = false) →
       ∃ e, exec (.rankDrainDone n r) s = .next (s.withDev e) ∧ e.get DMC_RANKr.STATE n r = 2 ∧ e.get DMC_RANKr.TRIES n r = 0
       ∧ d.regsBut e [DMC_RANKr.STATE.at n r, DMC_RANKr.TRIES.at n r, MBX_NOTE_TAIL.TAIL.at, MBX_NOTE_TAIL.LOST.at] ∧ e.chs = d.chs)
     ∧ (d.get DMC_RANKr.STATE n r ≠ 1 → exec (.rankDrainDone n r) s = .next s)
     ∧ (∀ lanes : List LaneWindow, d.get DMC_RANKr.STATE n r = 2 → 16 ≤ narrowest lanes → d.cmds = [] →
       ∃ e, exec (.rankSweepDone n r lanes) s = .next (s.withDev e) ∧ e.get DMC_RANKr.STATE n r = 0
       ∧ e.get DMC_RANKr.WIN n r = narrowest lanes % 2 ^ DMC_RANKr.WIN.w
       ∧ d.regsBut e [DMC_RANKr.STATE.at n r, DMC_RANKr.TRIES.at n r, DMC_RANKr.WIN.at n r, MBX_NOTE_TAIL.TAIL.at, MBX_NOTE_TAIL.LOST.at]
       ∧ d.chsBut e n ∧ (∃ x, e.chs[n] = { d.chs[n] with delays := x } ∧ r.val ∉ x.due ∧ x.rows = d.chs[n].delays.rows.set r x.band
         ∧ x.centres = d.chs[n].delays.centres.set r (lanes.map (fun l => l.first.toNat + l.steps.toNat / 2))))
     ∧ (∀ lanes : List LaneWindow, d.get DMC_RANKr.STATE n r = 2 → narrowest lanes < 16 → d.get DMC_RANKr.TRIES n r < 2 →
       ∃ e, exec (.rankSweepDone n r lanes) s = .next (s.withDev e) ∧ e.get DMC_RANKr.TRIES n r = d.get DMC_RANKr.TRIES n r + 1
       ∧ e.get DMC_RANKr.WIN n r = narrowest lanes % 2 ^ DMC_RANKr.WIN.w ∧ d.onlyRegs e [DMC_RANKr.TRIES.at n r, DMC_RANKr.WIN.at n r])
     ∧ (∀ lanes : List LaneWindow, d.get DMC_RANKr.STATE n r = 2 → narrowest lanes < 16 → d.get DMC_RANKr.TRIES n r = 2 → d.cmds = [] →
       ∃ e, exec (.rankSweepDone n r lanes) s = .next (s.withDev e) ∧ e.get DMC_RANKr.STATE n r = 3 ∧ e.flag DMC_STAT.RANK_RET n = true
       ∧ e.debt n r = 0 ∧ e.bit PORTER_FAULT.CAUSE 0 0 10 = true ∧ e.chs = d.chs)
     ∧ (∀ lanes : List LaneWindow, d.get DMC_RANKr.STATE n r ≠ 2 → exec (.rankSweepDone n r lanes) s = .next s))

/-! ### Chapter 12: the Bond ring -/

/-- R406, R446, R416, R430: the loss of a link that stood clears `LINK`, sets the hops to 511 and flags the change; a link that comes up within
180 µm of delay (in its unit) on a device that is not the root shows its delay and `LINK`, a longer one only `LONG`, one that has brought frames from a port of its own name only `WIRING`; a finished calibration
stores its asymmetry and brings the link back; on a port without the fitting state each changes nothing. -/
def Obligations.RingLinks : Prop :=
  ∀ (s : State) (p : Fin 2),
    let d := s.dev
    (d.ringed = true → d.linked p = true → ∃ e, exec (.linkLost p 0) s = .next (s.withDev e)
      ∧ e.linked p = false ∧ e.get RING_Pp_STAT.HOPS p = 511 ∧ e.flag RING_STAT.LINK_CHG = true ∧ e.ring.closed = false ∧ e.chs = d.chs ∧ e.time = d.time)
    ∧ ((d.ringed = false ∨ d.linked p = false) → ∀ cv, exec (.linkLost p cv) s = .next s)
    ∧ (∀ dl : BitVec 24, d.ringed = true → d.linked p = false → d.isRoot = false → (d.measOf p).same = false → dl.toNat ≤ 180000 →
      ∃ e, exec (.linkUp p dl) s = .next (s.withDev e) ∧ e.linked p = true ∧ e.get RING_Pp_DLY.DELAY p = dl.toNat % 2 ^ RING_Pp_DLY.DELAY.w
      ∧ e.flag RING_STAT.LINK_CHG = true ∧ e.chs = d.chs ∧ e.time = d.time)
    ∧ (∀ dl : BitVec 24, d.ringed = true → d.linked p = false → (d.measOf p).same = false → 180000 < dl.toNat →
      ∃ e, exec (.linkUp p dl) s = .next (s.withDev e) ∧ e.flag RING_STAT.LONG = true ∧ d.onlyRegs e [RING_STAT.LONG.at])
    ∧ (∀ dl : BitVec 24, d.ringed = true → d.linked p = false → (d.measOf p).same = true →
      ∃ e, exec (.linkUp p dl) s = .next (s.withDev e) ∧ e.flag RING_STAT.WIRING = true ∧ d.onlyRegs e [RING_STAT.WIRING.at])
    ∧ (∀ dl : BitVec 24, (d.ringed = false ∨ d.linked p = true) → exec (.linkUp p dl) s = .next s)
    ∧ (∀ a : BitVec 16, d.flag RING_Pp_STAT.REV p = true → (d.measOf p).revEnd = none → d.isRoot = false →
      ∃ e, exec (.recalDone p a) s = .next (s.withDev e) ∧ e.get RING_Pp_ASYM.ASYM p = a.toNat % 2 ^ RING_Pp_ASYM.ASYM.w ∧ e.linked p = true
      ∧ e.chs = d.chs ∧ e.time = d.time)
    ∧ (∀ a : BitVec 16, (d.flag RING_Pp_STAT.REV p = false ∨ (d.measOf p).revEnd ≠ none) → exec (.recalDone p a) s = .next s)

/-- R406, R415, R417, R413: a link frame that comes in over a wrongly wired port sets `WIRING`, and the port has no link; over a standing link of
a device outside a joined system, no election of its own due (R422), it shows the neighbour's index and one more hop than the neighbour's; a link frame goes out of each port that is not reversed; a lane that
the device starts gets exactly one cell at each of its positions, any other none. -/
def Obligations.RingFrames : Prop :=
  ∀ (s : State),
    let d := s.dev
    let still := (d.measOf 0).revEnd = none ∧ (d.measOf 1).revEnd = none
    (∀ (p : Fin 2) (f : BitVec 128) (b : BitVec 32), still → d.ringed = true →
      ∃ e, exec (.linkFrameReceive p f b true) s = .next (s.withDev e) ∧ e.flag RING_STAT.WIRING = true ∧ e.linked p = false ∧ (e.measOf p).same = true
      ∧ e.chs = d.chs ∧ e.time = d.time ∧ (d.linked p = false → d.regsBut e [RING_STAT.WIRING.at]))
    ∧ (∀ (p : Fin 2) (f : BitVec 128) (b : BitVec 32), still → d.ringed = true → d.linked p = true → d.joined = false → bitAt f.toNat 127 = false →
      (d.ringSt = 1 → d.get RING_CTRL.ROLE = 2 → d.time.abs < d.ring.linkAt + 499840) →
      ∃ e, exec (.linkFrameReceive p f b false) s = .next (s.withDev e) ∧ e.get RING_Pp_STAT.PEER p = bitsOf f.toNat 110 10
      ∧ e.get RING_Pp_STAT.HOPS p = (if bitsOf f.toNat 97 9 = 511 then 511 else bitsOf f.toNat 97 9 + 1) ∧ e.chs = d.chs ∧ e.time = d.time)
    ∧ (∀ (p : Fin 2) (f : BitVec 128) (b : BitVec 32) (same : Bool), still → d.ringed = false →
      exec (.linkFrameReceive p f b same) s = .next s)
    ∧ (still → d.ringed = true → d.flag RING_Pp_STAT.REV 0 = false → d.flag RING_Pp_STAT.REV 1 = false →
      ∃ e f g, exec .linkFrameSend s = .next (s.withDev e) ∧ e.out = d.out ++ [.linkFrame 0 f, .linkFrame 1 g] ∧ e.regs = d.regs ∧ e.chs = d.chs)
    ∧ (∀ p : Fin 2, d.startsLane p = true → ∃ e o, exec (.laneCellSend p) s = .next (s.withDev e) ∧ e.out = d.out ++ [o] ∧ e.chs = d.chs
      ∧ d.regsBut e [RING_MTX_CTRL.BUSY.at])
    ∧ (∀ p : Fin 2, d.startsLane p = false → exec (.laneCellSend p) s = .next s)

/-- R418, R419, R424, R451, R452: the role is taken while the device is not yet joining and sets the state, else refused; a device that finds a joined neighbour
and has every sequencer stopped begins to join, or to rejoin as an island made ready; one that must wait says so; a JOIN or REJOIN in
another state is refused. -/
def Obligations.RingJoining : Prop :=
  ∀ (s : State),
    let d := s.dev
    (∀ role : BitVec 2, d.ringSt < 2 → ∃ e, exec (.ringRoleWrite role) s = .next (s.withDev e)
      ∧ e.get RING_CTRL.ROLE = role.toNat ∧ e.ringSt = (if role = 1 ∨ role = 2 then 1 else 0)
      ∧ (role = 3 → e.flag RING_STAT.CFG_REJ = true) ∧ e.chs = d.chs ∧ e.time = d.time)
    ∧ (∀ role : BitVec 2, 2 ≤ d.ringSt → ∃ e, exec (.ringRoleWrite role) s = .next (s.withDev e)
      ∧ e.flag RING_STAT.CFG_REJ = true ∧ d.onlyRegs e [RING_STAT.CFG_REJ.at])
    ∧ (∀ p, d.joinedPort = some p → d.ringSt = 1 → (d.get RING_CTRL.ROLE = 1 ∨ d.get RING_CTRL.ROLE = 2) → d.ring.decision = none →
      (d.allStopped = true → ∃ e, exec .joinStart s = .next (s.withDev e) ∧ e.ringSt = 2 ∧ e.flag RING_STAT.WAIT = false ∧ e.chs = d.chs ∧ e.time = d.time)
      ∧ (d.allStopped = false → ∃ e, exec .joinStart s = .next (s.withDev e) ∧ e.flag RING_STAT.WAIT = true ∧ d.onlyRegs e [RING_STAT.WAIT.at]))
    ∧ ((d.joinedPort = none ∨ d.ringSt ≠ 1 ∨ d.ring.decision ≠ none) → exec .joinStart s = .next s)
    ∧ (d.ringSt = 5 →
      (d.rejoinReady = true → ∃ e, exec .rejoinStart s = .next (s.withDev e) ∧ e.ringSt = 6 ∧ e.flag RING_STAT.WAIT = false ∧ e.chs = d.chs ∧ e.time = d.time)
      ∧ (d.rejoinReady = false → ∃ e, exec .rejoinStart s = .next (s.withDev e) ∧ e.flag RING_STAT.WAIT = true ∧ d.onlyRegs e [RING_STAT.WAIT.at]))
    ∧ (d.ringSt ≠ 5 → exec .rejoinStart s = .next s)
    ∧ (d.ringSt ≠ 1 → ∃ e, exec .ringJoinCmd s = .next (s.withDev e) ∧ e.flag RING_STAT.CFG_REJ = true ∧ d.onlyRegs e [RING_STAT.CFG_REJ.at])
    ∧ (d.ringSt = 1 → d.ownWait = [] → ∃ e, exec .ringJoinCmd s = .next (s.withDev e)
      ∧ ∀ n : Fin 8, e.get SEQ_STAT.STATE n = 0 ∧ e.chs[n].cur = none)
    ∧ (d.ringSt ≠ 5 → ∃ e, exec .ringRejoinCmd s = .next (s.withDev e) ∧ e.flag RING_STAT.CFG_REJ = true ∧ d.onlyRegs e [RING_STAT.CFG_REJ.at])
    ∧ (d.ringSt = 5 → d.ownWait = [] → ∃ e, exec .ringRejoinCmd s = .next (s.withDev e) ∧ e.ring.ready = true
      ∧ ∀ n : Fin 8, e.get SEQ_STAT.STATE n = 0 ∧ e.chs[n].cur = none)

/-- R426, R427, R445, R430: the root admits a device that asks with the lowest index free, two landing distances ahead, and its L_min one ahead (R140),
with every later one that a pending course length brings, or refuses it when the roster is full; it evicts a silent member from the roster; on any other device neither does anything. A calibration asked for outside a system is
refused, on a member passed on for both its links. -/
def Obligations.RingRoot : Prop :=
  ∀ (s : State),
    let d := s.dev
    let used := d.ring.roster ++ d.ring.adds.map (·.1)
    (d.isRoot = true → used.length < 512 → ∃ e, exec .joinRequestReceive s = .next (s.withDev e)
      ∧ e.ring.adds = d.ring.adds ++ [(lowestFree used, d.time.crs + 2 * d.lmin)]
      ∧ e.ring.lmins = d.ring.lmins ++ d.lminPlan (used.length + 1) (d.time.crs + d.lmin)
      ∧ (d.time.lenPend = none → e.ring.lmins = d.ring.lmins ++ [(lminOf (used.length + 1) (d.lenAt (d.time.crs + d.lmin)), d.time.crs + d.lmin)])
      ∧ e.regs = d.regs ∧ e.chs = d.chs)
    ∧ (d.isRoot = true → 512 ≤ used.length → ∃ e, exec .joinRequestReceive s = .next (s.withDev e)
      ∧ e.ring.adds = d.ring.adds ∧ e.regs = d.regs ∧ e.chs = d.chs)
    ∧ (d.isRoot = false → exec .joinRequestReceive s = .next s)
    ∧ (∀ i : Fin 512, d.isRoot = true → d.get RING_CFG.EVICT ≠ 0 → i.val ≠ d.get RING_ID.INDEX → i.val ∈ d.ring.roster →
      ∃ e, exec (.evictTimeout i) s = .next (s.withDev e) ∧ e.ring.roster = d.ring.roster.filter (· ≠ i.val) ∧ e.chs = d.chs ∧ e.time = d.time)
    ∧ (∀ i : Fin 512, (d.isRoot = false ∨ d.get RING_CFG.EVICT = 0 ∨ i.val = d.get RING_ID.INDEX ∨ i.val ∉ d.ring.roster) →
      exec (.evictTimeout i) s = .next s)
    ∧ (d.isRoot = false → d.isMember = false → ∃ e, exec .ringRecalCmd s = .next (s.withDev e)
      ∧ e.flag RING_STAT.CFG_REJ = true ∧ d.onlyRegs e [RING_STAT.CFG_REJ.at])
    ∧ (d.isRoot = false → d.isMember = true → ∃ e, exec .ringRecalCmd s = .next (s.withDev e) ∧ e.regs = d.regs ∧ e.chs = d.chs
      ∧ e.ring.ctl.length = d.ring.ctl.length + 4)

/-- R409, R411, R414, R431: a cell over a standing link that fails its CRC counts for the port; the device's own event cell come round closes the
loop; over no link nothing changes. R442, R443: a HALT symbol on the ring asserts HALT and passes on.
R439, R440: a message sent while one is being sent, or outside a joined system, is refused with `CFG_REJ`; else its header reads back,
the transmitter is busy where a link stands, and its number counts on. A whole message received in a system enters the queue, with its source and
bytes, unless 16 wait, when it is lost; a pop removes the oldest. -/
def Obligations.RingCells : Prop :=
  (∀ (s : State) (p : Fin 2) (cls : CellClass) (payload : BitVec 56) (act : RingAction),
     let d := s.dev
     (d.ringed = true → d.linked p = true →
       (∃ e, exec (.cellReceive p cls payload false 0 act) s = .next (s.withDev e)
         ∧ e.get RING_Pp_ERR.CRC p = satInc RING_Pp_ERR.CRC.w (d.get RING_Pp_ERR.CRC p) ∧ e.chs = d.chs ∧ e.time = d.time)
       ∧ (∀ r, cls = .event r → d.joined = true → payload.toNat / 2 ^ 46 = d.get RING_ID.INDEX →
         ∃ e, exec (.cellReceive p cls payload true 0 act) s = .next (s.withDev e)
         ∧ e.ring.closed = true ∧ e.get RING_Pp_ERR.CRC p = d.get RING_Pp_ERR.CRC p ∧ e.chs = d.chs ∧ e.time = d.time))
     ∧ ((d.ringed = false ∨ d.linked p = false) → ∀ good cv, exec (.cellReceive p cls payload good cv act) s = .next s)
     ∧ (d.ringed = true → d.ownWait = [] → ∃ e, exec (.haltSymbolReceive p) s = .next (s.withDev e)
       ∧ e.porter.halt = true ∧ e.bit PORTER_HALT.SRC 0 0 2 = true ∧ .haltSym (1 - p.val) ∈ e.out)
     ∧ (d.ringed = false → exec (.haltSymbolReceive p) s = .next s))
  ∧ (∀ (s : State),
     let d := s.dev
     (∀ w : BitVec 32, (d.flag RING_MTX_CTRL.BUSY = true ∨ d.joined = false) → ∃ e, exec (.ringMsgGo w) s = .next (s.withDev e)
       ∧ e.flag RING_STAT.CFG_REJ = true ∧ d.onlyRegs e [RING_STAT.CFG_REJ.at])
     ∧ (∀ w : BitVec 32, d.flag RING_MTX_CTRL.BUSY = false → d.joined = true → ∃ e, exec (.ringMsgGo w) s = .next (s.withDev e)
       ∧ e.get RING_MTX_CTRL.DEST = bitsOf w.toNat 0 10 ∧ e.get RING_MTX_CTRL.LEN = bitsOf w.toNat 16 6 ∧ e.ring.txSeq = (d.ring.txSeq + 1) % 256
       ∧ d.regsBut e [RING_MTX_CTRL.LEN.at, RING_MTX_CTRL.DEST.at, RING_MTX_CTRL.BUSY.at] ∧ e.chs = d.chs)
     ∧ (∀ (src : Fin 512) (seq : BitVec 8) (bytes : List (BitVec 8)), 3 ≤ d.ringSt → d.ringSt ≠ 7 → d.ring.queue.length < 16 →
       ∃ e m, exec (.ringMsgReceive src seq bytes true) s = .next (s.withDev e) ∧ e.ring.queue = d.ring.queue ++ [m]
       ∧ m.src = src.val ∧ m.seq = seq.toNat ∧ m.payload = bytes.take 64
       ∧ e.get RING_MRX_STAT.COUNT = (d.ring.queue.length + 1) % 2 ^ RING_MRX_STAT.COUNT.w ∧ e.chs = d.chs)
     ∧ (∀ (src : Fin 512) (seq : BitVec 8) (bytes : List (BitVec 8)) (whole : Bool), 3 ≤ d.ringSt → d.ringSt ≠ 7 →
       (whole = false ∨ 16 ≤ d.ring.queue.length) → ∃ e, exec (.ringMsgReceive src seq bytes whole) s = .next (s.withDev e)
       ∧ e.ring.queue = d.ring.queue ∧ d.regsBut e [RING_MRX_STAT.LOST.at, RING_STAT.MSG_LOST.at])
     ∧ (∀ (src : Fin 512) (seq : BitVec 8) (bytes : List (BitVec 8)) (whole : Bool), (d.ringSt < 3 ∨ d.ringSt = 7) →
       exec (.ringMsgReceive src seq bytes whole) s = .next s)
     ∧ (∃ e, exec .ringMrxPop s = .next (s.withDev e) ∧ e.ring.queue = d.ring.queue.drop 1
       ∧ e.get RING_MRX_STAT.COUNT = (d.ring.queue.length - 1) % 2 ^ RING_MRX_STAT.COUNT.w ∧ e.chs = d.chs))

/-! ### Chapter 13: the bench bus -/

/-- R456, R464 to R470, R480: while the bench is on, a frame with a bad check sequence counts as bad and discarded; one for another station, of
another type, once a VLAN tag is removed, or that is no message (R461) as discarded, one of bench time going to its servo; a message whose sender the allow-list in force does not hold as a stranger's. A message that is
accepted has the filters that match it fire later, enters the receive queue where `RXALL` or a matching filter asks for it, or is lost
and counted when the queue is full; a STOP stops and a RESUME ends it where the list allows the sender. The oldest message's filters fire their
producers once, all on one tick; a pop removes the oldest message and shows the next. (A STOP has no field waiting to become owned.) -/
def Obligations.BenchReceive : Prop :=
  ∀ (s : State),
    let d := s.dev
    (∀ (dst src : BitVec 48) (et : BitVec 16) (fcs : Bool) (syms : Nat) (jabber : Bool) (ago : Nat) (body : List (BitVec 8)), d.benchOn = true →
      let i := Instr.benchFrameReceive dst src et fcs syms jabber ago body
      let u := d.locate (((d.time.abs - ago) * 256 : Nat) : Int)
      let t := if et.toNat = 0x8100 then (beNat ((body.drop 2).take 2), body.drop 4) else (et.toNat, body)
      let msg := d.benchParse src.toNat (u.1, u.2 / 256) t.2
      let mine := dst.toNat = d.macOf ∨ dst.toNat = 2 ^ 48 - 1 ∨ dst.toNat = 0x011B19000000 ∨ dst.toNat = benchGroup
      let noise := [BB_ERR0.SYM.at, BB_ERR3.JABBER.at]
      (fcs = false → ∃ e, exec i s = .next (s.withDev e) ∧ e.get BB_ERR0.CRC = satInc BB_ERR0.CRC.w (d.get BB_ERR0.CRC)
        ∧ e.get BB_ERR4.DISCARD = satInc BB_ERR4.DISCARD.w (d.get BB_ERR4.DISCARD) ∧ d.onlyRegs e ([BB_ERR0.CRC.at, BB_ERR4.DISCARD.at] ++ noise))
      ∧ (fcs = true → (¬ mine ∨ (t.1 ≠ 0x88B5 ∧ t.1 ≠ 0x88F7) ∨ (t.1 = 0x88B5 ∧ msg = none)) → ∃ e, exec i s = .next (s.withDev e)
        ∧ e.get BB_ERR4.DISCARD = satInc BB_ERR4.DISCARD.w (d.get BB_ERR4.DISCARD) ∧ d.onlyRegs e (BB_ERR4.DISCARD.at :: noise))
      ∧ (fcs = true → mine → t.1 = 0x88F7 → ∃ e, exec i s = .next (s.withDev e) ∧ d.onlyRegs e noise)
      ∧ (∀ m, fcs = true → mine → t.1 = 0x88B5 → msg = some m →
        (d.flag BB_CTRL.ALLOW_EN = true → m.entry = 16 → ∃ e, exec i s = .next (s.withDev e) ∧ e.flag BB_STAT.STRANGER = true
          ∧ e.get BB_ERR4.STRANGER = satInc BB_ERR4.STRANGER.w (d.get BB_ERR4.STRANGER)
          ∧ d.onlyRegs e ([BB_STAT.STRANGER.at, BB_ERR4.STRANGER.at] ++ noise))
        ∧ ((d.flag BB_CTRL.ALLOW_EN = false ∨ m.entry ≠ 16) → (m.kind = 3 → d.ownWait = []) →
          let hits := (List.range 16).filter (fun x => d.filterHit x m)
          let queued := d.flag BB_CTRL.RXALL = true ∨ ∃ x ∈ hits, d.flag BB_FLTx_0.Q x = true
          let obeyed := d.flag BB_CTRL.ALLOW_EN = false ∨ ∃ a < 16, d.flag BB_ALLOWa_HI.EN a = true ∧ d.allowMac a = m.src
            ∧ d.flag BB_ALLOWa_HI.STOP_OK a = true
          ∃ e, exec i s = .next (s.withDev e) ∧ e.chs = d.chs ∧ e.time = d.time
          ∧ e.bench.fires = (if hits = [] then d.bench.fires else d.bench.fires ++ [hits])
          ∧ (¬ queued → e.bench.rxq = d.bench.rxq)
          ∧ (queued → d.bench.rxq.length < 32 → e.bench.rxq = d.bench.rxq ++ [m])
          ∧ (queued → 32 ≤ d.bench.rxq.length → e.bench.rxq = d.bench.rxq ∧ e.flag BB_STAT.RXQ_OVF = true
            ∧ e.get BB_RXQ_00.LOST = satInc BB_RXQ_00.LOST.w (d.get BB_RXQ_00.LOST))
          ∧ (m.kind = 3 → obeyed → e.flag BB_STAT.STOPPED = true) ∧ (m.kind = 4 → obeyed → e.flag BB_STAT.STOPPED = false)
          ∧ ((m.kind ≠ 3 ∧ m.kind ≠ 4 ∨ ¬ obeyed) → e.get BB_STAT.STOPPED = d.get BB_STAT.STOPPED))))
    ∧ (∀ dst src et fcs syms jabber ago body, d.benchOn = false → exec (.benchFrameReceive dst src et fcs syms jabber ago body) s = .next s)
    ∧ (∀ (xs : List Nat) (rest : List (List Nat)), d.bench.fires = xs :: rest →
      (d.asleep = false → ∃ e new, exec .benchFire s = .next (s.withDev e) ∧ e.bench = { d.bench with fires := rest }
        ∧ e.ev.srcs = d.ev.srcs ++ new ∧ new.map (·.line) = xs.flatMap (fun x => d.linesOf (0x10 + x))
        ∧ (∀ x ∈ new, x.crs = d.time.crs ∧ x.tick = d.time.tick) ∧ e.regs = d.regs ∧ e.chs = d.chs)
      ∧ (d.asleep = true → ∃ e, exec .benchFire s = .next (s.withDev e) ∧ e = { d with bench := { d.bench with fires := rest } }))
    ∧ (d.bench.fires = [] → exec .benchFire s = .next s)
    ∧ (∃ e, exec .bbRxqPop s = .next (s.withDev e) ∧ e.bench = { d.bench with rxq := d.bench.rxq.drop 1 } ∧ e.time = d.time
      ∧ e.get BB_RXQ_00.COUNT = (d.bench.rxq.length - 1) % 2 ^ BB_RXQ_00.COUNT.w ∧ e.chs = d.chs
      ∧ (∀ m l, d.bench.rxq.drop 1 = m :: l → e.get BB_RXQ_10.TOPIC = m.topic % 2 ^ BB_RXQ_10.TOPIC.w ∧ e.get BB_RXQ_14.KIND = m.kind % 2 ^ BB_RXQ_14.KIND.w
        ∧ e.get BB_RXQ_0C.SEQ = m.seq % 2 ^ BB_RXQ_0C.SEQ.w ∧ e.get BB_RXQ_08.SRC_LO = m.src % 2 ^ 32))

/-- R471 to R473: a host message that is too long, of an unknown kind, sent while one is pending, or not essential while stopped is refused with `TX_REJ`
and nothing of the write is stored; else it waits and the sender is busy. At an opportunity with nothing chosen nothing is sent; a frame that met 16
collisions is dropped with `TX_DROP`, one that met fewer leaves on the bus. -/
def Obligations.BenchTransmit : Prop :=
  ∀ (s : State),
    let d := s.dev
    (∀ w : BitVec 32,
      let kind := bitsOf w.toNat 0 8
      let len := bitsOf w.toNat 8 9
      let essential := bitAt w.toNat 30 = true ∨ kind = 3 ∨ kind = 4
      let bad := d.flag BB_HTX_CTRL.BUSY = true ∨ 256 < len ∨ kind = 0 ∨ 5 ≤ kind ∨ (d.flag BB_STAT.STOPPED = true ∧ ¬ essential)
      (bad → ∃ e, exec (.bbHtxGo w) s = .next (s.withDev e) ∧ e.flag BB_STAT.TX_REJ = true
        ∧ d.onlyRegs e [BB_STAT.TX_REJ.at])
      ∧ (¬ bad → ∃ e x, exec (.bbHtxGo w) s = .next (s.withDev e) ∧ e.flag BB_HTX_CTRL.BUSY = true
        ∧ e.bench.wait = d.bench.wait ++ [x] ∧ x.x = 16 ∧ e.bench.seq = (d.bench.seq + 1) % 2 ^ 16 ∧ e.chs = d.chs
        ∧ e.get BB_HTX_CTRL.LEN = len ∧ e.get BB_HTX_CTRL.KIND = kind
        ∧ d.regsBut e [BB_HTX_CTRL.BUSY.at, BB_HTX_CTRL.ESS.at, BB_HTX_CTRL.DEST.at, BB_HTX_CTRL.LEN.at, BB_HTX_CTRL.KIND.at]))
    ∧ (∀ x, d.benchOn = true → d.bench.line = none → d.benchPick = some x → ∃ e, exec .transmitOpportunity s = .next (s.withDev e)
      ∧ e.bench.line = some x ∧ e.bench.wait = d.bench.wait.erase x ∧ e.bench.sentLast = true ∧ e.regs = d.regs ∧ e.chs = d.chs)
    ∧ ((d.benchOn = false ∨ d.bench.line ≠ none) → exec .transmitOpportunity s = .next s)
    ∧ (∀ x, d.bench.line = some x → x.x < 16 →
      (∃ e, exec (.benchFrameSent 0 0) s = .next (s.withDev e) ∧ e.bench.line = none ∧ e.out = d.out ++ [x.frame]
        ∧ e.flag BB_TXx_0.BUSY x.x = false ∧ e.chs = d.chs)
      ∧ (∃ e, exec (.benchFrameSent 16 0) s = .next (s.withDev e) ∧ e.bench.line = none ∧ e.out = d.out ∧ e.flag BB_STAT.TX_DROP = true
        ∧ e.get BB_ERR3.XCOLL = satInc BB_ERR3.XCOLL.w (d.get BB_ERR3.XCOLL) ∧ e.flag BB_TXx_0.BUSY x.x = false ∧ e.chs = d.chs))
    ∧ (∀ colls late, d.bench.line = none → exec (.benchFrameSent colls late) s = .next s)

/-- R458 to R460, R476 to R478: a beacon heard, or sent by the coordinator, brings the PLCA settings into force; a beacon loss counts and ends PLCA; a hold with an end expires,
one without does not; a Sync exchange sets bench time and offset, its loss clears `VALID`; each only while its function is on.
R460, R466, R471: PLCA settings with a node count or opportunity time outside its range, a filter source above 16, and a template
longer than 32 bytes or of an unknown kind are refused with `CFG_REJ`; any other word is taken, field by field. -/
def Obligations.BenchSettings : Prop :=
  (∀ (s : State),
     let d := s.dev
     (d.benchOn = true → ∃ e, exec .beaconReceive s = .next (s.withDev e) ∧ e.bench.heard = true
       ∧ e.bench.plca = (d.flag BB_PLCA.EN, d.get BB_PLCA.ID, d.get BB_PLCA.NCNT, d.get BB_PLCA.TOT)
       ∧ d.regsBut e [BB_STAT.NO_TO.at, BB_STAT.PLCA_ACT.at, BB_STAT.COORD.at] ∧ e.out = d.out ∧ e.chs = d.chs)
     ∧ (d.benchOn = false → exec .beaconReceive s = .next s)
     ∧ (d.benchOn = true → d.flag BB_PLCA.EN = true → d.get BB_PLCA.ID = 0 → ∃ e o, exec .beaconSend s = .next (s.withDev e)
       ∧ e.bench.heard = true ∧ e.out = d.out ++ [o] ∧ d.regsBut e [BB_STAT.NO_TO.at, BB_STAT.PLCA_ACT.at, BB_STAT.COORD.at])
     ∧ ((d.benchOn = false ∨ d.flag BB_PLCA.EN = false ∨ d.get BB_PLCA.ID ≠ 0) → exec .beaconSend s = .next s)
     ∧ (d.benchOn = true → d.bench.plca.1 = true → d.bench.plca.2.1 < 255 → ∃ e, exec .beaconTimeout s = .next (s.withDev e)
       ∧ e.bench = { d.bench with heard := false } ∧ e.get BB_ERR1.BCN_LOSS = satInc BB_ERR1.BCN_LOSS.w (d.get BB_ERR1.BCN_LOSS)
       ∧ e.flag BB_STAT.PLCA_ACT = false ∧ d.regsBut e [BB_ERR1.BCN_LOSS.at, BB_STAT.PLCA_ACT.at, BB_STAT.COORD.at])
     ∧ ((d.benchOn = false ∨ d.bench.plca.1 = false ∨ 255 ≤ d.bench.plca.2.1) → exec .beaconTimeout s = .next s)
     ∧ (d.flag BB_STOP.UNTIL_RESUME = false → ∃ e, exec .stopHoldExpiry s = .next (s.withDev e) ∧ e.flag BB_STAT.STOPPED = false
       ∧ e.get BB_STOP.LEFT = 0 ∧ d.onlyRegs e [BB_STAT.STOPPED.at, BB_STOP.LEFT.at])
     ∧ (d.flag BB_STOP.UNTIL_RESUME = true → exec .stopHoldExpiry s = .next s)
     ∧ (∀ (ofs : Int) (ns : Nat), d.benchOn = true → d.flag BB_PTP_CTRL.EN = true → -32768 ≤ ofs → ofs ≤ 32767 →
       ∃ e, exec (.ptpMessageReceive true ofs true ns) s = .next (s.withDev e) ∧ e.getS BB_PTP_STAT.OFS = ofs ∧ e.flag BB_PTP_STAT.VALID = true
       ∧ e.get BB_PTP_STAT.STATE = 3 ∧ e.bench = { d.bench with ns0 := ns, abs0 := d.time.abs }
       ∧ d.regsBut e [BB_PTP_STAT.OFS.at, BB_PTP_STAT.VALID.at, BB_PTP_STAT.STATE.at])
     ∧ (∀ sync ofs held ns, (d.benchOn = false ∨ d.flag BB_PTP_CTRL.EN = false) → exec (.ptpMessageReceive sync ofs held ns) s = .next s)
     ∧ (d.flag BB_PTP_CTRL.EN = true → ∃ e, exec .ptpSyncTimeout s = .next (s.withDev e) ∧ e.flag BB_PTP_STAT.VALID = false
       ∧ e.get BB_PTP_STAT.STATE = 1 ∧ d.onlyRegs e [BB_PTP_STAT.VALID.at, BB_PTP_STAT.STATE.at])
     ∧ (d.flag BB_PTP_CTRL.EN = false → exec .ptpSyncTimeout s = .next s))
  ∧ (∀ (s : State) (w : BitVec 32),
     let d := s.dev
     let v := w.toNat
     let refused := fun c => ∃ e, exec c s = .next (s.withDev e) ∧ e.flag BB_STAT.CFG_REJ = true ∧ d.onlyRegs e [BB_STAT.CFG_REJ.at]
     (if 1 ≤ bitsOf v 8 8 ∧ bitsOf v 8 8 ≤ 32 ∧ 16 ≤ bitsOf v 16 8 then
         ∃ e, exec (.bbPlcaWrite w) s = .next (s.withDev e) ∧ e.get BB_PLCA.EN = bitsOf v 31 1 ∧ e.get BB_PLCA.TOT = bitsOf v 16 8
         ∧ e.get BB_PLCA.NCNT = bitsOf v 8 8 ∧ e.get BB_PLCA.ID = bitsOf v 0 8
         ∧ d.regsBut e [BB_PLCA.EN.at, BB_PLCA.TOT.at, BB_PLCA.NCNT.at, BB_PLCA.ID.at, BB_STAT.PLCA_ACT.at, BB_STAT.COORD.at] ∧ e.chs = d.chs
       else refused (.bbPlcaWrite w))
     ∧ (∀ x : Fin 16, if bitsOf v 0 5 ≤ 16 then
         ∃ e, exec (.bbFilterWrite x 0 w) s = .next (s.withDev e) ∧ e.get BB_FLTx_0.EN x = bitsOf v 31 1 ∧ e.get BB_FLTx_0.Q x = bitsOf v 30 1
         ∧ e.get BB_FLTx_0.POFS x = bitsOf v 16 6 ∧ e.get BB_FLTx_0.KIND x = bitsOf v 8 8 ∧ e.get BB_FLTx_0.SRC x = bitsOf v 0 5
         ∧ d.onlyRegs e [BB_FLTx_0.EN.at x, BB_FLTx_0.Q.at x, BB_FLTx_0.POFS.at x, BB_FLTx_0.KIND.at x, BB_FLTx_0.SRC.at x]
       else refused (.bbFilterWrite x 0 w))
     ∧ (∀ x : Fin 16, ∀ y ∈ [((1 : Fin 5), BB_FLTx_1.TOPIC), (2, BB_FLTx_2.TMASK), (3, BB_FLTx_3.PVAL), (4, BB_FLTx_4.PMASK)],
         ∃ e, exec (.bbFilterWrite x y.1 w) s = .next (s.withDev e) ∧ e.get y.2 x = v ∧ d.onlyRegs e [y.2.at x])
     ∧ (∀ x : Fin 16, if bitsOf v 16 6 ≤ 32 ∧ 1 ≤ bitsOf v 0 8 ∧ bitsOf v 0 8 ≤ 4 then
         ∃ e, exec (.bbTemplateWrite x 0 w) s = .next (s.withDev e) ∧ e.get BB_TXx_0.ESS x = bitsOf v 30 1 ∧ e.get BB_TXx_0.DEST x = bitsOf v 24 5
         ∧ e.get BB_TXx_0.LEN x = bitsOf v 16 6 ∧ e.get BB_TXx_0.KIND x = bitsOf v 0 8
         ∧ d.onlyRegs e [BB_TXx_0.ESS.at x, BB_TXx_0.DEST.at x, BB_TXx_0.LEN.at x, BB_TXx_0.KIND.at x]
       else refused (.bbTemplateWrite x 0 w))
     ∧ (∀ x : Fin 16, ∃ e, exec (.bbTemplateWrite x 1 w) s = .next (s.withDev e) ∧ e.get BB_TXx_1.TOPIC x = v ∧ d.onlyRegs e [BB_TXx_1.TOPIC.at x])
     ∧ (∀ (x : Fin 16) (k : Fin 10), 2 ≤ k.val → ∃ e, exec (.bbTemplateWrite x k w) s = .next (s.withDev e)
         ∧ e.get BB_TXx_D.DATA x (k.val - 2) = v ∧ d.onlyRegs e [BB_TXx_D.DATA.at x (k.val - 2)]))

/-! ### Chapter 15: the mailboxes -/

/-- R497: the doorbell of a slot that is FREE rings it; the doorbell of one that is RUNG or DONE is ignored and sets `DB_REJ`; a write of
`MBX_DONEm` frees exactly the slots whose bits are 1. -/
def Obligations.MailboxSlots : Prop :=
  ∀ (s : State) (m : Fin 9),
    let d := s.dev
    (∀ slot : Fin 16,
      (d.bit MBX_BUSYm.BUSY m 0 slot = false → d.bit MBX_DONEm.DONE m 0 slot = false →
        ∃ e, exec (.mbxDoorbell m slot) s = .next (s.withDev e) ∧ e.bit MBX_BUSYm.BUSY m 0 slot = true
        ∧ e.rung = d.rung ++ [(m.val, slot.val)] ∧ d.regsBut e [MBX_BUSYm.BUSY.at m] ∧ e.mbx = d.mbx ∧ e.chs = d.chs)
      ∧ ((d.bit MBX_BUSYm.BUSY m 0 slot = true ∨ d.bit MBX_DONEm.DONE m 0 slot = true) →
        ∃ e, exec (.mbxDoorbell m slot) s = .next (s.withDev e) ∧ e.flag MBX_STATm.DB_REJ m = true
        ∧ d.onlyRegs e [MBX_STATm.DB_REJ.at m]))
    ∧ (∀ w : BitVec 16, ∃ e, exec (.mbxDoneClear m w) s = .next (s.withDev e)
      ∧ (∀ k, k < 16 → e.bit MBX_DONEm.DONE m 0 k = (d.bit MBX_DONEm.DONE m 0 k && !w.getLsbD k)) ∧ d.onlyRegs e [MBX_DONEm.DONE.at m])

/-- R498, R499: a command that is not the next of its mailbox, or stands in its slot under another row's opcode, is not begun and changes nothing.
An opcode that the mailbox does not know is answered BAD_OPCODE; an M1[15:8] other than 0, a `LEN` above 14 or an argument out of range
BAD_ARG; an epoch that differs from the current one STALE_ROLE; a host-owned block DENIED: the first that fails in this order, and a
command so refused has no effect (no field waiting to become owned). -/
def Obligations.MailboxChecks : Prop :=
  ∀ (i : Instr) (o : Order) (m : Fin 9) (slot : Fin 16) (s : State), mailRow i = some (o, m, slot) →
    let d := s.dev
    let c := d.call m slot
    let op := d.opcodeIn m slot
    let bad := c.clean = false ∨ 14 < c.len ∨ o.legal d s.mem c = false
    let stale := ∃ x, o.epoch d c = some x ∧ c.epoch ≠ x
    let taken := ∃ f ∈ o.own d c, d.owned f = true
    let answers := fun st => ∃ e, exec i s = .next (s.withDev e) ∧ d.completes e m slot st [] [] ∧ e.chs = d.chs
    (d.nextRung m slot = false → exec i s = .next s)
    ∧ (d.knows m op = true → op ≠ o.op → exec i s = .next s)
    ∧ (d.nextRung m slot = true → d.bit MBX_BUSYm.BUSY m 0 slot = true → d.ownWait = [] →
        (m.val < 8 → d.flag MSN_CHn_STAT.SRAM_ONLY m = false) →
      (d.knows m op = false → answers 2)
      ∧ (d.knows m op = true → op = o.op → (bad → answers 3) ∧ (¬ bad → stale → answers 4) ∧ (¬ bad → ¬ stale → taken → answers 8)))

/-- R507, R519, R520, R502, R544, R294: what the firmware and flash commands of MBX8 do. INFO answers version, image and UID; FW_STAGE
puts the buffer's bytes into the other image slot, and answers TIMEOUT where the buffer cannot be read or the flash does not hold them; FW_COMMIT gives the
staged image the generation after the running one's, or BAD_ARG; FW_RESTART completes and restarts the Clerk; FLASH_CFG and CAL_STORE
store, or answer TIMEOUT; a CAL_STORE writes the whole image of the tables into the older of the two flash slots. -/
def Obligations.FirmwareCommands : Prop :=
  ∀ (s : State) (m : Fin 9) (slot : Fin 16),
    let d := s.dev
    let c := d.call m slot
    let img := d.get MBX_CLERK.IMAGE
    let ends := fun (i : Instr) (st : Nat) (res : List Nat) (P : Dev → Prop) =>
      ∃ e, exec i s = .next (s.withDev e) ∧ d.completes e m slot st res [] ∧ P e
    (d.takesUp s.mem orderInfo m slot → d.boot.recovery = false →
      ends (.info m slot) 0 [(d.fwSlot img).version, img + 2 ^ 8 * (d.fwSlot img).svn, Config.uid % 2 ^ 32, Config.uid / 2 ^ 32 % 2 ^ 32]
        (fun e => e.chs = d.chs ∧ e.flash = d.flash))
    ∧ (∀ b, d.takesUp s.mem (orderFwStage (some b) true) m slot → d.mayIssue = true → d.flash.fw.length = 2 →
      ends (.fwStage m slot (some b) true) 0 [] (fun e => e.chs = d.chs ∧ e.fwSlot (1 - d.otherSlot) = d.fwSlot (1 - d.otherSlot)
        ∧ ∀ k, k < c.arg 3 → (e.fwSlot d.otherSlot).byte (c.arg 2 + k) = (bufBytes b (c.arg 3)).getD k 0))
    ∧ (∀ buf good, d.takesUp s.mem (orderFwStage buf good) m slot → (buf = none ∨ d.mayIssue = false ∨ good = false) →
      ends (.fwStage m slot buf good) 0x0B [] (fun e => e.chs = d.chs ∧ e.flash = d.flash))
    ∧ (∀ g, d.takesUp s.mem (orderFwCommit true) m slot → (d.fwSlot d.otherSlot).headOk = true →
        (d.fwSlot (1 - d.otherSlot)).gen = some g → d.flash.fw.length = 2 →
      ends (.fwCommit m slot true) 0 [(g + 1) % 2 ^ 32] (fun e => (e.fwSlot d.otherSlot).gen = some ((g + 1) % 2 ^ 32)
        ∧ (e.fwSlot d.otherSlot).bytes = (d.fwSlot d.otherSlot).bytes ∧ e.chs = d.chs))
    ∧ (∀ trusted, d.takesUp s.mem (orderFwCommit trusted) m slot → (trusted = false ∨ (d.fwSlot d.otherSlot).headOk = false) →
      ends (.fwCommit m slot trusted) 3 [] (fun e => e.chs = d.chs))
    ∧ (d.takesUp s.mem orderFwRestart m slot → d.get PWR_STRAP.BOOT ≠ 3 →
      ∃ e, exec (.fwRestart m slot) s = .next (s.withDev e) ∧ e.answered m slot 0 [] ∧ e.get MBX_CLERK.STATE = 2 ∧ e.rung = [] ∧ e.cmds = []
        ∧ e.boot.again = some 2)
    ∧ (∀ good, d.takesUp s.mem (orderFlashCfg good) m slot → d.flash.ovr.length = 2 →
      let item := c.bits 0 0 8
      let ch := if item = 4 then 0 else c.bits 0 8 3
      ends (.flashCfg m slot good) (if good then 0 else 0x0B) [] (fun e => e.chs = d.chs
        ∧ e.overrides = if good then d.overrides.filter (fun x => !(x.1 = item && x.2.1 = ch)) ++ [(item, ch, c.arg 1)] else d.overrides))
    ∧ (d.takesUp s.mem (orderCalStore true) m slot → ends (.calStore m slot true) 0 [] (fun e =>
      (∀ n : Fin 8, e.chs[n].plumb.dirty = false ∧ e.chs[n].plumb.modeDirty = false)
      ∧ ∃ modes, e.flash.cal = d.flash.cal.set (olderCopy CalCopy.gen (d.flash.cal.map calCopy)).1
        (calImage (olderCopy CalCopy.gen (d.flash.cal.map calCopy)).2 modes (allCh.map (fun n => d.chs[n].plumb.points)))))
    ∧ (d.takesUp s.mem (orderCalStore false) m slot → ∃ e, exec (.calStore m slot false) s = .next (s.withDev e)
      ∧ e.answered m slot 0x0B [] ∧ ∀ n : Fin 8, e.flag PLB_STAT.STORE_FAIL n = true)

/-- R507, R79, R301, R304, R326 to R328: what the commands of MBX8 on the Mason do. DESC_WRITE takes a descriptor that is legal (or allocates one that is not in
use), DESC_READ answers its words as last written, DESC_FREE sets `KIND` 3 unless it is in use (BUSY, reason 3); EXT_SET writes an extent
and commits it, once a commit that is pending has ended; UPLOAD makes its pages HELD, refuses a BACKED page with BAD_ARG and an unread buffer with TIMEOUT; RELEASE ends
HELD; BACKING sets the rings, but refuses other sizes while they run. -/
def Obligations.MasonCommands : Prop :=
  ∀ (s : State) (m : Fin 9) (slot : Fin 16),
    let d := s.dev
    let c := d.call m slot
    let ends := fun (i : Instr) (st : Nat) (res : List Nat) (ks : List Key) (P : Dev → Prop) =>
      ∃ e, exec i s = .next (s.withDev e) ∧ d.completes e m slot st res ks ∧ e.chs = d.chs ∧ P e
    (d.takesUp s.mem orderDescWrite m slot → bitAt (c.arg 0) 31 = false →
      ends (.descWrite m slot) 0 [c.bits 0 0 20] []
        (fun e => (e.descLatest (c.bits 0 0 20)).take 1 = [c.arg 1]
          ∧ (e.descLatest (c.bits 0 0 20)).getD 7 0 = ((d.descLatest (c.bits 0 0 20)).getD 7 0 + 1) % 65536
          ∧ ∀ j, j ≠ c.bits 0 0 20 → e.descLatest j = d.descLatest j))
    ∧ (d.takesUp s.mem orderDescWrite m slot → bitAt (c.arg 0) 31 = true →
      ∃ st res, ends (.descWrite m slot) st res [] (fun e => (st = 0 ∨ st = 3 ∨ st = 5)
        ∧ (st = 0 → ∃ i, i ∉ d.descUsed ∧ res = [i] ∧ ∀ j, j ≠ i → e.descLatest j = d.descLatest j)
        ∧ (st ≠ 0 → e.mason = d.mason)))
    ∧ (d.takesUp s.mem orderDescRead m slot → (d.descLatest (c.bits 0 0 20)).length = 8 →
      ends (.descRead m slot) 0 (d.descView s.mem (c.bits 0 0 20)) [] (fun e => e.mason = d.mason))
    ∧ (d.takesUp s.mem orderDescFree m slot →
      ((d.descView s.mem (c.bits 0 0 20)).getD 6 0 % 256 ≠ 0 → ends (.descFree m slot) 1 [3] [] (fun e => e.mason = d.mason))
      ∧ ((d.descView s.mem (c.bits 0 0 20)).getD 6 0 % 256 = 0 → (d.descLatest (c.bits 0 0 20)).length = 8 →
        ends (.descFree m slot) 0 [] [] (fun e => bitsOf ((e.descLatest (c.bits 0 0 20)).getD 1 0) 28 2 = 3
          ∧ ∀ j, j ≠ c.bits 0 0 20 → e.descLatest j = d.descLatest j)))
    ∧ (d.takesUp s.mem orderExtSet m slot → d.mason.extPend.isSome = true → ∃ e, exec (.extSet m slot) s = .next (s.withDev e)
      ∧ d.waits e m slot [(MSN_CTRL.OWN.id, 0)])
    ∧ (d.takesUp s.mem orderExtSet m slot → d.mason.extPend = none → bitAt (c.arg 0) 31 = false →
      (d.extLegal (c.bits 0 0 12) c.eight = true → ∃ e, exec (.extSet m slot) s = .next (s.withDev e) ∧ e.pends m slot 0x40 0 1
        ∧ e.mason = { d.mason with extPend := some (c.bits 0 0 12, c.eight, some (m.val, slot.val)) } ∧ e.flag MSN_EXT_CMD.PEND = true ∧ e.chs = d.chs)
      ∧ (d.extLegal (c.bits 0 0 12) c.eight = false → ends (.extSet m slot) 3 [] [] (fun e => e.mason = d.mason)))
    ∧ (∀ b q, d.takesUp s.mem (orderUpload (some b)) m slot → d.mayIssue = true →
      let k := c.bits 4 0 16
      (List.range k).any (fun i => d.backed (c.page + i)) = false →
      uploadPages (c.bits 4 16 2) (bufBytes b (65536 * k)) k c.page ((d.begun m slot).emit (.hostRead (c.pair 0) (65536 * k)), s.mem) = some q →
      ∃ t, exec (.upload m slot (some b)) s = .next t ∧ t.pending = s.pending ∧ t.mem = q.2 ∧ t.dev.answered m slot 0 [] ∧ t.dev.time = d.time
        ∧ ∀ i, i < k → (c.page + i, c.bits 4 16 2) ∈ t.dev.mason.held)
    ∧ (∀ buf, d.takesUp s.mem (orderUpload buf) m slot →
      ((List.range (c.bits 4 0 16)).any (fun i => d.backed (c.page + i)) = true → ends (.upload m slot buf) 3 [] [] (fun e => e.mason = d.mason))
      ∧ ((List.range (c.bits 4 0 16)).any (fun i => d.backed (c.page + i)) = false → (buf = none ∨ d.mayIssue = false) →
        ends (.upload m slot buf) 0x0B [] [] (fun e => e.mason = d.mason)))
    ∧ (d.takesUp s.mem orderRelease m slot → ends (.release m slot) 0 [] [MSN_STAT.CHECK_BUSY.at]
      (fun e => e.mason.held = d.mason.held.filter (fun h => !(c.page ≤ h.1 && h.1 < c.page + c.bits 4 0 17))))
    ∧ (d.takesUp s.mem orderBacking m slot →
      let a := c.bits 4 0 4
      let b := c.bits 4 4 4
      let held := d.flag MSN_RQ_CFG.EN = true ∧ (d.get MSN_RQ_CFG.SIZE ≠ a ∨ d.get MSN_CQ_CFG.SIZE ≠ b)
      (held → ends (.backing m slot) 1 [3] [] (fun _ => True))
      ∧ (¬ held → ends (.backing m slot) 0 []
          [MSN_RQ_BASE_LO.BASE_LO.at, MSN_RQ_BASE_HI.BASE_HI.at, MSN_CQ_BASE_LO.BASE_LO.at, MSN_CQ_BASE_HI.BASE_HI.at, MSN_RQ_CFG.SIZE.at,
            MSN_CQ_CFG.SIZE.at, MSN_RQ_CFG.EN.at]
          (fun e => e.get MSN_RQ_CFG.SIZE = a ∧ e.get MSN_CQ_CFG.SIZE = b ∧ e.get MSN_RQ_CFG.EN = c.bits 4 16 1
            ∧ e.get MSN_RQ_BASE_LO.BASE_LO = c.bits 0 12 20 ∧ e.get MSN_RQ_BASE_HI.BASE_HI = c.arg 1
            ∧ e.get MSN_CQ_BASE_LO.BASE_LO = c.bits 2 12 20 ∧ e.get MSN_CQ_BASE_HI.BASE_HI = c.arg 3)))

/-- R507, R36, R139, R144, R145, R148, R504, R505: what the event and group commands of MBX8 do. LINE_SET replaces a line's slots; SYS_MAP and SYS_TX_SET
set their entries; SYS_FIRE originates and answers its landing joint, NOT_JOINED while islanded and BUSY, reason 3, over the rate;
GROUP_SET and GROUP_ACT answer LATE for a joint less than two courses ahead, and else are pending for their joint. -/
def Obligations.EventCommands : Prop :=
  ∀ (s : State) (m : Fin 9) (slot : Fin 16),
    let d := s.dev
    let c := d.call m slot
    let ends := fun (i : Instr) (st : Nat) (res : List Nat) (ks : List Key) (P : Dev → Prop) =>
      ∃ e, exec i s = .next (s.withDev e) ∧ d.completes e m slot st res ks ∧ e.chs = d.chs ∧ P e
    (d.takesUp s.mem orderLineSet m slot →
      let l := c.bits 0 0 6
      ends (.lineSet m slot) 0 []
        ((List.range 4).flatMap (fun r => [EVL_SRCn_r.SLOT_LO.at l r, EVL_SRCn_r.SLOT_HI.at l r])
          ++ (List.range 8).flatMap (fun r => [EVL_DSTn_r.SLOT_LO.at l r, EVL_DSTn_r.SLOT_HI.at l r]) ++ [EVL_STAT.CFG_REJ.at])
        (fun e => (∀ r, r < 4 → e.get EVL_SRCn_r.SLOT_LO l r = c.arg (1 + r) % 2 ^ 16 &&& 0x83FF
              ∧ e.get EVL_SRCn_r.SLOT_HI l r = bitsOf (c.arg (1 + r)) 16 16 &&& 0x83FF)
          ∧ (∀ r, r < 8 → e.get EVL_DSTn_r.SLOT_LO l r = c.arg (5 + r) % 2 ^ 16 &&& 0xC3FF
              ∧ e.get EVL_DSTn_r.SLOT_HI l r = bitsOf (c.arg (5 + r)) 16 16 &&& 0xC3FF)
          ∧ e.get EVL_STAT.CFG_REJ = d.get EVL_STAT.CFG_REJ))
    ∧ (d.takesUp s.mem orderSysMap m slot →
      let id := c.bits 0 0 12
      let line := if id % 2 = 1 then EVS_MAP.LINE_ODD else EVS_MAP.LINE_EVEN
      let en := if id % 2 = 1 then EVS_MAP.EN_ODD else EVS_MAP.EN_EVEN
      ends (.sysMap m slot) 0 [] [line.at (id / 2), en.at (id / 2)]
        (fun e => e.get line (id / 2) = c.bits 0 16 6 ∧ e.get en (id / 2) = c.bits 0 31 1))
    ∧ (d.takesUp s.mem orderSysTxSet m slot →
      let x := c.bits 0 0 4
      ends (.sysTxSet m slot) 0 [] [EVS_TXx.EN.at x, EVS_TXx.L.at x, EVS_TXx.ID.at x]
        (fun e => e.get EVS_TXx.EN x = c.bits 1 31 1 ∧ e.get EVS_TXx.L x = c.bits 1 16 8 ∧ e.get EVS_TXx.ID x = c.bits 1 0 12))
    ∧ (d.takesUp s.mem orderSysFire m slot →
      let l := c.bits 0 16 8
      let j := (d.time.crs + (if l = 0 then d.lmin else max l d.lmin)) % 2 ^ 64
      (d.islanded = true → ends (.sysFire m slot) 0x0A [] [] (fun e => e.ev.origs = d.ev.origs))
      ∧ (d.islanded = false → 4 ≤ d.ev.origs → ends (.sysFire m slot) 1 [3] [EVS_STAT.RATE.at] (fun e => e.flag EVS_STAT.RATE = true ∧ e.ev.origs = d.ev.origs))
      ∧ (d.islanded = false → d.ev.origs < 4 → ∃ e, exec (.sysFire m slot) s = .next (s.withDev e)
        ∧ e.answered m slot 0 [j % 2 ^ 32, j / 2 ^ 32] ∧ e.getPair EVS_LAND_LO.LAND_LO EVS_LAND_HI.LAND_HI = j ∧ e.ev.origs = d.ev.origs + 1
        ∧ e.chs = d.chs ∧ e.time = d.time))
    ∧ (d.takesUp s.mem orderGroupSet m slot →
      (c.late d = true → ends (.groupSet m slot) 6 [] [] (fun e => e.groups = d.groups))
      ∧ (c.late d = false → ∃ e, exec (.groupSet m slot) s = .next (s.withDev e) ∧ e.pends m slot 0x58 (c.land d) 1 ∧ e.time = d.time
        ∧ (⟨c.bits 2 0 4, c.bits 2 16 8, c.land d, d.time.crs, m, slot⟩ : GroupSet) ∈ e.groups ∧ e.regs = d.regs))
    ∧ (d.takesUp s.mem orderGroupAct m slot →
      (c.late d = true → ends (.groupAct m slot) 6 [] [] (fun _ => True))
      ∧ (c.late d = false → c.bits 2 8 2 ≠ 1 →
        let ns := maskChs (d.get GRPg.MASK (c.bits 2 0 4))
        ∃ e, exec (.groupAct m slot) s = .next (s.withDev e) ∧ e.pends m slot 0x59 (c.land d) ns.length ∧ e.time = d.time
        ∧ ∀ n ∈ ns, ∃ a ∈ e.chs[n].acts, a.kind = seqKind (c.bits 2 8 2) (c.bits 2 16 13) ∧ a.land = c.land d ∧ a.org = .mbx m slot
            ∧ a.grp = some (c.bits 2 0 4)))

/-- R507, R15 to R18, R439, R452, R463 to R472, R361 to R363, R531: what the commands of MBX8 on the course block, the ring, the bench bus, the power states and the
memory test do: each sets the registers of its block or begins its action, and answers as its row states where it cannot. -/
def Obligations.UnitCommands : Prop :=
  ∀ (s : State) (m : Fin 9) (slot : Fin 16),
    let d := s.dev
    let c := d.call m slot
    let ends := fun (i : Instr) (st : Nat) (res : List Nat) (ks : List Key) (P : Dev → Prop) =>
      ∃ e, exec i s = .next (s.withDev e) ∧ d.completes e m slot st res ks ∧ e.chs = d.chs ∧ P e
    let a := c.bits 0 0 3
    let alone := d.get RING_CTRL.ROLE = 0 ∨ d.get RING_CTRL.ROLE = 3
    let x := c.bits 0 0 4
    (d.takesUp s.mem orderCrsSet m slot →
      (d.isMember = true → ends (.crsSet m slot) 8 [] [] (fun _ => True))
      ∧ (d.isMember = false → (d.lenOpen = false ∨ d.flag CRS_CTRL.LEN_PEND = true) → ends (.crsSet m slot) 1 [3] [] (fun _ => True))
      ∧ (d.isMember = false → d.lenOpen = true → d.flag CRS_CTRL.LEN_PEND = false →
        let j := if d.isRoot then d.time.crs + d.lmin else d.time.crs + 2
        ∃ e, exec (.crsSet m slot) s = .next (s.withDev e) ∧ e.pends m slot 0x60 j 1 ∧ e.flag CRS_CTRL.LEN_PEND = true
        ∧ e.time = { d.time with lenPend := some (c.bits 0 0 16, j, d.time.crs) } ∧ e.chs = d.chs))
    ∧ (d.takesUp s.mem orderSyncSet m slot → ends (.syncSet m slot) 0 [] [SYNC_CTRL.EDGE.at, SYNC_CTRL.EN.at]
      (fun e => e.get SYNC_CTRL.EDGE = c.bits 0 1 1 ∧ e.get SYNC_CTRL.EN = c.bits 0 0 1))
    ∧ (d.takesUp s.mem orderRingCtl m slot →
      (alone → ends (.ringCtl m slot) 8 [] [] (fun _ => True))
      ∧ (¬ alone → a = 4 → ends (.ringCtl m slot) 0 [] [RING_CTRL.AUTO_REJOIN.at, RING_CTRL.ISL_POL.at]
          (fun e => e.get RING_CTRL.AUTO_REJOIN = c.bits 1 8 1 ∧ e.get RING_CTRL.ISL_POL = c.bits 1 4 1))
      ∧ (¬ alone → a = 5 → ends (.ringCtl m slot) 0 [] [RING_ID.PRIO.at] (fun e => e.get RING_ID.PRIO = c.bits 1 0 8))
      ∧ (¬ alone → a = 3 → d.joined = false → ends (.ringCtl m slot) 0x0A [] [] (fun _ => True))
      ∧ (¬ alone → ((a = 1 ∧ d.ringSt ≠ 1) ∨ (a = 2 ∧ d.ringSt ≠ 5)) → ends (.ringCtl m slot) 3 [] [] (fun _ => True))
      ∧ (¬ alone → ((a = 1 ∧ d.ringSt = 1) ∨ (a = 2 ∧ d.ringSt = 5)) → ∃ e, exec (.ringCtl m slot) s = .next (s.withDev e)
        ∧ e.pends m slot 0x70 (d.time.abs + 250000000) 1 ∧ e.time = d.time))
    ∧ (d.takesUp s.mem orderRingMsg m slot →
      (d.joined = false → ends (.ringMsg m slot) 0x0A [] [] (fun _ => True))
      ∧ (d.joined = true → d.flag RING_MTX_CTRL.BUSY = true → ∃ e, exec (.ringMsg m slot) s = .next (s.withDev e)
        ∧ d.waits e m slot [(RING_CTRL.OWN.id, 0)])
      ∧ (d.joined = true → d.flag RING_MTX_CTRL.BUSY = false → ends (.ringMsg m slot) 0 [] [RING_MTX_CTRL.BUSY.at]
          (fun e => e.ring.txSeq = (d.ring.txSeq + 1) % 256)))
    ∧ (d.takesUp s.mem orderBenchCfg m slot → ∃ e, exec (.benchCfg m slot) s = .next (s.withDev e) ∧ e.answered m slot 0 [] ∧ e.chs = d.chs
      ∧ e.get BB_CTRL.RXALL = c.bits 0 4 1 ∧ e.get BB_CTRL.ALLOW_EN = c.bits 0 3 1 ∧ e.get BB_CTRL.EN = c.bits 0 0 1
      ∧ e.get BB_PLCA.EN = c.bits 1 31 1 ∧ e.get BB_PLCA.TOT = c.bits 1 16 8 ∧ e.get BB_PLCA.NCNT = c.bits 1 8 8 ∧ e.get BB_PLCA.ID = c.bits 1 0 8
      ∧ e.get BB_PTP_CTRL.DOMAIN = c.bits 2 8 8 ∧ e.get BB_PTP_CTRL.EN = c.bits 2 0 1)
    ∧ (d.takesUp s.mem orderBenchAllow m slot → ends (.benchAllow m slot) 0 []
        [BB_ALLOWa_LO.MAC_LO.at x, BB_ALLOWa_HI.MAC_HI.at x, BB_ALLOWa_HI.STOP_OK.at x, BB_ALLOWa_HI.EN.at x]
        (fun e => e.get BB_ALLOWa_LO.MAC_LO x = c.arg 1 ∧ e.get BB_ALLOWa_HI.MAC_HI x = c.bits 2 0 16
          ∧ e.get BB_ALLOWa_HI.STOP_OK x = c.bits 2 30 1 ∧ e.get BB_ALLOWa_HI.EN x = c.bits 2 31 1))
    ∧ (d.takesUp s.mem orderBenchFilter m slot → ends (.benchFilter m slot) 0 []
        [BB_FLTx_0.EN.at x, BB_FLTx_0.Q.at x, BB_FLTx_0.POFS.at x, BB_FLTx_0.KIND.at x, BB_FLTx_0.SRC.at x, BB_FLTx_1.TOPIC.at x, BB_FLTx_2.TMASK.at x,
          BB_FLTx_3.PVAL.at x, BB_FLTx_4.PMASK.at x]
        (fun e => e.get BB_FLTx_0.EN x = c.bits 1 31 1 ∧ e.get BB_FLTx_0.Q x = c.bits 1 30 1 ∧ e.get BB_FLTx_0.POFS x = c.bits 1 16 6
          ∧ e.get BB_FLTx_0.KIND x = c.bits 1 8 8 ∧ e.get BB_FLTx_0.SRC x = c.bits 1 0 5 ∧ e.get BB_FLTx_1.TOPIC x = c.arg 2
          ∧ e.get BB_FLTx_2.TMASK x = c.arg 3 ∧ e.get BB_FLTx_3.PVAL x = c.arg 4 ∧ e.get BB_FLTx_4.PMASK x = c.arg 5))
    ∧ (d.takesUp s.mem orderBenchTemplate m slot → ends (.benchTemplate m slot) 0 []
        ([BB_TXx_0.ESS.at x, BB_TXx_0.DEST.at x, BB_TXx_0.LEN.at x, BB_TXx_0.KIND.at x, BB_TXx_1.TOPIC.at x]
          ++ (List.range 8).map (fun k => BB_TXx_D.DATA.at x k))
        (fun e => e.get BB_TXx_0.ESS x = c.bits 1 30 1 ∧ e.get BB_TXx_0.DEST x = c.bits 1 24 5 ∧ e.get BB_TXx_0.LEN x = c.bits 1 16 6
          ∧ e.get BB_TXx_0.KIND x = c.bits 1 0 8 ∧ e.get BB_TXx_1.TOPIC x = c.arg 2 ∧ ∀ k, k < 8 → e.get BB_TXx_D.DATA x k = c.arg (3 + k)))
    ∧ (d.takesUp s.mem orderBenchSend m slot →
      let shut := d.flag BB_HTX_CTRL.BUSY = true ∨ (d.flag BB_STAT.STOPPED = true ∧ bitAt (c.arg 0) 30 = false ∧ c.bits 0 0 8 ≠ 3 ∧ c.bits 0 0 8 ≠ 4)
      (shut → ends (.benchSend m slot) 1 [3] [] (fun e => e.bench = d.bench))
      ∧ (¬ shut → ∃ e, exec (.benchSend m slot) s = .next (s.withDev e) ∧ e.flag BB_HTX_CTRL.BUSY = true ∧ e.chs = d.chs ∧ e.time = d.time
        ∧ e.get BB_HTX_TOPIC.TOPIC = c.arg 1 ∧ e.get BB_HTX_CTRL.LEN = c.bits 0 8 9))
    ∧ (d.takesUp s.mem orderPower m slot →
      let p := d.powerRequest (c.bits 0 0 2) 2
      (p.2 = true → ends (.power m slot) 1 [3] [] (fun e => e.power = d.power))
      ∧ (p.2 = false → ends (.power m slot) 0 [] [PWR_STAT.STATE.at, PWR_STAT.WAKE_SRC.at] (fun e => e.power = p.1.power)))
    ∧ (d.takesUp s.mem orderMemTest m slot →
      let refused := ((d.begun m slot).enrol c 0x90 0 1 0 [(MEM_CTRL.OWN.id, 0)]).marchRefused s.mem (Fin.ofNat 8 (c.bits 0 4 3)) (c.bits 0 8 4)
      (d.sram.test.isSome = true → refused = true)
      ∧ (refused = true → ends (.memTest m slot) 0 [4] [MEM_MT.RESULT.at] (fun e => e.sram = d.sram ∧ e.get MEM_MT.RESULT = 4))
      ∧ (refused = false →
        ∃ e, exec (.memTest m slot) s = .next (s.withDev e) ∧ e.pends m slot 0x90 0 1 ∧ e.flag MEM_MT.BUSY = true
        ∧ (∃ t, e.sram = { d.sram with test := some t } ∧ t.ch = c.bits 0 4 3 ∧ t.bank = c.bits 0 8 4 ∧ t.tests = false ∧ t.cmd = some (m.val, slot.val))
        ∧ e.chs = d.chs))

/-- R504 to R507, R36, R65, R88, R100, R101, R107, R109: what the channel commands on state, epoch and sequencer do. CH_STATE answers four registers and the epoch;
ROLE_BUMP adds 1 to the epoch and answers it; TABLE_LOAD and STEP_WRITE write their steps once the whole resulting table passes, and
else answer BAD_ARG with the first failing step and its cause; SEQ_CMD is LATE, or pending with its action for its joint, or BUSY,
reason 3, for a START of an ARMED or RUNNING sequencer; SEQ_TRIG sets the policies; SNAP asks for a snapshot at the next joint. -/
def Obligations.SequencerMailbox : Prop :=
  ∀ (s : State) (n : Fin 8) (slot : Fin 16),
    let d := s.dev
    let m : Fin 9 := n.castSucc
    let c := d.call m slot
    let ends := fun (i : Instr) (st : Nat) (res : List Nat) (ks : List Key) (P : Dev → Prop) =>
      ∃ e, exec i s = .next (s.withDev e) ∧ d.completes e m slot st res ks ∧ P e
    let loads := fun (i : Instr) (first : Nat) (bytes : List (BitVec 8)) (b : Dev) =>
      let new := s.mem.writeBytes (stepAt n first) bytes
      let h := b.withLatest.healGranules (n.val * 0x400000 + first * 0x20) bytes.length
      (∀ k cause, h.tableFail new n = some (k, cause) → ends i 3 [k, cause] [] (fun e => e.chs = d.chs ∧ e.mason = d.mason))
      ∧ (h.tableFail new n = none → h.hardSteps new n = [] → ∃ t st res, exec i s = .next t ∧ t.pending = s.pending ∧ t.mem = new
        ∧ t.dev.answered m slot st res ∧ (st = 0 ∧ res = [] ∨ st = 7 ∧ res.length = 2))
    (d.takesUp s.mem orderChState m slot → ∃ e w0 w1 w2 w3, exec (.chState m slot) s = .next (s.withDev e)
      ∧ e.answered m slot 0 [w0, w1, w2, w3, d.get ROLE_EPOCHn.EPOCH n] ∧ w0 = ((d.begun m slot).word .clerk (winAt n 0x1004)).1
      ∧ e.time = d.time)
    ∧ (d.takesUp s.mem orderRoleBump m slot →
      ends (.roleBump m slot) 0 [(d.get ROLE_EPOCHn.EPOCH n + 1) % 2 ^ 16] [ROLE_EPOCHn.EPOCH.at n]
        (fun e => e.get ROLE_EPOCHn.EPOCH n = (d.get ROLE_EPOCHn.EPOCH n + 1) % 2 ^ 16 ∧ d.chsBut e n))
    ∧ (∀ b, d.takesUp s.mem (orderTableLoad (some b)) m slot → d.seqIdle n = true → d.mayIssue = true →
      let k := 32 * (c.bits 2 16 13 + 1)
      loads (.tableLoad m slot (some b)) (c.bits 2 0 13) (bufBytes b k) ((d.begun m slot).emit (.hostRead (c.pair 0) k)))
    ∧ (∀ buf, d.takesUp s.mem (orderTableLoad buf) m slot →
      (d.seqIdle n = false → ends (.tableLoad m slot buf) 1 [3] [] (fun e => e.chs = d.chs))
      ∧ (d.seqIdle n = true → (buf = none ∨ d.mayIssue = false) → ends (.tableLoad m slot buf) 0x0B [] [] (fun e => e.chs = d.chs)))
    ∧ (d.takesUp s.mem orderStepWrite m slot →
      loads (.stepWrite m slot) (c.bits 0 0 13) (wordsBytes ((List.range 8).map (fun k => c.arg (1 + k)))) (d.begun m slot))
    ∧ (d.takesUp s.mem orderSeqCmd m slot →
      let code := c.bits 2 0 2
      let st := d.get SEQ_STAT.STATE n
      (c.late d = true → ends (.seqCmd m slot) 6 [] [] (fun e => e.chs = d.chs))
      ∧ (c.late d = false → code = 1 → (st = 1 ∨ st = 2) → d.cmdOf m slot = none →
        ends (.seqCmd m slot) 1 [3] [] (fun e => e.chs = d.chs))
      ∧ (c.late d = false → ¬ (code = 1 ∧ (st = 1 ∨ st = 2)) → ∃ e, exec (.seqCmd m slot) s = .next (s.withDev e)
        ∧ e.pends m slot 0x112 (c.land d) 1 ∧ e.time = d.time ∧ d.chsBut e n
        ∧ ((code = 1 ∨ code = 3) → e.get SEQ_CTRL.START_STEP n = c.bits 2 16 13)
        ∧ d.regsBut e [SEQ_CTRL.START_STEP.at n, SEQ_STAT.STATE.at n]
        ∧ ∃ a ∈ e.chs[n].acts, a.kind = seqKind code (c.bits 2 16 13) ∧ a.land = c.land d ∧ a.org = .mbx m slot ∧ a.acc = d.time.crs))
    ∧ (d.takesUp s.mem orderSeqTrig m slot → ends (.seqTrig m slot) 0 []
        [SEQ_TRIG.START_POL.at n, SEQ_TRIG.JMP0_POL.at n, SEQ_TRIG.JMP1_POL.at n, SEQ_TRIG.JMP2_POL.at n, SEQ_TRIG.JMP3_POL.at n]
        (fun e => e.chs = d.chs ∧ e.get SEQ_TRIG.START_POL n = c.bits 0 0 2 ∧ e.get SEQ_TRIG.JMP0_POL n = c.bits 0 8 2
          ∧ e.get SEQ_TRIG.JMP1_POL n = c.bits 0 10 2 ∧ e.get SEQ_TRIG.JMP2_POL n = c.bits 0 12 2 ∧ e.get SEQ_TRIG.JMP3_POL n = c.bits 0 14 2))
    ∧ (d.takesUp s.mem orderSnap m slot →
      (d.flag SEQ_SNAP.DONE n = true → ends (.snap m slot) 1 [3] [] (fun e => e.chs = d.chs))
      ∧ (d.flag SEQ_SNAP.DONE n = false → ∃ e, exec (.snap m slot) s = .next (s.withDev e) ∧ e.pends m slot 0x118 (d.time.crs + 1) 1
        ∧ e.flag SEQ_SNAP.PEND n = true ∧ d.regsBut e [SEQ_SNAP.PEND.at n] ∧ e.chs = d.chs ∧ e.time = d.time))

/-- R507, R154, R158, R163, R169 to R171, R185, R186, R201, R205, R213, R226, R229, R233, R237, R239: what the channel commands on the outputs and the phase engine do. LV_SET,
HV_SET and DELAY set their registers; HV_CLEAR clears a latched short and a trip, each trip
only below its level, and one of the total once every channel's is cleared; PH_LOAD fills the operand table; PH_OFFSET is LATE, BUSY
with reason 3 while an offset is pending, or pending; PH_CFG sets amplitudes and epoch, which it does not change while the sequencer runs. -/
def Obligations.OutputMailbox : Prop :=
  ∀ (s : State) (n : Fin 8) (slot : Fin 16),
    let d := s.dev
    let m : Fin 9 := n.castSucc
    let c := d.call m slot
    let ends := fun (i : Instr) (st : Nat) (res : List Nat) (ks : List Key) (P : Dev → Prop) =>
      ∃ e, exec i s = .next (s.withDev e) ∧ d.completes e m slot st res ks ∧ P e
    (d.takesUp s.mem orderLvSet m slot → ends (.lvSet m slot) 0 []
        [LV_CTRL.EN.at n, LV_GAIN.GAIN.at n, LV_OFS.OFS.at n, QUIET_CODE_LV.CODE.at n, MK_CTRL.DRIVE.at n, MK_CTRL.EN.at n, MK_QUIET.LEVEL.at n]
        (fun e => d.chsBut e n ∧ (d.ticking = true → e.chs = d.chs) ∧ (d.ticking = false → e.chs[n].lv.code = e.getS QUIET_CODE_LV.CODE n)
          ∧ e.get LV_CTRL.EN n = c.bits 0 0 1 ∧ e.get LV_GAIN.GAIN n = c.bits 1 0 16 ∧ e.get LV_OFS.OFS n = c.bits 2 0 16
          ∧ e.get QUIET_CODE_LV.CODE n = c.bits 3 0 16 ∧ e.get MK_CTRL.DRIVE n = c.bits 4 4 4 ∧ e.get MK_CTRL.EN n = c.bits 4 0 4
          ∧ e.get MK_QUIET.LEVEL n = c.bits 4 8 4))
    ∧ (d.takesUp s.mem orderHvSet m slot → ends (.hvSet m slot) 0 []
        [HV_CTRL.SL_EN.at n, HV_CTRL.PD_EN.at n, HV_CTRL.EN.at n, HV_GAIN.GAIN.at n, HV_OFS.OFS.at n, QUIET_CODE_HV.CODE.at n, HV_CLAMP.LO.at n,
          HV_CLAMP.HI.at n, HV_SLEW.RATE.at n, HV_SLEW.STEP.at n, HV_ILIM.ILIM.at n, HV_ILIM.SC_TIME.at n, HV_ILIM.RETRY.at n,
          HV_ILIM.TRIES.at n, HV_ILIM_EFF.ILIM_EFF.at n, HV_ILIM_EFF.SC_EFF.at n, HV_RX.MODE.at n, HV_RX.LINE.at n]
        (fun e => d.chsBut e n ∧ (d.ticking = true → e.chs[n] = { d.chs[n] with hv := { d.chs[n].hv with ilim := e.chs[n].hv.ilim } })
          ∧ e.chs[n].hv.ilim = (if d.flag HV_STAT.FOLD n then d.chs[n].hv.ilim else c.bits 6 0 8)
          ∧ e.get HV_CTRL.SL_EN n = c.bits 0 2 1 ∧ e.get HV_CTRL.PD_EN n = c.bits 0 1 1 ∧ e.get HV_CTRL.EN n = c.bits 0 0 1
          ∧ e.get HV_GAIN.GAIN n = c.bits 1 0 16 ∧ e.get HV_OFS.OFS n = c.bits 2 0 16 ∧ e.get QUIET_CODE_HV.CODE n = c.bits 3 0 16
          ∧ e.get HV_CLAMP.LO n = c.bits 4 0 16 ∧ e.get HV_CLAMP.HI n = c.bits 4 16 16 ∧ e.get HV_SLEW.RATE n = c.bits 5 16 3
          ∧ e.get HV_SLEW.STEP n = c.bits 5 0 15 ∧ e.get HV_ILIM.ILIM n = c.bits 6 0 8 ∧ e.get HV_ILIM.TRIES n = c.bits 6 30 2
          ∧ e.get HV_RX.MODE n = c.bits 7 0 2 ∧ e.get HV_RX.LINE n = c.bits 7 4 2))
    ∧ (d.takesUp s.mem orderHvClear m slot → ends (.hvClear m slot) 0 [] [HV_STAT.SC_LATCH.at n]
        (fun e => (c.bits 0 0 1 = 1 → e.flag HV_STAT.SC_LATCH n = false) ∧ (c.bits 0 0 1 = 0 → e.get HV_STAT.SC_LATCH n = d.get HV_STAT.SC_LATCH n)
          ∧ (c.bits 0 1 1 = 1 → d.chPower n < 2800 → e.chs[n].hv.trip = 0)
          ∧ (c.bits 0 1 1 = 1 → d.totPower < 19200 → (∀ k : Fin 8, k ≠ n → d.chs[k].hv.totTrip = 0 ∨ d.chs[k].hv.totClr = true) →
            e.chs[n].hv.totTrip = 0)
          ∧ (c.bits 0 1 1 = 1 → 19200 ≤ d.totPower → d.chsBut e n ∧ e.chs[n].hv.totTrip = d.chs[n].hv.totTrip)
          ∧ (c.bits 0 1 1 = 0 → e.chs = d.chs)))
    ∧ (d.takesUp s.mem orderDelay m slot → ends (.delay m slot) 0 [] [LV_DLY.USER.at n, HV_DLY.USER.at n]
        (fun e => e.chs = d.chs ∧ e.get LV_DLY.USER n = c.bits 0 0 14 ∧ e.get HV_DLY.USER n = c.bits 1 0 14))
    ∧ (∀ b, d.takesUp s.mem (orderPhLoad (some b)) m slot → d.mayIssue = true →
      let k := c.bits 2 16 10 + 1
      let ws := leWords (bufBytes b (16 * k))
      ∃ e, exec (.phLoad m slot (some b)) s = .next (s.withDev e) ∧ e.answered m slot 0 [] ∧ e.chs = d.chs ∧ e.time = d.time
      ∧ ∀ i, i < k → e.get PHO_O0.FREQ_LO n (c.bits 2 0 10 + i) = ws.getD (4 * i) 0 % 2 ^ 32
          ∧ e.get PHO_O1.FREQ_HI n (c.bits 2 0 10 + i) = ws.getD (4 * i + 1) 0 % 2 ^ PHO_O1.FREQ_HI.w
          ∧ e.get PHO_O2.PHASE_LO n (c.bits 2 0 10 + i) = ws.getD (4 * i + 2) 0 % 2 ^ 32
          ∧ e.get PHO_O3.PHASE_HI n (c.bits 2 0 10 + i) = ws.getD (4 * i + 3) 0 % 2 ^ PHO_O3.PHASE_HI.w)
    ∧ (∀ buf, d.takesUp s.mem (orderPhLoad buf) m slot → (buf = none ∨ d.mayIssue = false) →
      ends (.phLoad m slot buf) 0x0B [] [] (fun e => e.chs = d.chs))
    ∧ (d.takesUp s.mem orderPhOffset m slot →
      (c.late d = true → ends (.phOffset m slot) 6 [] [] (fun e => e.chs = d.chs))
      ∧ (c.late d = false → d.flag DDS_STAT.APPLY_PEND n = true → ends (.phOffset m slot) 1 [3] [] (fun e => e.chs = d.chs))
      ∧ (c.late d = false → d.flag DDS_STAT.APPLY_PEND n = false → ∃ e a, exec (.phOffset m slot) s = .next (s.withDev e)
        ∧ e.pends m slot 0x131 (c.land d) 1 ∧ e.flag DDS_STAT.APPLY_PEND n = true ∧ e.chs[n] = { d.chs[n] with acts := d.chs[n].acts ++ [a] }
        ∧ a.kind = .apply (c.pair 2 % 2 ^ 48) ∧ a.land = c.land d ∧ a.org = .mbx m slot ∧ d.chsBut e n ∧ e.time = d.time
        ∧ d.regsBut e [DDS_STAT.APPLY_PEND.at n, SEQ_STAT.STATE.at n]))
    ∧ (d.takesUp s.mem orderPhCfg m slot →
      let held := d.getPair DDS_EPOCH_LO.EPOCH_LO DDS_EPOCH_HI.EPOCH_HI n ≠ c.pair 1 ∧ d.seqIdle n = false
      (held → ends (.phCfg m slot) 1 [3] [] (fun e => e.chs = d.chs))
      ∧ (¬ held → ends (.phCfg m slot) 0 [] [DDS_AMP.AMP_LV.at n, DDS_AMP.AMP_HV.at n, DDS_EPOCH_LO.EPOCH_LO.at n, DDS_EPOCH_HI.EPOCH_HI.at n]
        (fun e => e.chs = d.chs ∧ e.get DDS_AMP.AMP_LV n = c.bits 0 0 16 ∧ e.get DDS_AMP.AMP_HV n = c.bits 0 16 16
          ∧ e.getPair DDS_EPOCH_LO.EPOCH_LO DDS_EPOCH_HI.EPOCH_HI n = c.pair 1)))

/-- R507, R249, R250, R254, R256, R262, R264, R269, R276, R285, R287, R288: what the channel commands on the Sieve, the captures and Plumb do. TAP_SET and SOS_LOAD set a tap and its
sections, BUSY with reason 3 while the engine runs; SIEVE_RUN starts or stops it at the next joint, BAD_ARG where its settings do not
allow a start; CMP_SET and CAP_SET set comparator and capture; CAP_RING reserves or releases a ring and answers its base; the calibration
commands begin their action for its joint, or answer as their rows state. -/
def Obligations.SieveMailbox : Prop :=
  ∀ (s : State) (n : Fin 8) (slot : Fin 16),
    let d := s.dev
    let m : Fin 9 := n.castSucc
    let c := d.call m slot
    let k := c.bits 0 0 2
    let ends := fun (i : Instr) (st : Nat) (res : List Nat) (ks : List Key) (P : Dev → Prop) =>
      ∃ e, exec i s = .next (s.withDev e) ∧ d.completes e m slot st res ks ∧ P e
    (d.takesUp s.mem orderTapSet m slot →
      let p := presets.getD (c.bits 0 8 4) ⟨0, 1, [], 0⟩
      (d.flag SIEVE_STAT.RUNNING n = true → ends (.tapSet m slot) 1 [3] [] (fun e => e.chs = d.chs))
      ∧ (d.flag SIEVE_STAT.RUNNING n = false → ends (.tapSet m slot) 0 []
        ([TAPk_CFG.CIC_N.at n k, TAPk_CFG.SRC.at n k, TAPk_CFG.DEC.at n k, TAPk_CFG.SOS_BASE.at n k, TAPk_CFG.SOS_NUM.at n k, TAPk_CFG.EN.at n k,
          TAPk_SETTLE.SETTLE.at n k, TAPk_GD.SRC_USER.at n k] ++ (List.range 60).map (fun i => SOSs_c.COEF.at n i))
        (fun e => e.chs = d.chs ∧ e.get TAPk_CFG.SRC n k = p.src ∧ e.get TAPk_CFG.DEC n k = p.dec ∧ e.get TAPk_CFG.SOS_BASE n k = c.bits 0 16 4
          ∧ e.get TAPk_CFG.SOS_NUM n k = p.chain.length ∧ e.flag TAPk_CFG.EN n k = true ∧ e.get TAPk_SETTLE.SETTLE n k = p.settle
          ∧ (p.dec ≠ 1 → e.get TAPk_CFG.CIC_N n k = 3))))
    ∧ (d.takesUp s.mem orderSosLoad m slot →
      (d.flag SIEVE_STAT.RUNNING n = true → ends (.sosLoad m slot) 1 [3] [] (fun e => e.chs = d.chs))
      ∧ (d.flag SIEVE_STAT.RUNNING n = false → ends (.sosLoad m slot) 0 []
        ((List.range 60).map (fun i => SOSs_c.COEF.at n i) ++ (List.range 4).flatMap (fun i => [TAPk_GD.SRC_USER.at n i, TAPk_GD.USER.at n i]))
        (fun e => e.chs = d.chs ∧ (∀ i, i < 5 * c.bits 0 4 2 → e.get SOSs_c.COEF n (5 * c.bits 0 0 4 + i) = c.arg (1 + i))
          ∧ ∀ i, (i < 5 * c.bits 0 0 4 ∨ 5 * (c.bits 0 0 4 + c.bits 0 4 2) ≤ i) → e.get SOSs_c.COEF n i = d.get SOSs_c.COEF n i)))
    ∧ (d.takesUp s.mem orderSieveRun m slot →
      let on := decide (c.bits 0 0 1 = 1)
      let shut := on = true ∧ d.flag SIEVE_STAT.RUNNING n = false ∧ d.sieveOk n = false
      (shut → ends (.sieveRun m slot) 3 [] [] (fun e => e.chs = d.chs))
      ∧ (¬ shut → ∃ e, exec (.sieveRun m slot) s = .next (s.withDev e) ∧ e.pends m slot 0x142 (d.time.crs + 1) 1
        ∧ e.chs[n] = { d.chs[n] with sieve := { d.chs[n].sieve with want := some on, snsNext := some (c.arg 1) } } ∧ d.chsBut e n
        ∧ e.flag SIEVE_CTRL.RUN n = on ∧ e.get SIEVE_CTRL.SETTLE_MODE n = c.bits 0 1 1
        ∧ d.regsBut e [SIEVE_CTRL.SETTLE_MODE.at n, SIEVE_CTRL.RUN.at n]))
    ∧ (d.takesUp s.mem orderCmpSet m slot → ends (.cmpSet m slot) 0 []
        [CMPk_LVL.HI.at n k, CMPk_LVL.LO.at n k, CMPk_CTRL.MODE.at n k, CMPk_CTRL.ARMED.at n k]
        (fun e => e.chs = d.chs ∧ e.get CMPk_LVL.HI n k = c.bits 1 16 16 ∧ e.get CMPk_LVL.LO n k = c.bits 1 0 16
          ∧ e.get CMPk_CTRL.MODE n k = c.bits 2 0 2 ∧ e.flag CMPk_CTRL.ARMED n k = false))
    ∧ (d.takesUp s.mem orderCapSet m slot → ends (.capSet m slot) 0 [] []
        (fun e => (2 * k, c.arg 1) ∈ e.chs[n].sieve.capNext ∧ (2 * k + 1, c.arg 2) ∈ e.chs[n].sieve.capNext ∧ d.chsBut e n))
    ∧ (d.takesUp s.mem orderCapRing m slot →
      (d.get CAPk_CTRL.MODE n k ≠ 0 → ends (.capRing m slot) 1 [3] [] (fun e => e.mason = d.mason))
      ∧ (d.get CAPk_CTRL.MODE n k = 0 → c.arg 1 = 0 → ∃ e lo hi, exec (.capRing m slot) s = .next (s.withDev e) ∧ e.answered m slot 0 [lo, hi]
        ∧ e.get CAPk_SIZE.SIZE n k = 0 ∧ e.mason.capRings = d.mason.capRings.filter (fun r => !(r.1 = n.val && r.2.1 = k)))
      ∧ (d.get CAPk_CTRL.MODE n k = 0 → c.arg 1 ≠ 0 → ((d.begun m slot).free.2.ringDrop n k).ringRuns n (c.arg 1 / 65536) [] ≠ [] →
        ∃ e, exec (.capRing m slot) s = .next (s.withDev e)
        ∧ e.answered m slot 0 [e.get CAPk_BASE_LO.BASE_LO n k, e.get CAPk_BASE_HI.BASE_HI n k]
        ∧ e.get CAPk_SIZE.SIZE n k = c.arg 1 ∧ e.get CAPk_WR.WR n k = 0 ∧ e.get CAPk_RD.RD n k = 0))
    ∧ (d.takesUp s.mem orderCalSlot m slot →
      (c.late d = true → ends (.calSlot m slot) 6 [] [] (fun e => e.chs = d.chs))
      ∧ (c.late d = false → d.chs[n].requested = true → ends (.calSlot m slot) 1 [3] [] (fun e => e.chs = d.chs))
      ∧ (c.late d = false → d.chs[n].requested = false → ∃ e a, exec (.calSlot m slot) s = .next (s.withDev e)
        ∧ e.pends m slot 0x150 (c.land d) 1 ∧ e.chs[n] = { d.chs[n] with acts := d.chs[n].acts ++ [a] } ∧ a.kind = .slot (c.bits 2 0 2)
        ∧ a.land = c.land d ∧ d.chsBut e n ∧ d.regsBut e [PLB_STAT.STATE.at n, PLB_STAT.KIND.at n, SEQ_STAT.STATE.at n]
        ∧ (d.get PLB_STAT.STATE n ≠ 2 → e.get PLB_STAT.STATE n = 1 ∧ e.get PLB_STAT.KIND n = c.bits 2 0 2)))
    ∧ (d.takesUp s.mem orderCalMode m slot → ∃ e, exec (.calMode m slot) s = .next (s.withDev e) ∧ e.pends m slot 0x151 (d.time.crs + 1) 1
      ∧ e.get PLB_CTRL.MODE n = c.bits 0 0 1 ∧ d.regsBut e [PLB_CTRL.MODE.at n] ∧ e.chs = d.chs ∧ e.time = d.time)
    ∧ (d.takesUp s.mem orderCalSave m slot →
      (d.mayIssue = true → ends (.calSave m slot) 0 [] [] (fun e => e.chs = d.chs ∧ .hostWrite (c.pair 0) (wordsBytes (d.liveSet n)) ∈ e.out))
      ∧ (d.mayIssue = false → ∃ e, exec (.calSave m slot) s = .next (s.withDev e) ∧ d.waits e m slot []))
    ∧ (∀ b, d.takesUp s.mem (orderCalRestore (some b)) m slot → d.mayIssue = true → d.chs[n].plumb.load = none →
      let ws := leWords (bufBytes b 512)
      let bad := d.setLegal n ws = false ∨ d.chs[n].plumb.mode = true ∨ d.flag PLB_CTRL.MODE n = true
      let busy := d.seqIdle n = false ∨ d.chs[n].slot.isSome = true ∨ d.get PLB_STAT.STATE n ≠ 0
      (bad → ends (.calRestore m slot (some b)) 3 [] [] (fun e => e.chs = d.chs))
      ∧ (¬ bad → busy → ends (.calRestore m slot (some b)) 1 [3] [] (fun e => e.chs = d.chs))
      ∧ (¬ bad → ¬ busy → ∃ e, exec (.calRestore m slot (some b)) s = .next (s.withDev e) ∧ e.pends m slot 0x153 (d.time.crs + 1) 1
        ∧ e.chs[n] = { d.chs[n] with plumb := { d.chs[n].plumb with load := some (some ws, some (m.val, slot.val)) } } ∧ d.chsBut e n ∧ e.regs = d.regs))
    ∧ (∀ buf, d.takesUp s.mem (orderCalRestore buf) m slot →
      (d.chs[n].plumb.load.isSome = true → ∃ e, exec (.calRestore m slot buf) s = .next (s.withDev e)
        ∧ d.waits e m slot [(PLB_CTRL.OWN.id, n.val)])
      ∧ (d.chs[n].plumb.load = none → (buf = none ∨ d.mayIssue = false) → ends (.calRestore m slot buf) 0x0B [] [] (fun e => e.chs = d.chs)))

/-- R507, R310, R317, R321, R323, R376, R380, R385 to R387, R399, R400: what the channel commands on the Mason and the DRAM do. MSN_SET sets horizons and entry points; MSN_RISKS
publishes the at-risk list, writes it to the buffer and answers its count and `READY`; DRAM_SET sets policy, low-power and the two service
targets; DRAM_DRAIN begins the drain of a rank, answered DEGRADED where the rank is retired (log entry 63: the source states no answer there). -/
def Obligations.StoreMailbox : Prop :=
  ∀ (s : State) (n : Fin 8) (slot : Fin 16),
    let d := s.dev
    let m : Fin 9 := n.castSucc
    let c := d.call m slot
    let ends := fun (i : Instr) (st : Nat) (res : List Nat) (ks : List Key) (P : Dev → Prop) =>
      ∃ e, exec i s = .next (s.withDev e) ∧ d.completes e m slot st res ks ∧ P e
    (d.takesUp s.mem orderMsnSet m slot → ends (.msnSet m slot) 0 []
        ([MSN_HZn.LEAD.at n, MSN_HZn.HEAD.at n, MSN_CHn_STAT.HZ_PEND.at n, MSN_DHZn.DHZ.at n, MSN_STAT.CHECK_BUSY.at]
          ++ (List.range 16).flatMap (fun x => [MSN_ENTRYn_x.EN.at n x, MSN_ENTRYn_x.STEP.at n x]))
        (fun e => e.chs = d.chs ∧ e.flag MSN_STAT.CHECK_BUSY = true ∧ e.get MSN_HZn.LEAD n = c.bits 0 0 8 ∧ e.get MSN_HZn.HEAD n = c.bits 0 16 8 ∧ e.get MSN_DHZn.DHZ n = c.bits 1 0 16
          ∧ ∀ x, x < 16 → e.get MSN_ENTRYn_x.EN n x = c.bits 2 x 1 ∧ e.get MSN_ENTRYn_x.STEP n x = c.bits (3 + x / 2) (16 * (x % 2)) 13))
    ∧ (d.takesUp s.mem orderMsnRisks m slot →
      (d.mayIssue = true → ∃ e ws, exec (.msnRisks m slot) s = .next (s.withDev e)
        ∧ e.answered m slot 0 [e.get MSN_CHn_STAT.RISKS n, e.get MSN_CHn_STAT.READY n]
        ∧ e.get MSN_CHn_STAT.RISKS n = ((d.begun m slot).riskList s.mem n).length % 2 ^ MSN_CHn_STAT.RISKS.w
        ∧ .hostWrite (c.pair 0) ws ∈ e.out ∧ ws.length = 2048 ∧ e.chs = d.chs ∧ e.time = d.time)
      ∧ (d.mayIssue = false → ∃ e, exec (.msnRisks m slot) s = .next (s.withDev e) ∧ d.waits e m slot []))
    ∧ (d.takesUp s.mem orderDramSet m slot → ends (.dramSet m slot) 0 []
        [DMC_CTRL.PAGE.at n, DMC_LP.RETAIN.at n, DMC_LP.SR_TMR.at n, DMC_LP.PD_TMR.at n, DMC_QOSp.TARGET.at n 4, DMC_QOSp.TARGET.at n 6]
        (fun e => e.chs = d.chs ∧ e.get DMC_CTRL.PAGE n = c.bits 0 16 2 ∧ e.get DMC_LP.RETAIN n = c.bits 1 24 2 ∧ e.get DMC_LP.SR_TMR n = c.bits 1 8 16
          ∧ e.get DMC_LP.PD_TMR n = c.bits 1 0 8 ∧ e.get DMC_QOSp.TARGET n 4 = c.arg 2 % 2 ^ DMC_QOSp.TARGET.w
          ∧ e.get DMC_QOSp.TARGET n 6 = c.arg 3 % 2 ^ DMC_QOSp.TARGET.w))
    ∧ (d.takesUp s.mem orderDramDrain m slot →
      let r := c.bits 0 0 1
      let st := d.get DMC_RANKr.STATE n r
      (st = 3 → ends (.dramDrain m slot) 9 [] [] (fun e => e.chs = d.chs))
      ∧ (st ≠ 3 → st ≠ 0 → ∃ e, exec (.dramDrain m slot) s = .next (s.withDev e) ∧ e.pends m slot 0x171 0 1 ∧ e.regs = d.regs)
      ∧ (st = 0 → ∃ t, exec (.dramDrain m slot) s = .next t ∧ t.pending = s.pending ∧ t.dev.pends m slot 0x171 0 1 ∧ t.dev.get DMC_RANKr.STATE n r = 1
        ∧ t.dev.flag DMC_STAT.DRAIN n = true ∧ t.dev.chs = d.chs ∧ t.dev.time = d.time
        ∧ (d.mason.copies.filter (fun x => x.ch = n.val) = [] → t.mem = s.mem)))

/-! ### Chapter 16: the Porter and the Stockroom -/

/-- R183, R506, R558 to R560, R570: while POR_N holds the device no urgent action acts. QUIET stops and quiets exactly the channels of its mask, RELEASE
ends it for those of its mask, HALT asserts HALT with its source, HV_OFF ramps every output down with the code for 0 V forced, CLERK_RESET restarts the Clerk and clears its
watchdog's count; CLR_N low stops every channel, its rise ends that cause (no field waiting to become owned, as for every statement below
that a stopped channel enters). -/
def Obligations.UrgentActions : Prop :=
  ∀ (s : State),
    let d := s.dev
    (d.boot.up = false → (∀ mask, exec (.urgentQuiet mask) s = .next s ∧ exec (.urgentRelease mask) s = .next s)
      ∧ exec .urgentHalt s = .next s ∧ exec .urgentHvOff s = .next s ∧ exec .urgentClerkReset s = .next s)
    ∧ (∀ mask : BitVec 8, d.boot.up = true → d.ownWait = [] → ∃ e, exec (.urgentQuiet mask) s = .next (s.withDev e)
      ∧ (∀ n : Fin 8, mask.getLsbD n = true → e.bit PORTER_STATUS.QUIET 0 0 n = true ∧ e.get SEQ_STAT.STATE n = 0 ∧ e.chs[n].acts = []
          ∧ e.chs[n].laid = [])
      ∧ (∀ n : Fin 8, mask.getLsbD n = false → e.bit PORTER_STATUS.QUIET 0 0 n = d.bit PORTER_STATUS.QUIET 0 0 n
          ∧ e.get SEQ_STAT.STATE n = d.get SEQ_STAT.STATE n))
    ∧ (∀ mask : BitVec 8, d.boot.up = true → ∃ e, exec (.urgentRelease mask) s = .next (s.withDev e)
      ∧ (∀ n : Fin 8, e.bit PORTER_STATUS.QUIET 0 0 n = (d.bit PORTER_STATUS.QUIET 0 0 n && !mask.getLsbD n))
      ∧ d.onlyRegs e [PORTER_STATUS.QUIET.at])
    ∧ (d.boot.up = true → d.ownWait = [] → ∃ e, exec .urgentHalt s = .next (s.withDev e) ∧ e.porter.halt = true
      ∧ e.bit PORTER_HALT.SRC 0 0 3 = true ∧ (d.porter.halt = true → d.onlyRegs e [PORTER_HALT.SRC.at])
      ∧ (d.porter.halt = false → ∀ n : Fin 8, e.get SEQ_STAT.STATE n = 0))
    ∧ (d.boot.up = true → ∃ e, exec .urgentHvOff s = .next (s.withDev e) ∧ e.porter = { d.porter with hvOff := true, hvReady := false }
      ∧ e.regs = d.regs
      ∧ ∀ n : Fin 8, e.chs[n].hv = { d.chs[n].hv with ramp := true, rxClosed := false, code := e.chs[n].hv.code }
        ∧ e.chs[n].hv.code = if e.hvState n = 3 then (predistort (d.coef n) [0, 0, 0, 0, 0, 0, 0, 0]).1 else d.chs[n].hv.code)
    ∧ (d.boot.up = true → d.get PWR_STRAP.BOOT ≠ 3 → d.ownWait = [] → ∃ e, exec .urgentClerkReset s = .next (s.withDev e)
      ∧ e.get MBX_CLERK.STATE = 2 ∧ e.get PORTER_WDT.RESETS = satInc PORTER_WDT.RESETS.w (d.get PORTER_WDT.RESETS) % 2 ^ PORTER_WDT.RESETS.w
      ∧ e.bit PORTER_FAULT.CAUSE 0 0 7 = true ∧ e.porter.wdtRuns = [] ∧ e.porter.clerkFail = false ∧ e.rung = [] ∧ e.cmds = [])
    ∧ (d.get PWR_STRAP.BOOT = 3 → exec .urgentClerkReset s = .next s)
    ∧ (d.ownWait = [] → ∃ e, exec .clrNAssert s = .next (s.withDev e) ∧ e.porter.clr = true
      ∧ (d.boot.up = true → ∀ n : Fin 8, e.get SEQ_STAT.STATE n = 0 ∧ e.chs[n].acts = [])
      ∧ (d.boot.up = false → e = { d with porter := { d.porter with clr := true } }))
    ∧ (∃ e, exec .clrNRelease s = .next (s.withDev e) ∧ e = { d with porter := { d.porter with clr := false } })

/-- R556, R560 to R566: HALT_N low asserts HALT with source 0 unless the device itself drives it; sampled after the device stopped driving it, a ball still low
asserts HALT again. A release request is taken once, and lands two courses on for a device alone, while a member passes it on. Acknowledging a
fault clears the bits written unless their condition persists; `PORTER_CLR` ends HV_OFF, and a thermal shutdown whose logic sensors have all cooled below 95 °C;
a failed lane takes its die's channels down with fault 4, and a clean one brings them back once `LANE` is cleared. -/
def Obligations.HaltAndFaults : Prop :=
  ∀ (s : State),
    let d := s.dev
    let up := d.boot.up = true
    ((d.boot.up = false ∨ d.driving = true) → ∃ e, exec .haltNLow s = .next (s.withDev e)
      ∧ e = { d with porter := { d.porter with haltIn := true } })
    ∧ (up → d.driving = false → d.ownWait = [] → ∃ e, exec .haltNLow s = .next (s.withDev e) ∧ e.porter.halt = true
      ∧ e.porter.haltIn = true ∧ e.bit PORTER_HALT.SRC 0 0 0 = true)
    ∧ (up → d.driving = false → ∃ e, exec (.haltNResample false) s = .next (s.withDev e)
      ∧ e = { d with porter := { d.porter with haltIn := false, driveEnd := false } })
    ∧ (up → d.driving = false → d.ownWait = [] → ∃ e, exec (.haltNResample true) s = .next (s.withDev e) ∧ e.porter.halt = true
      ∧ e.bit PORTER_HALT.SRC 0 0 0 = true ∧ (d.porter.driveEnd = true → e.flag PORTER_HALT.REL_FAIL = true))
    ∧ (∀ low, (d.boot.up = false ∨ d.driving = true) → exec (.haltNResample low) s = .next s)
    ∧ ((d.porter.halt = false ∨ d.flag PORTER_HALT.REL_PEND = true) → exec .porterHaltRel s = .next s)
    ∧ (up → d.porter.halt = true → d.flag PORTER_HALT.REL_PEND = false →
      (d.isMember = true → ∃ e, exec .porterHaltRel s = .next (s.withDev e) ∧ e.flag PORTER_HALT.REL_PEND = true
        ∧ e.ring.ctl = d.ring.ctl ++ [(0, 5, []), (1, 5, [])] ∧ e.porter = d.porter ∧ d.regsBut e [PORTER_HALT.REL_PEND.at])
      ∧ (d.isMember = false → d.isRoot = false → ∃ e, exec .porterHaltRel s = .next (s.withDev e) ∧ e.flag PORTER_HALT.REL_PEND = true
        ∧ e.porter = { d.porter with relAt := some (d.time.crs + 2) }
        ∧ e.getPair PORTER_REL_LO.REL_LO PORTER_REL_HI.REL_HI = (d.time.crs + 2) % 2 ^ 64
        ∧ d.regsBut e [PORTER_HALT.REL_PEND.at, PORTER_REL_LO.REL_LO.at, PORTER_REL_HI.REL_HI.at]))
    ∧ (∀ w : BitVec 14, up → ∃ e, exec (.porterFaultClear w) s = .next (s.withDev e)
      ∧ (∀ b, b < 14 → e.bit PORTER_FAULT.CAUSE 0 0 b = (d.bit PORTER_FAULT.CAUSE 0 0 b && (!w.getLsbD b || d.faultHolds b)))
      ∧ d.regsBut e [PORTER_FAULT.CAUSE.at])
    ∧ (up → d.porter.hvOff = true → ∃ e, exec .porterClrHvOff s = .next (s.withDev e)
      ∧ e = { d with porter := { d.porter with hvOff := false, hvReady := false } })
    ∧ ((d.boot.up = false ∨ d.porter.hvOff = false) → exec .porterClrHvOff s = .next s)
    ∧ (up → ∃ e, exec .porterClrTsd s = .next (s.withDev e) ∧ e.regs = d.regs
      ∧ ((∀ k, k < 9 → d.getS PWR_TLOGs.TEMP k < 1520) → e.porter.tsdLog = false)
      ∧ (∀ k, k < 9 → 1520 ≤ d.getS PWR_TLOGs.TEMP k → e.porter.tsdLog = d.porter.tsdLog))
    ∧ (∀ die : Fin 2, up → ∃ e, exec (.porterLaneFail die) s = .next (s.withDev e) ∧ e.bit PORTER_FAULT.CAUSE 0 0 4 = true
      ∧ e.porter.laneBad = d.porter.laneBad.set die true ∧ ∀ n ∈ chsOf die, e.chs[n].hv.laneDown = true)
    ∧ (∀ die : Fin 2, up → ∃ e, exec (.porterLaneClean die) s = .next (s.withDev e) ∧ e.regs = d.regs
      ∧ e.porter.laneBad = d.porter.laneBad.set die false
      ∧ (d.bit PORTER_FAULT.CAUSE 0 0 4 = false → ∀ n ∈ chsOf die, e.chs[n].hv.laneDown = false))

/-- R521, R569 to R571: only the Clerk's kick restarts its watchdog; the expiry of an armed one resets the Clerk with fault 7, the third within 10 s (10,000 ms) holds it in
reset, FAILED, with fault 8. A write of `PORTER_HWD` with `TMO` 0 is ignored; a kick restarts the host watchdog; its expiry sets fault 13 once and
carries out its action. A beat of the running Clerk counts. -/
def Obligations.Watchdogs : Prop :=
  ∀ (s : State),
    let d := s.dev
    let up := d.boot.up = true
    (up → d.porter.wdtArmed = true → ∃ e, exec (.wdtKick .clerk) s = .next (s.withDev e)
      ∧ e = { d with porter := { d.porter with wdtLeft := d.get PORTER_WDT.TMO } })
    ∧ (∀ r : Requester, r ≠ .clerk → exec (.wdtKick r) s = .next s)
    ∧ (∀ ms : Nat, d.porter.wdtArmed = false → exec (.wdtExpiry ms) s = .next s)
    ∧ (∀ ms : Nat, up → d.porter.wdtArmed = true → d.get PWR_STRAP.BOOT ≠ 3 → d.ownWait = [] →
      let runs := d.porter.wdtRuns.filter (fun t => ms ≤ t + 10000) ++ [ms]
      ∃ e, exec (.wdtExpiry ms) s = .next (s.withDev e) ∧ e.bit PORTER_FAULT.CAUSE 0 0 7 = true ∧ e.porter.wdtRuns = runs
      ∧ e.get PORTER_WDT.RESETS = satInc PORTER_WDT.RESETS.w (d.get PORTER_WDT.RESETS) % 2 ^ PORTER_WDT.RESETS.w
      ∧ (runs.length < 3 → e.get MBX_CLERK.STATE = 2)
      ∧ (3 ≤ runs.length → e.get MBX_CLERK.STATE = 3 ∧ e.bit PORTER_FAULT.CAUSE 0 0 8 = true ∧ e.porter.clerkFail = true))
    ∧ (∀ w : BitVec 32, up → bitsOf w.toNat 0 16 ≠ 0 → ∃ e, exec (.hwdWrite w) s = .next (s.withDev e)
      ∧ e.get PORTER_HWD.TMO = bitsOf w.toNat 0 16 ∧ e.get PORTER_HWD.ACT = bitsOf w.toNat 24 3 ∧ e.get PORTER_HWD.EN = bitsOf w.toNat 31 1
      ∧ e.porter = { d.porter with hwdRun := bitAt w.toNat 31, hwdLeft := if bitAt w.toNat 31 then bitsOf w.toNat 0 16 else 0 }
      ∧ d.regsBut e [PORTER_HWD.EN.at, PORTER_HWD.ACT.at, PORTER_HWD.TMO.at])
    ∧ (∀ w : BitVec 32, bitsOf w.toNat 0 16 = 0 → exec (.hwdWrite w) s = .next s)
    ∧ (up → ∃ e, exec .hwdKick s = .next (s.withDev e) ∧ e = { d with porter := { d.porter with
        hwdHalt := false, hwdRun := d.flag PORTER_HWD.EN, hwdLeft := if d.flag PORTER_HWD.EN then d.get PORTER_HWD.TMO else 0 } })
    ∧ (up → d.porter.hwdRun = true → d.asleep = false → d.ownWait = [] → ∃ e, exec .hwdExpiry s = .next (s.withDev e)
      ∧ e.bit PORTER_FAULT.CAUSE 0 0 13 = true ∧ e.porter.hwdRun = false
      ∧ (d.get PORTER_HWD.ACT = 1 → ∀ n : Fin 8, e.bit PORTER_STATUS.QUIET 0 0 n = true ∧ e.get SEQ_STAT.STATE n = 0)
      ∧ (d.get PORTER_HWD.ACT = 3 → e.porter.halt = true ∧ e.bit PORTER_HALT.SRC 0 0 5 = true)
      ∧ (d.get PORTER_HWD.ACT = 4 → e.porter.hvOff = true)
      ∧ (d.get PORTER_HWD.ACT ≠ 1 → d.get PORTER_HWD.ACT ≠ 3 → d.get PORTER_HWD.ACT ≠ 4 → e.chs = d.chs))
    ∧ ((d.porter.hwdRun = false ∨ d.asleep = true) → exec .hwdExpiry s = .next s)
    ∧ (up → d.get MBX_CLERK.STATE = 1 → ∃ e, exec .clerkBeat s = .next (s.withDev e)
      ∧ e.get MBX_CLERK.BEAT = (d.get MBX_CLERK.BEAT + 1) % 2 ^ MBX_CLERK.BEAT.w ∧ d.regsBut e [MBX_CLERK.BEAT.at] ∧ e.chs = d.chs)

/-- R573 to R575, R579, R583 to R585: a wear store puts the records as they stand into the newer copy, or sets `SAVE_FAIL`; a segment test acts
only while its channel is OFF, and brings back the segments that pass and are not permanently retired; a scrub period out of range is refused with
`CFG_REJ`; a powered hour counts, saturating; a read over I2C returns the word that the register shows to I2C, 4 bytes for each word read; outside what it serves it
returns 0 and sets `DENY`, a register that does not answer returns 0 and sets `NO_ANSWER`; a write of `I2C_URGENT` carries out the urgent action of its
code (R506), one of `PWR_CTRL` sets `REQ`, wakes the device and with `GO` makes the request (R533); any other is ignored and sets `DENY`; a bus timeout counts. -/
def Obligations.StockroomAndI2c : Prop :=
  ∀ (s : State),
    let d := s.dev
    let up := d.boot.up = true
    (∀ c, c ∈ [Instr.stkSave true, Instr.wearStore true] → up → d.flash.wear.length = 2 → ∃ e g, exec c s = .next (s.withDev e)
      ∧ newerCopy WearCopy.gen e.flash.wear = some (d.wearNow g) ∧ e.regs = d.regs ∧ e.chs = d.chs)
    ∧ (∀ c, c ∈ [Instr.stkSave false, Instr.wearStore false] → up → ∃ e, exec c s = .next (s.withDev e)
      ∧ e.flag STK_STAT.SAVE_FAIL = true ∧ d.regsBut e [STK_STAT.SAVE_FAIL.at] ∧ e.chs = d.chs)
    ∧ (∀ (n : Fin 8) (passed : BitVec 14), up → ∃ e, exec (.stkSegTest n passed) s = .next (s.withDev e) ∧ e.get STK_CMD.CH = n.val
      ∧ (d.hvState n ≠ 0 → d.onlyRegs e [STK_CMD.CH.at])
      ∧ (d.hvState n = 0 → ∀ k : Fin 14, d.bit HV_SEG.RETIRED n 0 k = true → d.bit STK_CHn_WEAR3.SEG_PERM n 0 k = false →
          e.bit HV_SEG.RETIRED n 0 k = !passed.getLsbD k))
    ∧ (∀ w : BitVec 32, up →
      let h := bitsOf w.toNat 16 8
      let t := bitsOf w.toNat 0 10
      ((1 ≤ h ∧ h ≤ 168 ∧ 1 ≤ t ∧ t ≤ 1000) → ∃ e, exec (.stkScrubWrite w) s = .next (s.withDev e) ∧ e.get STK_SCRUB.DRAM_T = h
        ∧ e.get STK_SCRUB.SRAM_T = t ∧ d.onlyRegs e [STK_SCRUB.DRAM_T.at, STK_SCRUB.SRAM_T.at])
      ∧ (¬ (1 ≤ h ∧ h ≤ 168 ∧ 1 ≤ t ∧ t ≤ 1000) → ∃ e, exec (.stkScrubWrite w) s = .next (s.withDev e)
        ∧ e.flag STK_STAT.CFG_REJ = true ∧ d.onlyRegs e [STK_STAT.CFG_REJ.at]))
    ∧ (up → ∃ e, exec .powerOnHour s = .next (s.withDev e) ∧ e.get STK_HOURS.HOURS = satInc 32 (d.get STK_HOURS.HOURS) % 2 ^ 32
      ∧ e.boot = { d.boot with calWait := d.boot.calWait - 1 }
      ∧ (∀ n : Fin 8, d.hvState n = 2 → e.get STK_CHn_WEAR0.HV_HOURS n = satInc 32 (d.get STK_CHn_WEAR0.HV_HOURS n) % 2 ^ 32)
      ∧ (∀ n : Fin 8, d.hvState n ≠ 2 → e.get STK_CHn_WEAR0.HV_HOURS n = d.get STK_CHn_WEAR0.HV_HOURS n) ∧ e.chs = d.chs)
    ∧ (∀ (word : BitVec 14) (count : Nat) (marks : I2cMarks), d.boot.vaon = true →
      ∃ e, exec (.i2cRead word count marks) s = .next (s.withDev e) ∧ e.reply.data.length = 4 * count ∧ e.reply.abort = false ∧ e.chs = d.chs
      ∧ (∀ k, k < count → (d.i2cServes (4 * ((word.toNat + k) % 0x4000)) = false ∨ k ∈ marks.silent) →
        (e.reply.data.drop (4 * k)).take 4 = [0, 0, 0, 0]))
    ∧ (∀ (word : BitVec 14) (marks : I2cMarks), d.boot.vaon = true → d.i2cServes (4 * word.toNat) = true → 0 ∉ marks.silent →
      let who := if marks.shared.contains 0 then Requester.host else .i2c
      ∃ e, exec (.i2cRead word 1 marks) s = .next (s.withDev e)
      ∧ e.reply = { data := leBytes 4 ((d.readLatch who (4 * word.toNat) true).word .i2c (4 * word.toNat)).1 } ∧ e.regs = d.regs ∧ e.chs = d.chs)
    ∧ (∀ word count marks, d.boot.vaon = false → exec (.i2cRead word count marks) s = .next s)
    ∧ (∀ (word : BitVec 14) (marks : I2cMarks), d.boot.vaon = true →
      (d.i2cServes (4 * word.toNat) = false → ∃ e, exec (.i2cRead word 1 marks) s = .next (s.withDev e)
        ∧ e.reply = { data := [0, 0, 0, 0] } ∧ e.flag I2C_STAT.DENY = true ∧ d.regsBut e [I2C_STAT.DENY.at])
      ∧ (d.i2cServes (4 * word.toNat) = true → 0 ∈ marks.silent → ∃ e, exec (.i2cRead word 1 marks) s = .next (s.withDev e)
        ∧ e.reply = { data := [0, 0, 0, 0] } ∧ e.flag I2C_STAT.NO_ANSWER = true ∧ d.regsBut e [I2C_STAT.NO_ANSWER.at]))
    ∧ (∀ v : BitVec 32, d.boot.vaon = true →
      let same := fun (i : Instr) => ∃ t, exec i s = .next t ∧ exec (.i2cWrite 0x8D v) s = .next t
      let act := bitsOf v.toNat 8 3
      if bitsOf v.toNat 24 8 ≠ 0xC5 then exec (.i2cWrite 0x8D v) s = .next s
      else (act = 1 → same (.urgentQuiet (BitVec.ofNat 8 v.toNat))) ∧ (act = 2 → same (.urgentRelease (BitVec.ofNat 8 v.toNat)))
        ∧ (act = 3 → same .urgentHalt) ∧ (act = 4 → same .urgentHvOff) ∧ (act = 5 → same .urgentClerkReset)
        ∧ ((act = 0 ∨ 5 < act) → exec (.i2cWrite 0x8D v) s = .next s))
    ∧ (∀ v : BitVec 32, d.boot.vaon = true → up → d.power.entry = none →
      let req := bitsOf v.toNat 16 2
      let st := d.get PWR_STAT.STATE
      (bitAt v.toNat 0 = false → (st = 0 ∨ st = 3) → ∃ e, exec (.i2cWrite 0x400 v) s = .next (s.withDev e) ∧ e.get PWR_CTRL.REQ = req
        ∧ d.onlyRegs e [PWR_CTRL.REQ.at])
      ∧ (bitAt v.toNat 0 = false → (st = 1 ∨ st = 2) → ∃ e, exec (.i2cWrite 0x400 v) s = .next (s.withDev e) ∧ e.get PWR_CTRL.REQ = req
        ∧ e.get PWR_STAT.STATE = 3 ∧ e.get PWR_STAT.WAKE_SRC = 3 ∧ e.power = { d.power with left := st }
        ∧ d.regsBut e [PWR_CTRL.REQ.at, PWR_STAT.STATE.at, PWR_STAT.WAKE_SRC.at] ∧ e.chs = d.chs)
      ∧ (bitAt v.toNat 0 = true → st = 0 → (req = 1 ∨ req = 2) → d.powerBusy = false →
        ∃ e, exec (.i2cWrite 0x400 v) s = .next (s.withDev e) ∧ e.get PWR_CTRL.REQ = req ∧ e.power = { d.power with entry := some req }
        ∧ d.regsBut e [PWR_CTRL.REQ.at] ∧ e.chs = d.chs)
      ∧ (bitAt v.toNat 0 = true → st = 0 → (req = 1 ∨ req = 2) → d.powerBusy = true →
        ∃ e, exec (.i2cWrite 0x400 v) s = .next (s.withDev e) ∧ e.flag PWR_STAT.ENTRY_REJ = true ∧ d.onlyRegs e [PWR_CTRL.REQ.at, PWR_STAT.ENTRY_REJ.at]))
    ∧ (∀ word v, d.boot.vaon = false → exec (.i2cWrite word v) s = .next s)
    ∧ (∀ (word : BitVec 14) (v : BitVec 32), d.boot.vaon = true → word.toNat ≠ 0x8D → (word.toNat ≠ 0x400 ∨ d.boot.up = false) →
      ∃ e, exec (.i2cWrite word v) s = .next (s.withDev e) ∧ e.flag I2C_STAT.DENY = true ∧ d.onlyRegs e [I2C_STAT.DENY.at])
    ∧ (up → ∃ e, exec .i2cBusTimeout s = .next (s.withDev e) ∧ e.get I2C_STAT.TMO = satInc 16 (d.get I2C_STAT.TMO) % 2 ^ 16
      ∧ d.onlyRegs e [I2C_STAT.TMO.at])

/-! ### Chapter 15: power, reset and boot -/

/-- R524, R527, R536, R540, R548, R550, R567, R579: POR_N low, a rail that falls and the loss of VAON empty the memories and put every register but the records that
survive at its POR_N value, with the cause recorded; the output segments retired stay so but over the loss of VAON; POR_N high, the rails back or the thermal hold over start the device once nothing else holds
it, with the straps sampled; a sequencing breach sets `SEQ_ERR` and turns every output off; the boot flow takes its steps in order and records a failure. -/
def Obligations.ResetAndBoot : Prop :=
  ∀ (s : State),
    let d := s.dev
    let kept := [DEV_ID.VARIANT.at, PORTER_LAST.CAUSE.at, PWR_STAT.RAIL_LOW.at, PWR_RAIL.GOOD.at] ++ allCh.flatMap (fun n => [STK_CHn_WEAR3.SEG_PERM.at n, HV_SEG.ACTIVE.at n,
      HV_SEG.RETIRED.at n, HV_STAT.SEG_DEGRADED.at n, HV_ILIM_EFF.ILIM_EFF.at n, HV_ILIM_EFF.SC_EFF.at n])
    let segs := fun (t : State) => ∀ n : Fin 8, t.dev.get STK_CHn_WEAR3.SEG_PERM n = d.get STK_CHn_WEAR3.SEG_PERM n
      ∧ t.dev.get HV_SEG.ACTIVE n = d.get HV_SEG.ACTIVE n ∧ t.dev.get HV_SEG.RETIRED n = d.get HV_SEG.RETIRED n
    let cleared := fun (t : State) (cause : Nat) => t.pending = s.pending ∧ t.mem = [] ∧ t.dev.boot.up = false
      ∧ State.reset.dev.regsBut t.dev kept ∧ t.dev.get PORTER_LAST.CAUSE = cause ∧ t.dev.flash = d.flash
    (d.boot.vaon = true → ∃ t, exec .porNAssert s = .next t ∧ cleared t 1 ∧ segs t ∧ t.dev.boot.por = true)
    ∧ (∀ r : Fin 10, d.boot.vaon = true → ∃ t, exec (.railLow r) s = .next t ∧ cleared t 2 ∧ segs t ∧ t.dev.boot.rail = true
      ∧ (r.val < 8 → t.dev.bit PWR_STAT.RAIL_LOW 0 0 r = true) ∧ t.dev.bit PWR_RAIL.GOOD 0 0 r = false)
    ∧ (∃ t, exec .vaonLoss s = .next t ∧ cleared t 0 ∧ t.dev.boot.vaon = false ∧ State.reset.dev.regsBut t.dev [DEV_ID.VARIANT.at]
      ∧ (d.flash.half = true → t.dev.get DEV_ID.VARIANT = 0x20) ∧ (d.flash.half = false → t.dev.get DEV_ID.VARIANT = 0x40))
    ∧ (d.boot.vaon = true → exec .vaonUp s = .next s)
    ∧ (d.boot.vaon = false → ∃ e, exec .vaonUp s = .next (s.withDev e) ∧ e.boot = { d.boot with vaon := true } ∧ e.get PORTER_LAST.CAUSE = 0)
    ∧ (∀ straps : BitVec 10, d.boot.vaon = true → d.boot.up = false → d.porter.haltIn = false →
      (d.boot.rail = false → d.porter.thermHold = false → ∃ e, exec (.porNRelease straps) s = .next (s.withDev e)
        ∧ e.boot.por = false ∧ e.boot.up = true ∧ e.get PWR_BOOT.STAGE = 1 ∧ e.get PWR_RAIL.GOOD % 1024 = 1023 ∧ e.get PWR_STRAP.BOOT = bitsOf straps.toNat 0 2
        ∧ e.get RING_CTRL.ROLE = bitsOf straps.toNat 3 2 ∧ e.get PWR_STRAP.HVLIM = bitsOf straps.toNat 5 1 ∧ e.chs = d.chs)
      ∧ (d.boot.rail = true → d.boot.por = false → d.porter.thermHold = false → ∃ e, exec (.railLowRecovered straps) s = .next (s.withDev e)
        ∧ e.boot.rail = false ∧ e.boot.up = true ∧ e.get PWR_BOOT.STAGE = 1)
      ∧ (d.porter.thermHold = true → d.boot.rail = false → d.boot.por = false → ∃ e, exec .thermHoldEnd s = .next (s.withDev e)
        ∧ e.porter.thermHold = false ∧ e.boot.up = true ∧ e.get PWR_BOOT.STAGE = 1))
    ∧ (∀ straps, d.boot.rail = false → exec (.railLowRecovered straps) s = .next s)
    ∧ (d.porter.thermHold = false → exec .thermHoldEnd s = .next s)
    ∧ (d.boot.vaon = true → ∃ e, exec .sequencingBreach s = .next (s.withDev e) ∧ e.flag PWR_STAT.SEQ_ERR = true
      ∧ d.regsBut e [PWR_STAT.SEQ_ERR.at] ∧ ∀ n : Fin 8, e.chs[n].hv.stage = .off)
    ∧ (∀ (ms : BitVec 12) (x : BootNews), d.boot.up = true →
      (d.get PWR_BOOT.STAGE = 1 → x.refclk = true → d.locked = true →
        ∃ e, exec (.bootStepComplete ms x) s = .next (s.withDev e) ∧ e.get PWR_BOOT.STAGE = 2 ∧ e.chs = d.chs)
      ∧ (d.get PWR_BOOT.STAGE = 1 → x.refclk = false → ∃ e, exec (.bootStepComplete ms x) s = .next (s.withDev e)
        ∧ e.get PWR_BOOT.FAIL = 4 ∧ (d.get PWR_BOOT.FAIL ≠ 4 → e.bit PORTER_FAULT.CAUSE 0 0 11 = true) ∧ e.get PWR_BOOT.STAGE = 1)
      ∧ (d.get PWR_BOOT.STAGE = 2 → d.flag MEM_STAT.START_OK = true → ∃ e, exec (.bootStepComplete ms x) s = .next (s.withDev e)
        ∧ e.get PWR_BOOT.STAGE = 3 ∧ d.onlyRegs e [PWR_BOOT.STAGE.at, PWR_BOOT.MS.at])
      ∧ (d.get PWR_BOOT.STAGE = 7 → d.boot.again = none → ∃ e, exec (.bootStepComplete ms x) s = .next (s.withDev e)
        ∧ e.get PWR_BOOT.STAGE = 8 ∧ e.get MBX_CLERK.STATE = 1 ∧ e.boot.served = true
        ∧ d.regsBut e [PWR_BOOT.STAGE.at, PWR_BOOT.MS.at, MBX_CLERK.STATE.at]))
    ∧ (∀ ms x, d.boot.up = false → exec (.bootStepComplete ms x) s = .next s)

/-- R294, R530 to R535, R545, R551, R567: a request for IDLE or SLEEP while a sequencer is ARMED or RUNNING or a calibration slot stands is refused with `ENTRY_REJ`, and
else begins its entry, at whose end the state reads as asked; a wake ends in RUN, from SLEEP with a gap flagged. A sample shows in its sensor's
register; above 115 °C a logic sensor stops every channel, above 125 °C (150 °C on an HV die) the device is held in reset. A flash
fetch that meets a running operation suspends it; a calibration store that is due leaves no table unsaved: it is due after
a change of mode, or of a table once 6 hours have passed since the last automatic one, while no calibration block is host-owned. -/
def Obligations.PowerAndTemperature : Prop :=
  ∀ (s : State),
    let d := s.dev
    let up := d.boot.up = true
    (∀ req : BitVec 2, up → d.power.entry = none → d.get PWR_STAT.STATE = 0 → (req = 1 ∨ req = 2) →
      (d.powerBusy = true → ∃ e, exec (.pwrGo req) s = .next (s.withDev e) ∧ e.flag PWR_STAT.ENTRY_REJ = true
        ∧ d.onlyRegs e [PWR_STAT.ENTRY_REJ.at, PWR_CTRL.REQ.at])
      ∧ (d.powerBusy = false → ∃ e, exec (.pwrGo req) s = .next (s.withDev e) ∧ e.power = { d.power with entry := some req.toNat }
        ∧ e.get PWR_CTRL.REQ = req.toNat ∧ d.regsBut e [PWR_CTRL.REQ.at] ∧ e.chs = d.chs))
    ∧ (d.power.entry = none → exec .powerEntryDone s = .next s)
    ∧ (∀ st, d.power.entry = some st → (st = 1 ∨ st = 2) → d.power.held = none → d.ownWait = [] →
      ∃ t, exec .powerEntryDone s = .next t ∧ t.pending = s.pending ∧ t.dev.get PWR_STAT.STATE = st ∧ t.dev.power.entry = none)
    ∧ (up → d.get PWR_STAT.STATE = 3 → d.power.held = none → d.ownWait = [] → ∃ e, exec .wakeDone s = .next (s.withDev e)
      ∧ e.get PWR_STAT.STATE = 0 ∧ (d.power.left = 2 → e.flag CRS_STAT.GAP = true ∧ ∀ n : Fin 8, e.flag DDS_STAT.GAP n = true))
    ∧ (d.get PWR_STAT.STATE ≠ 3 → exec .wakeDone s = .next s)
    ∧ (∀ (k : Fin 9) (t : BitVec 16), up →
      (t.toInt ≤ 1840 → ∃ e, exec (.tempSample false k t) s = .next (s.withDev e) ∧ e.getS PWR_TLOGs.TEMP k = t.toInt ∧ e.porter.tsdLog = d.porter.tsdLog)
      ∧ (1840 < t.toInt → t.toInt ≤ 2000 → d.porter.tsdLog = false → d.ownWait = [] → ∃ e, exec (.tempSample false k t) s = .next (s.withDev e)
        ∧ e.getS PWR_TLOGs.TEMP k = t.toInt ∧ e.porter.tsdLog = true ∧ e.bit PORTER_FAULT.CAUSE 0 0 5 = true ∧ ∀ n : Fin 8, e.get SEQ_STAT.STATE n = 0)
      ∧ (2000 < t.toInt → ∃ u, exec (.tempSample false k t) s = .next u ∧ u.mem = [] ∧ u.pending = s.pending ∧ u.dev.boot.up = false
        ∧ u.dev.get PORTER_LAST.CAUSE = 3 ∧ u.dev.porter.thermHold = true)
      ∧ (k.val < 8 → t.toInt ≤ 2240 → ∃ e, exec (.tempSample true k t) s = .next (s.withDev e) ∧ e.getS PWR_THVs.TEMP k = t.toInt
        ∧ e.porter.tsdHv = d.porter.tsdHv)
      ∧ (k.val < 8 → 2400 < t.toInt → ∃ u, exec (.tempSample true k t) s = .next u ∧ u.mem = [] ∧ u.dev.boot.up = false
        ∧ u.dev.get PORTER_LAST.CAUSE = 3))
    ∧ (up → ∃ e, exec (.flashFetch true true) s = .next (s.withDev e)
      ∧ e.get FLS_STAT.SUSPENDS = satInc FLS_STAT.SUSPENDS.w (d.get FLS_STAT.SUSPENDS) % 2 ^ FLS_STAT.SUSPENDS.w ∧ d.onlyRegs e [FLS_STAT.SUSPENDS.at])
    ∧ (∀ a b, (a && b) = false → exec (.flashFetch a b) s = .next s)
    ∧ (up → d.get MBX_CLERK.STATE = 1 → (∀ n : Fin 8, d.flag PLB_CTRL.OWN n = false) →
      (∃ n : Fin 8, d.chs[n].plumb.modeDirty = true ∨ (d.chs[n].plumb.dirty = true ∧ d.boot.calWait = 0)) →
      ∃ e, exec (.calAutoStore true) s = .next (s.withDev e)
      ∧ (∀ n : Fin 8, e.chs[n].plumb.dirty = false ∧ e.chs[n].plumb.modeDirty = false) ∧ e.boot = { d.boot with calWait := 7 }
      ∧ d.regsBut e [MBX_NOTE_TAIL.TAIL.at, MBX_NOTE_TAIL.LOST.at])
    ∧ (∀ good, ((∃ n : Fin 8, d.flag PLB_CTRL.OWN n = true)
        ∨ ∀ n : Fin 8, d.chs[n].plumb.modeDirty = false ∧ (d.chs[n].plumb.dirty = false ∨ d.boot.calWait ≠ 0)) →
      exec (.calAutoStore good) s = .next s)

/-! ### Chapter 14: the host port -/

/-- R508 to R512: a tail written shows; a start puts `HEAD` and `TAIL` to 0, a stop clears `EN`, a resume clears `STOPPED`. A descriptor of a queue that is ready
completes: a reserved operation stops the queue with `BAD_DESC` and its index; a read of a step table sends its bytes; a write of one stores
the host's bytes, and no other byte of memory changes. -/
def Obligations.DmaQueues : Prop :=
  ∀ (s : State) (q : Fin 8),
    let d := s.dev
    let head := d.get DMA_Qq_HEAD.HEAD q
    (∀ tail : BitVec 12, ∃ e, exec (.dmaTailDoorbell q tail) s = .next (s.withDev e)
      ∧ e.get DMA_Qq_TAIL.TAIL q = tail.toNat ∧ d.onlyRegs e [DMA_Qq_TAIL.TAIL.at q])
    ∧ (d.flag DMA_Qq_CFG.EN q = false → ∃ e, exec (.dmaEnableWrite q true) s = .next (s.withDev e) ∧ e.flag DMA_Qq_CFG.EN q = true
      ∧ e.get DMA_Qq_HEAD.HEAD q = 0 ∧ e.get DMA_Qq_TAIL.TAIL q = 0
      ∧ d.regsBut e [DMA_Qq_CFG.EN.at q, DMA_Qq_HEAD.HEAD.at q, DMA_Qq_TAIL.TAIL.at q] ∧ e.chs = d.chs)
    ∧ (d.flag DMA_Qq_CFG.EN q = true → ∃ e, exec (.dmaEnableWrite q false) s = .next (s.withDev e) ∧ e.flag DMA_Qq_CFG.EN q = false
      ∧ d.regsBut e [DMA_Qq_CFG.EN.at q] ∧ e.chs = d.chs)
    ∧ (∀ en, d.flag DMA_Qq_CFG.EN q = en → exec (.dmaEnableWrite q en) s = .next s)
    ∧ (∃ e, exec (.dmaResume q) s = .next (s.withDev e) ∧ e.flag DMA_Qq_STAT.STOPPED q = false ∧ d.onlyRegs e [DMA_Qq_STAT.STOPPED.at q])
    ∧ (∀ g data herr ue, d.dmaReady q = false → exec (.dmaDescriptorDone q g data herr ue) s = .next s)
    ∧ (∀ g data ue, d.dmaReady q = true → d.mayIssue = true → d.dmaWaits (DmaDesc.ofWords g) = false →
      let x := DmaDesc.ofWords g
      (d.dmaBad x = true → ∃ e, exec (.dmaDescriptorDone q g data false ue) s = .next (s.withDev e) ∧ e.flag DMA_Qq_STAT.STOPPED q = true
        ∧ e.flag DMA_Qq_STAT.BAD_DESC q = true ∧ e.get DMA_Qq_STAT.ERR_IDX q = head % 2 ^ DMA_Qq_STAT.ERR_IDX.w
        ∧ d.regsBut e [DMA_Qq_HEAD.HEAD.at q, DMA_Qq_STAT.STOPPED.at q, DMA_Qq_STAT.BAD_DESC.at q, DMA_Qq_STAT.ERR_IDX.at q])
      ∧ (d.dmaBad x = false → x.op = 2 → ue = [] → d.sramUe x = [] → ∃ e, exec (.dmaDescriptorDone q g data false ue) s = .next (s.withDev e)
        ∧ .hostWrite x.host (s.mem.readBytes (sramAt x.dev) x.len) ∈ e.out
        ∧ e.get DMA_Qq_HEAD.HEAD q = (head + 1) % 2 ^ d.get DMA_Qq_CFG.SIZE q % 2 ^ DMA_Qq_HEAD.HEAD.w ∧ d.regsBut e [DMA_Qq_HEAD.HEAD.at q])
      ∧ (d.dmaBad x = false → x.op = 3 → ∃ t, exec (.dmaDescriptorDone q g data false ue) s = .next t ∧ t.pending = s.pending
        ∧ (∀ i, i < x.len → t.mem.read (sramAt (x.dev + i)) = (bufBytes data x.len).getD i 0)
        ∧ (∀ a, (a < sramAt x.dev ∨ sramAt x.dev + x.len ≤ a) → t.mem.read a = s.mem.read a)
        ∧ t.dev.get DMA_Qq_HEAD.HEAD q = (head + 1) % 2 ^ d.get DMA_Qq_CFG.SIZE q % 2 ^ DMA_Qq_HEAD.HEAD.w))

/-- R482 to R484, R514, R517, R537: PERST_N, a function level reset and a hot reset clear the host's registers and free its slots, leave every
channel, the course and the Clerk's commands under way untouched; a link that goes down stops the queues and leaves the mailboxes; a link that comes up
shows its width and rate; a write of configuration space sets Bus Master Enable, D3hot and the MSI-X controls. -/
def Obligations.HostLink : Prop :=
  ∀ (s : State),
    let d := s.dev
    let wiped := fun (e : Dev) => e.chs = d.chs ∧ e.time = d.time ∧ e.cmds = d.cmds ∧ e.rung = [] ∧ e.flag REG_ERR.VALID = false
      ∧ e.get HP_EVIRQ.PEND = 0 ∧ e.flag MSN_RQ_CFG.EN = false
      ∧ (∀ m : Fin 9, e.get MBX_BUSYm.BUSY m = 0 ∧ e.get MBX_DONEm.DONE m = 0) ∧ (∀ q : Fin 8, e.flag DMA_Qq_CFG.EN q = false)
    (∃ e, exec (.perstN true) s = .next (s.withDev e) ∧ wiped e ∧ e.port = { perst := true })
    ∧ (∃ e, exec (.perstN false) s = .next (s.withDev e) ∧ e = { d with port := { d.port with perst := false } })
    ∧ (d.port.up = true → ∃ e, exec .functionLevelReset s = .next (s.withDev e) ∧ wiped e ∧ e.port = { up := true, perst := d.port.perst })
    ∧ (d.port.up = true → ∃ e, exec .hotReset s = .next (s.withDev e) ∧ wiped e ∧ e.port = { up := false, perst := d.port.perst })
    ∧ (d.port.up = true → ∃ e, exec .linkDown s = .next (s.withDev e) ∧ e.port = { d.port with up := false } ∧ e.rung = d.rung
      ∧ e.chs = d.chs ∧ e.flag MSN_RQ_CFG.EN = false ∧ (∀ q : Fin 8, e.flag DMA_Qq_CFG.EN q = false)
      ∧ (∀ m : Fin 9, e.get MBX_BUSYm.BUSY m = d.get MBX_BUSYm.BUSY m ∧ e.get MBX_DONEm.DONE m = d.get MBX_DONEm.DONE m))
    ∧ (d.port.up = false → exec .functionLevelReset s = .next s ∧ exec .hotReset s = .next s ∧ exec .linkDown s = .next s)
    ∧ (∀ (w : LinkWidth) (r : Fin 4), d.port.perst = false → d.boot.up = true → d.port.up = false →
      ∃ e, exec (.pcieLinkUp w r) s = .next (s.withDev e) ∧ e.port.up = true ∧ e.get HP_LINK.WIDTH = lanesOf w ∧ e.get HP_LINK.RATE = r.val + 1
      ∧ e.get MSN_BW_EFF.LANES = lanesOf w ∧ e.chs = d.chs
      ∧ d.regsBut e [HP_LINK.WIDTH.at, HP_LINK.RATE.at, MSN_BW_EFF.LANES.at, MSN_BW_EFF.HOST_EFF.at])
    ∧ (∀ bme d3 msix mask, d.port.up = true → ∃ e, exec (.configSpaceWrite bme d3 msix mask) s = .next (s.withDev e)
      ∧ e.port.bme = bme ∧ e.port.d3 = d3 ∧ e.port.msixOn = msix ∧ e.port.allMask = mask ∧ e.regs = d.regs ∧ e.chs = d.chs)

/-- R487 to R490, R496, R533, R537: while the link is down no access reaches the block. An access that breaks a rule, or that no block answers, is recorded in
`REG_ERR`, and a read so ends in a Completer Abort. A word of mailbox SRAM written is stored and nothing else changes; a word read
is answered and changes no register; a read that a block has left unanswered for 40 µs is abandoned and recorded. -/
def Obligations.HostAccesses : Prop :=
  ∀ (s : State) (off : BitVec 26),
    let d := s.dev
    let o := off.toNat
    let recorded := fun (e : Dev) (write : Bool) (bar : Nat) (cause : Nat) =>
      e.flag REG_ERR.VALID = true ∧ e.get REG_ERR.COUNT = satInc REG_ERR.COUNT.w (d.get REG_ERR.COUNT) ∧ e.chs = d.chs ∧ e.time = d.time
      ∧ (d.flag REG_ERR.VALID = false → e.get REG_ERR.CAUSE = cause ∧ e.flag REG_ERR.WRITE = write ∧ e.get REG_ERR.BAR = bar ∧ e.get REG_ERR_ADDR.OFFSET = o)
      ∧ d.regsBut e [REG_ERR.VALID.at, REG_ERR.CAUSE.at, REG_ERR.WRITE.at, REG_ERR.BAR.at, REG_ERR.COUNT.at, REG_ERR_ADDR.OFFSET.at]
    (d.port.up = false → (∀ bar bytes p x, exec (.regWrite bar off bytes p x) s = .next s) ∧ (∀ bar en f, exec (.regRead bar off en f) s = .next s)
      ∧ ∀ bar, exec (.barReadTimeout bar off) s = .next s)
    ∧ (d.port.up = true →
      (∀ bar bytes p x c, brokenRules bar o (bytes.map Option.isSome) true p = [c] →
        ∃ e, exec (.regWrite bar off bytes p x) s = .next (s.withDev e) ∧ recorded e true bar.val c)
      ∧ (∀ bar en f c, brokenRules bar o en false false = [c] →
        ∃ e, exec (.regRead bar off en f) s = .next (s.withDev e) ∧ recorded e false bar.val c ∧ e.reply = { abort := true })
      ∧ (∀ bar bytes x, brokenRules bar o (bytes.map Option.isSome) true false = [] → d.answers bar o = false → d.boot.locked1 = false →
        ∃ e, exec (.regWrite bar off bytes false x) s = .next (s.withDev e) ∧ recorded e true bar.val 4)
      ∧ (∀ bar : Fin 3, ¬ (bar = 0 ∧ 0x200 ≤ o ∧ o < 0x400) → ∃ e, exec (.barReadTimeout bar off) s = .next (s.withDev e)
        ∧ recorded e false bar.val 4 ∧ e.reply = { abort := true })
      ∧ (0xC000 ≤ o → o < 0xE800 → o % 4 = 0 → d.boot.locked1 = true → d.asleep = false →
        (∀ (bytes : List (BitVec 8)) (x : WriteNews), bytes.length = 4 →
          ∃ e, exec (.regWrite 0 off (bytes.map some) false x) s = .next (s.withDev e) ∧ e = { d with mbx := e.mbx }
          ∧ (∀ i (h : i < bytes.length), e.mbx.read (o - 0xC000 + i) = bytes[i])
          ∧ ∀ a, (a < o - 0xC000 ∨ o - 0xC000 + 4 ≤ a) → e.mbx.read a = d.mbx.read a)
        ∧ ∃ e, exec (.regRead 0 off [true, true, true, true] .clean) s = .next (s.withDev e)
          ∧ e.reply = { data := d.mbx.readBytes (o - 0xC000) 4 } ∧ e.regs = d.regs ∧ e.mbx = d.mbx ∧ e.chs = d.chs))

/-! ### The whole machine -/

/-- The memories keep their canonical form: whatever command stands first, and when none does, a step of a state whose memories have it
leaves them so (the memory's layout is the model's, log entry 4). -/
def Obligations.MemoryStaysCanonical : Prop :=
  ∀ s t : State, s.memWf = true → step s = .next t → t.memWf = true

/-- The memories have their canonical form at reset (log entry 4), no command waits there, and the block is not yet started. -/
def Obligations.ResetIsCanonical : Prop :=
  State.reset.memWf = true ∧ State.reset.pending = [] ∧ State.reset.dev.boot.up = false ∧ State.reset.dev.cmds = []

/-- Every command of the table completes: in every state, its meaning answers a next state, and no meaning touches the queue of commands
that wait (log entry 5). -/
def Obligations.EveryCommandCompletes : Prop :=
  ∀ (c : Instr) (s : State), ∃ t, exec c s = .next t ∧ t.pending = s.pending
end

