-- ==== Sys2Proof/Laws/State.lean ====
section
/-!
SUPPORT. One lemma for each field and each of the updates that every meaning is built from: what the update leaves alone,
and what it changes.
-/
namespace Sys2Proof.Machine

/-! ### `State.withDev` -/

@[simp] theorem State.withDev_dev (s : State) (d : Dev) : (s.withDev d).dev = d := rfl
@[simp] theorem State.withDev_mem (s : State) (d : Dev) : (s.withDev d).mem = s.mem := rfl
@[simp] theorem State.withDev_pending (s : State) (d : Dev) : (s.withDev d).pending = s.pending := rfl
@[simp] theorem State.withDev_withDev (s : State) (d e : Dev) : (s.withDev d).withDev e = s.withDev e := rfl

/-! ### `Dev.set`: every field but `regs` -/

@[simp] theorem Dev.set_time (d : Dev) (f : Fld) (n i v : Nat) : (d.set f n i v).time = d.time := rfl
@[simp] theorem Dev.set_chs (d : Dev) (f : Fld) (n i v : Nat) : (d.set f n i v).chs = d.chs := rfl
@[simp] theorem Dev.set_ev (d : Dev) (f : Fld) (n i v : Nat) : (d.set f n i v).ev = d.ev := rfl
@[simp] theorem Dev.set_porter (d : Dev) (f : Fld) (n i v : Nat) : (d.set f n i v).porter = d.porter := rfl
@[simp] theorem Dev.set_power (d : Dev) (f : Fld) (n i v : Nat) : (d.set f n i v).power = d.power := rfl
@[simp] theorem Dev.set_mason (d : Dev) (f : Fld) (n i v : Nat) : (d.set f n i v).mason = d.mason := rfl
@[simp] theorem Dev.set_sram (d : Dev) (f : Fld) (n i v : Nat) : (d.set f n i v).sram = d.sram := rfl
@[simp] theorem Dev.set_flash (d : Dev) (f : Fld) (n i v : Nat) : (d.set f n i v).flash = d.flash := rfl
@[simp] theorem Dev.set_port (d : Dev) (f : Fld) (n i v : Nat) : (d.set f n i v).port = d.port := rfl
@[simp] theorem Dev.set_boot (d : Dev) (f : Fld) (n i v : Nat) : (d.set f n i v).boot = d.boot := rfl
@[simp] theorem Dev.set_bench (d : Dev) (f : Fld) (n i v : Nat) : (d.set f n i v).bench = d.bench := rfl
@[simp] theorem Dev.set_ring (d : Dev) (f : Fld) (n i v : Nat) : (d.set f n i v).ring = d.ring := rfl
@[simp] theorem Dev.set_reply (d : Dev) (f : Fld) (n i v : Nat) : (d.set f n i v).reply = d.reply := rfl
@[simp] theorem Dev.set_out (d : Dev) (f : Fld) (n i v : Nat) : (d.set f n i v).out = d.out := rfl
@[simp] theorem Dev.set_cmds (d : Dev) (f : Fld) (n i v : Nat) : (d.set f n i v).cmds = d.cmds := rfl
@[simp] theorem Dev.set_rung (d : Dev) (f : Fld) (n i v : Nat) : (d.set f n i v).rung = d.rung := rfl
@[simp] theorem Dev.set_ownWait (d : Dev) (f : Fld) (n i v : Nat) : (d.set f n i v).ownWait = d.ownWait := rfl
@[simp] theorem Dev.set_dmaLast (d : Dev) (f : Fld) (n i v : Nat) : (d.set f n i v).dmaLast = d.dmaLast := rfl
@[simp] theorem Dev.set_groups (d : Dev) (f : Fld) (n i v : Nat) : (d.set f n i v).groups = d.groups := rfl
@[simp] theorem Dev.set_mbx (d : Dev) (f : Fld) (n i v : Nat) : (d.set f n i v).mbx = d.mbx := rfl
@[simp] theorem Dev.set_actSeq (d : Dev) (f : Fld) (n i v : Nat) : (d.set f n i v).actSeq = d.actSeq := rfl
@[simp] theorem Dev.set_noteSeq (d : Dev) (f : Fld) (n i v : Nat) : (d.set f n i v).noteSeq = d.noteSeq := rfl
@[simp] theorem Dev.set_fresh (d : Dev) (f : Fld) (n i v : Nat) : (d.set f n i v).fresh = d.fresh := rfl

/-! ### `Dev.onCh`: every field but `chs` -/

@[simp] theorem Dev.onCh_regs (d : Dev) (n : Fin 8) (f : Chan → Chan) : (d.onCh n f).regs = d.regs := rfl
@[simp] theorem Dev.onCh_time (d : Dev) (n : Fin 8) (f : Chan → Chan) : (d.onCh n f).time = d.time := rfl
@[simp] theorem Dev.onCh_ev (d : Dev) (n : Fin 8) (f : Chan → Chan) : (d.onCh n f).ev = d.ev := rfl
@[simp] theorem Dev.onCh_porter (d : Dev) (n : Fin 8) (f : Chan → Chan) : (d.onCh n f).porter = d.porter := rfl
@[simp] theorem Dev.onCh_power (d : Dev) (n : Fin 8) (f : Chan → Chan) : (d.onCh n f).power = d.power := rfl
@[simp] theorem Dev.onCh_mason (d : Dev) (n : Fin 8) (f : Chan → Chan) : (d.onCh n f).mason = d.mason := rfl
@[simp] theorem Dev.onCh_sram (d : Dev) (n : Fin 8) (f : Chan → Chan) : (d.onCh n f).sram = d.sram := rfl
@[simp] theorem Dev.onCh_flash (d : Dev) (n : Fin 8) (f : Chan → Chan) : (d.onCh n f).flash = d.flash := rfl
@[simp] theorem Dev.onCh_port (d : Dev) (n : Fin 8) (f : Chan → Chan) : (d.onCh n f).port = d.port := rfl
@[simp] theorem Dev.onCh_boot (d : Dev) (n : Fin 8) (f : Chan → Chan) : (d.onCh n f).boot = d.boot := rfl
@[simp] theorem Dev.onCh_bench (d : Dev) (n : Fin 8) (f : Chan → Chan) : (d.onCh n f).bench = d.bench := rfl
@[simp] theorem Dev.onCh_ring (d : Dev) (n : Fin 8) (f : Chan → Chan) : (d.onCh n f).ring = d.ring := rfl
@[simp] theorem Dev.onCh_reply (d : Dev) (n : Fin 8) (f : Chan → Chan) : (d.onCh n f).reply = d.reply := rfl
@[simp] theorem Dev.onCh_out (d : Dev) (n : Fin 8) (f : Chan → Chan) : (d.onCh n f).out = d.out := rfl
@[simp] theorem Dev.onCh_cmds (d : Dev) (n : Fin 8) (f : Chan → Chan) : (d.onCh n f).cmds = d.cmds := rfl
@[simp] theorem Dev.onCh_rung (d : Dev) (n : Fin 8) (f : Chan → Chan) : (d.onCh n f).rung = d.rung := rfl
@[simp] theorem Dev.onCh_ownWait (d : Dev) (n : Fin 8) (f : Chan → Chan) : (d.onCh n f).ownWait = d.ownWait := rfl
@[simp] theorem Dev.onCh_dmaLast (d : Dev) (n : Fin 8) (f : Chan → Chan) : (d.onCh n f).dmaLast = d.dmaLast := rfl
@[simp] theorem Dev.onCh_groups (d : Dev) (n : Fin 8) (f : Chan → Chan) : (d.onCh n f).groups = d.groups := rfl
@[simp] theorem Dev.onCh_mbx (d : Dev) (n : Fin 8) (f : Chan → Chan) : (d.onCh n f).mbx = d.mbx := rfl
@[simp] theorem Dev.onCh_actSeq (d : Dev) (n : Fin 8) (f : Chan → Chan) : (d.onCh n f).actSeq = d.actSeq := rfl
@[simp] theorem Dev.onCh_noteSeq (d : Dev) (n : Fin 8) (f : Chan → Chan) : (d.onCh n f).noteSeq = d.noteSeq := rfl
@[simp] theorem Dev.onCh_fresh (d : Dev) (n : Fin 8) (f : Chan → Chan) : (d.onCh n f).fresh = d.fresh := rfl

/-! ### `Dev.emit`: every field but `out` -/

@[simp] theorem Dev.emit_regs (d : Dev) (o : Out) : (d.emit o).regs = d.regs := rfl
@[simp] theorem Dev.emit_time (d : Dev) (o : Out) : (d.emit o).time = d.time := rfl
@[simp] theorem Dev.emit_chs (d : Dev) (o : Out) : (d.emit o).chs = d.chs := rfl
@[simp] theorem Dev.emit_ev (d : Dev) (o : Out) : (d.emit o).ev = d.ev := rfl
@[simp] theorem Dev.emit_porter (d : Dev) (o : Out) : (d.emit o).porter = d.porter := rfl
@[simp] theorem Dev.emit_power (d : Dev) (o : Out) : (d.emit o).power = d.power := rfl
@[simp] theorem Dev.emit_mason (d : Dev) (o : Out) : (d.emit o).mason = d.mason := rfl
@[simp] theorem Dev.emit_sram (d : Dev) (o : Out) : (d.emit o).sram = d.sram := rfl
@[simp] theorem Dev.emit_flash (d : Dev) (o : Out) : (d.emit o).flash = d.flash := rfl
@[simp] theorem Dev.emit_port (d : Dev) (o : Out) : (d.emit o).port = d.port := rfl
@[simp] theorem Dev.emit_boot (d : Dev) (o : Out) : (d.emit o).boot = d.boot := rfl
@[simp] theorem Dev.emit_bench (d : Dev) (o : Out) : (d.emit o).bench = d.bench := rfl
@[simp] theorem Dev.emit_ring (d : Dev) (o : Out) : (d.emit o).ring = d.ring := rfl
@[simp] theorem Dev.emit_reply (d : Dev) (o : Out) : (d.emit o).reply = d.reply := rfl
@[simp] theorem Dev.emit_cmds (d : Dev) (o : Out) : (d.emit o).cmds = d.cmds := rfl
@[simp] theorem Dev.emit_rung (d : Dev) (o : Out) : (d.emit o).rung = d.rung := rfl
@[simp] theorem Dev.emit_ownWait (d : Dev) (o : Out) : (d.emit o).ownWait = d.ownWait := rfl
@[simp] theorem Dev.emit_dmaLast (d : Dev) (o : Out) : (d.emit o).dmaLast = d.dmaLast := rfl
@[simp] theorem Dev.emit_groups (d : Dev) (o : Out) : (d.emit o).groups = d.groups := rfl
@[simp] theorem Dev.emit_mbx (d : Dev) (o : Out) : (d.emit o).mbx = d.mbx := rfl
@[simp] theorem Dev.emit_actSeq (d : Dev) (o : Out) : (d.emit o).actSeq = d.actSeq := rfl
@[simp] theorem Dev.emit_noteSeq (d : Dev) (o : Out) : (d.emit o).noteSeq = d.noteSeq := rfl
@[simp] theorem Dev.emit_fresh (d : Dev) (o : Out) : (d.emit o).fresh = d.fresh := rfl

/-! ### `Dev.free`: every field but `fresh` -/

@[simp] theorem Dev.free_regs (d : Dev) : d.free.2.regs = d.regs := rfl
@[simp] theorem Dev.free_time (d : Dev) : d.free.2.time = d.time := rfl
@[simp] theorem Dev.free_chs (d : Dev) : d.free.2.chs = d.chs := rfl
@[simp] theorem Dev.free_ev (d : Dev) : d.free.2.ev = d.ev := rfl
@[simp] theorem Dev.free_porter (d : Dev) : d.free.2.porter = d.porter := rfl
@[simp] theorem Dev.free_power (d : Dev) : d.free.2.power = d.power := rfl
@[simp] theorem Dev.free_mason (d : Dev) : d.free.2.mason = d.mason := rfl
@[simp] theorem Dev.free_sram (d : Dev) : d.free.2.sram = d.sram := rfl
@[simp] theorem Dev.free_flash (d : Dev) : d.free.2.flash = d.flash := rfl
@[simp] theorem Dev.free_port (d : Dev) : d.free.2.port = d.port := rfl
@[simp] theorem Dev.free_boot (d : Dev) : d.free.2.boot = d.boot := rfl
@[simp] theorem Dev.free_bench (d : Dev) : d.free.2.bench = d.bench := rfl
@[simp] theorem Dev.free_ring (d : Dev) : d.free.2.ring = d.ring := rfl
@[simp] theorem Dev.free_reply (d : Dev) : d.free.2.reply = d.reply := rfl
@[simp] theorem Dev.free_out (d : Dev) : d.free.2.out = d.out := rfl
@[simp] theorem Dev.free_cmds (d : Dev) : d.free.2.cmds = d.cmds := rfl
@[simp] theorem Dev.free_rung (d : Dev) : d.free.2.rung = d.rung := rfl
@[simp] theorem Dev.free_ownWait (d : Dev) : d.free.2.ownWait = d.ownWait := rfl
@[simp] theorem Dev.free_dmaLast (d : Dev) : d.free.2.dmaLast = d.dmaLast := rfl
@[simp] theorem Dev.free_groups (d : Dev) : d.free.2.groups = d.groups := rfl
@[simp] theorem Dev.free_mbx (d : Dev) : d.free.2.mbx = d.mbx := rfl
@[simp] theorem Dev.free_actSeq (d : Dev) : d.free.2.actSeq = d.actSeq := rfl
@[simp] theorem Dev.free_noteSeq (d : Dev) : d.free.2.noteSeq = d.noteSeq := rfl

/-! ### `Dev.freeBit`: every field but `fresh` -/

@[simp] theorem Dev.freeBit_regs (d : Dev) : d.freeBit.2.regs = d.regs := rfl
@[simp] theorem Dev.freeBit_time (d : Dev) : d.freeBit.2.time = d.time := rfl
@[simp] theorem Dev.freeBit_chs (d : Dev) : d.freeBit.2.chs = d.chs := rfl
@[simp] theorem Dev.freeBit_ev (d : Dev) : d.freeBit.2.ev = d.ev := rfl
@[simp] theorem Dev.freeBit_porter (d : Dev) : d.freeBit.2.porter = d.porter := rfl
@[simp] theorem Dev.freeBit_power (d : Dev) : d.freeBit.2.power = d.power := rfl
@[simp] theorem Dev.freeBit_mason (d : Dev) : d.freeBit.2.mason = d.mason := rfl
@[simp] theorem Dev.freeBit_sram (d : Dev) : d.freeBit.2.sram = d.sram := rfl
@[simp] theorem Dev.freeBit_flash (d : Dev) : d.freeBit.2.flash = d.flash := rfl
@[simp] theorem Dev.freeBit_port (d : Dev) : d.freeBit.2.port = d.port := rfl
@[simp] theorem Dev.freeBit_boot (d : Dev) : d.freeBit.2.boot = d.boot := rfl
@[simp] theorem Dev.freeBit_bench (d : Dev) : d.freeBit.2.bench = d.bench := rfl
@[simp] theorem Dev.freeBit_ring (d : Dev) : d.freeBit.2.ring = d.ring := rfl
@[simp] theorem Dev.freeBit_reply (d : Dev) : d.freeBit.2.reply = d.reply := rfl
@[simp] theorem Dev.freeBit_out (d : Dev) : d.freeBit.2.out = d.out := rfl
@[simp] theorem Dev.freeBit_cmds (d : Dev) : d.freeBit.2.cmds = d.cmds := rfl
@[simp] theorem Dev.freeBit_rung (d : Dev) : d.freeBit.2.rung = d.rung := rfl
@[simp] theorem Dev.freeBit_ownWait (d : Dev) : d.freeBit.2.ownWait = d.ownWait := rfl
@[simp] theorem Dev.freeBit_dmaLast (d : Dev) : d.freeBit.2.dmaLast = d.dmaLast := rfl
@[simp] theorem Dev.freeBit_groups (d : Dev) : d.freeBit.2.groups = d.groups := rfl
@[simp] theorem Dev.freeBit_mbx (d : Dev) : d.freeBit.2.mbx = d.mbx := rfl
@[simp] theorem Dev.freeBit_actSeq (d : Dev) : d.freeBit.2.actSeq = d.actSeq := rfl
@[simp] theorem Dev.freeBit_noteSeq (d : Dev) : d.freeBit.2.noteSeq = d.noteSeq := rfl

/-! ### `Dev.live`: every field but `porter` -/

@[simp] theorem Dev.live_regs (d : Dev) (b : Nat) (on : Bool) : (d.live b on).regs = d.regs := rfl
@[simp] theorem Dev.live_time (d : Dev) (b : Nat) (on : Bool) : (d.live b on).time = d.time := rfl
@[simp] theorem Dev.live_chs (d : Dev) (b : Nat) (on : Bool) : (d.live b on).chs = d.chs := rfl
@[simp] theorem Dev.live_ev (d : Dev) (b : Nat) (on : Bool) : (d.live b on).ev = d.ev := rfl
@[simp] theorem Dev.live_power (d : Dev) (b : Nat) (on : Bool) : (d.live b on).power = d.power := rfl
@[simp] theorem Dev.live_mason (d : Dev) (b : Nat) (on : Bool) : (d.live b on).mason = d.mason := rfl
@[simp] theorem Dev.live_sram (d : Dev) (b : Nat) (on : Bool) : (d.live b on).sram = d.sram := rfl
@[simp] theorem Dev.live_flash (d : Dev) (b : Nat) (on : Bool) : (d.live b on).flash = d.flash := rfl
@[simp] theorem Dev.live_port (d : Dev) (b : Nat) (on : Bool) : (d.live b on).port = d.port := rfl
@[simp] theorem Dev.live_boot (d : Dev) (b : Nat) (on : Bool) : (d.live b on).boot = d.boot := rfl
@[simp] theorem Dev.live_bench (d : Dev) (b : Nat) (on : Bool) : (d.live b on).bench = d.bench := rfl
@[simp] theorem Dev.live_ring (d : Dev) (b : Nat) (on : Bool) : (d.live b on).ring = d.ring := rfl
@[simp] theorem Dev.live_reply (d : Dev) (b : Nat) (on : Bool) : (d.live b on).reply = d.reply := rfl
@[simp] theorem Dev.live_out (d : Dev) (b : Nat) (on : Bool) : (d.live b on).out = d.out := rfl
@[simp] theorem Dev.live_cmds (d : Dev) (b : Nat) (on : Bool) : (d.live b on).cmds = d.cmds := rfl
@[simp] theorem Dev.live_rung (d : Dev) (b : Nat) (on : Bool) : (d.live b on).rung = d.rung := rfl
@[simp] theorem Dev.live_ownWait (d : Dev) (b : Nat) (on : Bool) : (d.live b on).ownWait = d.ownWait := rfl
@[simp] theorem Dev.live_dmaLast (d : Dev) (b : Nat) (on : Bool) : (d.live b on).dmaLast = d.dmaLast := rfl
@[simp] theorem Dev.live_groups (d : Dev) (b : Nat) (on : Bool) : (d.live b on).groups = d.groups := rfl
@[simp] theorem Dev.live_mbx (d : Dev) (b : Nat) (on : Bool) : (d.live b on).mbx = d.mbx := rfl
@[simp] theorem Dev.live_actSeq (d : Dev) (b : Nat) (on : Bool) : (d.live b on).actSeq = d.actSeq := rfl
@[simp] theorem Dev.live_noteSeq (d : Dev) (b : Nat) (on : Bool) : (d.live b on).noteSeq = d.noteSeq := rfl
@[simp] theorem Dev.live_fresh (d : Dev) (b : Nat) (on : Bool) : (d.live b on).fresh = d.fresh := rfl

/-! ### `Dev.publish`: every field but `ring` -/

@[simp] theorem Dev.publish_regs (d : Dev) (k : Nat) (ws : List Nat) : (d.publish k ws).regs = d.regs := rfl
@[simp] theorem Dev.publish_time (d : Dev) (k : Nat) (ws : List Nat) : (d.publish k ws).time = d.time := rfl
@[simp] theorem Dev.publish_chs (d : Dev) (k : Nat) (ws : List Nat) : (d.publish k ws).chs = d.chs := rfl
@[simp] theorem Dev.publish_ev (d : Dev) (k : Nat) (ws : List Nat) : (d.publish k ws).ev = d.ev := rfl
@[simp] theorem Dev.publish_porter (d : Dev) (k : Nat) (ws : List Nat) : (d.publish k ws).porter = d.porter := rfl
@[simp] theorem Dev.publish_power (d : Dev) (k : Nat) (ws : List Nat) : (d.publish k ws).power = d.power := rfl
@[simp] theorem Dev.publish_mason (d : Dev) (k : Nat) (ws : List Nat) : (d.publish k ws).mason = d.mason := rfl
@[simp] theorem Dev.publish_sram (d : Dev) (k : Nat) (ws : List Nat) : (d.publish k ws).sram = d.sram := rfl
@[simp] theorem Dev.publish_flash (d : Dev) (k : Nat) (ws : List Nat) : (d.publish k ws).flash = d.flash := rfl
@[simp] theorem Dev.publish_port (d : Dev) (k : Nat) (ws : List Nat) : (d.publish k ws).port = d.port := rfl
@[simp] theorem Dev.publish_boot (d : Dev) (k : Nat) (ws : List Nat) : (d.publish k ws).boot = d.boot := rfl
@[simp] theorem Dev.publish_bench (d : Dev) (k : Nat) (ws : List Nat) : (d.publish k ws).bench = d.bench := rfl
@[simp] theorem Dev.publish_reply (d : Dev) (k : Nat) (ws : List Nat) : (d.publish k ws).reply = d.reply := rfl
@[simp] theorem Dev.publish_out (d : Dev) (k : Nat) (ws : List Nat) : (d.publish k ws).out = d.out := rfl
@[simp] theorem Dev.publish_cmds (d : Dev) (k : Nat) (ws : List Nat) : (d.publish k ws).cmds = d.cmds := rfl
@[simp] theorem Dev.publish_rung (d : Dev) (k : Nat) (ws : List Nat) : (d.publish k ws).rung = d.rung := rfl
@[simp] theorem Dev.publish_ownWait (d : Dev) (k : Nat) (ws : List Nat) : (d.publish k ws).ownWait = d.ownWait := rfl
@[simp] theorem Dev.publish_dmaLast (d : Dev) (k : Nat) (ws : List Nat) : (d.publish k ws).dmaLast = d.dmaLast := rfl
@[simp] theorem Dev.publish_groups (d : Dev) (k : Nat) (ws : List Nat) : (d.publish k ws).groups = d.groups := rfl
@[simp] theorem Dev.publish_mbx (d : Dev) (k : Nat) (ws : List Nat) : (d.publish k ws).mbx = d.mbx := rfl
@[simp] theorem Dev.publish_actSeq (d : Dev) (k : Nat) (ws : List Nat) : (d.publish k ws).actSeq = d.actSeq := rfl
@[simp] theorem Dev.publish_noteSeq (d : Dev) (k : Nat) (ws : List Nat) : (d.publish k ws).noteSeq = d.noteSeq := rfl
@[simp] theorem Dev.publish_fresh (d : Dev) (k : Nat) (ws : List Nat) : (d.publish k ws).fresh = d.fresh := rfl

/-! ### The fields that these updates do change -/

@[simp] theorem Dev.set_regs (d : Dev) (f : Fld) (n i v : Nat) : (d.set f n i v).regs = d.regs.set f n i v := rfl
@[simp] theorem Dev.emit_out (d : Dev) (o : Out) : (d.emit o).out = d.out ++ [o] := rfl
@[simp] theorem Dev.free_fresh (d : Dev) : d.free.2.fresh = d.fresh + 1 := rfl
@[simp] theorem Dev.freeBit_fresh (d : Dev) : d.freeBit.2.fresh = d.fresh + 1 := rfl
@[simp] theorem Dev.onCh_self (d : Dev) (n : Fin 8) (f : Chan → Chan) : (d.onCh n f).chs[(n : Nat)] = f d.chs[(n : Nat)] := by
  simp [Dev.onCh]
theorem Dev.onCh_same (d : Dev) (n : Fin 8) (f : Chan → Chan) : (d.onCh n f).chs[n] = f d.chs[n] := d.onCh_self n f
theorem Dev.onCh_other (d : Dev) (n m : Fin 8) (f : Chan → Chan) (h : n ≠ m) : (d.onCh n f).chs[m] = d.chs[m] := by
  have h' : (n : Nat) ≠ m := fun e => h (Fin.ext e)
  simp [Dev.onCh, h']

/-! ### Updates that are a `Dev.set` -/

@[simp] theorem Dev.raise_eq (d : Dev) (f : Fld) (n i : Nat) : d.raise f n i = d.set f n i 1 := rfl
@[simp] theorem Dev.clear_eq (d : Dev) (f : Fld) (n i : Nat) : d.clear f n i = d.set f n i 0 := rfl
@[simp] theorem Dev.count_eq (d : Dev) (f : Fld) (n i : Nat) : d.count f n i = d.set f n i (satInc f.w (d.get f n i)) := rfl
@[simp] theorem Dev.countWrap_eq (d : Dev) (f : Fld) (n i : Nat) : d.countWrap f n i = d.set f n i (d.get f n i + 1) := rfl
@[simp] theorem Dev.setBit_eq (d : Dev) (f : Fld) (n i b : Nat) : d.setBit f n i b = d.set f n i (setBitAt (d.get f n i) b) := rfl
@[simp] theorem Dev.clrBit_eq (d : Dev) (f : Fld) (n i b : Nat) : d.clrBit f n i b = d.set f n i (clrBitAt (d.get f n i) b) := rfl
@[simp] theorem Dev.countBy_eq (d : Dev) (k : Nat) (f : Fld) (n i : Nat) :
    d.countBy k f n i = d.set f n i (min (d.get f n i + k) (2 ^ f.w - 1)) := rfl

/-! ### `Dev.get` through updates that leave the registers alone -/

@[simp] theorem Dev.onCh_get (d : Dev) (n : Fin 8) (f : Chan → Chan) (g : Fld) (m j : Nat) : (d.onCh n f).get g m j = d.get g m j := rfl
@[simp] theorem Dev.emit_get (d : Dev) (o : Out) (g : Fld) (m j : Nat) : (d.emit o).get g m j = d.get g m j := rfl
@[simp] theorem Dev.free_get (d : Dev) (g : Fld) (m j : Nat) : d.free.2.get g m j = d.get g m j := rfl
@[simp] theorem Dev.freeBit_get (d : Dev) (g : Fld) (m j : Nat) : d.freeBit.2.get g m j = d.get g m j := rfl
@[simp] theorem Dev.live_get (d : Dev) (b : Nat) (on : Bool) (g : Fld) (m j : Nat) : (d.live b on).get g m j = d.get g m j := rfl
@[simp] theorem Dev.publish_get (d : Dev) (k : Nat) (ws : List Nat) (g : Fld) (m j : Nat) : (d.publish k ws).get g m j = d.get g m j := rfl

end Sys2Proof.Machine
end

