-- ==== Sys2Proof/Laws/Bank.lean ====
section
/-!
SUPPORT. The register bank: a field reads back what was written to it, cut to its width, and every other field is left alone.
-/
namespace Sys2Proof.Machine

theorem Bank.find_insert_same (b : Bank) (q : Key) (v : Nat) : (b.insert q v).find q = some v := by
  induction b with
  | nil => simp [Bank.insert, Bank.find]
  | cons e r ih =>
    obtain ⟨k, u⟩ := e
    by_cases h : k = q
    · simp [Bank.insert, Bank.find, h]
    · by_cases g : Key.before k q = true <;> simp [Bank.insert, Bank.find, h, g, ih]

theorem Bank.find_insert_other (b : Bank) (q p : Key) (v : Nat) (h : q ≠ p) : (b.insert q v).find p = b.find p := by
  induction b with
  | nil => simp [Bank.insert, Bank.find, h]
  | cons e r ih =>
    obtain ⟨k, u⟩ := e
    by_cases hk : k = q
    · simp [Bank.insert, Bank.find, hk, h]
    · by_cases g : Key.before k q = true
      · simp [Bank.insert, Bank.find, hk, g, ih]
      · simp [Bank.insert, Bank.find, hk, g, h]

theorem Bank.find_erase_same (b : Bank) (q : Key) : (b.erase q).find q = none := by
  induction b with
  | nil => rfl
  | cons e r ih =>
    obtain ⟨k, u⟩ := e
    by_cases h : k = q
    · simpa [Bank.erase, h] using ih
    · simpa [Bank.erase, Bank.find, h] using ih

theorem Bank.find_erase_other (b : Bank) (q p : Key) (h : q ≠ p) : (b.erase q).find p = b.find p := by
  induction b with
  | nil => rfl
  | cons e r ih =>
    obtain ⟨k, u⟩ := e
    by_cases hk : k = q
    · subst hk; simpa [Bank.erase, Bank.find, h] using ih
    · by_cases hp : k = p
      · simp [Bank.erase, Bank.find, hp, Ne.symm h]
      · simpa [Bank.erase, Bank.find, hk, hp] using ih

/-- A field reads back what was written, cut to its width. -/
@[simp] theorem Bank.get_set_same (b : Bank) (f : Fld) (n i v : Nat) : (b.set f n i v).get f n i = v % 2 ^ f.w := by
  unfold Bank.set Bank.get
  split
  · rename_i h; simp [Bank.find_erase_same, h]
  · simp [Bank.find_insert_same]

/-- A write leaves every other field, and the same field at other indices, alone. -/
theorem Bank.get_set_other (b : Bank) (f g : Fld) (n i m j v : Nat) (h : (f.id, n, i) ≠ (g.id, m, j)) :
    (b.set f n i v).get g m j = b.get g m j := by
  unfold Bank.set Bank.get
  split
  · rw [Bank.find_erase_other _ _ _ h]
  · rw [Bank.find_insert_other _ _ _ _ h]

@[simp] theorem Dev.get_set_same (d : Dev) (f : Fld) (n i v : Nat) : (d.set f n i v).get f n i = v % 2 ^ f.w :=
  Bank.get_set_same ..

theorem Dev.get_set_other (d : Dev) (f g : Fld) (n i m j v : Nat) (h : (f.id, n, i) ≠ (g.id, m, j)) :
    (d.set f n i v).get g m j = d.get g m j := Bank.get_set_other _ _ _ _ _ _ _ _ h

/-- A write leaves every field of another number alone. -/
theorem Dev.get_set_id (d : Dev) (f g : Fld) (n i m j v : Nat) (h : f.id ≠ g.id) :
    (d.set f n i v).get g m j = d.get g m j := d.get_set_other _ _ _ _ _ _ _ (by simp [h])

/-- A write leaves every field at another first index alone. -/
theorem Dev.get_set_idx (d : Dev) (f g : Fld) (n i m j v : Nat) (h : n ≠ m) :
    (d.set f n i v).get g m j = d.get g m j := d.get_set_other _ _ _ _ _ _ _ (by simp [h])

end Sys2Proof.Machine
end

