-- ==== Sys2Proof/Laws/Frames.lean ====
section
/-!
SUPPORT. What each shared operation can change (interrupts, producers, faults, notices, refused requests, loops over the
channels, completions), said once, and how the frames of Sys2Proof.Safety compose.
-/
namespace Sys2Proof.Machine
open Reg

/-! ### Frames over the register bank -/

theorem Dev.regsBut_refl (d : Dev) (ks : List Key) : d.regsBut d ks := fun _ _ _ _ => rfl

theorem Dev.regsBut_set {d e : Dev} {ks : List Key} (f : Fld) (n i v : Nat) (h : d.regsBut e ks) (hk : f.at n i ∈ ks) :
    d.regsBut (e.set f n i v) ks := by
  intro g m j hg
  rw [Dev.get_set_other _ _ _ _ _ _ _ _ (fun c => hg (c ▸ hk))]
  exact h g m j hg

theorem Dev.regsBut_of_regs {d e e' : Dev} {ks : List Key} (h : d.regsBut e ks) (hr : e'.regs = e.regs) : d.regsBut e' ks := by
  intro g m j hg
  rw [← h g m j hg]
  simp [Dev.get, hr]

theorem Dev.regsBut_trans {d e f : Dev} {ks : List Key} (h : d.regsBut e ks) (h' : e.regsBut f ks) : d.regsBut f ks :=
  fun g m j hg => (h' g m j hg).trans (h g m j hg)

theorem Dev.regsBut_mono {d e : Dev} {ks ls : List Key} (h : d.regsBut e ks) (hs : ∀ k ∈ ks, k ∈ ls) : d.regsBut e ls :=
  fun g m j hg => h g m j (fun c => hg (hs _ c))

theorem Dev.onlyRegs_refl (d : Dev) (ks : List Key) : d.onlyRegs d ks := ⟨rfl, d.regsBut_refl ks⟩

theorem Dev.onlyRegs_set {d e : Dev} {ks : List Key} (f : Fld) (n i v : Nat) (h : d.onlyRegs e ks) (hk : f.at n i ∈ ks) :
    d.onlyRegs (e.set f n i v) ks :=
  ⟨by rw [h.1]; rfl, Dev.regsBut_set f n i v h.2 hk⟩

/-- The same registers read the same. -/
theorem Dev.get_of_regs {d e : Dev} (h : e.regs = d.regs) (g : Fld) (m j : Nat) : e.get g m j = d.get g m j := by
  simp [Dev.get, h]

/-! ### Loops over the channels -/

/-- What every turn of a loop over the channels keeps, the loop keeps. -/
theorem Dev.eachCh_keeps (P : Dev → Prop) (f : Fin 8 → Dev → Dev) (d : Dev) (h : ∀ n d, P d → P (f n d)) (hd : P d) :
    P (d.eachCh f) := by
  have go : ∀ (l : List (Fin 8)) (d : Dev), P d → P (l.foldl (fun e n => f n e) d) := by
    intro l
    induction l with
    | nil => intro d hd; exact hd
    | cons n l ih => intro d hd; exact ih _ (h n d hd)
  exact go allCh d hd

/-- What every turn of a loop keeps, the loop keeps. -/
theorem foldl_keeps {α β : Type} (P : β → Prop) (f : β → α → β) (l : List α) (b : β) (h : ∀ b a, P b → P (f b a)) (hb : P b) :
    P (l.foldl f b) := by
  induction l generalizing b with
  | nil => exact hb
  | cons a l ih => exact ih _ (h b a hb)

/-! ### `Dev.vector` changes only: out, port -/

@[simp] theorem Dev.vector_regs (d : Dev) (v : Nat) : (d.vector v).regs = d.regs := by
  unfold Dev.vector; split
  · rfl
  · split <;> rfl
@[simp] theorem Dev.vector_time (d : Dev) (v : Nat) : (d.vector v).time = d.time := by
  unfold Dev.vector; split
  · rfl
  · split <;> rfl
@[simp] theorem Dev.vector_chs (d : Dev) (v : Nat) : (d.vector v).chs = d.chs := by
  unfold Dev.vector; split
  · rfl
  · split <;> rfl
@[simp] theorem Dev.vector_ev (d : Dev) (v : Nat) : (d.vector v).ev = d.ev := by
  unfold Dev.vector; split
  · rfl
  · split <;> rfl
@[simp] theorem Dev.vector_porter (d : Dev) (v : Nat) : (d.vector v).porter = d.porter := by
  unfold Dev.vector; split
  · rfl
  · split <;> rfl
@[simp] theorem Dev.vector_power (d : Dev) (v : Nat) : (d.vector v).power = d.power := by
  unfold Dev.vector; split
  · rfl
  · split <;> rfl
@[simp] theorem Dev.vector_mason (d : Dev) (v : Nat) : (d.vector v).mason = d.mason := by
  unfold Dev.vector; split
  · rfl
  · split <;> rfl
@[simp] theorem Dev.vector_sram (d : Dev) (v : Nat) : (d.vector v).sram = d.sram := by
  unfold Dev.vector; split
  · rfl
  · split <;> rfl
@[simp] theorem Dev.vector_flash (d : Dev) (v : Nat) : (d.vector v).flash = d.flash := by
  unfold Dev.vector; split
  · rfl
  · split <;> rfl
@[simp] theorem Dev.vector_boot (d : Dev) (v : Nat) : (d.vector v).boot = d.boot := by
  unfold Dev.vector; split
  · rfl
  · split <;> rfl
@[simp] theorem Dev.vector_bench (d : Dev) (v : Nat) : (d.vector v).bench = d.bench := by
  unfold Dev.vector; split
  · rfl
  · split <;> rfl
@[simp] theorem Dev.vector_ring (d : Dev) (v : Nat) : (d.vector v).ring = d.ring := by
  unfold Dev.vector; split
  · rfl
  · split <;> rfl
@[simp] theorem Dev.vector_reply (d : Dev) (v : Nat) : (d.vector v).reply = d.reply := by
  unfold Dev.vector; split
  · rfl
  · split <;> rfl
@[simp] theorem Dev.vector_cmds (d : Dev) (v : Nat) : (d.vector v).cmds = d.cmds := by
  unfold Dev.vector; split
  · rfl
  · split <;> rfl
@[simp] theorem Dev.vector_rung (d : Dev) (v : Nat) : (d.vector v).rung = d.rung := by
  unfold Dev.vector; split
  · rfl
  · split <;> rfl
@[simp] theorem Dev.vector_ownWait (d : Dev) (v : Nat) : (d.vector v).ownWait = d.ownWait := by
  unfold Dev.vector; split
  · rfl
  · split <;> rfl
@[simp] theorem Dev.vector_dmaLast (d : Dev) (v : Nat) : (d.vector v).dmaLast = d.dmaLast := by
  unfold Dev.vector; split
  · rfl
  · split <;> rfl
@[simp] theorem Dev.vector_groups (d : Dev) (v : Nat) : (d.vector v).groups = d.groups := by
  unfold Dev.vector; split
  · rfl
  · split <;> rfl
@[simp] theorem Dev.vector_mbx (d : Dev) (v : Nat) : (d.vector v).mbx = d.mbx := by
  unfold Dev.vector; split
  · rfl
  · split <;> rfl
@[simp] theorem Dev.vector_actSeq (d : Dev) (v : Nat) : (d.vector v).actSeq = d.actSeq := by
  unfold Dev.vector; split
  · rfl
  · split <;> rfl
@[simp] theorem Dev.vector_noteSeq (d : Dev) (v : Nat) : (d.vector v).noteSeq = d.noteSeq := by
  unfold Dev.vector; split
  · rfl
  · split <;> rfl
@[simp] theorem Dev.vector_fresh (d : Dev) (v : Nat) : (d.vector v).fresh = d.fresh := by
  unfold Dev.vector; split
  · rfl
  · split <;> rfl
@[simp] theorem Dev.vector_get (d : Dev) (v : Nat) (g : Fld) (m j : Nat) : (d.vector v).get g m j = d.get g m j :=
  Dev.get_of_regs (by simp) g m j

/-! ### `Dev.fire` changes only: ev -/

@[simp] theorem Dev.fire_regs (d : Dev) (c : Nat) : (d.fire c).regs = d.regs := by
  unfold Dev.fire; split <;> rfl
@[simp] theorem Dev.fire_time (d : Dev) (c : Nat) : (d.fire c).time = d.time := by
  unfold Dev.fire; split <;> rfl
@[simp] theorem Dev.fire_chs (d : Dev) (c : Nat) : (d.fire c).chs = d.chs := by
  unfold Dev.fire; split <;> rfl
@[simp] theorem Dev.fire_porter (d : Dev) (c : Nat) : (d.fire c).porter = d.porter := by
  unfold Dev.fire; split <;> rfl
@[simp] theorem Dev.fire_power (d : Dev) (c : Nat) : (d.fire c).power = d.power := by
  unfold Dev.fire; split <;> rfl
@[simp] theorem Dev.fire_mason (d : Dev) (c : Nat) : (d.fire c).mason = d.mason := by
  unfold Dev.fire; split <;> rfl
@[simp] theorem Dev.fire_sram (d : Dev) (c : Nat) : (d.fire c).sram = d.sram := by
  unfold Dev.fire; split <;> rfl
@[simp] theorem Dev.fire_flash (d : Dev) (c : Nat) : (d.fire c).flash = d.flash := by
  unfold Dev.fire; split <;> rfl
@[simp] theorem Dev.fire_port (d : Dev) (c : Nat) : (d.fire c).port = d.port := by
  unfold Dev.fire; split <;> rfl
@[simp] theorem Dev.fire_boot (d : Dev) (c : Nat) : (d.fire c).boot = d.boot := by
  unfold Dev.fire; split <;> rfl
@[simp] theorem Dev.fire_bench (d : Dev) (c : Nat) : (d.fire c).bench = d.bench := by
  unfold Dev.fire; split <;> rfl
@[simp] theorem Dev.fire_ring (d : Dev) (c : Nat) : (d.fire c).ring = d.ring := by
  unfold Dev.fire; split <;> rfl
@[simp] theorem Dev.fire_reply (d : Dev) (c : Nat) : (d.fire c).reply = d.reply := by
  unfold Dev.fire; split <;> rfl
@[simp] theorem Dev.fire_out (d : Dev) (c : Nat) : (d.fire c).out = d.out := by
  unfold Dev.fire; split <;> rfl
@[simp] theorem Dev.fire_cmds (d : Dev) (c : Nat) : (d.fire c).cmds = d.cmds := by
  unfold Dev.fire; split <;> rfl
@[simp] theorem Dev.fire_rung (d : Dev) (c : Nat) : (d.fire c).rung = d.rung := by
  unfold Dev.fire; split <;> rfl
@[simp] theorem Dev.fire_ownWait (d : Dev) (c : Nat) : (d.fire c).ownWait = d.ownWait := by
  unfold Dev.fire; split <;> rfl
@[simp] theorem Dev.fire_dmaLast (d : Dev) (c : Nat) : (d.fire c).dmaLast = d.dmaLast := by
  unfold Dev.fire; split <;> rfl
@[simp] theorem Dev.fire_groups (d : Dev) (c : Nat) : (d.fire c).groups = d.groups := by
  unfold Dev.fire; split <;> rfl
@[simp] theorem Dev.fire_mbx (d : Dev) (c : Nat) : (d.fire c).mbx = d.mbx := by
  unfold Dev.fire; split <;> rfl
@[simp] theorem Dev.fire_actSeq (d : Dev) (c : Nat) : (d.fire c).actSeq = d.actSeq := by
  unfold Dev.fire; split <;> rfl
@[simp] theorem Dev.fire_noteSeq (d : Dev) (c : Nat) : (d.fire c).noteSeq = d.noteSeq := by
  unfold Dev.fire; split <;> rfl
@[simp] theorem Dev.fire_fresh (d : Dev) (c : Nat) : (d.fire c).fresh = d.fresh := by
  unfold Dev.fire; split <;> rfl
@[simp] theorem Dev.fire_get (d : Dev) (c : Nat) (g : Fld) (m j : Nat) : (d.fire c).get g m j = d.get g m j :=
  Dev.get_of_regs (by simp) g m j

/-! ### `Dev.fault` changes only: regs, out, port, ev -/

@[simp] theorem Dev.fault_time (d : Dev) (b : Nat) : (d.fault b).time = d.time := by
  unfold Dev.fault; split <;> simp
@[simp] theorem Dev.fault_chs (d : Dev) (b : Nat) : (d.fault b).chs = d.chs := by
  unfold Dev.fault; split <;> simp
@[simp] theorem Dev.fault_porter (d : Dev) (b : Nat) : (d.fault b).porter = d.porter := by
  unfold Dev.fault; split <;> simp
@[simp] theorem Dev.fault_power (d : Dev) (b : Nat) : (d.fault b).power = d.power := by
  unfold Dev.fault; split <;> simp
@[simp] theorem Dev.fault_mason (d : Dev) (b : Nat) : (d.fault b).mason = d.mason := by
  unfold Dev.fault; split <;> simp
@[simp] theorem Dev.fault_sram (d : Dev) (b : Nat) : (d.fault b).sram = d.sram := by
  unfold Dev.fault; split <;> simp
@[simp] theorem Dev.fault_flash (d : Dev) (b : Nat) : (d.fault b).flash = d.flash := by
  unfold Dev.fault; split <;> simp
@[simp] theorem Dev.fault_boot (d : Dev) (b : Nat) : (d.fault b).boot = d.boot := by
  unfold Dev.fault; split <;> simp
@[simp] theorem Dev.fault_bench (d : Dev) (b : Nat) : (d.fault b).bench = d.bench := by
  unfold Dev.fault; split <;> simp
@[simp] theorem Dev.fault_ring (d : Dev) (b : Nat) : (d.fault b).ring = d.ring := by
  unfold Dev.fault; split <;> simp
@[simp] theorem Dev.fault_reply (d : Dev) (b : Nat) : (d.fault b).reply = d.reply := by
  unfold Dev.fault; split <;> simp
@[simp] theorem Dev.fault_cmds (d : Dev) (b : Nat) : (d.fault b).cmds = d.cmds := by
  unfold Dev.fault; split <;> simp
@[simp] theorem Dev.fault_rung (d : Dev) (b : Nat) : (d.fault b).rung = d.rung := by
  unfold Dev.fault; split <;> simp
@[simp] theorem Dev.fault_ownWait (d : Dev) (b : Nat) : (d.fault b).ownWait = d.ownWait := by
  unfold Dev.fault; split <;> simp
@[simp] theorem Dev.fault_dmaLast (d : Dev) (b : Nat) : (d.fault b).dmaLast = d.dmaLast := by
  unfold Dev.fault; split <;> simp
@[simp] theorem Dev.fault_groups (d : Dev) (b : Nat) : (d.fault b).groups = d.groups := by
  unfold Dev.fault; split <;> simp
@[simp] theorem Dev.fault_mbx (d : Dev) (b : Nat) : (d.fault b).mbx = d.mbx := by
  unfold Dev.fault; split <;> simp
@[simp] theorem Dev.fault_actSeq (d : Dev) (b : Nat) : (d.fault b).actSeq = d.actSeq := by
  unfold Dev.fault; split <;> simp
@[simp] theorem Dev.fault_noteSeq (d : Dev) (b : Nat) : (d.fault b).noteSeq = d.noteSeq := by
  unfold Dev.fault; split <;> simp
@[simp] theorem Dev.fault_fresh (d : Dev) (b : Nat) : (d.fault b).fresh = d.fresh := by
  unfold Dev.fault; split <;> simp

/-- A fault is latched once its cause has arisen. -/
theorem Dev.fault_regsBut (d : Dev) (b : Nat) : d.regsBut (d.fault b) [PORTER_FAULT.CAUSE.at] := by
  unfold Dev.fault
  split
  · exact d.regsBut_refl _
  · exact Dev.regsBut_of_regs
      (Dev.regsBut_set PORTER_FAULT.CAUSE 0 0 (setBitAt (d.get PORTER_FAULT.CAUSE) b) (d.regsBut_refl _) (by simp)) (by simp)

/-! ### `Dev.notice` changes only: regs, out, port, mbx, noteSeq -/

@[simp] theorem Dev.notice_time (d : Dev) (code ch : Nat) (ws : List Nat) : (d.notice code ch ws).time = d.time := by
  unfold Dev.notice; dsimp only; split <;> simp
@[simp] theorem Dev.notice_chs (d : Dev) (code ch : Nat) (ws : List Nat) : (d.notice code ch ws).chs = d.chs := by
  unfold Dev.notice; dsimp only; split <;> simp
@[simp] theorem Dev.notice_ev (d : Dev) (code ch : Nat) (ws : List Nat) : (d.notice code ch ws).ev = d.ev := by
  unfold Dev.notice; dsimp only; split <;> simp
@[simp] theorem Dev.notice_porter (d : Dev) (code ch : Nat) (ws : List Nat) : (d.notice code ch ws).porter = d.porter := by
  unfold Dev.notice; dsimp only; split <;> simp
@[simp] theorem Dev.notice_power (d : Dev) (code ch : Nat) (ws : List Nat) : (d.notice code ch ws).power = d.power := by
  unfold Dev.notice; dsimp only; split <;> simp
@[simp] theorem Dev.notice_mason (d : Dev) (code ch : Nat) (ws : List Nat) : (d.notice code ch ws).mason = d.mason := by
  unfold Dev.notice; dsimp only; split <;> simp
@[simp] theorem Dev.notice_sram (d : Dev) (code ch : Nat) (ws : List Nat) : (d.notice code ch ws).sram = d.sram := by
  unfold Dev.notice; dsimp only; split <;> simp
@[simp] theorem Dev.notice_flash (d : Dev) (code ch : Nat) (ws : List Nat) : (d.notice code ch ws).flash = d.flash := by
  unfold Dev.notice; dsimp only; split <;> simp
@[simp] theorem Dev.notice_boot (d : Dev) (code ch : Nat) (ws : List Nat) : (d.notice code ch ws).boot = d.boot := by
  unfold Dev.notice; dsimp only; split <;> simp
@[simp] theorem Dev.notice_bench (d : Dev) (code ch : Nat) (ws : List Nat) : (d.notice code ch ws).bench = d.bench := by
  unfold Dev.notice; dsimp only; split <;> simp
@[simp] theorem Dev.notice_ring (d : Dev) (code ch : Nat) (ws : List Nat) : (d.notice code ch ws).ring = d.ring := by
  unfold Dev.notice; dsimp only; split <;> simp
@[simp] theorem Dev.notice_reply (d : Dev) (code ch : Nat) (ws : List Nat) : (d.notice code ch ws).reply = d.reply := by
  unfold Dev.notice; dsimp only; split <;> simp
@[simp] theorem Dev.notice_cmds (d : Dev) (code ch : Nat) (ws : List Nat) : (d.notice code ch ws).cmds = d.cmds := by
  unfold Dev.notice; dsimp only; split <;> simp
@[simp] theorem Dev.notice_rung (d : Dev) (code ch : Nat) (ws : List Nat) : (d.notice code ch ws).rung = d.rung := by
  unfold Dev.notice; dsimp only; split <;> simp
@[simp] theorem Dev.notice_ownWait (d : Dev) (code ch : Nat) (ws : List Nat) : (d.notice code ch ws).ownWait = d.ownWait := by
  unfold Dev.notice; dsimp only; split <;> simp
@[simp] theorem Dev.notice_dmaLast (d : Dev) (code ch : Nat) (ws : List Nat) : (d.notice code ch ws).dmaLast = d.dmaLast := by
  unfold Dev.notice; dsimp only; split <;> simp
@[simp] theorem Dev.notice_groups (d : Dev) (code ch : Nat) (ws : List Nat) : (d.notice code ch ws).groups = d.groups := by
  unfold Dev.notice; dsimp only; split <;> simp
@[simp] theorem Dev.notice_actSeq (d : Dev) (code ch : Nat) (ws : List Nat) : (d.notice code ch ws).actSeq = d.actSeq := by
  unfold Dev.notice; dsimp only; split <;> simp
@[simp] theorem Dev.notice_fresh (d : Dev) (code ch : Nat) (ws : List Nat) : (d.notice code ch ws).fresh = d.fresh := by
  unfold Dev.notice; dsimp only; split <;> simp

theorem Dev.notice_regsBut (d : Dev) (code ch : Nat) (ws : List Nat) :
    d.regsBut (d.notice code ch ws) [MBX_NOTE_TAIL.TAIL.at, MBX_NOTE_TAIL.LOST.at] := by
  unfold Dev.notice
  dsimp only
  split
  · exact Dev.regsBut_set _ _ _ _ (d.regsBut_refl _) (by simp)
  · exact Dev.regsBut_of_regs
      (Dev.regsBut_set MBX_NOTE_TAIL.TAIL 0 0 (d.get MBX_NOTE_TAIL.TAIL + 1) (d.regsBut_refl _) (by simp)) (by simp)

/-! ### The state of a sequencer shows; an action is queued -/

theorem Dev.showState_onlyRegs (d : Dev) (n : Fin 8) : d.onlyRegs (d.showState n) [SEQ_STAT.STATE.at n] :=
  Dev.onlyRegs_set _ _ _ _ (d.onlyRegs_refl _) (by simp)


end Sys2Proof.Machine
end

