-- ==== Sys2Proof/Laws/Channels.lean ====
section
/-!
SUPPORT. The shared operations that change one channel and nothing else: one lemma each says so.
-/
namespace Sys2Proof.Machine
open Reg

/-- `e` is `d` but for channel n. -/
def Dev.onlyCh (d e : Dev) (n : Fin 8) : Prop := e = { d with chs := e.chs } ∧ d.chsBut e n

theorem Dev.onlyCh_refl (d : Dev) (n : Fin 8) : d.onlyCh d n := ⟨rfl, fun _ _ => rfl⟩

theorem Dev.onlyCh_onCh (d : Dev) (n : Fin 8) (f : Chan → Chan) : d.onlyCh (d.onCh n f) n :=
  ⟨rfl, fun m h => by
    have k : n.val ≠ m.val := fun e => h (Fin.ext e.symm)
    show (d.chs.set n.val _)[m.val] = d.chs[m.val]
    exact Vector.getElem_set_ne _ _ k⟩

theorem Dev.onlyCh_trans {d e f : Dev} {n : Fin 8} (h : d.onlyCh e n) (k : e.onlyCh f n) : d.onlyCh f n := by
  refine ⟨?_, fun m hm => (k.2 m hm).trans (h.2 m hm)⟩
  rw [k.1, h.1]

theorem Dev.onlyCh_regs {d e : Dev} {n : Fin 8} (h : d.onlyCh e n) : e.regs = d.regs := by rw [h.1]

theorem Dev.onlyCh_time {d e : Dev} {n : Fin 8} (h : d.onlyCh e n) : e.time = d.time := by rw [h.1]

/-- A choice between two devices that each differ from `d` in channel n alone. -/
theorem Dev.onlyCh_ite {d a b : Dev} {n : Fin 8} {c : Prop} [Decidable c] (ha : d.onlyCh a n) (hb : d.onlyCh b n) :
    d.onlyCh (if c then a else b) n := by
  split
  · exact ha
  · exact hb

theorem Dev.abortSlot_onlyCh (d : Dev) (n : Fin 8) : d.onlyCh (d.abortSlot n) n := by
  unfold Dev.abortSlot
  split
  · exact d.onlyCh_refl n
  · exact Dev.onlyCh_ite (d.onlyCh_refl n) (d.onlyCh_onCh n _)

theorem Dev.hvDisable_onlyCh (d : Dev) (n : Fin 8) : d.onlyCh (d.hvDisable n) n :=
  Dev.onlyCh_trans (d.onlyCh_onCh n _) (Dev.abortSlot_onlyCh _ n)

theorem Dev.forceNow_onlyCh (d : Dev) (n : Fin 8) : d.onlyCh (d.forceNow n) n :=
  Dev.onlyCh_ite (d.onlyCh_onCh n _) (d.onlyCh_refl n)

theorem Dev.rampDown_onlyCh (d : Dev) (n : Fin 8) (gone : Bool) : d.onlyCh (d.rampDown n gone) n :=
  Dev.onlyCh_trans (Dev.onlyCh_trans (d.onlyCh_onCh n _) (Dev.abortSlot_onlyCh _ n)) (Dev.forceNow_onlyCh _ n)

theorem Dev.rampEnd_onlyCh (d : Dev) (n : Fin 8) : d.onlyCh (d.rampEnd n) n :=
  Dev.onlyCh_ite (Dev.onlyCh_trans (d.onlyCh_onCh n _) (Dev.hvDisable_onlyCh _ n)) (d.onlyCh_refl n)

theorem Dev.quietFollow_onlyCh (d : Dev) (n : Fin 8) : d.onlyCh (d.quietFollow n) n :=
  Dev.onlyCh_ite (d.onlyCh_refl n) (Dev.onlyCh_trans (d.onlyCh_onCh n _) (Dev.forceNow_onlyCh _ n))

/-- While the tick clock runs the outputs follow their quiet settings tick by tick, and at a write nothing changes. -/
@[simp] theorem Dev.quietFollow_ticking {d : Dev} (n : Fin 8) (h : d.ticking = true) : d.quietFollow n = d := if_pos h

theorem Dev.delayBand_onlyCh (d : Dev) (n : Fin 8) (t : Int) : d.onlyCh (d.delayBand n t) n :=
  Dev.onlyCh_ite (d.onlyCh_refl n) (d.onlyCh_onCh n _)

theorem Dev.delayWrite_onlyCh (d : Dev) (n : Fin 8) (r : Nat) : d.onlyCh (d.delayWrite n r) n :=
  Dev.onlyCh_ite (d.onlyCh_refl n) (d.onlyCh_onCh n _)

theorem Dev.delaySwept_onlyCh (d : Dev) (n : Fin 8) (r : Nat) (lanes : List LaneWindow) : d.onlyCh (d.delaySwept n r lanes) n := by
  unfold Dev.delaySwept
  exact d.onlyCh_onCh n _

/-- A command that waits keeps everything but the list of the commands that run. -/
theorem Dev.stay_cmds (d : Dev) (c : Call) (rung own : List (Nat × Nat)) :
    d.stay c rung own = { d with rung := rung, cmds := (d.stay c rung own).cmds } := rfl

end Sys2Proof.Machine
end

