-- ==== Sys2Proof/Laws/Dram.lean ====
section
/-!
SUPPORT. What a request to a rank and an activation of a row can change, said once (R385, R386, R376, R389).
-/
namespace Sys2Proof.Machine
open Reg

/-! ### `Dev.rankWake` changes only regs; `Dev.request` only regs, fresh -/

/-- A woken rank is neither in power-down nor in self-refresh; no other field moves (R385, R386). -/
theorem Dev.rankWake_onlyRegs (d : Dev) (n r : Nat) :
    d.onlyRegs (d.rankWake n r) [DMC_RANKr.PD.at n r, DMC_RANKr.SELF_REF.at n r] := by
  unfold Dev.rankWake Dev.clear
  exact Dev.onlyRegs_set _ _ _ _ (Dev.onlyRegs_set _ _ _ _ (d.onlyRegs_refl _) (by simp)) (by simp)

/-- A request moves the rank's power bits and its source's count of late requests, nothing else (R376, R385, R386). -/
theorem Dev.request_regsBut (d : Dev) (n r p : Nat) : d.regsBut (d.request n r p) (requestKeys n r p) := by
  unfold Dev.request Dev.countBy
  refine Dev.regsBut_set _ _ _ _ (Dev.regsBut_of_regs (Dev.regsBut_mono (d.rankWake_onlyRegs n r).2 ?_) (by simp)) ?_
  · intro k hk
    simp only [List.mem_cons, List.not_mem_nil, or_false] at hk
    rcases hk with rfl | rfl <;> simp [requestKeys]
  · simp [requestKeys]

@[simp] theorem Dev.request_chs (d : Dev) (n r p : Nat) : (d.request n r p).chs = d.chs := rfl
@[simp] theorem Dev.request_time (d : Dev) (n r p : Nat) : (d.request n r p).time = d.time := rfl
@[simp] theorem Dev.request_ev (d : Dev) (n r p : Nat) : (d.request n r p).ev = d.ev := rfl
@[simp] theorem Dev.request_mason (d : Dev) (n r p : Nat) : (d.request n r p).mason = d.mason := rfl
@[simp] theorem Dev.request_sram (d : Dev) (n r p : Nat) : (d.request n r p).sram = d.sram := rfl
@[simp] theorem Dev.request_mbx (d : Dev) (n r p : Nat) : (d.request n r p).mbx = d.mbx := rfl

/-! ### `Dev.activate` changes only regs, the channel's history of rows, mason.hot -/

/-- An activation moves only the records of hot rows of its channel (R389). -/
theorem Dev.activate_regsBut (d : Dev) (n a port : Nat) : d.regsBut (d.activate n a port) (hotKeys n) := by
  unfold Dev.activate
  extract_lets r row was k limit d₁ d₂ d₃
  have h₁ : d.regsBut d₁ (hotKeys n) := Dev.regsBut_of_regs (d.regsBut_refl _) rfl
  have h₂ : d.regsBut d₂ (hotKeys n) := by
    unfold d₂
    split
    · exact Dev.regsBut_set _ _ _ _ (Dev.regsBut_set _ _ _ _ h₁ (by simp [hotKeys])) (by simp [hotKeys])
    · exact h₁
  have h₃ : d.regsBut d₃ (hotKeys n) :=
    Dev.regsBut_set _ _ _ _ (Dev.regsBut_set _ _ _ _ h₂ (by simp [hotKeys])) (by simp [hotKeys])
  split
  · exact h₂
  · split
    · exact h₃
    · split
      · exact Dev.regsBut_of_regs h₃ rfl
      · exact h₃

/-- An activation on one channel leaves the other channels as they are. -/
theorem Dev.activate_other (d : Dev) (n a port : Nat) (m : Fin 8) (h : Fin.ofNat 8 n ≠ m) :
    (d.activate n a port).chs[m] = d.chs[m] := by
  unfold Dev.activate
  extract_lets r row was k limit d₁ d₂ d₃
  have h₁ : d₁.chs[m] = d.chs[m] := Dev.onCh_other d (Fin.ofNat 8 n) m _ h
  have h₂ : d₂.chs[m] = d.chs[m] := by unfold d₂; split <;> exact h₁
  split
  · exact h₂
  · split
    · exact h₂
    · split <;> exact h₂

/-- An access that may activate its row moves no register but those of the request and of the hot rows. -/
theorem Dev.ringRequest_regsBut (d : Dev) (n a : Nat) :
    d.regsBut (d.ringRequest n a) (requestKeys n (d.rankOf (a / 65536)) 3 ++ hotKeys n) := by
  unfold Dev.ringRequest
  split
  · exact d.regsBut_refl _
  · have h : d.regsBut (d.request n (d.rankOf (a / 65536)) 3).freeBit.2
        (requestKeys n (d.rankOf (a / 65536)) 3 ++ hotKeys n) :=
      Dev.regsBut_of_regs (Dev.regsBut_mono (d.request_regsBut n _ 3) (fun _ h => List.mem_append_left _ h)) rfl
    dsimp only
    split
    · exact Dev.regsBut_trans h (Dev.regsBut_mono (Dev.activate_regsBut _ n a 3) (fun _ h => List.mem_append_right _ h))
    · exact h

end Sys2Proof.Machine
end

