-- ==== Sys2Proof/Laws/Memory.lean ====
section
/-!
SUPPORT. Memory: a read after a write, and the canonical form that every memory operation keeps.
-/
namespace Sys2Proof.Machine

theorem Memory.read_insert_same (m : Memory) (a : Nat) (v : BitVec 8) : (m.insert a v).read a = v := by
  induction m with
  | nil => simp [Memory.insert, Memory.read]
  | cons e r ih =>
    obtain ⟨k, u⟩ := e
    by_cases h : k = a
    · simp [Memory.insert, Memory.read, h]
    · by_cases g : k < a <;> simp [Memory.insert, Memory.read, h, g, ih]

theorem Memory.read_insert_other (m : Memory) (a b : Nat) (v : BitVec 8) (h : a ≠ b) : (m.insert a v).read b = m.read b := by
  induction m with
  | nil => simp [Memory.insert, Memory.read, h]
  | cons e r ih =>
    obtain ⟨k, u⟩ := e
    by_cases hk : k = a
    · subst hk; simp [Memory.insert, Memory.read, h]
    · by_cases g : k < a
      · simp [Memory.insert, Memory.read, hk, g, ih]
      · simp [Memory.insert, Memory.read, hk, g, h]

theorem Memory.read_filter_same (m : Memory) (a : Nat) : Memory.read (m.filter (fun c => c.1 ≠ a)) a = Memory.blank := by
  induction m with
  | nil => rfl
  | cons e r ih =>
    obtain ⟨k, u⟩ := e
    by_cases h : k = a
    · simpa [h] using ih
    · simpa [Memory.read, h] using ih

theorem Memory.read_filter_other (m : Memory) (a b : Nat) (h : a ≠ b) :
    Memory.read (m.filter (fun c => c.1 ≠ a)) b = m.read b := by
  induction m with
  | nil => rfl
  | cons e r ih =>
    obtain ⟨k, u⟩ := e
    by_cases hk : k = a
    · subst hk; simpa [Memory.read, h] using ih
    · by_cases hb : k = b
      · simp [Memory.read, hb, Ne.symm h]
      · simpa [Memory.read, hk, hb] using ih

/-- A byte reads back what was written to it. -/
@[simp] theorem Memory.read_write_same (m : Memory) (a : Nat) (v : BitVec 8) : (m.write a v).read a = v := by
  unfold Memory.write
  split
  · rename_i h; rw [Memory.read_filter_same, h]
  · exact Memory.read_insert_same ..

/-- A write leaves every other byte alone. -/
theorem Memory.read_write_other (m : Memory) (a b : Nat) (v : BitVec 8) (h : a ≠ b) : (m.write a v).read b = m.read b := by
  unfold Memory.write
  split
  · exact Memory.read_filter_other _ _ _ h
  · exact Memory.read_insert_other _ _ _ _ h

/-- Writing bytes leaves every byte outside them alone. -/
theorem Memory.read_writeBytes_outside (m : Memory) (a b : Nat) (bs : List (BitVec 8)) (h : b < a ∨ a + bs.length ≤ b) :
    (m.writeBytes a bs).read b = m.read b := by
  induction bs generalizing m a with
  | nil => rfl
  | cons x xs ih =>
    simp only [List.length_cons] at h
    rw [Memory.writeBytes, ih _ _ (by omega), Memory.read_write_other _ _ _ _ (by omega)]

/-- Written bytes read back. -/
theorem Memory.read_writeBytes_inside (m : Memory) (a i : Nat) (bs : List (BitVec 8)) (h : i < bs.length) :
    (m.writeBytes a bs).read (a + i) = bs[i] := by
  induction bs generalizing m a i with
  | nil => simp at h
  | cons x xs ih =>
    cases i with
    | zero =>
      rw [Memory.writeBytes, Memory.read_writeBytes_outside _ _ _ _ (by omega)]
      simp
    | succ i =>
      have h' : i < xs.length := by simpa using h
      have e : a + (i + 1) = (a + 1) + i := by omega
      rw [Memory.writeBytes, e, ih _ _ _ h']
      simp

@[simp] theorem Memory.readBytes_length (m : Memory) (a k : Nat) : (m.readBytes a k).length = k := by
  induction k generalizing a with
  | zero => rfl
  | succ k ih => simp [Memory.readBytes, ih]

/-! ### The canonical form -/

/-- The canonical form as two properties of the list. -/
theorem Memory.rising_iff (m : Memory) : m.rising = true ↔ m.Pairwise (fun a b => a.1 < b.1) := by
  induction m with
  | nil => simp [Memory.rising]
  | cons e r ih =>
    cases r with
    | nil => simp [Memory.rising]
    | cons f r =>
      simp only [Memory.rising, Bool.and_eq_true, decide_eq_true_eq, ih]
      constructor
      · rintro ⟨h, p⟩
        refine List.Pairwise.cons ?_ p
        intro c hc
        rcases List.mem_cons.1 hc with rfl | hc
        · exact h
        · exact Nat.lt_trans h (List.rel_of_pairwise_cons p hc)
      · intro p
        exact ⟨List.rel_of_pairwise_cons p (by simp), (List.pairwise_cons.1 p).2⟩

theorem Memory.wf_iff (m : Memory) :
    m.wf = true ↔ m.Pairwise (fun a b => a.1 < b.1) ∧ ∀ c ∈ m, c.2 ≠ Memory.blank := by
  simp [Memory.wf, Memory.rising_iff]

theorem Memory.mem_insert (m : Memory) (a : Nat) (v : BitVec 8) (c : Host.Cell) (h : c ∈ m.insert a v) :
    c = (a, v) ∨ c ∈ m := by
  induction m with
  | nil => exact .inl (by simpa [Memory.insert] using h)
  | cons e r ih =>
    obtain ⟨k, u⟩ := e
    unfold Memory.insert at h
    split at h
    · rcases List.mem_cons.1 h with h | h
      · exact .inl h
      · exact .inr (List.mem_cons_of_mem _ h)
    · split at h
      · rcases List.mem_cons.1 h with h | h
        · exact .inr (by simp [h])
        · rcases ih h with h | h
          · exact .inl h
          · exact .inr (List.mem_cons_of_mem _ h)
      · rcases List.mem_cons.1 h with h | h
        · exact .inl h
        · exact .inr h

theorem Memory.insert_pairwise (m : Memory) (a : Nat) (v : BitVec 8) (h : m.Pairwise (fun a b => a.1 < b.1)) :
    (m.insert a v).Pairwise (fun a b => a.1 < b.1) := by
  induction m with
  | nil => simp [Memory.insert]
  | cons e r ih =>
    obtain ⟨k, u⟩ := e
    have ⟨hk, hr⟩ := List.pairwise_cons.1 h
    unfold Memory.insert
    split
    · rename_i e; exact List.pairwise_cons.2 ⟨fun c hc => e ▸ hk c hc, hr⟩
    · split
      · rename_i g
        refine List.pairwise_cons.2 ⟨fun c hc => ?_, ih hr⟩
        rcases Memory.mem_insert _ _ _ _ hc with rfl | hc
        · exact g
        · exact hk c hc
      · rename_i n g
        refine List.pairwise_cons.2 ⟨fun c hc => ?_, h⟩
        have hak : a < k := by omega
        rcases List.mem_cons.1 hc with rfl | hc
        · exact hak
        · exact Nat.lt_trans hak (hk c hc)

/-- A write keeps the canonical form. -/
theorem Memory.write_wf (m : Memory) (a : Nat) (v : BitVec 8) (h : m.wf = true) : (m.write a v).wf = true := by
  rw [Memory.wf_iff] at h ⊢
  obtain ⟨p, q⟩ := h
  unfold Memory.write
  split
  · exact ⟨p.filter _, fun c hc => q c (List.mem_filter.1 hc).1⟩
  · rename_i hv
    refine ⟨Memory.insert_pairwise _ _ _ p, fun c hc => ?_⟩
    rcases Memory.mem_insert _ _ _ _ hc with rfl | hc
    · exact hv
    · exact q c hc

/-- Writing bytes keeps the canonical form. -/
theorem Memory.writeBytes_wf (m : Memory) (a : Nat) (bs : List (BitVec 8)) (h : m.wf = true) :
    (m.writeBytes a bs).wf = true := by
  induction bs generalizing m a with
  | nil => exact h
  | cons b bs ih => exact ih _ _ (Memory.write_wf _ _ _ h)

/-- Writing a word keeps the canonical form. -/
theorem Memory.setWord_wf (m : Memory) (a v : Nat) (h : m.wf = true) : (m.setWord a v).wf = true :=
  Memory.writeBytes_wf _ _ _ h

/-- Dropping entries keeps the canonical form. -/
theorem Memory.filter_wf (m : Memory) (p : Host.Cell → Bool) (h : m.wf = true) : Memory.wf (m.filter p) = true := by
  rw [Memory.wf_iff] at h ⊢
  exact ⟨h.1.filter _, fun c hc => h.2 c (List.mem_filter.1 hc).1⟩

/-- The memory after reset has the canonical form. -/
theorem State.reset_mem_wf : State.reset.mem.wf = true := rfl

end Sys2Proof.Machine
end

