-- ==== Sys2Proof/WellFormed.lean ====
section
/-!
DEFINITION. Which commands the outside world can send: what the types of the operands do not already say. A meaning answers
for the others too; nothing in the model rests on this check.
-/
namespace Sys2Proof

/-- Bytes of a BAR (R483): 64 KiB, 64 MiB, 64 MiB. -/
def barSize (bar : Fin 3) : Nat := if bar = 0 then 0x10000 else 0x4000000

/-- A request of `len` bytes lies in its BAR. -/
def inBar (bar : Fin 3) (off len : Nat) : Bool := 1 ≤ len && off + len ≤ barSize bar

/-- The operands of a command are what its sender can send. -/
def Instr.wf : Instr → Bool
  | .regWrite bar off bytes _ _ => inBar bar off.toNat bytes.length && bytes.any Option.isSome
  | .regRead bar off enables _ => inBar bar off.toNat enables.length && enables.any id
  | .barReadTimeout bar off => inBar bar off.toNat 1
  | .bar4Write off bytes => inBar 2 off.toNat bytes.length
  | .i2cRead _ count _ => decide (1 ≤ count)
  | .dmaDescriptorDone _ g _ _ _ => g.length = 8
  | .pageFetchDone _ _ bytes => bytes.length = 65536
  | .ringMsgReceive _ _ bytes _ => decide (1 ≤ bytes.length) && decide (bytes.length ≤ 64)
  | .plumbCommitPhase _ set _ _ _ _ _ => set.length = 128
  | .syncInEdge _ _ width => decide (1 ≤ width)
  | .trigEdge _ _ _ width => decide (1 ≤ width)
  | _ => true

end Sys2Proof
end

