-- ==== Sys2Proof/Tests/Slice0.lean ====
section
/-!
SUPPORT. Tests on small states: which commands the outside world cannot send, the table's words, single steps, and, for every
statement with hypotheses, states that meet them (`witness_` and the statement's name), each clause at the edge of its range.
-/
set_option Elab.async false

namespace Sys2Proof.Tests
open Sys2Proof Sys2Proof.Machine Sys2Proof.Machine.Reg

/-! ### States to test on -/

/-- The block at reset. -/
def cold : Dev := State.reset.dev

/-- The block started and served: nothing holds it in reset, the PLL is locked, the Clerk runs, the host link is up. -/
def live : Dev :=
  { cold with
    boot := { por := false, up := true, locked1 := true, served := true, loaded := true, swept := true }
    port := { up := true, bme := true }
    regs := [(CLK_STAT.LOCK.at, 1), (MBX_CLERK.STATE.at, 1)].foldl (fun b x => b.insert x.1 x.2) cold.regs }

/-- A state of the block with nothing else in it. -/
def alone (d : Dev) : State := { State.reset with dev := d }

/-- The live block as a member of a ring, as the root, as an island. -/
def inRing (st : Nat) : Dev := live.set RING_STAT.STATE 0 0 st

/-- A command in slot 0 of mailbox m, rung: opcode, epoch, arguments. -/
def asked (d : Dev) (m op epoch : Nat) (args : List Nat) : Dev :=
  let put := fun (d : Dev) (k v : Nat) => { d with mbx := d.mbx.setWord (slotWordAt m 0 k) v }
  let d := put (put d 0 (op * 2 ^ 16)) 1 (epoch * 2 ^ 16 + args.length)
  ((List.range args.length).foldl (fun d k => put d (2 + k) (args.getD k 0)) d).ring_ m 0

/-- A block whose mason holds an extent of 16 backed pages from page 0, of the given type, and a want of page 3 on channel 1. -/
def wanting (type : Nat) : Dev :=
  { live with mason := { live.mason with exts := [(0, [0, 0, 16, type + 2 ^ 16, 0, 0, 0, 0])], wants := [⟨1, 3, 0, false, false⟩] } }

/-- The Clerk may take up row `o` in slot 0 of mailbox m, decided. -/
def readyFor (d : Dev) (o : Order) (m : Fin 9) : Bool :=
  d.nextRung m 0 && d.knows m o.op && d.opcodeIn m 0 == o.op && (o.refusal d [] (d.call m 0)).isNone && d.bit MBX_BUSYm.BUSY m 0 0
  && d.ownWait.isEmpty && (decide (8 ≤ m.val) || !d.flag MSN_CHn_STAT.SRAM_ONLY m)

theorem takesUp_of_readyFor (d : Dev) (o : Order) (m : Fin 9) (h : readyFor d o m = true) : d.takesUp [] o m 0 := by
  simp only [readyFor, Bool.and_eq_true, Bool.or_eq_true, beq_iff_eq, Option.isNone_iff_eq_none, List.isEmpty_iff, decide_eq_true_eq,
    Bool.not_eq_true'] at h
  obtain ⟨⟨⟨⟨⟨⟨a, b⟩, c⟩, e⟩, f⟩, g⟩, k⟩ := h
  exact ⟨a, b, c, e, f, g, fun h => k.resolve_left (by omega)⟩

/-- The dev of an outcome; that of reset where there is none. -/
def devOf (o : Host.Outcome State Fault Refusal) : Dev :=
  match o with
  | .next s => s.dev
  | _ => cold

/-! ### Commands that cannot be sent -/

theorem test_wf_accepts : (Instr.crsLenWrite 64).wf = true := by decide
theorem test_wf_regWrite_outside : (Instr.regWrite 0 0xFFFE [some 1, some 2, some 3, some 4] false ⟨true, 0, []⟩).wf = false := by decide
theorem test_wf_regWrite_no_byte : (Instr.regWrite 0 0 [none, none] false ⟨true, 0, []⟩).wf = false := by decide
theorem test_wf_regRead_outside : (Instr.regRead 0 0x10000 [true] .clean).wf = false := by decide
theorem test_wf_timeout_outside : (Instr.barReadTimeout 0 0x10000).wf = false := by decide
theorem test_wf_bar4_outside : (Instr.bar4Write 0x3FFFFFF [1, 2]).wf = false := by decide
theorem test_wf_i2c_nothing : (Instr.i2cRead 0 0 ⟨[], []⟩).wf = false := by decide
theorem test_wf_dma_short : (Instr.dmaDescriptorDone 0 [1] [] false []).wf = false := by decide
theorem test_wf_page_short : (Instr.pageFetchDone 0 0 [1]).wf = false := by decide
theorem test_wf_message_empty : (Instr.ringMsgReceive 0 0 [] true).wf = false := by decide
theorem test_wf_commit_short : (Instr.plumbCommitPhase 0 [] 0 0 false false false).wf = false := by decide
theorem test_wf_sync_width : (Instr.syncInEdge true 0 0).wf = false := by decide
theorem test_wf_trig_width : (Instr.trigEdge 0 true 0 0).wf = false := by decide

/-- The table gives no row bits, so no word spells a command. -/
theorem test_no_word_is_a_command : decodeTableWord 32 0 = none := by decide

/-! ### Single steps -/

/-- A length of 1024 written on a live block lands two courses on (R16, R17); 63 is refused (R15). -/
theorem test_crs_len : (devOf (exec (.crsLenWrite 1024) (alone live))).time.lenPend = some (1024, 2, 0)
    ∧ (devOf (exec (.crsLenWrite 63) (alone live))).flag CRS_STAT.LEN_REJ = true := by decide +kernel
/-- The queue is first in, first out: the front command runs, the rest waits. -/
theorem test_queue : step { alone live with pending := [.lvEnWrite 0 true, .hvEnWrite 1 true] }
    = exec (.lvEnWrite 0 true) { alone live with pending := [.hvEnWrite 1 true] } := by rfl
/-- A tick passes on an empty queue. -/
theorem test_idle_tick : (devOf (step (alone live))).time.tick = 1 := by decide +kernel
/-- A START of a stopped sequencer is ARMED and pending for the joint after next (R100, R109). -/
theorem test_start : (devOf (exec (.seqCmdStart 3) (alone live))).get SEQ_STAT.STATE 3 = 1
    ∧ (devOf (exec (.seqCmdStart 3) (alone live))).flag SEQ_STAT.CMD_PEND 3 = true := by decide +kernel
/-- A byte written over BAR4 into a step table is there (R64, R305). -/
theorem test_bar4 : (match exec (.bar4Write 0x400020 [0x80, 0]) (alone live) with
    | .next s => s.mem
    | _ => []) = [(sramAt 0x400020, 0x80)] := by decide +kernel
/-- The doorbell of a FREE slot rings it; a second one is refused (R497). -/
theorem test_doorbell : (live.ring_ 8 3).rung = [(8, 3)] ∧ ((live.ring_ 8 3).ring_ 8 3).flag MBX_STATm.DB_REJ 8 = true := by decide +kernel
/-- An unknown opcode is answered: its slot is DONE (R499). -/
theorem test_bad_opcode : (devOf (exec (.info 8 0) (alone (asked live 8 0x55 0 [])))).bit MBX_DONEm.DONE 8 0 0 = true := by decide +kernel
/-- The check of a calibration set and of a flash page is the IEEE 802.3 one: its value over the nine digits. -/
theorem test_crc32 : crc32 [0x31, 0x32, 0x33, 0x34, 0x35, 0x36, 0x37, 0x38, 0x39] = 0xCBF43926 := by decide +kernel

/-! ### States that meet the hypotheses of the statements (`EveryCommandCompletes`, `StepRunsTheFrontCommand` and `ResetIsCanonical` have none) -/

theorem witness_IdleStep : (alone live).pending = [] ∧ live.ticking = true ∧ (alone cold).pending = [] ∧ cold.ticking = false
    ∧ ({ live.time with tick := 255 } : Time).clen ≤ 255 + 1 := by decide +kernel

theorem witness_CourseRegisters : 64 % 16 = 0 ∧ 16384 % 16 = 0 ∧ live.lenOpen = true ∧ live.flag CRS_CTRL.LEN_PEND = false
    ∧ (live.set SEQ_STAT.STATE 0 0 2).lenOpen = false := by decide +kernel

theorem witness_SyncEdge : live.ticking = true ∧ live.flag SYNC_CTRL.EDGE = !true ∧ (inRing 3).isMember = true ∧ (inRing 3).ticking = true
    ∧ live.isMember = false ∧ live.syncWindow 0 = some (0, 0) ∧ live.time.winUsed ≠ some 0
    ∧ ({ live with time := { live.time with winUsed := some 0 } } : Dev).syncWindow 255 = some (0, 255)
    ∧ ({ live with time := { live.time with tick := 32 } } : Dev).syncWindow 0 = some (0, 8192)
    ∧ ({ live with time := { live.time with tick := 32 } } : Dev).syncWindow 1 = none
    ∧ ({ live with time := { live.time with tick := 224 } } : Dev).syncWindow 0 = some (1, -8192) := by decide +kernel

theorem witness_ClockEvents : (inRing 4).isRoot = true ∧ (inRing 4).bestCand = none ∧ live.isRoot = false ∧ live.boot.up = true
    ∧ (live.clear CLK_STAT.LOCK).locked = false ∧ live.boot.locked1 = true ∧ cold.boot.locked1 = false ∧ cold.boot.up = false
    ∧ live.locked = true ∧ live.ownWait = [] ∧ (∀ n : Fin 8, live.flag SIEVE_STAT.RUNNING n = false) := by decide +kernel

theorem witness_JointBeginsTheNextCourse : live.ticking = true ∧ live.ring.admission = none ∧ cold.ticking = false := by decide +kernel

theorem witness_CourseQueue : 2 ≤ (2#4).toNat ∧ (8#4).toNat ≤ 8 ∧ (1#4).toNat < 2 ∧ 8 < (9#4).toNat ∧ live.mayLay 7 = true
    ∧ cold.mayLay 7 = false := by decide +kernel

theorem witness_StepTableWrite : (List.replicate 512 (1#8)).length ≤ 512 ∧ (0x3FE00#26).toNat % 0x400000 + 512 ≤ 0x40000
    ∧ 0x2000000 ≤ (0x2000000#26).toNat ∧ (0x40000#26).toNat % 0x400000 + 512 ≤ 0x400000 ∧ 0x40000 ≤ (0x40000#26).toNat % 0x400000
    ∧ 512 < (List.replicate 513 (1#8)).length := by decide +kernel

theorem witness_SequencerCommands : (Instr.seqCmdStop 0, ActKind.stop) ∈ [(Instr.seqCmdStart 0, ActKind.start), (.seqCmdStop 0, .stop), (.seqCmdRestart 0, .restart)]
    ∧ live.getPair SEQ_AT_LO.AT_LO SEQ_AT_HI.AT_HI 0 = 0 ∧ (live.set SEQ_AT_LO.AT_LO 0 0 1).getPair SEQ_AT_LO.AT_LO SEQ_AT_HI.AT_HI 0 < live.time.crs + 2
    ∧ live.time.crs + 2 ^ 24 < (live.set SEQ_AT_LO.AT_LO 0 0 (2 ^ 24 + 1)).getPair SEQ_AT_LO.AT_LO SEQ_AT_HI.AT_HI 0
    ∧ (live.raise SEQ_STAT.CMD_PEND 0).flag SEQ_STAT.CMD_PEND 0 = true ∧ (live.set SEQ_STAT.STATE 0 0 1).get SEQ_STAT.STATE 0 = 1
    ∧ bitsOf (3#32).toNat 0 2 = 3 ∧ 2 ≤ bitsOf (0x8000#32).toNat 14 2 ∧ bitsOf (0x5502#32).toNat 0 2 ≠ 3
    ∧ live.flag SEQ_SNAP.DONE 0 = false ∧ (live.raise SEQ_SNAP.DONE 0).flag SEQ_SNAP.DONE 0 = true := by decide +kernel

/-- A block in which channel 2 has laid the course after the playing one. -/
def laidOne : Dev := devOf (exec (.layCourse 2) (alone live))

theorem witness_Lockstep :
    let d := live.raise SEQ_LS.ON_SPARE 2
    let taken := live.raise SEQ_LS.SPARE_TAKEN 2
    let waits := live.onCh 3 (fun c => { c with badLay := some 5 })
    let runs := taken.onCh 2 (fun c => { c with base := { c.base with mode := .running } })
    live.ticking = true ∧ live.chs[(2 : Fin 8)].badLay = none ∧ d.flag SEQ_LS.ON_SPARE 2 = true ∧ d.flag SEQ_LS.PAIR_RETIRED 2 = false
    ∧ d.get SEQ_STAT.STATE 2 ≠ 2 ∧ (d.set SEQ_STAT.STATE 2 0 1).get SEQ_STAT.STATE 2 ≠ 2 ∧ (d.set SEQ_STAT.STATE 2 0 2).get SEQ_STAT.STATE 2 = 2
    ∧ (d.raise SEQ_LS.PAIR_RETIRED 2).flag SEQ_LS.PAIR_RETIRED 2 = true ∧ live.flag SEQ_LS.ON_SPARE 2 = false
    ∧ live.spareFree 2 = true ∧ live.chs[(2 : Fin 8)].laid = [] ∧ live.shortCourse = false
    ∧ laidOne.spareFree 2 = true ∧ laidOne.chs[(2 : Fin 8)].laid ≠ [] ∧ (laidOne.chs[(2 : Fin 8)].laid.getLast?.map (·.crs)) = some 1
    ∧ laidOne.time.crs = 0 ∧ taken.spareFree 2 = false ∧ waits.spareFree 2 = false ∧ waits.chs[(3 : Fin 8)].badLay ≠ none
    ∧ (taken.chs[(2 : Fin 8)].tip 0).mode = .stopped ∧ (runs.chs[(2 : Fin 8)].tip 0).mode = .running ∧ runs.spareFree 2 = false
    ∧ cold.ticking = false := by decide +kernel

theorem witness_TriggersAndLines :
    let d := (live.setBit TRIG_CTRL.EN 0 0 7).set EVL_SRCn_r.SLOT_LO 5 0 0x8027
    let at_ := fun t : Nat => ({ d with ev := { d.ev with trigLast := [none, none, none, none, none, none, none, some t] }, time := { d.time with abs := 2 } } : Dev)
    let early : Src := ⟨5, 0, 0, 0, 0, 1, true, false⟩
    let later : Src := ⟨5, 0, 0, 0, 0, 2, true, false⟩
    let two := { live with ev := { live.ev with srcs := [later, early] } }
    let dark := { (live.clear CLK_STAT.LOCK) with ev := two.ev }
    let sleeps := { ((live.set PWR_STAT.STATE 0 0 2).set EVL_DSTn_r.SLOT_LO 5 0 0x8008) with ev := two.ev }
    live.power.entry ≠ some 2 ∧ live.ticking = true ∧ d.bit TRIG_CTRL.EN 0 0 7 = true ∧ d.bit TRIG_CTRL.EDGE 0 0 7 = !true ∧ d.linesOf 0x27 = [5]
    ∧ d.ev.trigLast.getD 7 none = none ∧ (at_ 0).ev.trigLast.getD 7 none = some 0 ∧ (0 : Nat) + 512 ≤ (at_ 0).time.abs * 256
    ∧ (at_ 1).time.abs * 256 < 1 + 512 ∧ live.bit TRIG_CTRL.EN 0 0 7 = false ∧ ¬ 2000 ≤ 1999
    ∧ live.ev.srcs.filter (fun y => y.line = 5) = []
    ∧ early ∈ two.ev.srcs ∧ (∀ y ∈ two.ev.srcs, early.capCrs < y.capCrs ∨ (early.capCrs = y.capCrs ∧ early.cap ≤ y.cap))
    ∧ two.time.abs < (two.instant 0 1 0 / 256).toNat + 1 ∧ dark.ticking = false ∧ dark.asleep = false ∧ sleeps.ticking = false ∧ sleeps.asleep = true
    ∧ (∃ r ∈ sleeps.routes 5, r.2.1 ≠ 0x11 ∧ r.2.1 ≠ 0x12) := by decide +kernel

theorem witness_EventLineSlots : prodLegal (0x8009 % 1024) = true ∧ prodLegal (0x800A % 1024) = false ∧ consLegal (0x8008 % 1024) = true
    ∧ consLegal (0x8009 % 1024) = false ∧ bitAt 0x800A 15 = true := by decide +kernel

theorem witness_SystemEvents :
    let four := { live with ev := { live.ev with origs := 4 } }
    let out := { live with ev := { live.ev with out := [(1, ⟨0, 0, 7, 9⟩)] } }
    (inRing 5).islanded = true ∧ live.islanded = false ∧ 4 ≤ four.ev.origs ∧ four.islanded = false ∧ live.ev.origs < 4
    ∧ out.ev.out.find? (fun y => y.1 = 1) = some (1, ⟨0, 0, 7, 9⟩) ∧ out.ev.out.find? (fun y => y.1 = 0) = none
    ∧ (inRing 3).islanded = false ∧ (inRing 3).isMember = true ∧ (⟨1, 2, 3, 4⟩ : Seen) ∉ (inRing 3).ev.seen
    ∧ ¬ 4 < (inRing 3).ring.takeFrom ∧ 4 < ({ (inRing 3).ring with takeFrom := 5 } : Ring).takeFrom
    ∧ (inRing 4).isRoot = true := by decide +kernel

theorem witness_AcknowledgeAndFastJump :
    let j : FastJump := ⟨⟨.jump 0, .reg, 2, 0, 0, none, false, [], 0⟩, 1, 16, 0, 0, none, false⟩
    let d := { live.onCh 4 (fun c => { c with jump := some j }) with time := { live.time with tick := 16 } }
    let next := live.onCh 4 (fun c => { c with jump := some { j with crs := 1 } })
    let past := { next with time := { live.time with crs := 2 } }
    let busy := live.onCh 4 (fun c => { c with fjBusy := some 1 })
    let cut := laidOne.onCh 2 (fun c => { c with cur := c.laid.head?.map (fun e => { e with fx := [(16, .took j.act)] }) })
    d.chs[(4 : Fin 8)].jump = some j ∧ j.crs = d.time.crs ∧ j.tick ≤ d.time.tick ∧ live.chs[(4 : Fin 8)].jump = none
    ∧ next.time.crs < 1 ∧ (1 : Nat) < past.time.crs ∧ (cut.chs[(2 : Fin 8)].cur).any (fun x => x.fx.any (fun y => y.2 = .took j.act)) = true
    ∧ busy.chs[(4 : Fin 8)].fjBusy = some 1 ∧ busy.time.abs < 1 ∧ (1 : Nat) ≤ ({ busy.time with abs := 1 } : Time).abs
    ∧ live.chs[(4 : Fin 8)].fjBusy = none := by decide +kernel

theorem witness_PhaseEngine : (0x80008000#32).toNat % 2 ^ 16 ≤ 0x8000 ∧ (0x80008000#32).toNat / 2 ^ 16 ≤ 0x8000 ∧ 0x8000 < (0x80018000#32).toNat / 2 ^ 16
    ∧ live.seqIdle 0 = true ∧ (live.set SEQ_STAT.STATE 0 0 2).seqIdle 0 = false
    ∧ live.getPair DDS_AT_LO.AT_LO DDS_AT_HI.AT_HI 0 = 0 ∧ (live.set DDS_AT_LO.AT_LO 0 0 1).getPair DDS_AT_LO.AT_LO DDS_AT_HI.AT_HI 0 < live.time.crs + 2
    ∧ (live.raise DDS_STAT.APPLY_PEND 0).flag DDS_STAT.APPLY_PEND 0 = true ∧ live.flag DDS_STAT.APPLY_PEND 0 = false := by decide +kernel

theorem witness_StageSettings : signed 16 (0x80007FFF#32 : BitVec 32).toNat = 32767 ∧ signed 16 ((0x80007FFF#32).toNat / 2 ^ 16) < signed 16 ((0x80007FFF#32).toNat % 2 ^ 16)
    ∧ ¬ signed 16 ((0x80008000#32).toNat / 2 ^ 16) < signed 16 ((0x80008000#32).toNat % 2 ^ 16)
    ∧ bitsOf (0x50001#32).toNat 16 3 ≤ 5 ∧ bitsOf (0x50001#32).toNat 0 15 ≠ 0 ∧ ¬ bitsOf (0x60001#32).toNat 16 3 ≤ 5
    ∧ ilimOk (0x10119#32).toNat = true ∧ ilimOk (0x10118#32).toNat = false ∧ ilimOk (0x3E832F0#32).toNat = true ∧ live.flag HV_STAT.FOLD 0 = false
    ∧ bitsOf (0x10119#32).toNat 0 8 = 25 ∧ bitsOf (0x3E832F0#32).toNat 0 8 = 240 ∧ bitsOf (0x3E832F0#32).toNat 8 6 = 50
    ∧ bitsOf (0x3E832F0#32).toNat 16 10 = 1000 ∧ live.ticking = true ∧ (live.clear CLK_STAT.LOCK).ticking = false
    ∧ (let on := (live.clear CLK_STAT.LOCK).onCh 1 (fun c => { c with hv := { c.hv with stage := .on, en := true } })
       ({ on with porter := { on.porter with hvEn := true, railBad := [false, false] } } : Dev).hvState 1 = 3)
    ∧ live.chs[(0 : Fin 8)].lv.dly = live.chs[(0 : Fin 8)].lv.target ∧ live.chs[(0 : Fin 8)].hv.dly = live.chs[(0 : Fin 8)].hv.target
    ∧ ({ live.chs[(0 : Fin 8)] with lv := { live.chs[(0 : Fin 8)].lv with dly := 0, target := 17 } } : Chan).lineTicks false = 2 := by decide +kernel

theorem witness_HvCoefficientsAndReceive :
    let c := live.onCh 1 (fun c => { c with hv := { c.hv with rxCmd := true, stage := .on, en := true } })
    let ok := { c with porter := { c.porter with hvEn := true, hvReady := true, railBad := [false, false], railIn := [true, true] } }
    live.get HV_STAT.PD_BANK 0 ≠ (1 : Fin 2).val ∧ live.get HV_STAT.PD_BANK 0 = (0 : Fin 2).val ∧ live.chs[(0 : Fin 8)].hv.swap = false
    ∧ (live.onCh 0 (fun c => { c with hv := { c.hv with swap := true } })).chs[(0 : Fin 8)].hv.swap = true
    ∧ bitsOf (2#32).toNat 0 2 ≠ 3 ∧ bitsOf (3#32).toNat 0 2 = 3
    ∧ ok.chs[(1 : Fin 8)].hv.rxCmd = true ∧ ok.chs[(1 : Fin 8)].hv.stage = .on ∧ ok.hvOffCause 1 = false ∧ ok.hvLatched 1 = false ∧ ok.hvForced 1 = false
    ∧ ok.chs[(1 : Fin 8)].slot = none ∧ ok.chs[(1 : Fin 8)].hv.rxClosed = false ∧ live.chs[(1 : Fin 8)].hv.rxCmd = false := by decide +kernel

theorem witness_HvRailsAndEnabling :
    let e := live.onCh 1 (fun c => { c with hv := { c.hv with stage := .enabling, ramp := true } })
    live.porter.railIn.length = 2 ∧ railsIn false 180 660 450 = true ∧ railsIn false 179 660 450 = false
    ∧ ({ live.porter with railIn := [true, true] } : Porter).railIn.getD 1 false = true ∧ live.porter.railIn.getD 1 false = false
    ∧ e.chs[(1 : Fin 8)].hv.stage = .enabling ∧ live.chs[(1 : Fin 8)].hv.stage ≠ .enabling ∧ e.chs[(1 : Fin 8)].hv.ramp = true
    ∧ ({ live.porter with hvEn := true } : Porter).hvEn = true ∧ live.porter.hvOff = false ∧ live.porter.tsdLog = false
    ∧ live.porter.hvEn = false := by decide +kernel

theorem witness_CurrentLimitAndShorts :
    let d := live.set HV_ILIM.TRIES 0 0 1
    let full := fun (d : Dev) => d.onCh 0 (fun c => { c with hv := { c.hv with integ := 9999, limClear := 7 } })
    500 * live.get HV_ILIM_EFF.SC_EFF 0 = 10000 ∧ (full d).chs[(0 : Fin 8)].hv.integ + 1 = 10000 ∧ (full d).get HV_ILIM_EFF.SC_EFF 0 = 20
    ∧ live.chs[(0 : Fin 8)].hv.integ + 1 < 10000 ∧ live.chs[(0 : Fin 8)].hv.limAct = false ∧ 8 ≤ live.chs[(0 : Fin 8)].hv.limClear
    ∧ (full d).chs[(0 : Fin 8)].hv.limClear < 8 ∧ live.flag HV_STAT.FOLD 0 = false ∧ (live.raise HV_STAT.FOLD 0).flag HV_STAT.FOLD 0 = true ∧ d.get HV_ILIM.TRIES 0 ≠ 0
    ∧ d.get HV_ILIM.TRIES 0 ≤ d.chs[(0 : Fin 8)].hv.shorts + 1 := by decide +kernel

theorem witness_SegmentsAndSampleWords : live.bit HV_SEG.ACTIVE 0 0 13 = true ∧ (live.set HV_SEG.ACTIVE 0 0 0x1FFF).bit HV_SEG.ACTIVE 0 0 13 = false := by
  decide +kernel

theorem witness_PowerTrips :
    let mw := fun (d : Dev) (n : Fin 8) (x t : Nat) => d.onCh n (fun c => { c with hv := { c.hv with pAvg := x * 10 * 2 ^ 20, trip := t } })
    let hot := mw live 0 3500 1
    let all := allCh.foldl (fun d n => (mw d n 2550 0).onCh n (fun c => { c with hv := { c.hv with totTrip := 1 } })) live
    let last := live.onCh 0 (fun c => { c with hv := { c.hv with totTrip := 1 } })
    let edge := fun (x : Nat) => (live.set HV_RAIL.VHP 0 0 900).onCh 0 (fun c => { c with hv := { c.hv with pAvg := x * 10 * 2 ^ 20 - 1 } })
    let load := fun (d : Dev) => d.loadSample 0 0 32767
    live.chPower 0 < 2800 ∧ (edge 3150).chPower 0 = 3149 ∧ (load (edge 3150)).chPower 0 = 3150 ∧ (edge 3500).chPower 0 = 3499
    ∧ (load (edge 3500)).chPower 0 = 3500
    ∧ (live.onCh 0 (fun c => { c with slot := some ⟨2, true, none, 100, false, false, false, false, [], [], 0, 0, false⟩ })).chs[(0 : Fin 8)].slot ≠ none ∧ live.chs[(0 : Fin 8)].slot = none
    ∧ live.chs[(0 : Fin 8)].hv.trip = 0 ∧ live.totPower < 24000 ∧ (∀ k : Fin 8, live.chs[k].hv.totTrip = 0)
    ∧ 3500 ≤ hot.chPower 0 ∧ hot.chs[(0 : Fin 8)].hv.trip = 1 ∧ (mw live 0 3499 1).chPower 0 < 3500 ∧ (mw live 0 2799 1).chPower 0 < 2800
    ∧ all.totPower = 24000 ∧ all.chs[(0 : Fin 8)].hv.totTrip = 1 ∧ 19200 ≤ all.totPower
    ∧ last.totPower < 19200 ∧ last.chs[(0 : Fin 8)].hv.totTrip ≠ 0
    ∧ (∀ k : Fin 8, k ≠ 0 → last.chs[k].hv.totTrip = 0 ∨ last.chs[k].hv.totClr = true) := by decide +kernel

theorem witness_SieveSettings : (live.raise SIEVE_STAT.RUNNING 0).flag SIEVE_STAT.RUNNING 0 = true ∧ live.flag SIEVE_STAT.RUNNING 0 = false
    ∧ bitsOf (0x30000000#32).toNat 16 13 = 4096 ∧ bitsOf (0x30000000#32).toNat 29 2 = 1 ∧ 4096 < bitsOf (0x30010000#32).toNat 16 13
    ∧ (72 : Fin 73).val = 13 + 59 ∧ (3 : Fin 73).val = 3 ∧ (7 : Fin 73).val = 4 + 3 ∧ (11 : Fin 73).val = 8 + 3 ∧ (12 : Fin 73).val = 12 := by decide +kernel

theorem witness_Captures :
    let ring := ((live.set CAPk_SIZE.SIZE 0 0 65536).onCh 0 (fun c => { c with sieve := { c.sieve with taps := [{ queue := [(.samples, [1, 2])] }, {}, {}, {}] } }))
    let run := (live.raise SIEVE_STAT.RUNNING 0).raise TAPk_CFG.EN 0 3
    bitsOf (0x10002#32).toNat 0 2 ≠ 3 ∧ bitAt (0x10002#32).toNat 16 = true ∧ bitsOf (3#32).toNat 0 2 = 3
    ∧ signed 16 (bitsOf (0xFFFF0000#32).toNat 16 16) < signed 16 (bitsOf (0xFFFF0000#32).toNat 0 16)
    ∧ bitsOf (0x40000#32).toNat 0 18 = 0 ∧ bitsOf (0x3FFFF#32).toNat 0 18 ≠ 0
    ∧ (65472#32).toNat % 64 = 0 ∧ (65472#32).toNat < ring.get CAPk_SIZE.SIZE 0 0 ∧ ¬ (65536#32).toNat < ring.get CAPk_SIZE.SIZE 0 0
    ∧ ring.chs[(0 : Fin 8)].sieve.taps.length = 4 ∧ ring.get CAPk_SIZE.SIZE 0 0 ≠ 0
    ∧ (ring.get CAPk_WR.WR 0 0 + 64) % ring.get CAPk_SIZE.SIZE 0 0 ≠ ring.get CAPk_RD.RD 0 0
    ∧ (ring.chs[(0 : Fin 8)].tap 0).queue = [(.samples, [1, 2])] ∧ (live.chs[(0 : Fin 8)].tap 0).queue = []
    ∧ run.flag SIEVE_STAT.RUNNING 0 = true ∧ run.flag SIEVE_STAT.PAUSED 0 = false ∧ run.flag TAPk_CFG.EN 0 3 = true
    ∧ live.flag SIEVE_STAT.RUNNING 0 = false ∧ run.chs[(0 : Fin 8)].sieve.taps.length = 4
    := by decide +kernel

theorem witness_CaptureCodes : (∃ c ∈ [0x1FFF#16], signed 14 c.toNat = -8192 ∨ signed 14 c.toNat = 8191) ∧ ¬ (∃ c ∈ [0x1FFE#16], signed 14 c.toNat = -8192 ∨ signed 14 c.toNat = 8191)
    ∧ (∃ c ∈ [0x8000#16], signed 16 c.toNat = -32768 ∨ signed 16 c.toNat = 32767) ∧ ¬ (∃ c ∈ [0x8001#16], signed 16 c.toNat = -32768 ∨ signed 16 c.toNat = 32767) := by
  simp only [List.mem_singleton, exists_eq_left]
  decide

theorem witness_Calibration :
    let x : Slot := ⟨2, true, none, 100, false, false, false, false, [], [], 0, 0, false⟩
    let d := live.onCh 0 (fun c => { c with slot := some x })
    live.getPair PLB_AT_LO.AT_LO PLB_AT_HI.AT_HI 0 = 0 ∧ (live.set PLB_AT_LO.AT_LO 0 0 1).getPair PLB_AT_LO.AT_LO PLB_AT_HI.AT_HI 0 < live.time.crs + 2
    ∧ live.get PLB_STAT.STATE 0 ≠ 1 ∧ live.get PLB_STAT.STATE 0 ≠ 2 ∧ live.chs[(0 : Fin 8)].requested = false ∧ (live.set PLB_STAT.STATE 0 0 1).get PLB_STAT.STATE 0 = 1
    ∧ d.chs[(0 : Fin 8)].slot = some x ∧ x.aborted = false ∧ x.committed = false ∧ live.chs[(0 : Fin 8)].slot = none := by decide +kernel

/-- A block like `wanting 1` with page 3 in the DRAM of channel 2, and with host bandwidth. -/
def copied : Dev :=
  let d := (wanting 1).set MSN_BW_EFF.HOST_EFF 0 0 14
  { d with mason := { d.mason with copies := [⟨3, 2, 96, 0, none, false, false, 0, 0, false⟩] } }

/-- The frame chosen for an ordinary page of a channel without copies is the last one of its DRAM. -/
theorem last_frame (d : Dev) (h : d.flash.half = false) (k : (d.frameUsable 1 131071 && !d.frameUsed 1 131071 && !d.mason.retire.contains (1, 131071)
    && d.frameOpen 1 131071) = true) : d.freeFrame 1 false = some 131071 := by
  have e : (List.range (framesOf false)).map (fun i => framesOf false - 1 - i) = 131071 :: ((List.range 131071).map Nat.succ).map (fun i => framesOf false - 1 - i) := by
    rw [show framesOf false = 131072 by unfold framesOf; rfl]
    rw [show (131072 : Nat) = 131071 + 1 from rfl, List.range_succ_eq_map]
    rfl
  unfold Dev.freeFrame
  rw [if_neg (by decide), show d.framesAll = framesOf false by rw [← h], e, List.find?_cons_of_pos]
  exact k

/-- A read whose deadline no want's and no buffer's comes before is the first. -/
theorem first_read (d : Dev) (k : Nat) (h : ∀ v ∈ d.mason.wants, k ≤ d.wantKey v) (g : d.mason.reqs = []) : d.readFirst k = true := by
  unfold Dev.readFirst
  rw [Bool.and_eq_true, List.all_eq_true, g]
  exact ⟨fun v hv => by rw [decide_eq_true (h v hv), Bool.or_true], rfl⟩

/-- Where the Mason has no copies, no page leaves a frame. -/
theorem walk_moves_nothing (d : Dev) (m : Memory) (n : Fin 8) (h : d.mason.copies = []) : (d.masonWalk m n).leaving n = [] := by
  have show_ : ∀ d : Dev, (d.readyShow m n).mason = d.mason := fun d => by
    unfold Dev.readyShow
    generalize (if d.ready m n = true then 1 else 0) = r
    dsimp only
    split
    · rfl
    · rw [Dev.notice_mason, Dev.set_mason]
  have blocks : (d.blocksShow m n).mason.copies = [] := by
    unfold Dev.blocksShow
    dsimp only
    rw [Dev.set_mason, Dev.set_mason]
    exact h
  have e : (d.masonWalk m n).mason.copies = [] := by
    unfold Dev.masonWalk
    generalize d.blocksShow m n = b at blocks
    dsimp only
    rw [show_]
    split
    · exact blocks
    · unfold Dev.evict; simp [blocks]
  simp [Dev.leaving, e]

theorem witness_WalkAndFetch :
    let w : Want := ⟨1, 3, 0, false, false⟩
    let host := (wanting 1).set MSN_BW_EFF.HOST_EFF 0 0 14
    (List.replicate 65536 (0#8)).length = 65536
    ∧ host.mason.wants.find? (fun v => v.ch = 1 && v.page = (3#36).toNat) = some w ∧ host.mayFetch w = true
    ∧ host.flag MSN_CHn_STAT.SRAM_ONLY 1 = false ∧ (host.raise MSN_CHn_STAT.SRAM_ONLY 1).flag MSN_CHn_STAT.SRAM_ONLY 1 = true
    ∧ host.freeFrame 1 (host.keepLow 1 3) = some 131071 ∧ copied.freeFrame 1 (copied.keepLow 1 3) = some 131071
    ∧ copied.mason.copies.find? (fun x => x.page = (3#36).toNat && copied.usable x) = some ⟨3, 2, 96, 0, none, false, false, 0, 0, false⟩
    ∧ copied.mayFetch w = true ∧ host.mason.copies.find? (fun x => x.page = (3#36).toNat && host.usable x) = none
    ∧ host.extOf 3 = some (0, [0, 0, 16, 1 + 2 ^ 16, 0, 0, 0, 0]) ∧ host.directWant w = true
    ∧ host.readFirst (host.wantKey w) = true ∧ host.hostReady 1 = true
    ∧ (host.set PWR_STAT.STATE 0 0 1).mayFetch w = false ∧ (live.masonWalk [] 0).leaving 0 = [] := by
  refine ⟨List.length_replicate, by decide +kernel, by decide +kernel, by decide +kernel, by decide +kernel, ?_, ?_, by decide +kernel,
    by decide +kernel, by decide +kernel, by decide +kernel, by decide +kernel, first_read _ _ (by decide +kernel) rfl,
    by decide +kernel, by decide +kernel, walk_moves_nothing _ _ _ rfl⟩
  · rw [show ((wanting 1).set MSN_BW_EFF.HOST_EFF 0 0 14).keepLow 1 3 = false by decide +kernel]
    exact last_frame _ rfl (by decide +kernel)
  · rw [show copied.keepLow 1 3 = false by decide +kernel]
    exact last_frame _ rfl (by decide +kernel)

theorem witness_PageRequests :
    let d := (wanting 2).raise MSN_RQ_CFG.EN
    let full := (d.set MSN_RQ_TAIL.TAIL 0 0 63)
    let r : Req := ⟨4, 0, 3, 1, 2, false, none⟩
    let asks := { live with mason := { live.mason with reqs := [r], wants := [⟨1, 3, 0, false, false⟩], failed := [3] } }
    let host := live.set MSN_BW_EFF.HOST_EFF 0 0 14
    let buf := { host with mason := { live.mason with reqs := [{ r with buf := some 0 }] } }
    let turn := { buf with mason := { buf.mason with
      reqs := [{ r with buf := some 0 }, ⟨5, 0, 9, 1, 2, false, some 0⟩], wants := [⟨1, 9, 0, false, false⟩, ⟨1, 3, 5, false, false⟩] } }
    let later := { buf with mason := { buf.mason with waits := [⟨3, 1, false, false⟩] } }
    let direct := { (wanting 1) with mason := { (wanting 1).mason with failed := [3] } }
    d.nextAsk = some ⟨1, 3, 0, false, false⟩ ∧ d.extOf 3 = some (0, [0, 0, 16, 2 + 2 ^ 16, 0, 0, 0, 0]) ∧ d.flag MSN_RQ_CFG.EN = true ∧ d.mayIssue = true
    ∧ d.mason.reqs.length < d.get MSN_BK.OUT ∧ (d.get MSN_RQ_TAIL.TAIL + 1) % 2 ^ d.get MSN_RQ_CFG.SIZE ≠ d.get MSN_RQ_HEAD.HEAD
    ∧ full.nextAsk = some ⟨1, 3, 0, false, false⟩ ∧ (full.get MSN_RQ_TAIL.TAIL + 1) % 2 ^ full.get MSN_RQ_CFG.SIZE = full.get MSN_RQ_HEAD.HEAD
    ∧ live.nextAsk = none ∧ asks.mason.reqs.any (fun r => r.tag = (4#16).toNat && r.buf.isNone) = true
    ∧ buf.mason.reqs.any (fun r => r.tag = (4#16).toNat && r.buf.isSome) = true ∧ asks.mason.reqs.any (fun r => r.buf.isSome) = false
    ∧ buf.mason.reqs.find? (fun x => x.tag = (4#16).toNat && x.buf.isSome) = some { r with buf := some 0 } ∧ buf.hostReady 1 = true
    ∧ buf.readFirst (buf.runKey { r with buf := some 0 }) = true ∧ turn.readFirst (turn.runKey { r with buf := some 0 }) = false
    ∧ buf.mason.waits.any (fun x => x.has 3) = false ∧ later.mason.waits.any (fun x => x.has 3) = true
    ∧ ({ buf with port := {} } : Dev).hostReady 1 = false ∧ live.mason.waits = [] ∧ d.mason.again = []
    ∧ buf.mason.reqs.find? (fun r => r.buf.isSome && decide (r.page ≤ (3#36).toNat) && decide ((3#36).toNat < r.page + r.count)) = some { r with buf := some 0 }
    ∧ (3 : Nat) ∉ buf.mason.failed ∧ (3 : Nat) ∈ asks.mason.failed
    ∧ (wanting 1).mason.reqs.find? (fun r => r.buf.isSome && decide (r.page ≤ (3#36).toNat) && decide ((3#36).toNat < r.page + r.count)) = none
    ∧ (∃ w ∈ (wanting 1).mason.wants, w.page = (3#36).toNat ∧ (wanting 1).directWant w = true) ∧ (3 : Nat) ∉ (wanting 1).mason.failed
    ∧ (∃ w ∈ direct.mason.wants, w.page = (3#36).toNat ∧ direct.directWant w = true) ∧ (3 : Nat) ∈ direct.mason.failed
    ∧ (∀ w ∈ (wanting 2).mason.wants, w.page = (3#36).toNat → (wanting 2).directWant w = false) := by decide +kernel

theorem witness_MasonSettings :
    let ws := fun (d : Dev) => (List.range 8).map (fun w => d.get MSN_DESC_Dw.WORD w)
    let bad := live.set MSN_DESC_Dw.WORD 3 0 0x4000
    let ext := (live.set MSN_EXTi_w.WORD 4095 2 1).set MSN_EXTi_w.WORD 4095 3 1
    live.descLegal (live.get MSN_DESC_IDX.IDX) (ws (live.set MSN_DESC_Dw.WORD 1 0 4)) = true ∧ bad.descLegal (bad.get MSN_DESC_IDX.IDX) (ws bad) = false
    ∧ ext.mason.extPend = none ∧ ext.extLegal 4095 ((List.range 8).map (fun k => ext.get MSN_EXTi_w.WORD 4095 k)) = true
    ∧ ({ ext.mason with extPend := some (1, [], none) } : Mason).extPend ≠ none
    ∧ 1 ≤ bitsOf (60000#32).toNat 0 16 ∧ bitsOf (60000#32).toNat 0 16 ≤ 60000 ∧ ¬ bitsOf (60001#32).toNat 0 16 ≤ 60000 ∧ ¬ 1 ≤ bitsOf (0#32).toNat 0 16
    ∧ live.hzOk 0 4 4 = true ∧ live.hzOk 0 3 4 = false ∧ live.hzOk 0 128 64 = true ∧ live.hzOk 0 128 65 = false
    ∧ bitsOf (0x2038#32).toNat 0 6 = 56 ∧ bitsOf (0x2038#32).toNat 8 6 = 32 ∧ ¬ bitsOf (0x2138#32).toNat 8 6 ≤ 32
    ∧ live.mason.risks.length = 8 ∧ live.flag MSN_CHn_STAT.STARVED 0 = false ∧ live.asleep = false ∧ live.chs[(0 : Fin 8)].starved = false
    ∧ (live.set EVL_SRCn_r.SLOT_LO 5 0 (0x8000 + chProd 0 6)).linesOf (chProd 0 6) = [5]
    ∧ (live.onCh 0 (fun c => { c with starved := true })).chs[(0 : Fin 8)].starved = true
    ∧ (live.raise MSN_CHn_STAT.STARVED 0).flag MSN_CHn_STAT.STARVED 0 = true := by decide +kernel

theorem witness_SramErrorsAndTests :
    let d := live.raise MEM_STAT.START_OK
    let m : March := { ch := 1, bank := 2, lent := none, tests := true, cmd := none }
    let t := { live with sram := { live.sram with test := some m, repairs := [(3, 4, 575)] } }
    let hot := { d with sram := { d.sram with fixes := [⟨7, 15, 5, 1, 0⟩, ⟨7, 15, 5, 2, 0⟩], losses := (List.range 15).map (fun i => ⟨7, 15, 0, i + 1, 0⟩) } }
    let others := fun (span : Nat) (l : List Finding) (col : Nat) => ((recent span hot.time.abs l).filter (fun f =>
      f.arr = 7 && f.bank = 15 && f.col = col && f.row ≠ (4095#12).toNat)).length
    d.arraysUp 7 15 = true ∧ d.arraysUp 9 1 = false ∧ d.arraysUp 8 0 = true ∧ live.arraysUp 0 0 = false ∧ d.flag MEM_LAST_UE.VALID = false
    ∧ (d.raise MEM_LAST_UE.VALID).flag MEM_LAST_UE.VALID = true ∧ d.get PWR_STAT.STATE ≠ 2 ∧ (d.set PWR_STAT.STATE 0 0 2).get PWR_STAT.STATE = 2
    ∧ hot.arraysUp 7 15 = true ∧ 2 ≤ others 2500000000 hot.sram.fixes 5 ∧ 15 ≤ others 900000000000 hot.sram.losses 0
    ∧ hot.colsUsed 7 15 + (hot.sram.repairs.filter (fun r => r.1 = 7 && r.2.1 = 15)).length < spareCols 7
    ∧ (d.sram.losses.filter (fun f => f.arr = 7 && f.bank = 15)).length < 15
    ∧ live.locked = true ∧ live.flag MEM_STAT.START_OK = false ∧ live.flag MEM_STAT.MT_FAIL = false ∧ d.flag MEM_STAT.START_OK = true
    ∧ live.flag MEM_MT.BUSY = false ∧ (live.raise MEM_MT.BUSY).flag MEM_MT.BUSY = true
    ∧ ((t.set MEM_MT.BANK 0 0 2).set MEM_MT.CH 0 0 1).marchRefused [] 1 2 = true
    ∧ t.sram.test = some m ∧ m.cmd = none ∧ m.tests = true ∧ ({ m with tests := false } : March).tests = false ∧ live.sram.test = none
    ∧ t.sram.repairs.find? (fun r => r.1 = 3 && r.2.1 = 4) = some (3, 4, 575) ∧ live.sram.repairs.find? (fun r => r.1 = 3 && r.2.1 = 4) = none := by
  decide +kernel

theorem witness_march : ((live.set MEM_MT.BANK 0 0 2).set MEM_MT.CH 0 0 1).marchRefused [] 1 2 = false := by decide +kernel

theorem witness_DramSettings :
    let d := live.set DMC_STAT.STATE 0 0 1
    (255#16).toNat < 256 ∧ 256 ≤ (256#16).toNat ∧ bitsOf (0x02000001#32).toNat 24 2 ≠ 3 ∧ bitsOf (0x02000001#32).toNat 0 8 ≠ 0
    ∧ d.rankOn 0 1 = true ∧ d.flag DMC_RANKr.SELF_REF 0 1 = false ∧ live.rankOn 0 1 = false ∧ (d.set DMC_LP.SR_TMR 0 0 1).get DMC_LP.SR_TMR 0 ≠ 0
    ∧ d.get DMC_LP.SR_TMR 0 = 0 ∧ (d.set DMC_REF.DEBT1 0 0 8).debt 0 1 = 8 ∧ (d.set DMC_REF.DEBT1 0 0 7).debt 0 1 < 8
    ∧ d.chs[(0 : Fin 8)].dram.window.getD 1 0 < 8191 ∧ ¬ (d.onCh 0 (fun c => { c with dram := { c.dram with window := [0, 8191] } })).chs[(0 : Fin 8)].dram.window.getD 1 0 < 8191
    ∧ (d.raise DMC_RANKr.SELF_REF 0 1).flag DMC_RANKr.SELF_REF 0 1 = true ∧ (1 : Nat) ∉ d.chs[(0 : Fin 8)].delays.due
    ∧ (1 : Nat) ∈ (d.delayBand 0 400).chs[(0 : Fin 8)].delays.due := by decide +kernel

theorem witness_idle_rank : (live.set DMC_STAT.STATE 0 0 1).rankIdle [] 0 1 = true := by decide +kernel

theorem witness_DramReadsAndDrains :
    let d := live.set DMC_STAT.STATE 0 0 1
    let row := d.dieRow 0 (0x1FFFFFFFF#33).toNat
    let hot := d.onCh 0 (fun c => { c with dram := { c.dram with acts := [(1, row, 2047)] } })
    let mirror := ((d.raise DMC_CTRL.MIRROR 0).set DMC_RANKr.STATE 0 1 3)
    live.rankOf ((0x1FFFFFFFF#33).toNat / 65536) = 1 ∧ d.servedBy 0 ((0x1FFFFFFFF#33).toNat / 65536) = some 1 ∧ mirror.servedBy 0 131071 = some 0
    ∧ live.servedBy 0 131071 = none ∧ hot.servedBy 0 131071 = some 1
    ∧ hot.chs[(0 : Fin 8)].dram.acts.find? (fun x => x.1 = hot.rankOf 131071 && x.2.1 = row) = some (hot.rankOf 131071, row, 2047)
    ∧ hot.chs[(0 : Fin 8)].dram.limited.contains (hot.rankOf 131071, row, 6) = false ∧ d.get PWR_STAT.STATE = 0
    ∧ (d.set PWR_STAT.STATE 0 0 1).get PWR_STAT.STATE ≠ 0 ∧ (d.set DMC_RANKr.STATE 0 1 1).get DMC_RANKr.STATE 0 1 = 1
    ∧ d.mason.copies.any (fun c => c.ch = 0 && (d.flag DMC_CTRL.MIRROR 0 || d.rankOf c.frame = 1)) = false ∧ (d.raise DMC_CTRL.MIRROR 0).mirrors 0 = true ∧ (d.set DMC_RANKr.STATE 0 1 2).get DMC_RANKr.STATE 0 1 = 2
    ∧ 16 ≤ narrowest [⟨0, 16⟩, ⟨7, 255⟩] ∧ d.cmds = [] ∧ narrowest [⟨0, 15⟩, ⟨7, 255⟩] < 16 ∧ narrowest [] < 16 ∧ d.get DMC_RANKr.TRIES 0 1 < 2
    ∧ (d.set DMC_RANKr.TRIES 0 1 2).get DMC_RANKr.TRIES 0 1 = 2 := by decide +kernel

theorem witness_RingLinks :
    let d := (inRing 3).raise RING_Pp_STAT.LINK 1
    d.ringed = true ∧ d.linked 1 = true ∧ d.linked 0 = false ∧ live.ringed = false ∧ d.isRoot = false ∧ (180000#24).toNat ≤ 180000
    ∧ 180000 < (180001#24).toNat ∧ (d.raise RING_Pp_STAT.REV 1).flag RING_Pp_STAT.REV 1 = true ∧ (d.measOf 1).revEnd = none
    ∧ d.flag RING_Pp_STAT.REV 1 = false ∧ (d.measOf 0).same = false ∧ ((d.onMeas 0 (fun m => { m with same := true })).measOf 0).same = true := by decide +kernel

theorem witness_RingFrames :
    let d := (inRing 1).raise RING_Pp_STAT.LINK 1
    (live.measOf 0).revEnd = none ∧ (live.measOf 1).revEnd = none ∧ d.ringed = true ∧ d.linked 1 = true ∧ d.joined = false ∧ bitAt (0#128).toNat 127 = false
    ∧ d.time.abs < d.ring.linkAt + 499840 ∧ live.ringed = false ∧ d.flag RING_Pp_STAT.REV 0 = false ∧ d.startsLane 1 = true ∧ d.startsLane 0 = false := by decide +kernel

theorem witness_RingJoining :
    let d := (((inRing 1).raise RING_Pp_STAT.LINK 1).set RING_CTRL.ROLE 0 0 2)
    let near := fun (d : Dev) => { d with ring := { d.ring with meas := [{}, { joined := true }] } }
    let isle := near ((inRing 5).raise RING_Pp_STAT.LINK 1)
    d.ringSt < 2 ∧ 2 ≤ (inRing 2).ringSt ∧ (near d).joinedPort = some 1 ∧ (near d).ringSt = 1 ∧ (near d).get RING_CTRL.ROLE = 2 ∧ (near d).ring.decision = none
    ∧ (near d).allStopped = true ∧ ((near d).set SEQ_STAT.STATE 7 0 2).allStopped = false ∧ d.joinedPort = none
    ∧ isle.joinedPort = some 1 ∧ isle.ringSt = 5 ∧ (isle.clear RING_CTRL.AUTO_REJOIN).rejoinReady = false ∧ (isle.raise RING_CTRL.AUTO_REJOIN).rejoinReady = true
    ∧ d.ownWait = [] ∧ live.ringSt ≠ 1 ∧ live.ringSt ≠ 5 := by decide +kernel

theorem witness_RingRoot :
    let d := { (inRing 4) with ring := { (inRing 4).ring with roster := [0, 3] } }
    d.isRoot = true ∧ (d.ring.roster ++ d.ring.adds.map (·.1)).length < 512 ∧ (List.range 512).length ≥ 512 ∧ live.isRoot = false
    ∧ (d.set RING_CFG.EVICT 0 0 5).get RING_CFG.EVICT ≠ 0 ∧ (3 : Fin 512).val ≠ d.get RING_ID.INDEX ∧ (3 : Fin 512).val ∈ d.ring.roster
    ∧ (d.set RING_CFG.EVICT 0 0 0).get RING_CFG.EVICT = 0 ∧ live.isMember = false ∧ (inRing 3).isMember = true ∧ (inRing 3).isRoot = false := by decide +kernel

theorem witness_RingCells :
    let d := (inRing 3).raise RING_Pp_STAT.LINK 1
    d.ringed = true ∧ d.linked 1 = true ∧ d.linked 0 = false ∧ d.joined = true ∧ (0#56).toNat / 2 ^ 46 = (d.set RING_ID.INDEX 0 0 0).get RING_ID.INDEX ∧ d.ownWait = []
    ∧ live.ringed = false ∧ live.joined = false ∧ d.flag RING_MTX_CTRL.BUSY = false ∧ (d.raise RING_MTX_CTRL.BUSY).flag RING_MTX_CTRL.BUSY = true
    ∧ 3 ≤ d.ringSt ∧ d.ringSt ≠ 7 ∧ d.ring.queue.length < 16 ∧ 16 ≤ (List.replicate 16 (⟨0, 0, []⟩ : RingMsg)).length ∧ (inRing 7).ringSt = 7 := by decide +kernel

theorem witness_BenchReceive :
    let d := live.raise BB_CTRL.EN
    let f := { d with bench := { d.bench with fires := [[5]] } }
    let stop := benchBytes 3 7 1 9 (0, 0) [0, 10]
    let value := benchBytes 2 7 0 9 (0, 0) []
    let list := (d.raise BB_CTRL.ALLOW_EN).set BB_ALLOWa_LO.MAC_LO 15 0 5
    let known := list.raise BB_ALLOWa_HI.EN 15
    let u := d.locate (((d.time.abs - 0) * 256 : Nat) : Int)
    d.benchOn = true ∧ live.benchOn = false ∧ (0x88B4#16).toNat ≠ 0x88B5 ∧ (0x88F7#16).toNat = 0x88F7 ∧ (untag 0x8100 [0, 0, 0x88, 0xB5]).1 = 0x88B5 ∧ d.benchParse 5 (u.1, u.2 / 256) [] = none ∧ (5 : Nat) ≠ d.macOf
    ∧ d.ownWait = [] ∧ (d.benchParse 5 (u.1, u.2 / 256) stop).map (·.kind) = some 3 ∧ (d.benchParse 5 (u.1, u.2 / 256) value).map (·.kind) = some 2
    ∧ (d.benchParse 5 (u.1, u.2 / 256) (benchBytes 4 7 0 9 (0, 0) [])).map (·.kind) = some 4
    ∧ list.flag BB_CTRL.ALLOW_EN = true ∧ (list.benchParse 5 (u.1, u.2 / 256) stop).map (·.entry) = some 16 ∧ d.flag BB_CTRL.ALLOW_EN = false
    ∧ (known.benchParse 5 (u.1, u.2 / 256) stop).map (·.entry) = some 15 ∧ known.flag BB_ALLOWa_HI.STOP_OK 15 = false ∧ known.allowMac 15 = 5
    ∧ (known.raise BB_ALLOWa_HI.STOP_OK 15).flag BB_ALLOWa_HI.STOP_OK 15 = true ∧ (d.raise BB_CTRL.RXALL).flag BB_CTRL.RXALL = true
    ∧ d.flag BB_CTRL.RXALL = false ∧ d.bench.rxq.length < 32 ∧ 32 ≤ (List.replicate 32 (1 : Nat)).length
    ∧ f.bench.fires = [5] :: [] ∧ f.asleep = false ∧ (f.set PWR_STAT.STATE 0 0 2).asleep = true ∧ d.bench.fires = [] := by
  decide +kernel

theorem witness_BenchTransmit :
    let d := live.raise BB_CTRL.EN
    let x : BenchWait := ⟨16, true, .frame 0 1 0 [], 64⟩
    let w := { d with bench := { d.bench with wait := [x] } }
    let l := { d with bench := { d.bench with line := some x } }
    let y := { d with bench := { d.bench with line := some { x with x := 15 } } }
    d.flag BB_HTX_CTRL.BUSY = false ∧ (d.raise BB_HTX_CTRL.BUSY).flag BB_HTX_CTRL.BUSY = true ∧ bitsOf (0x10004#32).toNat 8 9 = 256
    ∧ 256 < bitsOf (0x10104#32).toNat 8 9 ∧ bitsOf (0x10004#32).toNat 0 8 = 4 ∧ (d.raise BB_STAT.STOPPED).flag BB_STAT.STOPPED = true ∧ bitAt (0x40000001#32).toNat 30 = true
    ∧ w.benchOn = true ∧ w.bench.line = none ∧ w.benchPick = some x ∧ live.benchOn = false ∧ l.bench.line ≠ none
    ∧ y.bench.line = some { x with x := 15 } ∧ (15 : Nat) < 16 := by decide +kernel

theorem witness_BenchSettings :
    let d := (live.raise BB_CTRL.EN).raise BB_PLCA.EN
    let on := ((d.set BB_PLCA.ID 0 0 0).raise BB_PTP_CTRL.EN)
    let low := { d with bench := { d.bench with plca := (true, 254, 8, 32) } }
    d.benchOn = true ∧ live.benchOn = false ∧ on.flag BB_PLCA.EN = true ∧ on.get BB_PLCA.ID = 0 ∧ d.get BB_PLCA.ID ≠ 0
    ∧ low.bench.plca.1 = true ∧ low.bench.plca.2.1 < 255 ∧ 255 ≤ d.bench.plca.2.1
    ∧ d.flag BB_STOP.UNTIL_RESUME = false ∧ (d.raise BB_STOP.UNTIL_RESUME).flag BB_STOP.UNTIL_RESUME = true
    ∧ on.flag BB_PTP_CTRL.EN = true ∧ live.flag BB_PTP_CTRL.EN = false
    ∧ bitsOf (0x102000#32).toNat 8 8 = 32 ∧ bitsOf (0x102000#32).toNat 16 8 = 16 ∧ ¬ bitsOf (0x102100#32).toNat 8 8 ≤ 32
    ∧ bitsOf (16#32).toNat 0 5 ≤ 16 ∧ ¬ bitsOf (17#32).toNat 0 5 ≤ 16 ∧ bitsOf (0x200004#32).toNat 16 6 = 32 ∧ ¬ bitsOf (0x210004#32).toNat 16 6 ≤ 32
    ∧ 2 ≤ (9 : Fin 10).val := by decide +kernel

theorem witness_MailboxSlots : live.bit MBX_BUSYm.BUSY 8 0 15 = false ∧ live.bit MBX_DONEm.DONE 8 0 15 = false
    ∧ (live.ring_ 8 15).bit MBX_BUSYm.BUSY 8 0 15 = true ∧ (live.setBit MBX_DONEm.DONE 8 0 15).bit MBX_DONEm.DONE 8 0 15 = true := by decide +kernel

theorem witness_MailboxChecks : mailRow (.lvSet 0 0) = some (orderLvSet, 0, 0) := rfl

theorem witness_MailboxChecks_state :
    let d := asked live 0 0x120 0 [1, 2, 3, 4, 5]
    let own := asked (live.raise LV_CTRL.OWN) 0 0x120 0 []
    live.nextRung 0 0 = false ∧ d.nextRung 0 0 = true ∧ d.bit MBX_BUSYm.BUSY 0 0 0 = true ∧ d.ownWait = []
    ∧ d.flag MSN_CHn_STAT.SRAM_ONLY 0 = false ∧ (asked live 0 0x1FF 0 []).knows 0 ((asked live 0 0x1FF 0 []).opcodeIn 0 0) = false
    ∧ (asked live 0 0x121 0 []).knows 0 0x121 = true ∧ (asked live 0 0x121 0 []).opcodeIn 0 0 ≠ orderLvSet.op
    ∧ d.knows 0 0x120 = true ∧ d.opcodeIn 0 0 = orderLvSet.op ∧ ¬ 14 < (d.call 0 0).len ∧ (d.call 0 0).clean = true
    ∧ 14 < ((asked live 0 0x120 0 (List.replicate 15 0)).call 0 0).len
    ∧ orderLvSet.epoch d (d.call 0 0) = some 0 ∧ ((asked live 0 0x120 1 []).call 0 0).epoch ≠ 0
    ∧ (LV_CTRL.OWN.id, 0) ∈ orderLvSet.own own (own.call 0 0) ∧ own.owned (LV_CTRL.OWN.id, 0) = true := by decide +kernel

theorem witness_FirmwareCommands :
    let img : FwSlot := ⟨Memory.writeBytes [] 0 ((leBytes 4 0x47544657 ++ [1, 0] ++ List.replicate 18 0).map flashByte), 0, 0, none⟩
    readyFor (asked live 8 0x01 0 []) orderInfo 8 = true ∧ live.boot.recovery = false
    ∧ readyFor (asked live 8 0x10 0 [0, 0, 0x1EF000, 0x10000]) (orderFwStage (some [1]) true) 8 = true ∧ live.mayIssue = true ∧ live.flash.fw.length = 2
    ∧ readyFor (asked live 8 0x10 0 [0, 0, 0, 1]) (orderFwStage none true) 8 = true
    ∧ readyFor (asked { live with flash := { live.flash with fw := [⟨[], 0x01020000, 0, some 1⟩, img] } } 8 0x11 0 []) (orderFwCommit true) 8 = true
    ∧ img.headOk = true ∧ (live.fwSlot (1 - live.otherSlot)).gen = some 1 ∧ (live.fwSlot live.otherSlot).headOk = false
    ∧ readyFor (asked live 8 0x12 0 []) orderFwRestart 8 = true ∧ live.get PWR_STRAP.BOOT ≠ 3
    ∧ readyFor (asked live 8 0x18 0 [1, 10]) (orderFlashCfg true) 8 = true ∧ live.flash.ovr.length = 2
    ∧ readyFor (asked live 8 0x20 0 []) (orderCalStore true) 8 = true ∧ readyFor (asked live 8 0x20 0 []) (orderCalStore false) 8 = true
    := by decide +kernel

theorem witness_upload : (readyFor (asked live 8 0x41 0 [0, 0, 0, 0, 0x10001]) (orderUpload (some [7])) 8 = true)
    ∧ (List.range 1).any (fun i => live.backed (0 + i)) = false := by decide +kernel

/-- A block with a free frame on every channel finds a place for a page. -/
theorem page_found (d : Dev) (m : Memory) (x : List (BitVec 8)) (page : Nat) (h : ∀ n : Fin 8, (d.freeFrame n true).isSome = true) :
    (uploadPage page 1 x (d, m)).isSome = true := by
  have g : (d.uploadCh none).1.isSome = true := by
    unfold Dev.uploadCh
    rw [List.findSome?_isSome_iff]
    refine ⟨Fin.ofNat 8 (d.free.1 + 0), ?_, ?_⟩
    · rw [List.mem_filter]
      exact ⟨List.mem_map.2 ⟨0, by decide, rfl⟩, rfl⟩
    · have k := h (Fin.ofNat 8 (d.free.1 + 0))
      generalize d.freeFrame _ true = o at k ⊢
      rw [Option.isSome_map]
      exact k
  obtain ⟨⟨n, f⟩, e⟩ := Option.isSome_iff_exists.1 g
  unfold uploadPage
  dsimp only
  rw [e]
  dsimp only
  rw [if_pos (by decide)]
  exact Option.isSome_some

/-- The block that has begun an upload of one page. -/
def uploading : Dev := ((asked live 8 0x41 0 [0, 0, 0, 0, 0x10001]).begun 8 0).emit (.hostRead 0 65536)

theorem uploading_free (n : Fin 8) : (uploading.freeFrame n true).isSome = true := by
  unfold Dev.freeFrame
  rw [if_pos rfl, List.find?_isSome]
  refine ⟨96, List.mem_range.2 (by show 96 < framesOf false; rw [show framesOf false = 131072 by unfold framesOf; rfl]; omega), ?_⟩
  revert n
  decide +kernel

theorem upload_placed (b : List (BitVec 8)) : ∃ q, uploadPages 1 b 1 0 (uploading, []) = some q := by
  obtain ⟨q, k⟩ := Option.isSome_iff_exists.1 (page_found uploading [] (b.take 65536) 0 uploading_free)
  refine ⟨q, (uploadPages.eq_2 _ _ _ _ _).trans ?_⟩
  rw [k]
  exact uploadPages.eq_1 _ _ _ _

theorem witness_upload_place : ∃ q, uploadPages 1 (bufBytes [7] 65536) 1 0 (uploading, []) = some q := upload_placed _

theorem witness_MasonCommands :
    let ext := [5, 0, 0, 1, 1, 0, 0, 0, 0]
    readyFor (asked live 8 0x30 0 [0xFFFFF, 7, 4, 0, 0, 0, 0, 0, 0]) orderDescWrite 8 = true
    ∧ bitAt ((asked live 8 0x30 0 [0xFFFFF, 7, 4, 0, 0, 0, 0, 0, 0]).call 8 0 |>.arg 0) 31 = false
    ∧ readyFor (asked live 8 0x30 0 [2 ^ 31, 7, 4, 0, 0, 0, 0, 0, 0]) orderDescWrite 8 = true
    ∧ readyFor (asked live 8 0x31 0 [3]) orderDescRead 8 = true ∧ (live.descLatest 3).length = 8
    ∧ readyFor (asked live 8 0x32 0 [3]) orderDescFree 8 = true
    ∧ readyFor (asked live 8 0x40 0 ext) orderExtSet 8 = true ∧ live.mason.extPend = none ∧ live.extLegal 5 (ext.drop 1) = true
    ∧ readyFor (asked live 8 0x40 0 [5, 0, 0, 1, 2, 0, 0, 0, 0]) orderExtSet 8 = true ∧ live.extLegal 5 [0, 0, 1, 2, 0, 0, 0, 0] = false
    ∧ readyFor (asked live 8 0x41 0 [0, 0, 0, 0, 0x10100]) (orderUpload none) 8 = true
    ∧ (List.range 16).any (fun i => (wanting 1).backed (0 + i)) = true
    ∧ readyFor (asked { live with mason := { live.mason with extPend := some (1, [], none) } } 8 0x40 0 ext) orderExtSet 8 = true
    ∧ readyFor (asked live 8 0x42 0 [0, 0, 0, 0, 65536]) orderRelease 8 = true
    ∧ readyFor (asked live 8 0x43 0 [0, 0, 0, 0, 0xCB]) orderBacking 8 = true ∧ (live.raise MSN_RQ_CFG.EN).get MSN_RQ_CFG.SIZE ≠ 11 := by
  decide +kernel

/-- Empty memory reads as zeros. -/
theorem readBytes_empty (a k : Nat) : Memory.readBytes [] a k = List.replicate k 0 := by
  induction k generalizing a with
  | zero => rfl
  | succ k ih => rw [Memory.readBytes, ih]; rfl

/-- No step of an empty table names a descriptor. -/
theorem names_empty (n i : Nat) : live.names [] n i = false := by
  have h : ∀ s, (readStep [] n s).segs = [] := by
    intro s
    rw [readStep, stepWords, readBytes_empty]
    decide +kernel
  simp [Dev.names, h]

theorem witness_MasonCommands_unused : (live.descView [] 3).getD 6 0 % 256 = 0 := by
  have e : live.descLatest 3 = blankDesc := by decide +kernel
  have r : live.mason.resident = [] := by decide +kernel
  simp [Dev.descView, names_empty, e, r, blankDesc]
  omega

theorem witness_EventCommands :
    readyFor (asked live 8 0x50 0 [63, 0x8009, 0, 0, 0, 0x8008, 0, 0, 0, 0, 0, 0, 0]) orderLineSet 8 = true
    ∧ readyFor (asked live 8 0x51 0 [0x80000FFF]) orderSysMap 8 = true ∧ readyFor (asked live 8 0x53 0 [15, 0x80FF0FFF]) orderSysTxSet 8 = true
    ∧ readyFor (asked live 8 0x52 0 [7]) orderSysFire 8 = true ∧ (asked (inRing 5) 8 0x52 0 [7]).islanded = true
    ∧ readyFor (asked { live with ev := { live.ev with origs := 4 } } 8 0x52 0 [7]) orderSysFire 8 = true
    ∧ readyFor (asked live 8 0x58 0 [2, 0, 0xFF0001]) orderGroupSet 8 = true ∧ readyFor (asked live 8 0x58 0 [1, 0, 0]) orderGroupSet 8 = true
    ∧ ((asked live 8 0x58 0 [1, 0, 0]).call 8 0).late live = true ∧ ((asked live 8 0x58 0 [2, 0, 0]).call 8 0).late live = false
    ∧ readyFor (asked (live.set GRPg.MASK 3 0 0x81) 8 0x59 0 [2 ^ 24, 0, 3]) orderGroupAct 8 = true
    ∧ ((asked live 8 0x59 0 [0, 0, 3]).call 8 0).bits 2 8 2 ≠ 1 ∧ maskChs 0x81 = [0, 7] := by decide +kernel

theorem witness_UnitCommands :
    let joined := (inRing 3).set RING_CTRL.ROLE 0 0 1
    let waits := (inRing 1).set RING_CTRL.ROLE 0 0 1
    let isle := (inRing 5).set RING_CTRL.ROLE 0 0 1
    readyFor (asked live 8 0x60 0 [16384]) orderCrsSet 8 = true ∧ (asked (inRing 3) 8 0x60 0 [64]).isMember = true ∧ live.lenOpen = true
    ∧ readyFor (asked (live.raise CRS_CTRL.LEN_PEND) 8 0x60 0 [64]) orderCrsSet 8 = true ∧ readyFor (asked live 8 0x61 0 [3]) orderSyncSet 8 = true
    ∧ readyFor (asked live 8 0x70 0 [5]) orderRingCtl 8 = true ∧ live.get RING_CTRL.ROLE = 0 ∧ readyFor (asked joined 8 0x70 0 [4, 0x110]) orderRingCtl 8 = true
    ∧ joined.get RING_CTRL.ROLE = 1 ∧ readyFor (asked waits 8 0x70 0 [1]) orderRingCtl 8 = true ∧ waits.ringSt = 1
    ∧ readyFor (asked isle 8 0x70 0 [2]) orderRingCtl 8 = true ∧ isle.ringSt = 5 ∧ waits.joined = false
    ∧ readyFor (asked joined 8 0x71 0 [51 * 2 ^ 16]) orderRingMsg 8 = true ∧ joined.joined = true ∧ joined.flag RING_MTX_CTRL.BUSY = false
    ∧ readyFor (asked (joined.raise RING_MTX_CTRL.BUSY) 8 0x71 0 [0]) orderRingMsg 8 = true
    ∧ readyFor (asked live 8 0x78 0 [1, 0x102000, 0x7F01]) orderBenchCfg 8 = true ∧ readyFor (asked live 8 0x79 0 [15, 1, 0xC0000000]) orderBenchAllow 8 = true
    ∧ readyFor (asked live 8 0x7A 0 [15, 16, 0, 0, 0, 0]) orderBenchFilter 8 = true ∧ readyFor (asked live 8 0x7B 0 [15, 0x200004]) orderBenchTemplate 8 = true
    ∧ readyFor (asked live 8 0x7C 0 [44 * 256 + 4]) orderBenchSend 8 = true ∧ live.flag BB_HTX_CTRL.BUSY = false ∧ live.flag BB_STAT.STOPPED = false
    ∧ readyFor (asked live 8 0x80 0 [2]) orderPower 8 = true ∧ (live.powerRequest 2 2).2 = false ∧ ((live.set SEQ_STAT.STATE 0 0 2).powerRequest 2 2).2 = true
    ∧ readyFor (asked live 8 0x90 0 [0x210]) orderMemTest 8 = true
    ∧ ({ live.sram with test := some { ch := 0, bank := 1, lent := none, tests := false, cmd := none } } : Sram).test.isSome = true
    ∧ (let x := asked live 8 0x90 0 [0x210]
       ((x.begun 8 0).enrol (x.call 8 0) 0x90 0 1 0 [(MEM_CTRL.OWN.id, 0)]).marchRefused [] (Fin.ofNat 8 ((x.call 8 0).bits 0 4 3)) ((x.call 8 0).bits 0 8 4) = false)
    := by decide +kernel

/-- The least of a list is one of it. -/
theorem least_mem (x : Nat) (l : List Nat) : l.foldl min x = x ∨ l.foldl min x ∈ l := by
  induction l generalizing x with
  | nil => exact .inl rfl
  | cons a l ih =>
    rw [List.foldl_cons, List.mem_cons]
    by_cases k : x ≤ a
    · rw [Nat.min_eq_left k]
      exact (ih x).imp_right .inr
    · rw [Nat.min_eq_right (by omega)]
      exact .inr (ih a)

/-- A table with a failing step has a first one. -/
theorem table_fails (d : Dev) (mem : Memory) (n : Nat) (x : Nat × Nat) (h : x ∈ d.stepFails mem n) : (d.tableFail mem n).isSome = true := by
  unfold Dev.tableFail
  generalize hl : d.stepFails mem n ++ _ = all
  match all with
  | [] => rw [List.append_eq_nil_iff] at hl; rw [hl.1] at h; cases h
  | x :: xs =>
    dsimp only
    have k : ∃ y, y ∈ (x :: xs).filter (fun y => decide (y.1 = (xs.map (·.1)).foldl min x.1)) := by
      rcases least_mem x.1 (xs.map (·.1)) with e | e
      · exact ⟨x, by simp [e]⟩
      · obtain ⟨y, hy, e⟩ := List.mem_map.1 e
        exact ⟨y, by simp [hy, e]⟩
    obtain ⟨y, hy⟩ := k
    generalize List.filter _ _ = l at hy ⊢
    cases l with
    | nil => cases hy
    | cons z l => rfl

/-- The empty table fails: its steps play for no time (R104). -/
theorem witness_table_fails : (live.tableFail [] 7).isSome = true := by
  refine table_fails _ _ _ (0, live.stepCause [] 7 0 (readStep [] 7 0)) ?_
  refine List.mem_filterMap.2 ⟨0, List.mem_range.2 (by omega), ?_⟩
  rw [if_neg (by decide +kernel)]

/-- A table of END steps. -/
def ends : Memory := (List.range 8192).map (fun i => (stepAt 7 i + 3, 0x40))

/-- The bytes of a list of END steps. -/
theorem read_ends (l : List Nat) (j r : Nat) (hr : r < 32) :
    Memory.read (l.map (fun i => (stepAt 7 i + 3, (0x40 : BitVec 8)))) (stepAt 7 j + r) = if r = 3 ∧ j ∈ l then 0x40 else 0 := by
  induction l with
  | nil => simp [Memory.read, Memory.blank]
  | cons i l ih =>
    rw [List.map_cons, Memory.read, ih]
    unfold stepAt sramAt
    by_cases h : r = 3 ∧ i = j
    · simp [h.1, h.2]
    · rw [if_neg (by omega)]
      simp only [List.mem_cons]
      congr 1
      simp only [eq_iff_iff]
      constructor <;> intro k <;> refine ⟨k.1, ?_⟩
      · exact .inr k.2
      · rcases k.2 with e | e
        · exact absurd ⟨k.1, e.symm⟩ h
        · exact e

/-- An END step. -/
def endStep : Step := Step.ofWords (leWords ([0, 0, 0, 0x40] ++ List.replicate 28 0))

/-- Every step of the table is an END step. -/
theorem ends_step (j : Nat) (h : j < 8192) : readStep ends 7 j = endStep := by
  have e : ∀ r, r < 32 → Memory.read ends (stepAt 7 j + r) = if r = 3 then 0x40 else 0 := by
    intro r hr
    rw [ends, read_ends _ _ _ hr]
    simp [h]
  have z := e 0 (by omega)
  simp only [Nat.add_zero] at z
  have k : ends.readBytes (stepAt 7 j) 32 = [0, 0, 0, 0x40] ++ List.replicate 28 0 := by
    simp [Memory.readBytes, z, e, List.replicate, Nat.add_assoc]
  rw [readStep, stepWords, k, endStep]

/-- An END step passes wherever it stands. -/
theorem end_passes (j : Nat) : live.stepCause ends 7 j endStep = 0 := by
  have a : live.stepLost 7 j = false := by
    have : live.sram.bad = [] := by decide +kernel
    simp [Dev.stepLost, this]
  have b : endStep.badCode = false := by decide +kernel
  have c : endStep.type = 2 := by decide +kernel
  have e : endStep.bareOk = true := by decide +kernel
  simp [Dev.stepCause, a, b, c, e]

/-- A table whose steps and walks show no failure passes. -/
theorem table_passes (d : Dev) (mem : Memory) (n : Nat) (es : List Nat) (f : d.stepFails mem n = []) (p : d.entryPoints mem n = es)
    (v : ∀ m, 2 ≤ m → (d.walkPaths mem n m (es.map (fun i => (i, []))) [] []).2 = []) : d.tableFail mem n = none := by
  have fuel : 2 ≤ walkFuel := by unfold walkFuel; norm_num
  unfold Dev.tableFail Dev.paths
  rw [f, p, v _ fuel]
  rfl

theorem witness_table_passes : live.tableFail ends 7 = none := by
  have f : live.stepFails ends 7 = [] := by
    refine List.filterMap_eq_nil_iff.2 fun j hj => ?_
    rw [ends_step j (List.mem_range.1 hj)]
    simp [end_passes]
  have g : ∀ fast, live.jumpTargets ends 7 fast = [] := by
    intro fast
    have : ∀ j ∈ List.range 8192, (let s := readStep ends 7 j
      if s.type = 0 && decide ((s.jmpMode = 2) = (fast = true)) then s.targets.filter (fun t => decide (t ≤ 8191)) else []) = [] := by
      intro j hj
      have c : endStep.type = 2 := by decide +kernel
      simp [ends_step j (List.mem_range.1 hj), c]
    unfold Dev.jumpTargets
    rw [List.flatMap_eq_nil_iff.2 this]
    rfl
  have p : live.entryPoints ends 7 = [0] := by
    unfold Dev.entryPoints
    rw [g, g]
    decide +kernel
  have e : spotNext endStep 0 [] = ([], []) := by decide +kernel
  have w : ∀ k, live.walkPaths ends 7 (k + 2) [(0, [])] [] [] = ([(0, [])], []) := by
    intro k
    rw [Dev.walkPaths.eq_3, if_neg (by decide), ends_step 0 (by omega), if_neg (by rw [end_passes]; decide), e]
    dsimp only
    rw [List.map_nil, List.nil_append, List.nil_append, Dev.walkPaths.eq_2]
  have v : ∀ m, 2 ≤ m → (live.walkPaths ends 7 m [(0, [])] [] []).2 = [] := by
    intro m hm
    obtain ⟨k, rfl⟩ := Nat.exists_eq_add_of_le' hm
    exact congrArg Prod.snd (w k)
  exact table_passes live ends 7 [0] f p v

theorem witness_SequencerMailbox :
    let run := live.set SEQ_STAT.STATE 7 0 2
    readyFor (asked live 7 0x100 0 []) orderChState 7 = true ∧ readyFor (asked live 7 0x101 0 []) orderRoleBump 7 = true
    ∧ readyFor (asked live 7 0x110 0 [0, 0, 8191]) (orderTableLoad (some [])) 7 = true ∧ live.seqIdle 7 = true ∧ live.mayIssue = true
    ∧ readyFor (asked run 7 0x110 0 [0, 0, 0]) (orderTableLoad none) 7 = true ∧ run.seqIdle 7 = false
    ∧ readyFor (asked run 7 0x111 0 [8191, 0x40000000]) orderStepWrite 7 = true
    ∧ readyFor (asked live 7 0x112 0 [1, 0, 1]) orderSeqCmd 7 = true ∧ ((asked live 7 0x112 0 [1, 0, 1]).call 7 0).late live = true
    ∧ readyFor (asked live 7 0x112 0 [2 ^ 24, 0, 1]) orderSeqCmd 7 = true ∧ ((asked live 7 0x112 0 [0, 0, 1]).call 7 0).late live = false
    ∧ readyFor (asked run 7 0x112 0 [0, 0, 1]) orderSeqCmd 7 = true ∧ run.cmdOf 7 0 = none
    ∧ readyFor (asked live 7 0x113 0 [0x5502]) orderSeqTrig 7 = true ∧ readyFor (asked live 7 0x118 0 []) orderSnap 7 = true
    ∧ readyFor (asked (live.raise SEQ_SNAP.DONE 7) 7 0x118 0 []) orderSnap 7 = true := by decide +kernel

theorem witness_OutputMailbox :
    readyFor (asked live 7 0x120 0 [1, 0, 0, 0, 0xFFF]) orderLvSet 7 = true
    ∧ readyFor (asked live 7 0x121 0 [7, 0, 0, 0, 0x7FFF8000, 0x57FFF, 0xC3E832F0, 0x32]) orderHvSet 7 = true
    ∧ readyFor (asked live 7 0x122 0 [3]) orderHvClear 7 = true ∧ live.chPower 7 < 2800
    ∧ live.totPower < 19200 ∧ (∀ k : Fin 8, k ≠ 7 → live.chs[k].hv.totTrip = 0 ∨ live.chs[k].hv.totClr = true) ∧ live.ticking = true
    ∧ 19200 ≤ (live.onCh 0 (fun c => { c with hv := { c.hv with pAvg := 15600 * 10 * 2 ^ 20 } })).totPower
    ∧ readyFor (asked (live.clear CLK_STAT.LOCK) 7 0x120 0 []) orderLvSet 7 = true ∧ (live.clear CLK_STAT.LOCK).ticking = false
    ∧ readyFor (asked (live.raise HV_STAT.FOLD 7) 7 0x121 0 [7, 0, 0, 0, 0, 1, 0x10119, 0]) orderHvSet 7 = true
    ∧ readyFor (asked live 7 0x123 0 [1, 0x3FFF]) orderDelay 7 = true
    ∧ readyFor (asked live 7 0x130 0 [0, 0, 0x3FF]) (orderPhLoad (some [1])) 7 = true ∧ readyFor (asked live 7 0x130 0 [0, 0, 0]) (orderPhLoad none) 7 = true
    ∧ readyFor (asked live 7 0x131 0 [1, 0, 5, 0]) orderPhOffset 7 = true ∧ ((asked live 7 0x131 0 [1, 0, 5, 0]).call 7 0).late live = true
    ∧ readyFor (asked live 7 0x131 0 [2, 0, 5, 0]) orderPhOffset 7 = true ∧ live.flag DDS_STAT.APPLY_PEND 7 = false
    ∧ readyFor (asked (live.raise DDS_STAT.APPLY_PEND 7) 7 0x131 0 [2, 0, 5, 0]) orderPhOffset 7 = true
    ∧ readyFor (asked live 7 0x132 0 [0x80008000, 1, 0]) orderPhCfg 7 = true
    ∧ readyFor (asked (live.set SEQ_STAT.STATE 7 0 2) 7 0x132 0 [0, 1, 0]) orderPhCfg 7 = true := by decide +kernel

theorem witness_SieveMailbox :
    let run := live.raise SIEVE_STAT.RUNNING 7
    readyFor (asked live 7 0x140 0 [0xA0703]) orderTapSet 7 = true ∧ readyFor (asked run 7 0x140 0 [0]) orderTapSet 7 = true
    ∧ readyFor (asked live 7 0x141 0 [0x2A, 1, 2, 3]) orderSosLoad 7 = true ∧ readyFor (asked run 7 0x141 0 [0x10]) orderSosLoad 7 = true
    ∧ readyFor (asked live 7 0x142 0 [1, 9]) orderSieveRun 7 = true ∧ live.sieveOk 7 = true
    ∧ (((live.raise TAPk_CFG.EN 7 0).set TAPk_CFG.SOS_BASE 7 0 12).set TAPk_CFG.SOS_NUM 7 0 1).sieveOk 7 = false
    ∧ readyFor (asked live 7 0x143 0 [3, 0x7FFF8000, 2]) orderCmpSet 7 = true ∧ readyFor (asked live 7 0x145 0 [3, 2, 0x3FFFF]) orderCapSet 7 = true
    ∧ readyFor (asked live 7 0x144 0 [3, 0]) orderCapRing 7 = true ∧ live.get CAPk_CTRL.MODE 7 3 = 0
    ∧ (live.set CAPk_CTRL.MODE 7 3 1).get CAPk_CTRL.MODE 7 3 ≠ 0 ∧ readyFor (asked live 7 0x144 0 [3, 65536]) orderCapRing 7 = true
    ∧ readyFor (asked live 7 0x150 0 [0, 0, 2]) orderCalSlot 7 = true ∧ readyFor (asked live 7 0x150 0 [1, 0, 2]) orderCalSlot 7 = true
    ∧ ((asked live 7 0x150 0 [1, 0, 2]).call 7 0).late live = true ∧ live.chs[(7 : Fin 8)].requested = false
    ∧ readyFor (asked live 7 0x151 0 [1]) orderCalMode 7 = true ∧ readyFor (asked live 7 0x152 0 [4, 0]) orderCalSave 7 = true
    ∧ readyFor (asked { live with port := {} } 7 0x152 0 [4, 0]) orderCalSave 7 = true ∧ ({ live with port := {} } : Dev).mayIssue = false
    ∧ readyFor (asked (live.onCh 7 (fun c => { c with plumb := { c.plumb with load := some (none, none) } })) 7 0x153 0 [4, 0]) (orderCalRestore none) 7 = true
    ∧ readyFor (asked live 7 0x153 0 [4, 0]) (orderCalRestore (some [])) 7 = true ∧ live.setLegal 7 (leWords (bufBytes [] 512)) = false
    ∧ live.chs[(7 : Fin 8)].plumb.load = none ∧ readyFor (asked live 7 0x153 0 [4, 0]) (orderCalRestore none) 7 = true
    ∧ live.chs[(7 : Fin 8)].plumb.mode = false ∧ live.flag PLB_CTRL.MODE 7 = false ∧ live.seqIdle 7 = true ∧ live.get PLB_STAT.STATE 7 = 0 := by
  decide +kernel

theorem witness_StoreMailbox :
    readyFor (asked live 7 0x160 0 [0x400080, 60000, 1, 8191]) orderMsnSet 7 = true ∧ readyFor (asked live 7 0x161 0 [4, 0]) orderMsnRisks 7 = true
    ∧ readyFor (asked { live with port := {} } 7 0x161 0 [4, 0]) orderMsnRisks 7 = true ∧ ({ live with port := {} } : Dev).mayIssue = false
    ∧ readyFor (asked live 7 0x170 0 [0x20000, 0x02000001, 256, 65535]) orderDramSet 7 = true ∧ readyFor (asked live 7 0x171 0 [1]) orderDramDrain 7 = true
    ∧ (live.set DMC_RANKr.STATE 7 1 3).get DMC_RANKr.STATE 7 1 = 3 ∧ live.get DMC_RANKr.STATE 7 1 = 0
    ∧ live.mason.copies.filter (fun x => x.ch = 7 && live.rankOf x.frame = 1) = [] := by decide +kernel

theorem witness_UrgentActions :
    let on := live.onCh 2 (fun c => { c with hv := { c.hv with stage := .on } })
    cold.boot.up = false ∧ live.boot.up = true ∧ live.ownWait = [] ∧ (0x81#8).getLsbD 7 = true ∧ (0x81#8).getLsbD 6 = false
    ∧ live.porter.halt = false ∧ ({ live.porter with halt := true } : Porter).halt = true ∧ on.chs[(2 : Fin 8)].hv.stage ≠ .off
    ∧ live.get PWR_STRAP.BOOT ≠ 3 ∧ (live.set PWR_STRAP.BOOT 0 0 3).get PWR_STRAP.BOOT = 3 := by decide +kernel

theorem witness_HaltAndFaults :
    let held := { live with porter := { live.porter with halt := true, driveEnd := true, hvOff := true } }
    let cool := { live with porter := { live.porter with tsdLog := true } }
    live.boot.up = true ∧ live.driving = false ∧ live.ownWait = [] ∧ (held.raise PORTER_CTRL.HALT_DRV).driving = true ∧ held.porter.driveEnd = true
    ∧ held.porter.halt = true ∧ held.flag PORTER_HALT.REL_PEND = false ∧ live.porter.halt = false
    ∧ { (inRing 3) with porter := held.porter }.isMember = true ∧ live.isMember = false ∧ live.isRoot = false
    ∧ held.porter.hvOff = true ∧ live.porter.hvOff = false
    ∧ (∀ k : Fin 9, cool.getS PWR_TLOGs.TEMP k < 1520) ∧ 1520 ≤ (cool.set PWR_TLOGs.TEMP 8 0 1520).getS PWR_TLOGs.TEMP 8
    ∧ live.bit PORTER_FAULT.CAUSE 0 0 4 = false := by decide +kernel

theorem witness_Watchdogs :
    let armed := { live with porter := { live.porter with wdtArmed := true, wdtRuns := [0, 9000], hwdRun := true } }
    live.boot.up = true ∧ armed.porter.wdtArmed = true ∧ live.porter.wdtArmed = false ∧ live.get PWR_STRAP.BOOT ≠ 3 ∧ armed.ownWait = []
    ∧ (armed.porter.wdtRuns.filter (fun t => 10000 ≤ t + 10000) ++ [10000]).length = 3 ∧ (armed.porter.wdtRuns.filter (fun t => 10001 ≤ t + 10000) ++ [10001]).length = 2
    ∧ Requester.host ≠ .clerk ∧ bitsOf (0x80000001#32).toNat 0 16 ≠ 0 ∧ bitsOf (0x80000000#32).toNat 0 16 = 0
    ∧ armed.porter.hwdRun = true ∧ armed.asleep = false ∧ (live.set PORTER_HWD.ACT 0 0 4).get PORTER_HWD.ACT = 4
    ∧ live.get MBX_CLERK.STATE = 1 := by decide +kernel

theorem witness_StockroomAndI2c :
    let r := live.setBit HV_SEG.RETIRED 0 0 13
    live.boot.up = true ∧ live.flash.wear.length = 2 ∧ live.hvState 0 = 0 ∧ r.bit HV_SEG.RETIRED 0 0 13 = true
    ∧ r.bit STK_CHn_WEAR3.SEG_PERM 0 0 13 = false ∧ bitsOf (0xA803E8#32).toNat 16 8 = 168 ∧ bitsOf (0xA803E8#32).toNat 0 10 = 1000
    ∧ ¬ bitsOf (0xA90001#32).toNat 16 8 ≤ 168 ∧ live.boot.vaon = true ∧ cold.i2cServes (4 * (0x100#14).toNat) = false
    ∧ cold.i2cServes (4 * (0x80#14).toNat) = true ∧ (0 : Nat) ∈ (⟨[0], []⟩ : I2cMarks).silent ∧ (0 : Nat) ∉ (⟨[1], [0]⟩ : I2cMarks).silent
    ∧ ({ cold.boot with vaon := false } : Boot).vaon = false ∧ bitsOf (0xC5000300#32).toNat 24 8 = 0xC5 ∧ bitsOf (0xC5000700#32).toNat 8 3 = 7
    ∧ bitsOf (0xC4000300#32).toNat 24 8 ≠ 0xC5 ∧ live.power.entry = none ∧ bitAt (0x20000#32).toNat 0 = false ∧ bitsOf (0x20001#32).toNat 16 2 = 2
    ∧ bitAt (0x20001#32).toNat 0 = true ∧ live.get PWR_STAT.STATE = 0 ∧ (live.set PWR_STAT.STATE 0 0 2).get PWR_STAT.STATE = 2 ∧ live.powerBusy = false
    ∧ (live.set SEQ_STAT.STATE 0 0 2).powerBusy = true ∧ (0x8C#14).toNat ≠ 0x8D ∧ (0x8C#14).toNat ≠ 0x400 ∧ cold.boot.up = false := by decide +kernel

theorem witness_ResetAndBoot :
    let st := fun k => live.set PWR_BOOT.STAGE 0 0 k
    let railed := { cold with boot := { cold.boot with por := false, rail := true } }
    let warm := { cold with boot := { cold.boot with por := false }, porter := { cold.porter with thermHold := true } }
    let x : BootNews := ⟨true, some 0, false, 0, true, true, []⟩
    cold.boot.vaon = true ∧ cold.boot.up = false ∧ cold.porter.haltIn = false ∧ cold.boot.rail = false ∧ cold.porter.thermHold = false
    ∧ ({ cold.boot with vaon := false } : Boot).vaon = false ∧ (9 : Fin 10).val ≥ 8 ∧ (7 : Fin 10).val < 8
    ∧ railed.boot.rail = true ∧ railed.boot.por = false ∧ railed.porter.thermHold = false ∧ warm.porter.thermHold = true ∧ warm.boot.rail = false
    ∧ (st 1).get PWR_BOOT.STAGE = 1 ∧ x.refclk = true ∧ (st 1).locked = true ∧ (st 1).get PWR_BOOT.FAIL ≠ 4
    ∧ ((st 2).raise MEM_STAT.START_OK).flag MEM_STAT.START_OK = true ∧ (st 7).get PWR_BOOT.STAGE = 7 ∧ (st 7).boot.again = none := by decide +kernel

theorem witness_PowerAndTemperature :
    let enters := { live with power := { live.power with entry := some 2 } }
    let wakes := { (live.set PWR_STAT.STATE 0 0 3) with power := { live.power with left := 2 } }
    let dirty := live.onCh 3 (fun c => { c with plumb := { c.plumb with dirty := true } })
    let mode := { live.onCh 3 (fun c => { c with plumb := { c.plumb with modeDirty := true } }) with boot := { live.boot with calWait := 6 } }
    live.boot.up = true ∧ live.power.entry = none ∧ live.get PWR_STAT.STATE = 0 ∧ live.powerBusy = false ∧ (live.set SEQ_STAT.STATE 0 0 1).powerBusy = true
    ∧ enters.power.entry = some 2 ∧ enters.power.held = none ∧ enters.ownWait = [] ∧ wakes.get PWR_STAT.STATE = 3 ∧ wakes.power.held = none
    ∧ wakes.power.left = 2 ∧ (1840#16).toInt ≤ 1840 ∧ 1840 < (1841#16).toInt ∧ (2000#16).toInt ≤ 2000 ∧ 2000 < (2001#16).toInt
    ∧ (2240#16).toInt ≤ 2240 ∧ 2400 < (2401#16).toInt ∧ live.porter.tsdLog = false ∧ live.get MBX_CLERK.STATE = 1
    ∧ dirty.chs[(3 : Fin 8)].plumb.dirty = true ∧ dirty.boot.calWait = 0 ∧ (∀ n : Fin 8, dirty.flag PLB_CTRL.OWN n = false)
    ∧ mode.chs[(3 : Fin 8)].plumb.modeDirty = true ∧ (live.raise PLB_CTRL.OWN 7).flag PLB_CTRL.OWN 7 = true
    ∧ (∀ n : Fin 8, live.chs[n].plumb.modeDirty = false ∧ live.chs[n].plumb.dirty = false) ∧ mode.boot.calWait ≠ 0 := by decide +kernel

theorem witness_DmaQueues :
    let d := (live.raise DMA_Qq_CFG.EN 7).set DMA_Qq_TAIL.TAIL 7 0 1
    let g := fun (op len dev : BitVec 32) => [op, len, 0, 0, dev, 0, 0, 0]
    live.flag DMA_Qq_CFG.EN 7 = false ∧ d.flag DMA_Qq_CFG.EN 7 = true ∧ live.dmaReady 7 = false ∧ d.dmaReady 7 = true ∧ d.mayIssue = true
    ∧ d.dmaWaits (DmaDesc.ofWords (g 2 0x40000 0x1C00000)) = false ∧ d.dmaBad (DmaDesc.ofWords (g 0 4 0)) = true
    ∧ d.dmaBad (DmaDesc.ofWords (g 2 0x40000 0x1C00000)) = false ∧ (DmaDesc.ofWords (g 2 0x40000 0x1C00000)).op = 2
    ∧ d.sramUe (DmaDesc.ofWords (g 2 0x40000 0x1C00000)) = [] ∧ d.dmaBad (DmaDesc.ofWords (g 3 1 0x3FFFF)) = false
    ∧ (DmaDesc.ofWords (g 3 1 0x3FFFF)).op = 3 ∧ d.dmaBad (DmaDesc.ofWords (g 3 2 0x3FFFF)) = true := by decide +kernel

theorem witness_HostLink : live.port.up = true ∧ cold.port.up = false ∧ live.port.perst = false ∧ live.boot.up = true
    ∧ ({ live with port := {} } : Dev).port.up = false := by decide +kernel

theorem witness_HostAccesses :
    let b := fun (k : Nat) => List.replicate k (some (1#8))
    live.port.up = true ∧ cold.port.up = false ∧ brokenRules 0 4 ((b 8).map Option.isSome) true false = [1]
    ∧ brokenRules 2 0 ((b 513).map Option.isSome) true false = [2] ∧ brokenRules 0 0 ((b 4).map Option.isSome) true true = [3]
    ∧ brokenRules 0 4 (List.replicate 8 true) false false = [1] ∧ brokenRules 0 0x1000 ((b 4).map Option.isSome) true false = []
    ∧ ({ live with boot := { live.boot with locked1 := false } } : Dev).answers 0 0x1000 = false
    ∧ ¬ ((0 : Fin 3) = 0 ∧ 0x200 ≤ 0x400 ∧ 0x400 < 0x400) ∧ 0xC000 ≤ (0xE7FC#26).toNat ∧ (0xE7FC#26).toNat < 0xE800 ∧ (0xE7FC#26).toNat % 4 = 0
    ∧ live.boot.locked1 = true ∧ live.asleep = false ∧ [1#8, 2, 3, 4].length = 4 := by decide +kernel

theorem witness_MemoryStaysCanonical : (alone live).memWf = true ∧ ({ alone live with mem := [(0, 1)] } : State).memWf = true
    ∧ ({ alone live with mem := [(0, 0)] } : State).memWf = false := by decide +kernel


end Sys2Proof.Tests
end

section
/-!
PROOF. The registers of the course grid (chapter 01): a write of `CRS_LEN` (R15 to R18), and the reads of `CRS_NOW_LO` and of the
bench-time record that latch a shadow (R24, R25, R479, R618).
-/
namespace Sys2Proof.Machine
open Reg

/-! ### Flags -/

/-- A raised flag is set. -/
theorem Dev.flag_raise_same (d : Dev) (f : Fld) (n i : Nat) (h : f.w ≠ 0) : (d.raise f n i).flag f n i = true := by
  have hw : 1 < 2 ^ f.w := Nat.one_lt_two_pow h
  simp [Dev.flag, Nat.mod_eq_of_lt hw]

/-- Raising a flag changes no other register field, and nothing behind the registers. -/
theorem Dev.raise_onlyRegs (d : Dev) (f : Fld) (n i : Nat) : d.onlyRegs (d.raise f n i) [f.at n i] :=
  Dev.onlyRegs_set f n i 1 (d.onlyRegs_refl _) (by simp)

/-! ### A write of `CRS_LEN` -/

/-- A write of `CRS_LEN` is taken: the length is legal (R15), the lock is open (R17) and no length is pending (R18). -/
def Dev.lenTakes (d : Dev) (v : Nat) : Prop :=
  64 ≤ v ∧ v ≤ 16384 ∧ v % 16 = 0 ∧ d.lenOpen = true ∧ d.flag CRS_CTRL.LEN_PEND = false

theorem lenLegal_iff (v : Nat) : lenLegal v = true ↔ 64 ≤ v ∧ v ≤ 16384 ∧ v % 16 = 0 := by
  simp [lenLegal, and_assoc]

theorem Dev.lenTakes_iff (d : Dev) (v : Nat) :
    d.lenTakes v ↔ ¬ (!lenLegal v || !d.lenOpen || d.flag CRS_CTRL.LEN_PEND) = true := by
  simp [Dev.lenTakes, lenLegal_iff, and_assoc]

theorem Dev.lenWrite_of_takes {d : Dev} {v : Nat} (h : d.lenTakes v) : d.lenWrite v = d.lenAccept v :=
  if_neg ((d.lenTakes_iff v).1 h)

theorem Dev.lenWrite_of_not_takes {d : Dev} {v : Nat} (h : ¬ d.lenTakes v) : d.lenWrite v = d.raise CRS_STAT.LEN_REJ :=
  if_pos (not_not.1 (mt (d.lenTakes_iff v).2 h))

/-- The device with a length pending for the joint at which it lands: two courses on, on the root `L_min` courses on (R18). -/
def Dev.lenPended (d : Dev) (v : Nat) : Dev :=
  let land := if d.isRoot then d.time.crs + d.lmin else d.time.crs + 2
  { d with time := { d.time with lenPend := some (v, land, d.time.crs) } }.raise CRS_CTRL.LEN_PEND

/-- What the root publishes with a length it takes (R437) is state of the ring alone. -/
theorem Dev.lenAccept_eq (d : Dev) (v : Nat) : ∃ r, d.lenAccept v = { d.lenPended v with ring := r } := by
  by_cases root : (d.lenPended v).isRoot = true
  · exact ⟨_, if_pos root⟩
  · exact ⟨_, if_neg root⟩

theorem Dev.lenPended_flag (d : Dev) (v : Nat) : (d.lenPended v).flag CRS_CTRL.LEN_PEND = true :=
  Dev.flag_raise_same _ _ _ _ (by decide)

theorem Dev.lenPended_regsBut (d : Dev) (v : Nat) : d.regsBut (d.lenPended v) [CRS_CTRL.LEN_PEND.at] :=
  (Dev.raise_onlyRegs _ CRS_CTRL.LEN_PEND 0 0).2

/-! ### The shadows of the requesters -/

/-- The shadow latched is the host's where an I2C read falls in the core cycle of a host's read (R618). -/
theorem latched_eq (r : Reader) : latched r = if r.who = .i2c ∧ r.shared = true then .host else r.who := by
  simp [latched]

@[simp] theorem Dev.onShadow_regs (d : Dev) (q : Requester) (f : Shadow → Shadow) : (d.onShadow q f).regs = d.regs := by
  cases q <;> rfl

@[simp] theorem Dev.onShadow_chs (d : Dev) (q : Requester) (f : Shadow → Shadow) : (d.onShadow q f).chs = d.chs := by
  cases q <;> rfl

@[simp] theorem Dev.onShadow_crs (d : Dev) (q : Requester) (f : Shadow → Shadow) : (d.onShadow q f).time.crs = d.time.crs := by
  cases q <;> rfl

@[simp] theorem Dev.onShadow_tick (d : Dev) (q : Requester) (f : Shadow → Shadow) : (d.onShadow q f).time.tick = d.time.tick := by
  cases q <;> rfl

@[simp] theorem Dev.shadow_onShadow_same (d : Dev) (q : Requester) (f : Shadow → Shadow) :
    (d.onShadow q f).shadow q = f (d.shadow q) := by
  cases q <;> rfl

/-- No requester's latch touches the shadow of another (R25). -/
theorem Dev.shadow_onShadow_other (d : Dev) {q x : Requester} (f : Shadow → Shadow) (h : x ≠ q) :
    (d.onShadow q f).shadow x = d.shadow x := by
  revert h
  cases q <;> cases x <;> simp [Dev.onShadow, Dev.shadow]

/-- Settles O3: a write is taken or refused by R15 to R18, a read latches the shadow of R24, R479 and R618. -/
theorem courseRegisters : Obligations.CourseRegisters := by
  refine ⟨fun s w => ⟨fun ok => ?_, fun bad => ?_⟩, fun s r => ⟨?_, ?_⟩⟩
  · -- the length is taken
    obtain ⟨ring, taken⟩ := s.dev.lenAccept_eq (w.toNat % 65536)
    refine ⟨_, rfl, ?_⟩
    rw [Dev.lenWrite_of_takes ok, taken]
    exact ⟨rfl, Dev.lenPended_flag .., Dev.lenPended_regsBut _ _, rfl⟩
  · -- the length is refused
    refine ⟨_, rfl, ?_⟩
    rw [Dev.lenWrite_of_not_takes bad]
    exact ⟨Dev.flag_raise_same _ _ _ _ (by decide), Dev.raise_onlyRegs ..⟩
  · -- `CRS_NOW_LO` is read
    rw [← latched_eq]
    refine ⟨_, rfl, Dev.onShadow_regs .., Dev.onShadow_chs .., ?_, rfl, Dev.shadow_onShadow_same .., fun _ other => ?_,
      Dev.onShadow_crs .., Dev.onShadow_tick ..⟩
    · exact congrArg (fun crs => leBytes 4 (crs % 2 ^ 32)) (Dev.onShadow_crs ..)
    · exact Dev.shadow_onShadow_other _ _ other
  · -- the first word of the bench-time record is read
    rw [← latched_eq]
    refine ⟨_, rfl, Dev.onShadow_regs .., Dev.onShadow_chs .., ?_, rfl, Dev.shadow_onShadow_same .., fun _ other => ?_,
      Dev.onShadow_crs ..⟩
    · exact congrArg (leBytes 4) (Dev.get_of_regs (Dev.onShadow_regs ..) ..)
    · exact Dev.shadow_onShadow_other _ _ other

end Sys2Proof.Machine
end

section
/-!
PROOF. The registers through which the host commands a sequencer (chapter 02): a write of `SEQ_CMD` (R109), a write of `SEQ_TRIG`
(R100), and a request for a snapshot (R88, R89).
-/
namespace Sys2Proof.Machine
open Reg

/-! ### Flags raised on a condition -/

theorem Dev.flag_raiseIf_same (d : Dev) {c : Bool} (f : Fld) (n i : Nat) (hc : c = true) (h : f.w ≠ 0) :
    (d.raiseIf c f n i).flag f n i = true := by
  subst hc
  exact Dev.flag_raise_same d f n i h

theorem Dev.raiseIf_false (d : Dev) {c : Bool} (f : Fld) (n i : Nat) (hc : c = false) : d.raiseIf c f n i = d := by
  subst hc
  rfl

theorem Dev.get_raiseIf_id (d : Dev) (c : Bool) (f g : Fld) (n i m j : Nat) (h : f.id ≠ g.id) :
    (d.raiseIf c f n i).get g m j = d.get g m j := by
  cases c
  · rfl
  · exact d.get_set_id f g n i m j 1 h

theorem Dev.flag_of_get {d e : Dev} {f : Fld} {n i : Nat} (h : e.get f n i = d.get f n i) : e.flag f n i = d.flag f n i := by
  simp [Dev.flag, h]

theorem Dev.onlyRegs_raiseIf {d e : Dev} {ks : List Key} (c : Bool) (f : Fld) (n i : Nat) (h : d.onlyRegs e ks) (hk : f.at n i ∈ ks) :
    d.onlyRegs (e.raiseIf c f n i) ks := by
  cases c
  · exact h
  · exact Dev.onlyRegs_set f n i 1 h hk

/-! ### Bits of a word stored in a field of their width -/

theorem Dev.get_set_bitsOf (d : Dev) (f : Fld) (n i v lo : Nat) : (d.set f n i (bitsOf v lo f.w)).get f n i = bitsOf v lo f.w := by
  rw [Dev.get_set_same, bitsOf, Nat.mod_mod]

/-! ### An action is queued -/

/-- An action accepted for a channel is queued last in that channel; no channel differs otherwise. -/
theorem Dev.addAct_chs (d : Dev) (n : Fin 8) (kind : ActKind) (org : Origin) (land acc : Nat) (slots : List (Nat × Nat)) :
    ∃ a : Act, a.kind = kind ∧ a.org = org ∧ a.land = land ∧ a.acc = acc
      ∧ (d.addAct n kind org land acc slots).chs = (d.onCh n (fun c => { c with acts := c.acts ++ [a] })).chs := by
  cases kind <;> exact ⟨_, rfl, rfl, rfl, rfl, rfl⟩

/-- Of the registers only the state that the sequencer shows can follow an accepted action (R108). -/
theorem Dev.addAct_regsBut (d : Dev) (n : Fin 8) (kind : ActKind) (org : Origin) (land acc : Nat) (slots : List (Nat × Nat)) :
    d.regsBut (d.addAct n kind org land acc slots) [SEQ_STAT.STATE.at n] := by
  cases kind <;> exact (Dev.showState_onlyRegs _ n).2

/-! ### A write of `SEQ_CMD` -/

/-- The joint that a command names: that of `SEQ_AT`, and where that is 0 the one two courses on (R32, R109). -/
def Dev.cmdLand (d : Dev) (n : Fin 8) : Nat :=
  let at_ := d.getPair SEQ_AT_LO.AT_LO SEQ_AT_HI.AT_HI n
  if at_ = 0 then d.time.crs + 2 else at_

/-- The joint of a command lies less than two courses ahead: what sets `CMD_LATE` (R109). -/
def Dev.cmdLate (d : Dev) (n : Fin 8) : Bool := d.cmdLand n < d.time.crs + 2

/-- What sets `CMD_REJ`: a pending command, a joint too far ahead, a START of an ARMED or RUNNING sequencer (R109). -/
def Dev.cmdRej (d : Dev) (n : Fin 8) (k : ActKind) : Bool :=
  let st := d.get SEQ_STAT.STATE n
  d.flag SEQ_STAT.CMD_PEND n || d.time.crs + 2 ^ 24 < d.cmdLand n || (k = .start && (st = 1 || st = 2))

theorem Dev.cmdLate_iff (d : Dev) (n : Fin 8) : d.cmdLate n = true ↔ d.cmdLand n < d.time.crs + 2 :=
  decide_eq_true_iff

theorem Dev.cmdRej_iff (d : Dev) (n : Fin 8) (k : ActKind) :
    d.cmdRej n k = true ↔ d.flag SEQ_STAT.CMD_PEND n = true ∨ d.time.crs + 2 ^ 24 < d.cmdLand n
      ∨ (k = .start ∧ (d.get SEQ_STAT.STATE n = 1 ∨ d.get SEQ_STAT.STATE n = 2)) := by
  simp [Dev.cmdRej, or_assoc]

theorem Dev.seqCmd_of_refused {d : Dev} {n : Fin 8} {k : ActKind} (h : d.cmdLate n = true ∨ d.cmdRej n k = true) :
    d.seqCmd n k = (d.raiseIf (d.cmdLate n) SEQ_STAT.CMD_LATE n).raiseIf (d.cmdRej n k) SEQ_STAT.CMD_REJ n :=
  if_pos (Bool.or_eq_true_iff.2 h)

theorem Dev.seqCmd_of_taken {d : Dev} {n : Fin 8} {k : ActKind} (hl : ¬ d.cmdLate n = true) (hr : ¬ d.cmdRej n k = true) :
    d.seqCmd n k = (d.raise SEQ_STAT.CMD_PEND n).addAct n k .reg (d.cmdLand n) d.time.crs [] :=
  if_neg (fun h => (Bool.or_eq_true_iff.1 h).elim hl hr)

/-- Every cause of a refusal sets its flag, and nothing else changes (R109). -/
theorem Dev.seqCmd_refused {d : Dev} {n : Fin 8} {k : ActKind} (h : d.cmdLate n = true ∨ d.cmdRej n k = true) :
    let e := d.seqCmd n k
    (d.cmdLate n = true → e.flag SEQ_STAT.CMD_LATE n = true) ∧ (d.cmdRej n k = true → e.flag SEQ_STAT.CMD_REJ n = true)
    ∧ (¬ d.cmdLate n = true → e.get SEQ_STAT.CMD_LATE n = d.get SEQ_STAT.CMD_LATE n)
    ∧ (¬ d.cmdRej n k = true → e.get SEQ_STAT.CMD_REJ n = d.get SEQ_STAT.CMD_REJ n)
    ∧ d.onlyRegs e [SEQ_STAT.CMD_LATE.at n, SEQ_STAT.CMD_REJ.at n] := by
  rw [Dev.seqCmd_of_refused h]
  have lateStays := (d.raiseIf (d.cmdLate n) SEQ_STAT.CMD_LATE n).get_raiseIf_id (d.cmdRej n k) SEQ_STAT.CMD_REJ SEQ_STAT.CMD_LATE
    n 0 n 0 (by decide)
  refine ⟨fun late => ?_, fun rej => ?_, fun late => ?_, fun rej => ?_, ?_⟩
  · rw [Dev.flag_of_get lateStays]
    exact Dev.flag_raiseIf_same _ _ _ _ late (by decide)
  · exact Dev.flag_raiseIf_same _ _ _ _ rej (by decide)
  · rw [lateStays, Dev.raiseIf_false _ _ _ _ (Bool.eq_false_of_not_eq_true late)]
  · rw [Dev.raiseIf_false _ _ _ _ (Bool.eq_false_of_not_eq_true rej)]
    exact Dev.get_raiseIf_id _ _ _ _ _ _ _ _ (by decide)
  · exact Dev.onlyRegs_raiseIf _ _ _ _ (Dev.onlyRegs_raiseIf _ _ _ _ (d.onlyRegs_refl _) (by simp)) (by simp)

/-- A command that nothing refuses is pending, and its action is queued for its joint (R109). -/
theorem Dev.seqCmd_taken {d : Dev} {n : Fin 8} {k : ActKind} (hl : ¬ d.cmdLate n = true) (hr : ¬ d.cmdRej n k = true) :
    let e := d.seqCmd n k
    ∃ a : Act, e.flag SEQ_STAT.CMD_PEND n = true ∧ e.chs[n] = { d.chs[n] with acts := d.chs[n].acts ++ [a] }
      ∧ a.kind = k ∧ a.org = .reg ∧ a.land = d.cmdLand n ∧ a.acc = d.time.crs
      ∧ d.regsBut e [SEQ_STAT.CMD_PEND.at n, SEQ_STAT.STATE.at n] ∧ d.chsBut e n := by
  rw [Dev.seqCmd_of_taken hl hr]
  obtain ⟨a, kind, org, land, acc, chs⟩ := (d.raise SEQ_STAT.CMD_PEND n).addAct_chs n k .reg (d.cmdLand n) d.time.crs []
  have shown := (d.raise SEQ_STAT.CMD_PEND n).addAct_regsBut n k .reg (d.cmdLand n) d.time.crs []
  refine ⟨a, ?_, ?_, kind, org, land, acc, ?_, fun m other => ?_⟩
  · rw [Dev.flag_of_get (shown SEQ_STAT.CMD_PEND n 0 (by simp [Fld.at, SEQ_STAT.CMD_PEND, SEQ_STAT.STATE]))]
    exact Dev.flag_raise_same _ _ _ _ (by decide)
  · rw [chs]
    exact Dev.onCh_same ..
  · exact Dev.regsBut_trans (Dev.regsBut_mono (d.raise_onlyRegs _ _ _).2 (by simp)) (Dev.regsBut_mono shown (by simp))
  · rw [chs]
    exact Dev.onCh_other _ _ _ _ other.symm

/-- The three commands of `SEQ_CMD` differ in the kind of action alone. -/
theorem exec_seqCmd {c : Instr} {k : ActKind} {n : Fin 8} (s : State)
    (h : (c, k) ∈ [(.seqCmdStart n, .start), (.seqCmdStop n, .stop), (.seqCmdRestart n, .restart)]) :
    exec c s = .next (s.withDev (s.dev.seqCmd n k)) := by
  simp only [List.mem_cons, Prod.mk.injEq, List.not_mem_nil, or_false] at h
  obtain ⟨rfl, rfl⟩ | ⟨rfl, rfl⟩ | ⟨rfl, rfl⟩ := h <;> rfl

/-! ### A write of `SEQ_TRIG` -/

theorem trigBad_iff (v : Nat) :
    trigBad v = true ↔ bitsOf v 0 2 = 3 ∨ 2 ≤ bitsOf v 8 2 ∨ 2 ≤ bitsOf v 10 2 ∨ 2 ≤ bitsOf v 12 2 ∨ 2 ≤ bitsOf v 14 2 := by
  simp [trigBad, Nat.succ_le_iff, or_assoc]

/-- Each policy of a word that is taken reads back as written (R100). -/
theorem Dev.trigSet_get (d : Dev) (n v : Nat) :
    let e := d.trigSet n v
    e.get SEQ_TRIG.START_POL n = bitsOf v 0 2 ∧ e.get SEQ_TRIG.JMP0_POL n = bitsOf v 8 2 ∧ e.get SEQ_TRIG.JMP1_POL n = bitsOf v 10 2
    ∧ e.get SEQ_TRIG.JMP2_POL n = bitsOf v 12 2 ∧ e.get SEQ_TRIG.JMP3_POL n = bitsOf v 14 2 := by
  unfold Dev.trigSet
  refine ⟨?_, ?_, ?_, ?_, ?_⟩ <;> simp (disch := decide) only [Dev.get_set_id]
  · exact Dev.get_set_bitsOf _ SEQ_TRIG.START_POL ..
  · exact Dev.get_set_bitsOf _ SEQ_TRIG.JMP0_POL ..
  · exact Dev.get_set_bitsOf _ SEQ_TRIG.JMP1_POL ..
  · exact Dev.get_set_bitsOf _ SEQ_TRIG.JMP2_POL ..
  · exact Dev.get_set_bitsOf _ SEQ_TRIG.JMP3_POL ..

theorem Dev.trigSet_onlyRegs (d : Dev) (n v : Nat) :
    d.onlyRegs (d.trigSet n v) [SEQ_TRIG.START_POL.at n, SEQ_TRIG.JMP0_POL.at n, SEQ_TRIG.JMP1_POL.at n, SEQ_TRIG.JMP2_POL.at n,
      SEQ_TRIG.JMP3_POL.at n] := by
  unfold Dev.trigSet
  iterate 5 refine Dev.onlyRegs_set _ _ _ _ ?_ (by simp)
  exact d.onlyRegs_refl _

theorem exec_seqTrigWrite_legal {w : BitVec 32} (n : Fin 8) (s : State) (h : ¬ trigBad w.toNat = true) :
    exec (.seqTrigWrite n w) s = .next (s.withDev (s.dev.trigSet n w.toNat)) :=
  if_neg h

theorem exec_seqTrigWrite_illegal {w : BitVec 32} (n : Fin 8) (s : State) (h : trigBad w.toNat = true) :
    exec (.seqTrigWrite n w) s = .next (s.withDev (s.dev.raise SEQ_STAT.CFG_REJ n)) :=
  if_pos h

/-! ### A request for a snapshot -/

theorem exec_seqSnapReq_held {n : Fin 8} {s : State} (h : s.dev.flag SEQ_SNAP.DONE n = true) : exec (.seqSnapReq n) s = .next s :=
  if_pos h

theorem exec_seqSnapReq_free {n : Fin 8} {s : State} (h : s.dev.flag SEQ_SNAP.DONE n = false) :
    exec (.seqSnapReq n) s = .next (s.withDev (s.dev.raise SEQ_SNAP.PEND n)) :=
  if_neg (Bool.eq_false_iff.1 h)

/-- Settles O9: a command is refused with its flags or pending by R109, a policy word is taken or refused whole by R100, a snapshot
is requested by R89. -/
theorem sequencerCommands : Obligations.SequencerCommands := by
  refine ⟨fun s n c k hc => ⟨fun refused => ?_, fun late rej => ?_⟩, fun s n => ⟨fun w legal => ?_, fun w illegal => ?_,
    fun free => ?_, exec_seqSnapReq_held⟩⟩
  · -- the command is refused
    have late := s.dev.cmdLate_iff n
    have rej := s.dev.cmdRej_iff n k
    obtain ⟨setsLate, setsRej, keepsLate, keepsRej, only⟩ := Dev.seqCmd_refused (refused.imp late.2 rej.2)
    exact ⟨_, exec_seqCmd s hc, setsLate ∘ late.2, setsRej ∘ rej.2, keepsLate ∘ mt late.1, keepsRej ∘ mt rej.1, only⟩
  · -- the command is taken
    obtain ⟨a, taken⟩ := Dev.seqCmd_taken (mt (s.dev.cmdLate_iff n).1 late) (mt (s.dev.cmdRej_iff n k).1 rej)
    exact ⟨_, a, exec_seqCmd s hc, taken⟩
  · -- the policies are taken
    obtain ⟨start, jmp0, jmp1, jmp2, jmp3⟩ := s.dev.trigSet_get n w.toNat
    exact ⟨_, exec_seqTrigWrite_legal n s (mt (trigBad_iff _).1 legal), start, jmp0, jmp1, jmp2, jmp3, s.dev.trigSet_onlyRegs n _⟩
  · -- the policies are refused
    exact ⟨_, exec_seqTrigWrite_illegal n s ((trigBad_iff _).2 illegal), Dev.flag_raise_same _ _ _ _ (by decide),
      Dev.raise_onlyRegs ..⟩
  · -- a snapshot is requested
    exact ⟨_, exec_seqSnapReq_free free, Dev.flag_raise_same _ _ _ _ (by decide), Dev.raise_onlyRegs ..⟩

end Sys2Proof.Machine
end

section
/-!
PROOF. What every command keeps: it answers a next state, leaves the queue alone, and keeps the canonical form of the memories.
-/
namespace Sys2Proof.Machine
open Reg

/-! ### A memory keeps its canonical form -/

/-- The memory beside a block has the canonical form where `m` has it. -/
structure KeepsForm (q : Dev × Memory) (m : Memory) : Prop where
  wf : m.wf = true → q.2.wf = true

theorem KeepsForm.refl (d : Dev) (m : Memory) : KeepsForm (d, m) m := ⟨id⟩

theorem KeepsForm.trans {q r : Dev × Memory} {m : Memory} (h : KeepsForm q m) (k : KeepsForm r q.2) : KeepsForm r m := ⟨k.wf ∘ h.wf⟩

/-- The block beside the memory is of no account. -/
theorem KeepsForm.beside {q : Dev × Memory} {m : Memory} (h : KeepsForm q m) (d : Dev) : KeepsForm (d, q.2) m := ⟨h.wf⟩

theorem KeepsForm.writeBytes (d : Dev) (m : Memory) (a : Nat) (bs : List (BitVec 8)) : KeepsForm (d, m.writeBytes a bs) m :=
  ⟨m.writeBytes_wf a bs⟩

theorem KeepsForm.foldl {α : Type} {f : Dev × Memory → α → Dev × Memory} (l : List α)
    (h : ∀ (d : Dev) (m : Memory) (a : α), KeepsForm (f (d, m) a) m) (d : Dev) (m : Memory) : KeepsForm (l.foldl f (d, m)) m :=
  foldl_keeps (fun q => KeepsForm q m) f l (d, m) (fun q a hq => hq.trans (h q.1 q.2 a)) (.refl d m)

theorem KeepsForm.ite {c : Prop} [Decidable c] {m : Memory} {a b : Dev × Memory} (ha : KeepsForm a m) (hb : KeepsForm b m) :
    KeepsForm (if c then a else b) m := by
  split
  · exact ha
  · exact hb

/-! ### Capture (chapter 07) -/

theorem blockWrite_keepsForm (n : Fin 8) (k : Nat) (d : Dev) (m : Memory) : KeepsForm (blockWrite n k (d, m)) m := by
  unfold blockWrite
  refine .ite (.refl _ m) ?_
  split
  · exact .refl _ m
  · exact .writeBytes _ m _ _

theorem drain_keepsForm (n : Fin 8) (k need f : Nat) (d : Dev) (m : Memory) : KeepsForm (drain n k need f (d, m)) m := by
  induction f generalizing d m with
  | zero => exact .refl _ m
  | succ f ih => exact .ite (.refl _ m) ((blockWrite_keepsForm n k d m).trans (ih _ _))

theorem endRecord_keepsForm (n : Fin 8) (k reason : Nat) (d : Dev) (m : Memory) : KeepsForm (endRecord n k reason (d, m)) m := by
  unfold endRecord
  dsimp -zeta only
  cases (d.chs[n].tap k).record with
  | none => exact .refl _ m
  | some r =>
    dsimp -zeta only
    extract_lets h base
    cases r.hdrAt with
    | none => exact .refl _ m
    | some o =>
      dsimp -zeta only
      exact .writeBytes _ m (dramAt n (base + o)) h

theorem addOutput_keepsForm (n : Fin 8) (k : Nat) (o : TapOut) (d : Dev) (m : Memory) : KeepsForm (addOutput n k o (d, m)) m := by
  unfold addOutput
  split
  · exact .refl _ m
  · exact .ite (endRecord_keepsForm n k 0 _ m) (.refl _ m)

theorem loseOutput_keepsForm (n : Fin 8) (k : Nat) (d : Dev) (m : Memory) : KeepsForm (loseOutput n k (d, m)) m :=
  (endRecord_keepsForm n k 3 d m).beside _

theorem roomFor_keepsForm (n : Fin 8) (k : Nat) (d : Dev) (m : Memory) : KeepsForm (Dev.roomFor n k (d, m)).2 m :=
  (drain_keepsForm n k _ _ d m).beside _

theorem putOutput_keepsForm (n : Fin 8) (k : Nat) (o : TapOut) (d : Dev) (m : Memory) : KeepsForm (putOutput n k o (d, m)) m := by
  unfold putOutput
  split
  · exact loseOutput_keepsForm n k d m
  · extract_lets cut left q
    have room : KeepsForm q.2 m := .trans (.ite (endRecord_keepsForm n k 1 d m) (.refl _ m)) (roomFor_keepsForm n k _ _)
    clear_value q
    exact .ite (room.trans (loseOutput_keepsForm n k _ _)) (room.trans (addOutput_keepsForm n k o _ _))

theorem triggered_keepsForm (n : Fin 8) (k : Nat) (o : TapOut) (d : Dev) (m : Memory) : KeepsForm (triggered n k o (d, m)) m := by
  unfold triggered
  exact .foldl _ (fun d m x => putOutput_keepsForm n k x d m) _ m

theorem capture_keepsForm (n : Fin 8) (k : Nat) (o : TapOut) (d : Dev) (m : Memory) : KeepsForm (capture n k o (d, m)) m := by
  unfold capture
  extract_lets t due q
  have room : KeepsForm q.2 m := roomFor_keepsForm n k d m
  exact .ite (.refl _ m) (.ite (putOutput_keepsForm n k o d m) (.ite (.refl _ m) (.ite (room.trans (loseOutput_keepsForm n k _ _))
    (.ite (room.trans (addOutput_keepsForm n k o _ _)) (.ite (room.trans (triggered_keepsForm n k o _ _)) room)))))

theorem tapOutput_keepsForm (n : Fin 8) (k : Fin 4) (codes : SenseCodes) (d : Dev) (m : Memory) : KeepsForm (tapOutput n k codes (d, m)) m := by
  unfold tapOutput
  exact .ite (.refl _ m) ((capture_keepsForm n k _ _ m).beside _)

theorem linkLoss_keepsForm (n : Fin 8) (lost k : Nat) (d : Dev) (m : Memory) : KeepsForm (linkLoss n lost k (d, m)) m := by
  unfold linkLoss
  exact .ite (.refl _ m) ((endRecord_keepsForm n k 3 _ m).beside _)

/-! ### The Sieve (chapter 07) -/

theorem settleCause_keepsForm (n : Fin 8) (k : Nat) (d : Dev) (m : Memory) : KeepsForm (settleCause n k (d, m)) m := by
  unfold settleCause
  exact (endRecord_keepsForm n k 2 d m).beside _

theorem startTap_keepsForm (n : Fin 8) (k : Nat) (d : Dev) (m : Memory) : KeepsForm (startTap n k (d, m)) m := by
  unfold startTap
  exact settleCause_keepsForm n k _ m

theorem quietTaps_keepsForm (n : Fin 8) (reason : Nat) (d : Dev) (m : Memory) : KeepsForm (quietTaps n reason (d, m)) m := by
  unfold quietTaps
  exact .foldl _ (fun d m k => (endRecord_keepsForm n k reason d m).beside _) _ m

theorem sieveStart_keepsForm (n : Fin 8) (d : Dev) (m : Memory) : KeepsForm (sieveStart n (d, m)) m := by
  unfold sieveStart
  exact .ite (.refl _ m) (.foldl _ (fun d m k => startTap_keepsForm n k d m) _ m)

theorem sieveStop_keepsForm (n : Fin 8) (d : Dev) (m : Memory) : KeepsForm (sieveStop n (d, m)) m := by
  unfold sieveStop
  exact (quietTaps_keepsForm n 4 d m).beside _

theorem sievePause_keepsForm (n : Fin 8) (d : Dev) (m : Memory) : KeepsForm (sievePause n (d, m)) m := by
  unfold sievePause
  exact .ite (.refl _ m) ((quietTaps_keepsForm n 5 d m).beside _)

theorem sieveResume_keepsForm (n : Fin 8) (d : Dev) (m : Memory) : KeepsForm (sieveResume n (d, m)) m := by
  unfold sieveResume
  exact .ite (.refl _ m) (.foldl _ (fun d m k => startTap_keepsForm n k d m) _ m)

theorem landCap_keepsForm (n : Fin 8) (x : Nat × Nat) (d : Dev) (m : Memory) : KeepsForm (landCap n x (d, m)) m := by
  unfold landCap
  exact .ite ((endRecord_keepsForm n _ 4 d m).beside _) ((endRecord_keepsForm n _ 4 d m).beside _)

theorem sieveJoint_keepsForm (shifted : Bool) (n : Fin 8) (d : Dev) (m : Memory) : KeepsForm (sieveJoint shifted n (d, m)) m := by
  unfold sieveJoint
  extract_lets sv p₁ p₂ p₃ p₄ p₅ d₅ old p₆
  have h₁ : KeepsForm p₁ m := by
    unfold p₁
    split
    · exact .ite (.refl _ m) (sieveStart_keepsForm n d m)
    · exact .ite (sieveStop_keepsForm n d m) (.refl _ m)
    · exact .refl _ m
  have h₃ : KeepsForm p₃ m := h₁.trans (.foldl _ (fun d m x => landCap_keepsForm n x d m) _ _)
  have h₅ : KeepsForm p₅ m := h₃.trans (.ite (sievePause_keepsForm n _ _) (.ite (sieveResume_keepsForm n _ _) (.refl _ _)))
  have h₆ : KeepsForm p₆ m := by
    unfold p₆
    split
    · exact h₅
    · exact h₅.trans (.ite (.refl _ _) (.foldl _ (fun d m k => settleCause_keepsForm n k d m) _ _))
  exact .ite (h₆.beside _) h₆

/-! ### Writes of the step tables (chapter 02) -/

theorem bar4Byte_keepsForm (d : Dev) (m : Memory) (off : Nat) (b : BitVec 8) : KeepsForm (bar4Byte (d, m) off b) m :=
  .ite (.refl _ m) (.ite (.refl _ m) ⟨m.write_wf _ b⟩)

theorem bar4Bytes_keepsForm (d : Dev) (m : Memory) (off : Nat) (bs : List (BitVec 8)) : KeepsForm (bar4Bytes (d, m) off bs) m := by
  induction bs generalizing d m off with
  | nil => exact .refl _ m
  | cons b bs ih => exact (bar4Byte_keepsForm d m off b).trans (ih _ _ _)

/-! ### Pages of the Mason (chapter 09) -/

theorem placeIn_keepsForm (n page frame : Nat) (held : Bool) (left : Nat) (bytes : List (BitVec 8)) (d : Dev) (m : Memory) :
    KeepsForm (placeIn n page frame held left bytes (d, m)) m :=
  .writeBytes _ m _ _

theorem pageIn_keepsForm (n : Fin 8) (page : Nat) (held : Bool) (left : Nat) (bytes : List (BitVec 8)) (d : Dev) (m : Memory) :
    KeepsForm (pageIn n page held left bytes (d, m)) m := by
  unfold pageIn
  refine .ite (.refl _ m) ?_
  split
  · exact .refl _ m
  · exact placeIn_keepsForm _ _ _ _ _ _ d m

theorem pageFetched_keepsForm (n : Fin 8) (page : Nat) (bytes : List (BitVec 8)) (d : Dev) (m : Memory) :
    KeepsForm (pageFetched n page bytes (d, m)) m := by
  unfold pageFetched
  dsimp only
  split
  · exact .refl _ m
  · refine .ite (.refl _ m) ?_
    split
    · exact pageIn_keepsForm _ _ _ _ _ _ m
    · exact .ite (pageIn_keepsForm _ _ _ _ _ _ m) (.refl _ m)

theorem runPlaced_keepsForm (first : Nat) (bytes : List (BitVec 8)) (k : Nat) (d : Dev) (m : Memory) :
    KeepsForm (runPlaced first bytes k (d, m)) m := by
  unfold runPlaced
  extract_lets page part
  refine .foldl _ (fun d m n => ?_) d m
  exact .ite (pageIn_keepsForm n page false 0 part d m) (.refl _ m)

theorem bufferRead_keepsForm (tag : Nat) (bytes : List (BitVec 8)) (d : Dev) (m : Memory) : KeepsForm (bufferRead tag bytes (d, m)) m := by
  unfold bufferRead
  split
  · exact .refl _ m
  · rename_i r _
    refine .ite (.refl _ m) ?_
    extract_lets d₀ p
    refine KeepsForm.beside (q := p) ?_ _
    refine .foldl _ ?_ d₀ m
    intro d m k
    exact runPlaced_keepsForm r.page bytes k d m

theorem uploadPage_keepsForm {page copies : Nat} {bytes : List (BitVec 8)} {d : Dev} {m : Memory} {q : Dev × Memory}
    (h : uploadPage page copies bytes (d, m) = some q) : KeepsForm q m := by
  unfold uploadPage at h
  dsimp only at h
  split at h
  · cases h
  · split at h
    · cases h
      exact placeIn_keepsForm ..
    · split at h
      · cases h
      · cases h
        exact (placeIn_keepsForm ..).trans (placeIn_keepsForm ..)

theorem uploadPages_keepsForm {copies k : Nat} {page : Nat} {bytes : List (BitVec 8)} {d : Dev} {m : Memory} {q : Dev × Memory}
    (h : uploadPages copies bytes k page (d, m) = some q) : KeepsForm q m := by
  induction k generalizing page bytes d m with
  | zero => cases h; exact .refl _ m
  | succ k ih =>
    unfold uploadPages at h
    split at h
    · cases h
    · rename_i p hp
      exact (uploadPage_keepsForm hp).trans (ih h)

/-! ### The DRAM (chapter 11) -/

theorem movePage_keepsForm (n f : Nat) (d : Dev) (m : Memory) : KeepsForm (movePage n f (d, m)) m := by
  unfold movePage
  extract_lets
  split
  · exact .refl d m
  · extract_lets
    split
    · exact (placeIn_keepsForm _ _ _ _ _ _ _ m).beside _
    · exact (placeIn_keepsForm _ _ _ _ _ _ _ m).beside _
    · exact .ite (.refl _ m) (.refl d m)

theorem moveOut_keepsForm (n : Nat) (d : Dev) (m : Memory) : KeepsForm (moveOut n (d, m)) m := by
  unfold moveOut
  exact .foldl _ (fun d m f => movePage_keepsForm n f d m) d m

theorem markRow_keepsForm (n f k : Nat) (d : Dev) (m : Memory) : KeepsForm (markRow n f k (d, m)) m :=
  .ite (.refl _ m) (movePage_keepsForm n f _ m)

theorem rankDrain_keepsForm (n r : Nat) (d : Dev) (m : Memory) : KeepsForm (rankDrain n r (d, m)) m :=
  .ite (.refl _ m) (.ite (.refl _ m) (moveOut_keepsForm n _ m))

theorem lostDrain_keepsForm (n r f : Nat) (d : Dev) (m : Memory) : KeepsForm (lostDrain n r f (d, m)) m :=
  .ite (rankDrain_keepsForm n r _ m) (.refl _ m)

theorem burstLost_keepsForm (n r a port : Nat) (d : Dev) (m : Memory) : KeepsForm (burstLost n r a port (d, m)) m := by
  unfold burstLost
  dsimp only
  exact (markRow_keepsForm ..).trans (lostDrain_keepsForm ..)

theorem dramRead_keepsForm (n r a port : Nat) (found : DramFinding) (bursts : Nat) (d : Dev) (m : Memory) :
    KeepsForm (dramRead n r a port found bursts (d, m)) m := by
  cases found with
  | clean | linkFixed | linkBad | codeBad => exact .refl _ m
  | codeFixed => exact .ite (markRow_keepsForm _ _ _ _ m) (.refl _ m)
  | lost => exact .ite (.refl _ m) (burstLost_keepsForm _ _ _ _ _ m)

/-! ### DMA (chapter 14) -/

theorem ringLost_keepsForm (x : DmaDesc) (base size : Nat) (d : Dev) (m : Memory) (i : Nat) : KeepsForm (ringLost x base size (d, m) i) m := by
  unfold ringLost
  refine .ite (.refl _ m) ?_
  split
  · exact .refl _ m
  · exact dramRead_keepsForm _ _ _ _ _ _ _ m

theorem dmaMove_keepsForm (x : DmaDesc) (data : List (BitVec 8)) (hostErr : Bool) (ue : List Nat) (d : Dev) (m : Memory) :
    KeepsForm (dmaMove x data hostErr ue (d, m)).1 m := by
  unfold dmaMove
  extract_lets d₀ ring size ue₁ d₁ q ue₂ bytes d₂
  split
  · have h : KeepsForm q m := .foldl _ (fun d m i => ringLost_keepsForm x ring size d m i) d₁ m
    exact h.beside _
  · split
    · exact .refl _ m
    · exact bar4Bytes_keepsForm _ m _ _

/-! ### Loss of lock, power states and the joint -/

theorem pauseSieves_keepsForm (d : Dev) (m : Memory) : KeepsForm (pauseSieves (d, m)) m := by
  unfold pauseSieves
  exact .foldl _ (fun d m n => sievePause_keepsForm n d m) d m

theorem pllUnlock_keepsForm (d : Dev) (m : Memory) : KeepsForm (pllUnlock (d, m)) m :=
  .ite (.refl _ m) (pauseSieves_keepsForm _ m)

theorem areaOff_keepsForm (n : Fin 8) (d : Dev) (m : Memory) : KeepsForm (areaOff n (d, m)) m :=
  .ite (.refl _ m) ⟨m.filter_wf _⟩

theorem entryDone_keepsForm (d : Dev) (m : Memory) : KeepsForm (entryDone (d, m)) m := by
  unfold entryDone
  split
  · exact .refl _ m
  · rename_i st _
    extract_lets d₀ power d₁ p d₂ d₃ d₄ d₅ m'
    have hp : KeepsForm p m := by
      refine .ite (pauseSieves_keepsForm _ m) (.foldl _ (fun d m n => ?_) _ m)
      exact (KeepsForm.foldl _ (fun d m k => endRecord_keepsForm n k 5 d m) d m).beside _
    have hm : KeepsForm (d₅, m') m := by
      unfold m'
      split
      · exact (hp.trans (.foldl _ (fun d m n => areaOff_keepsForm n d m) _ _)).beside _
      · exact hp.beside _
    exact hm.beside _

theorem settleAll_keepsForm (shifted : Bool) (old : Nat) (d : Dev) (m : Memory) : KeepsForm (settleAll shifted old (d, m)) m := by
  unfold settleAll
  exact .foldl _ (fun d m n => sieveJoint_keepsForm shifted n _ m) d m

theorem pauseSlots_keepsForm (d : Dev) (m : Memory) : KeepsForm (pauseSlots (d, m)) m := by
  unfold pauseSlots
  refine .foldl _ (fun d m n => ?_) d m
  exact .ite (sievePause_keepsForm n d m) (.refl _ m)

theorem jointBegin_keepsForm (p : Dev × Memory) : KeepsForm (jointBegin p) p.2 := by
  unfold jointBegin
  exact (settleAll_keepsForm _ _ _ p.2).beside _

theorem jointEnd_keepsForm (p : Dev × Memory) : KeepsForm (jointEnd p) p.2 := by
  unfold jointEnd
  exact (pauseSlots_keepsForm _ p.2).beside _

theorem joint_keepsForm (p : Dev × Memory) : KeepsForm (joint p) p.2 := by
  unfold joint
  exact .ite ((jointBegin_keepsForm p).trans (jointEnd_keepsForm _)) (.refl p.1 p.2)

/-! ### Mailbox commands (chapter 14) -/

theorem KeepsForm.ite₁ {c : Prop} [Decidable c] {m : Memory} {a b : (Dev × Memory) × Answer} (ha : KeepsForm a.1 m)
    (hb : KeepsForm b.1 m) : KeepsForm (if c then a else b).1 m := by
  split
  · exact ha
  · exact hb

/-- The effect of a row of R507 keeps the canonical form. -/
def Order.KeepsForm (o : Order) : Prop := ∀ d m c, Machine.KeepsForm (o.act d m c).1 m

theorem withBuf_keepsForm {f : List (BitVec 8) → Dev → Memory → Call → (Dev × Memory) × Answer}
    (h : ∀ bytes d m c, KeepsForm (f bytes d m c).1 m) (buf : Option (List (BitVec 8))) (k : Dev → Call → Nat) (d : Dev) (m : Memory)
    (c : Call) : KeepsForm (withBuf buf k f d m c).1 m := by
  cases buf with
  | none => exact .refl d m
  | some b => exact .ite₁ (h _ _ m c) (.refl d m)

theorem tableLoad_keepsForm (n : Fin 8) (first : Nat) (bytes : List (BitVec 8)) (d : Dev) (m : Memory) :
    KeepsForm (tableLoad n first bytes d m).1 m := by
  unfold tableLoad
  extract_lets new
  have written (d : Dev) : KeepsForm (d, new) m := .writeBytes d m _ _
  split
  · exact .refl d m
  · split
    · exact .refl _ m
    · split
      · exact written _
      · exact written _

theorem ringReserve_keepsForm (n : Fin 8) (k frames : Nat) (d : Dev) (m : Memory) : KeepsForm (ringReserve n k frames d m).1 m := by
  unfold ringReserve
  refine .ite₁ (.ite₁ (.refl _ m) (.refl _ m)) ?_
  extract_lets
  split
  · exact .refl _ m
  · split
    · exact .refl _ m
    · exact .refl _ m

theorem orderUpload_keepsForm (buf : Option (List (BitVec 8))) : (orderUpload buf).KeepsForm := by
  intro d m c
  refine .ite₁ (.refl d m) (withBuf_keepsForm (fun bytes e m c => ?_) _ _ d m c)
  split
  · rename_i q hq
    exact (uploadPages_keepsForm hq).beside _
  · exact .ite₁ (.refl _ m) (.refl _ m)

theorem orderTableLoad_keepsForm (buf : Option (List (BitVec 8))) : (orderTableLoad buf).KeepsForm := fun d m _ =>
  .ite₁ (.refl d m) (withBuf_keepsForm (fun bytes d m _ => tableLoad_keepsForm _ _ bytes d m) _ _ d m _)

theorem orderStepWrite_keepsForm : orderStepWrite.KeepsForm := by
  intro d m c
  dsimp only [orderStepWrite]
  exact tableLoad_keepsForm ..

theorem orderDramDrain_keepsForm : orderDramDrain.KeepsForm := fun d m _ => .ite₁ (.refl d m) (rankDrain_keepsForm _ _ _ m)

theorem Order.carry_keepsForm {o : Order} (h : o.KeepsForm) (d : Dev) (m : Memory) (c : Call) : Machine.KeepsForm (o.carry d m c) m := by
  unfold Order.carry
  split
  · exact .refl _ m
  · extract_lets r
    have hr : Machine.KeepsForm r.1 m := h _ m c
    split
    · exact hr.beside _
    · exact hr
    · exact hr.beside _

theorem Order.serve_keepsForm {o : Order} (h : o.KeepsForm) (d : Dev) (m : Memory) (mbx slot : Nat) :
    Machine.KeepsForm (o.serve d m mbx slot) m :=
  .ite (.refl d m) (.ite (.refl _ m) (.ite (.refl d m) (Order.carry_keepsForm h d m _)))

/-! ### A meaning completes -/

/-- `t` can follow `s`: the commands that wait are those of `s`, and the memories keep their canonical form. -/
def State.Follows (s t : State) : Prop := t.pending = s.pending ∧ (s.mem.wf = true → t.mem.wf = true)

theorem State.Follows.refl (s : State) : s.Follows s := ⟨rfl, id⟩

theorem State.Follows.trans {s t u : State} (h : s.Follows t) (k : t.Follows u) : s.Follows u := ⟨k.1.trans h.1, k.2 ∘ h.2⟩

/-- The outcome in `s` is a next state that can follow it. -/
def Completes (s : State) (o : Host.Outcome State Fault Refusal) : Prop := ∃ t, o = .next t ∧ s.Follows t

theorem Completes.of_follows {s t : State} (h : s.Follows t) : Completes s (.next t) := ⟨t, rfl, h⟩

theorem Completes.same {s : State} : Completes s (.next s) := .of_follows (.refl s)

theorem Completes.dev {s : State} (d : Dev) : Completes s (.next (s.withDev d)) := .of_follows ⟨rfl, id⟩

theorem Completes.both {s : State} {q : Dev × Memory} (h : KeepsForm q s.mem) : Completes s (.next { s with dev := q.1, mem := q.2 }) :=
  .of_follows ⟨rfl, h.wf⟩

theorem Completes.ite {s : State} {c : Prop} [Decidable c] {a b : Host.Outcome State Fault Refusal} (ha : Completes s a)
    (hb : Completes s b) : Completes s (if c then a else b) := by
  split
  · exact ha
  · exact hb

theorem Completes.held {s : State} (d : Dev) : Completes s (s.held d) := .of_follows ⟨rfl, fun _ => rfl⟩

theorem Completes.order {o : Order} (h : o.KeepsForm) (m : Fin 9) (slot : Fin 16) (s : State) : Completes s (o.run m slot s) :=
  .both (Order.serve_keepsForm h s.dev s.mem m slot)

/-! ### Every command completes -/

theorem orderDescWrite_keepsForm : orderDescWrite.KeepsForm := by
  intro d m c
  refine .ite₁ ?_ (.refl _ m)
  split
  · exact .refl d m
  · exact .ite₁ (.refl _ m) (.refl d m)

theorem orderExtSet_keepsForm : orderExtSet.KeepsForm := by
  intro d m c
  dsimp only [orderExtSet]
  refine .ite₁ (.refl d m) (.ite₁ ?_ (.ite₁ (.refl _ m) (.refl _ m)))
  split
  · exact .refl d m
  · exact .ite₁ (.refl _ m) (.refl _ m)

theorem orderCalRestore_keepsForm (buf : Option (List (BitVec 8))) : (orderCalRestore buf).KeepsForm := fun d m c =>
  .ite₁ (.refl d m) (withBuf_keepsForm (fun _ d m _ => .ite₁ (.refl d m) (.ite₁ (.refl d m) (.refl _ m))) _ _ d m c)

theorem orderRingCtl_keepsForm : orderRingCtl.KeepsForm := fun d m _ =>
  have answered (d : Dev) (a : Answer) : Machine.KeepsForm ((d, m), a).1 m := .refl d m
  .ite₁ (answered d _) (.ite₁ (answered _ _) (.ite₁ (answered _ _) (.ite₁ (.ite₁ (answered _ _) (answered d _))
    (.ite₁ (.ite₁ (answered _ _) (answered d _)) (.ite₁ (answered _ _) (answered d _))))))

theorem orderCapRing_keepsForm : orderCapRing.KeepsForm := fun d m _ =>
  .ite₁ (.refl d m) (.ite₁ (.refl _ m) (ringReserve_keepsForm _ _ _ d m))

theorem returnWordBad_completes (n : Fin 8) (lost : List Nat) (s : State) : Completes s (execReturnWordBad n lost s) :=
  .ite (.both (.foldl _ (fun d m k => linkLoss_keepsForm n (lost.getD k 0) k d m) _ _)) (.dev _)

theorem benchFire_completes (s : State) : Completes s (execBenchFire s) := by
  unfold execBenchFire
  split
  · exact .same
  · exact .dev _

theorem backingTimeout_completes (tag : BitVec 16) (s : State) : Completes s (execBackingTimeout tag s) := by
  unfold execBackingTimeout
  extract_lets d
  split
  · exact .same
  · exact .dev _

theorem sramScrub_completes (arr : Fin 11) (bank : Fin 16) (row : BitVec 12) (found : Ecc) (col : Fin 576) (s : State) :
    Completes s (execSramScrub arr bank row found col s) := by
  refine .ite .same ?_
  cases found with
  | clean => exact .same
  | fixed => exact .dev _
  | lost => exact .dev _

theorem startupMarchDone_completes (bad : List (Fin 11 × Fin 16 × Nat)) (s : State) : Completes s (execStartupMarchDone bad s) :=
  .ite .same (.of_follows ⟨rfl, s.mem.filter_wf _⟩)

theorem marchTestDone_completes (cols : Nat) (abort : Bool) (s : State) : Completes s (execMarchTestDone cols abort s) := by
  unfold execMarchTestDone
  extract_lets d
  split
  · exact .same
  · exact .ite (.dev _) (.ite .same (.ite (.dev _) (.ite (.dev _) (.dev _))))

theorem dramReadResult_completes (n : Fin 8) (addr : BitVec 33) (found : DramFinding) (port : Fin 7) (bursts : Nat)
    (drain act late : Bool) (s : State) : Completes s (execDramReadResult n addr found port bursts drain act late s) := by
  unfold execDramReadResult
  split
  · exact .same
  · rename_i r _
    extract_lets d p q e
    have hp : KeepsForm p s.mem := dramRead_keepsForm ..
    have hq : KeepsForm q s.mem := .ite (hp.trans (rankDrain_keepsForm _ _ _ _)) hp
    exact .both (hq.beside e)

theorem dramScrub_completes (n : Fin 8) (addr : BitVec 33) (found : Ecc) (bursts : Nat) (hour : Option Bool) (last : Bool)
    (s : State) : Completes s (execDramScrub n addr found bursts hour last s) := by
  unfold execDramScrub
  extract_lets d a f what home visit
  split
  · exact .same
  · rename_i r _
    refine .ite .same ?_
    extract_lets p e
    have hp : KeepsForm p s.mem := .ite (dramRead_keepsForm ..) (.refl d _)
    exact .both (hp.beside (if last then e.countWrap STK_SCRUB_STAT.PASSES else e))

theorem dmaDescriptorDone_completes (q : Fin 8) (g : List (BitVec 32)) (data : List (BitVec 8)) (hostErr : Bool) (ue : List Nat)
    (s : State) : Completes s (execDmaDescriptorDone q g data hostErr ue s) :=
  .ite .same (.ite (.dev _) (.ite (.dev _) (.both ((dmaMove_keepsForm (DmaDesc.ofWords g) data hostErr ue s.dev s.mem).beside _))))

theorem tempSample_completes (hv : Bool) (sensor : Fin 9) (t : BitVec 16) (s : State) : Completes s (execTempSample hv sensor t s) := by
  refine .ite .same (.of_follows ⟨rfl, fun wf => ?_⟩)
  dsimp only
  split
  · rfl
  · exact wf

/-- The command is an access of a bus to a register, which can have the meaning of another command. -/
def onBus : Instr → Bool
  | .regWrite .. | .i2cWrite .. => true
  | _ => false

/-- Every command but a write over a bus completes: case by case, by the shape of its meaning. -/
theorem exec_completes_of_not_onBus {c : Instr} (s : State) (h : onBus c = false) : Completes s (exec c s) := by
  cases c with
  | regWrite | i2cWrite => cases h
  | syncInEdge | refLoss | pllLock | crsLenWrite | seqCmdStart | seqCmdStop | seqCmdRestart | lockstepMismatch | pairTestDone
  | trigEdge | lineFire | fastJumpCut | fastJumpBusyEnd | evlFireWrite | evlSrcWrite | evlDstWrite | evsFireWrite
  | eventCellInsert | sysEventReceive | hpEvirqAck | lvEnWrite | lvDlyWrite | hvEnWrite | hvClampWrite | scClr | tripClr
  | railMeasure | hvEnFall | hvRampdownEnd | ilimOnset | foldBackEnd | segRetire | pwrTripSecondStage | snsAWrite
  | sieveCfgWrite | sieveRunStart | sieveRunStop | cmpWrite | capCtrlWrite | sampleWordBad | plbModeWrite | plbLoad
  | plumbCommitPhase | msnCheck | atRiskCheckDone | requestPost | backingRetry | msnHzWrite | starveBegin | columnRepairDone
  | refreshDue | dramTempPoll | dmcPageWrite | cellReceive | linkFrameReceive | linkLost | linkUp | joinStart
  | joinRequestReceive | rejoinStart | recalDone | evictTimeout | ringRoleWrite | ringJoinCmd | ringRejoinCmd | ringRecalCmd
  | ringMsgGo | ringMsgReceive | benchFrameReceive | transmitOpportunity | benchFrameSent | beaconReceive | bbPlcaWrite
  | bbFilterWrite | bbTemplateWrite | bbRxqPop | mbxDoorbell | mbxDoneClear | dmaTailDoorbell | dmaEnableWrite | dmaResume
  | clrNRelease | hvEnRise | delayLineArrived | linkFrameSend | crsNowRead | rxCommand | pwrLimitCrossed | msnCqDoorbell
  | msnDescWindowRead | ringMrxPop | bbHtxGo | bbTodRead | perstN | porNRelease | clrNAssert | haltNLow => exact .dev _
  | porNAssert | railLow | vaonLoss => exact .held _
  | calAutoStore | urgentQuiet | urgentRelease | urgentHalt | urgentHvOff | urgentClerkReset | bootStepComplete | pwrGo
  | wakeDone | flashFetch | haltNResample | porterHaltRel | porterFaultClear | porterClrHvOff | porterClrTsd | porterLaneFail
  | porterLaneClean | wdtKick | wdtExpiry | hwdWrite | hwdKick | hwdExpiry | i2cBusTimeout | stkSave | stkSegTest
  | stkScrubWrite | wearStore | powerOnHour | clerkBeat | layCourse | lateNoticeReceive | rxBallInBand | rxWaitTimeout
  | railWindowRestored | hvEnStable | shortDeclared | powerDownEntry | selfRefreshEntry | rankDrainDone | rankSweepDone
  | haltSymbolReceive | beaconTimeout | beaconSend | ptpSyncTimeout | functionLevelReset | hotReset | linkDown | laneCellSend => exact .ite (.dev _) .same
  | seqSnapReq | stopHoldExpiry | railLowRecovered | thermHoldEnd | vaonUp | sequencingBreach | pcieLinkUp | configSpaceWrite
  | barReadTimeout | i2cRead | enablingSwitchClose => exact .ite .same (.dev _)
  | cqAheadWrite | seqTrigWrite | ddsAmpWrite | ddsEpochWrite | ddsApply | hvSlewWrite | hvIlimWrite | hvPdCoefWrite | pdSwap
  | hvRxWrite | capRdWrite | plbReqWrite | msnDescWindowWrite | msnExtCommit | msnBwWrite | memMtStart | dmcQosWrite
  | dmcLpWrite => exact .ite (.dev _) (.dev _)
  | joint => exact .both (joint_keepsForm _)
  | pllUnlock => exact .both (pllUnlock_keepsForm _ _)
  | captureBlockComplete n k => exact .both (blockWrite_keepsForm n k _ _)
  | masonWalk n => exact .both (moveOut_keepsForm _ _ _)
  | pageFetchDone n page bytes => exact .both (pageFetched_keepsForm n _ bytes _ _)
  | completionBufferRead tag bytes => exact .both (bufferRead_keepsForm _ bytes _ _)
  | powerEntryDone => exact .both (entryDone_keepsForm _ _)
  | bar4Write off bytes => exact .ite (.dev _) (.both (bar4Bytes_keepsForm _ _ _ bytes))
  | tapOutput n k codes => exact .ite (.both (tapOutput_keepsForm n k codes _ _)) (.dev _)
  | returnWordBad n lost => exact returnWordBad_completes n lost s
  | hostReadFail => exact .ite .same (.ite (.dev _) (.dev _))
  | ptpMessageReceive => exact .ite .same (.ite (.dev _) (.dev _))
  | sramReadError => exact .ite .same (.ite (.dev _) (.dev _))
  | regRead => exact .ite .same (.ite (.dev _) (.ite (.dev _) (.ite (.dev _) (.dev _))))
  | benchFire => exact benchFire_completes s
  | backingTimeout tag => exact backingTimeout_completes tag s
  | sramScrub arr bank row found col => exact sramScrub_completes arr bank row found col s
  | startupMarchDone bad => exact startupMarchDone_completes bad s
  | marchTestDone cols abort => exact marchTestDone_completes cols abort s
  | dramReadResult n addr found port bursts drain act late => exact dramReadResult_completes n addr found port bursts drain act late s
  | dramScrub n addr found bursts hour last => exact dramScrub_completes n addr found bursts hour last s
  | dmaDescriptorDone q g data hostErr ue => exact dmaDescriptorDone_completes q g data hostErr ue s
  | tempSample hv sensor t => exact tempSample_completes hv sensor t s
  | release | lineSet | sysMap | sysTxSet | syncSet | benchCfg | benchAllow | benchFilter | benchTemplate | seqTrig | lvSet
  | hvSet | hvClear | delay | cmpSet | capSet | msnSet | dramSet => exact .order (fun _ _ _ => .refl _ _) ..
  | fwRestart | flashCfg | calStore | descRead | power | memTest | chState | roleBump | calMode => exact .order (fun _ m _ => .refl _ m) ..
  | info | fwCommit | descFree | backing | groupSet | groupAct | benchSend | seqCmd | snap | phCfg | tapSet | sosLoad
  | sieveRun | calSave | msnRisks => exact .order (fun _ m _ => .ite₁ (.refl _ m) (.refl _ m)) ..
  | sysFire | crsSet | ringMsg | phOffset | calSlot => exact .order (fun _ m _ => .ite₁ (.refl _ m) (.ite₁ (.refl _ m) (.refl _ m))) ..
  | upload m slot buf => exact .order (orderUpload_keepsForm buf) ..
  | tableLoad m slot buf => exact .order (orderTableLoad_keepsForm buf) ..
  | stepWrite => exact .order (orderStepWrite_keepsForm) ..
  | dramDrain => exact .order (orderDramDrain_keepsForm) ..
  | fwStage => exact .order (fun d m c => withBuf_keepsForm (fun _ d m _ => .ite₁ (.refl _ m) (.refl d m)) _ _ d m c) ..
  | phLoad => exact .order (fun d m c => withBuf_keepsForm (fun _ _ m _ => .refl _ m) _ _ d m c) ..
  | calRestore => exact .order (orderCalRestore_keepsForm _) ..
  | descWrite => exact .order (orderDescWrite_keepsForm) ..
  | extSet => exact .order (orderExtSet_keepsForm) ..
  | ringCtl => exact .order (orderRingCtl_keepsForm) ..
  | capRing => exact .order (orderCapRing_keepsForm) ..

/-! ### Writes over a bus -/

/-- Each of these meanings completes, in every state. -/
def Complete (fs : List Meaning) : Prop := ∀ f ∈ fs, ∀ s, Completes s (f s)

theorem Complete.nil : Complete [] := fun _ h => absurd h List.not_mem_nil

theorem Complete.cons {f : Meaning} {fs : List Meaning} (h : ∀ s, Completes s (f s)) (k : Complete fs) : Complete (f :: fs) := by
  intro g hg
  rcases List.mem_cons.1 hg with rfl | hg
  · exact h
  · exact k g hg

/-- The meaning of a command that is no write over a bus. -/
theorem Complete.one (c : Instr) (h : onBus c = false) : Complete [exec c] := .cons (fun s => exec_completes_of_not_onBus s h) .nil

theorem Complete.dev (g : Dev → Dev) : Complete [onDev g] := .cons (fun _ => .dev _) .nil

theorem Complete.append {fs gs : List Meaning} (h : Complete fs) (k : Complete gs) : Complete (fs ++ gs) := by
  intro f hf
  rcases List.mem_append.1 hf with hf | hf
  · exact h f hf
  · exact k f hf

theorem Complete.ite {c : Prop} [Decidable c] {fs gs : List Meaning} (h : Complete fs) (k : Complete gs) :
    Complete (if c then fs else gs) := by
  split
  · exact h
  · exact k

theorem Complete.onlyIf {b : Bool} {f : Meaning} (h : Complete [f]) : Complete (onlyIf b f) := .ite h .nil

theorem runAll_follows {fs : List Meaning} (h : Complete fs) (s : State) : s.Follows (runAll fs s) := by
  induction fs generalizing s with
  | nil => exact .refl s
  | cons f fs ih =>
    obtain ⟨t, next, follows⟩ := h f List.mem_cons_self s
    rw [runAll, next]
    exact follows.trans (ih (fun g hg => h g (List.mem_cons_of_mem _ hg)) t)

theorem urgent_complete (v : Nat) : Complete (urgent v) := by
  refine .ite .nil ?_
  split
  · exact .one (.urgentQuiet _) rfl
  · exact .one (.urgentRelease _) rfl
  · exact .one .urgentHalt rfl
  · exact .one .urgentHvOff rfl
  · exact .one .urgentClerkReset rfl
  · exact .nil

theorem lowWrite_complete (x : WriteNews) (r : Row) (n v : Nat)
    {plain : List Fld → Meaning} (hp : ∀ l s, Completes s (plain l s)) :
    Complete (lowWrite x r n v plain) :=
  .ite (.one (.crsLenWrite _) rfl) <| .ite (.one (.porterFaultClear _) rfl) <|
  .ite (.cons (hp _) (.onlyIf (.one .porterHaltRel rfl))) <|
  .ite (.append (.onlyIf (.one .porterClrHvOff rfl)) (.onlyIf (.one .porterClrTsd rfl))) <|
  .ite (.onlyIf (.one (.wdtKick _) rfl)) <| .ite (.one (.hwdWrite _) rfl) <| .ite (.onlyIf (.one .hwdKick rfl)) <|
  .ite (.one (.mbxDoorbell _ _) rfl) <| .ite (.one (.mbxDoneClear _ _) rfl) <| .ite (urgent_complete _) <|
  .ite (.one (.hpEvirqAck _) rfl) <| .ite (.cons (hp _) (.onlyIf (.one (.pwrGo _) rfl))) <|
  .ite (.one (.stkScrubWrite _) rfl) <|
  .ite (.cons (hp _) (.append (.onlyIf (.one (.stkSegTest _ _) rfl)) (.onlyIf (.one (.stkSave _) rfl)))) <|
  .ite (.ite (.one (.memMtStart _) rfl) (.cons (hp _) .nil)) <| .cons (hp _) .nil

theorem highWrite_complete (a : Nat) (r : Row) (n i v m : Nat) (d : Dev)
    {plain : List Fld → Meaning} (hp : ∀ l s, Completes s (plain l s)) :
    Complete (highWrite a r n i v m d plain) :=
  .ite (.one (.evlFireWrite _) rfl) <| .ite (.one (.evlFireWrite _) rfl) <| .ite (.one (.evsFireWrite _) rfl) <|
  .ite (.one (.evlSrcWrite _ _ _) rfl) <| .ite (.one (.evlDstWrite _ _ _) rfl) <|
  .ite (.cons (hp _) (.onlyIf (.one (.ringRoleWrite _) rfl))) <|
  .ite (.append (.append (.onlyIf (.one .ringJoinCmd rfl)) (.onlyIf (.one .ringRejoinCmd rfl))) (.onlyIf (.one .ringRecalCmd rfl))) <|
  .ite (.ite (.one (.ringMsgGo _) rfl) (.cons (hp _) .nil)) <| .ite (.onlyIf (.one .ringMrxPop rfl)) <|
  .ite (.one (.bbPlcaWrite _) rfl) <| .ite (.dev _) <| .ite (.one (.bbFilterWrite _ _ _) rfl) <|
  .ite (.one (.bbTemplateWrite _ _ _) rfl) <| .ite (.ite (.one (.bbHtxGo _) rfl) (.cons (hp _) .nil)) <|
  .ite (.onlyIf (.one .bbRxqPop rfl)) <| .ite (.onlyIf (.cons (hp _) .nil)) <|
  .ite (.append (.append (.onlyIf (.dev _)) (.onlyIf (.one (.dmaEnableWrite _ _) rfl))) (.onlyIf (.one (.dmaResume _) rfl))) <|
  .ite (.one (.dmaTailDoorbell _ _) rfl) <| .cons (hp _) .nil

theorem chanWrite_complete (r : Row) (n : Fin 8) (i v m : Nat) (d : Dev)
    {plain : List Fld → Meaning} (hp : ∀ l s, Completes s (plain l s)) :
    Complete (chanWrite r n i v m d plain) := by
  have cmd : Complete (match v % 4 with
      | 1 => [execSeqCmdStart n]
      | 2 => [execSeqCmdStop n]
      | 3 => [execSeqCmdRestart n]
      | _ => []) := by
    split
    · exact .one (.seqCmdStart n) rfl
    · exact .one (.seqCmdStop n) rfl
    · exact .one (.seqCmdRestart n) rfl
    · exact .nil
  exact .ite cmd <|
  .ite (.one (.seqTrigWrite _ _) rfl) <| .ite (.cons (hp _) (.onlyIf (.one (.seqSnapReq _) rfl))) <|
  .ite (.cons (hp _) (.onlyIf (.one (.cqAheadWrite _ _) rfl))) <| .ite (.cons (hp _) (.onlyIf (.one (.ddsApply _) rfl))) <|
  .ite (.one (.ddsAmpWrite _ _) rfl) <| .ite (.one (.ddsEpochWrite _ _) rfl) <| .ite (.one (.ddsEpochWrite _ _) rfl) <|
  .ite (.cons (hp _) (.onlyIf (.one (.lvEnWrite _ _) rfl))) <| .ite (.cons (hp _) (.dev _)) <|
  .ite (.one (.lvDlyWrite _ _) rfl) <|
  .ite (.cons (hp _) (.append (.onlyIf (.one (.hvEnWrite _ _) rfl)) (.onlyIf (.one (.pdSwap _) rfl)))) <|
  .ite (.one (.hvClampWrite _ _) rfl) <| .ite (.one (.hvSlewWrite _ _) rfl) <| .ite (.one (.hvIlimWrite _ _) rfl) <|
  .ite (.one (.hvRxWrite _ _) rfl) <| .ite (.append (.onlyIf (.one (.scClr _) rfl)) (.onlyIf (.one (.tripClr _) rfl))) <|
  .ite (.one (.hvPdCoefWrite _ _ _ _) rfl) <| .cons (hp _) .nil

theorem dramSet_complete (n v m : Nat) (d : Dev)
    {plain : List Fld → Meaning} (hp : ∀ l s, Completes s (plain l s)) :
    Complete (dramSet n v m d plain) := by
  refine .cons (hp _) (.cons (fun s => ?_) (.onlyIf (.one (.dmcPageWrite _ _) rfl)))
  extract_lets
  split
  · exact .dev _
  · split
    · exact .dev _
    · exact .dev _

theorem chanWriteAlso_complete (r : Row) (n : Fin 8) (i v m : Nat) (d : Dev)
    {plain : List Fld → Meaning} (hp : ∀ l s, Completes s (plain l s)) :
    Complete (chanWrite' r n i v m d plain) :=

  .ite (.cons (hp _) (.append (.onlyIf (.one (.sieveCfgWrite _ _ _) rfl)) (.ite (.ite (.one (.sieveRunStart _) rfl) (.one (.sieveRunStop _) rfl)) .nil))) <|
  .ite (.one (.snsAWrite _ _) rfl) <| .ite (.one (.sieveCfgWrite _ _ _) rfl) <| .ite (.one (.sieveCfgWrite _ _ _) rfl) <|
  .ite (.one (.sieveCfgWrite _ _ _) rfl) <| .ite (.one (.sieveCfgWrite _ _ _) rfl) <| .ite (.one (.cmpWrite _ _ _ _) rfl) <|
  .ite (.ite (.one (.cmpWrite _ _ _ _) rfl) (.cons (hp _) .nil)) <| .ite (.one (.capCtrlWrite _ _ _ _) rfl) <|
  .ite (.one (.capCtrlWrite _ _ _ _) rfl) <| .ite (.one (.capRdWrite _ _ _) rfl) <|
  .ite (.cons (hp _) (.append (.onlyIf (.one (.plbModeWrite _ _) rfl)) (.onlyIf (.one (.plbLoad _) rfl)))) <|
  .ite (.one (.plbReqWrite _ _) rfl) <| .ite (dramSet_complete _ _ _ _ hp) <| .ite (.one (.dmcQosWrite _ _ _) rfl) <|
  .ite (.one (.dmcLpWrite _ _) rfl) <| .cons (hp _) .nil

theorem masonWrite_complete (x : WriteNews) (r : Row) (n v m : Nat) (d : Dev)
    {plain : List Fld → Meaning} (hp : ∀ l s, Completes s (plain l s)) :
    Complete (masonWrite x r n v m d plain) :=
  .ite (.cons (hp _) (.onlyIf (.one .msnCheck rfl))) <| .ite (.one (.msnBwWrite _) rfl) <| .ite (.dev _) <|
  .ite (.append (.onlyIf (.dev _)) (.cons (hp _) .nil)) <| .ite (.onlyIf (.dev _)) <| .ite (.one (.msnCqDoorbell _ _) rfl) <|
  .ite (.onlyIf (.one (.msnExtCommit _) rfl)) <|
  .ite (.append (.onlyIf (.one .msnDescWindowRead rfl)) (.onlyIf (.one .msnDescWindowWrite rfl))) <|
  .ite (.one (.msnHzWrite _ _ _) rfl) <| .ite (.one (.msnHzWrite _ _ _) rfl) <| .cons (hp _) .nil

theorem regWrite_follows (x : WriteNews) (a w m : Nat) (s : State) : s.Follows (regWrite x a w m s) := by
  unfold regWrite
  split
  · exact .refl s
  · rename_i r n i _
    split
    · exact .refl s
    · have hp : ∀ l t, Completes t (r.plain n i w m l t) := fun _ _ => .dev _
      exact runAll_follows (.ite (lowWrite_complete x r n _ hp) (.ite (highWrite_complete a r n i _ m _ hp)
        (.ite (.ite (chanWrite_complete r _ i _ m _ hp) (chanWriteAlso_complete r _ i _ m _ hp)) (masonWrite_complete x r n _ m _ hp)))) s

theorem State.Follows.dev (s : State) (d : Dev) : s.Follows (s.withDev d) := ⟨rfl, id⟩

theorem State.Follows.ite {s a b : State} {c : Prop} [Decidable c] (ha : s.Follows a) (hb : s.Follows b) :
    s.Follows (if c then a else b) := by
  split
  · exact ha
  · exact hb

theorem wordWrite_follows (x : WriteNews) (a w m : Nat) (s : State) : s.Follows (wordWrite x a w m s) :=
  .ite (.dev s _) (.ite (.dev s _) (regWrite_follows x a w m s))

theorem busWrite_follows (x : WriteNews) (bar : Fin 3) (off : Nat) (bytes : List (Option (BitVec 8))) (s : State) :
    s.Follows (busWrite x bar off bytes s) := by
  unfold busWrite
  extract_lets b lo hi a whole w t
  have low : s.Follows t := .ite (.refl s) (wordWrite_follows x a _ _ s)
  exact .ite (runAll_follows (.one (.evlFireWrite w) rfl) s) (.ite (runAll_follows (.one (.ddsEpochWrite _ w) rfl) s)
    (.ite low (low.trans (wordWrite_follows x _ _ _ t))))

theorem sramWrite_follows (off : Nat) (bytes : List (Option (BitVec 8))) (s : State) : s.Follows (sramWrite off bytes s) := by
  refine .ite (runAll_follows (.one (.bar4Write _ _) rfl) s) (foldl_keeps (fun t => s.Follows t) _ _ s (fun t k ht => ?_) (.refl s))
  split
  · exact ht.trans (runAll_follows (.one (.bar4Write _ _) rfl) t)
  · exact ht

/-- Every command completes. -/
theorem exec_completes (c : Instr) (s : State) : Completes s (exec c s) := by
  cases bus : onBus c with
  | false => exact exec_completes_of_not_onBus s bus
  | true =>
    cases c with
    | regWrite bar off bytes poison news =>
      exact .ite .same (.ite (.dev _) (.ite (.dev _) (.ite (.of_follows (sramWrite_follows _ bytes s)) (.ite (.dev _)
        (.of_follows (busWrite_follows news bar _ bytes s))))))
    | i2cWrite word data =>
      exact .ite .same (.ite (.of_follows (runAll_follows (urgent_complete _) s)) (.ite (.dev _) (.dev _)))
    | _ => cases bus

theorem step_follows (s : State) : ∃ t, step s = .next t ∧ (s.mem.wf = true → t.mem.wf = true) := by
  cases queue : s.pending with
  | nil =>
    have idle : s.Follows s.idle := .ite (.dev s _) (.refl s)
    exact ⟨s.idle, by rw [step, queue], idle.2⟩
  | cons c rest =>
    obtain ⟨t, next, follows⟩ := exec_completes c { s with pending := rest }
    exact ⟨t, by rw [step, queue]; exact next, follows.2⟩

/-- Settles O58: what each command does to a memory is made of writes, which keep its canonical form, of the removal of entries, and of
emptying it. -/
theorem memoryStaysCanonical : Obligations.MemoryStaysCanonical := by
  intro s t wf next
  obtain ⟨u, step_u, kept⟩ := step_follows s
  obtain rfl : u = t := by simpa [step_u] using next
  exact kept wf

/-- Settles O60: no meaning stops, and none touches the queue. -/
theorem everyCommandCompletes : Obligations.EveryCommandCompletes := by
  intro c s
  obtain ⟨t, next, queue, -⟩ := exec_completes c s
  exact ⟨t, next, queue⟩

/-- Settles O1, by the definition of a step. -/
theorem stepRunsTheFrontCommand : Obligations.StepRunsTheFrontCommand := fun _ _ _ => rfl

/-- Settles O2: an idle step is a tick, or nothing where the tick clock stands or the course has no tick left. -/
theorem idleStep : Obligations.IdleStep := by
  intro s empty
  have idle : step s = .next s.idle := by rw [step, empty]
  by_cases runs : (s.dev.ticking && decide (s.dev.time.tick + 1 < s.dev.time.clen)) = true
  · have both : s.dev.ticking = true ∧ s.dev.time.tick + 1 < s.dev.time.clen := by simpa using runs
    exact ⟨_, idle.trans (congrArg _ (if_pos runs)), fun stands => absurd (both.1.symm.trans stands) (by decide),
      fun past => absurd both.2 (by omega)⟩
  · exact ⟨s.dev, idle.trans (congrArg _ (if_neg runs)), fun _ => rfl, fun _ => rfl⟩

/-- Settles O59, by evaluating the state at reset. -/
theorem resetIsCanonical : Obligations.ResetIsCanonical := ⟨State.reset_mem_wf, rfl, rfl, rfl⟩

end Sys2Proof.Machine
end

section
/-!
PROOF. SYNC_IN (chapter 01, R47 to R52).
-/
namespace Sys2Proof.Machine
open Reg

/-- An edge that is rejected with a flag: the flag is set and the rejects count one. -/
theorem Dev.syncReject (d : Dev) (f : Fld) (w : f.w ≠ 0) (other : SYNC_CNT.REJECT.id ≠ f.id) :
    let e := (d.raise f).countWrap SYNC_CNT.REJECT
    e.flag f = true ∧ d.onlyRegs e [f.at, SYNC_CNT.REJECT.at]
      ∧ e.get SYNC_CNT.REJECT = (d.get SYNC_CNT.REJECT + 1) % 2 ^ SYNC_CNT.REJECT.w := by
  have kept : (d.raise f).get SYNC_CNT.REJECT = d.get SYNC_CNT.REJECT := d.get_set_id _ _ _ _ _ _ _ other.symm
  refine ⟨?_, Dev.onlyRegs_set _ _ _ _ (Dev.onlyRegs_set _ _ _ _ (d.onlyRegs_refl _) (by simp)) (by simp), ?_⟩
  · exact (Dev.flag_of_get (Dev.get_set_id _ _ _ _ _ _ _ _ other)).trans (d.flag_raise_same f 0 0 w)
  · rw [Dev.countWrap_eq, Dev.get_set_same, kept]

/-- A number written to a pair of registers reads back (R613). -/
theorem Dev.getPair_setPair (d : Dev) (lo hi : Fld) (n i v : Nat) (wl : lo.w = 32) (wh : hi.w = 32) (other : hi.id ≠ lo.id) :
    (d.setPair lo hi n i v).getPair lo hi n i = v % 2 ^ 64 := by
  have low : (d.setPair lo hi n i v).get lo n i = v % 2 ^ 32 := by
    rw [Dev.setPair, Dev.get_set_id _ _ _ _ _ _ _ _ other, Dev.get_set_same, wl, Nat.mod_mod]
  have high : (d.setPair lo hi n i v).get hi n i = v / 2 ^ 32 % 2 ^ 32 := by rw [Dev.setPair, Dev.get_set_same, wh]
  rw [Dev.getPair, low, high]
  omega

/-- What an accepted edge shows in the registers: counted, with the joint at which its shift lands (R49, R52). -/
def Dev.syncShow (d : Dev) (land : Nat) (ofs : Int) : Dev :=
  let e := (ofs + 128) / 256
  let on := d.flag SYNC_CTRL.EN
  let d := ((d.set SYNC_LAST.SHIFT 0 0 (unsigned 16 e)).set SYNC_LAST.RESID 0 0 (unsigned 8 (ofs - 256 * e))).set
    SYNC_LAST.MOVED 0 0 (if on then 1 else 0)
  let d := d.set SYNC_LAST.SYS 0 0 (if on && d.isRoot then 1 else 0)
  (d.setPair SYNC_CRS_LO.CRS_LO SYNC_CRS_HI.CRS_HI 0 0 land).countWrap SYNC_CNT.ACCEPT

theorem Dev.syncShow_count (d : Dev) (land : Nat) (ofs : Int) :
    (d.syncShow land ofs).get SYNC_CNT.ACCEPT = (d.get SYNC_CNT.ACCEPT + 1) % 2 ^ SYNC_CNT.ACCEPT.w := by
  rw [Dev.syncShow, Dev.countWrap_eq, Dev.get_set_same, Dev.setPair]
  simp (disch := decide) only [Dev.get_set_id]

theorem Dev.syncShow_joint (d : Dev) (land : Nat) (ofs : Int) :
    (d.syncShow land ofs).getPair SYNC_CRS_LO.CRS_LO SYNC_CRS_HI.CRS_HI = land % 2 ^ 64 := by
  rw [Dev.syncShow, Dev.countWrap_eq, Dev.getPair]
  simp (disch := decide) only [Dev.get_set_id]
  exact Dev.getPair_setPair _ _ _ _ _ _ rfl rfl (by decide)

/-- An accepted edge of a device that takes no shift: it shows, its window is used, and it fires its producer. -/
def Dev.syncUsed (d : Dev) (land j : Nat) (ofs : Int) : Dev :=
  ({ d.syncShow land ofs with time := { d.time with winUsed := some j } } : Dev).fire 2

/-- An accepted edge with its shift queued (R50). -/
def Dev.syncShifted (d : Dev) (land j : Nat) (ofs : Int) : Dev :=
  let e := d.syncUsed land j ofs
  { e with time := { e.time with shifts := e.time.shifts ++ [(land, (ofs + 128) / 256, e.time.crs)] } }

/-- The joint at which the shift of an edge in the window of joint j lands (R32, R52). -/
def Dev.syncLand (d : Dev) (j : Nat) : Nat := if d.isRoot then j + d.lmin else j + 2

theorem Dev.syncAccept_eq (d : Dev) (j : Nat) (ofs : Int) :
    d.syncAccept j ofs =
      if (!d.flag SYNC_CTRL.EN) = true then d.syncUsed (d.syncLand j) j ofs
      else
        let e := d.syncShifted (d.syncLand j) j ofs
        if e.isRoot = true then e.publish 2 [unsigned 16 ((ofs + 128) / 256), d.syncLand j] else e := (rfl)

theorem Dev.syncUsed_regs (d : Dev) (land j : Nat) (ofs : Int) : (d.syncUsed land j ofs).regs = (d.syncShow land ofs).regs :=
  Dev.fire_regs _ 2

theorem Dev.syncUsed_chs (d : Dev) (land j : Nat) (ofs : Int) : (d.syncUsed land j ofs).chs = d.chs := Dev.fire_chs _ 2

theorem Dev.syncUsed_time (d : Dev) (land j : Nat) (ofs : Int) : (d.syncUsed land j ofs).time = { d.time with winUsed := some j } :=
  Dev.fire_time _ 2

/-- What the root publishes with a shift (R52) is state of the ring alone. -/
theorem Dev.syncAccept_on (d : Dev) (j : Nat) (ofs : Int) (on : d.flag SYNC_CTRL.EN = true) :
    ∃ r, d.syncAccept j ofs = { d.syncShifted (d.syncLand j) j ofs with ring := r } := by
  rw [Dev.syncAccept_eq, if_neg (by simp [on])]
  cases root : (d.syncShifted (d.syncLand j) j ofs).isRoot with
  | false => exact ⟨_, if_neg (by simp [root])⟩
  | true => exact ⟨_, if_pos root⟩

theorem Dev.syncAccept_off (d : Dev) (j : Nat) (ofs : Int) (off : d.flag SYNC_CTRL.EN = false) :
    d.syncAccept j ofs = d.syncUsed (d.syncLand j) j ofs := by
  rw [Dev.syncAccept_eq, if_pos (by simp [off])]

/-- An accepted edge: what it shows, its window used, its shift queued while `SYNC_CTRL.EN` (R49, R50, R52). -/
theorem Dev.syncAccept_parts (d : Dev) (j : Nat) (ofs : Int) :
    let e := d.syncAccept j ofs
    e.regs = (d.syncShow (d.syncLand j) ofs).regs ∧ e.chs = d.chs ∧ e.time.winUsed = some j
      ∧ e.time.shifts = (if d.flag SYNC_CTRL.EN then d.time.shifts ++ [(d.syncLand j, (ofs + 128) / 256, d.time.crs)] else d.time.shifts) := by
  cases en : d.flag SYNC_CTRL.EN with
  | false => simp [Dev.syncAccept_off _ _ _ en, Dev.syncUsed_regs, Dev.syncUsed_chs, Dev.syncUsed_time]
  | true =>
    obtain ⟨r, on⟩ := d.syncAccept_on j ofs en
    simp [on, Dev.syncShifted, Dev.syncUsed_regs, Dev.syncUsed_chs, Dev.syncUsed_time]

/-- Settles O4: an edge on a member, one outside every window, one in a window already used, and one that is accepted. -/
theorem syncEdge : Obligations.SyncEdge := by
  intro s rising fine width d ticking wide edge
  have active : (!d.ticking || decide (width < 2000) || decide (d.flag SYNC_CTRL.EDGE = rising)) = false := by
    simp [ticking, edge]
    omega
  have start : d.syncEdge rising fine width = if d.isMember then (d.raise CRS_STAT.SYNC_IGN).countWrap SYNC_CNT.REJECT
      else match d.syncWindow fine with
        | none => (d.raise CRS_STAT.SYNC_OOW).countWrap SYNC_CNT.REJECT
        | some (j, ofs) =>
          if d.time.winUsed = some j then (d.raise CRS_STAT.SYNC_MULTI).countWrap SYNC_CNT.REJECT else d.syncAccept j ofs :=
    if_neg (by simp [active])
  refine ⟨fun member => ⟨_, rfl, ?_⟩, fun alone outside => ⟨_, rfl, ?_⟩, fun j ofs alone inside again => ⟨_, rfl, ?_⟩,
    fun j ofs alone inside first => ⟨_, rfl, ?_⟩⟩
  · rw [start, if_pos member]
    exact d.syncReject _ (by decide) (by decide)
  · rw [start, if_neg (by simp [alone]), outside]
    exact d.syncReject _ (by decide) (by decide)
  · rw [start, if_neg (by simp [alone]), inside]
    dsimp only
    rw [if_pos again]
    exact d.syncReject _ (by decide) (by decide)
  · rw [start, if_neg (by simp [alone]), inside]
    dsimp only
    rw [if_neg first]
    obtain ⟨regs, chs, used, shifts⟩ := d.syncAccept_parts j ofs
    refine ⟨(Dev.get_of_regs regs ..).trans (d.syncShow_count ..), ?_, used, shifts, chs⟩
    rw [Dev.getPair, Dev.get_of_regs regs, Dev.get_of_regs regs]
    exact d.syncShow_joint ..

end Sys2Proof.Machine
end

section
/-!
PROOF. The course queue (R27 to R29) and the step tables behind BAR4 (R64, R65, R305, R489).
-/
namespace Sys2Proof.Machine
open Reg

/-! ### The course queue -/

/-- A lay appends one entry, of the course named, to the channel's queue. -/
theorem Dev.layAt_laid (d : Dev) (m : Memory) (n : Fin 8) (c : Nat) :
    ∃ x, x.crs = c ∧ d.layAt m n c = d.onCh n (fun ch => { ch with laid := ch.laid ++ [x] }) := ⟨_, rfl, rfl⟩

/-- The course to lay next: after the last one laid, or after the present one. -/
theorem Dev.nextLay_eq (d : Dev) (n : Fin 8) :
    d.nextLay n = match d.chs[n].laid.getLast? with | some y => y.crs + 1 | none => d.time.crs + 1 := by
  unfold Dev.nextLay Dev.layAfter
  cases d.chs[n].laid.getLast? <;> rfl

theorem Dev.onCh_chsBut (d : Dev) (n : Fin 8) (f : Chan → Chan) : d.chsBut (d.onCh n f) n :=
  fun m h => d.onCh_other n m f (Ne.symm h)

/-- Settles O7: the two ranges of AHEAD, and the one entry laid where there is a credit. -/
theorem courseQueue : Obligations.CourseQueue := by
  intro s n d
  refine ⟨fun a low high => ?_, fun a out => ⟨_, if_pos ?_, d.flag_raise_same _ _ _ (by decide), d.raise_onlyRegs _ _ _⟩,
    fun may => ?_, fun may => if_neg (by simp [d] at may; simp [may])⟩
  · refine ⟨_, if_neg (by simp; omega), ?_, ?_, Dev.onCh_chsBut _ n _, Dev.onCh_same _ n _⟩
    · rw [Dev.onCh_get, Dev.get_set_same]
      exact Nat.mod_eq_of_lt a.isLt
    · exact Dev.regsBut_of_regs (Dev.regsBut_set _ _ _ _ (d.regsBut_refl _) (by simp)) rfl
  · simpa using out
  · obtain ⟨x, crs, eq⟩ := d.layAt_laid s.mem n (d.nextLay n)
    refine ⟨d.onCh n (fun ch => { ch with laid := ch.laid ++ [x] }), x, ?_, d.onCh_same n _, crs.trans (d.nextLay_eq n), rfl,
      d.onCh_chsBut n _⟩
    rw [← eq]
    exact if_pos may

/-! ### BAR4 -/

/-- Bytes that lie in a step table are written to memory and change nothing else. -/
theorem bar4Bytes_table (p : Dev × Memory) (off : Nat) (bs : List (BitVec 8)) (h : off < 0x2000000)
    (fits : off % 0x400000 + bs.length ≤ 0x40000) : bar4Bytes p off bs = (p.1, p.2.writeBytes (sramAt off) bs) := by
  induction bs generalizing p off with
  | nil => rfl
  | cons b bs ih =>
    simp only [List.length_cons] at fits
    have byte : bar4Byte p off b = (p.1, p.2.write (sramAt off) b) := by
      rw [bar4Byte, if_neg (by omega), if_neg (by omega)]
    rw [bar4Bytes, byte]
    cases bs with
    | nil => rfl
    | cons c cs =>
      simp only [List.length_cons] at fits ih
      exact ih _ _ (by omega) (by omega)

/-- Bytes that lie where a BAR4 write sets a flag store nothing and set it. -/
theorem bar4Bytes_flag (f : Fld) (w : f.w ≠ 0) (p : Dev × Memory) (off : Nat) (bs : List (BitVec 8))
    (h : ∀ i < bs.length, ∀ q b, bar4Byte q (off + i) b = (q.1.raise f, q.2)) :
    let q := bar4Bytes p off bs
    q.2 = p.2 ∧ p.1.regsBut q.1 [f.at] ∧ ((0 < bs.length ∨ p.1.flag f = true) → q.1.flag f = true) := by
  induction bs generalizing p off with
  | nil => exact ⟨rfl, p.1.regsBut_refl _, fun had => had.elim (fun no => absurd no (by simp)) id⟩
  | cons b bs ih =>
    have byte := h 0 (by simp) p b
    obtain ⟨mem, regs, flag⟩ := ih (p.1.raise f, p.2) (off + 1) (fun i lt q b => by
      have at_ : off + 1 + i = off + (i + 1) := by omega
      rw [at_]
      exact h (i + 1) (by simpa using lt) q b)
    dsimp only
    rw [bar4Bytes, show bar4Byte p off b = (p.1.raise f, p.2) from byte]
    exact ⟨mem, Dev.regsBut_trans (p.1.raise_onlyRegs f 0 0).2 regs, fun _ => flag (.inr (p.1.flag_raise_same f 0 0 w))⟩

/-- A count held at the greatest value of its width fits the width. -/
theorem satInc_mod (w v : Nat) : satInc w v % 2 ^ w = satInc w v :=
  Nat.mod_eq_of_lt (by have := Nat.two_pow_pos w; unfold satInc; split <;> omega)

/-- A refused request is recorded and counted (R490). -/
theorem Dev.refuse_recorded (d : Dev) (cause : Nat) (write : Bool) (bar off : Nat) :
    let e := d.refuse cause write bar off
    e.flag REG_ERR.VALID = true ∧ e.get REG_ERR.COUNT = satInc REG_ERR.COUNT.w (d.get REG_ERR.COUNT) ∧ e.chs = d.chs := by
  have fits := satInc_mod REG_ERR.COUNT.w (d.get REG_ERR.COUNT)
  unfold Dev.refuse
  cases valid : d.flag REG_ERR.VALID with
  | true =>
    simp only [if_true]
    exact ⟨by simpa [Dev.flag, Dev.get_set_id _ _ _ _ _ _ _ _ (show REG_ERR.COUNT.id ≠ REG_ERR.VALID.id by decide)] using valid,
      by simpa using fits, by simp⟩
  | false =>
    simp only [Bool.false_eq_true, if_false, Dev.flag, Dev.vector_get, Dev.vector_chs, Dev.count_eq, Dev.raise_eq, Dev.set_chs]
    simp (disch := decide) only [Dev.get_set_id, Dev.get_set_same, fits]
    decide

/-- Settles O8: a write inside a table, above the tables, into the reserved half, and one that is too long. -/
theorem stepTableWrite : Obligations.StepTableWrite := by
  intro s off bytes o
  have run (short : bytes.length ≤ 512) : exec (.bar4Write off bytes) s
      = .next { s with dev := (bar4Bytes (s.dev.healGranules o bytes.length, s.mem) o bytes).1,
                       mem := (bar4Bytes (s.dev.healGranules o bytes.length, s.mem) o bytes).2 } := if_neg (by omega)
  refine ⟨fun short low fits => ⟨_, run short, rfl, ?_⟩, fun some short high => ⟨_, run short, rfl, ?_⟩,
    fun some short low above fits => ⟨_, run short, rfl, ?_⟩, fun long => ⟨_, if_pos long, Dev.refuse_recorded ..⟩⟩
  · rw [bar4Bytes_table _ _ _ low fits]
    refine ⟨rfl, rfl, fun i lt => ?_, fun a out => Memory.read_writeBytes_outside _ _ _ _ out⟩
    have place : sramAt (o + i) = sramAt o + i := (Nat.add_assoc 0x20000000 o i).symm
    rw [place]
    exact Memory.read_writeBytes_inside _ _ _ _ lt
  · obtain ⟨mem, regs, flag⟩ := bar4Bytes_flag MEM_STAT.B4_RSV (by decide) (s.dev.healGranules o bytes.length, s.mem) o bytes
      (fun i _ q b => if_pos (by omega))
    exact ⟨mem, flag (.inl some), regs⟩
  · obtain ⟨mem, regs, flag⟩ := bar4Bytes_flag MSN_STAT.B4_WR (by decide) (s.dev.healGranules o bytes.length, s.mem) o bytes
      (fun i lt q b => by rw [bar4Byte, if_neg (by omega), if_pos (by omega)])
    exact ⟨mem, flag (.inl some), regs⟩

end Sys2Proof.Machine
end

section
/-!
PROOF. Lockstep (R111, R113, R114).
-/
namespace Sys2Proof.Machine
open Reg

/-! ### A loop over the channels, seen from one of them -/

/-- What holds of the turns before channel k's turn is made by that turn into what the later turns keep. -/
theorem foldl_turn {k : Fin 8} (P Q : Dev → Prop) (f : Fin 8 → Dev → Dev) (before : ∀ m ≠ k, ∀ d, P d → P (f m d))
    (turn : ∀ d, P d → Q (f k d)) (after : ∀ m ≠ k, ∀ d, Q d → Q (f m d)) (l : List (Fin 8)) (once : l.Nodup) :
    (k ∈ l → ∀ d, P d → Q (l.foldl (fun e n => f n e) d)) ∧ (k ∉ l → ∀ d, Q d → Q (l.foldl (fun e n => f n e) d)) := by
  induction l with
  | nil => exact ⟨fun no => absurd no (by simp), fun _ _ h => h⟩
  | cons m l ih =>
    obtain ⟨out, once⟩ := List.nodup_cons.mp once
    obtain ⟨first, rest⟩ := ih once
    refine ⟨fun isin d h => ?_, fun notin d h => ?_⟩
    · by_cases eq : m = k
      · exact rest (eq ▸ out) _ (by rw [eq]; exact turn d h)
      · exact first ((List.mem_cons.mp isin).resolve_left (Ne.symm eq)) _ (before m eq d h)
    · simp only [List.mem_cons, not_or] at notin
      exact rest notin.2 _ (after m (Ne.symm notin.1) d h)

theorem mem_allCh : ∀ k : Fin 8, k ∈ allCh := by decide

theorem Dev.eachCh_turn (k : Fin 8) (P Q : Dev → Prop) (f : Fin 8 → Dev → Dev) (d : Dev) (before : ∀ m ≠ k, ∀ d, P d → P (f m d))
    (turn : ∀ d, P d → Q (f k d)) (after : ∀ m ≠ k, ∀ d, Q d → Q (f m d)) (start : P d) : Q (d.eachCh f) :=
  (foldl_turn P Q f before turn after allCh (by decide)).1 (mem_allCh k) d start

/-- A field whose number is none of those that may have moved reads as before. -/
theorem Dev.regsBut_read {d e : Dev} {ks : List Key} (h : d.regsBut e ks) (g : Fld) (m j : Nat)
    (out : ks.all (fun k => k.1 != g.id) = true) : e.get g m j = d.get g m j :=
  h g m j (fun isin => by simpa using List.all_eq_true.mp out _ isin)

/-! ### The spare -/

/-- The registers that the spare's place, a mismatch and a lay of the spare move. -/
def spareKeys : List Nat := [SEQ_LS.ON_SPARE.id, SEQ_LS.SPARE_TAKEN.id, CQ_RELAY.COUNT.id, CQ_STAT.RELAY.id, CQ_RELAY_MAX.TICKS.id]

/-- A register outside those of the spare reads as before. -/
def Dev.spareOnly (d e : Dev) : Prop :=
  e.time = d.time ∧ ∀ (g : Fld) (m j : Nat), g.id ∉ spareKeys → e.get g m j = d.get g m j

theorem Dev.spareOnly_set {d e : Dev} (f : Fld) (n i v : Nat) (h : d.spareOnly e) (hk : f.id ∈ spareKeys) :
    d.spareOnly (e.set f n i v) :=
  ⟨h.1, fun g m j hg => by
    rw [Dev.get_set_id _ _ _ _ _ _ _ _ (fun eq => hg (eq ▸ hk))]
    exact h.2 g m j hg⟩

theorem Dev.spareOnly_of_regs {d e e' : Dev} (h : d.spareOnly e) (time : e'.time = e.time) (regs : e'.regs = e.regs) : d.spareOnly e' :=
  ⟨time.trans h.1, fun g m j hg => (Dev.get_of_regs regs g m j).trans (h.2 g m j hg)⟩

/-- What the spare's place does to the device: it shows on its channel, and as taken on the others. -/
theorem Dev.onSpare_parts (d : Dev) (n : Fin 8) :
    let e := d.onSpare n
    d.spareOnly e ∧ e.chs = d.chs ∧ e.flag SEQ_LS.ON_SPARE n = true ∧ ∀ k : Fin 8, k ≠ n → e.flag SEQ_LS.SPARE_TAKEN k = true := by
  have keeps (P : Dev → Prop) (h : ∀ k e, P e → P (e.raise SEQ_LS.SPARE_TAKEN k)) (start : P (d.raise SEQ_LS.ON_SPARE n)) :
      P ((d.raise SEQ_LS.ON_SPARE n).eachCh (fun k d => if k = n then d else d.raise SEQ_LS.SPARE_TAKEN k)) :=
    Dev.eachCh_keeps P _ _ (fun k e he => by split; exacts [he, h k e he]) start
  have on (e : Dev) (k : Nat) (h : e.flag SEQ_LS.ON_SPARE n = true) : (e.raise SEQ_LS.SPARE_TAKEN k).flag SEQ_LS.ON_SPARE n = true :=
    (Dev.flag_of_get (Dev.get_set_id _ _ _ _ _ _ _ _ (by decide))).trans h
  refine ⟨?_, ?_, ?_, fun k other => ?_⟩
  · exact Dev.spareOnly_of_regs (keeps (fun e => d.spareOnly e) (fun k e h => Dev.spareOnly_set _ _ _ _ h (by decide))
      (Dev.spareOnly_set _ _ _ _ ⟨rfl, fun _ _ _ _ => rfl⟩ (by decide))) (Dev.fire_time _ _) (Dev.fire_regs _ _)
  · exact (Dev.fire_chs _ _).trans (keeps (fun e => e.chs = d.chs) (fun k e h => h) rfl)
  · rw [Dev.onSpare, Dev.flag_of_get (Dev.fire_get ..)]
    exact keeps (fun e => e.flag SEQ_LS.ON_SPARE n = true) (fun k e h => on e k h) (d.flag_raise_same _ _ _ (by decide))
  · rw [Dev.onSpare, Dev.flag_of_get (Dev.fire_get ..)]
    refine Dev.eachCh_turn k (fun _ => True) (fun e => e.flag SEQ_LS.SPARE_TAKEN k = true) _ _ (fun _ _ _ _ => trivial)
      (fun e _ => ?_) (fun m diff e h => ?_) trivial
    · rw [if_neg other]
      exact e.flag_raise_same _ _ _ (by decide)
    · split
      · exact h
      · exact (Dev.flag_of_get (Dev.get_set_idx _ _ _ _ _ _ _ _ (fun eq => diff (Fin.ext eq)))).trans h

/-- A lay of the spare is recorded among the re-lays (R34). -/
theorem Dev.recordRelay_parts {d e : Dev} (n bound : Nat) (h : d.spareOnly e) :
    d.spareOnly (e.recordRelay n bound) ∧ (e.recordRelay n bound).chs = e.chs :=
  ⟨Dev.spareOnly_set _ _ _ _ (Dev.spareOnly_set _ _ _ _ (Dev.spareOnly_set _ _ _ _
    (Dev.spareOnly_of_regs h (by simp) (by simp)) (by decide)) (by decide)) (by decide), rfl⟩

/-- A switchover lays one entry on the spare, after those that are laid or for the course named. -/
theorem Dev.switchover_parts (d : Dev) (m : Memory) (n : Fin 8) (c : Nat) :
    let e := d.switchover m n c 0
    d.spareOnly e ∧ d.chsBut e n
      ∧ (∃ x, e.chs[n] = { d.chs[n] with badLay := none, laid := d.chs[n].laid ++ [x] } ∧ x.crs = d.layAfter n c)
      ∧ e.flag SEQ_LS.ON_SPARE n = true ∧ ∀ k : Fin 8, k ≠ n → e.flag SEQ_LS.SPARE_TAKEN k = true := by
  obtain ⟨only, chs, on, taken⟩ := (d.onCh n (fun c => { c with badLay := none })).onSpare_parts n
  have eq : ∃ bound, d.switchover m n c 0 = (((d.onCh n (fun c => { c with badLay := none })).onSpare n).layAt m n
      (((d.onCh n (fun c => { c with badLay := none })).onSpare n).layAfter n c)).recordRelay n bound := ⟨_, rfl⟩
  obtain ⟨bound, eq⟩ := eq
  rw [eq]
  generalize (d.onCh n (fun c => { c with badLay := none })).onSpare n = e at only chs on taken
  have mine : e.chs[n] = { d.chs[n] with badLay := none } := by rw [chs, Dev.onCh_same]
  obtain ⟨x, crs, lay⟩ := e.layAt_laid m n (e.layAfter n c)
  obtain ⟨moved, same⟩ := Dev.recordRelay_parts (d := d) (e := e.layAt m n (e.layAfter n c)) n bound
    (Dev.spareOnly_of_regs only rfl rfl)
  have flags (f : Fld) (k : Nat) (h₁ : CQ_RELAY.COUNT.id ≠ f.id) (h₂ : CQ_STAT.RELAY.id ≠ f.id) (h₃ : CQ_RELAY_MAX.TICKS.id ≠ f.id) :
      ((e.layAt m n (e.layAfter n c)).recordRelay n bound).flag f k = e.flag f k :=
    Dev.flag_of_get ((Dev.get_set_id _ _ _ _ _ _ _ _ h₃).trans ((Dev.get_set_id _ _ _ _ _ _ _ _ h₂).trans (Dev.get_set_id _ _ _ _ _ _ _ _ h₁)))
  refine ⟨moved, fun k diff => ?_, ⟨x, ?_, ?_⟩, (flags _ _ (by decide) (by decide) (by decide)).trans on,
    fun k diff => (flags _ _ (by decide) (by decide) (by decide)).trans (taken k diff)⟩
  · rw [same, lay, Dev.onCh_other _ _ _ _ (Ne.symm diff), chs, Dev.onCh_other _ _ _ _ (Ne.symm diff)]
  · rw [same, lay, Dev.onCh_same, mine]
  · rw [crs, Dev.layAfter, mine]
    rfl

/-! ### The mismatch -/

/-- The counts and the flag of a mismatch. -/
def Dev.mismatched (d : Dev) (n : Fin 8) : Dev := ((d.count SEQ_LS.MISMATCH n).raise SEQ_LS.SWITCH n).count STK_CHn_WEAR3.MISMATCH n

theorem Dev.mismatched_regsBut (d : Dev) (n : Fin 8) :
    d.regsBut (d.mismatched n) [SEQ_LS.MISMATCH.at n, SEQ_LS.SWITCH.at n, STK_CHn_WEAR3.MISMATCH.at n] :=
  Dev.regsBut_set _ _ _ _ (Dev.regsBut_set _ _ _ _ (Dev.regsBut_set _ _ _ _ (d.regsBut_refl _) (by simp)) (by simp)) (by simp)

theorem Dev.mismatched_shows (d : Dev) (n : Fin 8) :
    let e := d.mismatched n
    e.get SEQ_LS.MISMATCH n = satInc SEQ_LS.MISMATCH.w (d.get SEQ_LS.MISMATCH n) % 2 ^ SEQ_LS.MISMATCH.w
      ∧ e.get STK_CHn_WEAR3.MISMATCH n = satInc STK_CHn_WEAR3.MISMATCH.w (d.get STK_CHn_WEAR3.MISMATCH n) % 2 ^ STK_CHn_WEAR3.MISMATCH.w
      ∧ e.flag SEQ_LS.SWITCH n = true := by
  simp only [Dev.mismatched, Dev.count_eq, Dev.raise_eq, Dev.flag]
  simp (disch := decide) only [Dev.get_set_id, Dev.get_set_same]
  decide

/-- What a mismatch shows stays through operations of the spare alone. -/
theorem Dev.mismatched_stays {d e : Dev} (n : Fin 8) (h : (d.mismatched n).spareOnly e) :
    e.get SEQ_LS.MISMATCH n = satInc SEQ_LS.MISMATCH.w (d.get SEQ_LS.MISMATCH n) % 2 ^ SEQ_LS.MISMATCH.w
      ∧ e.get STK_CHn_WEAR3.MISMATCH n = satInc STK_CHn_WEAR3.MISMATCH.w (d.get STK_CHn_WEAR3.MISMATCH n) % 2 ^ STK_CHn_WEAR3.MISMATCH.w
      ∧ e.flag SEQ_LS.SWITCH n = true ∧ e.time = d.time := by
  obtain ⟨count, wear, switch⟩ := d.mismatched_shows n
  exact ⟨(h.2 _ _ _ (by decide)).trans count, (h.2 _ _ _ (by decide)).trans wear, (Dev.flag_of_get (h.2 _ _ _ (by decide))).trans switch, h.1⟩

/-- The channel with its run's end at course k marked in every state that a lay can begin from (R113). -/
def Chan.endsAt (c : Chan) (k : Nat) : Chan :=
  let mark := fun (a : Arch) => { a with lsEnd := some k }
  let entry := fun (e : Entry) => { e with before := mark e.before, after := mark e.after }
  { c with base := mark c.base, cur := c.cur.map entry, laid := c.laid.map entry }

theorem Dev.faultNext_eq (d : Dev) (m : Memory) (n : Fin 8) :
    d.faultNext m n = (d.onCh n (fun c => c.endsAt (d.nextLay n))).layNext m n := (rfl)

theorem Chan.endsAt_tip (c : Chan) (k gone : Nat) : ((c.endsAt k).tip gone).lsEnd = some k := by
  unfold Chan.tip Chan.endsAt
  simp only [List.getLast?_map]
  cases c.laid.getLast? with
  | some e => rfl
  | none =>
    cases c.cur with
    | some e => rfl
    | none => unfold Chan.rest; cases c.slot <;> rfl

theorem Dev.nextLay_endsAt (d : Dev) (n : Fin 8) (k : Nat) : (d.onCh n (fun c => c.endsAt k)).nextLay n = d.nextLay n := by
  unfold Dev.nextLay Dev.layAfter
  rw [Dev.onCh_same]
  unfold Chan.endsAt
  simp only [List.getLast?_map]
  cases d.chs[n].laid.getLast? <;> rfl

/-- A lay begins from the channel's last state. -/
theorem Dev.layAt_before (d : Dev) (m : Memory) (n : Fin 8) (c : Nat) :
    ∃ gone x, x.crs = c ∧ x.before = d.chs[n].tip gone ∧ d.layAt m n c = d.onCh n (fun ch => { ch with laid := ch.laid ++ [x] }) :=
  ⟨_, _, rfl, rfl, rfl⟩

/-- The entry that a run's end in a step fault lays. -/
theorem Dev.faultNext_parts (d : Dev) (m : Memory) (n : Fin 8) :
    let e := d.faultNext m n
    e.regs = d.regs ∧ e.time = d.time ∧ d.chsBut e n
      ∧ ∃ x, e.chs[n].laid.getLast? = some x ∧ x.crs = d.nextLay n ∧ x.before.lsEnd = some (d.nextLay n) := by
  obtain ⟨gone, x, crs, before, lay⟩ := (d.onCh n (fun c => c.endsAt (d.nextLay n))).layAt_before m n (d.nextLay n)
  rw [Dev.faultNext_eq, Dev.layNext, Dev.nextLay_endsAt, lay]
  refine ⟨rfl, rfl, fun k diff => ?_, x, ?_, crs, ?_⟩
  · rw [Dev.onCh_other _ _ _ _ (Ne.symm diff), Dev.onCh_other _ _ _ _ (Ne.symm diff)]
  · rw [Dev.onCh_same]
    exact List.getLast?_concat
  · rw [before, Dev.onCh_same, Chan.endsAt_tip]

theorem Dev.mismatch_eq (d : Dev) (m : Memory) (n : Fin 8) (plays : d.ticking = true) (whole : d.chs[n].badLay = none) :
    d.mismatch m n =
      let e := d.mismatched n
      let c := d.nextLay n
      if d.spareFree n = false then (match (d.chs[n].tip 0).mode with | .running | .calWait _ | .calSlot _ _ => e.faultNext m n | _ => e)
      else if c = d.time.crs + 1 then
        let b : Bool × Dev := if d.shortCourse then e.freeBit else (false, e)
        if b.1 then (b.2.onSpare n).onCh n (fun ch => { ch with badLay := some c }) else b.2.switchover m n c 0
      else e.onCh n (fun ch => { ch with badLay := some c }) := by
  have short : (d.mismatched n).shortCourse = d.shortCourse := by
    unfold Dev.shortCourse
    rw [Dev.regsBut_read (d.mismatched_regsBut n) CRS_LEN.LEN 0 0 rfl]
    rfl
  rw [← short]
  unfold Dev.mismatch
  rw [if_neg (by rw [plays, whole]; decide)]
  cases free : d.spareFree n with
  | true => rfl
  | false => rfl

/-- What every mismatch shows, and what it leaves alone. -/
theorem Dev.mismatch_shows (d : Dev) (m : Memory) (n : Fin 8) (plays : d.ticking = true) (whole : d.chs[n].badLay = none) :
    (d.mismatched n).spareOnly (d.mismatch m n) ∧ d.chsBut (d.mismatch m n) n := by
  have none : (d.mismatched n).spareOnly (d.mismatched n) := ⟨rfl, fun _ _ _ _ => rfl⟩
  rw [Dev.mismatch_eq d m n plays whole]
  dsimp only
  split
  · obtain ⟨regs, time, others, _⟩ := (d.mismatched n).faultNext_parts m n
    split
    iterate 3 exact ⟨Dev.spareOnly_of_regs none time regs, others⟩
    exact ⟨none, fun _ _ => rfl⟩
  · split
    · cases d.shortCourse with
      | false =>
        obtain ⟨only, others, _⟩ := (d.mismatched n).switchover_parts m n (d.nextLay n)
        exact ⟨only, others⟩
      | true =>
        rw [if_pos rfl]
        split
        · obtain ⟨only, chs, _⟩ := ((d.mismatched n).freeBit.2).onSpare_parts n
          exact ⟨Dev.spareOnly_of_regs only rfl rfl, fun k diff => by rw [Dev.onCh_other _ _ _ _ (Ne.symm diff), chs]; rfl⟩
        · obtain ⟨only, others, _⟩ := ((d.mismatched n).freeBit.2).switchover_parts m n (d.nextLay n)
          exact ⟨only, others⟩
    · exact ⟨Dev.spareOnly_of_regs none rfl rfl, Dev.onCh_chsBut (d.mismatched n) n _⟩

/-! ### The pair test -/

/-- A flag cleared on every channel reads 0 on every channel, and nothing else has moved. -/
theorem Dev.eachCh_clear (d : Dev) (f : Fld) :
    let e := d.eachCh (fun k d => d.clear f k)
    (∀ k : Fin 8, e.flag f k = false) ∧ d.onlyRegs e (allCh.map (fun k : Fin 8 => f.at k)) := by
  refine ⟨fun k => ?_, ?_⟩
  · refine Dev.eachCh_turn k (fun _ => True) (fun e => e.flag f k = false) _ _ (fun _ _ _ _ => trivial) (fun e _ => ?_)
      (fun m diff e h => (Dev.flag_of_get (Dev.get_set_idx _ _ _ _ _ _ _ _ (fun eq => diff (Fin.ext eq)))).trans h) trivial
    simp [Dev.flag]
  · exact Dev.eachCh_keeps (fun e => d.onlyRegs e (allCh.map (fun k : Fin 8 => f.at k))) _ _
      (fun k e h => Dev.onlyRegs_set _ _ _ _ h (List.mem_map.mpr ⟨k, mem_allCh k, rfl⟩)) (d.onlyRegs_refl _)

theorem Dev.onlyRegs_trans {d e f : Dev} {ks : List Key} (h : d.onlyRegs e ks) (k : e.onlyRegs f ks) : d.onlyRegs f ks :=
  ⟨by rw [k.1, h.1], Dev.regsBut_trans h.2 k.2⟩

theorem Dev.onlyRegs_mono {d e : Dev} {ks ls : List Key} (h : d.onlyRegs e ks) (hs : ∀ k ∈ ks, k ∈ ls) : d.onlyRegs e ls :=
  ⟨h.1, Dev.regsBut_mono h.2 hs⟩

/-- Settles O10: the four places a mismatch can find the spare and the queue in, and the two ends of a pair test. -/
theorem lockstep : Obligations.Lockstep := by
  intro s n d runs
  refine ⟨fun plays whole => ⟨_, rfl, ?_⟩, fun off => ?_, fun on pair idle => ⟨⟨_, rfl, ?_⟩, ⟨_, rfl, ?_⟩⟩, fun pass off => ?_⟩
  · obtain ⟨only, others⟩ := d.mismatch_shows s.mem n plays whole
    obtain ⟨count, wear, switch, time⟩ := Dev.mismatched_stays n only
    refine ⟨count, wear, switch, time, others, fun free none long => ?_, fun free last some => ?_, fun taken idle => ?_, fun taken run => ?_⟩
    · have next : d.nextLay n = d.time.crs + 1 := by rw [Dev.nextLay_eq, none]; rfl
      have eq : d.mismatch s.mem n = (d.mismatched n).switchover s.mem n (d.nextLay n) 0 := by
        rw [d.mismatch_eq s.mem n plays whole]
        dsimp only
        rw [if_neg (by rw [free]; decide), if_pos next, long]
        rfl
      obtain ⟨_, _, ⟨x, chs, crs⟩, on, shut⟩ := (d.mismatched n).switchover_parts s.mem n (d.nextLay n)
      rw [← eq] at chs on shut
      refine ⟨on, shut, x, ?_, ?_⟩
      · exact chs.trans (by rw [show (d.mismatched n).chs = d.chs from rfl, none, ← whole]; rfl)
      · rw [crs, next]
        show (d.layAfter n _) = _
        rw [Dev.layAfter, none]
        rfl
    · have next : d.nextLay n ≠ d.time.crs + 1 := by
        rw [Dev.nextLay_eq]
        cases tail : d.chs[n].laid.getLast? with
        | none => exact absurd (List.getLast?_eq_none_iff.mp tail) some
        | some y => exact fun same => last y tail (by simpa using same)
      have eq : d.mismatch s.mem n = (d.mismatched n).onCh n (fun ch => { ch with badLay := .some (d.nextLay n) }) := by
        rw [d.mismatch_eq s.mem n plays whole]
        dsimp only
        rw [if_neg (by rw [free]; decide), if_neg next]
      show (d.mismatch s.mem n).chs[n] = _ ∧ d.regsBut (d.mismatch s.mem n) _
      rw [eq]
      exact ⟨Dev.onCh_same _ n _, Dev.regsBut_of_regs (d.mismatched_regsBut n) rfl⟩
    · have eq : d.mismatch s.mem n = d.mismatched n := by
        rw [d.mismatch_eq s.mem n plays whole]
        dsimp only
        rw [if_pos taken]
        unfold runs at idle
        split <;> simp_all
      show (d.mismatch s.mem n).chs = _ ∧ d.regsBut (d.mismatch s.mem n) _
      rw [eq]
      exact ⟨rfl, d.mismatched_regsBut n⟩
    · have eq : d.mismatch s.mem n = (d.mismatched n).faultNext s.mem n := by
        rw [d.mismatch_eq s.mem n plays whole]
        dsimp only
        rw [if_pos taken]
        unfold runs at run
        split <;> simp_all
      obtain ⟨regs, _, _, x, last, crs, ends⟩ := (d.mismatched n).faultNext_parts s.mem n
      rw [← eq] at regs last
      exact ⟨⟨x, last, crs, ends⟩, Dev.regsBut_of_regs (d.mismatched_regsBut n) regs⟩
  · refine congrArg (fun e => Host.Outcome.next (s.withDev e)) (if_pos ?_)
    cases off with
    | inl off => rw [show s.dev.ticking = false from off]; rfl
    | inr off => rw [Option.isSome_iff_ne_none.mpr off, Bool.or_true]
  · have eq : d.pairTested n true = (d.clear SEQ_LS.ON_SPARE n).eachCh (fun k d => d.clear SEQ_LS.SPARE_TAKEN k) := by
      rw [Dev.pairTested, if_neg (by simp [on, pair, idle]), if_pos rfl]
    obtain ⟨freed, only⟩ := (d.clear SEQ_LS.ON_SPARE n).eachCh_clear SEQ_LS.SPARE_TAKEN
    show (d.pairTested n true).flag _ _ = _ ∧ _ ∧ d.onlyRegs (d.pairTested n true) _
    rw [eq]
    refine ⟨?_, freed, Dev.onlyRegs_trans (Dev.onlyRegs_set _ _ _ _ (d.onlyRegs_refl _) List.mem_cons_self)
      (Dev.onlyRegs_mono only fun _ => List.mem_cons_of_mem _)⟩
    rw [Dev.flag_of_get (Dev.regsBut_read only.2 SEQ_LS.ON_SPARE n 0 rfl)]
    simp [Dev.flag]
  · have eq : d.pairTested n false = d.raise SEQ_LS.PAIR_RETIRED n := by
      rw [Dev.pairTested, if_neg (by simp [on, pair, idle]), if_neg (by decide)]
    show (d.pairTested n false).flag _ _ = _ ∧ d.onlyRegs (d.pairTested n false) _
    rw [eq]
    exact ⟨d.flag_raise_same _ _ _ (by decide), d.raise_onlyRegs _ _ _⟩
  · refine congrArg (fun e => Host.Outcome.next (s.withDev e)) (if_pos ?_)
    simp only [Bool.or_eq_true, Bool.not_eq_true', decide_eq_true_eq]
    tauto

end Sys2Proof.Machine
end

section
/-!
PROOF. Event lines (R117 to R130) and their slots (R120, R148).
-/
namespace Sys2Proof.Machine
open Reg

/-! ### A HALT_REQ firing in SLEEP

A line that names HALT_REQ stops every sequencer, and a mailbox command whose last part that ends lets the fields waiting to become owned
be set. A state can list any field as waiting, so also the record of the firing itself (`EVL_SLEEP`), which then loses its bit. -/

/-- Two devices that one state of the block answers with are the same. -/
theorem State.dev_of_next {s : State} {d e : Dev}
    (h : (Host.Outcome.next (s.withDev d) : Host.Outcome State Fault Refusal) = .next (s.withDev e)) : d = e := by
  injection h with h
  exact congrArg State.dev h

/-- A snapshot asked for by slot 0 of MBX0. -/
def haltedAct : Act := { kind := .snap, org := .mbx 0 0, land := 0, acc := 0, seq := 0, grp := none, stale := false, slots := [], ring := 0 }

/-- The command in slot 0 of MBX0, with one part still out. -/
def haltedCmd : Cmd := { m := 0, slot := 0, opcode := 0, land := 0, left := 1, reason := 0, took := 0, own := [] }

/-- Line 1 of a block in SLEEP, with HALT_REQ and another consumer, has a source; `EVL_SLEEP_LO` waits to become owned. -/
def haltedSleeper : Dev :=
  let d := ((({} : Dev).set PWR_STAT.STATE 0 0 2).set EVL_DSTn_r.SLOT_LO 1 0 0x8012).set EVL_DSTn_r.SLOT_HI 1 0 0x8005
  { d.onCh 0 (fun c => { c with acts := [haltedAct] }) with
    ev := { d.ev with srcs := [⟨1, 0, 0, 0, 0, 1, true, false⟩] }, cmds := [haltedCmd], ownWait := [(EVL_SLEEP_LO.SEEN_LO.id, 0)] }

/-- Refutes O11: in SLEEP the firing of `haltedSleeper`'s line 1 has a consumer that needs a clock, and its bit of `EVL_SLEEP_LO` is 0. -/
theorem not_triggersAndLines : ¬ Obligations.TriggersAndLines := by
  intro h
  obtain ⟨-, dark, -⟩ := h.2 (State.reset.withDev haltedSleeper)
  obtain ⟨e, run, -, -, seen⟩ := dark 1 (by decide +kernel) (by decide +kernel)
  have same : haltedSleeper.lineFire [] 1 = e := State.dev_of_next run
  have bit := seen (by decide +kernel) (by decide +kernel)
  rw [← same] at bit
  exact absurd bit (by decide +kernel)

/-! ### Slots -/

/-- A slot word is taken but for its reserved bits, unless it activates the slot with a code that is not legal. -/
theorem slotWrite_taken (legal : Nat → Bool) (mask old new : Nat) (h : ¬ (bitAt new 15 = true ∧ legal (new % 1024) = false)) :
    slotWrite legal mask old new = (new &&& mask, false) := if_neg (by simpa using h)

theorem slotWrite_refused (legal : Nat → Bool) (mask old new : Nat) (h : bitAt new 15 = true ∧ legal (new % 1024) = false) :
    slotWrite legal mask old new = (old, true) := if_pos (by simpa using h)

/-- The two halves of a slot register at `l`, `r` written, each as `slotWrite` says. -/
def Dev.slotPair (d : Dev) (legal : Nat → Bool) (mask : Nat) (low high : Fld) (l r w : Nat) : Dev :=
  let lo := slotWrite legal mask (d.get low l r) (bitsOf w 0 16)
  let hi := slotWrite legal mask (d.get high l r) (bitsOf w 16 16)
  ((d.set low l r lo.1).set high l r hi.1).raiseIf (lo.2 || hi.2) EVL_STAT.CFG_REJ

/-- A slot register written: what each half becomes, and when `CFG_REJ` is set (R120). -/
theorem Dev.slotPair_parts (d : Dev) (legal : Nat → Bool) (mask : Nat) (low high : Fld) (l r w : Nat) (fits : mask < 2 ^ 16)
    (lw : low.w = 16) (hw : high.w = 16) (apart : high.id ≠ low.id) (lf : EVL_STAT.CFG_REJ.id ≠ low.id) (hf : EVL_STAT.CFG_REJ.id ≠ high.id) :
    let lo := bitsOf w 0 16
    let hi := bitsOf w 16 16
    let bad := fun x => bitAt x 15 = true ∧ legal (x % 1024) = false
    let e := d.slotPair legal mask low high l r w
    (¬ bad lo → e.get low l r = lo &&& mask) ∧ (¬ bad hi → e.get high l r = hi &&& mask)
      ∧ (bad lo → e.get low l r = d.get low l r % 2 ^ 16) ∧ (bad hi → e.get high l r = d.get high l r % 2 ^ 16)
      ∧ ((bad lo ∨ bad hi) → e.flag EVL_STAT.CFG_REJ = true)
      ∧ (¬ bad lo → ¬ bad hi → e.get EVL_STAT.CFG_REJ = d.get EVL_STAT.CFG_REJ)
      ∧ d.onlyRegs e [low.at l r, high.at l r, EVL_STAT.CFG_REJ.at] := by
  intro lo hi bad e
  have masked (x : Nat) : (x &&& mask) % 2 ^ 16 = x &&& mask := Nat.mod_eq_of_lt (Nat.lt_of_le_of_lt Nat.and_le_right fits)
  have gl : e.get low l r = (slotWrite legal mask (d.get low l r) lo).1 % 2 ^ 16 := by
    unfold e Dev.slotPair
    rw [Dev.get_raiseIf_id _ _ _ _ _ _ _ _ lf, Dev.get_set_id _ _ _ _ _ _ _ _ apart, Dev.get_set_same, lw]
  have gh : e.get high l r = (slotWrite legal mask (d.get high l r) hi).1 % 2 ^ 16 := by
    unfold e Dev.slotPair
    rw [Dev.get_raiseIf_id _ _ _ _ _ _ _ _ hf, Dev.get_set_same, hw]
  refine ⟨fun ok => ?_, fun ok => ?_, fun no => ?_, fun no => ?_, fun no => Dev.flag_raiseIf_same _ _ _ _ ?_ (by decide), fun okl okh => ?_, ?_⟩
  · rw [gl, slotWrite_taken _ _ _ _ ok, masked]
  · rw [gh, slotWrite_taken _ _ _ _ ok, masked]
  · rw [gl, slotWrite_refused _ _ _ _ no]
  · rw [gh, slotWrite_refused _ _ _ _ no]
  · cases no with
    | inl no => rw [slotWrite_refused _ _ _ _ no]; rfl
    | inr no => rw [slotWrite_refused _ _ _ _ no]; exact Bool.or_true _
  · unfold e Dev.slotPair
    rw [Dev.raiseIf_false _ _ _ _ (by rw [slotWrite_taken _ _ _ _ okl, slotWrite_taken _ _ _ _ okh]; rfl),
      Dev.get_set_id _ _ _ _ _ _ _ _ (Ne.symm hf), Dev.get_set_id _ _ _ _ _ _ _ _ (Ne.symm lf)]
  · exact Dev.onlyRegs_raiseIf _ _ _ _ (Dev.onlyRegs_set _ _ _ _ (Dev.onlyRegs_set _ _ _ _ (d.onlyRegs_refl _) (by simp)) (by simp)) (by simp)

/-- Settles O12: the same pair of halves on both sides of a line. -/
theorem eventLineSlots : Obligations.EventLineSlots := by
  intro s l w d lo hi
  exact ⟨fun r => ⟨_, rfl, d.slotPair_parts prodLegal 0x83FF EVL_SRCn_r.SLOT_LO EVL_SRCn_r.SLOT_HI l r w.toNat (by decide) rfl rfl
      (by decide) (by decide) (by decide)⟩,
    fun r => ⟨_, rfl, d.slotPair_parts consLegal 0xC3FF EVL_DSTn_r.SLOT_LO EVL_DSTn_r.SLOT_HI l r w.toNat (by decide) rfl rfl
      (by decide) (by decide) (by decide)⟩⟩

end Sys2Proof.Machine
end

section
/-!
PROOF. System events (R139 to R145).
-/
namespace Sys2Proof.Machine
open Reg

/-- A producer that fires adds sources to lines, and nothing else. -/
theorem Dev.fire_srcs (d : Dev) (code : Nat) : ∃ srcs, d.fire code = { d with ev := { d.ev with srcs := srcs } } := by
  unfold Dev.fire
  split
  · exact ⟨d.ev.srcs, rfl⟩
  · exact ⟨_, rfl⟩

/-- The registers that a system event moves when it is taken. -/
def sysKeys : List Key := [EVS_STAT.PEND_OVF.at, EVS_LATE.COUNT.at, EVS_LATE.LAST_ID.at, EVS_STAT.LATE.at, CRS_STAT.SYS_LATE.at]

/-- `e` is `d` but for the events that wait for lines, the sources of lines, what the ring has to send, and the flags of late events. -/
def Dev.sysTaken (d e : Dev) : Prop :=
  (∃ regs ring srcs waits, e = { d with regs := regs, ring := ring, ev := { d.ev with srcs := srcs, waits := waits } }) ∧ d.regsBut e sysKeys

theorem Dev.sysTaken_set {d e : Dev} (f : Fld) (v : Nat) (h : d.sysTaken e) (hk : f.at ∈ sysKeys) : d.sysTaken (e.set f 0 0 v) := by
  obtain ⟨⟨regs, ring, srcs, waits, rfl⟩, keeps⟩ := h
  exact ⟨⟨_, ring, srcs, waits, rfl⟩, Dev.regsBut_set f 0 0 v keeps hk⟩

theorem Dev.sysTaken_sysLate {d e : Dev} (id : Nat) (h : d.sysTaken e) : d.sysTaken (e.sysLate id) := by
  have counted := Dev.sysTaken_set EVS_LATE.LAST_ID id (Dev.sysTaken_set EVS_LATE.COUNT (satInc EVS_LATE.COUNT.w (e.get EVS_LATE.COUNT)) h
    (by simp [sysKeys])) (by simp [sysKeys])
  obtain ⟨srcs, fired⟩ := ((e.count EVS_LATE.COUNT).set EVS_LATE.LAST_ID 0 0 id).fire_srcs 3
  unfold Dev.sysLate Dev.lateNotice
  rw [fired]
  obtain ⟨⟨regs, ring, srcs', waits, eq⟩, keeps⟩ := counted
  split
  · exact ⟨⟨_, _, srcs, waits, by rw [← Dev.count_eq] at eq; rw [eq]; rfl⟩, keeps⟩
  · exact ⟨⟨_, _, srcs, waits, by rw [← Dev.count_eq] at eq; rw [eq]⟩, keeps⟩

theorem Dev.sysTake_sysTaken (d : Dev) (id m least : Nat) : d.sysTaken (d.sysTake id m least) := by
  have refl : d.sysTaken d := ⟨⟨_, _, _, _, rfl⟩, d.regsBut_refl _⟩
  unfold Dev.sysTake
  split
  · exact refl
  · split
    · exact Dev.sysTaken_sysLate id (Dev.sysTaken_set EVS_STAT.PEND_OVF 1 refl (by simp [sysKeys]))
    · dsimp only
      split
      · refine Dev.sysTaken_sysLate id (Dev.sysTaken_set CRS_STAT.SYS_LATE 1 (Dev.sysTaken_set EVS_STAT.LATE 1 ?_ (by simp [sysKeys]))
          (by simp [sysKeys]))
        exact ⟨⟨_, _, _, _, rfl⟩, d.regsBut_refl _⟩
      · exact ⟨⟨_, _, _, _, rfl⟩, d.regsBut_refl _⟩

/-- What an origination shows and records before it reaches its line (R139, R141). -/
def Dev.originated (d : Dev) (id l m : Nat) : Dev :=
  let rec_ : Seen := ⟨d.get RING_ID.INDEX, d.ev.seqNo, id, m⟩
  let d := d.raiseIf (l ≠ 0 && l < d.lmin) EVS_STAT.L_RAISED
  let d := d.setPair EVS_LAND_LO.LAND_LO EVS_LAND_HI.LAND_HI 0 0 m
  let sent := if d.isMember || d.isRoot then [(0, rec_), (1, rec_)] else []
  { d with ev := { d.ev with
    origs := d.ev.origs + 1
    seqNo := (d.ev.seqNo + 1) % 256
    seen := d.ev.seen ++ [rec_]
    out := d.ev.out ++ sent } }

theorem Dev.originate_eq (d : Dev) (id l : Nat) :
    (d.originate id l).2 = (d.originated id l ((d.time.crs + (if l = 0 then d.lmin else max l d.lmin)) % 2 ^ 64)).sysDeliver id
      ((d.time.crs + (if l = 0 then d.lmin else max l d.lmin)) % 2 ^ 64) := (rfl)

/-- The originations counted, the joint at which the event lands, and `L_RAISED` (R139, R140, R144). -/
theorem Dev.originated_parts (d : Dev) (id l m : Nat) :
    let e := d.originated id l m
    e.ev.origs = d.ev.origs + 1 ∧ e.ev.seqNo = (d.ev.seqNo + 1) % 256 ∧ e.getPair EVS_LAND_LO.LAND_LO EVS_LAND_HI.LAND_HI = m % 2 ^ 64
      ∧ (l ≠ 0 → l < d.lmin → e.flag EVS_STAT.L_RAISED = true) ∧ e.chs = d.chs ∧ e.time = d.time := by
  have pair (e : Dev) : (e.setPair EVS_LAND_LO.LAND_LO EVS_LAND_HI.LAND_HI 0 0 m).getPair EVS_LAND_LO.LAND_LO EVS_LAND_HI.LAND_HI
      = m % 2 ^ 64 := Dev.getPair_setPair _ _ _ _ _ _ rfl rfl (by decide)
  have low (e : Dev) : (e.setPair EVS_LAND_LO.LAND_LO EVS_LAND_HI.LAND_HI 0 0 m).get EVS_STAT.L_RAISED = e.get EVS_STAT.L_RAISED := by
    rw [Dev.setPair, Dev.get_set_id _ _ _ _ _ _ _ _ (by decide), Dev.get_set_id _ _ _ _ _ _ _ _ (by decide)]
  unfold Dev.originated
  cases raised : (decide (l ≠ 0) && decide (l < d.lmin)) with
  | false =>
    simp only [Dev.raiseIf_false d EVS_STAT.L_RAISED 0 0 rfl]
    refine ⟨rfl, rfl, pair d, fun some short => ?_, rfl, rfl⟩
    simp [some, short] at raised
  | true =>
    exact ⟨rfl, rfl, pair _, fun _ _ => (Dev.flag_of_get (low _)).trans (d.flag_raise_same _ _ _ (by decide)), rfl, rfl⟩

/-- An origination within the rate, in a system or alone. -/
theorem Dev.evsFire_taken (d : Dev) (w : Nat) (on : d.islanded = false) (room : d.ev.origs < 4) :
    let l := bitsOf w 16 8
    let e := d.evsFire w
    e.ev.origs = d.ev.origs + 1 ∧ e.ev.seqNo = (d.ev.seqNo + 1) % 256
      ∧ e.getPair EVS_LAND_LO.LAND_LO EVS_LAND_HI.LAND_HI = (d.time.crs + (if l = 0 then d.lmin else max l d.lmin)) % 2 ^ 64
      ∧ (l ≠ 0 → l < d.lmin → e.flag EVS_STAT.L_RAISED = true) ∧ e.chs = d.chs ∧ e.time = d.time := by
  intro l e
  have eq : e = (d.originate (bitsOf w 0 12) l).2 := (if_neg (by rw [on]; decide)).trans (if_neg (by omega))
  rw [eq, Dev.originate_eq]
  generalize sum : (d.time.crs + if l = 0 then d.lmin else max l d.lmin) % 2 ^ 64 = m
  obtain ⟨origs, seqNo, land, raised, chs, time⟩ := d.originated_parts (bitsOf w 0 12) l m
  obtain ⟨⟨regs, ring, srcs, waits, same⟩, keeps⟩ := Dev.sysTake_sysTaken (d.originated (bitsOf w 0 12) l m) (bitsOf w 0 12) m
    ((d.originated (bitsOf w 0 12) l m).time.crs + 2)
  unfold Dev.sysDeliver
  generalize (d.originated (bitsOf w 0 12) l m).sysTake (bitsOf w 0 12) m ((d.originated (bitsOf w 0 12) l m).time.crs + 2) = f at same keeps ⊢
  have pair : f.getPair EVS_LAND_LO.LAND_LO EVS_LAND_HI.LAND_HI = m % 2 ^ 64 := by
    rw [← land, Dev.getPair, Dev.regsBut_read keeps _ _ _ rfl, Dev.regsBut_read keeps _ _ _ rfl]
    rfl
  have flag := Dev.flag_of_get (Dev.regsBut_read keeps EVS_STAT.L_RAISED 0 0 rfl)
  rw [pair, flag, same, ← sum, Nat.mod_mod, sum]
  exact ⟨origs, seqNo, rfl, raised, chs, time⟩

/-- A received event that is new, in a system and not older than the device's admission, is remembered (R141). -/
theorem Dev.sysReceive_taken (d : Dev) (orig seq id land : Nat) (on : d.islanded = false) (joined : d.isMember = true ∨ d.isRoot = true)
    (new : (⟨orig, seq, id, land⟩ : Seen) ∉ d.ev.seen) (fresh : ¬ land < d.ring.takeFrom) :
    (d.sysReceive orig seq id land).ev.seen = d.ev.seen ++ [(⟨orig, seq, id, land⟩ : Seen)] ∧ (d.sysReceive orig seq id land).chs = d.chs := by
  have state : d.get RING_STAT.STATE ≠ 2 := by
    unfold Dev.isMember Dev.isRoot at joined
    simp only [decide_eq_true_eq] at joined
    omega
  have eq : d.sysReceive orig seq id land = { d with ev := { d.ev with seen := d.ev.seen ++ [(⟨orig, seq, id, land⟩ : Seen)] } }.sysDeliver id land := by
    have joined : (d.isMember || d.isRoot) = true := by simpa using joined
    unfold Dev.sysReceive
    rw [if_neg state, if_neg (by simp [on, joined, new]), if_neg fresh]
  obtain ⟨⟨_, _, _, _, same⟩, _⟩ :=
    Dev.sysTake_sysTaken { d with ev := { d.ev with seen := d.ev.seen ++ [(⟨orig, seq, id, land⟩ : Seen)] } } id land (d.time.crs + 2)
  rw [eq]
  unfold Dev.sysDeliver
  rw [same]
  exact ⟨rfl, rfl⟩

/-- A received event is dropped islanded, outside a system, as a second copy, and before the device's admission (R141, R145). -/
theorem Dev.sysReceive_dropped (d : Dev) (orig seq id land : Nat) (other : d.ringSt ≠ 2)
    (drop : d.islanded = true ∨ (d.isMember = false ∧ d.isRoot = false) ∨ (⟨orig, seq, id, land⟩ : Seen) ∈ d.ev.seen ∨ land < d.ring.takeFrom) :
    d.sysReceive orig seq id land = d := by
  unfold Dev.sysReceive
  rw [if_neg (show ¬ d.get RING_STAT.STATE = 2 from other)]
  by_cases out : d.islanded = true ∨ (d.isMember = false ∧ d.isRoot = false) ∨ (⟨orig, seq, id, land⟩ : Seen) ∈ d.ev.seen
  · exact if_pos (by simpa [or_assoc] using out)
  · have late : land < d.ring.takeFrom := by tauto
    exact (if_neg (by simpa [or_assoc] using out)).trans (if_pos late)

/-- Settles O13: an origination refused, over the rate and taken; a cell sent; a reception remembered, kept and dropped; a late notice. -/
theorem systemEvents : Obligations.SystemEvents := by
  constructor
  · intro s w d l
    refine ⟨fun off => ⟨d.raise EVS_STAT.REFUSED, ?_, d.flag_raise_same _ _ _ (by decide), d.raise_onlyRegs _ _ _⟩,
      fun on full => ⟨d.raise EVS_STAT.RATE, ?_, d.flag_raise_same _ _ _ (by decide), d.raise_onlyRegs _ _ _⟩,
      fun on room => ⟨_, rfl, d.evsFire_taken w.toNat on room⟩⟩
    · exact congrArg (fun e => Host.Outcome.next (s.withDev e)) (if_pos off)
    · exact congrArg (fun e => Host.Outcome.next (s.withDev e)) ((if_neg (by rw [on]; decide)).trans (if_pos full))
  · intro s d
    refine ⟨fun port x first => ?_, fun port none => ?_, ?_,
      fun id => ⟨fun root => ⟨_, if_pos root, ?_, ?_, ?_⟩, fun other => if_neg (by rw [show s.dev.isRoot = false from other]; decide)⟩⟩
    · have eq : d.cellInsert port = ({ d with ev := { d.ev with out := d.ev.out.erase x } } : Dev).sendCell port 0xFB
          (octets 7 (x.2.orig * 2 ^ 46 + x.2.seq * 2 ^ 38 + x.2.id * 2 ^ 26 + x.2.land % 2 ^ 16 * 2 ^ 10)) false := by
        unfold Dev.cellInsert
        rw [first]
      exact ⟨_, _, congrArg (fun e => Host.Outcome.next (s.withDev e)) eq, rfl, rfl, rfl, rfl⟩
    · have eq : d.cellInsert port = d := by
        unfold Dev.cellInsert
        rw [none]
      exact congrArg (fun e => Host.Outcome.next (s.withDev e)) eq
    · intro orig seq id land x old
      refine ⟨fun on joined new fresh => ⟨_, rfl, d.sysReceive_taken _ _ _ _ on joined new fresh⟩,
        fun joining => ⟨_, congrArg (fun e => Host.Outcome.next (s.withDev e)) (if_pos joining), rfl, rfl, rfl⟩, fun other drop => ?_⟩
      exact congrArg (fun e => Host.Outcome.next (s.withDev e)) (d.sysReceive_dropped _ _ _ _ other drop)
    · exact (Dev.flag_of_get (Dev.fire_get ..)).trans (d.flag_raise_same _ _ _ (by decide))
    · exact Dev.regsBut_of_regs (d.raise_onlyRegs _ _ _).2 (Dev.fire_regs _ _)
    · exact Dev.fire_chs _ _

end Sys2Proof.Machine
end

section
/-!
SUPPORT. The time of the block stays as it is over every operation that no tick and no joint is.
-/
namespace Sys2Proof.Machine
open Reg

@[simp] theorem Dev.eachCh_time (d : Dev) (f : Fin 8 → Dev → Dev) (h : ∀ n e, (f n e).time = e.time) : (d.eachCh f).time = d.time :=
  Dev.eachCh_keeps (fun e => e.time = d.time) f d (fun n e he => (h n e).trans he) rfl

@[simp] theorem foldl_time {α : Type} (l : List α) (d : Dev) (f : Dev → α → Dev) (h : ∀ e a, (f e a).time = e.time) :
    (l.foldl f d).time = d.time :=
  foldl_keeps (fun e => e.time = d.time) f l d (fun e a he => (h e a).trans he) rfl

@[simp] theorem foldl_fst_time {α β : Type} (l : List α) (p : Dev × β) (f : Dev × β → α → Dev × β)
    (h : ∀ q a, (f q a).1.time = q.1.time) : (l.foldl f p).1.time = p.1.time :=
  foldl_keeps (fun q => q.1.time = p.1.time) f l p (fun q a hq => (h q a).trans hq) rfl

@[simp] theorem Dev.raiseIf_time (d : Dev) (c : Bool) (f : Fld) (n i : Nat) :
    (d.raiseIf c f n i).time = d.time := by
  unfold Dev.raiseIf; split <;> rfl

@[simp] theorem Dev.setPair_time (d : Dev) (lo hi : Fld) (n i v : Nat) : (d.setPair lo hi n i v).time = d.time := (rfl)

@[simp] theorem Dev.activate_time (d : Dev) (n a port : Nat) : (d.activate n a port).time = d.time := by
  unfold Dev.activate; dsimp only; repeat' split
  all_goals simp -implicitDefEqProofs

@[simp] theorem Dev.ringRequest_time (d : Dev) (n a : Nat) : (d.ringRequest n a).time = d.time := by
  simp -implicitDefEqProofs [Dev.ringRequest, apply_ite Dev.time]

@[simp] theorem Dev.recordRelay_time (d : Dev) (n bound : Nat) : (d.recordRelay n bound).time = d.time := (rfl)

@[simp] theorem Dev.layAgain_time (d : Dev) (m : Memory) (n : Fin 8) (c : Nat) : (d.layAgain m n c).1.time = d.time := by
  unfold Dev.layAgain; dsimp only; split <;> simp

@[simp] theorem Dev.relayFrom_time (d : Dev) (m : Memory) (n : Fin 8) (c : Nat) : (d.relayFrom m n c).time = d.time := by
  unfold Dev.relayFrom; dsimp only; split <;> simp

@[simp] theorem Dev.relayPlaying_time (d : Dev) (m : Memory) (n : Fin 8) (cuts : List FastJump) (t : Nat) :
    (d.relayPlaying m n cuts t).time = d.time := by
  unfold Dev.relayPlaying; split <;> rfl

@[simp] theorem Dev.followHold_time (d : Dev) (m : Memory) (n : Fin 8) : (d.followHold m n).time = d.time := by
  unfold Dev.followHold; split <;> rfl

@[simp] theorem Dev.relayRest_time (d : Dev) (m : Memory) (n : Fin 8) : (d.relayRest m n).time = d.time := by
  unfold Dev.relayRest; split <;> rfl

@[simp] theorem Dev.fillFree_time (d : Dev) (m slot w k0 : Nat) : (d.fillFree m slot w k0).time = d.time := by
  induction k0 generalizing d w with
  | zero => rfl
  | succ k ih => rw [Dev.fillFree, ih]; rfl

@[simp] theorem Dev.settleOwn_time (d : Dev) : d.settleOwn.time = d.time := by
  simp -implicitDefEqProofs [Dev.settleOwn]

@[simp] theorem Dev.finish_time (d : Dev) (m slot status : Nat) (res : List Nat) :
    (d.finish m slot status res).time = d.time := by
  simp -implicitDefEqProofs [Dev.finish, apply_ite Dev.time]

@[simp] theorem Dev.part_time (d : Dev) (m slot n reason : Nat) : (d.part m slot n reason).time = d.time := by
  unfold Dev.part; dsimp only; split <;> simp -implicitDefEqProofs [apply_ite Dev.time]

@[simp] theorem Dev.marchEnd_time (d : Dev) (result : Nat) : (d.marchEnd result).time = d.time := by
  unfold Dev.marchEnd; repeat' split
  all_goals simp -implicitDefEqProofs

@[simp] theorem Dev.overrun_time (d : Dev) (slots : List (Nat × Nat)) : (d.overrun slots).time = d.time := by
  simp -implicitDefEqProofs [Dev.overrun]

@[simp] theorem Dev.dropAct_time (d : Dev) (n : Nat) (a : Act) (why : Lost) : (d.dropAct n a why).time = d.time := by
  unfold Dev.dropAct; repeat' split
  all_goals simp -implicitDefEqProofs

@[simp] theorem Dev.abortSlot_time (d : Dev) (n : Fin 8) : (d.abortSlot n).time = d.time := by
  unfold Dev.abortSlot; repeat' split
  all_goals simp -implicitDefEqProofs

@[simp] theorem Dev.dropCaps_time (d : Dev) (n : Fin 8) : (d.dropCaps n).time = d.time := by
  simp [Dev.dropCaps]

@[simp] theorem Dev.stopNow_time (d : Dev) (n : Fin 8) : (d.stopNow n).time = d.time := by
  simp [Dev.stopNow]

@[simp] theorem Dev.stopAll_time (d : Dev) : d.stopAll.time = d.time := by
  simp [Dev.stopAll]

@[simp] theorem Dev.haltOut_time (d : Dev) : d.haltOut.time = d.time := by
  unfold Dev.haltOut; split <;> rfl

@[simp] theorem Dev.assertHalt_time (d : Dev) (src : Nat) : (d.assertHalt src).time = d.time := by
  unfold Dev.assertHalt; dsimp only; split <;> simp

@[simp] theorem Dev.wake_time (d : Dev) (src : Nat) : (d.wake src).time = d.time := by
  simp -implicitDefEqProofs [Dev.wake, apply_ite Dev.time]

@[simp] theorem Dev.showState_time (d : Dev) (n : Fin 8) : (d.showState n).time = d.time := (rfl)

@[simp] theorem Dev.hvDisable_time (d : Dev) (n : Fin 8) : (d.hvDisable n).time = d.time := by
  simp [Dev.hvDisable]

@[simp] theorem Dev.forceNow_time (d : Dev) (n : Fin 8) : (d.forceNow n).time = d.time := by
  unfold Dev.forceNow; split <;> rfl

@[simp] theorem Dev.quietFollow_time (d : Dev) (n : Fin 8) : (d.quietFollow n).time = d.time := by
  unfold Dev.quietFollow; split <;> simp

@[simp] theorem Dev.powerShow_time (d : Dev) (n : Fin 8) : (d.powerShow n).time = d.time := by
  have free (c : Prop) [Decidable c] (v : Nat) (e : Dev) : ((if c then (v, e) else e.free : Nat × Dev)).2.time = e.time := by split <;> rfl
  unfold Dev.powerShow
  extract_lets c e r
  exact (Dev.eachCh_time r.2 (fun k d => d.set HV_PWR.TOT k 0 r.1) (fun _ _ => rfl)).trans ((free _ _ _).trans (free _ _ _))

@[simp] theorem Dev.jumpGone_time (d : Dev) (n : Fin 8) (a : Act) : (d.jumpGone n a).time = d.time := (rfl)

@[simp] theorem Dev.applyFx_time (d : Dev) (n : Fin 8) (f : Fx) : (d.applyFx n f).time = d.time := by
  unfold Dev.applyFx; dsimp only; repeat' split
  all_goals simp -implicitDefEqProofs

@[simp] theorem Dev.applyTick_time (d : Dev) (n : Fin 8) (t : Nat) : (d.applyTick n t).time = d.time := by
  unfold Dev.applyTick; split <;> simp

@[simp] theorem Dev.shortDeclared_time (d : Dev) (n : Fin 8) (gapMs : Nat) : (d.shortDeclared n gapMs).time = d.time := by
  simp -implicitDefEqProofs [Dev.shortDeclared, apply_ite Dev.time]

@[simp] theorem Dev.limitSample_time (d : Dev) (n : Fin 8) : (d.limitSample n).time = d.time := by
  unfold Dev.limitSample; dsimp only; repeat' split
  all_goals simp -implicitDefEqProofs

@[simp] theorem Dev.hvSample_time (d : Dev) (n : Fin 8) (h : Nat) (x : Int) (sat : Bool) :
    (d.hvSample n h x sat).time = d.time := by
  unfold Dev.hvSample; dsimp only; split <;> simp

@[simp] theorem Dev.loadSample_time (d : Dev) (n : Fin 8) (v i : Int) : (d.loadSample n v i).time = d.time := (rfl)

@[simp] theorem Dev.forceCh_time (d : Dev) (n : Fin 8) : (d.forceCh n).time = d.time := by
  simp [Dev.forceCh]

@[simp] theorem Dev.powerActs_time (d : Dev) (n : Fin 8) (old : Nat) : (d.powerActs n old).time = d.time := by
  simp -implicitDefEqProofs [Dev.powerActs, apply_ite Dev.time]

@[simp] theorem Dev.powerTick_time (d : Dev) (n : Fin 8) : (d.powerTick n).time = d.time := by
  simp -implicitDefEqProofs [Dev.powerTick, apply_ite Dev.time]

@[simp] theorem Dev.mkChange_time (d : Dev) (n : Fin 8) (j : Nat) (level : Bool) (pos : Nat) :
    (d.mkChange n j level pos).time = d.time := by
  unfold Dev.mkChange; dsimp only; split <;> simp

@[simp] theorem Dev.mkKeep_time (d : Dev) (n : Fin 8) : (d.mkKeep n).time = d.time := (rfl)

@[simp] theorem Dev.mkPlay_time (m : Memory) (n : Fin 8) (t lim : Nat) (f : Option Frag) (p : Dev × Bool) :
    (Dev.mkPlay m n t lim f p).1.time = p.1.time := by
  unfold Dev.mkPlay
  extract_lets k phi one q
  have ones : q.1.time = p.1.time := foldl_fst_time _ _ _ (fun x j => by
    unfold one
    split
    · simp
    · dsimp only
      repeat' split
      all_goals simp)
  split
  · exact ones
  · exact (Dev.mkKeep_time _ n).trans ones

@[simp] theorem Dev.mkTick_time (d : Dev) (m : Memory) (n : Fin 8) (b : Option Beat) (t : Nat) :
    (d.mkTick m n b t).1.time = d.time := by
  unfold Dev.mkTick; dsimp only; split <;> simp -implicitDefEqProofs [apply_ite Dev.time]

@[simp] theorem Dev.starveNow_time (d : Dev) (n : Fin 8) : (d.starveNow n).time = d.time := by
  unfold Dev.starveNow; dsimp only; split <;> simp

@[simp] theorem Dev.runDry_time (d : Dev) (n : Fin 8) (f : Option Frag) (back : Option Nat) :
    (d.runDry n f back).time = d.time := by
  unfold Dev.runDry; repeat' split
  all_goals simp -implicitDefEqProofs

@[simp] theorem Dev.linesMoved_time (d : Dev) (n : Fin 8) : (d.linesMoved n).time = d.time := by
  simp -implicitDefEqProofs [Dev.linesMoved, apply_ite Dev.time]

@[simp] theorem Dev.playCh_time (d : Dev) (m : Memory) (n : Fin 8) : (d.playCh m n).time = d.time := by
  simp -implicitDefEqProofs [Dev.playCh, apply_ite Dev.time]

@[simp] theorem Dev.playTick_time (d : Dev) (m : Memory) : (d.playTick m).time = d.time := by
  simp [Dev.playTick]

@[simp] theorem Dev.onTap_time (d : Dev) (n : Fin 8) (k : Nat) (f : Tap → Tap) : (d.onTap n k f).time = d.time := (rfl)

@[simp] theorem endRecord_time (n : Fin 8) (k reason : Nat) (p : Dev × Memory) :
    (endRecord n k reason p).1.time = p.1.time := by
  unfold endRecord; dsimp only; repeat' split
  all_goals simp -implicitDefEqProofs

@[simp] theorem Dev.capFree_time (d : Dev) (n : Fin 8) (k : Nat) : (d.capFree n k).time = d.time := by
  unfold Dev.capFree; dsimp only; split <;> simp

@[simp] theorem Dev.capTrigger_time (d : Dev) (n : Fin 8) (k : Nat) (at_ : Int) (slots : List (Nat × Nat)) :
    (d.capTrigger n k at_ slots).1.time = d.time := by
  unfold Dev.capTrigger; dsimp only; repeat' split
  all_goals simp -implicitDefEqProofs

@[simp] theorem Dev.capMerge_time (d : Dev) (n : Fin 8) (k : Nat) (at_ : Int) (slots : List (Nat × Nat)) :
    (d.capMerge n k at_ slots).time = d.time := (rfl)

@[simp] theorem settleCause_time (n : Fin 8) (k : Nat) (p : Dev × Memory) : (settleCause n k p).1.time = p.1.time := by
  simp [settleCause]

@[simp] theorem startTap_time (n : Fin 8) (k : Nat) (p : Dev × Memory) : (startTap n k p).1.time = p.1.time := by
  unfold startTap; dsimp only; split <;> simp

@[simp] theorem quietTaps_time (n : Fin 8) (reason : Nat) (p : Dev × Memory) : (quietTaps n reason p).1.time = p.1.time := by
  simp [quietTaps]

@[simp] theorem sieveStart_time (n : Fin 8) (p : Dev × Memory) : (sieveStart n p).1.time = p.1.time := by
  unfold sieveStart; split <;> simp

@[simp] theorem sieveStop_time (n : Fin 8) (p : Dev × Memory) : (sieveStop n p).1.time = p.1.time := by
  simp [sieveStop]

@[simp] theorem sievePause_time (n : Fin 8) (p : Dev × Memory) : (sievePause n p).1.time = p.1.time := by
  unfold sievePause; split <;> simp

@[simp] theorem sieveResume_time (n : Fin 8) (p : Dev × Memory) : (sieveResume n p).1.time = p.1.time := by
  unfold sieveResume; split <;> simp

@[simp] theorem landCap_time (n : Fin 8) (x : Nat × Nat) (p : Dev × Memory) : (landCap n x p).1.time = p.1.time := by
  unfold landCap
  dsimp only
  split
  · simp
  · split
    · simp
    · rw [Dev.clear_eq, Dev.set_time, Dev.onTap_time, foldl_time _ _ _ (fun e s => e.overrun_time s)]
      simp

@[simp] theorem sieveJoint_time (shifted : Bool) (n : Fin 8) (p : Dev × Memory) :
    (sieveJoint shifted n p).1.time = p.1.time := by
  unfold sieveJoint
  extract_lets sv p₁ p₂ p₃ p₄ p₅ d₅ old p₆
  have h₁ : p₁.1.time = p.1.time := by
    unfold p₁
    split
    · split
      exacts [rfl, sieveStart_time n p]
    · split
      exacts [sieveStop_time n p, rfl]
    · rfl
  have h₃ : p₃.1.time = p.1.time := (foldl_fst_time _ _ _ (fun q x => landCap_time n x q)).trans h₁
  have h₅ : p₅.1.time = p.1.time := by
    unfold p₅
    split
    · exact (sievePause_time n p₄).trans h₃
    · split
      exacts [(sieveResume_time n p₄).trans h₃, h₃]
  have h₆ : p₆.1.time = p.1.time := by
    unfold p₆
    split
    · exact h₅
    · dsimp only
      split
      · exact h₅
      · exact (foldl_fst_time _ _ _ (fun q k => settleCause_time n k q)).trans h₅
  split
  · exact (foldl_time _ _ _ (fun d k => Dev.onTap_time d n k _)).trans h₆
  · exact h₆

@[simp] theorem Dev.benchQueue_time (d : Dev) (w : BenchWait) : (d.benchQueue w).time = d.time := (rfl)

@[simp] theorem Dev.benchTx_time (d : Dev) (x : Nat) (slots : List (Nat × Nat)) : (d.benchTx x slots).time = d.time := by
  unfold Dev.benchTx; dsimp only; split <;> simp

@[simp] theorem Dev.restartRing_time (d : Dev) : d.restartRing.2.time = d.time := (rfl)

@[simp] theorem Dev.addAct_time (d : Dev) (n : Fin 8) (kind : ActKind) (org : Origin) (land acc : Nat) (slots : List (Nat × Nat)) :
    (d.addAct n kind org land acc slots).time = d.time := by
  unfold Dev.addAct; split <;> rfl

@[simp] theorem Dev.stamp_time (d : Dev) (l crs tick fine : Nat) (sys : Bool) :
    (d.stamp l crs tick fine sys).time = d.time := by
  simp -implicitDefEqProofs [Dev.stamp, apply_ite Dev.time]

@[simp] theorem Dev.lateNotice_time (d : Dev) (id : Nat) : (d.lateNotice id).time = d.time := by
  unfold Dev.lateNotice; split <;> rfl

@[simp] theorem Dev.sysLate_time (d : Dev) (id : Nat) : (d.sysLate id).time = d.time := by
  simp [Dev.sysLate]

@[simp] theorem Dev.sysTake_time (d : Dev) (id m least : Nat) : (d.sysTake id m least).time = d.time := by
  unfold Dev.sysTake; dsimp only; split <;> simp -implicitDefEqProofs [apply_ite Dev.time]

@[simp] theorem Dev.sysDeliver_time (d : Dev) (id m : Nat) : (d.sysDeliver id m).time = d.time := by
  simp [Dev.sysDeliver]

@[simp] theorem Dev.originate_time (d : Dev) (id l : Nat) : (d.originate id l).2.time = d.time := by
  unfold Dev.originate; split <;> simp

@[simp] theorem Dev.sysTx_time (d : Dev) (x : Nat) (slots : List (Nat × Nat)) : (d.sysTx x slots).1.time = d.time := by
  unfold Dev.sysTx; repeat' split
  all_goals simp -implicitDefEqProofs

@[simp] theorem Dev.consume_time (d : Dev) (code : Nat) (at_ : Int) (slots : List (Nat × Nat)) :
    (d.consume code at_ slots).1.time = d.time := by
  unfold Dev.consume; repeat' split
  all_goals simp -implicitDefEqProofs

@[simp] theorem Dev.layCut_time (d : Dev) (m : Memory) (n : Fin 8) (old : Option FastJump) (j : FastJump) :
    (d.layCut m n old j).time = d.time := by
  unfold Dev.layCut; dsimp only; repeat' split
  all_goals simp -implicitDefEqProofs

@[simp] theorem Dev.cutRelay_time (d : Dev) (m : Memory) (n : Fin 8) (j : FastJump) : (d.cutRelay m n j).time = d.time := by
  unfold Dev.cutRelay; dsimp only; split <;> simp

@[simp] theorem Dev.holdJump_time (d : Dev) (m : Memory) (n : Fin 8) (j : Nat) (a : Act) (place : Nat × Nat) :
    (d.holdJump m n j a place).time = d.time := by
  unfold Dev.holdJump; dsimp only; split <;> simp -implicitDefEqProofs [apply_ite Dev.time]

@[simp] theorem Dev.localJump_time (d : Dev) (m : Memory) (n : Fin 8) (j l : Nat) (slots : List (Nat × Nat)) (src : Src) (place : Nat × Nat) :
    (d.localJump m n j l slots src place).1.time = d.time := by
  unfold Dev.localJump; dsimp only; repeat' split
  all_goals simp -implicitDefEqProofs

@[simp] theorem Dev.mergeAct_time (d : Dev) (m : Memory) (l : Nat) (slots : List (Nat × Nat)) (t : Took) (best : Src) :
    (d.mergeAct m l slots t best).time = d.time := by
  unfold Dev.mergeAct; dsimp only; repeat' split
  all_goals simp -implicitDefEqProofs

@[simp] theorem Dev.merge_time (d : Dev) (m : Memory) (l : Nat) (slots : List (Nat × Nat)) (src : Src) (t : Took) :
    (d.merge m l slots src t).time = d.time := by
  unfold Dev.merge; split <;> simp

@[simp] theorem Dev.localConsumer_time (m : Memory) (f : Fired) (d : Dev) (r : Nat × List (Nat × Nat)) :
    (Dev.localConsumer m f d r).time = d.time := by
  unfold Dev.localConsumer; repeat' split
  all_goals simp -implicitDefEqProofs

@[simp] theorem Dev.firedNow_time (m : Memory) (d : Dev) (f : Fired) : (Dev.firedNow m d f).time = d.time := by
  simp [Dev.firedNow]

@[simp] theorem Dev.firedDue_time (d : Dev) (m : Memory) : (d.firedDue m).time = d.time := by
  simp [Dev.firedDue]

@[simp] theorem Dev.later_time (d : Dev) (x : Due) : (d.later x).time = d.time := (rfl)

@[simp] theorem Dev.resolveAt_time (d : Dev) (land : Nat) : (d.resolveAt land).time = d.time := by
  refine foldl_time _ { d with ev := _ } _ (fun e code => foldl_time _ _ _ (fun e x => ?_))
  split
  · repeat' split
    all_goals simp
  · simp

@[simp] theorem Dev.landDue_time (d : Dev) : d.landDue.time = d.time := by
  simp [Dev.landDue]

@[simp] theorem Dev.ringState_time (d : Dev) (st : Nat) : (d.ringState st).time = d.time := by
  unfold Dev.ringState; split <;> simp

@[simp] theorem Dev.clkSrc_time (d : Dev) (src : Nat) : (d.clkSrc src).time = d.time := by
  unfold Dev.clkSrc; split <;> rfl

@[simp] theorem Dev.follow_time (d : Dev) (p : Nat) : (d.follow p).time = d.time := by
  unfold Dev.follow; split <;> simp

@[simp] theorem Dev.layAt_time (d : Dev) (m : Memory) (n : Fin 8) (c : Nat) : (d.layAt m n c).time = d.time := (rfl)

@[simp] theorem Dev.onSpare_time (d : Dev) (n : Fin 8) : (d.onSpare n).time = d.time := by
  simp -implicitDefEqProofs [Dev.onSpare, apply_ite Dev.time]

@[simp] theorem Dev.switchover_time (d : Dev) (m : Memory) (n : Fin 8) (first redone : Nat) :
    (d.switchover m n first redone).time = d.time := by
  simp [Dev.switchover]

@[simp] theorem Dev.setLive_time (d : Dev) (n : Nat) (ws : List Nat) : (d.setLive n ws).time = d.time := (rfl)

@[simp] theorem Dev.swapIn_time (d : Dev) (n : Nat) (ws : List Nat) : (d.swapIn n ws).time = d.time := (rfl)

@[simp] theorem Dev.tableUpdate_time (d : Dev) (n : Fin 8) : (d.tableUpdate n).time = d.time := by
  simp -implicitDefEqProofs [Dev.tableUpdate, apply_ite Dev.time]

@[simp] theorem Dev.commitSet_time (d : Dev) (n : Fin 8) (kind : Nat) (parts : List (Nat × Nat)) (new : List Nat) :
    (d.commitSet n kind parts new).time = d.time := by
  simp -implicitDefEqProofs [Dev.commitSet, apply_ite Dev.time]

@[simp] theorem Dev.slotEnd_time (d : Dev) (n : Fin 8) : (d.slotEnd n).time = d.time := by
  unfold Dev.slotEnd; dsimp only; repeat' split
  all_goals simp -implicitDefEqProofs

@[simp] theorem Dev.slotCourse_time (d : Dev) (n : Fin 8) (ticks : Nat) : (d.slotCourse n ticks).time = d.time := by
  unfold Dev.slotCourse; dsimp only; split <;> simp -implicitDefEqProofs [apply_ite Dev.time]

@[simp] theorem Dev.loadLand_time (d : Dev) (n : Fin 8) : (d.loadLand n).time = d.time := by
  unfold Dev.loadLand; dsimp only; repeat' split
  all_goals simp -implicitDefEqProofs

@[simp] theorem Dev.modeLand_time (d : Dev) (n : Fin 8) : (d.modeLand n).time = d.time := (rfl)

@[simp] theorem Dev.quietStatic_time (d : Dev) (n : Fin 8) : (d.quietStatic n).time = d.time := by
  simp [Dev.quietStatic]

@[simp] theorem pauseSieves_time (p : Dev × Memory) : (pauseSieves p).1.time = p.1.time := by
  simp [pauseSieves]

@[simp] theorem Dev.delayJoint_time (d : Dev) (n : Fin 8) : (d.delayJoint n).time = d.time := by
  simp -implicitDefEqProofs [Dev.delayJoint, apply_ite Dev.time]

@[simp] theorem Dev.outputJoint_time (d : Dev) (n : Fin 8) : (d.outputJoint n).time = d.time := by
  simp -implicitDefEqProofs [Dev.outputJoint, apply_ite Dev.time]

@[simp] theorem Dev.checkRuns_time (d : Dev) : d.checkRuns.time = d.time := (rfl)

@[simp] theorem Dev.framesShow_time (d : Dev) (n : Nat) : (d.framesShow n).time = d.time := by
  unfold Dev.framesShow; dsimp only; split <;> simp

@[simp] theorem Dev.extLand_time (d : Dev) : d.extLand.time = d.time := by
  unfold Dev.extLand; repeat' split
  all_goals simp -implicitDefEqProofs

@[simp] theorem Dev.readyShow_time (d : Dev) (m : Memory) (n : Fin 8) : (d.readyShow m n).time = d.time := by
  simp -implicitDefEqProofs [Dev.readyShow, apply_ite Dev.time]

@[simp] theorem Dev.hzLand_time (d : Dev) (n : Fin 8) : (d.hzLand n).time = d.time := by
  simp -implicitDefEqProofs [Dev.hzLand, apply_ite Dev.time]

@[simp] theorem Dev.refill_time (d : Dev) (n : Fin 8) : (d.refill n).time = d.time := by
  unfold Dev.refill; dsimp only; split <;> simp -implicitDefEqProofs [apply_ite Dev.time]

@[simp] theorem Dev.starveJoint_time (d : Dev) (n : Fin 8) : (d.starveJoint n).time = d.time := by
  simp -implicitDefEqProofs [Dev.starveJoint, apply_ite Dev.time]

@[simp] theorem Dev.copyJoint_time (d : Dev) (m : Memory) (old : Nat) : (d.copyJoint m old).time = d.time :=
  foldl_time _ _ _ (fun _ _ => rfl)

@[simp] theorem Dev.movesWait_time (d : Dev) : d.movesWait.time = d.time := (rfl)

@[simp] theorem Dev.residentJoint_time (d : Dev) : d.residentJoint.time = d.time := (rfl)

@[simp] theorem Dev.readyJoint_time (d : Dev) (m : Memory) (x : Mason) : (d.readyJoint m x).time = d.time := by
  simp -implicitDefEqProofs [Dev.readyJoint, apply_ite Dev.time]

@[simp] theorem Dev.reserveAnew_time (d : Dev) (f : Nat × Nat) : (d.reserveAnew f).time = d.time := by
  unfold Dev.reserveAnew; repeat' split
  all_goals simp -implicitDefEqProofs

@[simp] theorem Dev.masonJoint_time (d : Dev) (m : Memory) (old : Nat) : (d.masonJoint m old).time = d.time := by
  simp -implicitDefEqProofs [Dev.masonJoint, apply_ite Dev.time]

@[simp] theorem Dev.playedPages_time (d : Dev) : d.playedPages.time = d.time := by
  simp -implicitDefEqProofs [Dev.playedPages]

@[simp] theorem Dev.stepBankJoint_time (d : Dev) (n : Nat) : (d.stepBankJoint n).time = d.time := by
  unfold Dev.stepBankJoint; split <;> rfl

@[simp] theorem Dev.marchBack_time (m : Memory) (d : Dev) (t : March) : (Dev.marchBack m d t).time = d.time := by
  unfold Dev.marchBack; split <;> rfl

@[simp] theorem Dev.marchJoint_time (d : Dev) (m : Memory) : (d.marchJoint m).time = d.time := by
  unfold Dev.marchJoint; dsimp only; repeat' split
  all_goals simp -implicitDefEqProofs

@[simp] theorem Dev.setDebt_time (d : Dev) (n r v : Nat) : (d.setDebt n r v).time = d.time := by
  unfold Dev.setDebt; split <;> rfl

@[simp] theorem Dev.delayWrite_time (d : Dev) (n : Fin 8) (r : Nat) : (d.delayWrite n r).time = d.time := by
  unfold Dev.delayWrite; split <;> rfl

@[simp] theorem Dev.burstBegin_time (d : Dev) (n : Fin 8) (r k : Nat) : (d.burstBegin n r k).time = d.time := by
  unfold Dev.burstBegin; split <;> simp

@[simp] theorem Dev.repay_time (d : Dev) (n : Fin 8) (r : Nat) : (d.repay n r).time = d.time := by
  simp -implicitDefEqProofs [Dev.repay, apply_ite Dev.time]

@[simp] theorem Dev.onMeas_time (d : Dev) (p : Nat) (f : Meas → Meas) : (d.onMeas p f).time = d.time := (rfl)

@[simp] theorem Dev.fwdShow_time (d : Dev) : d.fwdShow.time = d.time := (rfl)

@[simp] theorem Dev.noUp_time (d : Dev) (src : Nat) : (d.noUp src).time = d.time := by
  simp [Dev.noUp]

@[simp] theorem Dev.claimOut_time (d : Dev) : d.claimOut.time = d.time := by
  unfold Dev.claimOut; split <;> rfl

@[simp] theorem Dev.unjoin_time (d : Dev) : d.unjoin.time = d.time := by
  simp [Dev.unjoin]

@[simp] theorem Dev.linkDown_time (d : Dev) (p : Nat) (rev : Bool) : (d.linkDown p rev).time = d.time := by
  unfold Dev.linkDown
  extract_lets up loop d₁ d₂ gone src d₃ h d₄
  have h₂ : d₂.time = d.time := by simp [d₂, d₁]
  have h₃ : d₃.time = d.time := by simp [d₃, h₂]
  have h₄ : d₄.time = d.time := by
    unfold d₄
    split
    exacts [h₃, (Dev.onMeas_time _ _ _).trans h₃]
  split
  · exact h₃
  · split
    · exact (Dev.follow_time _ _).trans h₃
    · split
      · simp [h₄]
      · simp [h₄]

@[simp] theorem Dev.calStart_time (d : Dev) (p : Nat) (named : Bool) : (d.calStart p named).time = d.time := by
  unfold Dev.calStart
  split <;> simp

@[simp] theorem Dev.calLink_time (d : Dev) (i q : Nat) : (d.calLink i q).time = d.time := by
  simp -implicitDefEqProofs [Dev.calLink, apply_ite Dev.time]

@[simp] theorem Dev.calNext_time (d : Dev) : d.calNext.time = d.time := by
  unfold Dev.calNext; dsimp only; split <;> simp

@[simp] theorem Dev.calAsk_time (d : Dev) (index p : Nat) : (d.calAsk index p).time = d.time := by
  simp -implicitDefEqProofs [Dev.calAsk, apply_ite Dev.time]

@[simp] theorem Dev.revEnds_time (d : Dev) : d.revEnds.time = d.time := by
  refine foldl_time _ _ _ (fun e p => ?_)
  split
  · simp
  · rfl

@[simp] theorem Dev.rosterShow_time (d : Dev) : d.rosterShow.time = d.time := (rfl)

@[simp] theorem Dev.island_time (d : Dev) (low : Nat) : (d.island low).time = d.time := by
  simp -implicitDefEqProofs [Dev.island, apply_ite Dev.time]

@[simp] theorem Dev.haltJoint_time (d : Dev) : d.haltJoint.time = d.time := by
  simp -implicitDefEqProofs [Dev.haltJoint, apply_ite Dev.time]

@[simp] theorem Dev.setDst_time (d : Dev) (l k w : Nat) : (d.setDst l k w).time = d.time := by
  unfold Dev.setDst; split <;> rfl

@[simp] theorem Dev.addDst_time (d : Dev) (l w : Nat) : (d.addDst l w).time = d.time := by
  unfold Dev.addDst; split <;> simp

@[simp] theorem Dev.groupLine_time (old new l : Nat) (d : Dev) (i : Nat) : (Dev.groupLine old new l d i).time = d.time := by
  unfold Dev.groupLine; dsimp only; split <;> simp

@[simp] theorem Dev.groupRoutes_time (d : Dev) (old new : Nat) : (d.groupRoutes old new).time = d.time := by
  simp [Dev.groupRoutes]

@[simp] theorem Dev.groupJoint_time (d : Dev) : d.groupJoint.time = d.time := by
  simp -implicitDefEqProofs [Dev.groupJoint, apply_ite Dev.time]

@[simp] theorem Dev.batchClose_time (d : Dev) (m : Memory) (n : Fin 8) : (d.batchClose m n).time = d.time := by
  unfold Dev.batchClose; dsimp only; repeat' split
  all_goals simp -implicitDefEqProofs

@[simp] theorem Dev.applyOfs_time (d : Dev) (n : Fin 8) (acts : List Act) : (d.applyOfs n acts).time = d.time := by
  refine foldl_time _ _ _ (fun e a => ?_)
  split <;> rfl

@[simp] theorem Dev.playEntry_time (d : Dev) (n : Fin 8) (e : Entry) (miss : Bool) :
    (d.playEntry n e miss).time = d.time := by
  simp [Dev.playEntry]

@[simp] theorem Dev.takeEntry_time (d : Dev) (m : Memory) (n : Fin 8) : (d.takeEntry m n).time = d.time := by
  unfold Dev.takeEntry; dsimp only; repeat' split
  all_goals simp -implicitDefEqProofs

@[simp] theorem Dev.loopShow_time (d : Dev) (n : Nat) (st : List Lvl) : (d.loopShow n st).time = d.time := (rfl)

@[simp] theorem Dev.seqShow_time (d : Dev) (n : Fin 8) : (d.seqShow n).time = d.time := by
  unfold Dev.seqShow
  extract_lets cal fr e
  have free : e.time = d.time := by unfold e fr; split <;> rfl
  split
  · simp [free]
  · rw [Dev.showState_time, Dev.onCh_time, foldl_time _ _ _ (fun e x => e.set_time ..)]
    simp [free]

@[simp] theorem Dev.snapTake_time (d : Dev) (n : Fin 8) : (d.snapTake n).time = d.time := (rfl)

@[simp] theorem Dev.snapJoint_time (d : Dev) (n : Fin 8) : (d.snapJoint n).time = d.time := by
  simp -implicitDefEqProofs [Dev.snapJoint, apply_ite Dev.time]

@[simp] theorem Dev.ddsShow_time (d : Dev) (n : Fin 8) : (d.ddsShow n).time = d.time := (rfl)

@[simp] theorem Dev.todJoint_time (d : Dev) : d.todJoint.time = d.time := by
  unfold Dev.todJoint; split <;> rfl

@[simp] theorem Dev.cmdEnd_time (d : Dev) (c : Cmd) : (d.cmdEnd c).time = d.time := by
  simp -implicitDefEqProofs [Dev.cmdEnd, apply_ite Dev.time]

@[simp] theorem Dev.cmdJoint_time (d : Dev) : d.cmdJoint.time = d.time := by
  simp [Dev.cmdJoint]

@[simp] theorem Dev.settle_time (d : Dev) (n : Fin 8) (old : Nat) : (d.settle n old).time = d.time := by
  simp -implicitDefEqProofs [Dev.settle, apply_ite Dev.time]

@[simp] theorem settleAll_time (shifted : Bool) (old : Nat) (p : Dev × Memory) :
    (settleAll shifted old p).1.time = p.1.time := by
  simp [settleAll]

@[simp] theorem pauseSlots_time (p : Dev × Memory) : (pauseSlots p).1.time = p.1.time := by
  unfold pauseSlots
  refine foldl_fst_time _ _ _ (fun q n => ?_)
  split
  exacts [sievePause_time n q, rfl]

/-! ### Ticks and joints -/

theorem Dev.ringJoint_time (d : Dev) : d.ringJoint.time = d.time := by
  unfold Dev.ringJoint
  extract_lets c d₁ d₂ now src d₃ d₄ src₄ d₅ src₅ d₆
  have h₂ : d₂.time = d.time := (foldl_time _ _ _ (fun e x => e.set_time ..)).trans d.revEnds_time
  have h₄ : d₄.time = d.time := by
    unfold d₄
    split
    exacts [h₂, d₃.rosterShow_time.trans h₂]
  have h₅ : d₅.time = d.time := (Dev.set_time ..).trans ((Dev.set_time ..).trans h₄)
  have h₆ : d₆.time = d.time := by
    unfold d₆
    split
    · split
      · exact (Dev.island_time _ _).trans h₅
      · exact h₅
      · exact h₅
    · exact h₄
  split
  · split
    exacts [(Dev.stopAll_time _).trans h₆, h₆]
  · exact h₆

/-- The counter of courses and the tick after the grid of the course that begins is set. -/
theorem Dev.gridJoint_time (d : Dev) : d.gridJoint.time.crs = d.time.crs ∧ d.gridJoint.time.tick = d.time.tick := by
  have landed (c : Bool) (e : Dev) (v : Nat) :
      (if c then (e.set CRS_LEN.LEN 0 0 v).clear CRS_CTRL.LEN_PEND else e).time = e.time := by split <;> rfl
  unfold Dev.gridJoint
  dsimp only
  rw [landed, Dev.raiseIf_time]
  exact ⟨rfl, rfl⟩

/-- A tick inside a course counts one tick, and one since lock. -/
theorem Dev.tickOn_time (d : Dev) (m : Memory) :
    (d.tickOn m).time = { d.time with tick := d.time.tick + 1, abs := d.time.abs + 1 } := by
  unfold Dev.tickOn
  rw [Dev.playTick_time, Dev.firedDue_time]

/-- Ticks pass, as many as the course still has and no more than asked for. -/
theorem Dev.finishCourse_time (m : Memory) (k : Nat) (d : Dev) :
    ∃ j, j ≤ k ∧ (Dev.finishCourse m k d).time = { d.time with tick := d.time.tick + j, abs := d.time.abs + j } := by
  induction k generalizing d with
  | zero => exact ⟨0, le_rfl, rfl⟩
  | succ k ih =>
    unfold Dev.finishCourse
    split
    · obtain ⟨j, le, time⟩ := ih (d.tickOn m)
      refine ⟨j + 1, by omega, ?_⟩
      rw [time, Dev.tickOn_time]
      simp only [Time.mk.injEq, true_and, and_true]
      omega
    · exact ⟨0, by omega, rfl⟩

theorem jointEnd_time (p : Dev × Memory) : (jointEnd p).1.time = p.1.time := by
  unfold jointEnd
  extract_lets d₁ p₂ d₃ d₄
  have h₁ : d₁.time = p.1.time := by
    rw [show d₁.time = _ from Dev.eachCh_time _ _ (fun n e => e.ddsShow_time n), Dev.firedDue_time]
  have h₂ : p₂.1.time = p.1.time := by
    unfold p₂
    rw [pauseSlots_time, Dev.playTick_time, h₁]
  have h₃ : d₃.time = p.1.time := by
    rw [show d₃.time = _ from Dev.eachCh_time _ _ (fun n e => by simp), h₂]
  have h₄ : d₄.time = p.1.time := by
    unfold d₄
    split
    exacts [(d₃.fire_time 1).trans h₃, h₃]
  simp [h₄]

/-- What the joint's part before the samples does after the admission keeps the counter and the tick. -/
theorem jointBegin_time (p : Dev × Memory) (alone : (Dev.finishCourse p.2 p.1.time.clen p.1).ring.admission = none) :
    (jointBegin p).1.time.crs = (p.1.time.crs + 1) % 2 ^ 64 ∧ (jointBegin p).1.time.tick = 0 := by
  obtain ⟨j, _, ticks⟩ := Dev.finishCourse_time p.2 p.1.time.clen p.1
  unfold jointBegin
  extract_lets m d₀ old src d₁ d₂ shifted d₃ d₄ p₅ d₆ d₇
  have same : d₂ = d₁ := by
    unfold d₂ Dev.admitJoint
    rw [show d₁.ring.admission = none from alone]
  have h₃ : d₃.time = d₂.gridJoint.time := by simp only [d₃, Dev.marchJoint_time, Dev.masonJoint_time, Dev.haltJoint_time, Dev.ringJoint_time]
  have h₄ : d₄.time = d₃.time := Dev.eachCh_time _ _ (fun n e => by simp)
  have h₅ : p₅.1.time = d₄.time := settleAll_time _ _ _
  have h₆ : d₆.time = p₅.1.time := by simp only [d₆, Dev.resolveAt_time, Dev.landDue_time, Dev.groupJoint_time]
  have h₇ : d₇.time = d₆.time := Dev.eachCh_time _ _ (fun n e => by simp)
  have h₈ : (d₇.eachCh fun n d => d.starveJoint n).playedPages.time = d₇.time := by
    rw [Dev.playedPages_time]
    exact Dev.eachCh_time _ _ (fun n e => e.starveJoint_time n)
  obtain ⟨crs, tick⟩ := d₂.gridJoint_time
  rw [same] at crs tick h₃
  dsimp only
  rw [h₈, h₇, h₆, h₅, h₄, h₃, crs, tick]
  refine ⟨?_, rfl⟩
  show (d₀.time.crs + 1) % 2 ^ 64 = _
  rw [show d₀.time = _ from ticks]

end Sys2Proof.Machine
end

section
/-!
SUPPORT. An admission that waits on the ring still waits after the ticks of a course (R22).
-/
namespace Sys2Proof.Machine
open Reg

@[simp] theorem Dev.eachCh_admission (d : Dev) (f : Fin 8 → Dev → Dev) (h : ∀ n e, (f n e).ring.admission = e.ring.admission) :
    (d.eachCh f).ring.admission = d.ring.admission :=
  Dev.eachCh_keeps (fun e => e.ring.admission = d.ring.admission) f d (fun n e he => (h n e).trans he) rfl

@[simp] theorem foldl_admission {α : Type} (l : List α) (d : Dev) (f : Dev → α → Dev)
    (h : ∀ e a, (f e a).ring.admission = e.ring.admission) :
    (l.foldl f d).ring.admission = d.ring.admission :=
  foldl_keeps (fun e => e.ring.admission = d.ring.admission) f l d (fun e a he => (h e a).trans he) rfl

@[simp] theorem foldl_fst_admission {α β : Type} (l : List α) (p : Dev × β) (f : Dev × β → α → Dev × β)
    (h : ∀ q a, (f q a).1.ring.admission = q.1.ring.admission) : (l.foldl f p).1.ring.admission = p.1.ring.admission :=
  foldl_keeps (fun q => q.1.ring.admission = p.1.ring.admission) f l p (fun q a hq => (h q a).trans hq) rfl

@[simp] theorem Dev.raiseIf_admission (d : Dev) (c : Bool) (f : Fld) (n i : Nat) :
    (d.raiseIf c f n i).ring.admission = d.ring.admission := by
  unfold Dev.raiseIf; split <;> rfl

@[simp] theorem Dev.setPair_admission (d : Dev) (lo hi : Fld) (n i v : Nat) :
    (d.setPair lo hi n i v).ring.admission = d.ring.admission := (rfl)

@[simp] theorem Dev.recordRelay_admission (d : Dev) (n bound : Nat) :
    (d.recordRelay n bound).ring.admission = d.ring.admission := (rfl)

@[simp] theorem Dev.layAgain_admission (d : Dev) (m : Memory) (n : Fin 8) (c : Nat) :
    (d.layAgain m n c).1.ring.admission = d.ring.admission := by
  unfold Dev.layAgain; dsimp only; split <;> simp

@[simp] theorem Dev.relayPlaying_admission (d : Dev) (m : Memory) (n : Fin 8) (cuts : List FastJump) (t : Nat) :
    (d.relayPlaying m n cuts t).ring.admission = d.ring.admission := by
  unfold Dev.relayPlaying; split <;> rfl

@[simp] theorem Dev.followHold_admission (d : Dev) (m : Memory) (n : Fin 8) :
    (d.followHold m n).ring.admission = d.ring.admission := by
  unfold Dev.followHold; split <;> rfl

@[simp] theorem Dev.relayRest_admission (d : Dev) (m : Memory) (n : Fin 8) :
    (d.relayRest m n).ring.admission = d.ring.admission := by
  unfold Dev.relayRest; split <;> rfl

@[simp] theorem Dev.fillFree_admission (d : Dev) (m slot w k0 : Nat) :
    (d.fillFree m slot w k0).ring.admission = d.ring.admission := by
  induction k0 generalizing d w with
  | zero => rfl
  | succ k ih => rw [Dev.fillFree, ih]; rfl

@[simp] theorem Dev.settleOwn_admission (d : Dev) : d.settleOwn.ring.admission = d.ring.admission := by
  simp -implicitDefEqProofs [Dev.settleOwn]

@[simp] theorem Dev.finish_admission (d : Dev) (m slot status : Nat) (res : List Nat) :
    (d.finish m slot status res).ring.admission = d.ring.admission := by
  simp -implicitDefEqProofs [Dev.finish, apply_ite Dev.ring]

@[simp] theorem Dev.part_admission (d : Dev) (m slot n reason : Nat) :
    (d.part m slot n reason).ring.admission = d.ring.admission := by
  unfold Dev.part; dsimp only; split <;> simp -implicitDefEqProofs [apply_ite Dev.ring, apply_ite Ring.admission]

@[simp] theorem Dev.overrun_admission (d : Dev) (slots : List (Nat × Nat)) :
    (d.overrun slots).ring.admission = d.ring.admission := by
  simp -implicitDefEqProofs [Dev.overrun]

@[simp] theorem Dev.dropAct_admission (d : Dev) (n : Nat) (a : Act) (why : Lost) :
    (d.dropAct n a why).ring.admission = d.ring.admission := by
  unfold Dev.dropAct; repeat' split
  all_goals simp -implicitDefEqProofs

@[simp] theorem Dev.abortSlot_admission (d : Dev) (n : Fin 8) : (d.abortSlot n).ring.admission = d.ring.admission := by
  unfold Dev.abortSlot; repeat' split
  all_goals simp -implicitDefEqProofs

@[simp] theorem Dev.dropCaps_admission (d : Dev) (n : Fin 8) : (d.dropCaps n).ring.admission = d.ring.admission := by
  simp [Dev.dropCaps]

@[simp] theorem Dev.stopNow_admission (d : Dev) (n : Fin 8) : (d.stopNow n).ring.admission = d.ring.admission := by
  simp [Dev.stopNow]

@[simp] theorem Dev.stopAll_admission (d : Dev) : d.stopAll.ring.admission = d.ring.admission := by
  simp [Dev.stopAll]

@[simp] theorem Dev.haltOut_admission (d : Dev) : d.haltOut.ring.admission = d.ring.admission := by
  unfold Dev.haltOut; split <;> rfl

@[simp] theorem Dev.assertHalt_admission (d : Dev) (src : Nat) : (d.assertHalt src).ring.admission = d.ring.admission := by
  unfold Dev.assertHalt; dsimp only; split <;> simp

@[simp] theorem Dev.wake_admission (d : Dev) (src : Nat) : (d.wake src).ring.admission = d.ring.admission := by
  simp -implicitDefEqProofs [Dev.wake, apply_ite Dev.ring]

@[simp] theorem Dev.showState_admission (d : Dev) (n : Fin 8) : (d.showState n).ring.admission = d.ring.admission := (rfl)

@[simp] theorem Dev.hvDisable_admission (d : Dev) (n : Fin 8) : (d.hvDisable n).ring.admission = d.ring.admission := by
  simp [Dev.hvDisable]

@[simp] theorem Dev.powerShow_admission (d : Dev) (n : Fin 8) : (d.powerShow n).ring.admission = d.ring.admission := by
  have free (c : Prop) [Decidable c] (v : Nat) (e : Dev) : ((if c then (v, e) else e.free : Nat × Dev)).2.ring.admission = e.ring.admission := by split <;> rfl
  unfold Dev.powerShow
  extract_lets c e r
  exact (Dev.eachCh_admission r.2 (fun k d => d.set HV_PWR.TOT k 0 r.1) (fun _ _ => rfl)).trans ((free _ _ _).trans (free _ _ _))

@[simp] theorem Dev.jumpGone_admission (d : Dev) (n : Fin 8) (a : Act) :
    (d.jumpGone n a).ring.admission = d.ring.admission := (rfl)

@[simp] theorem Dev.applyFx_admission (d : Dev) (n : Fin 8) (f : Fx) : (d.applyFx n f).ring.admission = d.ring.admission := by
  unfold Dev.applyFx; dsimp only; repeat' split
  all_goals simp -implicitDefEqProofs

@[simp] theorem Dev.applyTick_admission (d : Dev) (n : Fin 8) (t : Nat) :
    (d.applyTick n t).ring.admission = d.ring.admission := by
  unfold Dev.applyTick; split <;> simp

@[simp] theorem Dev.shortDeclared_admission (d : Dev) (n : Fin 8) (gapMs : Nat) :
    (d.shortDeclared n gapMs).ring.admission = d.ring.admission := by
  simp -implicitDefEqProofs [Dev.shortDeclared, apply_ite Dev.ring, apply_ite Ring.admission]

@[simp] theorem Dev.limitSample_admission (d : Dev) (n : Fin 8) : (d.limitSample n).ring.admission = d.ring.admission := by
  unfold Dev.limitSample; dsimp only; repeat' split
  all_goals simp -implicitDefEqProofs

@[simp] theorem Dev.hvSample_admission (d : Dev) (n : Fin 8) (h : Nat) (x : Int) (sat : Bool) :
    (d.hvSample n h x sat).ring.admission = d.ring.admission := by
  unfold Dev.hvSample; dsimp only; split <;> simp

@[simp] theorem Dev.loadSample_admission (d : Dev) (n : Fin 8) (v i : Int) :
    (d.loadSample n v i).ring.admission = d.ring.admission := (rfl)

@[simp] theorem Dev.forceCh_admission (d : Dev) (n : Fin 8) : (d.forceCh n).ring.admission = d.ring.admission := by
  simp [Dev.forceCh]

@[simp] theorem Dev.powerActs_admission (d : Dev) (n : Fin 8) (old : Nat) :
    (d.powerActs n old).ring.admission = d.ring.admission := by
  simp -implicitDefEqProofs [Dev.powerActs, apply_ite Dev.ring, apply_ite Ring.admission]

@[simp] theorem Dev.powerTick_admission (d : Dev) (n : Fin 8) : (d.powerTick n).ring.admission = d.ring.admission := by
  simp -implicitDefEqProofs [Dev.powerTick, apply_ite Dev.ring, apply_ite Ring.admission]

@[simp] theorem Dev.mkChange_admission (d : Dev) (n : Fin 8) (j : Nat) (level : Bool) (pos : Nat) :
    (d.mkChange n j level pos).ring.admission = d.ring.admission := by
  unfold Dev.mkChange; dsimp only; split <;> simp

@[simp] theorem Dev.mkKeep_admission (d : Dev) (n : Fin 8) : (d.mkKeep n).ring.admission = d.ring.admission := (rfl)

@[simp] theorem Dev.mkPlay_admission (m : Memory) (n : Fin 8) (t lim : Nat) (f : Option Frag) (p : Dev × Bool) :
    (Dev.mkPlay m n t lim f p).1.ring.admission = p.1.ring.admission := by
  unfold Dev.mkPlay
  extract_lets k phi one q
  have ones : q.1.ring.admission = p.1.ring.admission := foldl_fst_admission _ _ _ (fun x j => by
    unfold one
    split
    · simp
    · dsimp only
      repeat' split
      all_goals simp)
  split
  · exact ones
  · exact (Dev.mkKeep_admission _ n).trans ones

@[simp] theorem Dev.mkTick_admission (d : Dev) (m : Memory) (n : Fin 8) (b : Option Beat) (t : Nat) :
    (d.mkTick m n b t).1.ring.admission = d.ring.admission := by
  unfold Dev.mkTick; dsimp only; split <;> simp -implicitDefEqProofs [apply_ite Dev.ring, apply_ite Ring.admission]

@[simp] theorem Dev.starveNow_admission (d : Dev) (n : Fin 8) : (d.starveNow n).ring.admission = d.ring.admission := by
  unfold Dev.starveNow; dsimp only; split <;> simp

@[simp] theorem Dev.runDry_admission (d : Dev) (n : Fin 8) (f : Option Frag) (back : Option Nat) :
    (d.runDry n f back).ring.admission = d.ring.admission := by
  unfold Dev.runDry; repeat' split
  all_goals simp -implicitDefEqProofs

@[simp] theorem Dev.linesMoved_admission (d : Dev) (n : Fin 8) : (d.linesMoved n).ring.admission = d.ring.admission := by
  simp -implicitDefEqProofs [Dev.linesMoved, apply_ite Dev.ring]

@[simp] theorem Dev.playCh_admission (d : Dev) (m : Memory) (n : Fin 8) :
    (d.playCh m n).ring.admission = d.ring.admission := by
  simp -implicitDefEqProofs [Dev.playCh, apply_ite Dev.ring, apply_ite Ring.admission]

@[simp] theorem Dev.playTick_admission (d : Dev) (m : Memory) : (d.playTick m).ring.admission = d.ring.admission := by
  simp [Dev.playTick]

@[simp] theorem Dev.onTap_admission (d : Dev) (n : Fin 8) (k : Nat) (f : Tap → Tap) :
    (d.onTap n k f).ring.admission = d.ring.admission := (rfl)

@[simp] theorem Dev.capFree_admission (d : Dev) (n : Fin 8) (k : Nat) :
    (d.capFree n k).ring.admission = d.ring.admission := by
  unfold Dev.capFree; dsimp only; split <;> simp

@[simp] theorem Dev.capTrigger_admission (d : Dev) (n : Fin 8) (k : Nat) (at_ : Int) (slots : List (Nat × Nat)) :
    (d.capTrigger n k at_ slots).1.ring.admission = d.ring.admission := by
  unfold Dev.capTrigger; dsimp only; repeat' split
  all_goals simp -implicitDefEqProofs

@[simp] theorem Dev.capMerge_admission (d : Dev) (n : Fin 8) (k : Nat) (at_ : Int) (slots : List (Nat × Nat)) :
    (d.capMerge n k at_ slots).ring.admission = d.ring.admission := (rfl)

@[simp] theorem Dev.benchQueue_admission (d : Dev) (w : BenchWait) : (d.benchQueue w).ring.admission = d.ring.admission := (rfl)

@[simp] theorem Dev.benchTx_admission (d : Dev) (x : Nat) (slots : List (Nat × Nat)) :
    (d.benchTx x slots).ring.admission = d.ring.admission := by
  unfold Dev.benchTx; dsimp only; split <;> simp

@[simp] theorem Dev.restartRing_admission (d : Dev) : d.restartRing.2.ring.admission = d.ring.admission := (rfl)

@[simp] theorem Dev.addAct_admission (d : Dev) (n : Fin 8) (kind : ActKind) (org : Origin) (land acc : Nat) (slots : List (Nat × Nat)) :
    (d.addAct n kind org land acc slots).ring.admission = d.ring.admission := by
  unfold Dev.addAct; split <;> rfl

@[simp] theorem Dev.lateNotice_admission (d : Dev) (id : Nat) : (d.lateNotice id).ring.admission = d.ring.admission := by
  unfold Dev.lateNotice; split <;> rfl

@[simp] theorem Dev.sysLate_admission (d : Dev) (id : Nat) : (d.sysLate id).ring.admission = d.ring.admission := by
  simp [Dev.sysLate]

@[simp] theorem Dev.sysTake_admission (d : Dev) (id m least : Nat) :
    (d.sysTake id m least).ring.admission = d.ring.admission := by
  unfold Dev.sysTake; dsimp only; split <;> simp -implicitDefEqProofs [apply_ite Dev.ring, apply_ite Ring.admission]

@[simp] theorem Dev.sysDeliver_admission (d : Dev) (id m : Nat) : (d.sysDeliver id m).ring.admission = d.ring.admission := by
  simp [Dev.sysDeliver]

@[simp] theorem Dev.originate_admission (d : Dev) (id l : Nat) : (d.originate id l).2.ring.admission = d.ring.admission := by
  unfold Dev.originate; split <;> simp

@[simp] theorem Dev.sysTx_admission (d : Dev) (x : Nat) (slots : List (Nat × Nat)) :
    (d.sysTx x slots).1.ring.admission = d.ring.admission := by
  unfold Dev.sysTx; repeat' split
  all_goals simp -implicitDefEqProofs

@[simp] theorem Dev.consume_admission (d : Dev) (code : Nat) (at_ : Int) (slots : List (Nat × Nat)) :
    (d.consume code at_ slots).1.ring.admission = d.ring.admission := by
  unfold Dev.consume; repeat' split
  all_goals simp -implicitDefEqProofs

@[simp] theorem Dev.layCut_admission (d : Dev) (m : Memory) (n : Fin 8) (old : Option FastJump) (j : FastJump) :
    (d.layCut m n old j).ring.admission = d.ring.admission := by
  unfold Dev.layCut; dsimp only; repeat' split
  all_goals simp -implicitDefEqProofs

@[simp] theorem Dev.cutRelay_admission (d : Dev) (m : Memory) (n : Fin 8) (j : FastJump) :
    (d.cutRelay m n j).ring.admission = d.ring.admission := by
  unfold Dev.cutRelay; dsimp only; split <;> simp

@[simp] theorem Dev.holdJump_admission (d : Dev) (m : Memory) (n : Fin 8) (j : Nat) (a : Act) (place : Nat × Nat) :
    (d.holdJump m n j a place).ring.admission = d.ring.admission := by
  unfold Dev.holdJump; dsimp only; split <;> simp -implicitDefEqProofs [apply_ite Dev.ring, apply_ite Ring.admission]

@[simp] theorem Dev.localJump_admission (d : Dev) (m : Memory) (n : Fin 8) (j l : Nat) (slots : List (Nat × Nat)) (src : Src) (place : Nat × Nat) :
    (d.localJump m n j l slots src place).1.ring.admission = d.ring.admission := by
  unfold Dev.localJump; dsimp only; repeat' split
  all_goals simp -implicitDefEqProofs

@[simp] theorem Dev.mergeAct_admission (d : Dev) (m : Memory) (l : Nat) (slots : List (Nat × Nat)) (t : Took) (best : Src) :
    (d.mergeAct m l slots t best).ring.admission = d.ring.admission := by
  unfold Dev.mergeAct; dsimp only; repeat' split
  all_goals simp -implicitDefEqProofs

@[simp] theorem Dev.merge_admission (d : Dev) (m : Memory) (l : Nat) (slots : List (Nat × Nat)) (src : Src) (t : Took) :
    (d.merge m l slots src t).ring.admission = d.ring.admission := by
  unfold Dev.merge; split <;> simp

@[simp] theorem Dev.localConsumer_admission (m : Memory) (f : Fired) (d : Dev) (r : Nat × List (Nat × Nat)) :
    (Dev.localConsumer m f d r).ring.admission = d.ring.admission := by
  unfold Dev.localConsumer; repeat' split
  all_goals simp -implicitDefEqProofs

@[simp] theorem Dev.firedNow_admission (m : Memory) (d : Dev) (f : Fired) :
    (Dev.firedNow m d f).ring.admission = d.ring.admission := by
  simp [Dev.firedNow]

@[simp] theorem Dev.firedDue_admission (d : Dev) (m : Memory) : (d.firedDue m).ring.admission = d.ring.admission := by
  simp [Dev.firedDue]

/-! ### The ticks of a course, and the joint -/

theorem Dev.tickOn_admission (d : Dev) (m : Memory) : (d.tickOn m).ring.admission = d.ring.admission := by simp [Dev.tickOn]

theorem Dev.finishCourse_admission (m : Memory) (k : Nat) (d : Dev) :
    (Dev.finishCourse m k d).ring.admission = d.ring.admission := by
  induction k generalizing d with
  | zero => rfl
  | succ k ih =>
    unfold Dev.finishCourse
    split
    · rw [ih, Dev.tickOn_admission]
    · rfl

/-- Settles O6: the ticks that the course still has, the count of the joint, and what keeps both. -/
theorem jointBeginsTheNextCourse : Obligations.JointBeginsTheNextCourse := by
  intro s
  constructor
  · intro plays alone
    have eq : joint (s.dev, s.mem) = jointEnd (jointBegin (s.dev, s.mem)) := if_pos plays
    obtain ⟨crs, tick⟩ := jointBegin_time (s.dev, s.mem) ((Dev.finishCourse_admission s.mem _ s.dev).trans alone)
    refine ⟨_, rfl, rfl, ?_⟩
    show (joint (s.dev, s.mem)).1.time.crs = _ ∧ (joint (s.dev, s.mem)).1.time.tick = 0
    rw [eq, jointEnd_time]
    exact ⟨crs, tick⟩
  · intro stands
    have eq : joint (s.dev, s.mem) = (s.dev, s.mem) := if_neg (by rw [stands]; decide)
    show Host.Outcome.next { s with dev := (joint (s.dev, s.mem)).1, mem := (joint (s.dev, s.mem)).2 } = _
    rw [eq]

end Sys2Proof.Machine
end

section
/-!
PROOF. Event interrupts acknowledged (R515), and the cut and the busy time of a fast jump (R132, R135, R137, R138).
-/
namespace Sys2Proof.Machine
open Reg

/-- The bits of a byte that stay when those written 1 are cleared. -/
theorem bitAt_and_ones (p : Nat) (w : BitVec 8) (b : Nat) (h : b < 8) :
    bitAt ((p &&& (255 - w.toNat)) % 2 ^ 8) b = (bitAt p b && !w.getLsbD b) := by
  have ones : (255 - w.toNat).testBit b = !w.getLsbD b := by
    have sub : 255 - w.toNat = 2 ^ 8 - (w.toNat + 1) := by omega
    rw [sub, Nat.testBit_two_pow_sub_succ w.isLt, BitVec.getLsbD]
    simp [h]
  simp only [bitAt, Nat.testBit_mod_two_pow, Nat.testBit_and, ones, h, decide_true, Bool.true_and]

/-- The end of the busy time: the ticks up to it, as far as the course goes (R137). -/
theorem Dev.jumpBusyEnd_waits {d : Dev} {n : Fin 8} {x : Nat} (m : Memory) (busy : d.chs[n].fjBusy = some x) (soon : d.time.abs < x) :
    let e := d.jumpBusyEnd m n
    e.time.crs = d.time.crs ∧ d.time.abs ≤ e.time.abs ∧ e.time.abs ≤ x ∧ (e.time.abs = x → e.chs[n].fjBusy = none) := by
  obtain ⟨j, le, time⟩ := Dev.finishCourse_time m (x - d.time.abs) d
  have eq : d.jumpBusyEnd m n = if (d.playUpTo m x).time.abs < x then d.playUpTo m x
      else (d.playUpTo m x).onCh n (fun c => { c with fjBusy := none }) := by
    unfold Dev.jumpBusyEnd
    rw [busy]
  change (d.playUpTo m x).time = _ at time
  have abs : (d.playUpTo m x).time.abs = d.time.abs + j := by rw [time]
  have crs : (d.playUpTo m x).time.crs = d.time.crs := by rw [time]
  intro e
  show (d.jumpBusyEnd m n).time.crs = _ ∧ _ ≤ (d.jumpBusyEnd m n).time.abs ∧ (d.jumpBusyEnd m n).time.abs ≤ x
    ∧ ((d.jumpBusyEnd m n).time.abs = x → (d.jumpBusyEnd m n).chs[n].fjBusy = none)
  rw [eq]
  split
  · exact ⟨crs, by omega, by omega, fun come => by omega⟩
  · rw [Dev.onCh_same, Dev.onCh_time]
    exact ⟨crs, by omega, by omega, fun _ => rfl⟩

theorem Dev.jumpBusyEnd_over {d : Dev} {n : Fin 8} {x : Nat} (m : Memory) (busy : d.chs[n].fjBusy = some x) (past : x ≤ d.time.abs) :
    d.jumpBusyEnd m n = d.onCh n (fun c => { c with fjBusy := none }) := by
  have none : d.playUpTo m x = d := by
    unfold Dev.playUpTo
    rw [Nat.sub_eq_zero_of_le past]
    rfl
  unfold Dev.jumpBusyEnd
  rw [busy]
  dsimp only
  rw [none, if_neg (by omega)]

/-- The report of a cut that the playing entry carries (R138). -/
def Dev.cutReport (d : Dev) (n : Fin 8) (j : FastJump) : Dev :=
  if (d.chs[n].cur).any (fun e => e.fx.any (fun x => x.2 = .took j.act)) then
    ((d.onCh n (fun c => { c with jump := none })).raise FJ_LASTn.CUT n).set FJ_LASTn.TICK n 0 j.tick
  else d.onCh n (fun c => { c with jump := none })

theorem Dev.jumpCut_here {d : Dev} {n : Fin 8} {j : FastJump} (m : Memory) (waits : d.chs[n].jump = some j) (here : j.crs = d.time.crs) :
    d.jumpCut m n = (Dev.finishCourse m (j.tick - d.time.tick) d).cutReport n j := by
  unfold Dev.jumpCut
  rw [waits]
  dsimp only
  rw [if_neg (by omega), if_neg (by omega)]
  rfl

theorem Dev.cutReport_parts (d : Dev) (n : Fin 8) (j : FastJump) :
    let e := d.cutReport n j
    e.chs[n] = { d.chs[n] with jump := none } ∧ d.chsBut e n ∧ e.time = d.time
      ∧ ((d.chs[n].cur).any (fun x => x.fx.any (fun y => y.2 = .took j.act)) = true →
          e.flag FJ_LASTn.CUT n = true ∧ e.get FJ_LASTn.TICK n = j.tick % 2 ^ FJ_LASTn.TICK.w)
      ∧ d.regsBut e [FJ_LASTn.CUT.at n, FJ_LASTn.TICK.at n] := by
  unfold Dev.cutReport
  split
  · refine ⟨Dev.onCh_same d n (fun c => { c with jump := none }), Dev.onCh_chsBut d n (fun c => { c with jump := none }), rfl, fun _ => ⟨?_, Dev.get_set_same ..⟩,
      Dev.regsBut_set _ _ _ _ (Dev.regsBut_set _ _ _ _ (Dev.regsBut_of_regs (d.regsBut_refl _) rfl) (by simp)) (by simp)⟩
    exact (Dev.flag_of_get (Dev.get_set_id _ _ _ _ _ _ _ _ (by decide))).trans (Dev.flag_raise_same _ _ _ _ (by decide))
  · rename_i other
    exact ⟨Dev.onCh_same d n _, Dev.onCh_chsBut d n _, rfl, fun carried => absurd carried other, Dev.regsBut_of_regs (d.regsBut_refl _) rfl⟩

/-- A channel without a fast jump has none to cut, and one that is not busy stays so. -/
theorem Dev.jumpCut_none {d : Dev} {n : Fin 8} (m : Memory) (none : d.chs[n].jump = none) : d.jumpCut m n = d := by
  unfold Dev.jumpCut
  rw [none]

theorem Dev.jumpCut_later {d : Dev} {n : Fin 8} {j : FastJump} (m : Memory) (waits : d.chs[n].jump = some j) (later : d.time.crs < j.crs) :
    d.jumpCut m n = d := by
  unfold Dev.jumpCut
  rw [waits]
  dsimp only
  rw [if_neg (by omega), if_pos later]

theorem Dev.jumpCut_past {d : Dev} {n : Fin 8} {j : FastJump} (m : Memory) (waits : d.chs[n].jump = some j) (past : j.crs < d.time.crs) :
    d.jumpCut m n = d.onCh n (fun c => { c with jump := none }) := by
  unfold Dev.jumpCut
  rw [waits]
  exact if_pos past

/-- Settles O14: the acknowledgement, the busy time over and to come, and the cut in this course, in a course to come and in a past one. -/
theorem acknowledgeAndFastJump : Obligations.AcknowledgeAndFastJump := by
  intro s d
  have stays {x y : Dev} (h : x = y) : (Host.Outcome.next (s.withDev x) : Host.Outcome State Fault Refusal) = .next (s.withDev y) := by rw [h]
  refine ⟨fun w => ⟨_, rfl, fun b h => ?_, Dev.onlyRegs_set _ _ _ _ (d.onlyRegs_refl _) (by simp)⟩,
    fun n x busy => ⟨fun past => ⟨_, stays (d.jumpBusyEnd_over s.mem busy past), Dev.onCh_same d n _, rfl, Dev.onCh_chsBut d n _⟩,
      fun soon => ⟨_, rfl, d.jumpBusyEnd_waits s.mem busy soon⟩⟩,
    fun n idle => stays (y := d) ?_, fun n j waits => ⟨fun here => ⟨_, stays (d.jumpCut_here s.mem waits here), ?_⟩,
      fun here come => ⟨_, stays (d.jumpCut_here s.mem waits here), ?_⟩, fun later => stays (y := d) (d.jumpCut_later s.mem waits later),
      fun past => ⟨_, stays (d.jumpCut_past s.mem waits past), Dev.onCh_same d n _, rfl, Dev.onCh_chsBut d n _⟩⟩,
    fun n none => stays (y := d) (d.jumpCut_none s.mem none)⟩
  · show bitAt ((d.set HP_EVIRQ.PEND 0 0 (d.get HP_EVIRQ.PEND &&& (255 - w.toNat))).get HP_EVIRQ.PEND) b = _
    rw [Dev.get_set_same]
    exact bitAt_and_ones _ w b h
  · show Dev.jumpBusyEnd d s.mem n = d
    unfold Dev.jumpBusyEnd
    rw [idle]
  · obtain ⟨k, _, time⟩ := Dev.finishCourse_time s.mem (j.tick - d.time.tick) d
    obtain ⟨mine, _, same, _⟩ := (Dev.finishCourse s.mem (j.tick - d.time.tick) d).cutReport_parts n j
    exact ⟨by rw [mine], by rw [same, time]⟩
  · rw [Nat.sub_eq_zero_of_le come]
    obtain ⟨mine, others, _, report, regs⟩ := d.cutReport_parts n j
    exact ⟨mine, others, report, regs⟩

end Sys2Proof.Machine
end

section
/-!
PROOF. Settings of the phase engine (R154, R163, R169 to R171) and of the output stages (R181 to R239).
-/
namespace Sys2Proof.Machine
open Reg

theorem State.next_of_eq (s : State) {x y : Dev} (h : x = y) :
    (Host.Outcome.next (s.withDev x) : Host.Outcome State Fault Refusal) = .next (s.withDev y) := by rw [h]

/-- A flag raised as two causes say, each by its own. -/
theorem Dev.raiseTwo_parts (d : Dev) (a b : Bool) (f g : Fld) (n : Nat) (fw : f.w ≠ 0) (gw : g.w ≠ 0) (apart : f.id ≠ g.id) :
    let e := (d.raiseIf a f n).raiseIf b g n
    (a = true → e.flag f n = true) ∧ (b = true → e.flag g n = true) ∧ (a = false → e.get f n = d.get f n)
      ∧ (b = false → e.get g n = d.get g n) ∧ d.onlyRegs e [f.at n, g.at n] := by
  refine ⟨fun on => ?_, fun on => Dev.flag_raiseIf_same _ _ _ _ on gw, fun off => ?_, fun off => ?_,
    Dev.onlyRegs_raiseIf _ _ _ _ (Dev.onlyRegs_raiseIf _ _ _ _ (d.onlyRegs_refl _) (by simp)) (by simp)⟩
  · exact (Dev.flag_of_get (Dev.get_raiseIf_id _ _ _ _ _ _ _ _ (Ne.symm apart))).trans (d.flag_raiseIf_same _ _ _ on fw)
  · rw [Dev.get_raiseIf_id _ _ _ _ _ _ _ _ (Ne.symm apart), Dev.raiseIf_false _ _ _ _ off]
  · rw [Dev.raiseIf_false _ _ _ _ off, Dev.get_raiseIf_id _ _ _ _ _ _ _ _ apart]

/-- Two fields of one index set, one after the other. -/
theorem Dev.setTwo_parts (d : Dev) (f g : Fld) (n i u v : Nat) (apart : f.id ≠ g.id) :
    let e := (d.set f n i u).set g n i v
    e.get f n i = u % 2 ^ f.w ∧ e.get g n i = v % 2 ^ g.w ∧ d.onlyRegs e [f.at n i, g.at n i] := by
  refine ⟨?_, Dev.get_set_same .., Dev.onlyRegs_set _ _ _ _ (Dev.onlyRegs_set _ _ _ _ (d.onlyRegs_refl _) (by simp)) (by simp)⟩
  rw [Dev.get_set_id _ _ _ _ _ _ _ _ (Ne.symm apart), Dev.get_set_same]

theorem Dev.applyAccept_parts (d : Dev) (n : Fin 8) (pofs land : Nat) (org : Origin) :
    let e := d.applyAccept n pofs land org
    ∃ a : Act, e.flag DDS_STAT.APPLY_PEND n = true ∧ e.chs[n] = { d.chs[n] with acts := d.chs[n].acts ++ [a] }
      ∧ a.kind = .apply pofs ∧ a.land = land ∧ a.org = org ∧ d.regsBut e [DDS_STAT.APPLY_PEND.at n, SEQ_STAT.STATE.at n] ∧ d.chsBut e n := by
  intro e
  obtain ⟨a, kind, from_, place, _, chs⟩ := (d.raise DDS_STAT.APPLY_PEND n).addAct_chs n (.apply pofs) org land d.time.crs []
  have shown := (d.raise DDS_STAT.APPLY_PEND n).addAct_regsBut n (.apply pofs) org land d.time.crs []
  refine ⟨a, ?_, ?_, kind, place, from_, Dev.regsBut_trans (Dev.regsBut_set _ _ _ _ (d.regsBut_refl _) (by simp)) (Dev.regsBut_mono shown (by simp)), ?_⟩
  · exact (Dev.flag_of_get (Dev.regsBut_read shown _ _ _ rfl)).trans (d.flag_raise_same _ _ _ (by decide))
  · show ((d.raise DDS_STAT.APPLY_PEND n).addAct n (.apply pofs) org land d.time.crs []).chs[n] = _
    rw [chs, Dev.onCh_same]
    rfl
  · intro m diff
    show ((d.raise DDS_STAT.APPLY_PEND n).addAct n (.apply pofs) org land d.time.crs []).chs[m] = _
    rw [chs, Dev.onCh_other _ _ _ _ (Ne.symm diff)]
    rfl

/-- Settles O15: amplitudes, epoch, and an apply refused or taken. -/
theorem phaseEngine : Obligations.PhaseEngine := by
  constructor
  · intro s n d
    constructor
    · intro w lv hv
      refine ⟨fun low high => ?_, fun out => ⟨_, if_pos (by simpa [lv, hv] using out), d.flag_raise_same _ _ _ (by decide), d.raise_onlyRegs _ _ _⟩⟩
      obtain ⟨getL, getH, only⟩ := d.setTwo_parts DDS_AMP.AMP_LV DDS_AMP.AMP_HV n 0 lv hv (by decide)
      exact ⟨_, if_neg (by simpa using ⟨low, high⟩), getL.trans (Nat.mod_eq_of_lt (Nat.lt_of_le_of_lt low (by decide))),
        getH.trans (Nat.mod_eq_of_lt (Nat.lt_of_le_of_lt high (by decide))), only⟩
    · intro w
      refine ⟨fun idle => ⟨_, if_pos idle, ?_, (d.setTwo_parts _ _ _ _ _ _ (by decide)).2.2⟩,
        fun busy => ⟨_, if_neg (by rw [show s.dev.seqIdle n = false from busy]; decide), d.flag_raise_same _ _ _ (by decide),
          d.raise_onlyRegs _ _ _⟩⟩
      exact (Dev.getPair_setPair _ _ _ _ _ _ rfl rfl (by decide)).trans (Nat.mod_eq_of_lt w.isLt)
  · intro s n d at_ land late rej
    have rejs : (decide (d.time.crs + 2 ^ 24 < land) || d.flag DDS_STAT.APPLY_PEND n) = true ↔ rej := by simp [rej]
    refine ⟨fun refused => ?_, fun soon free => ?_⟩
    · obtain ⟨onL, onR, offL, offR, only⟩ := d.raiseTwo_parts (decide late) (decide (d.time.crs + 2 ^ 24 < land) || d.flag DDS_STAT.APPLY_PEND n)
        DDS_STAT.APPLY_LATE DDS_STAT.APPLY_REJ n (by decide) (by decide) (by decide)
      refine ⟨_, if_pos ?_, fun h => onL (by simpa using h), fun h => onR (rejs.mpr h), fun h => offL (by simpa using h),
        fun h => offR (by simpa only [Bool.not_eq_true] using mt rejs.mp h), only⟩
      exact (Bool.or_eq_true _ _).mpr (refused.imp (fun h => decide_eq_true h) rejs.mpr)
    · obtain ⟨a, pend, acts, kind, place, -, regs, others⟩ :=
        d.applyAccept_parts n (d.getPair DDS_POFS_NEXT_LO.NEXT_LO DDS_POFS_NEXT_HI.NEXT_HI n) land .reg
      refine ⟨_, a, if_neg ?_, pend, acts, kind, place, regs, others⟩
      exact fun h => ((Bool.or_eq_true _ _).mp h).elim (fun h => soon (of_decide_eq_true h)) (fun h => free (rejs.mp h))

end Sys2Proof.Machine
end

section
/-!
PROOF. Settings of the output stages (R181, R186, R201, R205, R219, R229), the predistortion banks (R209) and the receive switch
(R226 to R228).
-/
namespace Sys2Proof.Machine
open Reg

/-- A one-bit field written as a condition reads as it. -/
theorem Dev.flag_set_bool (d : Dev) (f : Fld) (n i : Nat) (on : Bool) (w : f.w ≠ 0) : (d.set f n i (if on then 1 else 0)).flag f n i = on := by
  cases on with
  | true => exact d.flag_raise_same f n i w
  | false => simp [Dev.flag]

/-- A field that holds the bits of a word reads as the word's signed value. -/
theorem signed_toNat {w : Nat} (u : BitVec w) (pos : 0 < w) : signed w u.toNat = u.toInt := by
  have half : 2 ^ w = 2 * 2 ^ (w - 1) := by rw [← Nat.pow_succ', Nat.succ_eq_add_one, Nat.sub_add_cancel pos]
  have lt := u.isLt
  rw [signed, BitVec.toInt, Nat.mod_eq_of_lt lt]
  split <;> split <;> omega

/-- What a delay line's arrival shows: not busy where the line is at its target (R186, R214). -/
theorem Dev.linesMoved_parts (d : Dev) (n : Fin 8) :
    d.onlyRegs (d.linesMoved n) [LV_STAT.DLY_BUSY.at n, HV_STAT.DLY_BUSY.at n]
      ∧ (d.chs[n].lv.dly = d.chs[n].lv.target → (d.linesMoved n).flag LV_STAT.DLY_BUSY n = false)
      ∧ (d.chs[n].hv.dly = d.chs[n].hv.target → (d.linesMoved n).flag HV_STAT.DLY_BUSY n = false) := by
  have clear (e : Dev) (f : Fld) (n : Nat) : (e.clear f n).flag f n = false := by simp [Dev.flag]
  unfold Dev.linesMoved
  dsimp only
  refine ⟨?_, fun there => ?_, fun there => ?_⟩
  · have low : d.onlyRegs (if d.chs[n].lv.dly = d.chs[n].lv.target then d.clear LV_STAT.DLY_BUSY n else d)
        [LV_STAT.DLY_BUSY.at n, HV_STAT.DLY_BUSY.at n] := by
      split
      exacts [Dev.onlyRegs_set _ _ _ _ (d.onlyRegs_refl _) (by simp), d.onlyRegs_refl _]
    split
    exacts [Dev.onlyRegs_set _ _ _ _ low (by simp), low]
  · rw [if_pos there]
    split
    · exact (Dev.flag_of_get (Dev.get_set_id _ _ _ _ _ _ _ _ (by decide))).trans (clear _ _ _)
    · exact clear _ _ _
  · rw [if_pos there]
    exact clear _ _ _

/-- The tick clock runs as before where lock and power state read as before. -/
theorem Dev.ticking_of_get {d e : Dev} (lock : e.get CLK_STAT.LOCK = d.get CLK_STAT.LOCK) (state : e.get PWR_STAT.STATE = d.get PWR_STAT.STATE)
    (power : e.power = d.power) : e.ticking = d.ticking := by
  unfold Dev.ticking Dev.locked Dev.asleep Dev.flag
  rw [lock, state, power]

/-- The state of the HV output does not depend on the code at its DAC, nor does the forced code. -/
theorem Dev.hvState_code (d : Dev) (n : Fin 8) (v : Int) :
    (d.onCh n (fun c => { c with hv := { c.hv with code := v } })).hvState n = d.hvState n := by
  unfold Dev.hvState Dev.hvOffCause Dev.railFault Dev.hvRemoved Dev.hvLatched Dev.hvForced
  rw [Dev.onCh_same]
  rfl

theorem Dev.forcedCode_code (d : Dev) (n : Fin 8) (v : Int) :
    (d.onCh n (fun c => { c with hv := { c.hv with code := v } })).forcedCode n = d.forcedCode n := by
  unfold Dev.forcedCode
  rw [Dev.onCh_same]
  rfl

/-- A forced output stands at its forced code (R221). -/
theorem Dev.forceNow_code (d : Dev) (n : Fin 8) (forced : (d.forceNow n).hvState n = 3) :
    (d.forceNow n).chs[n].hv.code = (d.forceNow n).forcedCode n := by
  by_cases h : d.hvState n = 3
  · have eq : d.forceNow n = d.onCh n (fun c => { c with hv := { c.hv with code := d.forcedCode n } }) := if_pos h
    rw [eq, Dev.forcedCode_code, Dev.onCh_same]
  · have eq : d.forceNow n = d := if_neg h
    rw [eq] at forced
    exact absurd forced h

/-- A clamp that is taken: its words, and the forced output that follows it while the tick clock stands (R201, R221). -/
theorem Dev.clampTaken_parts (d : Dev) (n : Fin 8) (lo hi : Nat) :
    let e := ((d.set HV_CLAMP.LO n 0 lo).set HV_CLAMP.HI n 0 hi).quietFollow n
    e.getS HV_CLAMP.LO n = signed 16 (lo % 2 ^ 16) ∧ e.getS HV_CLAMP.HI n = signed 16 (hi % 2 ^ 16)
      ∧ d.regsBut e [HV_CLAMP.LO.at n, HV_CLAMP.HI.at n] ∧ d.chsBut e n ∧ (d.ticking = true → e.chs = d.chs)
      ∧ (d.ticking = false → e.hvState n = 3 → e.chs[n].hv.code = e.forcedCode n) := by
  intro e
  obtain ⟨getL, getH, only⟩ := d.setTwo_parts HV_CLAMP.LO HV_CLAMP.HI n 0 lo hi (by decide)
  have same := ((d.set HV_CLAMP.LO n 0 lo).set HV_CLAMP.HI n 0 hi).quietFollow_onlyCh n
  have regs := Dev.onlyCh_regs same
  refine ⟨?_, ?_, Dev.regsBut_of_regs only.2 regs, same.2, fun plays => ?_, fun stands forced => ?_⟩
  · exact congrArg (signed 16) ((Dev.get_of_regs regs ..).trans getL)
  · exact congrArg (signed 16) ((Dev.get_of_regs regs ..).trans getH)
  · have run : ((d.set HV_CLAMP.LO n 0 lo).set HV_CLAMP.HI n 0 hi).ticking = d.ticking :=
      Dev.ticking_of_get (Dev.regsBut_read only.2 _ _ _ rfl) (Dev.regsBut_read only.2 _ _ _ rfl) rfl
    show (((d.set HV_CLAMP.LO n 0 lo).set HV_CLAMP.HI n 0 hi).quietFollow n).chs = _
    rw [Dev.quietFollow_ticking n (run.trans plays)]
    rfl
  · have run : ((d.set HV_CLAMP.LO n 0 lo).set HV_CLAMP.HI n 0 hi).ticking = d.ticking :=
      Dev.ticking_of_get (Dev.regsBut_read only.2 _ _ _ rfl) (Dev.regsBut_read only.2 _ _ _ rfl) rfl
    have eq : e = _ := if_neg (by rw [run, stands]; decide)
    rw [eq] at forced ⊢
    exact Dev.forceNow_code _ n forced

/-! ### The current limit -/

theorem Dev.ilimOf_of_get {d e : Dev} {n : Fin 8} (segs : e.get HV_SEG.ACTIVE n = d.get HV_SEG.ACTIVE n) (chs : e.chs[n] = d.chs[n]) :
    e.ilimOf n = d.ilimOf n := by
  unfold Dev.ilimOf Dev.segsLeft Dev.bit
  rw [segs, chs]

theorem Dev.scEff_of_get {d e : Dev} {n : Nat} (ilim : Nat) (vhp : e.get HV_RAIL.VHP n = d.get HV_RAIL.VHP n)
    (vhn : e.get HV_RAIL.VHN n = d.get HV_RAIL.VHN n) (time : e.get HV_ILIM.SC_TIME n = d.get HV_ILIM.SC_TIME n) :
    e.scEff n ilim = d.scEff n ilim := by
  unfold Dev.scEff Dev.getS
  rw [vhp, vhn, time]

/-- The limits in force as they follow their settings: `ILIM` at once outside a fold-back (R229, R231, R235). -/
theorem Dev.ilimRefresh_parts (d : Dev) (n : Fin 8) :
    let e := d.ilimRefresh n
    e.chs[n] = { d.chs[n] with hv := { d.chs[n].hv with ilim := if d.flag HV_STAT.FOLD n then d.chs[n].hv.ilim else d.get HV_ILIM.ILIM n } }
      ∧ d.chsBut e n ∧ e.get HV_ILIM_EFF.ILIM_EFF n = e.ilimOf n % 2 ^ HV_ILIM_EFF.ILIM_EFF.w
      ∧ e.get HV_ILIM_EFF.SC_EFF n = e.scEff n (e.ilimOf n) % 2 ^ HV_ILIM_EFF.SC_EFF.w
      ∧ d.regsBut e [HV_ILIM_EFF.ILIM_EFF.at n, HV_ILIM_EFF.SC_EFF.at n] := by
  have shown (f : Dev) : let e := (f.set HV_ILIM_EFF.ILIM_EFF n 0 (f.ilimOf n)).set HV_ILIM_EFF.SC_EFF n 0 (f.scEff n (f.ilimOf n))
      e.get HV_ILIM_EFF.ILIM_EFF n = e.ilimOf n % 2 ^ HV_ILIM_EFF.ILIM_EFF.w
        ∧ e.get HV_ILIM_EFF.SC_EFF n = e.scEff n (e.ilimOf n) % 2 ^ HV_ILIM_EFF.SC_EFF.w
        ∧ f.regsBut e [HV_ILIM_EFF.ILIM_EFF.at n, HV_ILIM_EFF.SC_EFF.at n] := by
    intro e
    obtain ⟨getI, getS, only⟩ := f.setTwo_parts HV_ILIM_EFF.ILIM_EFF HV_ILIM_EFF.SC_EFF n 0 (f.ilimOf n) (f.scEff n (f.ilimOf n)) (by decide)
    have ilim : e.ilimOf n = f.ilimOf n := Dev.ilimOf_of_get (Dev.regsBut_read only.2 _ _ _ rfl) rfl
    have time : e.scEff n (f.ilimOf n) = f.scEff n (f.ilimOf n) :=
      Dev.scEff_of_get _ (Dev.regsBut_read only.2 _ _ _ rfl) (Dev.regsBut_read only.2 _ _ _ rfl) (Dev.regsBut_read only.2 _ _ _ rfl)
    rw [ilim, time]
    exact ⟨getI, getS, only.2⟩
  intro e
  cases fold : d.flag HV_STAT.FOLD n with
  | true =>
    have eq : e = _ := congrArg (fun f : Dev => (f.set HV_ILIM_EFF.ILIM_EFF n 0 (f.ilimOf n)).set HV_ILIM_EFF.SC_EFF n 0 (f.scEff n (f.ilimOf n))) (if_pos fold)
    obtain ⟨getI, getS, regs⟩ := shown d
    rw [eq]
    exact ⟨rfl, fun _ _ => rfl, getI, getS, regs⟩
  | false =>
    have eq : e = _ := congrArg (fun f : Dev => (f.set HV_ILIM_EFF.ILIM_EFF n 0 (f.ilimOf n)).set HV_ILIM_EFF.SC_EFF n 0 (f.scEff n (f.ilimOf n))) (if_neg (by simp [fold]))
    obtain ⟨getI, getS, regs⟩ := shown (d.onCh n (fun c => { c with hv := { c.hv with ilim := d.get HV_ILIM.ILIM n } }))
    rw [eq]
    exact ⟨Dev.onCh_same d n (fun c => { c with hv := { c.hv with ilim := d.get HV_ILIM.ILIM n } }),
      d.onCh_chsBut n (fun c => { c with hv := { c.hv with ilim := d.get HV_ILIM.ILIM n } }), getI, getS, regs⟩

/-- A current limit that is taken, field by field. -/
theorem Dev.ilimSet_parts (d : Dev) (n : Fin 8) (v : Nat) :
    let e := d.ilimSet n v
    e.get HV_ILIM.ILIM n = bitsOf v 0 8 ∧ e.get HV_ILIM.SC_TIME n = bitsOf v 8 6 ∧ e.get HV_ILIM.RETRY n = bitsOf v 16 10
      ∧ e.get HV_ILIM.TRIES n = bitsOf v 30 2
      ∧ e.chs[n] = { d.chs[n] with hv := { d.chs[n].hv with ilim := if d.flag HV_STAT.FOLD n then d.chs[n].hv.ilim else bitsOf v 0 8 } }
      ∧ d.chsBut e n ∧ e.get HV_ILIM_EFF.ILIM_EFF n = e.ilimOf n % 2 ^ HV_ILIM_EFF.ILIM_EFF.w
      ∧ e.get HV_ILIM_EFF.SC_EFF n = e.scEff n (e.ilimOf n) % 2 ^ HV_ILIM_EFF.SC_EFF.w
      ∧ d.regsBut e [HV_ILIM.ILIM.at n, HV_ILIM.SC_TIME.at n, HV_ILIM.RETRY.at n, HV_ILIM.TRIES.at n,
          HV_ILIM_EFF.ILIM_EFF.at n, HV_ILIM_EFF.SC_EFF.at n] := by
  intro e
  let f := ((((d.set HV_ILIM.ILIM n 0 (bitsOf v 0 8)).set HV_ILIM.SC_TIME n 0 (bitsOf v 8 6)).set HV_ILIM.RETRY n 0 (bitsOf v 16 10)).set
    HV_ILIM.TRIES n 0 (bitsOf v 30 2))
  have set : d.regsBut f [HV_ILIM.ILIM.at n, HV_ILIM.SC_TIME.at n, HV_ILIM.RETRY.at n, HV_ILIM.TRIES.at n] :=
    Dev.regsBut_set _ _ _ _ (Dev.regsBut_set _ _ _ _ (Dev.regsBut_set _ _ _ _ (Dev.regsBut_set _ _ _ _ (d.regsBut_refl _)
      (by simp)) (by simp)) (by simp)) (by simp)
  have gets : f.get HV_ILIM.ILIM n = bitsOf v 0 8 ∧ f.get HV_ILIM.SC_TIME n = bitsOf v 8 6 ∧ f.get HV_ILIM.RETRY n = bitsOf v 16 10
      ∧ f.get HV_ILIM.TRIES n = bitsOf v 30 2 := by
    refine ⟨?_, ?_, ?_, Dev.get_set_bitsOf _ HV_ILIM.TRIES ..⟩
    · simp (disch := decide) only [f, Dev.get_set_id]
      exact Dev.get_set_bitsOf _ HV_ILIM.ILIM ..
    · simp (disch := decide) only [f, Dev.get_set_id]
      exact Dev.get_set_bitsOf _ HV_ILIM.SC_TIME ..
    · simp (disch := decide) only [f, Dev.get_set_id]
      exact Dev.get_set_bitsOf _ HV_ILIM.RETRY ..
  obtain ⟨ilim, time, retry, tries⟩ := gets
  obtain ⟨mine, others, effI, effS, regs⟩ := f.ilimRefresh_parts n
  have fold : f.flag HV_STAT.FOLD n = d.flag HV_STAT.FOLD n := Dev.flag_of_get (Dev.regsBut_read set _ _ _ rfl)
  rw [fold, ilim] at mine
  exact ⟨(Dev.regsBut_read regs _ _ _ rfl).trans ilim, (Dev.regsBut_read regs _ _ _ rfl).trans time,
    (Dev.regsBut_read regs _ _ _ rfl).trans retry, (Dev.regsBut_read regs _ _ _ rfl).trans tries, mine, others, effI, effS,
    Dev.regsBut_trans (Dev.regsBut_mono set (by simp)) (Dev.regsBut_mono regs (by simp))⟩

/-! ### Delay lines -/

/-- A delay line's arrival: the ticks that it needs pass, as far as the course goes (R186, R214). -/
theorem Dev.delayArrived_parts (d : Dev) (m : Memory) (n : Fin 8) (hv : Bool) :
    let e := d.delayArrived m n hv
    let there := fun (e : Dev) => if hv then e.chs[n].hv.dly = e.chs[n].hv.target else e.chs[n].lv.dly = e.chs[n].lv.target
    let busy := if hv then HV_STAT.DLY_BUSY else LV_STAT.DLY_BUSY
    e.time.crs = d.time.crs ∧ d.time.abs ≤ e.time.abs ∧ e.time.abs ≤ d.time.abs + d.chs[n].lineTicks hv
      ∧ (there e → e.flag busy n = false)
      ∧ (there d → e.flag busy n = false ∧ d.onlyRegs e [LV_STAT.DLY_BUSY.at n, HV_STAT.DLY_BUSY.at n]) := by
  obtain ⟨j, le, time⟩ := Dev.finishCourse_time m (d.time.abs + d.chs[n].lineTicks hv - d.time.abs) d
  change (d.playUpTo m (d.time.abs + d.chs[n].lineTicks hv)).time = _ at time
  intro e there busy
  have eq : e = (d.playUpTo m (d.time.abs + d.chs[n].lineTicks hv)).linesMoved n := rfl
  have shows (f : Dev) (h : there (f.linesMoved n)) : (f.linesMoved n).flag busy n = false := by
    obtain ⟨only, lv, hvs⟩ := f.linesMoved_parts n
    have chs : (f.linesMoved n).chs = f.chs := by rw [only.1]
    unfold there busy at *
    rw [chs] at h
    cases hv with
    | true => exact hvs h
    | false => exact lv h
  obtain ⟨only, -, -⟩ := (d.playUpTo m (d.time.abs + d.chs[n].lineTicks hv)).linesMoved_parts n
  have same : e.time = (d.playUpTo m (d.time.abs + d.chs[n].lineTicks hv)).time := by rw [eq, only.1]
  refine ⟨by rw [same, time], by rw [same, time]; exact Nat.le_add_right .., by rw [same, time]; dsimp only; omega, shows _,
    fun come => ?_⟩
  have none : d.chs[n].lineTicks hv = 0 := by
    unfold there at come
    unfold Chan.lineTicks
    cases hv <;> simp_all
  have stay : d.playUpTo m (d.time.abs + d.chs[n].lineTicks hv) = d := by
    unfold Dev.playUpTo
    rw [none, Nat.add_zero, Nat.sub_self]
    rfl
  rw [stay] at eq
  obtain ⟨only, -, -⟩ := d.linesMoved_parts n
  refine eq ▸ ⟨shows d ?_, only⟩
  have chs : (d.linesMoved n).chs = d.chs := by rw [only.1]
  unfold there at come ⊢
  rwa [chs]

/-- Settles O16: the enables and the delays as written, then each setting in its range and out of it. -/
theorem stageSettings : Obligations.StageSettings := by
  constructor
  · intro s n d
    refine ⟨fun en => ⟨_, rfl, d.flag_set_bool _ _ _ _ (by decide), Dev.onlyRegs_set _ _ _ _ (d.onlyRegs_refl _) (by simp)⟩,
      fun en => ⟨_, rfl, d.flag_set_bool _ _ _ _ (by decide), Dev.onlyRegs_set _ _ _ _ (d.onlyRegs_refl _) (by simp)⟩,
      fun u => ⟨_, rfl, ?_, Dev.onlyRegs_set _ _ _ _ (d.onlyRegs_refl _) (by simp)⟩, ?_⟩
    · unfold Dev.getS
      rw [Dev.get_set_same]
      exact (congrArg (signed 14) (Nat.mod_eq_of_lt u.isLt)).trans (signed_toNat u (by decide))
    · intro hv there busy
      obtain ⟨crs, low, high, shows, at_⟩ := d.delayArrived_parts s.mem n hv
      exact ⟨⟨_, rfl, crs, low, high, shows⟩, fun come => ⟨_, rfl, at_ come⟩⟩
  · intro s n w d v refused
    have refuse (c : Instr) (h : exec c s = .next (s.withDev (d.raise HV_STAT.CFG_REJ n))) : refused c :=
      ⟨_, h, d.flag_raise_same _ _ _ (by decide), d.raise_onlyRegs _ _ _⟩
    have low : v % 2 ^ 16 % 2 ^ 16 = v % 2 ^ 16 := Nat.mod_mod _ _
    have high : v / 2 ^ 16 % 2 ^ 16 = v / 2 ^ 16 := Nat.mod_eq_of_lt (by have := w.isLt; omega)
    refine ⟨?_, ?_, ?_⟩
    · split
      · rename_i out
        exact refuse _ (s.next_of_eq (if_pos out))
      · rename_i ok
        obtain ⟨getL, getH, parts⟩ := d.clampTaken_parts n (v % 2 ^ 16) (v / 2 ^ 16)
        rw [low] at getL
        rw [high] at getH
        exact ⟨_, s.next_of_eq (if_neg ok), getL, getH, parts⟩
    · split
      · rename_i ok
        obtain ⟨getR, getS, only⟩ := d.setTwo_parts HV_SLEW.RATE HV_SLEW.STEP n 0 (bitsOf v 16 3) (bitsOf v 0 15) (by decide)
        exact ⟨_, if_pos (by simpa [slewOk] using ok), getR.trans (Nat.mod_mod _ _), getS.trans (Nat.mod_mod _ _), only⟩
      · rename_i out
        exact refuse _ (if_neg (by simpa [slewOk] using out))
    · have legal : ilimOk v = true ↔ 25 ≤ bitsOf v 0 8 ∧ bitsOf v 0 8 ≤ 240 ∧ 1 ≤ bitsOf v 8 6 ∧ bitsOf v 8 6 ≤ 50
          ∧ 1 ≤ bitsOf v 16 10 ∧ bitsOf v 16 10 ≤ 1000 := by
        simp [ilimOk, and_assoc]
      split
      · rename_i ok
        exact ⟨_, if_pos (legal.mpr ok), d.ilimSet_parts n v⟩
      · rename_i out
        exact refuse _ (if_neg (mt legal.mp out))

/-! ### Predistortion and the receive switch -/

/-- A closed receive switch shows where the output is on, neither off, latched, forced nor in a slot (R217, R228). -/
theorem Dev.hvState_closed {d : Dev} {n : Fin 8} (on : d.chs[n].hv.stage = .on) (off : d.hvOffCause n = false)
    (latched : d.hvLatched n = false) (forced : d.hvForced n = false) (slot : d.chs[n].slot = none) :
    (d.onCh n (fun c => { c with hv := { c.hv with rxClosed := true } })).hvState n = 5 := by
  have mine := d.onCh_same n (fun c => { c with hv := { c.hv with rxClosed := true } })
  have off' : (d.onCh n (fun c => { c with hv := { c.hv with rxClosed := true } })).hvOffCause n = d.hvOffCause n := by
    unfold Dev.hvOffCause Dev.hvRemoved
    rw [mine]
    rfl
  have latched' : (d.onCh n (fun c => { c with hv := { c.hv with rxClosed := true } })).hvLatched n = d.hvLatched n := by
    unfold Dev.hvLatched
    rw [mine]
    rfl
  have forced' : (d.onCh n (fun c => { c with hv := { c.hv with rxClosed := true } })).hvForced n = d.hvForced n := by
    unfold Dev.hvForced
    rw [mine]
    rfl
  unfold Dev.hvState
  rw [off', latched', forced', mine, off, latched, forced]
  dsimp only
  rw [on, slot]
  simp

/-- Settles O17: banks, swap and receive mode; then the switch under its command, in the band, and after the wait. -/
theorem hvCoefficientsAndReceive : Obligations.HvCoefficientsAndReceive := by
  constructor
  · intro s n d
    have refuse (c : Instr) (h : exec c s = .next (s.withDev (d.raise HV_STAT.CFG_REJ n))) :
        ∃ e, exec c s = .next (s.withDev e) ∧ e.flag HV_STAT.CFG_REJ n = true ∧ d.onlyRegs e [HV_STAT.CFG_REJ.at n] :=
      ⟨_, h, d.flag_raise_same _ _ _ (by decide), d.raise_onlyRegs _ _ _⟩
    refine ⟨fun bank word w => ⟨fun other => ⟨_, if_neg (Ne.symm other), Dev.get_set_same .., Dev.onlyRegs_set _ _ _ _ (d.onlyRegs_refl _) (by simp)⟩,
        fun active => refuse _ (if_pos active.symm)⟩,
      fun none => ⟨_, if_neg (by rw [show s.dev.chs[n].hv.swap = false from none]; decide), ?_, rfl, Dev.onCh_chsBut d n _⟩,
      fun held => refuse _ (if_pos held), fun w => ⟨fun ok => ?_, fun out => refuse _ (if_pos out)⟩⟩
    · rw [Dev.onCh_same]
    · obtain ⟨mode, line, only⟩ := d.setTwo_parts HV_RX.MODE HV_RX.LINE n 0 (bitsOf w.toNat 0 2) (bitsOf w.toNat 4 2) (by decide)
      exact ⟨_, if_neg ok, mode.trans (Nat.mod_mod _ _), line.trans (Nat.mod_mod _ _), only⟩
  · intro s n d
    refine ⟨⟨_, rfl, rfl, Dev.onCh_chsBut d n _, by rw [Dev.onCh_same]⟩, fun cmd on off latched forced slot => ?_, fun other => if_neg ?_,
      fun cmd opened => ⟨_, if_pos ?_, d.flag_raise_same _ _ _ (by decide), d.raise_onlyRegs _ _ _⟩, fun done => if_neg ?_⟩
    · refine ⟨_, if_pos ?_, rfl, Dev.onCh_chsBut d n _, by rw [Dev.onCh_same], ?_⟩
      · simp only [show s.dev = d from rfl, cmd, on, off, latched, forced, slot]
        decide
      · exact Dev.hvState_closed on off latched forced slot
    · simp only [Bool.and_eq_true, Bool.not_eq_true', decide_eq_true_eq, Option.isNone_iff_eq_none]
      rintro ⟨⟨⟨⟨⟨cmd, off⟩, latched⟩, stage⟩, forced⟩, slot⟩
      rcases other with h | h | h | h | h | h <;> simp_all [d]
    · rw [show s.dev = d from rfl, cmd, opened]
      rfl
    · simp only [Bool.and_eq_true, Bool.not_eq_true']
      rintro ⟨cmd, opened⟩
      rcases done with h | h
      · exact absurd (cmd.symm.trans h) (by decide)
      · exact absurd (opened.symm.trans h) (by decide)

end Sys2Proof.Machine
end

section
/-!
PROOF. HV rails, enabling and ramp-down (R200, R202, R219, R220).
-/
namespace Sys2Proof.Machine
open Reg

/-! ### Loops that treat each channel alone -/

/-- `e` is `d` but for the channels. -/
def Dev.onlyChs (d e : Dev) : Prop := e = { d with chs := e.chs }

theorem Dev.onlyChs_regs {d e : Dev} (h : d.onlyChs e) : e.regs = d.regs := by rw [h]

theorem Dev.onlyChs_porter {d e : Dev} (h : d.onlyChs e) : e.porter = d.porter := by rw [h]

theorem Dev.onlyChs_power {d e : Dev} (h : d.onlyChs e) : e.power = d.power := by rw [h]

theorem Dev.onlyChs_trans {d e f : Dev} (h : d.onlyChs e) (k : e.onlyChs f) : d.onlyChs f := by
  unfold Dev.onlyChs at *
  rw [k, h]

/-- A loop whose turns each change their own channel alone: the rest of the device stays, and a channel is left as its own turn left it,
which found it as it was. -/
theorem Dev.eachCh_onlyCh {f : Fin 8 → Dev → Dev} (own : ∀ (n : Fin 8) (d : Dev), d.onlyCh (f n d) n) (d : Dev) (n : Fin 8) :
    d.onlyChs (d.eachCh f)
      ∧ ∃ e : Dev, d.onlyChs e ∧ e.chs[n] = d.chs[n] ∧ (d.eachCh f).chs[n] = (f n e).chs[n] := by
  refine ⟨Dev.eachCh_keeps d.onlyChs f d (fun m e he => Dev.onlyChs_trans he (own m e).1) rfl, ?_⟩
  refine Dev.eachCh_turn n (fun e => d.onlyChs e ∧ e.chs[n] = d.chs[n])
    (fun g => ∃ e : Dev, d.onlyChs e ∧ e.chs[n] = d.chs[n] ∧ g.chs[n] = (f n e).chs[n]) f d
    (fun m diff e he => ⟨Dev.onlyChs_trans he.1 (own m e).1, ((own m e).2 n (Ne.symm diff)).trans he.2⟩) (fun e he => ⟨e, he.1, he.2, rfl⟩)
    (fun m diff g hg => ?_) ⟨rfl, rfl⟩
  obtain ⟨e, rest, mine, made⟩ := hg
  exact ⟨e, rest, mine, ((own m g).2 n (Ne.symm diff)).trans made⟩

/-- The state of an output and its forced code follow from the registers, the Porter, the power state and its own channel. -/
theorem Dev.hvState_of {d e : Dev} {n : Fin 8} (regs : e.regs = d.regs) (porter : e.porter = d.porter) (power : e.power = d.power)
    (chs : e.chs[n] = d.chs[n]) : e.hvState n = d.hvState n ∧ e.forcedCode n = d.forcedCode n := by
  have reads (g : Fld) (m j : Nat) : e.get g m j = d.get g m j := Dev.get_of_regs regs g m j
  constructor
  · unfold Dev.hvState Dev.hvOffCause Dev.railFault Dev.hvRemoved Dev.hvLatched Dev.hvForced Dev.asleep Dev.locked Dev.flag Dev.bit
    simp only [reads, porter, power, chs]
  · unfold Dev.forcedCode Dev.clampOf Dev.coef Dev.flag Dev.getS
    simp only [reads, chs]

/-! ### What one channel's turn does -/

/-- A slot's abort leaves the channel's output as it is. -/
theorem Dev.abortSlot_hv (d : Dev) (n : Fin 8) : (d.abortSlot n).chs[n].hv = d.chs[n].hv := by
  unfold Dev.abortSlot
  split
  · rfl
  · split
    · rfl
    · rw [Dev.onCh_same]

/-- Only the code at the DAC can follow the forced code; it does where the output is forced (R221). -/
theorem Dev.forceNow_hv (d : Dev) (n : Fin 8) :
    (d.forceNow n).hvState n = d.hvState n ∧ (d.forceNow n).chs[n].hv = { d.chs[n].hv with
      code := if d.hvState n = 3 then (d.forceNow n).forcedCode n else d.chs[n].hv.code } := by
  by_cases h : d.hvState n = 3
  · have eq : d.forceNow n = d.onCh n (fun c => { c with hv := { c.hv with code := d.forcedCode n } }) := if_pos h
    rw [eq, Dev.hvState_code, Dev.forcedCode_code, Dev.onCh_same, if_pos h]
    exact ⟨rfl, rfl⟩
  · have eq : d.forceNow n = d := if_neg h
    rw [eq, if_neg h]
    exact ⟨rfl, rfl⟩

/-- A ramp-down that begins: the receive switch opens, and a forced output stands at its forced code (R220). -/
theorem Dev.rampDown_hv (d : Dev) (n : Fin 8) (gone : Bool) :
    let e := d.rampDown n gone
    e.chs[n].hv = { d.chs[n].hv with
      ramp := d.chs[n].hv.ramp || !gone
      rxClosed := false
      code := if e.hvState n = 3 then e.forcedCode n else d.chs[n].hv.code } := by
  unfold Dev.rampDown
  obtain ⟨state, hv⟩ := ((d.onCh n (fun c => { c with hv := { c.hv with ramp := c.hv.ramp || !gone, rxClosed := false } })).abortSlot n).forceNow_hv n
  dsimp only
  rw [state, hv, Dev.abortSlot_hv, Dev.onCh_same]

/-- The end of a ramp-down: the output is off; a channel without one stays as it is (R220). -/
theorem Dev.rampEnd_hv (d : Dev) (n : Fin 8) :
    (d.chs[n].hv.ramp = true → (d.rampEnd n).chs[n].hv = { d.chs[n].hv with stage := .off, ramp := false, rxClosed := false })
      ∧ (d.chs[n].hv.ramp = false → d.rampEnd n = d) := by
  refine ⟨fun ramp => ?_, fun none => if_neg (by rw [none]; decide)⟩
  have eq : d.rampEnd n = (d.onCh n (fun c => { c with hv := { c.hv with ramp := false } })).hvDisable n := if_pos ramp
  rw [eq, Dev.hvDisable, Dev.abortSlot_hv, Dev.onCh_same, Dev.onCh_same]

/-- Every channel begins its ramp-down, but for one where `gone` says that its supply was removed already. -/
theorem Dev.rampAll_parts (d : Dev) (gone : Fin 8 → Bool) :
    let e := d.eachCh (fun n d => d.rampDown n (gone n))
    e.porter = d.porter ∧ e.regs = d.regs
      ∧ ∀ n : Fin 8, e.chs[n].hv = { d.chs[n].hv with
          ramp := d.chs[n].hv.ramp || !gone n
          rxClosed := false
          code := if e.hvState n = 3 then e.forcedCode n else d.chs[n].hv.code } := by
  have each := Dev.eachCh_onlyCh (f := fun n d => d.rampDown n (gone n)) (fun n d => d.rampDown_onlyCh n _) d
  dsimp only at each ⊢
  generalize d.eachCh (fun n d => d.rampDown n (gone n)) = g at each ⊢
  obtain ⟨rest, -⟩ := each 0
  refine ⟨Dev.onlyChs_porter rest, Dev.onlyChs_regs rest, fun n => ?_⟩
  obtain ⟨-, e, same, mine, made⟩ := each n
  have turn := Dev.onlyChs_trans same (e.rampDown_onlyCh n (gone n)).1
  obtain ⟨state, code⟩ := Dev.hvState_of (n := n) (d := e.rampDown n (gone n)) (e := g)
    ((Dev.onlyChs_regs rest).trans (Dev.onlyChs_regs turn).symm) ((Dev.onlyChs_porter rest).trans (Dev.onlyChs_porter turn).symm)
    ((Dev.onlyChs_power rest).trans (Dev.onlyChs_power turn).symm) made
  rw [state, code, made, Dev.rampDown_hv, mine]

/-- Every ramp-down ends: the outputs that had one are off (R220). -/
theorem Dev.rampEndAll_parts (d : Dev) :
    let e := d.eachCh (fun n d => d.rampEnd n)
    e.regs = d.regs ∧ e.porter = d.porter
      ∧ ∀ n : Fin 8, (d.chs[n].hv.ramp = true → e.chs[n].hv = { d.chs[n].hv with stage := .off, ramp := false, rxClosed := false })
          ∧ (d.chs[n].hv.ramp = false → e.chs[n] = d.chs[n]) := by
  have each := Dev.eachCh_onlyCh (f := fun n d => d.rampEnd n) (fun n d => d.rampEnd_onlyCh n) d
  dsimp only at each ⊢
  generalize d.eachCh (fun n d => d.rampEnd n) = g at each ⊢
  obtain ⟨rest, -⟩ := each 0
  refine ⟨Dev.onlyChs_regs rest, Dev.onlyChs_porter rest, fun n => ?_⟩
  obtain ⟨-, e, -, mine, made⟩ := each n
  obtain ⟨ended, none⟩ := e.rampEnd_hv n
  rw [mine] at ended none
  exact ⟨fun ramp => made ▸ ended ramp, fun idle => made.trans ((congrArg (fun e : Dev => e.chs[n]) (none idle)).trans mine)⟩

/-! ### Enabling -/

/-- What a test of a channel's segments brings back, and the limits that follow, are its own (R235, R579). -/
theorem Dev.segTest_chsBut (d : Dev) (n : Fin 8) (passed : Nat) : d.chsBut (d.segTest n passed) n := by
  have chs (l : List Nat) : (l.foldl (fun (d : Dev) k => (d.clrBit HV_SEG.RETIRED n 0 k).setBit HV_SEG.ACTIVE n 0 k) d).chs = d.chs :=
    foldl_keeps (fun e => e.chs = d.chs) (fun d k => (d.clrBit HV_SEG.RETIRED n 0 k).setBit HV_SEG.ACTIVE n 0 k) l d (fun e _ he => he) rfl
  intro m diff
  unfold Dev.segTest Dev.segShow
  rw [(Dev.ilimRefresh_parts _ n).2.1 m diff, Dev.set_chs, chs]

/-- The output of a channel that the enabling switch connects, with its forced code where it is forced (R219, R221). -/
def Dev.switchClosed (d : Dev) (n : Fin 8) : Dev :=
  (d.onCh n (fun c => { c with hv := { c.hv with stage := .on, d := 0, code := 0, enabledOnce := true } })).forceNow n

/-- The enabling switch closes: the output is on at the code for 0 V, or at its forced code (R219, R221). -/
theorem Dev.switchClosed_parts (d : Dev) (n : Fin 8) :
    let e := d.switchClosed n
    e.chs[n].hv.stage = .on ∧ e.chs[n].hv.d = 0 ∧ e.chs[n].hv.code = (if e.hvState n = 3 then e.forcedCode n else 0)
      ∧ e.chs[n].hv.enabledOnce = true ∧ d.chsBut e n ∧ e.regs = d.regs := by
  unfold Dev.switchClosed
  obtain ⟨state, hv⟩ := (d.onCh n (fun c => { c with hv := { c.hv with stage := .on, d := 0, code := 0, enabledOnce := true } })).forceNow_hv n
  have only := (d.onCh n (fun c => { c with hv := { c.hv with stage := .on, d := 0, code := 0, enabledOnce := true } })).forceNow_onlyCh n
  refine ⟨?_, ?_, ?_, ?_, fun m diff => (only.2 m diff).trans (Dev.onCh_chsBut d n (fun c =>
    { c with hv := { c.hv with stage := .on, d := 0, code := 0, enabledOnce := true } }) m diff), (Dev.onlyCh_regs only).trans rfl⟩
  · rw [hv, Dev.onCh_same]
  · rw [hv, Dev.onCh_same]
  · rw [hv, Dev.onCh_same, state]
  · rw [hv, Dev.onCh_same]

/-- The device whose enabling switch closes: at the first enabling its segments have been tested (R219, R235). -/
def Dev.enablingTested (d : Dev) (n : Fin 8) (passed : Nat) : Dev := if d.chs[n].hv.enabledOnce then d else d.segTest n passed

theorem Dev.enablingTested_parts (d : Dev) (n : Fin 8) (passed : Nat) :
    d.chsBut (d.enablingTested n passed) n ∧ (d.chs[n].hv.enabledOnce = true → (d.enablingTested n passed).regs = d.regs) := by
  unfold Dev.enablingTested
  split
  · exact ⟨fun _ _ => rfl, fun _ => rfl⟩
  · exact ⟨d.segTest_chsBut n passed, fun once => absurd once ‹_›⟩

theorem State.enablingSwitchClose_runs (s : State) (n : Fin 8) (p : BitVec 14) (enabling : s.dev.chs[n].hv.stage = .enabling) :
    exec (.enablingSwitchClose n p) s = .next (s.withDev ((s.dev.enablingTested n p.toNat).switchClosed n)) :=
  if_neg (not_not.mpr enabling)

/-! ### A rail measurement -/

theorem Dev.bit_setBit_same (d : Dev) (f : Fld) (n i b : Nat) (fits : b < f.w) : (d.setBit f n i b).bit f n i b = true := by
  unfold Dev.setBit Dev.bit
  rw [Dev.get_set_same]
  simp [bitAt, setBitAt, fits]

/-- A cause of R565 that arises is latched. -/
theorem Dev.fault_latched (d : Dev) (b : Nat) (fits : b < PORTER_FAULT.CAUSE.w) : (d.fault b).bit PORTER_FAULT.CAUSE 0 0 b = true := by
  unfold Dev.fault
  split
  case isTrue already => exact already
  · have same (e : Dev) : ((e.vector 27).fire 7).bit PORTER_FAULT.CAUSE 0 0 b = e.bit PORTER_FAULT.CAUSE 0 0 b := by simp [Dev.bit]
    exact (same _).trans (d.bit_setBit_same _ 0 0 b fits)

theorem Dev.ilimRefresh_porter (d : Dev) (n : Fin 8) : (d.ilimRefresh n).porter = d.porter := by
  unfold Dev.ilimRefresh
  split <;> rfl

/-- One channel's part of a rail measurement: its rails show, and its limits and its output follow. -/
def Dev.railsShow (d : Dev) (vhp vhn : Nat) (n : Fin 8) : Dev :=
  (((d.set HV_RAIL.VHP n 0 vhp).set HV_RAIL.VHN n 0 (unsigned 16 (-(vhn : Int)))).ilimRefresh n).quietFollow n

theorem Dev.railsShow_parts (d : Dev) (vhp vhn : Nat) (n : Fin 8) :
    let e := d.railsShow vhp vhn n
    e.get HV_RAIL.VHP n = vhp % 2 ^ HV_RAIL.VHP.w ∧ e.get HV_RAIL.VHN n = unsigned 16 (-(vhn : Int)) % 2 ^ HV_RAIL.VHN.w
      ∧ e.porter = d.porter
      ∧ d.regsBut e [HV_RAIL.VHP.at n, HV_RAIL.VHN.at n, HV_ILIM_EFF.ILIM_EFF.at n, HV_ILIM_EFF.SC_EFF.at n] := by
  unfold Dev.railsShow
  generalize shown : (d.set HV_RAIL.VHP n 0 vhp).set HV_RAIL.VHN n 0 (unsigned 16 (-(vhn : Int))) = f
  have quiet := (f.ilimRefresh n).quietFollow_onlyCh n
  obtain ⟨-, -, -, -, regs⟩ := f.ilimRefresh_parts n
  have kept := Dev.regsBut_of_regs regs (Dev.onlyCh_regs quiet)
  refine ⟨?_, ?_, (Dev.onlyChs_porter quiet.1).trans ?_, ?_⟩
  · rw [Dev.regsBut_read kept _ _ _ rfl, ← shown, Dev.get_set_id _ _ _ _ _ _ _ _ (by decide), Dev.get_set_same]
  · rw [Dev.regsBut_read kept _ _ _ rfl, ← shown, Dev.get_set_same]
  · exact (Dev.ilimRefresh_porter f n).trans (by rw [← shown]; rfl)
  · refine Dev.regsBut_trans (e := f) ?_ (Dev.regsBut_mono kept (by simp +contextual))
    rw [← shown]
    exact Dev.regsBut_set _ _ _ _ (Dev.regsBut_set _ _ _ _ (d.regsBut_refl _) (by simp)) (by simp)

theorem chsOf_nodup (die : Nat) : (chsOf die).Nodup := by
  unfold chsOf
  split <;> decide

/-- A measurement shows the rails on every channel of the die, and leaves the Porter and the HVLIM straps as they are (R202). -/
theorem Dev.railsShowAll_parts (d : Dev) (die vhp vhn : Nat) (g : Dev) (loop : g = (chsOf die).foldl (fun d n => d.railsShow vhp vhn n) d) :
    (∀ n ∈ chsOf die, g.get HV_RAIL.VHP n = vhp % 2 ^ HV_RAIL.VHP.w ∧ g.get HV_RAIL.VHN n = unsigned 16 (-(vhn : Int)) % 2 ^ HV_RAIL.VHN.w)
      ∧ g.porter = d.porter ∧ ∀ n, g.flag HV_STAT.HVLIM n = d.flag HV_STAT.HVLIM n := by
  refine ⟨fun n isin => ?_, ?_, fun n => ?_⟩
  · rw [loop]
    refine (foldl_turn (k := n) (fun _ => True) (fun e => e.get HV_RAIL.VHP n = vhp % 2 ^ HV_RAIL.VHP.w
      ∧ e.get HV_RAIL.VHN n = unsigned 16 (-(vhn : Int)) % 2 ^ HV_RAIL.VHN.w) (fun n d => d.railsShow vhp vhn n) (fun _ _ _ _ => trivial)
      (fun e _ => ?_) (fun m diff e he => ?_) (chsOf die) (chsOf_nodup die)).1 isin d trivial
    · obtain ⟨hp, hn, -, -⟩ := e.railsShow_parts vhp vhn n
      exact ⟨hp, hn⟩
    · obtain ⟨-, -, -, regs⟩ := e.railsShow_parts vhp vhn m
      have away : (m : Nat) ≠ n := fun c => diff (Fin.ext c)
      have keep (f : Fld) : ∀ ks : List Fld, f.at n ∉ ks.map (fun g => g.at m) := fun ks isin => by
        obtain ⟨g, -, eq⟩ := List.mem_map.mp isin
        exact away (congrArg (fun k : Key => k.2.1) eq)
      exact ⟨(regs HV_RAIL.VHP n 0 (keep _ [HV_RAIL.VHP, HV_RAIL.VHN, HV_ILIM_EFF.ILIM_EFF, HV_ILIM_EFF.SC_EFF])).trans he.1,
        (regs HV_RAIL.VHN n 0 (keep _ [HV_RAIL.VHP, HV_RAIL.VHN, HV_ILIM_EFF.ILIM_EFF, HV_ILIM_EFF.SC_EFF])).trans he.2⟩
  · rw [loop]
    exact foldl_keeps (fun e => e.porter = d.porter) (fun d n => d.railsShow vhp vhn n) _ d (fun e m he => (e.railsShow_parts vhp vhn m).2.2.1.trans he) rfl
  · rw [loop]
    refine foldl_keeps (fun e => e.flag HV_STAT.HVLIM n = d.flag HV_STAT.HVLIM n) (fun d n => d.railsShow vhp vhn n) _ d (fun e m he => ?_) rfl
    obtain ⟨-, -, -, regs⟩ := e.railsShow_parts vhp vhn m
    exact (Dev.flag_of_get (Dev.regsBut_read regs _ _ _ rfl)).trans he

/-- What a rail measurement does once the rails show: rails that leave their window flag every channel of the die, turn the outputs off and
latch fault 1 (R202). -/
theorem Dev.railsLeft_parts (d : Dev) (die : Nat) (left : Bool) :
    let e := if left then ((((chsOf die).foldl (fun d (n : Fin 8) => d.raise HV_STAT.RAIL n) d).eachCh (fun n d => d.hvDisable n)).fault 1) else d
    e.porter = d.porter ∧ (∀ f n, f.id ≠ HV_STAT.RAIL.id → f.id ≠ PORTER_FAULT.CAUSE.id → e.get f n = d.get f n)
      ∧ (left = true → e.bit PORTER_FAULT.CAUSE 0 0 1 = true ∧ ∀ n ∈ chsOf die, e.flag HV_STAT.RAIL n = true) := by
  cases left with
  | false => exact ⟨rfl, fun _ _ _ _ => rfl, fun no => absurd no (by decide)⟩
  | true =>
    rw [if_pos rfl]
    generalize flagged : (chsOf die).foldl (fun d (n : Fin 8) => d.raise HV_STAT.RAIL n) d = f
    have off := (Dev.eachCh_onlyCh (f := fun n d => d.hvDisable n) (fun n d => d.hvDisable_onlyCh n) f 0).1
    generalize f.eachCh (fun n d => d.hvDisable n) = g at off
    have fault := g.fault_regsBut 1
    refine ⟨?_, fun k n rail cause => ?_, fun _ => ⟨g.fault_latched 1 (by decide), fun n isin => ?_⟩⟩
    · rw [Dev.fault_porter, Dev.onlyChs_porter off, ← flagged]
      exact foldl_keeps (fun e => e.porter = d.porter) (fun d (n : Fin 8) => d.raise HV_STAT.RAIL n) _ d (fun e m he => he) rfl
    · rw [fault k n 0 (by simpa [Fld.at] using fun h => absurd h cause), Dev.get_of_regs (Dev.onlyChs_regs off), ← flagged]
      exact foldl_keeps (fun e => e.get k n = d.get k n) (fun d (n : Fin 8) => d.raise HV_STAT.RAIL n) _ d
        (fun e m he => (e.get_set_id _ _ _ _ _ _ _ (Ne.symm rail)).trans he) rfl
    · rw [Dev.flag_of_get (Dev.regsBut_read fault _ _ _ rfl), Dev.flag_of_get (Dev.get_of_regs (Dev.onlyChs_regs off) _ _ _), ← flagged]
      refine (foldl_turn (k := n) (fun _ => True) (fun e => e.flag HV_STAT.RAIL n = true) (fun n d => d.raise HV_STAT.RAIL n)
        (fun _ _ _ _ => trivial) (fun e _ => e.flag_raise_same _ _ _ (by decide)) (fun m diff e he => ?_) (chsOf die) (chsOf_nodup die)).1 isin d trivial
      exact (Dev.flag_of_get (e.get_set_idx _ _ _ _ _ _ _ (fun c => diff (Fin.ext c)))).trans he

theorem List.getD_set_same {α : Type} (l : List α) (k : Nat) (v w : α) (inside : k < l.length) : (l.set k v).getD k w = v := by
  simp [List.getD, inside]

theorem Dev.railMeasure_parts (d : Dev) (die : Fin 2) (vhp vhn vhl : Nat) (two : d.porter.railIn.length = 2) :
    let e := d.railMeasure die vhp vhn vhl
    let inside := railsIn (d.flag HV_STAT.HVLIM (4 * die.val)) vhp vhn vhl
    (∀ n ∈ chsOf die, e.get HV_RAIL.VHP n = vhp % 2 ^ HV_RAIL.VHP.w ∧ e.get HV_RAIL.VHN n = unsigned 16 (-(vhn : Int)) % 2 ^ HV_RAIL.VHN.w)
      ∧ e.porter.railIn.getD die false = inside
      ∧ (inside = false → d.porter.railIn.getD die false = true →
          e.bit PORTER_FAULT.CAUSE 0 0 1 = true ∧ ∀ n ∈ chsOf die, e.flag HV_STAT.RAIL n = true) := by
  unfold Dev.railMeasure
  extract_lets g was now p h f e inside
  obtain ⟨shown, porter, strap⟩ := d.railsShowAll_parts die vhp vhn g rfl
  have now_eq : now = inside := congrArg (railsIn · vhp vhn vhl) (strap _)
  have was_eq : was = d.porter.railIn.getD die false := congrArg (fun q : Porter => q.railIn.getD die false) porter
  have railIn : h.porter.railIn = g.porter.railIn.set die now := rfl
  have reads (f : Fld) (n : Nat) (id : f.id ≠ PWR_RAIL.GOOD.id) : h.get f n = g.get f n := Dev.get_set_id _ _ _ _ _ _ _ _ (Ne.symm id)
  obtain ⟨kept, regs, left⟩ : e.porter = h.porter
      ∧ (∀ f n, f.id ≠ HV_STAT.RAIL.id → f.id ≠ PORTER_FAULT.CAUSE.id → e.get f n = h.get f n)
      ∧ ((was && !now) = true → e.bit PORTER_FAULT.CAUSE 0 0 1 = true ∧ ∀ n ∈ chsOf die, e.flag HV_STAT.RAIL n = true) :=
    h.railsLeft_parts die (was && !now)
  clear_value e h inside now was g
  refine ⟨fun n isin => ?_, ?_, fun out stood => left ?_⟩
  · obtain ⟨hp, hn⟩ := shown n isin
    exact ⟨(regs HV_RAIL.VHP n (by decide) (by decide)).trans ((reads _ _ (by decide)).trans hp),
      (regs HV_RAIL.VHN n (by decide) (by decide)).trans ((reads _ _ (by decide)).trans hn)⟩
  · rw [kept, railIn, List.getD_set_same _ _ _ _ (by rw [porter, two]; exact die.isLt), now_eq]
  · rw [was_eq, stood, now_eq, out]
    rfl

/-- Settles O18: the loops over the channels treat each channel alone. -/
theorem hvRailsAndEnabling : Obligations.HvRailsAndEnabling := by
  constructor
  · intro s die d two
    refine ⟨fun vhp vhn vhl => ⟨s.dev.railMeasure die vhp vhn vhl, rfl, s.dev.railMeasure_parts die vhp vhn vhl two⟩, fun inside => ⟨_, if_pos inside, rfl⟩, fun out => ?_⟩
    exact if_neg (by rw [out]; decide)
  · intro s d
    refine ⟨fun n p enabling => ?_, fun n p no => if_pos no, ?_, ⟨s.dev.eachCh (fun n d => d.rampEnd n), rfl, s.dev.rampEndAll_parts⟩, ⟨_, rfl, rfl⟩, fun en off tsd => ⟨_, ?_, rfl⟩, fun no => ?_⟩
    · have runs := s.enablingSwitchClose_runs n p enabling
      obtain ⟨others, tested⟩ := s.dev.enablingTested_parts n p.toNat
      generalize s.dev.enablingTested n p.toNat = f at runs others tested
      obtain ⟨stage, volts, code, again, rest, regs⟩ := f.switchClosed_parts n
      exact ⟨_, runs, stage, volts, code, again, fun m diff => (rest m diff).trans (others m diff), fun once => regs.trans (tested once)⟩
    · obtain ⟨porter, regs, chs⟩ := ({ s.dev with porter := { s.dev.porter with hvEn := false, hvReady := false } } : Dev).rampAll_parts s.dev.hvRemoved
      refine ⟨({ s.dev with porter := { s.dev.porter with hvEn := false } } : Dev).removeHv s.dev, rfl, porter, regs, fun n => ?_⟩
      have mine := chs n
      dsimp only [Dev.removeHv]
      generalize Dev.eachCh { s.dev with porter := { s.dev.porter with hvEn := false, hvReady := false } } _ = e at mine ⊢
      refine ⟨⟨_, mine⟩, fun forced => ?_, fun free => ?_⟩
      · rw [mine]
        exact if_pos forced
      · rw [mine]
        exact if_neg free
    · exact if_pos (show (s.dev.porter.hvEn && !s.dev.porter.hvOff && !s.dev.porter.tsdLog) = true by
        rw [show s.dev.porter.hvEn = true from en, show s.dev.porter.hvOff = false from off, show s.dev.porter.tsdLog = false from tsd]; rfl)
    · refine if_neg (show ¬(s.dev.porter.hvEn && !s.dev.porter.hvOff && !s.dev.porter.tsdLog) = true from ?_)
      simp only [d] at no
      rcases no with no | no | no <;> simp [no]

end Sys2Proof.Machine
end

section
/-!
PROOF. Current limiting, shorts, segments and power trips (R229 to R237, R529).
-/
namespace Sys2Proof.Machine
open Reg

/-! ### Current limiting and shorts -/

theorem Dev.get_count_same (d : Dev) (f : Fld) (n i : Nat) : (d.count f n i).get f n i = satInc f.w (d.get f n i) :=
  (d.get_set_same _ _ _ _).trans (satInc_mod _ _)

/-- The limit shows as active, and the samples without it count anew (R230). -/
def Dev.limitActive (d : Dev) (n : Fin 8) : Dev :=
  (d.onCh n (fun c => { c with hv := { c.hv with limAct := true, limClear := 0 } })).raise HV_STAT.ILIM_ACT n

theorem Dev.limitActive_parts (d : Dev) (n : Fin 8) :
    let e := d.limitActive n
    e.flag HV_STAT.ILIM_ACT n = true
      ∧ e.chs[n] = { d.chs[n] with hv := { d.chs[n].hv with limAct := true, limClear := 0 } } ∧ d.chsBut e n
      ∧ d.regsBut e [HV_STAT.ILIM_ACT.at n] :=
  ⟨Dev.flag_raise_same _ _ _ _ (by decide), d.onCh_same n (fun c => { c with hv := { c.hv with limAct := true, limClear := 0 } }),
    d.onCh_chsBut n (fun c => { c with hv := { c.hv with limAct := true, limClear := 0 } }),
    Dev.regsBut_set _ _ _ _ (Dev.regsBut_of_regs (d.regsBut_refl _) rfl) (by simp)⟩

/-- An onset: limiting begins, and is counted (R230). -/
def Dev.onsetCount (d : Dev) (n : Fin 8) : Dev := ((d.raise HV_STAT.ILIM n).count HV_ILIMCNT.ONSETS n).fire (chProd n 12)

theorem Dev.onsetCount_parts (d : Dev) (n : Fin 8) :
    let e := d.onsetCount n
    e.flag HV_STAT.ILIM n = true ∧ e.get HV_ILIMCNT.ONSETS n = satInc HV_ILIMCNT.ONSETS.w (d.get HV_ILIMCNT.ONSETS n)
      ∧ e.chs = d.chs ∧ d.regsBut e [HV_STAT.ILIM.at n, HV_ILIMCNT.ONSETS.at n] := by
  unfold Dev.onsetCount
  refine ⟨?_, ?_, Dev.fire_chs _ _, ?_⟩
  · simp (disch := decide) [Dev.flag, Dev.raise, Dev.count, Dev.get_set_id]
  · simp (disch := decide) [Dev.raise, Dev.count, Dev.get_set_id, satInc_mod]
  · exact Dev.regsBut_of_regs (Dev.regsBut_set _ _ _ _ (Dev.regsBut_set _ _ _ _ (d.regsBut_refl _) (by simp)) (by simp)) (Dev.fire_regs _ _)

theorem Dev.limitOnset_cases (d : Dev) (n : Fin 8) :
    ((d.chs[n].hv.limAct = true ∨ d.chs[n].hv.limClear < 8) → d.limitOnset n = d.limitActive n)
      ∧ (d.chs[n].hv.limAct = false → 8 ≤ d.chs[n].hv.limClear → d.limitOnset n = (d.limitActive n).onsetCount n) :=
  ⟨fun again => if_pos (by simpa using again), fun act clear => if_neg (by rw [act]; simpa using clear)⟩

/-- A declared short counts and shows, and the integrator is cleared (R232). -/
def Dev.shortCount (d : Dev) (n : Fin 8) (k : Nat) : Dev :=
  let f := d.onCh n (fun c => { c with hv := { c.hv with shorts := k, shortAt := d.time.abs, integ := 0 } })
  ((((f.raise HV_STAT.SHORT n).count HV_ILIMCNT.SHORTS n).count STK_CHn_WEAR2.SHORTS n).set HV_STAT.SC_RUN n 0 (min k 3)).fire (chProd n 13)

theorem Dev.shortCount_parts (d : Dev) (n : Fin 8) (k : Nat) :
    let e := d.shortCount n k
    e.flag HV_STAT.SHORT n = true ∧ e.get HV_ILIMCNT.SHORTS n = satInc HV_ILIMCNT.SHORTS.w (d.get HV_ILIMCNT.SHORTS n)
      ∧ e.flag HV_STAT.FOLD n = d.flag HV_STAT.FOLD n
      ∧ e.chs[n] = { d.chs[n] with hv := { d.chs[n].hv with shorts := k, shortAt := d.time.abs, integ := 0 } } ∧ d.chsBut e n := by
  unfold Dev.shortCount
  have chs (e : Dev) (h : e.chs = (d.onCh n (fun c => { c with hv := { c.hv with shorts := k, shortAt := d.time.abs, integ := 0 } })).chs) :
      e.chs[n] = { d.chs[n] with hv := { d.chs[n].hv with shorts := k, shortAt := d.time.abs, integ := 0 } } ∧ d.chsBut e n := by
    unfold Dev.chsBut
    rw [h]
    exact ⟨d.onCh_same n _, d.onCh_chsBut n _⟩
  refine ⟨?_, ?_, ?_, chs _ (Dev.fire_chs _ _)⟩
  · simp (disch := decide) [Dev.flag, Dev.raise, Dev.count, Dev.get_set_id]
  · simp (disch := decide) [Dev.raise, Dev.count, Dev.get_set_id, satInc_mod]
  · simp (disch := decide) [Dev.flag, Dev.raise, Dev.count, Dev.get_set_id]

/-- A channel that latches: its output is off, with fault 2 (R232). -/
theorem Dev.shortLatched_parts (d : Dev) (n : Fin 8) :
    let e := ((d.raise HV_STAT.SC_LATCH n).hvDisable n).fault 2
    e.flag HV_STAT.SC_LATCH n = true ∧ e.bit PORTER_FAULT.CAUSE 0 0 2 = true
      ∧ (∀ f : Fld, f.id ≠ HV_STAT.SC_LATCH.id → f.id ≠ PORTER_FAULT.CAUSE.id → e.get f n = d.get f n)
      ∧ e.chs[n].hv = { d.chs[n].hv with stage := .off, rxClosed := false } ∧ d.chsBut e n := by
  have off := (d.raise HV_STAT.SC_LATCH n).hvDisable_onlyCh n
  have hv : ((d.raise HV_STAT.SC_LATCH n).hvDisable n).chs[n].hv = { d.chs[n].hv with stage := .off, rxClosed := false } := by
    rw [Dev.hvDisable, Dev.abortSlot_hv, Dev.onCh_same]
    rfl
  generalize (d.raise HV_STAT.SC_LATCH n).hvDisable n = g at off hv
  have kept := g.fault_regsBut 2
  refine ⟨?_, g.fault_latched 2 (by decide), fun f latch cause => ?_, ?_, fun m diff => ?_⟩
  · rw [Dev.flag_of_get (Dev.regsBut_read kept _ _ _ rfl), Dev.flag_of_get (Dev.get_of_regs (Dev.onlyCh_regs off) _ _ _)]
    exact d.flag_raise_same _ _ _ (by decide)
  · rw [kept f n 0 (by simpa [Fld.at] using fun h => absurd h cause), Dev.get_of_regs (Dev.onlyCh_regs off)]
    exact d.get_set_id _ _ _ _ _ _ _ (Ne.symm latch)
  · rw [Dev.fault_chs, hv]
  · rw [Dev.fault_chs]
    exact off.2 m diff

theorem Dev.shortDeclared_cases (d : Dev) (n : Fin 8) (gap : Nat) (free : d.flag HV_STAT.FOLD n = false) :
    let k := if gap ≤ 1000 ∧ d.time.abs ≤ d.chs[n].hv.shortAt + 250000000 then d.chs[n].hv.shorts + 1 else 1
    d.shortDeclared n gap = if d.get HV_ILIM.TRIES n ≠ 0 ∧ d.get HV_ILIM.TRIES n ≤ k
      then (((d.shortCount n k).raise HV_STAT.SC_LATCH n).hvDisable n).fault 2 else (d.shortCount n k).raise HV_STAT.FOLD n := by
  intro k
  unfold Dev.shortDeclared
  rw [if_neg (by rw [free]; decide)]
  simp only [Bool.and_eq_true, decide_eq_true_eq]
  rfl

/-- Outside a run of limited samples that reaches the threshold, and in a fold-back, no short is declared (R231, R232). -/
theorem State.shortDeclared_idle (s : State) (n : Fin 8) (gap : Nat)
    (no : s.dev.flag HV_STAT.FOLD n = true ∨ s.dev.chs[n].hv.integ + 1 < 500 * s.dev.get HV_ILIM_EFF.SC_EFF n) :
    exec (.shortDeclared n gap) s = .next s := by
  rcases no with folded | below
  · have same : s.dev.shortDeclared n gap = s.dev := if_pos folded
    show execShortDeclared n gap s = _
    unfold execShortDeclared
    dsimp only
    rw [same]
    exact ite_self _
  · exact if_neg (Nat.not_le.mpr below)

/-- Settles O19. -/
theorem currentLimitAndShorts : Obligations.CurrentLimitAndShorts := by
  intro s n
  dsimp only
  refine ⟨fun act clear => ⟨s.dev.limitOnset n, rfl, ?_⟩, fun again => ⟨s.dev.limitOnset n, rfl, ?_⟩, fun gap free full => ⟨s.dev.shortDeclared n gap, if_pos full, ?_⟩,
    fun gap no => ?_, ⟨(s.dev.clear HV_STAT.FOLD n).ilimRefresh n, rfl, ?_⟩,
    ⟨s.dev.scClr n, rfl, by simp [Dev.scClr, Dev.clear, Dev.flag], Dev.onlyRegs_set _ _ _ _ (Dev.onlyRegs_refl _ _) (by simp)⟩⟩
  · rw [(s.dev.limitOnset_cases n).2 act clear]
    obtain ⟨active, mine, others, regs⟩ := s.dev.limitActive_parts n
    generalize s.dev.limitActive n = f at *
    obtain ⟨begun, onsets, chs, rest⟩ := f.onsetCount_parts n
    refine ⟨begun, ?_, ?_, ?_, ?_, ?_⟩
    · rw [Dev.flag_of_get (Dev.regsBut_read rest _ _ _ rfl), active]
    · rw [onsets, Dev.regsBut_read regs _ _ _ rfl]
    · exact Dev.regsBut_trans (Dev.regsBut_mono regs (by simp)) (Dev.regsBut_mono rest (by simp))
    · unfold Dev.chsBut
      rwa [chs]
    · rw [chs, mine]
  · rw [(s.dev.limitOnset_cases n).1 again]
    obtain ⟨active, mine, others, regs⟩ := s.dev.limitActive_parts n
    exact ⟨active, regs, others, mine⟩
  · generalize s.dev = d at *
    rw [d.shortDeclared_cases n gap free]
    generalize (if gap ≤ 1000 ∧ d.time.abs ≤ d.chs[n].hv.shortAt + 250000000 then d.chs[n].hv.shorts + 1 else 1) = k
    obtain ⟨short, tally, fold, mine, others⟩ := d.shortCount_parts n k
    generalize d.shortCount n k = f at *
    obtain ⟨latched, fault, regs, hv, rest⟩ := f.shortLatched_parts n
    split
    case isTrue last =>
      generalize ((f.raise HV_STAT.SC_LATCH n).hvDisable n).fault 2 = g at *
      refine ⟨(Dev.flag_of_get (regs _ (by decide) (by decide))).trans short, (regs _ (by decide) (by decide)).trans tally, ?_, ?_,
        fun _ => ⟨latched, ?_, fault, ?_⟩, fun no => absurd last no, fun m diff => (rest m diff).trans (others m diff)⟩
      · rw [hv, mine]
      · rw [hv, mine]
      · rw [Dev.flag_of_get (regs _ (by decide) (by decide)), fold, free]
      · rw [hv]
    case isFalse more =>
      refine ⟨?_, ?_, ?_, ?_, fun last => absurd last more, fun _ => ⟨f.flag_raise_same _ _ _ (by decide), ?_⟩, others⟩
      · exact (Dev.flag_of_get (f.get_set_id _ _ _ _ _ _ _ (by decide))).trans short
      · exact (f.get_set_id _ _ _ _ _ _ _ (by decide)).trans tally
      · exact (congrArg (fun c : Chan => c.hv.shorts) mine)
      · exact (congrArg (fun c : Chan => c.hv.integ) mine)
      · exact (congrArg (fun c : Chan => c.hv.stage) mine).trans rfl
  · exact s.shortDeclared_idle n gap no
  · have parts := (s.dev.clear HV_STAT.FOLD n).ilimRefresh_parts n
    have cleared : (s.dev.clear HV_STAT.FOLD n).flag HV_STAT.FOLD n = false := by simp [Dev.flag, Dev.clear]
    have regs : s.dev.regsBut (s.dev.clear HV_STAT.FOLD n) [HV_STAT.FOLD.at n] := Dev.regsBut_set _ _ _ _ (Dev.regsBut_refl _ _) (by simp)
    have chs : (s.dev.clear HV_STAT.FOLD n).chs = s.dev.chs := rfl
    generalize s.dev.clear HV_STAT.FOLD n = f at *
    dsimp only at parts
    generalize f.ilimRefresh n = e at *
    obtain ⟨mine, others, limit, -, rest⟩ := parts
    have ilim : e.chs[n].hv.ilim = s.dev.get HV_ILIM.ILIM n := by
      rw [mine, cleared]
      exact Dev.regsBut_read regs _ _ _ rfl
    refine ⟨?_, ?_, ?_, ?_, Dev.regsBut_trans (Dev.regsBut_mono regs (by simp)) (Dev.regsBut_mono rest (by simp))⟩
    · rw [Dev.flag_of_get (Dev.regsBut_read rest _ _ _ rfl), cleared]
    · have segs : e.segsLeft n = s.dev.segsLeft n := by
        unfold Dev.segsLeft Dev.bit
        rw [Dev.regsBut_read rest _ _ _ rfl, Dev.regsBut_read regs _ _ _ rfl]
      rw [limit, Dev.ilimOf, ilim, segs]
    · rw [mine, cleared, chs, if_neg (by decide), Dev.regsBut_read regs _ _ _ rfl]
    · exact fun m diff => (others m diff).trans (by rw [chs])

/-! ### Segments and sample words -/

theorem bitAt_clrBitAt (v b : Nat) : bitAt (clrBitAt v b) b = false := by
  unfold bitAt clrBitAt
  split
  case isFalse clear => simpa using clear
  case isTrue high =>
    rw [Nat.testBit_eq_decide_div_mod_eq, decide_eq_true_eq] at high
    have less := Nat.sub_mul_div v (2 ^ b) 1
    rw [Nat.mul_one] at less
    rw [Nat.testBit_eq_decide_div_mod_eq, less]
    simp only [decide_eq_false_iff_not]
    omega

theorem Dev.bit_clrBit_same (d : Dev) (f : Fld) (n i b : Nat) : (d.clrBit f n i b).bit f n i b = false := by
  unfold Dev.bit
  rw [Dev.clrBit, Dev.get_set_same]
  have clear := bitAt_clrBitAt (d.get f n i) b
  unfold bitAt at clear ⊢
  rw [Nat.testBit_mod_two_pow, clear, Bool.and_false]

theorem Dev.bit_of_get {d e : Dev} {f : Fld} {n i : Nat} (h : e.get f n i = d.get f n i) (b : Nat) : e.bit f n i b = d.bit f n i b := by
  unfold Dev.bit
  rw [h]

/-- `SEG_DEGRADED` follows the segments that are left (R235). -/
theorem Dev.segShow_parts (d : Dev) (n : Fin 8) :
    let e := d.segShow n
    e.flag HV_STAT.SEG_DEGRADED n = decide (e.segsLeft n < 12) ∧ d.chsBut e n
      ∧ d.regsBut e [HV_STAT.SEG_DEGRADED.at n, HV_ILIM_EFF.ILIM_EFF.at n, HV_ILIM_EFF.SC_EFF.at n] := by
  unfold Dev.segShow
  have few := d.flag_set_bool HV_STAT.SEG_DEGRADED n 0 (decide (d.segsLeft n < 12)) (by decide)
  simp only [decide_eq_true_eq] at few
  have shown : d.regsBut (d.set HV_STAT.SEG_DEGRADED n 0 (if d.segsLeft n < 12 then 1 else 0)) [HV_STAT.SEG_DEGRADED.at n] :=
    Dev.regsBut_set _ _ _ _ (d.regsBut_refl _) (by simp)
  have chs : (d.set HV_STAT.SEG_DEGRADED n 0 (if d.segsLeft n < 12 then 1 else 0)).chs = d.chs := rfl
  generalize d.set HV_STAT.SEG_DEGRADED n 0 (if d.segsLeft n < 12 then 1 else 0) = f at *
  obtain ⟨-, others, -, -, regs⟩ := f.ilimRefresh_parts n
  have both : d.regsBut (f.ilimRefresh n) [HV_STAT.SEG_DEGRADED.at n, HV_ILIM_EFF.ILIM_EFF.at n, HV_ILIM_EFF.SC_EFF.at n] :=
    Dev.regsBut_trans (Dev.regsBut_mono shown (by simp)) (Dev.regsBut_mono regs (by simp))
  refine ⟨?_, fun m diff => (others m diff).trans (by rw [chs]), both⟩
  have segs : (f.ilimRefresh n).segsLeft n = d.segsLeft n := by
    unfold Dev.segsLeft Dev.bit
    rw [Dev.regsBut_read both _ _ _ rfl]
  rw [Dev.flag_of_get (Dev.regsBut_read regs _ _ _ rfl), few, segs]

/-- A segment's retirements are counted (R583). -/
def Dev.segTally (d : Dev) (n : Fin 8) (k : Nat) : Dev :=
  (d.count STK_CHn_WEAR1.SEG_RET n).onCh n (fun c => { c with
    hv := { c.hv with segRet := c.hv.segRet.set k (c.hv.segRet.getD k 0 + 1) } })

/-- What the wear records hold of a segment's retirement (R583). -/
def Dev.segWear (d : Dev) (n : Fin 8) (k : Nat) : Dev :=
  if 3 ≤ (d.segTally n k).chs[n].hv.segRet.getD k 0 then (d.segTally n k).setBit STK_CHn_WEAR3.SEG_PERM n 0 k else d.segTally n k

theorem Dev.segWear_parts (d : Dev) (n : Fin 8) (k : Nat) :
    d.chsBut (d.segWear n k) n ∧ d.regsBut (d.segWear n k) [STK_CHn_WEAR1.SEG_RET.at n, STK_CHn_WEAR3.SEG_PERM.at n] := by
  have counted : d.regsBut (d.segTally n k) [STK_CHn_WEAR1.SEG_RET.at n, STK_CHn_WEAR3.SEG_PERM.at n] :=
    Dev.regsBut_of_regs (Dev.regsBut_set _ _ _ _ (d.regsBut_refl _) (by simp)) (Dev.onCh_regs _ _ _)
  have others : d.chsBut (d.segTally n k) n := fun m diff => Dev.onCh_chsBut (d.count STK_CHn_WEAR1.SEG_RET n) n _ m diff
  unfold Dev.segWear
  split
  · exact ⟨others, Dev.regsBut_set _ _ _ _ counted (by simp)⟩
  · exact ⟨others, counted⟩

/-- A segment's retirement with its records, before the channel's marks follow (R234, R583). -/
def Dev.segRecord (d : Dev) (n : Fin 8) (k : Nat) : Dev := ((d.clrBit HV_SEG.ACTIVE n 0 k).setBit HV_SEG.RETIRED n 0 k).segWear n k

theorem Dev.segRecord_parts (d : Dev) (n : Fin 8) (k : Nat) (fits : k < 14) :
    (d.segRecord n k).bit HV_SEG.ACTIVE n 0 k = false ∧ (d.segRecord n k).bit HV_SEG.RETIRED n 0 k = true ∧ d.chsBut (d.segRecord n k) n := by
  unfold Dev.segRecord
  have active : ((d.clrBit HV_SEG.ACTIVE n 0 k).setBit HV_SEG.RETIRED n 0 k).bit HV_SEG.ACTIVE n 0 k = false :=
    (Dev.bit_of_get (Dev.get_set_id _ _ _ _ _ _ _ _ (by decide)) k).trans (d.bit_clrBit_same _ _ _ _)
  have retired : ((d.clrBit HV_SEG.ACTIVE n 0 k).setBit HV_SEG.RETIRED n 0 k).bit HV_SEG.RETIRED n 0 k = true :=
    Dev.bit_setBit_same _ _ _ _ _ fits
  have chs : ((d.clrBit HV_SEG.ACTIVE n 0 k).setBit HV_SEG.RETIRED n 0 k).chs = d.chs := rfl
  generalize (d.clrBit HV_SEG.ACTIVE n 0 k).setBit HV_SEG.RETIRED n 0 k = f at *
  obtain ⟨others, regs⟩ := f.segWear_parts n k
  exact ⟨(Dev.bit_of_get (Dev.regsBut_read regs _ _ _ rfl) k).trans active, (Dev.bit_of_get (Dev.regsBut_read regs _ _ _ rfl) k).trans retired,
    fun m diff => (others m diff).trans (by rw [chs])⟩

/-- A forced channel: its receive switch opens, and nothing else of its output changes (R228, R281). -/
theorem Dev.forceCh_parts (d : Dev) (n : Fin 8) :
    d.onlyCh (d.forceCh n) n ∧ (d.forceCh n).chs[n].hv = { d.chs[n].hv with rxClosed := false } := by
  unfold Dev.forceCh
  refine ⟨Dev.onlyCh_trans (d.onlyCh_onCh n _) (Dev.abortSlot_onlyCh _ n), ?_⟩
  rw [Dev.abortSlot_hv, Dev.onCh_same]

/-- A bad sample word counts, and the last code stays (R529). -/
def Dev.sampleHeld (d : Dev) (n : Fin 8) : Dev :=
  (d.count PWR_LINK.SAMPLE).onCh n (fun c => { c with hv := { c.hv with code := c.hv.prev, linkAt := d.time.abs } })

theorem Dev.sampleHeld_parts (d : Dev) (n : Fin 8) :
    let e := d.sampleHeld n
    e.get PWR_LINK.SAMPLE = satInc PWR_LINK.SAMPLE.w (d.get PWR_LINK.SAMPLE)
      ∧ e.chs[n].hv = { d.chs[n].hv with code := d.chs[n].hv.prev, linkAt := d.time.abs } ∧ d.chsBut e n := by
  unfold Dev.sampleHeld
  refine ⟨d.get_count_same _ _ _, ?_, fun m diff => Dev.onCh_chsBut _ n _ m diff⟩
  rw [Dev.onCh_same]
  rfl

theorem Dev.sampleBad_cases (d : Dev) (n : Fin 8) (k : Nat) :
    (4 ≤ k → d.sampleBad n k
        = (((d.sampleHeld n).onCh n (fun c => { c with hv := { c.hv with linkBad := true } })).forceCh n).fault 4)
      ∧ (k < 4 → d.sampleBad n k = d.sampleHeld n) :=
  ⟨fun many => if_pos many, fun few => if_neg (Nat.not_le.mpr few)⟩

/-- Settles O20. -/
theorem segmentsAndSampleWords : Obligations.SegmentsAndSampleWords := by
  intro s n
  dsimp only
  refine ⟨fun k active => ⟨(s.dev.segRecord n k).segShow n, ?_, ?_⟩, fun k retired => ?_, fun k => ⟨s.dev.sampleBad n k, rfl, ?_⟩⟩
  · exact s.next_of_eq (if_neg (by rw [active]; decide))
  · obtain ⟨gone, kept, others⟩ := s.dev.segRecord_parts n k k.isLt
    generalize s.dev.segRecord n k = f at *
    obtain ⟨degraded, rest, regs⟩ := f.segShow_parts n
    exact ⟨(Dev.bit_of_get (Dev.regsBut_read regs _ _ _ rfl) k).trans gone, (Dev.bit_of_get (Dev.regsBut_read regs _ _ _ rfl) k).trans kept, degraded,
      fun m diff => (rest m diff).trans (others m diff)⟩
  · exact s.next_of_eq (if_pos (by rw [retired]; decide))
  · obtain ⟨tally, hv, others⟩ := s.dev.sampleHeld_parts n
    by_cases many : 4 ≤ k
    · rw [(s.dev.sampleBad_cases n k).1 many]
      generalize s.dev.sampleHeld n = f at *
      obtain ⟨only, forced⟩ := (f.onCh n (fun c => { c with hv := { c.hv with linkBad := true } })).forceCh_parts n
      rw [Dev.onCh_same, hv] at forced
      generalize (f.onCh n (fun c => { c with hv := { c.hv with linkBad := true } })).forceCh n = g at *
      refine ⟨?_, ?_, fun m diff => ?_, fun _ => ⟨?_, g.fault_latched 4 (by decide)⟩, fun few => absurd many (Nat.not_le.mpr few)⟩
      · rw [Dev.regsBut_read (g.fault_regsBut 4) _ _ _ rfl, Dev.get_of_regs (Dev.onlyCh_regs only)]
        exact tally
      · rw [Dev.fault_chs, forced]
      · rw [Dev.fault_chs]
        exact (only.2 m diff).trans ((f.onCh_chsBut n _ m diff).trans (others m diff))
      · rw [Dev.fault_chs, forced]
    · have few := Nat.not_le.mp many
      rw [(s.dev.sampleBad_cases n k).2 few]
      exact ⟨tally, by rw [hv], others, fun h => absurd h many, fun _ => by rw [hv]⟩

end Sys2Proof.Machine
end

section
/-!
PROOF. The estimates of the HV power and their trips (R236, R237, R274).
-/
namespace Sys2Proof.Machine
open Reg

/-! ### The estimates -/

/-- The estimates are read from the channels' averages alone. -/
theorem Dev.power_of_avg {d e : Dev} (avg : ∀ k : Fin 8, e.chs[k].hv.pAvg = d.chs[k].hv.pAvg) :
    (∀ n, e.chPower n = d.chPower n) ∧ e.totPower = d.totPower := by
  constructor
  · intro n
    rw [Dev.chPower, avg, Dev.chPower]
  · unfold Dev.totPower
    rw [List.map_congr_left (fun k _ => avg k)]

/-- A channel's average of one more sample grows only by the sample: without one it falls, or stays. -/
theorem estimateStep_zero (avg : Nat) : estimateStep avg 0 ≤ avg := by
  unfold estimateStep
  omega

theorem Dev.loadSample_parts (d : Dev) (n : Fin 8) (v i : Int) :
    let e := d.loadSample n v i
    d.onlyCh e n
      ∧ (d.chs[n].slot = none → e.chs[n].hv.pAvg
          = estimateStep d.chs[n].hv.pAvg (loadPower (d.get HV_RAIL.VHP n) (d.getS HV_RAIL.VHN n) v i))
      ∧ (d.chs[n].slot ≠ none → d.chPower n < 2500 → e.chPower n < 2500)
      ∧ e.chs[n].hv = { d.chs[n].hv with pAvg := e.chs[n].hv.pAvg } ∧ e.chs[n].slot = d.chs[n].slot := by
  unfold Dev.loadSample Dev.chPower
  refine ⟨d.onlyCh_onCh n _, fun none => ?_, fun some below => ?_, ?_, ?_⟩
  · rw [Dev.onCh_same]
    exact if_neg (by rw [none]; simp)
  · rw [Dev.onCh_same]
    dsimp only
    split
    · exact Nat.lt_of_le_of_lt (Nat.div_le_div_right (estimateStep_zero _)) below
    case isFalse low =>
      have there : d.chs[n].slot.isSome = true := Option.isSome_iff_ne_none.mpr some
      rw [there] at low
      simp only [Bool.true_and, decide_eq_true_eq] at low
      exact (Nat.div_lt_iff_lt_mul (by decide)).mpr (Nat.not_le.mp low)
  · rw [Dev.onCh_same]
  · rw [Dev.onCh_same]

/-- The estimates show where their fields hold them (R236). -/
theorem Dev.powerShow_parts (d : Dev) (n : Fin 8) :
    let e := d.powerShow n
    e.chs = d.chs ∧ (d.chPower n < 2 ^ 12 → e.get HV_PWR.CH n = d.chPower n) ∧ (d.totPower < 2 ^ 15 → ∀ k : Fin 8, e.get HV_PWR.TOT k = d.totPower)
      ∧ ∀ f m i, f.id ≠ HV_PWR.CH.id → f.id ≠ HV_PWR.TOT.id → e.get f m i = d.get f m i := by
  unfold Dev.powerShow
  extract_lets c f r e
  have own : f.chs = d.chs ∧ (d.chPower n < 2 ^ 12 → f.get HV_PWR.CH n = d.chPower n) ∧ ∀ g m i, g.id ≠ HV_PWR.CH.id → f.get g m i = d.get g m i := by
    simp only [f, c]
    split
    case isTrue fits => exact ⟨rfl, fun _ => (d.get_set_same _ _ _ _).trans (Nat.mod_eq_of_lt fits), fun g m i id => d.get_set_id _ _ _ _ _ _ _ (Ne.symm id)⟩
    case isFalse not => exact ⟨rfl, fun fits => absurd fits not, fun g m i id => Dev.get_set_id _ _ _ _ _ _ _ _ (Ne.symm id)⟩
  have tot : f.totPower = d.totPower := (Dev.power_of_avg (fun k => by rw [own.1])).2
  have total : r.2.chs = f.chs ∧ r.2.regs = f.regs ∧ (d.totPower < 2 ^ 15 → r.1 = d.totPower) := by
    simp only [r, ← tot]
    split
    case isTrue => exact ⟨rfl, rfl, fun _ => rfl⟩
    case isFalse not => exact ⟨rfl, rfl, fun fits => absurd fits not⟩
  obtain ⟨chs, regs, shows⟩ := total
  have others (g : Fld) (m i : Nat) (id : g.id ≠ HV_PWR.TOT.id) : e.get g m i = f.get g m i :=
    Dev.eachCh_keeps (fun x => x.get g m i = f.get g m i) (fun k x => x.set HV_PWR.TOT k 0 r.1) r.2
      (fun k x hx => (x.get_set_id _ _ _ _ _ _ _ (Ne.symm id)).trans hx) (Dev.get_of_regs regs g m i)
  refine ⟨?_, fun fits => (others _ _ _ (by decide)).trans (own.2.1 fits), fun fits k => ?_, fun g m i ch tot => (others g m i tot).trans (own.2.2 g m i ch)⟩
  · exact Dev.eachCh_keeps (fun x => x.chs = d.chs) (fun k x => x.set HV_PWR.TOT k 0 r.1) r.2 (fun k x hx => hx) (chs.trans own.1)
  · refine Dev.eachCh_turn k (fun _ => True) (fun x => x.get HV_PWR.TOT k = d.totPower) (fun k x => x.set HV_PWR.TOT k 0 r.1) r.2
      (fun _ _ _ _ => trivial) (fun x _ => ?_) (fun m diff x hx => ?_) trivial
    · rw [Dev.get_set_same, shows fits]
      exact Nat.mod_eq_of_lt fits
    · rw [Dev.get_set_idx _ _ _ _ _ _ _ _ (fun c => diff (Fin.ext c)), hx]

/-! ### The trips -/

/-- A cause of R565 leaves every register but the latched causes. -/
theorem Dev.fault_get (d : Dev) (b : Nat) (f : Fld) (n i : Nat) (id : f.id ≠ PORTER_FAULT.CAUSE.id) : (d.fault b).get f n i = d.get f n i :=
  d.fault_regsBut b f n i (by simpa [Fld.at] using fun h => absurd h id)

/-- One channel's trip: its flag, the mark of its stage, and the action `quiet` on its output. -/
theorem Dev.tripped_parts {quiet : Dev → Fin 8 → Dev} {after : HvSt → HvSt} (only : ∀ (d : Dev) n, d.onlyCh (quiet d n) n)
    (hv : ∀ (d : Dev) n, (quiet d n).chs[n].hv = after d.chs[n].hv) (flag : Fld) (w : flag.w ≠ 0) (mark : HvSt → HvSt) (d : Dev) (n : Fin 8) :
    let e := quiet ((d.raise flag n).onCh n (fun c => { c with hv := mark c.hv })) n
    e.flag flag n = true ∧ (∀ f m i, f.id ≠ flag.id → e.get f m i = d.get f m i) ∧ (∀ k : Fin 8, k ≠ n → e.flag flag k = d.flag flag k)
      ∧ d.chsBut e n ∧ e.chs[n].hv = after (mark d.chs[n].hv) := by
  have same := Dev.onlyCh_regs (only ((d.raise flag n).onCh n (fun c => { c with hv := mark c.hv })) n)
  refine ⟨(Dev.flag_of_get (Dev.get_of_regs same _ _ _)).trans (d.flag_raise_same _ _ _ w),
    fun f m i id => (Dev.get_of_regs same _ _ _).trans (d.get_set_id _ _ _ _ _ _ _ (Ne.symm id)),
    fun k diff => (Dev.flag_of_get (Dev.get_of_regs same _ _ _)).trans (Dev.flag_of_get (d.get_set_idx _ _ _ _ _ _ _ (fun c => diff (Fin.ext c.symm)))),
    fun m diff => ?_, ?_⟩
  · exact ((only _ n).2 m diff).trans (Dev.onCh_chsBut (d.raise flag n) n _ m diff)
  · rw [hv, Dev.onCh_same]
    rfl

/-- The trip of every channel. -/
theorem Dev.trippedAll_parts {quiet : Dev → Fin 8 → Dev} {after : HvSt → HvSt} (only : ∀ (d : Dev) n, d.onlyCh (quiet d n) n)
    (hv : ∀ (d : Dev) n, (quiet d n).chs[n].hv = after d.chs[n].hv) (flag : Fld) (w : flag.w ≠ 0) (mark : HvSt → HvSt) (d : Dev) :
    let e := d.eachCh (fun n d => quiet ((d.raise flag n).onCh n (fun c => { c with hv := mark c.hv })) n)
    (∀ k : Fin 8, e.flag flag k = true ∧ e.chs[k].hv = after (mark d.chs[k].hv)) ∧ ∀ f m i, f.id ≠ flag.id → e.get f m i = d.get f m i := by
  have turn := Dev.tripped_parts only hv flag w mark
  dsimp only at turn ⊢
  refine ⟨fun k => ?_, fun f m i id => ?_⟩
  · refine Dev.eachCh_turn k (fun x => x.chs[k] = d.chs[k]) (fun x => x.flag flag k = true ∧ x.chs[k].hv = after (mark d.chs[k].hv)) _ d
      (fun m diff x hx => ?_) (fun x hx => ?_) (fun m diff x hx => ?_) rfl
    · obtain ⟨-, -, -, others, -⟩ := turn x m
      exact (others k (Ne.symm diff)).trans hx
    · obtain ⟨shown, -, -, -, made⟩ := turn x k
      exact ⟨shown, by rw [made, hx]⟩
    · obtain ⟨-, -, flags, others, -⟩ := turn x m
      exact ⟨(flags k (Ne.symm diff)).trans hx.1, by rw [others k (Ne.symm diff), hx.2]⟩
  · refine Dev.eachCh_keeps (fun x => x.get f m i = d.get f m i) _ d (fun k x hx => ?_) rfl
    obtain ⟨-, regs, -⟩ := turn x k
    exact (regs f m i id).trans hx

theorem Dev.hvDisable_hv (d : Dev) (n : Fin 8) : (d.hvDisable n).chs[n].hv = { d.chs[n].hv with stage := .off, rxClosed := false } := by
  rw [Dev.hvDisable, Dev.abortSlot_hv, Dev.onCh_same]

/-- The first stage of a channel's trip (R237). -/
def Dev.tripFirst (d : Dev) (n : Fin 8) : Dev :=
  (((d.raise HV_STAT.PWR_TRIP n).onCh n (fun c => { c with hv := { c.hv with trip := 1 } })).forceCh n).fault 3

/-- The first stage of the trip of the total (R237). -/
def Dev.tripTotal (d : Dev) : Dev :=
  (d.eachCh (fun k d => ((d.raise HV_STAT.TOT_TRIP k).onCh k (fun c => { c with
      hv := { c.hv with totTrip := 1, totClr := false } })).forceCh k)).fault 3

theorem Dev.tripFirst_parts (d : Dev) (n : Fin 8) :
    let e := d.tripFirst n
    e.flag HV_STAT.PWR_TRIP n = true ∧ e.bit PORTER_FAULT.CAUSE 0 0 3 = true
      ∧ (∀ f m i, f.id ≠ HV_STAT.PWR_TRIP.id → f.id ≠ PORTER_FAULT.CAUSE.id → e.get f m i = d.get f m i)
      ∧ d.chsBut e n ∧ e.chs[n].hv = { d.chs[n].hv with trip := 1, rxClosed := false } := by
  obtain ⟨shown, regs, -, others, hv⟩ := Dev.tripped_parts (quiet := Dev.forceCh) (after := fun h => { h with rxClosed := false })
    (fun d n => (d.forceCh_parts n).1) (fun d n => (d.forceCh_parts n).2) HV_STAT.PWR_TRIP (by decide)
    (fun h => { h with trip := 1 }) d n
  refine ⟨(Dev.flag_of_get (Dev.fault_get _ _ _ _ _ (by decide))).trans shown, Dev.fault_latched _ 3 (by decide),
    fun f m i trip cause => (Dev.fault_get _ _ _ _ _ cause).trans (regs f m i trip), fun m diff => ?_, ?_⟩
  · rw [Dev.tripFirst, Dev.fault_chs]
    exact others m diff
  · rw [Dev.tripFirst, Dev.fault_chs]
    exact hv

theorem Dev.tripTotal_parts (d : Dev) :
    let e := d.tripTotal
    e.bit PORTER_FAULT.CAUSE 0 0 3 = true
      ∧ (∀ f m i, f.id ≠ HV_STAT.TOT_TRIP.id → f.id ≠ PORTER_FAULT.CAUSE.id → e.get f m i = d.get f m i)
      ∧ ∀ k : Fin 8, e.flag HV_STAT.TOT_TRIP k = true ∧ e.chs[k].hv = { d.chs[k].hv with totTrip := 1, totClr := false, rxClosed := false } := by
  obtain ⟨each, regs⟩ := Dev.trippedAll_parts (quiet := Dev.forceCh) (after := fun h => { h with rxClosed := false })
    (fun d n => (d.forceCh_parts n).1) (fun d n => (d.forceCh_parts n).2) HV_STAT.TOT_TRIP (by decide)
    (fun h => { h with totTrip := 1, totClr := false }) d
  refine ⟨Dev.fault_latched _ 3 (by decide), fun f m i trip cause => (Dev.fault_get _ _ _ _ _ cause).trans (regs f m i trip), fun k => ⟨?_, ?_⟩⟩
  · exact (Dev.flag_of_get (Dev.fault_get _ _ _ _ _ (by decide))).trans (each k).1
  · rw [Dev.tripTotal, Dev.fault_chs]
    exact (each k).2

theorem Dev.noneTripped_iff (d : Dev) : allCh.all (fun k => d.chs[k].hv.totTrip = 0) = true ↔ ∀ k : Fin 8, d.chs[k].hv.totTrip = 0 := by
  simp only [List.all_eq_true, decide_eq_true_eq]
  exact ⟨fun h k => h k (mem_allCh k), fun h k _ => h k⟩

theorem Dev.powerActs_cases (d : Dev) (n : Fin 8) (old : Nat) :
    ∃ f g : Dev, f = d.raiseIf (old < 3150 && 3150 ≤ d.chPower n) HV_STAT.PWR_WARN n
      ∧ g = (if 3500 ≤ d.chPower n && f.chs[n].hv.trip = 0 then f.tripFirst n else f)
      ∧ d.powerActs n old = if 24000 ≤ d.totPower && allCh.all (fun k => g.chs[k].hv.totTrip = 0) then g.tripTotal else g :=
  ⟨_, _, rfl, rfl, rfl⟩

/-- What the estimates cause after a sample (R237). -/
theorem Dev.powerActs_parts (d : Dev) (n : Fin 8) (old : Nat) :
    let e := d.powerActs n old
    (∀ f m i, f.id ≠ HV_STAT.PWR_WARN.id → f.id ≠ HV_STAT.PWR_TRIP.id → f.id ≠ HV_STAT.TOT_TRIP.id → f.id ≠ PORTER_FAULT.CAUSE.id →
        e.get f m i = d.get f m i)
      ∧ (∀ k : Fin 8, e.chs[k].hv.pAvg = d.chs[k].hv.pAvg)
      ∧ (old < 3150 → 3150 ≤ d.chPower n → e.flag HV_STAT.PWR_WARN n = true)
      ∧ (3500 ≤ d.chPower n → d.chs[n].hv.trip = 0 →
          e.flag HV_STAT.PWR_TRIP n = true ∧ e.chs[n].hv.trip = 1 ∧ e.bit PORTER_FAULT.CAUSE 0 0 3 = true)
      ∧ (d.chPower n < 3500 → e.chs[n].hv.trip = d.chs[n].hv.trip)
      ∧ (24000 ≤ d.totPower → (∀ k : Fin 8, d.chs[k].hv.totTrip = 0) → e.bit PORTER_FAULT.CAUSE 0 0 3 = true
          ∧ ∀ k : Fin 8, e.flag HV_STAT.TOT_TRIP k = true ∧ e.chs[k].hv.totTrip = 1)
      ∧ (d.totPower < 24000 → d.chsBut e n) := by
  obtain ⟨f, g, warned, tripped, acts⟩ := d.powerActs_cases n old
  have warn : f.chs = d.chs ∧ (old < 3150 → 3150 ≤ d.chPower n → f.flag HV_STAT.PWR_WARN n = true)
      ∧ ∀ k m i, k.id ≠ HV_STAT.PWR_WARN.id → f.get k m i = d.get k m i := by
    rw [warned]
    unfold Dev.raiseIf
    split
    · exact ⟨rfl, fun _ _ => d.flag_raise_same _ _ _ (by decide), fun k m i id => d.get_set_id _ _ _ _ _ _ _ (Ne.symm id)⟩
    case isFalse no => exact ⟨rfl, fun low high => absurd (by simp [low, high]) no, fun _ _ _ _ => rfl⟩
  obtain ⟨fchs, warns, fregs⟩ := warn
  have first : d.chsBut g n
      ∧ (∃ t rx, g.chs[n].hv = { d.chs[n].hv with trip := t, rxClosed := rx } ∧ (3500 ≤ d.chPower n → d.chs[n].hv.trip = 0 → t = 1)
          ∧ (d.chPower n < 3500 → t = d.chs[n].hv.trip))
      ∧ (3500 ≤ d.chPower n → d.chs[n].hv.trip = 0 → g.flag HV_STAT.PWR_TRIP n = true ∧ g.bit PORTER_FAULT.CAUSE 0 0 3 = true)
      ∧ ∀ k m i, k.id ≠ HV_STAT.PWR_TRIP.id → k.id ≠ PORTER_FAULT.CAUSE.id → g.get k m i = f.get k m i := by
    simp only [fchs, Bool.and_eq_true, decide_eq_true_eq] at tripped
    by_cases trips : 3500 ≤ d.chPower n ∧ d.chs[n].hv.trip = 0
    · rw [tripped, if_pos trips]
      obtain ⟨shown, cause, regs, others, hv⟩ := f.tripFirst_parts n
      refine ⟨fun m diff => (others m diff).trans (by rw [fchs]), ⟨1, false, by rw [hv, fchs], fun _ _ => rfl,
        fun low => absurd trips.1 (Nat.not_le.mpr low)⟩, fun _ _ => ⟨shown, cause⟩, regs⟩
    · rw [tripped, if_neg trips]
      exact ⟨fun m diff => by rw [fchs], ⟨d.chs[n].hv.trip, d.chs[n].hv.rxClosed, by rw [fchs], fun high idle => absurd ⟨high, idle⟩ trips, fun _ => rfl⟩,
        fun high idle => absurd ⟨high, idle⟩ trips, fun _ _ _ _ _ => rfl⟩
  obtain ⟨others, ⟨t, rx, hv, trip, stays⟩, causes, gregs⟩ := first
  have avg (k : Fin 8) : g.chs[k].hv.pAvg = d.chs[k].hv.pAvg := by
    by_cases mine : k = n
    · rw [mine, hv]
    · rw [others k mine]
  have tot (k : Fin 8) : g.chs[k].hv.totTrip = d.chs[k].hv.totTrip := by
    by_cases mine : k = n
    · rw [mine, hv]
    · rw [others k mine]
  dsimp only
  rw [acts]
  simp only [Bool.and_eq_true, decide_eq_true_eq, Dev.noneTripped_iff, tot]
  split
  case isTrue trips =>
    obtain ⟨cause, regs, each⟩ := g.tripTotal_parts
    refine ⟨fun k m i warn trip tot cause => (regs k m i tot cause).trans ((gregs k m i trip cause).trans (fregs k m i warn)), fun k => ?_,
      fun low high => ?_, fun high idle => ⟨?_, ?_, cause⟩, fun low => ?_, fun _ _ => ⟨cause, fun k => ⟨(each k).1, ?_⟩⟩,
      fun low => absurd trips.1 (Nat.not_le.mpr low)⟩
    · rw [(each k).2]
      exact avg k
    · exact (Dev.flag_of_get (regs _ _ _ (by decide) (by decide))).trans ((Dev.flag_of_get (gregs _ _ _ (by decide) (by decide))).trans (warns low high))
    · exact (Dev.flag_of_get (regs _ _ _ (by decide) (by decide))).trans (causes high idle).1
    · rw [(each n).2, hv]
      exact trip high idle
    · rw [(each n).2, hv]
      exact stays low
    · rw [(each k).2]
  case isFalse no =>
    refine ⟨fun k m i warn trip _ cause => (gregs k m i trip cause).trans (fregs k m i warn), avg,
      fun low high => (Dev.flag_of_get (gregs _ _ _ (by decide) (by decide))).trans (warns low high),
      fun high idle => ⟨(causes high idle).1, ?_, (causes high idle).2⟩, fun low => ?_, fun high idle => absurd ⟨high, idle⟩ no, fun _ => others⟩
    · rw [hv]
      exact trip high idle
    · rw [hv]
      exact stays low

/-! ### The second stage and the release -/

theorem Dev.tripSecond_parts (d : Dev) (n : Fin 8) :
    (3500 ≤ d.chPower n → d.chs[n].hv.trip = 1 → (d.tripSecond n false).flag HV_STAT.PWR_TRIP n = true
        ∧ (d.tripSecond n false).chs[n].hv = { d.chs[n].hv with trip := 2, stage := .off, rxClosed := false }
        ∧ (d.tripSecond n false).bit PORTER_FAULT.CAUSE 0 0 3 = true ∧ d.chsBut (d.tripSecond n false) n)
      ∧ (24000 ≤ d.totPower → d.chs[n].hv.totTrip = 1 → (d.tripSecond n true).bit PORTER_FAULT.CAUSE 0 0 3 = true
        ∧ ∀ k : Fin 8, (d.tripSecond n true).flag HV_STAT.TOT_TRIP k = true
            ∧ (d.tripSecond n true).chs[k].hv = { d.chs[k].hv with totTrip := 2, stage := .off, rxClosed := false }) := by
  constructor
  · intro high first
    have eq : d.tripSecond n false
        = (((d.raise HV_STAT.PWR_TRIP n).onCh n (fun c => { c with hv := { c.hv with trip := 2 } })).hvDisable n).fault 3 :=
      (if_neg (by decide)).trans (if_pos (by rw [first]; simpa using high))
    obtain ⟨shown, -, -, others, hv⟩ := Dev.tripped_parts (quiet := Dev.hvDisable) (after := fun h => { h with stage := .off, rxClosed := false })
      Dev.hvDisable_onlyCh Dev.hvDisable_hv HV_STAT.PWR_TRIP (by decide) (fun h => { h with trip := 2 }) d n
    rw [eq, Dev.chsBut, Dev.fault_chs]
    exact ⟨(Dev.flag_of_get (Dev.fault_get _ _ _ _ _ (by decide))).trans shown, hv, Dev.fault_latched _ 3 (by decide), others⟩
  · intro high first
    have eq : d.tripSecond n true = (d.eachCh (fun k d => ((d.raise HV_STAT.TOT_TRIP k).onCh k (fun c =>
        { c with hv := { c.hv with totTrip := 2 } })).hvDisable k)).fault 3 :=
      (if_pos rfl).trans (if_pos (by rw [first]; simpa using high))
    obtain ⟨each, -⟩ := Dev.trippedAll_parts (quiet := Dev.hvDisable) (after := fun h => { h with stage := .off, rxClosed := false })
      Dev.hvDisable_onlyCh Dev.hvDisable_hv HV_STAT.TOT_TRIP (by decide) (fun h => { h with totTrip := 2 }) d
    rw [eq, Dev.fault_chs]
    exact ⟨Dev.fault_latched _ 3 (by decide), fun k => ⟨(Dev.flag_of_get (Dev.fault_get _ _ _ _ _ (by decide))).trans (each k).1, (each k).2⟩⟩

/-- A trip of the total is taken back on every channel (R237). -/
theorem Dev.totalReleased_parts (d : Dev) :
    let e := d.eachCh (fun k d => d.onCh k (fun c => { c with hv := { c.hv with totTrip := 0, totClr := false } }))
    e.regs = d.regs ∧ ∀ k : Fin 8, e.chs[k].hv = { d.chs[k].hv with totTrip := 0, totClr := false } := by
  have each := Dev.eachCh_onlyCh (f := fun k d => d.onCh k (fun c => { c with hv := { c.hv with totTrip := 0, totClr := false } }))
    (fun k d => d.onlyCh_onCh k _) d
  refine ⟨Dev.onlyChs_regs (each 0).1, fun k => ?_⟩
  obtain ⟨-, e, -, mine, made⟩ := each k
  rw [made, Dev.onCh_same, mine]

/-- The release of a channel's own trip (R237). -/
def Dev.ownTripClr (d : Dev) (n : Fin 8) : Dev :=
  if d.chPower n < 2800 then d.onCh n (fun c => { c with hv := { c.hv with trip := 0 } }) else d

theorem Dev.ownTripClr_parts (d : Dev) (n : Fin 8) :
    (d.ownTripClr n).regs = d.regs ∧ d.chsBut (d.ownTripClr n) n
      ∧ (d.ownTripClr n).chs[n].hv = { d.chs[n].hv with trip := if d.chPower n < 2800 then 0 else d.chs[n].hv.trip } := by
  unfold Dev.ownTripClr
  by_cases low : d.chPower n < 2800
  · rw [if_pos low, if_pos low, Dev.onCh_same]
    exact ⟨rfl, d.onCh_chsBut n _, rfl⟩
  · rw [if_neg low, if_neg low]
    exact ⟨rfl, fun _ _ => rfl, rfl⟩

/-- A channel's own trip released leaves what belongs to the total. -/
theorem Dev.ownTripClr_total (d : Dev) (n k : Fin 8) :
    (d.ownTripClr n).chs[k].hv.totTrip = d.chs[k].hv.totTrip ∧ (d.ownTripClr n).chs[k].hv.totClr = d.chs[k].hv.totClr
      ∧ (d.ownTripClr n).chs[k].hv.pAvg = d.chs[k].hv.pAvg := by
  obtain ⟨-, others, mine⟩ := d.ownTripClr_parts n
  by_cases at_ : k = n
  · rw [at_, mine]
    exact ⟨rfl, rfl, rfl⟩
  · rw [others k at_]
    exact ⟨rfl, rfl, rfl⟩

/-- The release of the trip of the total, once every channel's has been released (R237; log entry 20). -/
def Dev.totalTripClr (d : Dev) (n : Fin 8) : Dev :=
  if d.totPower < 19200 && d.chs[n].hv.totTrip ≠ 0 then
    let d := d.onCh n (fun c => { c with hv := { c.hv with totClr := true } })
    if allCh.all (fun k => d.chs[k].hv.totTrip = 0 || d.chs[k].hv.totClr) then
      d.eachCh (fun k d => d.onCh k (fun c => { c with hv := { c.hv with totTrip := 0, totClr := false } }))
    else d
  else d

theorem Dev.totalTripClr_parts (d : Dev) (n : Fin 8) :
    (d.totalTripClr n).regs = d.regs ∧ (∀ k : Fin 8, (d.totalTripClr n).chs[k].hv.trip = d.chs[k].hv.trip)
      ∧ (19200 ≤ d.totPower → d.totalTripClr n = d)
      ∧ (d.totPower < 19200 → d.chs[n].hv.totTrip ≠ 0 → (∀ k : Fin 8, k ≠ n → d.chs[k].hv.totTrip = 0 ∨ d.chs[k].hv.totClr = true) →
          ∀ k : Fin 8, (d.totalTripClr n).chs[k].hv.totTrip = 0) := by
  unfold Dev.totalTripClr
  by_cases clears : d.totPower < 19200 ∧ d.chs[n].hv.totTrip ≠ 0
  · rw [if_pos (by simpa using clears)]
    have regs : (d.onCh n (fun c => { c with hv := { c.hv with totClr := true } })).regs = d.regs := rfl
    have others : d.chsBut (d.onCh n (fun c => { c with hv := { c.hv with totClr := true } })) n := d.onCh_chsBut n _
    have mine : (d.onCh n (fun c => { c with hv := { c.hv with totClr := true } })).chs[n].hv = { d.chs[n].hv with totClr := true } := by
      rw [Dev.onCh_same]
    dsimp only
    generalize d.onCh n (fun c => { c with hv := { c.hv with totClr := true } }) = f at *
    have trips (k : Fin 8) : f.chs[k].hv.trip = d.chs[k].hv.trip := by
      by_cases own : k = n
      · rw [own, mine]
      · rw [others k own]
    obtain ⟨same, each⟩ := f.totalReleased_parts
    have every : allCh.all (fun k => decide (f.chs[k].hv.totTrip = 0) || f.chs[k].hv.totClr) = true
        ↔ ∀ k : Fin 8, f.chs[k].hv.totTrip = 0 ∨ f.chs[k].hv.totClr = true := by
      simp only [List.all_eq_true, Bool.or_eq_true, decide_eq_true_eq]
      exact ⟨fun h k => h k (mem_allCh k), fun h k _ => h k⟩
    refine ⟨?_, fun k => ?_, fun high => absurd clears.1 (Nat.not_lt.mpr high), fun _ _ all k => ?_⟩
    · split
      · exact same.trans regs
      · exact regs
    · split
      · rw [each]
        exact trips k
      · exact trips k
    · rw [if_pos (every.mpr (fun k => ?_)), each]
      by_cases own : k = n
      · exact .inr (by rw [own, mine])
      · rw [others k own]
        exact all k own
  · rw [if_neg (by simpa using clears)]
    exact ⟨rfl, fun _ => rfl, fun _ => rfl, fun low tripped => absurd ⟨low, tripped⟩ clears⟩

theorem Dev.tripClr_eq (d : Dev) (n : Fin 8) : d.tripClr n = (d.ownTripClr n).totalTripClr n := rfl

/-- Settles O21. -/
theorem powerTrips : Obligations.PowerTrips := by
  intro s n
  dsimp only
  refine ⟨fun x => ⟨_, rfl, ?_⟩, fun high first => ⟨s.dev.tripSecond n false, rfl, ?_⟩, fun no => ?_, fun high first => ⟨s.dev.tripSecond n true, rfl, ?_⟩,
    fun no => ?_, ⟨s.dev.tripClr n, rfl, ?_⟩⟩
  · obtain ⟨only, free, inSlot, hv, -⟩ := s.dev.loadSample_parts n x.v.toInt x.i.toInt
    generalize s.dev.loadSample n x.v.toInt x.i.toInt = f at *
    obtain ⟨chs, own, total, -⟩ := f.powerShow_parts n
    have same := Dev.power_of_avg (d := f) (e := f.powerShow n) (fun k => by rw [chs])
    generalize f.powerShow n = g at *
    obtain ⟨regs, avg, warns, trips, stays, totals, alone⟩ := g.powerActs_parts n (s.dev.chPower n)
    have power := Dev.power_of_avg avg
    generalize g.powerActs n (s.dev.chPower n) = e at *
    have ch : e.chPower n = f.chPower n := (power.1 n).trans (same.1 n)
    have tot : e.totPower = f.totPower := power.2.trans same.2
    have mine (k : Fin 8) : f.chs[k].hv.trip = s.dev.chs[k].hv.trip ∧ f.chs[k].hv.totTrip = s.dev.chs[k].hv.totTrip := by
      by_cases at_ : k = n
      · rw [at_, hv]
        exact ⟨rfl, rfl⟩
      · rw [only.2 k at_]
        exact ⟨rfl, rfl⟩
    simp only [chs, mine] at trips stays totals
    rw [ch, tot]
    rw [same.1] at warns trips stays
    rw [same.2] at totals alone
    refine ⟨fun none => ?_, inSlot, fun fits => ?_, warns, trips, stays, fun fits k => ?_, totals, fun low m diff => ?_⟩
    · rw [avg, chs]
      exact free none
    · rw [regs _ _ _ (by decide) (by decide) (by decide) (by decide), own fits]
    · rw [regs _ _ _ (by decide) (by decide) (by decide) (by decide), total fits]
    · rw [alone low m diff, chs]
      exact only.2 m diff
  · obtain ⟨shown, hv, fault, others⟩ := (s.dev.tripSecond_parts n).1 high first
    exact ⟨shown, by rw [hv], by rw [hv], fault, others⟩
  · refine s.next_of_eq ((if_neg (by decide)).trans (if_neg ?_))
    rcases no with low | trip
    · simp [Nat.not_le.mpr low]
    · simpa using fun _ => trip
  · obtain ⟨fault, each⟩ := (s.dev.tripSecond_parts n).2 high first
    exact ⟨fault, fun k => ⟨(each k).1, by rw [(each k).2], by rw [(each k).2]⟩⟩
  · refine s.next_of_eq ((if_pos rfl).trans (if_neg ?_))
    rcases no with low | trip
    · simp [Nat.not_le.mpr low]
    · simpa using fun _ => trip
  · obtain ⟨regs, others, mine⟩ := s.dev.ownTripClr_parts n
    have other := s.dev.ownTripClr_total n
    rw [Dev.tripClr_eq]
    generalize s.dev.ownTripClr n = f at *
    obtain ⟨same, trips, high, low⟩ := f.totalTripClr_parts n
    have power := (Dev.power_of_avg (fun k => (other k).2.2)).2
    rw [power] at high low
    refine ⟨same.trans regs, ?_, fun k diff => ?_, fun h k => ?_, fun l tripped released => low l ?_ (fun k diff => ?_)⟩
    · rw [trips, mine]
    · rw [trips, others k diff]
    · rw [high h]
      exact (other k).1
    · rwa [(other n).1]
    · rw [(other k).1, (other k).2.1]
      exact released k diff

end Sys2Proof.Machine
end

section
/-!
PROOF. The settings of the Sieve (R242, R249 to R251).
-/
namespace Sys2Proof.Machine
open Reg

theorem Dev.sieveRun_parts (d : Dev) (n : Fin 8) (on : Bool) :
    let e := d.sieveRun n on
    e.flag SIEVE_CTRL.RUN n = on ∧ d.regsBut e [SIEVE_CTRL.RUN.at n] ∧ d.chsBut e n
      ∧ e.chs[n] = { d.chs[n] with sieve := { d.chs[n].sieve with want := some on } } := by
  unfold Dev.sieveRun
  refine ⟨d.flag_set_bool _ _ _ _ (by decide), Dev.regsBut_set _ _ _ _ (d.regsBut_refl _) (by simp), fun m diff => Dev.onCh_chsBut _ n _ m diff, ?_⟩
  rw [Dev.onCh_same]
  rfl

/-! ### The register that a number names -/

theorem sieveRegOf_cfg (r : Fin 73) (k : Nat) (eq : r.val = k) (low : k < 4) : sieveRegOf r = .cfg ⟨k, low⟩ := by
  subst eq
  exact dif_pos low

theorem sieveRegOf_settle (r : Fin 73) (k : Nat) (eq : r.val = 4 + k) (low : k < 4) : sieveRegOf r = .settle ⟨k, low⟩ := by
  unfold sieveRegOf
  rw [dif_neg (by omega), if_pos (by omega), eq, Nat.add_sub_cancel_left]
  exact congrArg _ (Fin.ext (Nat.mod_eq_of_lt low))

theorem sieveRegOf_gd (r : Fin 73) (k : Nat) (eq : r.val = 8 + k) (low : k < 4) : sieveRegOf r = .gd ⟨k, low⟩ := by
  unfold sieveRegOf
  rw [dif_neg (by omega), if_neg (by omega), if_pos (by omega), eq, Nat.add_sub_cancel_left]
  exact congrArg _ (Fin.ext (Nat.mod_eq_of_lt low))

theorem sieveRegOf_mode (r : Fin 73) (eq : r.val = 12) : sieveRegOf r = .mode := by
  unfold sieveRegOf
  rw [dif_neg (by omega), if_neg (by omega), if_neg (by omega), if_pos eq]

/-- The sections' coefficients stand five by five. -/
theorem sieveRegOf_coef (r : Fin 73) (i : Nat) (eq : r.val = 13 + i) :
    ∃ (s : Fin 12) (c : Fin 5), sieveRegOf r = .coef s c ∧ s.val * 5 + c.val = i := by
  have bound := r.isLt
  refine ⟨Fin.ofNat 12 (i / 5), Fin.ofNat 5 (i % 5), ?_, ?_⟩
  · unfold sieveRegOf
    rw [dif_neg (by omega), if_neg (by omega), if_neg (by omega), if_neg (by omega), eq, Nat.add_sub_cancel_left]
  · show i / 5 % 12 * 5 + i % 5 % 5 = i
    omega

/-! ### What a configuration write takes -/

theorem Dev.sieveCfg_running (d : Dev) (n : Nat) (r : SieveReg) (w : Nat) (runs : d.flag SIEVE_STAT.RUNNING n = true) :
    d.sieveCfg n r w = d.raise SIEVE_STAT.CFG_REJ n := if_pos runs

/-- A tap's configuration is taken field by field. -/
theorem Dev.tapCfg_taken (d : Dev) (n k w : Nat) :
    let e := ((((((d.set TAPk_CFG.SRC n k (bitsOf w 31 1)).set TAPk_CFG.CIC_N n k (bitsOf w 29 2)).set TAPk_CFG.DEC n k (bitsOf w 16 13)).set
      TAPk_CFG.SOS_BASE n k (bitsOf w 8 4)).set TAPk_CFG.SOS_NUM n k (bitsOf w 4 4)).set TAPk_CFG.EN n k (bitsOf w 0 1))
    e.get TAPk_CFG.SRC n k = bitsOf w 31 1 ∧ e.get TAPk_CFG.CIC_N n k = bitsOf w 29 2 ∧ e.get TAPk_CFG.DEC n k = bitsOf w 16 13
      ∧ e.get TAPk_CFG.SOS_BASE n k = bitsOf w 8 4 ∧ e.get TAPk_CFG.SOS_NUM n k = bitsOf w 4 4 ∧ e.get TAPk_CFG.EN n k = bitsOf w 0 1
      ∧ d.onlyRegs e [TAPk_CFG.SRC.at n k, TAPk_CFG.CIC_N.at n k, TAPk_CFG.DEC.at n k, TAPk_CFG.SOS_BASE.at n k,
          TAPk_CFG.SOS_NUM.at n k, TAPk_CFG.EN.at n k] := by
  have only := Dev.onlyRegs_set TAPk_CFG.EN n k (bitsOf w 0 1) (Dev.onlyRegs_set TAPk_CFG.SOS_NUM n k (bitsOf w 4 4) (Dev.onlyRegs_set TAPk_CFG.SOS_BASE n k (bitsOf w 8 4)
    (Dev.onlyRegs_set TAPk_CFG.DEC n k (bitsOf w 16 13) (Dev.onlyRegs_set TAPk_CFG.CIC_N n k (bitsOf w 29 2) (Dev.onlyRegs_set TAPk_CFG.SRC n k (bitsOf w 31 1)
      (d.onlyRegs_refl [TAPk_CFG.SRC.at n k, TAPk_CFG.CIC_N.at n k, TAPk_CFG.DEC.at n k, TAPk_CFG.SOS_BASE.at n k, TAPk_CFG.SOS_NUM.at n k, TAPk_CFG.EN.at n k])
      (by simp)) (by simp)) (by simp)) (by simp)) (by simp)) (by simp)
  have fits (x lo width : Nat) : bitsOf x lo width % 2 ^ width = bitsOf x lo width := Nat.mod_mod _ _
  simp (disch := decide) only [Dev.get_set_id, Dev.get_set_same]
  exact ⟨fits w 31 1, fits w 29 2, fits w 16 13, fits w 8 4, fits w 4 4, fits w 0 1, only⟩

theorem Dev.sieveCfg_cfg (d : Dev) (n w : Nat) (k : Fin 4) (stands : d.flag SIEVE_STAT.RUNNING n = false) :
    d.sieveCfg n (.cfg k) w = if bitsOf w 16 13 = 0 ∨ 4096 < bitsOf w 16 13 ∨ bitsOf w 29 2 = 0 then d.raise SIEVE_STAT.CFG_REJ n
      else ((((((d.set TAPk_CFG.SRC n k (bitsOf w 31 1)).set TAPk_CFG.CIC_N n k (bitsOf w 29 2)).set TAPk_CFG.DEC n k (bitsOf w 16 13)).set
        TAPk_CFG.SOS_BASE n k (bitsOf w 8 4)).set TAPk_CFG.SOS_NUM n k (bitsOf w 4 4)).set TAPk_CFG.EN n k (bitsOf w 0 1)) := by
  unfold Dev.sieveCfg
  rw [if_neg (by rw [stands]; decide)]
  simp only [Bool.or_eq_true, decide_eq_true_eq, or_assoc]

/-- The other settings are each one or two fields. -/
theorem Dev.sieveCfg_plain (d : Dev) (n w : Nat) (r : SieveReg) (stands : d.flag SIEVE_STAT.RUNNING n = false) (plain : ∀ k, r ≠ .cfg k) :
    d.sieveCfg n r w = match r with
      | .cfg _ => d
      | .settle k => d.set TAPk_SETTLE.SETTLE n k (bitsOf w 0 16)
      | .gd k => (d.set TAPk_GD.SRC_USER n k (bitsOf w 31 1)).set TAPk_GD.USER n k (bitsOf w 0 28)
      | .mode => d.set SIEVE_CTRL.SETTLE_MODE n 0 (w % 2)
      | .coef s c => d.set SOSs_c.COEF n (s * 5 + c) w := by
  unfold Dev.sieveCfg
  rw [if_neg (by rw [stands]; decide)]
  cases r with
  | cfg k => exact absurd rfl (plain k)
  | settle => rfl
  | gd => rfl
  | mode => rfl
  | coef => rfl

/-- Settles O22. -/
theorem sieveSettings : Obligations.SieveSettings := by
  constructor
  · intro s n
    dsimp only
    exact ⟨fun w => ⟨_, rfl, rfl, s.dev.onCh_chsBut n _, s.dev.onCh_same n (fun c => { c with sieve := { c.sieve with snsNext := some w.toNat } })⟩,
      ⟨_, rfl, s.dev.sieveRun_parts n true⟩, ⟨_, rfl, s.dev.sieveRun_parts n false⟩⟩
  · intro s n w
    dsimp only
    have runs (r : Fin 73) : exec (.sieveCfgWrite n r w) s = .next (s.withDev (s.dev.sieveCfg n (sieveRegOf r) w.toNat)) := rfl
    refine ⟨fun running r => ⟨_, s.next_of_eq (s.dev.sieveCfg_running n _ _ running), Dev.flag_raise_same _ _ _ _ (by decide), s.dev.raise_onlyRegs _ _ _⟩,
      fun stands => ⟨fun r k eq low => ?_, fun r k eq low => ?_, fun r k eq low => ?_, fun r eq => ?_, fun r i eq => ?_⟩⟩
    · have took := s.dev.sieveCfg_cfg n w.toNat ⟨k, low⟩ stands
      rw [runs, sieveRegOf_cfg r k eq low, took]
      split
      · exact ⟨_, rfl, Dev.flag_raise_same _ _ _ _ (by decide), s.dev.raise_onlyRegs _ _ _⟩
      · exact ⟨_, rfl, s.dev.tapCfg_taken n k w.toNat⟩
    · rw [runs, sieveRegOf_settle r k eq low, s.dev.sieveCfg_plain n w.toNat _ stands (fun _ => SieveReg.noConfusion)]
      exact ⟨_, rfl, s.dev.get_set_bitsOf _ _ _ _ _, Dev.onlyRegs_set _ _ _ _ (Dev.onlyRegs_refl _ _) (by simp)⟩
    · rw [runs, sieveRegOf_gd r k eq low, s.dev.sieveCfg_plain n w.toNat _ stands (fun _ => SieveReg.noConfusion)]
      exact ⟨_, rfl, (Dev.get_set_id _ _ _ _ _ _ _ _ (by decide)).trans (s.dev.get_set_bitsOf _ _ _ _ _), Dev.get_set_bitsOf _ _ _ _ _ _,
        Dev.onlyRegs_set _ _ _ _ (Dev.onlyRegs_set _ _ _ _ (Dev.onlyRegs_refl _ _) (by simp)) (by simp)⟩
    · rw [runs, sieveRegOf_mode r eq, s.dev.sieveCfg_plain n w.toNat _ stands (fun _ => SieveReg.noConfusion)]
      exact ⟨_, rfl, (s.dev.get_set_same _ _ _ _).trans (Nat.mod_mod_of_dvd _ (by decide)), Dev.onlyRegs_set _ _ _ _ (Dev.onlyRegs_refl _ _) (by simp)⟩
    · obtain ⟨sec, c, reg, place⟩ := sieveRegOf_coef r i eq
      rw [runs, reg, s.dev.sieveCfg_plain n w.toNat _ stands (fun _ => SieveReg.noConfusion)]
      dsimp only
      rw [place]
      exact ⟨_, rfl, s.dev.get_set_same _ _ _ _, Dev.onlyRegs_set _ _ _ _ (Dev.onlyRegs_refl _ _) (by simp)⟩

end Sys2Proof.Machine
end

section
/-!
PROOF. Comparators, capture settings, blocks and outputs of the taps (R247, R253, R257, R262 to R271, R529).
-/
namespace Sys2Proof.Machine
open Reg

/-! ### Settings -/

theorem Dev.cmpWrite_ctrl (d : Dev) (n k w : Nat) (legal : bitsOf w 0 2 ≠ 3) :
    let e := d.cmpWrite n k true w
    e.get CMPk_CTRL.MODE n k = bitsOf w 0 2 ∧ e.flag CMPk_CTRL.ARMED n k = false
      ∧ (bitAt w 16 = true → e.flag CMPk_CTRL.TRIP n k = false) ∧ (bitAt w 16 = false → e.get CMPk_CTRL.TRIP n k = d.get CMPk_CTRL.TRIP n k)
      ∧ d.onlyRegs e [CMPk_CTRL.MODE.at n k, CMPk_CTRL.ARMED.at n k, CMPk_CTRL.TRIP.at n k] := by
  have eq : d.cmpWrite n k true w
      = ((if bitAt w 16 then d.clear CMPk_CTRL.TRIP n k else d).set CMPk_CTRL.MODE n k (bitsOf w 0 2)).clear CMPk_CTRL.ARMED n k :=
    (if_pos rfl).trans (if_neg legal)
  have trip : (bitAt w 16 = true → (if bitAt w 16 then d.clear CMPk_CTRL.TRIP n k else d).flag CMPk_CTRL.TRIP n k = false)
      ∧ (bitAt w 16 = false → (if bitAt w 16 then d.clear CMPk_CTRL.TRIP n k else d).get CMPk_CTRL.TRIP n k = d.get CMPk_CTRL.TRIP n k)
      ∧ d.onlyRegs (if bitAt w 16 then d.clear CMPk_CTRL.TRIP n k else d) [CMPk_CTRL.MODE.at n k, CMPk_CTRL.ARMED.at n k, CMPk_CTRL.TRIP.at n k] := by
    split
    case isTrue acks =>
      exact ⟨fun _ => by simp [Dev.clear, Dev.flag], fun no => absurd acks (by rw [no]; decide), Dev.onlyRegs_set _ _ _ _ (d.onlyRegs_refl _) (by simp)⟩
    case isFalse no => exact ⟨fun acks => absurd acks no, fun _ => rfl, d.onlyRegs_refl _⟩
  rw [eq]
  generalize (if bitAt w 16 then d.clear CMPk_CTRL.TRIP n k else d) = f at *
  obtain ⟨acked, kept, only⟩ := trip
  refine ⟨?_, by simp [Dev.clear, Dev.flag], fun acks => ?_, fun no => ?_, ?_⟩
  · exact (Dev.get_set_id _ _ _ _ _ _ _ _ (by decide)).trans (f.get_set_bitsOf _ _ _ _ _)
  · exact (Dev.flag_of_get ((Dev.get_set_id _ _ _ _ _ _ _ _ (by decide)).trans (f.get_set_id _ _ _ _ _ _ _ (by decide)))).trans (acked acks)
  · exact ((Dev.get_set_id _ _ _ _ _ _ _ _ (by decide)).trans (f.get_set_id _ _ _ _ _ _ _ (by decide))).trans (kept no)
  · exact Dev.onlyRegs_set _ _ _ _ (Dev.onlyRegs_set _ _ _ _ only (by simp)) (by simp)

theorem Dev.cmpWrite_level (d : Dev) (n k w : Nat) (legal : ¬ signed 16 (bitsOf w 16 16) < signed 16 (bitsOf w 0 16)) :
    let e := d.cmpWrite n k false w
    e.get CMPk_LVL.HI n k = bitsOf w 16 16 ∧ e.get CMPk_LVL.LO n k = bitsOf w 0 16
      ∧ d.onlyRegs e [CMPk_LVL.HI.at n k, CMPk_LVL.LO.at n k] := by
  have eq : d.cmpWrite n k false w = (d.set CMPk_LVL.HI n k (bitsOf w 16 16)).set CMPk_LVL.LO n k (bitsOf w 0 16) :=
    (if_neg (by decide)).trans (if_neg legal)
  rw [eq]
  exact ⟨(Dev.get_set_id _ _ _ _ _ _ _ _ (by decide)).trans (d.get_set_bitsOf _ _ _ _ _), Dev.get_set_bitsOf _ _ _ _ _ _,
    Dev.onlyRegs_set _ _ _ _ (Dev.onlyRegs_set _ _ _ _ (d.onlyRegs_refl _) (by simp)) (by simp)⟩

theorem Dev.capWrite_cases (d : Dev) (n : Fin 8) (k w : Nat) (len : Bool) :
    ((if len then bitsOf w 0 18 = 0 else bitsOf w 0 2 = 3) → d.capWrite n k len w = d.raise SIEVE_STAT.CFG_REJ n)
      ∧ ((if len then bitsOf w 0 18 ≠ 0 else bitsOf w 0 2 ≠ 3) → (2 * k + (if len then 1 else 0), w) ∈ (d.capWrite n k len w).chs[n].sieve.capNext
          ∧ (d.capWrite n k len w).regs = d.regs ∧ d.chsBut (d.capWrite n k len w) n) := by
  refine ⟨fun bad => if_pos (by cases len <;> simpa using bad), fun fine => ?_⟩
  have eq : d.capWrite n k len w = d.onCh n (fun c => { c with sieve := { c.sieve with
      capNext := (c.sieve.capNext.filter (fun x => x.1 ≠ 2 * k + (if len then 1 else 0))) ++ [(2 * k + (if len then 1 else 0), w)] } }) :=
    if_neg (by cases len <;> simpa using fine)
  rw [eq]
  refine ⟨?_, rfl, d.onCh_chsBut n _⟩
  rw [Dev.onCh_same]
  simp

/-! ### A tap changed -/

/-- A change of one tap is seen in that tap alone. -/
theorem Dev.onTap_tap (d : Dev) (n : Fin 8) (k j : Nat) (f : Tap → Tap) (inside : k < d.chs[n].sieve.taps.length) :
    (d.onTap n k f).chs[n].tap j = if j = k then f (d.chs[n].tap k) else d.chs[n].tap j := by
  unfold Dev.onTap
  rw [Dev.onCh_same]
  show (d.chs[n].sieve.taps.set k (f (d.chs[n].tap k))).getD j {} = _
  by_cases same : j = k
  · rw [if_pos same, same, List.getD_set_same _ _ _ _ inside]
  · rw [if_neg same]
    simp [Chan.tap, List.getD, List.getElem?_set_ne (Ne.symm same)]

/-- What a change keeps of the tap, it keeps of every tap. -/
theorem Dev.onTap_keeps {α : Type} (d : Dev) (n : Fin 8) (k j : Nat) (f : Tap → Tap) (read : Tap → α) (same : ∀ t, read (f t) = read t) :
    read ((d.onTap n k f).chs[n].tap j) = read (d.chs[n].tap j) := by
  by_cases inside : k < d.chs[n].sieve.taps.length
  · rw [d.onTap_tap n k j f inside]
    split
    case isTrue eq => rw [same, eq]
    case isFalse => rfl
  · unfold Dev.onTap
    rw [Dev.onCh_same]
    show read ((d.chs[n].sieve.taps.set k (f (d.chs[n].tap k))).getD j {}) = _
    rw [List.set_eq_of_length_le (Nat.not_lt.mp inside)]
    rfl

/-! ### A capture block -/

/-- `e` is `d` but for registers, the Mason's notes, free numbers, firings, and the state of channel n. -/
def Dev.channelOnly (d e : Dev) (n : Fin 8) : Prop :=
  e = { d with regs := e.regs, chs := e.chs, mason := e.mason, fresh := e.fresh, ev := e.ev } ∧ d.chsBut e n

theorem Dev.channelOnly_refl (d : Dev) (n : Fin 8) : d.channelOnly d n := ⟨rfl, fun _ _ => rfl⟩

theorem Dev.channelOnly_trans {d e f : Dev} {n : Fin 8} (h : d.channelOnly e n) (k : e.channelOnly f n) : d.channelOnly f n := by
  refine ⟨?_, fun m diff => (k.2 m diff).trans (h.2 m diff)⟩
  rw [k.1, h.1]

theorem Dev.channelOnly_onCh (d : Dev) (n : Fin 8) (f : Chan → Chan) : d.channelOnly (d.onCh n f) n := ⟨rfl, d.onCh_chsBut n f⟩

theorem Dev.channelOnly_set (d : Dev) (n : Fin 8) (f : Fld) (m i v : Nat) : d.channelOnly (d.set f m i v) n := ⟨rfl, fun _ _ => rfl⟩

/-- The activation of a row touches the DRAM's records of its channel alone. -/
theorem Dev.activate_parts (d : Dev) (n : Fin 8) (a port : Nat) :
    d.channelOnly (d.activate n a port) n ∧ ∃ x, (d.activate n a port).chs[n] = { d.chs[n] with dram := x } := by
  have here : Fin.ofNat 8 n.val = n := Fin.ext (Nat.mod_eq_of_lt n.isLt)
  unfold Dev.activate
  extract_lets r row was k limit f g h
  have mine : ∃ x, f.chs[n] = { d.chs[n] with dram := x } := by
    simp only [f, here]
    rw [Dev.onCh_same]
    exact ⟨_, rfl⟩
  have first : d.channelOnly f n := ⟨rfl, fun m diff => Dev.onCh_other d _ m _ (by rw [here]; exact Ne.symm diff)⟩
  have raised : f.channelOnly g n ∧ g.chs = f.chs := by
    simp only [g]
    split
    · exact ⟨Dev.channelOnly_trans (f.channelOnly_set n _ _ _ _) (Dev.channelOnly_set _ n _ _ _ _), rfl⟩
    · exact ⟨f.channelOnly_refl n, rfl⟩
  have counted : g.channelOnly h n := Dev.channelOnly_trans (g.channelOnly_set n _ _ _ _) (Dev.channelOnly_set _ n _ _ _ _)
  have upto := Dev.channelOnly_trans first raised.1
  have dram : ∃ x, g.chs[n] = { d.chs[n] with dram := x } := raised.2 ▸ mine
  split
  · exact ⟨upto, dram⟩
  · split
    · exact ⟨Dev.channelOnly_trans upto counted, dram⟩
    · split
      · exact ⟨Dev.channelOnly_trans (Dev.channelOnly_trans upto counted) ⟨rfl, fun _ _ => rfl⟩, dram⟩
      · exact ⟨Dev.channelOnly_trans upto counted, dram⟩

/-- A capture access touches the DRAM's records of its channel alone. -/
theorem Dev.ringRequest_parts (d : Dev) (n : Fin 8) (a : Nat) :
    d.channelOnly (d.ringRequest n a) n ∧ ∃ x, (d.ringRequest n a).chs[n] = { d.chs[n] with dram := x } := by
  unfold Dev.ringRequest
  split
  · exact ⟨d.channelOnly_refl n, _, rfl⟩
  · have asked : d.channelOnly (d.request n (d.rankOf (a / 65536)) 3).freeBit.2 n := ⟨rfl, fun _ _ => rfl⟩
    have chs : (d.request n (d.rankOf (a / 65536)) 3).freeBit.2.chs[n] = d.chs[n] := rfl
    dsimp only
    generalize (d.request n (d.rankOf (a / 65536)) 3).freeBit.2 = e at *
    split
    · obtain ⟨only, x, made⟩ := e.activate_parts n a 3
      exact ⟨Dev.channelOnly_trans asked only, x, by rw [made, chs]⟩
    · exact ⟨asked, d.chs[n].dram, chs⟩

/-- The registers that the taps' captures may move. -/
def captureIds : List Nat := [CAPk_WR.WR.id, DMC_RANKr.PD.id, DMC_RANKr.SELF_REF.id, DMC_QOSp.LATE.id, DMC_STAT.HOT.id, DMC_UE.HOT.id,
  DMC_HOT.COUNT.id, DMC_HOT.LAST_PORT.id, CAPk_LOSS.COUNT.id, CAPk_CTRL.PEND.id, CMPk_CTRL.ARMED.id, CMPk_CTRL.TRIP.id]

/-- From `d` to `e` captures of channel n went on: no tap made an output, and no register but theirs moved. -/
def Dev.captures (d e : Dev) (n : Fin 8) : Prop :=
  d.channelOnly e n ∧ (∀ j, (e.chs[n].tap j).outs = (d.chs[n].tap j).outs) ∧ ∀ f m i, f.id ∉ captureIds → e.get f m i = d.get f m i

theorem Dev.captures_refl (d : Dev) (n : Fin 8) : d.captures d n := ⟨d.channelOnly_refl n, fun _ => rfl, fun _ _ _ _ => rfl⟩

theorem Dev.captures_trans {d e f : Dev} {n : Fin 8} (h : d.captures e n) (k : e.captures f n) : d.captures f n :=
  ⟨Dev.channelOnly_trans h.1 k.1, fun j => (k.2.1 j).trans (h.2.1 j), fun f m i out => (k.2.2 f m i out).trans (h.2.2 f m i out)⟩

theorem Dev.captures_set (d : Dev) (n : Fin 8) (f : Fld) (m i v : Nat) (isin : f.id ∈ captureIds) : d.captures (d.set f m i v) n :=
  ⟨d.channelOnly_set n _ _ _ _, fun _ => rfl, fun _ _ _ out => d.get_set_id _ _ _ _ _ _ _ (fun eq => out (eq ▸ isin))⟩

theorem Dev.captures_onTap (d : Dev) (n : Fin 8) (k : Nat) (f : Tap → Tap) (same : ∀ t, (f t).outs = t.outs) : d.captures (d.onTap n k f) n :=
  ⟨d.channelOnly_onCh n _, fun j => d.onTap_keeps n k j f Tap.outs same, fun _ _ _ _ => rfl⟩

theorem Dev.captures_ringRequest (d : Dev) (n : Fin 8) (a : Nat) : d.captures (d.ringRequest n a) n := by
  obtain ⟨only, x, mine⟩ := d.ringRequest_parts n a
  refine ⟨only, fun j => ?_, fun f m i out => d.ringRequest_regsBut n a f m i fun isin => out ?_⟩
  · rw [mine]
    rfl
  · simp only [requestKeys, hotKeys, Fld.at, List.cons_append, List.nil_append, List.mem_cons, List.not_mem_nil, or_false, Prod.mk.injEq] at isin
    rcases isin with ⟨h, -⟩ | ⟨h, -⟩ | ⟨h, -⟩ | ⟨h, -⟩ | ⟨h, -⟩ | ⟨h, -⟩ | ⟨h, -⟩ <;> rw [h] <;> decide

/-! ### Records and blocks -/

theorem captures_blockWrite (n : Fin 8) (k : Nat) (p : Dev × Memory) : p.1.captures (blockWrite n k p).1 n := by
  obtain ⟨d, m⟩ := p
  unfold blockWrite
  dsimp only
  split
  · exact d.captures_refl n
  · split
    · exact d.captures_refl n
    · exact Dev.captures_trans (d.captures_onTap n k _ (by intro; rfl)) (Dev.captures_trans (Dev.captures_ringRequest _ n _)
        (Dev.captures_set _ n _ _ _ _ (by decide)))

theorem captures_drain (n : Fin 8) (k need f : Nat) (p : Dev × Memory) : p.1.captures (drain n k need f p).1 n := by
  induction f generalizing p with
  | zero => exact p.1.captures_refl n
  | succ f ih =>
    unfold drain
    split
    · exact p.1.captures_refl n
    · exact Dev.captures_trans (captures_blockWrite n k p) (ih _)

theorem Tap.take_outs (t : Tap) (b : List (BitVec 8)) : (t.take b).outs = t.outs := by
  unfold Tap.take
  dsimp only
  split <;> rfl

theorem captures_endRecord (n : Fin 8) (k reason : Nat) (p : Dev × Memory) : p.1.captures (endRecord n k reason p).1 n := by
  obtain ⟨d, m⟩ := p
  unfold endRecord
  dsimp only
  split
  · exact d.captures_refl n
  · rename_i r _
    have ended (e : Dev) (h : List (BitVec 8)) : e.captures (e.onTap n k (fun t =>
        let t := { t with queue := if r.hdrAt.isNone then markHeader h t.queue else t.queue }
        let t := if t.part.isEmpty then t else t.take (List.replicate (64 - t.part.length) 0)
        { t with record := none })) n := by
      refine e.captures_onTap n k _ (fun t => ?_)
      dsimp only
      split
      · rfl
      · exact Tap.take_outs _ _
    split
    · exact Dev.captures_trans (d.captures_ringRequest n _) (ended _ _)
    · exact ended _ _

theorem captures_loseOutput (n : Fin 8) (k : Nat) (p : Dev × Memory) : p.1.captures (loseOutput n k p).1 n := by
  unfold loseOutput
  refine Dev.captures_trans (captures_endRecord n k 3 p) ?_
  generalize endRecord n k 3 p = q
  dsimp only
  refine Dev.captures_trans (q.1.captures_set n CAPk_LOSS.COUNT n k _ (by decide)) (Dev.captures_onTap _ n k _ (by intro; rfl))

theorem Dev.captures_free (d : Dev) (n : Fin 8) : d.captures d.free.2 n := ⟨⟨rfl, fun _ _ => rfl⟩, fun _ => rfl, fun _ _ _ _ => rfl⟩

theorem captures_sampleBytes (n : Fin 8) (k : Nat) (y : Int) (d : Dev) : d.captures (d.sampleBytes n k y).2 n := by
  unfold Dev.sampleBytes
  dsimp only
  split
  · exact d.captures_refl n
  · split
    · exact d.captures_refl n
    · exact d.captures_free n

theorem captures_addOutput (n : Fin 8) (k : Nat) (o : TapOut) (p : Dev × Memory) : p.1.captures (addOutput n k o p).1 n := by
  unfold addOutput
  split
  · exact p.1.captures_refl n
  · dsimp only
    have sampled := captures_sampleBytes n k o.y p.1
    generalize p.1.sampleBytes n k o.y = sb at *
    generalize made : Dev.onTap sb.2 n k _ = g
    have taken : sb.2.captures g n := by
      rw [← made]
      exact sb.2.captures_onTap n k _ (by intro t; exact Tap.take_outs t sb.1)
    split
    · exact Dev.captures_trans sampled (Dev.captures_trans taken (captures_endRecord n k 0 (g, p.2)))
    · exact Dev.captures_trans sampled taken

theorem Dev.captures_beginRecord (n : Fin 8) (k : Nat) (o : TapOut) (left : Nat) (trig : Option Nat) (d : Dev) :
    d.captures (beginRecord n k o left trig d) n := by
  unfold beginRecord
  exact d.captures_onTap n k _ (by intro; rfl)

theorem captures_roomFor (n : Fin 8) (k : Nat) (p : Dev × Memory) : p.1.captures (Dev.roomFor n k p).2.1 n := by
  unfold Dev.roomFor
  dsimp only
  generalize (if (p.1.chs[n].tap k).losing then 64 else p.1.capBytes n k) = need
  generalize (p.1.chs[n].tap k).queue.length = blocks
  refine Dev.captures_trans (captures_drain n k need blocks p) ?_
  exact Dev.captures_onTap _ n k _ (by intro; rfl)

theorem captures_putOutput (n : Fin 8) (k : Nat) (o : TapOut) (p : Dev × Memory) : p.1.captures (putOutput n k o p).1 n := by
  unfold putOutput
  split
  · exact captures_loseOutput n k p
  · rename_i r _
    dsimp only
    generalize (p.1.chs[n].tap k).crosses r.lastTs o.ts = cut
    have first : p.1.captures (if cut then endRecord n k 1 p else p).1 n := by
      split
      · exact captures_endRecord n k 1 p
      · exact p.1.captures_refl n
    generalize (if cut then endRecord n k 1 p else p) = q at *
    have room := Dev.captures_trans first (captures_roomFor n k q)
    generalize Dev.roomFor n k q = x at *
    split
    · exact Dev.captures_trans room (captures_loseOutput n k x.2)
    · refine Dev.captures_trans room ?_
      split
      · exact Dev.captures_trans (Dev.captures_beginRecord n k o _ none x.2.1) (captures_addOutput n k o (_, x.2.2))
      · exact captures_addOutput n k o (x.2.1, x.2.2)

theorem captures_triggered (n : Fin 8) (k : Nat) (o : TapOut) (p : Dev × Memory) : p.1.captures (triggered n k o p).1 n := by
  unfold triggered
  dsimp only
  exact foldl_keeps (fun q : Dev × Memory => p.1.captures q.1 n) (fun q x => putOutput n k x q) _ _
    (fun q x hq => Dev.captures_trans hq (captures_putOutput n k x q))
    (Dev.captures_trans (p.1.captures_onTap n k _ (by intro; rfl)) (Dev.captures_beginRecord n k _ _ _ _))

theorem captures_capture (n : Fin 8) (k : Nat) (o : TapOut) (p : Dev × Memory) : p.1.captures (capture n k o p).1 n := by
  unfold capture
  dsimp only
  split
  · exact p.1.captures_refl n
  · split
    · exact captures_putOutput n k o p
    · split
      · exact p.1.captures_refl n
      · have room := captures_roomFor n k p
        generalize Dev.roomFor n k p = q at room
        split
        · exact Dev.captures_trans room (captures_loseOutput n k _)
        · split
          · exact Dev.captures_trans room (Dev.captures_trans (Dev.captures_beginRecord n k o _ none _) (captures_addOutput n k o _))
          · split
            · exact Dev.captures_trans room (captures_triggered n k o _)
            · exact room

theorem Dev.captures_fireOn (d : Dev) (n : Fin 8) (code at_ : Nat) : d.captures (d.fireOn code at_) n :=
  ⟨⟨rfl, fun _ _ => rfl⟩, fun _ => rfl, fun _ _ _ _ => rfl⟩

theorem Dev.captures_compare (d : Dev) (n : Fin 8) (k newest : Nat) (y : Int) : d.captures (d.compare n k newest y) n := by
  unfold Dev.compare
  extract_lets v hi lo mode trips arms
  split
  · split
    · exact Dev.captures_trans (d.captures_set n CMPk_CTRL.ARMED n k _ (by decide)) (Dev.captures_trans
        (Dev.captures_set _ n CMPk_CTRL.TRIP n k _ (by decide)) (Dev.captures_fireOn _ n _ _))
    · exact d.captures_refl n
  · split
    · exact d.captures_set n CMPk_CTRL.ARMED n k _ (by decide)
    · exact d.captures_refl n

theorem Dev.captures_capFree (d : Dev) (n : Fin 8) (k : Nat) : d.captures (d.capFree n k) n := by
  unfold Dev.capFree
  dsimp only
  split
  · exact d.captures_refl n
  · exact Dev.captures_trans (d.captures_onTap n k _ (by intro; rfl)) (Dev.captures_set _ n CAPk_CTRL.PEND _ _ _ (by decide))

/-! ### An output of a tap -/

theorem Dev.newestOf_of {d e : Dev} (n : Fin 8) (k j : Nat) (regs : ∀ f m i, f.id ≠ SIEVE_STAT.A_OVR.id → f.id ≠ SIEVE_STAT.B_OVR.id → e.get f m i = d.get f m i)
    (chs : e.chs[n] = d.chs[n]) : e.newestOf n k j = d.newestOf n k j := by
  unfold Dev.newestOf Dev.tapPeriod Dev.tapB Dev.flag
  rw [chs, regs _ _ _ (by decide) (by decide), regs _ _ _ (by decide) (by decide)]

theorem tapOutput_parts (n : Fin 8) (k : Fin 4) (codes : SenseCodes) (d : Dev) (m : Memory) (four : d.chs[n].sieve.taps.length = 4) :
    let e := (tapOutput n k codes (d, m)).1
    (e.chs[n].tap k).outs = (d.chs[n].tap k).outs + 1 ∧ d.channelOnly e n
      ∧ e.bit SIEVE_STAT.SETTLING n 0 k = (d.chs[n].tap k).runs.any (fun r => decide (r.1 ≤ d.newestOf n k (d.chs[n].tap k).outs))
      ∧ ∀ f m i, f.id ∉ captureIds → f.id ≠ SIEVE_STAT.SAT.id → f.id ≠ SIEVE_STAT.SETTLING.id → e.get f m i = d.get f m i := by
  unfold tapOutput
  extract_lets d0 t dec xs c run newest q ts unset o d1 d2 d3 d4 d5 r e
  have stepped : (d1.chs[n].tap k).outs = (d.chs[n].tap k).outs + 1 ∧ d.channelOnly d1 n ∧ d1.regs = d.regs := by
    refine ⟨?_, Dev.channelOnly_trans (d.channelOnly_onCh n _) (Dev.channelOnly_onCh _ n _), rfl⟩
    have same : (d0.onCh n (fun c => { c with sieve := { c.sieve with sos := run.2.1 } })).chs[n]
        = { d.chs[n] with sieve := { d.chs[n].sieve with sos := run.2.1 } } := d.onCh_same n _
    have inside : k.val < (d0.onCh n (fun c => { c with sieve := { c.sieve with sos := run.2.1 } })).chs[n].sieve.taps.length := by
      rw [same]
      exact Nat.lt_of_lt_of_eq k.isLt four.symm
    simp only [d1]
    rw [Dev.onTap_tap _ _ _ _ _ inside, if_pos rfl]
    exact (congrArg (fun c : Chan => (c.tap k).outs + 1) same).trans rfl
  have marked : d1.channelOnly d3 n ∧ d3.chs = d1.chs ∧ d3.bit SIEVE_STAT.SETTLING n 0 k = unset
      ∧ ∀ f m i, f.id ≠ SIEVE_STAT.SAT.id → f.id ≠ SIEVE_STAT.SETTLING.id → d3.get f m i = d1.get f m i := by
    have sat : d1.channelOnly d2 n ∧ d2.chs = d1.chs ∧ ∀ f m i, f.id ≠ SIEVE_STAT.SAT.id → d2.get f m i = d1.get f m i := by
      simp only [d2]
      split
      · exact ⟨d1.channelOnly_set n _ _ _ _, rfl, fun f m i id => d1.get_set_id _ _ _ _ _ _ _ (Ne.symm id)⟩
      · exact ⟨d1.channelOnly_refl n, rfl, fun _ _ _ _ => rfl⟩
    obtain ⟨only, chs, regs⟩ := sat
    simp only [d3]
    split
    case isTrue yes =>
      exact ⟨Dev.channelOnly_trans only (d2.channelOnly_set n _ _ _ _), chs, (d2.bit_setBit_same _ _ _ _ k.isLt).trans yes.symm,
        fun f m i sat id => (d2.get_set_id _ _ _ _ _ _ _ (Ne.symm id)).trans (regs f m i sat)⟩
    case isFalse no =>
      exact ⟨Dev.channelOnly_trans only (d2.channelOnly_set n _ _ _ _), chs, (d2.bit_clrBit_same _ _ _ _).trans (Bool.eq_false_iff.mpr no).symm,
        fun f m i sat id => (d2.get_set_id _ _ _ _ _ _ _ (Ne.symm id)).trans (regs f m i sat)⟩
  have caught : d3.captures e n := by
    have compared : d3.captures d4 n := by
      simp only [d4]
      split
      · exact d3.captures_refl n
      · exact d3.captures_compare n k newest o.y
    simp only [e]
    split
    · exact compared
    · exact Dev.captures_trans compared (Dev.captures_trans (d4.captures_capFree n k) (Dev.captures_trans (captures_capture n k o (d5, m))
        (Dev.captures_onTap r.1 n k (fun t => t.remember o) (fun _ => rfl))))
  obtain ⟨outs, only1, regs1⟩ := stepped
  obtain ⟨only3, chs3, settling, regs3⟩ := marked
  obtain ⟨only, same, regs⟩ := caught
  refine ⟨(same k).trans (by rw [chs3, outs]), Dev.channelOnly_trans only1 (Dev.channelOnly_trans only3 only), ?_,
    fun f m i out sat set => (regs f m i out).trans ((regs3 f m i sat set).trans (Dev.get_of_regs regs1 f m i))⟩
  exact (Dev.bit_of_get (regs _ _ _ (by decide)) k).trans settling

/-- Outputs lost with a link word move no register but those of captures (R270, R529). -/
theorem linkLoss_get (n : Fin 8) (lost k : Nat) (p : Dev × Memory) (f : Fld) (m i : Nat) (out : f.id ∉ captureIds) :
    (linkLoss n lost k p).1.get f m i = p.1.get f m i := by
  unfold linkLoss
  extract_lets outs past q r d
  have first : q.1.get f m i = p.1.get f m i := rfl
  split
  · exact first
  · have ended : r.1.get f m i = q.1.get f m i := (captures_endRecord n k 3 q).2.2 f m i out
    have counted : d.get f m i = r.1.get f m i := r.1.get_set_id _ _ _ _ _ _ _ (fun eq => out (eq ▸ by decide))
    exact counted.trans (ended.trans first)

/-- A tap whose oldest block has left the queue for the ring. -/
def Tap.blockGone (t : Tap) (kind : BlockKind) (wr : Nat) (rest : List (BlockKind × List (BitVec 8))) : Tap :=
  { t with
    queue := rest
    record := t.record.map (fun r =>
      if kind = .header then { r with hdrAt := some wr } else if r.hdrAt = some wr then { r with hdrAt := none } else r) }

/-- A block of the capture queue is written at the write pointer (R269). -/
theorem blockWrite_parts (n : Fin 8) (k : Fin 4) (d : Dev) (m : Memory) (x : BlockKind × List (BitVec 8)) (rest : List (BlockKind × List (BitVec 8)))
    (four : d.chs[n].sieve.taps.length = 4) (ring : d.get CAPk_SIZE.SIZE n k ≠ 0)
    (room : (d.get CAPk_WR.WR n k + 64) % d.get CAPk_SIZE.SIZE n k ≠ d.get CAPk_RD.RD n k) (queue : (d.chs[n].tap k).queue = x :: rest) :
    let size := d.get CAPk_SIZE.SIZE n k
    let wr := d.get CAPk_WR.WR n k
    let base := d.getPair CAPk_BASE_LO.BASE_LO CAPk_BASE_HI.BASE_HI n k
    let q := blockWrite n k (d, m)
    q.2 = m.writeBytes (dramAt n (base + wr)) x.2 ∧ q.1.get CAPk_WR.WR n k = (wr + 64) % size % 2 ^ CAPk_WR.WR.w
      ∧ (q.1.chs[n].tap k).queue = rest
      ∧ d.regsBut q.1 (CAPk_WR.WR.at n k :: requestKeys n (d.rankOf ((base + wr) / 65536)) 3 ++ hotKeys n) ∧ d.chsBut q.1 n := by
  intro size wr base q
  obtain ⟨kind, b⟩ := x
  obtain ⟨f, took, eq⟩ : ∃ f : Tap → Tap, (∀ t, (f t).queue = rest)
      ∧ q = (((d.onTap n k f).ringRequest n (base + wr)).set CAPk_WR.WR n k ((wr + 64) % size), m.writeBytes (dramAt n (base + wr)) b) := by
    refine ⟨fun t => t.blockGone kind wr rest, fun _ => rfl, ?_⟩
    simp only [q]
    unfold blockWrite
    dsimp only
    rw [if_neg (by simp [ring, room]), queue]
    rfl
  have head : (d.onTap n k f).chs[n].tap k = f (d.chs[n].tap k) := (d.onTap_tap n k k f (Nat.lt_of_lt_of_eq k.isLt four.symm)).trans (if_pos rfl)
  have others : d.chsBut (d.onTap n k f) n := d.onCh_chsBut n _
  have regs : (d.onTap n k f).regs = d.regs := rfl
  have rank : (d.onTap n k f).rankOf = d.rankOf := rfl
  rw [eq]
  generalize d.onTap n k f = g at *
  obtain ⟨only, y, mine⟩ := g.ringRequest_parts n (base + wr)
  have asked := g.ringRequest_regsBut n (base + wr)
  rw [rank] at asked
  refine ⟨rfl, Dev.get_set_same _ _ _ _ _, ?_, ?_, fun m diff => (only.2 m diff).trans (others m diff)⟩
  · show ((g.ringRequest n (base + wr)).chs[n].tap k).queue = rest
    rw [mine]
    show (g.chs[n].tap k).queue = rest
    rw [head, took]
  · exact Dev.regsBut_set _ _ _ _ (Dev.regsBut_trans (Dev.regsBut_of_regs (d.regsBut_refl _) regs)
      (Dev.regsBut_mono asked (fun _ h => List.mem_cons_of_mem _ h))) (by simp)

theorem State.captureBlockComplete_idle (s : State) (n : Fin 8) (k : Fin 4)
    (none : s.dev.get CAPk_SIZE.SIZE n k = 0 ∨ (s.dev.get CAPk_WR.WR n k + 64) % s.dev.get CAPk_SIZE.SIZE n k = s.dev.get CAPk_RD.RD n k
      ∨ (s.dev.chs[n].tap k).queue = []) : exec (.captureBlockComplete n k) s = .next s := by
  have same : blockWrite n k (s.dev, s.mem) = (s.dev, s.mem) := by
    unfold blockWrite
    dsimp only
    split
    · rfl
    case isFalse open_ =>
      rcases none with none | full | empty
      · simp [none] at open_
      · simp [full] at open_
      · rw [empty]
  show execCaptureBlockComplete n k s = _
  unfold execCaptureBlockComplete
  rw [same]

/-- A sample at full scale sets the flag of its converter (R247). -/
theorem Dev.fullScale_parts (d : Dev) (n : Nat) (codes : SenseCodes) :
    let e := d.fullScale n codes
    let fullA := ∃ c ∈ codes.a, signed 14 c.toNat = -8192 ∨ signed 14 c.toNat = 8191
    let fullB := ∃ c ∈ codes.b, signed 16 c.toNat = -32768 ∨ signed 16 c.toNat = 32767
    (fullA → e.flag SIEVE_STAT.A_OVR n = true) ∧ (fullB → e.flag SIEVE_STAT.B_OVR n = true)
      ∧ (¬ fullA → e.flag SIEVE_STAT.A_OVR n = d.flag SIEVE_STAT.A_OVR n) ∧ (¬ fullB → e.flag SIEVE_STAT.B_OVR n = d.flag SIEVE_STAT.B_OVR n)
      ∧ d.onlyRegs e [SIEVE_STAT.A_OVR.at n, SIEVE_STAT.B_OVR.at n] := by
  intro e fullA fullB
  have a : fullCode false codes.a = true ↔ fullA := by
    simp only [fullCode, tapInput, fullA, List.any_eq_true, Bool.or_eq_true, decide_eq_true_eq, Bool.false_eq_true, if_false]
    exact exists_congr fun c => and_congr_right fun _ => by omega
  have b : fullCode true codes.b = true ↔ fullB := by
    simp only [fullCode, tapInput, fullB, List.any_eq_true, Bool.or_eq_true, decide_eq_true_eq, if_true]
  obtain ⟨onA, onB, offA, offB, only⟩ := d.raiseTwo_parts (fullCode false codes.a) (fullCode true codes.b) SIEVE_STAT.A_OVR SIEVE_STAT.B_OVR n
    (by decide) (by decide) (by decide)
  exact ⟨fun h => onA (a.mpr h), fun h => onB (b.mpr h), fun h => Dev.flag_of_get (offA (Bool.eq_false_iff.mpr (fun c => h (a.mp c)))),
    fun h => Dev.flag_of_get (offB (Bool.eq_false_iff.mpr (fun c => h (b.mp c)))), only⟩

theorem State.tapOutput_runs (s : State) (n : Fin 8) (k : Fin 4) (codes : SenseCodes)
    (goes : ((s.dev.fullScale n codes).flag SIEVE_STAT.RUNNING n && !(s.dev.fullScale n codes).flag SIEVE_STAT.PAUSED n
      && (s.dev.fullScale n codes).flag TAPk_CFG.EN n k) = true) :
    exec (.tapOutput n k codes) s = .next { s with
      dev := (tapOutput n k codes (s.dev.fullScale n codes, s.mem)).1, mem := (tapOutput n k codes (s.dev.fullScale n codes, s.mem)).2 } :=
  if_pos goes

theorem Dev.onlyRegs_chs {d e : Dev} {ks : List Key} (h : d.onlyRegs e ks) : e.chs = d.chs := by rw [h.1]

/-- Settles O23. -/
theorem captures : Obligations.Captures := by
  constructor
  · intro s n k w
    dsimp only
    have refused {c : Instr} {x : Dev} (runs : exec c s = .next (s.withDev x)) (eq : x = s.dev.raise SIEVE_STAT.CFG_REJ n) :
        ∃ e, exec c s = .next (s.withDev e) ∧ e.flag SIEVE_STAT.CFG_REJ n = true ∧ s.dev.onlyRegs e [SIEVE_STAT.CFG_REJ.at n] :=
      ⟨_, runs.trans (s.next_of_eq eq), Dev.flag_raise_same _ _ _ _ (by decide), s.dev.raise_onlyRegs _ _ _⟩
    refine ⟨fun legal => ⟨_, rfl, s.dev.cmpWrite_ctrl n k w.toNat legal⟩, fun bad => refused rfl ((if_pos rfl).trans (if_pos bad)), ?_, fun len bad => ?_,
      fun len fine => ⟨_, rfl, (s.dev.capWrite_cases n k w.toNat len).2 fine⟩, fun fine => ?_, fun bad => ?_⟩
    · split
      case isTrue bad => exact refused rfl ((if_neg (by decide)).trans (if_pos bad))
      case isFalse fine => exact ⟨_, rfl, s.dev.cmpWrite_level n k w.toNat fine⟩
    · exact refused rfl ((s.dev.capWrite_cases n k w.toNat len).1 bad)
    · exact ⟨_, if_neg (by simpa using fine), s.dev.get_set_same _ _ _ _, Dev.onlyRegs_set _ _ _ _ (Dev.onlyRegs_refl _ _) (by simp)⟩
    · have bad' : (decide (w.toNat % 64 ≠ 0) || decide (s.dev.get CAPk_SIZE.SIZE n k ≤ w.toNat)) = true := by
        by_cases grid : w.toNat % 64 = 0
        · simpa [grid] using bad
        · simp [grid]
      exact refused (x := s.dev.raise SIEVE_STAT.CFG_REJ n) (if_pos bad') rfl
  · intro s n
    dsimp only
    refine ⟨fun k x rest four ring room queue => ?_, fun k none => s.captureBlockComplete_idle n k none, fun k codes => ⟨fun four run go en => ?_, fun no => ?_⟩,
      fun lost => ?_⟩
    · obtain ⟨mem, wr, left, regs, others⟩ := blockWrite_parts n k s.dev s.mem x rest four ring room queue
      refine ⟨_, rfl, rfl, wr, left, fun i h => ?_, fun b out => ?_, regs, others⟩
      · exact (congrArg (fun m : Memory => m.read _) mem).trans (Memory.read_writeBytes_inside _ _ _ _ h)
      · exact (congrArg (fun m : Memory => m.read b) mem).trans (Memory.read_writeBytes_outside _ _ _ _ out)
    · obtain ⟨onA, onB, -, -, only⟩ := s.dev.fullScale_parts n codes
      have chs : (s.dev.fullScale n codes).chs[n] = s.dev.chs[n] := by rw [Dev.onlyRegs_chs only]
      have goes : ((s.dev.fullScale n codes).flag SIEVE_STAT.RUNNING n && !(s.dev.fullScale n codes).flag SIEVE_STAT.PAUSED n
          && (s.dev.fullScale n codes).flag TAPk_CFG.EN n k) = true := by
        rw [Dev.flag_of_get (Dev.regsBut_read only.2 _ _ _ rfl), Dev.flag_of_get (Dev.regsBut_read only.2 _ _ _ rfl),
          Dev.flag_of_get (Dev.regsBut_read only.2 _ _ _ rfl), run, go, en]
        rfl
      have runs := State.tapOutput_runs s n k codes goes
      have newest := Dev.newestOf_of (d := s.dev) (e := s.dev.fullScale n codes) n k (s.dev.chs[n].tap k).outs
        (fun f m i a b => only.2 f m i (by simpa [Fld.at] using ⟨fun h => absurd h a, fun h => absurd h b⟩)) chs
      have time : (s.dev.fullScale n codes).time = s.dev.time := by rw [only.1]
      have others : s.dev.chsBut (s.dev.fullScale n codes) n := fun m _ => by rw [Dev.onlyRegs_chs only]
      generalize s.dev.fullScale n codes = e at *
      obtain ⟨outs, rest, settling, regs⟩ := tapOutput_parts n k codes e s.mem (by rw [chs]; exact four)
      rw [chs] at outs settling
      refine ⟨_, runs, rfl, outs, fun m diff => (rest.2 m diff).trans (others m diff), ?_, settling.trans (by rw [newest]), fun a => ?_, fun b => ?_⟩
      · exact Eq.trans (by rw [rest.1]) time
      · exact (Dev.flag_of_get (regs _ _ _ (by decide) (by decide) (by decide))).trans (onA a)
      · exact (Dev.flag_of_get (regs _ _ _ (by decide) (by decide) (by decide))).trans (onB b)
    · obtain ⟨onA, onB, offA, offB, only⟩ := s.dev.fullScale_parts n codes
      refine ⟨_, if_neg ?_, onA, onB, offA, offB, only⟩
      rw [Dev.flag_of_get (Dev.regsBut_read only.2 _ _ _ rfl), Dev.flag_of_get (Dev.regsBut_read only.2 _ _ _ rfl),
        Dev.flag_of_get (Dev.regsBut_read only.2 _ _ _ rfl)]
      rcases no with no | no | no <;> simp [no]
    · have counted : s.dev.onlyRegs (s.dev.count PWR_LINK.RETURN) [PWR_LINK.RETURN.at] := Dev.onlyRegs_set _ _ _ _ (Dev.onlyRegs_refl _ _) (by simp)
      have tally := s.dev.get_count_same PWR_LINK.RETURN 0 0
      have idle := Dev.flag_of_get (Dev.regsBut_read counted.2 SIEVE_STAT.RUNNING n 0 rfl)
      have paused := Dev.flag_of_get (Dev.regsBut_read counted.2 SIEVE_STAT.PAUSED n 0 rfl)
      show ∃ t, execReturnWordBad n lost s = .next t ∧ _
      unfold execReturnWordBad
      dsimp only
      generalize s.dev.count PWR_LINK.RETURN = e at *
      rw [idle, paused]
      split
      case isTrue runs =>
        refine ⟨_, rfl, rfl, ?_, fun none => ?_⟩
        · exact foldl_keeps (fun p : Dev × Memory => p.1.get PWR_LINK.RETURN = _) (fun p k => linkLoss n (lost.getD k 0) k p) [0, 1, 2, 3] (e, s.mem)
            (fun p k hp => (linkLoss_get n _ k p _ _ _ (by decide)).trans hp) tally
        · rcases none with none | none <;> simp [none] at runs
      case isFalse => exact ⟨_, rfl, rfl, tally, fun _ => ⟨rfl, counted⟩⟩

end Sys2Proof.Machine
end

section
/-!
PROOF. Requests, modes, loads and commits of calibration slots (R275, R283, R287, R288).
-/
namespace Sys2Proof.Machine
open Reg

/-- A slot request that is taken: its action is queued, and it shows unless a slot runs (R275). -/
theorem Dev.slotAccept_parts (d : Dev) (n : Fin 8) (kind land : Nat) (org : Origin) :
    let e := d.slotAccept n kind land org
    ∃ a : Act, e.chs[n] = { d.chs[n] with acts := d.chs[n].acts ++ [a] } ∧ a.kind = .slot kind ∧ a.land = land
      ∧ (d.get PLB_STAT.STATE n ≠ 2 → e.get PLB_STAT.STATE n = 1 ∧ e.get PLB_STAT.KIND n = kind % 2 ^ PLB_STAT.KIND.w)
      ∧ d.regsBut e [PLB_STAT.STATE.at n, PLB_STAT.KIND.at n, SEQ_STAT.STATE.at n] ∧ d.chsBut e n := by
  intro e
  obtain ⟨a, kindEq, _, place, _, chs⟩ := d.addAct_chs n (.slot kind) org land d.time.crs []
  have shown := d.addAct_regsBut n (.slot kind) org land d.time.crs []
  have shows : e = if (d.addAct n (.slot kind) org land d.time.crs []).get PLB_STAT.STATE n = 2 then d.addAct n (.slot kind) org land d.time.crs []
      else ((d.addAct n (.slot kind) org land d.time.crs []).set PLB_STAT.STATE n 0 1).set PLB_STAT.KIND n 0 kind := rfl
  clear_value e
  generalize d.addAct n (.slot kind) org land d.time.crs [] = f at *
  have state : f.get PLB_STAT.STATE n = d.get PLB_STAT.STATE n := Dev.regsBut_read shown _ _ _ rfl
  have same : e.chs = f.chs := by
    rw [shows]
    split <;> rfl
  refine ⟨a, ?_, kindEq, place, fun idle => ?_, ?_, fun m diff => ?_⟩
  · rw [same, chs, Dev.onCh_same]
  · rw [shows, state, if_neg idle]
    exact ⟨(Dev.get_set_id _ _ _ _ _ _ _ _ (by decide)).trans (f.get_set_same _ _ _ _), Dev.get_set_same _ _ _ _ _⟩
  · have base := Dev.regsBut_mono (ls := [PLB_STAT.STATE.at n, PLB_STAT.KIND.at n, SEQ_STAT.STATE.at n]) shown (by simp)
    rw [shows]
    split
    · exact base
    · exact Dev.regsBut_set _ _ _ _ (Dev.regsBut_set _ _ _ _ base (by simp)) (by simp)
  · rw [same, chs, Dev.onCh_other _ _ _ _ (Ne.symm diff)]

/-- The commit phase of a slot that has neither aborted nor committed (R283). -/
theorem Dev.slotCommit_parts (d e : Dev) (n : Fin 8) (new : List Nat) (x : Measured) (s : Slot) (runs : d.chs[n].slot = some s)
    (live : s.aborted = false) (open_ : s.committed = false) (made : e = d.slotCommit n new x) :
    ∃ y, e.chs[n] = { d.chs[n] with slot := some y } ∧ y.committed = true ∧ y.kind = s.kind ∧ y.left = s.left
      ∧ e.get PLB_RES.KIND n = s.kind % 2 ^ PLB_RES.KIND.w
      ∧ (e.get PLB_RES.CODE n = 1 ∨ e.get PLB_RES.CODE n = 2 ∨ e.get PLB_RES.CODE n = 4) ∧ d.chsBut e n := by
  unfold Dev.slotCommit at made
  split at made
  case h_1 none => exact absurd (runs.symm.trans none) (by simp)
  case h_2 s' some =>
    obtain rfl : s' = s := Option.some.inj (some.symm.trans runs)
    rw [if_neg (by rw [live, open_]; decide)] at made
    extract_lets w full quick snsFail lvLin hvLin lvGain hvGain time pdSkip pdFail p0 p1 p2 p3 p4 p5 p6 p7 part temps set code drift
      b d1 d2 d3 d4 d5 d6 at made
    have graded : code = 1 ∨ code = 2 ∨ code = 4 := by
      simp only [code]
      split
      · exact .inr (.inr rfl)
      · split
        · exact .inr (.inl rfl)
        · exact .inl rfl
    have first : d1.get PLB_RES.CODE n = code % 2 ^ PLB_RES.CODE.w ∧ d1.get PLB_RES.KIND n = s'.kind % 2 ^ PLB_RES.KIND.w := by
      constructor
      · simp only [d1]
        rw [Dev.get_set_id _ _ _ _ _ _ _ _ (by decide), Dev.get_set_id _ _ _ _ _ _ _ _ (by decide), Dev.get_set_same]
      · simp only [d1]
        rw [Dev.get_set_id _ _ _ _ _ _ _ _ (by decide), Dev.get_set_same]
    have later : d5.get PLB_RES.CODE n = d1.get PLB_RES.CODE n ∧ d5.get PLB_RES.KIND n = d1.get PLB_RES.KIND n ∧ d5.chs = d.chs := by
      refine ⟨?_, ?_, rfl⟩
      · simp (disch := decide) only [d5, d4, d3, d2, Dev.get_set_id]
      · simp (disch := decide) only [d5, d4, d3, d2, Dev.get_set_id]
    have last : d6.get PLB_RES.CODE n = d5.get PLB_RES.CODE n ∧ d6.get PLB_RES.KIND n = d5.get PLB_RES.KIND n ∧ d6.chs = d5.chs := by
      simp only [d6]
      split
      · exact ⟨rfl, rfl, rfl⟩
      · refine ⟨?_, ?_, rfl⟩
        · simp (disch := decide) only [Dev.get_set_id]
        · simp (disch := decide) only [Dev.get_set_id]
    clear_value d6 d5 d1 code set p7 drift
    obtain ⟨code1, kind1⟩ := first
    obtain ⟨code5, kind5, chs5⟩ := later
    obtain ⟨code6, kind6, chs6⟩ := last
    have chs : d6.chs = d.chs := chs6.trans chs5
    refine ⟨{ s' with committed := true, newSet := set, parts := p7.1, drift := drift }, ?_, rfl, rfl, rfl, ?_, ?_, fun m diff => ?_⟩
    · rw [made, Dev.onCh_same, chs]
    · rw [made]
      exact kind6.trans (kind5.trans kind1)
    · have shown : e.get PLB_RES.CODE n = code % 2 ^ PLB_RES.CODE.w := by
        rw [made]
        exact code6.trans (code5.trans code1)
      rw [shown]
      rcases graded with h | h | h
      · exact .inl (by rw [h]; rfl)
      · exact .inr (.inl (by rw [h]; rfl))
      · exact .inr (.inr (by rw [h]; rfl))
    · rw [made, Dev.onCh_other _ _ _ _ (Ne.symm diff), chs]

/-- Settles O24. -/
theorem calibration : Obligations.Calibration := by
  constructor
  · intro s n
    dsimp only
    refine ⟨fun kind => ?_, fun table => ⟨_, rfl, Dev.flag_set_bool _ _ _ _ _ (by decide), Dev.onlyRegs_set _ _ _ _ (Dev.onlyRegs_refl _ _) (by simp)⟩,
      ⟨_, _, rfl, rfl, s.dev.onCh_chsBut n _, s.dev.onCh_same n (fun c => { c with plumb := c.plumb.stage })⟩⟩
    generalize landing : (if s.dev.getPair PLB_AT_LO.AT_LO PLB_AT_HI.AT_HI n = 0 then s.dev.time.crs + 2
      else s.dev.getPair PLB_AT_LO.AT_LO PLB_AT_HI.AT_HI n) = land
    have runs : exec (.plbReqWrite n kind) s = execPlbReqWrite n kind s := rfl
    rw [runs]
    unfold execPlbReqWrite Dev.slotRefused
    dsimp only
    rw [landing]
    have word : kind.toNat = 3 ↔ kind = 3 := ⟨fun h => BitVec.eq_of_toNat_eq h, fun h => by rw [h]; rfl⟩
    constructor
    · intro refused
      obtain ⟨onL, onR, offL, offR, only⟩ := s.dev.raiseTwo_parts (decide (land < s.dev.time.crs + 2))
        (decide (s.dev.time.crs + 2 ^ 24 < land) || decide (kind.toNat = 3) || (decide (s.dev.get PLB_STAT.STATE n = 1) || s.dev.chs[n].requested))
        PLB_STAT.REQ_LATE PLB_STAT.REQ_REJ n (by decide) (by decide) (by decide)
      refine ⟨_, if_pos ?_, fun late => onL (decide_eq_true late), fun rej => onR ?_, fun soon => offL (decide_eq_false soon), fun no => offR ?_, only⟩
      · simpa [word, or_assoc] using refused
      · simpa [word, or_assoc] using rej
      · simpa [word, and_assoc] using no
    · intro soon fine
      obtain ⟨a, acts, kindEq, place, shows, regs, others⟩ := s.dev.slotAccept_parts n kind.toNat land .reg
      refine ⟨_, a, if_neg ?_, acts, kindEq, place, shows, regs, others⟩
      simp only [Bool.or_eq_true, decide_eq_true_eq, word]
      rintro (((h | h) | h) | h | h)
      · exact soon h
      · exact fine (.inl h)
      · exact fine (.inr (.inl h))
      · exact fine (.inr (.inr (.inl h)))
      · exact fine (.inr (.inr (.inr h)))
  · intro s n set lvOver hvOver lvRes hvRes pdBad
    dsimp only
    refine ⟨fun x runs live open_ => ?_, fun no => ?_⟩
    · obtain ⟨y, parts⟩ := Dev.slotCommit_parts s.dev _ n (set.map BitVec.toNat) ⟨lvOver, hvOver, lvRes, hvRes, pdBad⟩ x runs live open_ rfl
      exact ⟨_, y, rfl, parts⟩
    · refine s.next_of_eq ?_
      unfold Dev.slotCommit
      rcases no with none | ⟨x, some, shut⟩
      · rw [none]
      · rw [some]
        exact if_pos (by simpa using shut)

end Sys2Proof.Machine
end

section
/-!
PROOF. Page requests to host software: posting, completions, time-outs and retries (R327 to R330).
-/
namespace Sys2Proof.Machine
open Reg

/-- A step whose pair of device and memory stays, changes nothing. -/
theorem State.next_same (s : State) {q : Dev × Memory} (same : q = (s.dev, s.mem)) :
    (Host.Outcome.next { s with dev := q.1, mem := q.2 } : Host.Outcome State Fault Refusal) = .next s := by rw [same]

/-! ### Posting a request -/

theorem leBytes_length (k v : Nat) : (leBytes k v).length = k := by
  induction k generalizing v with
  | zero => rfl
  | succ k ih => exact congrArg (· + 1) (ih _)

theorem wordsBytes_length (ws : List Nat) : (wordsBytes ws).length = 4 * ws.length := by
  induction ws with
  | nil => rfl
  | cons w ws ih =>
    rw [wordsBytes, List.flatMap_cons, List.length_append, leBytes_length, ← wordsBytes, ih, List.length_cons]
    omega

/-- What is emitted stays, whatever vector is sent after it. -/
theorem Dev.mem_vector_out {d : Dev} {o : Out} (v : Nat) (h : o ∈ d.out) : o ∈ (d.vector v).out := by
  unfold Dev.vector
  split
  · exact List.mem_append_left _ h
  · split <;> exact h

/-- The request ring stands open: it is enabled, the function may issue requests, and a tag is left (R327). -/
theorem Dev.postOpen_iff (d : Dev) : (!d.flag MSN_RQ_CFG.EN || !d.port.up || !d.port.bme || d.port.d3 || decide (d.get MSN_BK.OUT ≤ d.mason.reqs.length)) = true
    ↔ d.flag MSN_RQ_CFG.EN = false ∨ d.mayIssue = false ∨ d.get MSN_BK.OUT ≤ d.mason.reqs.length := by
  simp only [Dev.mayIssue, Bool.or_eq_true, Bool.not_eq_true', Bool.and_eq_false_iff, Bool.not_eq_false', decide_eq_true_eq]
  tauto

theorem Dev.requestPost_idle (d : Dev)
    (no : d.nextAsk = none ∨ d.flag MSN_RQ_CFG.EN = false ∨ d.mayIssue = false ∨ d.get MSN_BK.OUT ≤ d.mason.reqs.length) : d.requestPost = d := by
  unfold Dev.requestPost
  split
  · rfl
  case h_2 w some =>
    split
    · rfl
    · exact if_pos (d.postOpen_iff.mpr (no.resolve_left (by rw [some]; simp)))

/-- The outcome of a posting where there is something to ask for: a full ring, or a request (R327). -/
theorem Dev.requestPost_posted (d e : Dev) (w : Want) (x : Nat × List Nat) (ask : d.nextAsk = some w) (ext : d.extOf w.page = some x)
    (en : d.flag MSN_RQ_CFG.EN = true) (may : d.mayIssue = true) (tags : d.mason.reqs.length < d.get MSN_BK.OUT) (made : e = d.requestPost) :
    ((d.get MSN_RQ_TAIL.TAIL + 1) % 2 ^ d.get MSN_RQ_CFG.SIZE = d.get MSN_RQ_HEAD.HEAD → e = d.raise MSN_STAT.RQ_FULL)
      ∧ ((d.get MSN_RQ_TAIL.TAIL + 1) % 2 ^ d.get MSN_RQ_CFG.SIZE ≠ d.get MSN_RQ_HEAD.HEAD →
        ∃ r ws, e.mason.reqs = d.mason.reqs ++ [r] ∧ r.page ≤ w.page ∧ w.page < r.page + r.count ∧ r.ext = x.1 ∧ r.buf = none
          ∧ (d.mason.again = [] → r.page = w.page)
          ∧ e.get MSN_RQ_TAIL.TAIL = (d.get MSN_RQ_TAIL.TAIL + 1) % 2 ^ d.get MSN_RQ_CFG.SIZE % 2 ^ MSN_RQ_TAIL.TAIL.w
          ∧ .hostWrite (d.get MSN_RQ_BASE_LO.BASE_LO * 4096 + d.get MSN_RQ_BASE_HI.BASE_HI * 2 ^ 32 + 32 * d.get MSN_RQ_TAIL.TAIL) ws ∈ e.out
          ∧ ws.length = 32 ∧ d.regsBut e [MSN_RQ_TAIL.TAIL.at] ∧ e.chs = d.chs) := by
  obtain ⟨xi, xe⟩ := x
  unfold Dev.requestPost at made
  rw [ask] at made
  dsimp -zeta only at made
  rw [ext] at made
  dsimp -zeta only at made
  extract_lets size t again first k fr f used tag chs dl urgent ws r base flip m g at made
  rw [if_neg (fun h => (d.postOpen_iff.mp h).elim (by simp [en]) (fun h => h.elim (by simp [may]) (Nat.not_le.mpr tags)))] at made
  refine ⟨fun full => made.trans (if_pos full), fun room => ?_⟩
  rw [if_neg room] at made
  have run : first ≤ w.page ∧ w.page < first + k ∧ (d.mason.again = [] → first = w.page) := by
    simp only [first, k]
    generalize asked : again = a
    cases a with
    | none => exact ⟨Nat.le_refl _, Nat.lt_add_of_pos_right (Nat.lt_of_lt_of_le Nat.one_pos (Nat.le_max_left _ _)), fun _ => rfl⟩
    | some a =>
      have inside := List.find?_some asked
      rw [Bool.and_eq_true, decide_eq_true_eq, decide_eq_true_eq] at inside
      refine ⟨inside.1, inside.2, fun none => ?_⟩
      have := List.mem_of_find?_eq_some asked
      rw [none] at this
      exact absurd this List.not_mem_nil
  obtain ⟨low, high, fresh⟩ := run
  refine ⟨r, wordsBytes ws, ?_, low, high, rfl, rfl, fresh, ?_, ?_, ?_, ?_, ?_⟩
  · rw [made, Dev.vector_mason]
    rfl
  · rw [made, Dev.vector_get]
    exact Dev.get_set_same _ _ _ _ _
  · rw [made]
    exact Dev.mem_vector_out 9 (List.mem_append_right _ (List.mem_singleton.mpr rfl))
  · rw [wordsBytes_length]
    rfl
  · rw [made]
    exact Dev.regsBut_of_regs (Dev.regsBut_set (e := g.emit _) _ _ _ _ (Dev.regsBut_of_regs (d.regsBut_refl _) rfl) (by simp)) (Dev.vector_regs _ _)
  · rw [made, Dev.vector_chs]
    rfl

/-! ### Completions and reads -/

theorem Dev.compHead_parts (d : Dev) :
    d.compHead.chs = d.chs ∧ d.compHead.mason = { d.mason with comps := d.compHead.mason.comps } ∧ d.regsBut d.compHead [MSN_CQ_HEAD.HEAD.at] := by
  unfold Dev.compHead
  exact ⟨rfl, rfl, Dev.regsBut_set _ _ _ _ (Dev.regsBut_of_regs (d.regsBut_refl _) rfl) (by simp)⟩

/-- One completion entry moves no register but `BK_ERR`. -/
theorem Dev.completion_parts (d : Dev) (c : Nat × Nat × Nat) : (d.completion c).chs = d.chs ∧ d.regsBut (d.completion c) [MSN_STAT.BK_ERR.at] := by
  obtain ⟨status, tag, buf⟩ := c
  have raised (e : Dev) (same : e.regs = d.regs) : d.regsBut (e.raise MSN_STAT.BK_ERR) [MSN_STAT.BK_ERR.at] :=
    Dev.regsBut_set _ _ _ _ (Dev.regsBut_of_regs (d.regsBut_refl _) same) (by simp)
  have kept (e : Dev) (same : e.regs = d.regs) : d.regsBut e [MSN_STAT.BK_ERR.at] := Dev.regsBut_of_regs (d.regsBut_refl _) same
  unfold Dev.completion
  dsimp only
  split
  · split
    · exact ⟨rfl, kept _ rfl⟩
    · exact ⟨rfl, raised _ rfl⟩
  · split
    · exact ⟨rfl, kept _ rfl⟩
    · split
      · exact ⟨rfl, kept _ rfl⟩
      · split
        · exact ⟨rfl, raised _ rfl⟩
        · exact ⟨rfl, raised _ rfl⟩

/-- From `d` to `e` pages were placed: the requests, the channels and the time stay. -/
def Dev.placing (d e : Dev) : Prop := e.mason.reqs = d.mason.reqs ∧ e.chs = d.chs ∧ e.time = d.time

theorem Dev.placing_framesShow (d : Dev) (n : Nat) : d.placing (d.framesShow n) := by
  unfold Dev.framesShow
  dsimp only
  split <;> exact ⟨rfl, rfl, rfl⟩

theorem placing_pageIn (n : Fin 8) (page : Nat) (held : Bool) (left : Nat) (bytes : List (BitVec 8)) (p : Dev × Memory) :
    p.1.placing (pageIn n page held left bytes p).1 := by
  unfold pageIn
  dsimp only
  split
  · exact ⟨rfl, rfl, rfl⟩
  · split
    · exact ⟨rfl, rfl, rfl⟩
    · obtain ⟨reqs, chs, time⟩ := Dev.placing_framesShow _ n.val
      exact ⟨reqs, chs, time⟩

theorem Dev.placing_trans {d e f : Dev} (h : d.placing e) (k : e.placing f) : d.placing f :=
  ⟨k.1.trans h.1, k.2.1.trans h.2.1, k.2.2.trans h.2.2⟩

theorem placing_runPlaced (first : Nat) (bytes : List (BitVec 8)) (k : Nat) (p : Dev × Memory) : p.1.placing (runPlaced first bytes k p).1 := by
  unfold runPlaced
  dsimp only
  generalize (bytes.drop (65536 * k)).take 65536 = part
  refine foldl_keeps (fun q : Dev × Memory => p.1.placing q.1) (fun q (n : Fin 8) =>
    if q.1.mason.wants.any (fun w => w.ch = n.val && w.page = first + k) then pageIn n (first + k) false 0 part q else q) allCh p (fun q n hq => ?_) ⟨rfl, rfl, rfl⟩
  split
  · exact Dev.placing_trans hq (placing_pageIn n (first + k) false 0 part q)
  · exact hq

/-- A run's content placed on the channels that want it (R328). -/
theorem placing_run (first : Nat) (bytes : List (BitVec 8)) (l : List Nat) (p : Dev × Memory) :
    p.1.placing (l.foldl (fun p k => runPlaced first bytes k p) p).1 :=
  foldl_keeps (fun q : Dev × Memory => p.1.placing q.1) (fun p k => runPlaced first bytes k p) l p
    (fun q k hq => Dev.placing_trans hq (placing_runPlaced first bytes k q)) ⟨rfl, rfl, rfl⟩

/-- A buffer read in its turn ends its request (R328, R330). -/
theorem bufferRead_parts (tag : Nat) (bytes : List (BitVec 8)) (d : Dev) (m : Memory) (r : Req)
    (asked : d.mason.reqs.find? (fun x => x.tag = tag && x.buf.isSome) = some r) :
    let held := d.hostReady r.count = false ∨ d.mason.waits.any (fun x => x.has r.page) = true ∨ d.readFirst (d.runKey r) = false
    let q := bufferRead tag bytes (d, m)
    (¬ held → q.1.mason.reqs = d.mason.reqs.filter (fun x => x.tag ≠ tag) ∧ q.1.mason.hostEnd = some d.time.abs ∧ q.1.chs = d.chs)
      ∧ (held → q = (d, m)) := by
  have waits : (!d.hostReady r.count || d.mason.waits.any (fun x => x.has r.page) || !d.readFirst (d.runKey r)) = true
      ↔ d.hostReady r.count = false ∨ d.mason.waits.any (fun x => x.has r.page) = true ∨ d.readFirst (d.runKey r) = false := by
    simp only [Bool.or_eq_true, Bool.not_eq_true', or_assoc]
  intro held q
  have shape : q = bufferRead tag bytes (d, m) := rfl
  clear_value q
  unfold bufferRead at shape
  dsimp -zeta only at shape
  rw [asked] at shape
  dsimp -zeta only at shape
  refine ⟨fun free => ?_, fun h => shape.trans (if_pos (waits.mpr h))⟩
  rw [if_neg (fun h => free (waits.mp h))] at shape
  extract_lets a p1 b x c at shape
  obtain ⟨reqs, chs, time⟩ := placing_run r.page bytes (List.range r.count) (a, m)
  obtain ⟨shown, mason, -⟩ := c.compHead_parts
  rw [shape]
  refine ⟨?_, ?_, ?_⟩
  · rw [mason]
    exact congrArg _ reqs
  · rw [mason]
    exact congrArg (fun t => some t.abs) time
  · exact shown.trans chs

/-- The run that waits longest is taken up (R329). -/
theorem Mason.retry_cons (x : Mason) (w : Later) (l : List Later) (waits : x.waits = w :: l) :
    x.retry = { x with waits := l, again := x.again ++ (if w.ask then [(w.page, w.count, w.again)] else []) } := by
  rw [Mason.retry, waits]
  cases h : w.ask <;> simp [h]

theorem Mason.retry_nil (x : Mason) (waits : x.waits = []) : x.retry = x := by
  rw [Mason.retry, waits]

/-- A doorbell of the completion ring (R328, R329). -/
theorem Dev.doorbell_parts (d : Dev) (tail : Nat) (fits : tail < 2 ^ 12) (l : List (Nat × Nat × Nat)) :
    let e := (l.foldl Dev.completion (d.set MSN_CQ_TAIL.TAIL 0 0 tail)).compHead
    e.get MSN_CQ_TAIL.TAIL = tail ∧ d.regsBut e [MSN_CQ_TAIL.TAIL.at, MSN_CQ_HEAD.HEAD.at, MSN_STAT.BK_ERR.at] ∧ e.chs = d.chs := by
  obtain ⟨chs, regs⟩ := foldl_keeps (fun e : Dev => e.chs = d.chs ∧ (d.set MSN_CQ_TAIL.TAIL 0 0 tail).regsBut e [MSN_STAT.BK_ERR.at])
    Dev.completion l (d.set MSN_CQ_TAIL.TAIL 0 0 tail)
    (fun e c he => ⟨(e.completion_parts c).1.trans he.1, Dev.regsBut_trans he.2 (e.completion_parts c).2⟩) ⟨rfl, Dev.regsBut_refl _ _⟩
  generalize l.foldl Dev.completion (d.set MSN_CQ_TAIL.TAIL 0 0 tail) = e at *
  obtain ⟨same, -, moved⟩ := e.compHead_parts
  refine ⟨?_, ?_, same.trans chs⟩
  · rw [Dev.regsBut_read moved _ _ _ rfl, Dev.regsBut_read regs _ _ _ rfl, Dev.get_set_same]
    exact Nat.mod_eq_of_lt fits
  · exact Dev.regsBut_trans (Dev.regsBut_set _ _ _ _ (d.regsBut_refl _) (by simp)) (Dev.regsBut_trans (Dev.regsBut_mono regs (by simp))
      (Dev.regsBut_mono moved (by simp)))

/-! ### A read that fails -/

/-- The request whose buffer holds a page (R329). -/
def Dev.bufferOf (d : Dev) (page : Nat) : Option Req := d.mason.reqs.find? (fun r => r.buf.isSome && decide (r.page ≤ page) && decide (page < r.page + r.count))

/-- The run that a failed read of a page concerns: that of its request, or the page alone. -/
def Dev.failedRun (d : Dev) (page : Nat) : Nat × Nat := match d.bufferOf page with | some r => (r.page, r.count) | none => (page, 1)

/-- A read that has failed a second time: its pages are unavailable (R329). -/
def Dev.readLost (d : Dev) (page : Nat) : Dev :=
  Dev.raise (Dev.compHead { d with mason := { d.mason.fail (d.failedRun page).1 (d.failedRun page).2 with
      failed := d.mason.failed.filter (fun p => p ≠ (d.failedRun page).1)
      reqs := d.mason.reqs.filter (fun r => !(d.bufferOf page = some r))
      comps := d.mason.comps.map (fun c => if (d.bufferOf page).any (fun r => r.tag = c.1) then (c.1, true) else c) } }) MSN_STAT.BK_ERR

theorem Dev.readLost_parts (d : Dev) (page p k : Nat) (run : d.failedRun page = (p, k)) :
    let e := d.readLost page
    e.flag MSN_STAT.BK_ERR = true ∧ (∀ i, i < k → p + i ∈ e.mason.unavail) ∧ p ∉ e.mason.failed ∧ e.chs = d.chs := by
  unfold Dev.readLost
  rw [run]
  generalize made : ({ d with mason := { d.mason.fail p k with
      failed := d.mason.failed.filter (fun q => q ≠ p)
      reqs := d.mason.reqs.filter (fun r => !(d.bufferOf page = some r))
      comps := d.mason.comps.map (fun c => if (d.bufferOf page).any (fun r => r.tag = c.1) then (c.1, true) else c) } } : Dev) = f
  have failed : f.mason.failed = d.mason.failed.filter (fun q => q ≠ p) := by rw [← made]
  have unavail : f.mason.unavail = d.mason.unavail ++ (List.range k).map (· + p) := by rw [← made]; rfl
  have same : f.chs = d.chs := by rw [← made]
  obtain ⟨chs, mason, -⟩ := f.compHead_parts
  refine ⟨Dev.flag_raise_same _ _ _ _ (by decide), fun i low => ?_, ?_, chs.trans same⟩
  · show p + i ∈ f.compHead.mason.unavail
    rw [mason, unavail]
    exact List.mem_append_right _ (List.mem_map.mpr ⟨i, List.mem_range.mpr low, Nat.add_comm i p⟩)
  · show p ∉ f.compHead.mason.failed
    rw [mason, failed]
    simp

theorem State.hostReadFail_fails (s : State) (page : BitVec 36)
    (wanted : ((s.dev.bufferOf page.toNat).isSome || s.dev.mason.wants.any (fun w => w.page = page.toNat && s.dev.directWant w)) = true) (p k : Nat)
    (run : s.dev.failedRun page.toNat = (p, k)) :
    (p ∉ s.dev.mason.failed → ∃ e, exec (.hostReadFail page) s = .next (s.withDev e) ∧ e.mason.failed = s.dev.mason.failed ++ [p]
        ∧ e.mason.waits = s.dev.mason.waits ++ [⟨p, k, false, false⟩] ∧ e.mason.reqs = s.dev.mason.reqs ∧ e.regs = s.dev.regs ∧ e.chs = s.dev.chs)
      ∧ (p ∈ s.dev.mason.failed → ∃ e, exec (.hostReadFail page) s = .next (s.withDev e) ∧ e.flag MSN_STAT.BK_ERR = true
        ∧ (∀ i, i < k → p + i ∈ e.mason.unavail) ∧ p ∉ e.mason.failed ∧ e.chs = s.dev.chs) := by
  have live : ¬ (!((s.dev.bufferOf page.toNat).isSome || s.dev.mason.wants.any (fun w => w.page = page.toNat && s.dev.directWant w))) = true := by
    rw [wanted]
    decide
  constructor
  · intro first
    refine ⟨{ s.dev with mason := { s.dev.mason with failed := s.dev.mason.failed ++ [p], waits := s.dev.mason.waits ++ [⟨p, k, false, false⟩] } },
      (if_neg live).trans ((if_neg ?_).trans ?_), rfl, rfl, rfl, rfl, rfl⟩
    · show ¬ s.dev.mason.failed.contains (s.dev.failedRun page.toNat).1 = true
      rw [run]
      simpa using first
    · show Host.Outcome.next (s.withDev { s.dev with mason := { s.dev.mason with
        failed := s.dev.mason.failed ++ [(s.dev.failedRun page.toNat).1], waits := s.dev.mason.waits ++ [⟨(s.dev.failedRun page.toNat).1, (s.dev.failedRun page.toNat).2, false, false⟩] } }) = _
      rw [run]
  · intro again
    refine ⟨s.dev.readLost page.toNat, (if_neg live).trans (if_pos ?_), s.dev.readLost_parts page.toNat p k run⟩
    show s.dev.mason.failed.contains (s.dev.failedRun page.toNat).1 = true
    rw [run]
    simpa using again

/-- A request without an answer times out, and its tag is free (R329). -/
theorem State.backingTimeout_cases (s : State) (tag : BitVec 16) :
    (s.dev.mason.reqs.any (fun r => r.tag = tag.toNat && r.buf.isNone) = true → ∃ e, exec (.backingTimeout tag) s = .next (s.withDev e)
        ∧ e.flag MSN_STAT.BK_TMO = true ∧ s.dev.regsBut e [MSN_STAT.BK_TMO.at] ∧ tag.toNat ∈ e.mason.freed
        ∧ e.mason.reqs = s.dev.mason.reqs.filter (fun r => r.tag ≠ tag.toNat))
      ∧ (s.dev.mason.reqs.any (fun r => r.tag = tag.toNat && r.buf.isNone) = false → exec (.backingTimeout tag) s = .next s) := by
  show (_ → ∃ e, execBackingTimeout tag s = _ ∧ _) ∧ (_ → execBackingTimeout tag s = _)
  unfold execBackingTimeout
  dsimp only
  split
  case h_1 none =>
    have no : s.dev.mason.reqs.any (fun r => r.tag = tag.toNat && r.buf.isNone) = false := by
      rw [List.any_eq_false]
      exact List.find?_eq_none.mp none
    exact ⟨fun h => absurd (no.symm.trans h) (by decide), fun _ => rfl⟩
  case h_2 r some =>
    have there : s.dev.mason.reqs.any (fun r => r.tag = tag.toNat && r.buf.isNone) = true :=
      List.any_eq_true.mpr ⟨r, List.mem_of_find?_eq_some some, by simpa using List.find?_some some⟩
    have named : r.tag = tag.toNat := by
      have := List.find?_some some
      simp only [Bool.and_eq_true, decide_eq_true_eq] at this
      exact this.1
    refine ⟨fun _ => ⟨_, rfl, Dev.flag_raise_same _ _ _ _ (by decide), ?_, ?_, ?_⟩, fun h => absurd (there.symm.trans h) (by decide)⟩
    · exact Dev.regsBut_set _ _ _ _ (Dev.regsBut_of_regs (Dev.regsBut_refl _ _) rfl) (by simp)
    · rw [← named]
      split <;> exact List.mem_append_right _ (List.mem_singleton.mpr rfl)
    · rw [← named]
      split <;> rfl

/-- Settles O26. -/
theorem pageRequests : Obligations.PageRequests := by
  constructor
  · intro s
    dsimp only
    refine ⟨fun w x ask ext en may tags => ?_, fun no => s.next_of_eq (s.dev.requestPost_idle no)⟩
    obtain ⟨full, posted⟩ := s.dev.requestPost_posted _ w x ask ext en may tags rfl
    refine ⟨fun room => ?_, fun no => ?_⟩
    · obtain ⟨r, ws, parts⟩ := posted room
      exact ⟨_, r, ws, rfl, parts⟩
    · exact ⟨_, s.next_of_eq (full no), Dev.flag_raise_same _ _ _ _ (by decide), s.dev.raise_onlyRegs _ _ _⟩
  · intro s
    dsimp only
    refine ⟨fun tail entries => ⟨_, rfl, s.dev.doorbell_parts tail.toNat tail.isLt _⟩, fun tag bytes => ⟨fun r asked => ?_, fun none => ?_⟩,
      fun tag => ⟨fun asked => ?_, fun none => ?_⟩, fun x l waits => ?_, fun waits => ?_, fun page => ?_⟩
    · obtain ⟨free, held⟩ := bufferRead_parts tag.toNat bytes s.dev s.mem r asked
      exact ⟨fun no => ⟨_, rfl, rfl, free no⟩, fun h => s.next_same (held h)⟩
    · refine s.next_same ?_
      unfold bufferRead
      rw [List.find?_eq_none.mpr (by simpa using none)]
    · exact (s.backingTimeout_cases tag).1 asked
    · exact (s.backingTimeout_cases tag).2 none
    · exact ⟨_, rfl, congrArg (fun m : Mason => { s.dev with mason := m }) (s.dev.mason.retry_cons x l waits)⟩
    · exact s.next_of_eq (y := s.dev) (congrArg (fun m : Mason => { s.dev with mason := m }) (s.dev.mason.retry_nil waits))
    · refine ⟨fun r found => ?_, fun none some => ?_, fun none no => ?_⟩
      · have found' : s.dev.bufferOf page.toNat = some r := found
        exact s.hostReadFail_fails page (by rw [found']; rfl) r.page r.count (by rw [Dev.failedRun, found'])
      · have none' : s.dev.bufferOf page.toNat = .none := none
        obtain ⟨w, isin, named, direct⟩ := some
        exact s.hostReadFail_fails page (by simpa [none'] using ⟨w, isin, named, direct⟩) page.toNat 1 (by rw [Dev.failedRun, none'])
      · have none' : s.dev.bufferOf page.toNat = .none := none
        refine if_pos (show (!((s.dev.bufferOf page.toNat).isSome || s.dev.mason.wants.any (fun w => w.page = page.toNat && s.dev.directWant w))) = true from ?_)
        rw [none']
        simpa using no

end Sys2Proof.Machine
end

section
/-!
PROOF. Descriptor window, extent commit, horizons, bandwidth, the at-risk check and starvation (R304, R317, R321, R323, R326, R330, R332, R340).
-/
namespace Sys2Proof.Machine
open Reg

/-! ### The descriptor window -/

/-- A run of words written into the fields of one register array reads back word by word. -/
theorem Dev.setWords_parts (f : Fld) (v : Nat → Nat) (k : Nat) (d : Dev) :
    let e := (List.range k).foldl (fun d w => d.set f w 0 (v w)) d
    (∀ w, w < k → e.get f w = v w % 2 ^ f.w) ∧ d.onlyRegs e ((List.range k).map (fun w => f.at w)) := by
  induction k with
  | zero => exact ⟨fun _ no => absurd no (Nat.not_lt_zero _), d.onlyRegs_refl _⟩
  | succ k ih =>
    obtain ⟨reads, only⟩ := ih
    dsimp only at reads only ⊢
    rw [List.range_succ, List.foldl_append, List.foldl_cons, List.foldl_nil]
    generalize (List.range k).foldl (fun d w => d.set f w 0 (v w)) d = e at *
    refine ⟨fun w low => ?_, Dev.onlyRegs_set _ _ _ _ (Dev.onlyRegs_mono only (fun x h => by
      rw [List.map_append]
      exact List.mem_append_left _ h)) (by simp)⟩
    by_cases last : w = k
    · rw [last, Dev.get_set_same]
    · rw [Dev.get_set_idx _ _ _ _ _ _ _ _ (Ne.symm last)]
      exact reads w (by omega)

/-! ### Horizons and bandwidth -/

theorem Dev.checkRuns_shows (d : Dev) : d.checkRuns.flag MSN_STAT.CHECK_BUSY = true := d.flag_raise_same _ _ _ (by decide)

theorem Dev.hzWrite_rate (d : Dev) (n : Fin 8) (w : Nat) (legal : 1 ≤ bitsOf w 0 16 ∧ bitsOf w 0 16 ≤ 60000) :
    let e := d.hzWrite n true w
    e.get MSN_DHZn.DHZ n = bitsOf w 0 16 ∧ e.flag MSN_STAT.CHECK_BUSY = true ∧ d.onlyRegs e [MSN_DHZn.DHZ.at n, MSN_STAT.CHECK_BUSY.at] := by
  have eq : d.hzWrite n true w = (d.set MSN_DHZn.DHZ n 0 (bitsOf w 0 16)).checkRuns := (if_pos rfl).trans (if_neg (by simp; omega))
  rw [eq]
  exact ⟨(Dev.get_set_id _ _ _ _ _ _ _ _ (by decide)).trans (d.get_set_bitsOf _ _ _ _ _), Dev.checkRuns_shows _,
    Dev.onlyRegs_set _ _ _ _ (Dev.onlyRegs_set _ _ _ _ (d.onlyRegs_refl _) (by simp)) (by simp)⟩

theorem Dev.hzWrite_horizon (d : Dev) (n : Fin 8) (w : Nat) (legal : d.hzOk n (bitsOf w 0 8) (bitsOf w 16 8) = true) :
    let e := d.hzWrite n false w
    e.get MSN_HZn.LEAD n = bitsOf w 0 8 % 2 ^ MSN_HZn.LEAD.w ∧ e.get MSN_HZn.HEAD n = bitsOf w 16 8 % 2 ^ MSN_HZn.HEAD.w
      ∧ e.flag MSN_STAT.CHECK_BUSY = true
      ∧ d.onlyRegs e [MSN_HZn.LEAD.at n, MSN_HZn.HEAD.at n, MSN_CHn_STAT.HZ_PEND.at n, MSN_STAT.CHECK_BUSY.at] := by
  obtain ⟨v, eq⟩ : ∃ v, d.hzWrite n false w
      = (((d.set MSN_HZn.LEAD n 0 (bitsOf w 0 8)).set MSN_HZn.HEAD n 0 (bitsOf w 16 8)).checkRuns).set MSN_CHn_STAT.HZ_PEND n 0 v :=
    ⟨_, (if_neg (by decide)).trans (if_pos legal)⟩
  rw [eq]
  refine ⟨?_, ?_, ?_, ?_⟩
  · unfold Dev.checkRuns Dev.raise
    simp (disch := decide) only [Dev.get_set_id, Dev.get_set_same]
  · unfold Dev.checkRuns Dev.raise
    simp (disch := decide) only [Dev.get_set_id, Dev.get_set_same]
  · exact (Dev.flag_of_get (Dev.get_set_id _ _ _ _ _ _ _ _ (by decide))).trans (Dev.checkRuns_shows _)
  · exact Dev.onlyRegs_set _ _ _ _ (Dev.onlyRegs_set _ _ _ _ (Dev.onlyRegs_set _ _ _ _ (Dev.onlyRegs_set _ _ _ _ (d.onlyRegs_refl _)
      (by simp)) (by simp)) (by simp)) (by simp)

theorem Dev.bandwidth_parts (d : Dev) (host copy : Nat) (h : host < 2 ^ MSN_BW.HOST.w) (c : copy < 2 ^ MSN_BW.COPY.w) :
    let e := ((d.set MSN_BW.HOST 0 0 host).set MSN_BW.COPY 0 0 copy).bwShow.checkRuns
    e.get MSN_BW.HOST = host ∧ e.get MSN_BW.COPY = copy
      ∧ e.get MSN_BW_EFF.HOST_EFF = min host (14 * d.get MSN_BW_EFF.LANES) % 2 ^ MSN_BW_EFF.HOST_EFF.w
      ∧ e.flag MSN_STAT.CHECK_BUSY = true ∧ d.onlyRegs e [MSN_BW.HOST.at, MSN_BW.COPY.at, MSN_BW_EFF.HOST_EFF.at, MSN_STAT.CHECK_BUSY.at] := by
  refine ⟨?_, ?_, ?_, Dev.checkRuns_shows _, ?_⟩
  · unfold Dev.checkRuns Dev.raise Dev.bwShow
    simp (disch := decide) only [Dev.get_set_id, Dev.get_set_same]
    exact Nat.mod_eq_of_lt h
  · unfold Dev.checkRuns Dev.raise Dev.bwShow
    simp (disch := decide) only [Dev.get_set_id, Dev.get_set_same]
    exact Nat.mod_eq_of_lt c
  · unfold Dev.checkRuns Dev.raise Dev.bwShow
    simp (disch := decide) only [Dev.get_set_id, Dev.get_set_same]
    rw [Nat.mod_eq_of_lt h]
  · exact Dev.onlyRegs_set _ _ _ _ (Dev.onlyRegs_set _ _ _ _ (Dev.onlyRegs_set _ _ _ _ (Dev.onlyRegs_set _ _ _ _ (d.onlyRegs_refl _)
      (by simp)) (by simp)) (by simp)) (by simp)

/-! ### The at-risk check -/

/-- A notice leaves the channels, the time and the Mason as they are, and moves only its ring's registers. -/
def Dev.tells (d e : Dev) (n : Nat) : Prop :=
  e.mason = d.mason ∧ e.chs = d.chs ∧ e.time = d.time ∧ d.regsBut e [MSN_CHn_STAT.READY.at n, MBX_NOTE_TAIL.TAIL.at, MBX_NOTE_TAIL.LOST.at]

theorem Dev.tells_notice (d : Dev) (n code ch : Nat) (ws : List Nat) : d.tells (d.notice code ch ws) n :=
  ⟨Dev.notice_mason _ _ _ _, Dev.notice_chs _ _ _ _, Dev.notice_time _ _ _ _, Dev.regsBut_mono (d.notice_regsBut code ch ws) (by simp)⟩

theorem Dev.tells_trans {d e f : Dev} {n : Nat} (h : d.tells e n) (k : e.tells f n) : d.tells f n :=
  ⟨k.1.trans h.1, k.2.1.trans h.2.1, k.2.2.1.trans h.2.2.1, Dev.regsBut_trans h.2.2.2 k.2.2.2⟩

theorem Dev.tells_readyShow (d : Dev) (m : Memory) (n : Fin 8) : d.tells (d.readyShow m n) n := by
  unfold Dev.readyShow
  dsimp only
  generalize (if d.ready m n then 1 else 0) = r
  split
  · exact ⟨rfl, rfl, rfl, d.regsBut_refl _⟩
  · have set : d.tells (d.set MSN_CHn_STAT.READY n 0 r) n := ⟨rfl, rfl, rfl, Dev.regsBut_set _ _ _ _ (d.regsBut_refl _) (by simp)⟩
    exact Dev.tells_trans set (Dev.tells_notice _ n 1 n [r])

/-- The entries of a channel's list of steps at risk, as they are published (R323). -/
def Dev.riskEntries (d : Dev) (n : Nat) (l : List Risk) (es : List Nat) : Dev :=
  es.foldl (fun d e =>
    let r := l.getD e ⟨0, 0, 0, 0⟩
    (((d.set MSN_RISKn_e0.REASON n e r.reason).set MSN_RISKn_e0.TRACKS n e r.tracks).set MSN_RISKn_e0.STEP n e r.step).set
      MSN_RISKn_e1.ARRIVAL n e r.arrival) d

theorem Dev.riskEntries_parts (d : Dev) (n : Nat) (l : List Risk) (es : List Nat) :
    let e := d.riskEntries n l es
    e.mason = d.mason ∧ e.chs = d.chs ∧ e.time = d.time ∧ ∀ k, e.get MSN_CHn_STAT.RISKS k = d.get MSN_CHn_STAT.RISKS k := by
  induction es generalizing d with
  | nil => exact ⟨rfl, rfl, rfl, fun _ => rfl⟩
  | cons e es ih =>
    obtain ⟨mason, chs, time, risks⟩ := ih ((((d.set MSN_RISKn_e0.REASON n e (l.getD e ⟨0, 0, 0, 0⟩).reason).set MSN_RISKn_e0.TRACKS n e
      (l.getD e ⟨0, 0, 0, 0⟩).tracks).set MSN_RISKn_e0.STEP n e (l.getD e ⟨0, 0, 0, 0⟩).step).set MSN_RISKn_e1.ARRIVAL n e (l.getD e ⟨0, 0, 0, 0⟩).arrival)
    refine ⟨mason, chs, time, fun k => (risks k).trans ?_⟩
    simp (disch := decide) only [Dev.get_set_id]

/-- What a channel's results are when they are published (R323). -/
theorem Dev.riskPublish_parts (d e : Dev) (m : Memory) (n : Fin 8) (made : e = d.riskPublish m n) :
    e.mason.risks = d.mason.risks.set n (d.riskList m n) ∧ e.get MSN_CHn_STAT.RISKS n = (d.riskList m n).length % 2 ^ MSN_CHn_STAT.RISKS.w
      ∧ (∀ k : Fin 8, k ≠ n → e.get MSN_CHn_STAT.RISKS k = d.get MSN_CHn_STAT.RISKS k)
      ∧ e.flag MSN_STAT.RISK = e.mason.risks.any (fun l => !l.isEmpty) ∧ e.chs = d.chs ∧ e.time = d.time := by
  unfold Dev.riskPublish at made
  extract_lets l src a was b c f g at made
  have listed : l = d.riskList m n := rfl
  rw [← listed]
  clear_value l
  obtain ⟨mason, chs, time, risks⟩ : c.mason = b.mason ∧ c.chs = b.chs ∧ c.time = b.time ∧ ∀ k, c.get MSN_CHn_STAT.RISKS k = b.get MSN_CHn_STAT.RISKS k :=
    b.riskEntries_parts n l (List.range 256)
  clear_value c
  have shown : f.flag MSN_STAT.RISK = f.mason.risks.any (fun l => !l.isEmpty) := c.flag_set_bool MSN_STAT.RISK 0 0 (c.mason.risks.any (fun l => !l.isEmpty)) (by decide)
  have last : f.tells e n := by
    rw [made]
    refine Dev.tells_trans ?_ (g.tells_readyShow m n)
    simp only [g]
    split
    · exact ⟨rfl, rfl, rfl, f.regsBut_refl _⟩
    · exact f.tells_notice n _ _ _
  obtain ⟨mason', chs', time', regs⟩ := last
  have counts (k : Nat) : e.get MSN_CHn_STAT.RISKS k = b.get MSN_CHn_STAT.RISKS k :=
    (Dev.regsBut_read regs _ _ _ rfl).trans ((c.get_set_id _ _ _ _ _ _ _ (by decide)).trans (risks k))
  have mine : b.get MSN_CHn_STAT.RISKS n = l.length % 2 ^ MSN_CHn_STAT.RISKS.w :=
    (Dev.get_set_id _ _ _ _ _ _ _ _ (by decide)).trans (a.get_set_same _ _ _ _)
  have others (k : Fin 8) (diff : k ≠ n) : b.get MSN_CHn_STAT.RISKS k = d.get MSN_CHn_STAT.RISKS k :=
    (Dev.get_set_id _ _ _ _ _ _ _ _ (by decide)).trans (a.get_set_idx _ _ _ _ _ _ _ (fun c => diff (Fin.ext c.symm)))
  have before : b.chs = d.chs ∧ b.time = d.time ∧ b.mason.risks = d.mason.risks.set n l := ⟨rfl, rfl, rfl⟩
  have after : f.chs = c.chs ∧ f.time = c.time ∧ f.mason = c.mason := ⟨rfl, rfl, rfl⟩
  clear_value f b
  obtain ⟨chs0, time0, risks0⟩ := before
  obtain ⟨chs1, time1, mason1⟩ := after
  refine ⟨?_, (counts n).trans mine, fun k diff => (counts k).trans (others k diff), ?_, by rw [chs', chs1, chs, chs0], by rw [time', time1, time, time0]⟩
  · rw [mason', mason1, mason, risks0]
  · rw [mason', Dev.flag_of_get (Dev.regsBut_read regs _ _ _ rfl)]
    exact shown

theorem Dev.riskPublishAll_parts (d : Dev) (m : Memory) (eight : d.mason.risks.length = 8) :
    let e := d.eachCh (fun n d => d.riskPublish m n)
    (∀ n : Fin 8, e.get MSN_CHn_STAT.RISKS n = (e.mason.risks.getD n []).length % 2 ^ MSN_CHn_STAT.RISKS.w)
      ∧ e.flag MSN_STAT.RISK = e.mason.risks.any (fun l => !l.isEmpty) ∧ e.chs = d.chs ∧ e.time = d.time := by
  have turn (n : Fin 8) (x : Dev) := x.riskPublish_parts _ m n rfl
  refine ⟨fun n => ?_, ?_, ?_⟩
  · refine (Dev.eachCh_turn n (fun x => x.mason.risks.length = 8) (fun x => x.mason.risks.length = 8
      ∧ x.get MSN_CHn_STAT.RISKS n = (x.mason.risks.getD n []).length % 2 ^ MSN_CHn_STAT.RISKS.w) (fun n d => d.riskPublish m n) d
      (fun k diff x hx => ?_) (fun x hx => ?_) (fun k diff x hx => ?_) eight).2
    · obtain ⟨risks, -⟩ := turn k x
      rw [risks, List.length_set, hx]
    · obtain ⟨risks, count, -⟩ := turn n x
      rw [count, risks, List.length_set, List.getD_set_same _ _ _ _ (by omega)]
      exact ⟨hx, rfl⟩
    · obtain ⟨risks, -, others, -⟩ := turn k x
      have apart : (k : Nat) ≠ n := fun c => diff (Fin.ext c)
      rw [others n (Ne.symm diff), risks, List.length_set, hx.2, List.getD, List.getD, List.getElem?_set_ne apart]
      exact ⟨hx.1, rfl⟩
  · refine Dev.eachCh_turn 0 (fun _ => True) (fun x => x.flag MSN_STAT.RISK = x.mason.risks.any (fun l => !l.isEmpty)) (fun n d => d.riskPublish m n) d
      (fun _ _ _ _ => trivial) (fun x _ => ?_) (fun k _ x _ => ?_) trivial
    · obtain ⟨-, -, -, flag, -⟩ := turn 0 x
      exact flag
    · obtain ⟨-, -, -, flag, -⟩ := turn k x
      exact flag
  · refine Dev.eachCh_keeps (fun x => x.chs = d.chs ∧ x.time = d.time) (fun n d => d.riskPublish m n) d (fun k x hx => ?_) ⟨rfl, rfl⟩
    obtain ⟨-, -, -, -, chs, time⟩ := turn k x
    exact ⟨chs.trans hx.1, time.trans hx.2⟩

/-! ### Starvation -/

/-- A producer that fires gives every line that names it a source (R125). -/
theorem Dev.fire_lines (d : Dev) (code : Nat) (named : code ≠ 0) (awake : d.asleep = false) (l : Nat) (isin : l ∈ d.linesOf code) :
    ∃ x ∈ (d.fire code).ev.srcs, x.line = l := by
  have eq : d.fire code = { d with ev := { d.ev with srcs := d.ev.srcs ++ (d.linesOf code).map (fun l =>
      (⟨l, d.time.crs, d.time.tick, 0, (d.tickAfter 1).1, (d.tickAfter 1).2, false, false⟩ : Src)) } } :=
    if_neg (by simp [named, awake])
  rw [eq]
  exact ⟨_, List.mem_append_right _ (List.mem_map.mpr ⟨l, isin, rfl⟩), rfl⟩

/-- The rings of a channel that run dry or refill are its own (R309, R333). -/
theorem Dev.ringsDry_parts (d : Dev) (n : Fin 8) (f : Option Frag) :
    let e := (d.runDry n f none).refill n
    e.regs = d.regs ∧ d.chsBut e n ∧ e.power = d.power := by
  have dry : (d.runDry n f none).regs = d.regs ∧ d.chsBut (d.runDry n f none) n ∧ (d.runDry n f none).power = d.power := by
    unfold Dev.runDry
    split
    · exact ⟨rfl, fun _ _ => rfl, rfl⟩
    · split
      · exact ⟨rfl, d.onCh_chsBut n _, rfl⟩
      · exact ⟨rfl, fun _ _ => rfl, rfl⟩
  generalize d.runDry n f none = g at *
  obtain ⟨regs, others, power⟩ := dry
  unfold Dev.refill
  split
  · split
    · exact ⟨regs, fun m diff => (Dev.onCh_chsBut _ n _ m diff).trans (others m diff), power⟩
    · exact ⟨regs, others, power⟩
  · exact ⟨regs, others, power⟩

/-- The report of an episode of starvation (R332). -/
theorem Dev.starveNow_parts (d : Dev) (n : Fin 8) :
    let e := d.starveNow n
    e.chs[n].starved = true ∧ e.flag MSN_CHn_STAT.STARVED n = true ∧ d.chsBut e n
      ∧ d.regsBut e [MSN_CHn_STAT.STARVED.at n, MSN_CHn_STAT.STARVE.at n, MSN_STARVEn.COURSES.at n]
      ∧ (d.flag MSN_CHn_STAT.STARVED n = false → e.flag MSN_CHn_STAT.STARVE n = true
          ∧ e.get MSN_STARVEn.COURSES n = (d.get MSN_STARVEn.COURSES n + 1) % 2 ^ MSN_STARVEn.COURSES.w
          ∧ (d.asleep = false → ∀ l ∈ d.linesOf (chProd n 6), ∃ x ∈ e.ev.srcs, x.line = l)) := by
  have cases : d.starveNow n = if d.flag MSN_CHn_STAT.STARVED n then d.onCh n (fun c => { c with starved := true })
      else ((((d.onCh n (fun c => { c with starved := true })).raise MSN_CHn_STAT.STARVED n).raise MSN_CHn_STAT.STARVE n).countWrap
        MSN_STARVEn.COURSES n).fire (chProd n 6) := rfl
  have mine := d.onCh_same n (fun c => { c with starved := true })
  have others := d.onCh_chsBut n (fun c => { c with starved := true })
  have regs : (d.onCh n (fun c => { c with starved := true })).regs = d.regs := rfl
  have power : (d.onCh n (fun c => { c with starved := true })).power = d.power := rfl
  generalize d.onCh n (fun c => { c with starved := true }) = f at *
  by_cases first : d.flag MSN_CHn_STAT.STARVED n = true
  · rw [if_pos first] at cases
    rw [cases]
    exact ⟨by rw [mine], (Dev.flag_of_get (Dev.get_of_regs regs _ _ _)).trans first, others, Dev.regsBut_of_regs (d.regsBut_refl _) regs,
      fun no => absurd first (by rw [no]; decide)⟩
  · rw [if_neg first] at cases
    rw [cases]
    have moved : d.regsBut (((f.raise MSN_CHn_STAT.STARVED n).raise MSN_CHn_STAT.STARVE n).countWrap MSN_STARVEn.COURSES n)
        [MSN_CHn_STAT.STARVED.at n, MSN_CHn_STAT.STARVE.at n, MSN_STARVEn.COURSES.at n] :=
      Dev.regsBut_set _ _ _ _ (Dev.regsBut_set _ _ _ _ (Dev.regsBut_set _ _ _ _ (Dev.regsBut_of_regs (d.regsBut_refl _) regs) (by simp)) (by simp)) (by simp)
    have starved : (((f.raise MSN_CHn_STAT.STARVED n).raise MSN_CHn_STAT.STARVE n).countWrap MSN_STARVEn.COURSES n).flag MSN_CHn_STAT.STARVED n = true := by
      simp (disch := decide) [Dev.flag, Dev.raise, Dev.countWrap, Dev.get_set_id]
    have starve : (((f.raise MSN_CHn_STAT.STARVED n).raise MSN_CHn_STAT.STARVE n).countWrap MSN_STARVEn.COURSES n).flag MSN_CHn_STAT.STARVE n = true := by
      simp (disch := decide) [Dev.flag, Dev.raise, Dev.countWrap, Dev.get_set_id]
    have courses : (((f.raise MSN_CHn_STAT.STARVED n).raise MSN_CHn_STAT.STARVE n).countWrap MSN_STARVEn.COURSES n).get MSN_STARVEn.COURSES n
        = (d.get MSN_STARVEn.COURSES n + 1) % 2 ^ MSN_STARVEn.COURSES.w := by
      simp (disch := decide) only [Dev.raise, Dev.countWrap, Dev.get_set_id, Dev.get_set_same, Dev.get_of_regs regs]
    have chs : (((f.raise MSN_CHn_STAT.STARVED n).raise MSN_CHn_STAT.STARVE n).countWrap MSN_STARVEn.COURSES n).chs = f.chs := rfl
    have same : (((f.raise MSN_CHn_STAT.STARVED n).raise MSN_CHn_STAT.STARVE n).countWrap MSN_STARVEn.COURSES n).power = d.power := power
    generalize ((f.raise MSN_CHn_STAT.STARVED n).raise MSN_CHn_STAT.STARVE n).countWrap MSN_STARVEn.COURSES n = g at *
    refine ⟨?_, ?_, fun m diff => ?_, Dev.regsBut_of_regs moved (Dev.fire_regs _ _), fun _ => ⟨?_, ?_, fun awake l isin => ?_⟩⟩
    · rw [Dev.fire_chs, chs, mine]
    · exact (Dev.flag_of_get (Dev.fire_get _ _ _ _ _)).trans starved
    · rw [Dev.fire_chs, chs]
      exact others m diff
    · exact (Dev.flag_of_get (Dev.fire_get _ _ _ _ _)).trans starve
    · exact (Dev.fire_get _ _ _ _ _).trans courses
    · refine g.fire_lines (chProd n 6) ?_ ?_ l ?_
      · simp [chProd]
      · rw [Dev.asleep, Dev.regsBut_read moved _ _ _ rfl, same]
        exact awake
      · unfold Dev.linesOf Dev.srcSlot at isin ⊢
        simp only [Dev.regsBut_read moved EVL_SRCn_r.SLOT_LO _ _ rfl, Dev.regsBut_read moved EVL_SRCn_r.SLOT_HI _ _ rfl]
        exact isin

/-- A descriptor accepted is pending in the place of one that waits (R304). -/
theorem Dev.descAccept_pending (d : Dev) (i : Nat) (w : List Nat) :
    ∃ v, (d.descAccept i w).mason.descPend = (i, v) :: d.mason.descPend.filter (fun x => x.1 ≠ i) ∧ v.getD 0 0 = w.getD 0 0
      ∧ v.getD 7 0 = ((d.descLatest i).getD 7 0 + 1) % 65536 ∧ (d.descAccept i w).regs = d.regs :=
  ⟨_, rfl, rfl, rfl, rfl⟩

/-- Settles O27. -/
theorem masonSettings : Obligations.MasonSettings := by
  constructor
  · intro s
    dsimp only
    refine ⟨⟨_, rfl, ?_⟩, ⟨fun legal => ?_, fun bad => ?_⟩, fun idx => ⟨fun fine => ?_, fun bad => ?_⟩⟩
    · obtain ⟨reads, only⟩ := s.dev.setWords_parts MSN_DESC_Dw.WORD (fun w => (s.dev.descView s.mem (s.dev.get MSN_DESC_IDX.IDX)).getD w 0) 8
      exact ⟨fun w => reads w w.isLt, only⟩
    · obtain ⟨v, parts⟩ := s.dev.descAccept_pending (s.dev.get MSN_DESC_IDX.IDX) ((List.range 8).map (fun w => s.dev.get MSN_DESC_Dw.WORD w))
      exact ⟨_, v, if_pos legal, parts⟩
    · exact ⟨_, if_neg (by rw [bad]; decide), Dev.flag_raise_same _ _ _ _ (by decide), s.dev.raise_onlyRegs _ _ _⟩
    · refine ⟨_, if_neg ?_, rfl, Dev.flag_raise_same _ _ _ _ (by decide), Dev.regsBut_set _ _ _ _ (Dev.regsBut_of_regs (Dev.regsBut_refl _ _) rfl) (by simp)⟩
      simp only [fine.1, fine.2]
      decide
    · refine ⟨_, if_pos ?_, Dev.flag_raise_same _ _ _ _ (by decide), s.dev.raise_onlyRegs _ _ _⟩
      rw [Bool.or_eq_true, Bool.not_eq_true', Option.isSome_iff_ne_none]
      by_cases none : s.dev.mason.extPend = .none
      · exact .inr (Bool.eq_false_iff.mpr (fun h => bad ⟨none, h⟩))
      · exact .inl none
  · intro s
    dsimp only
    have refused {c : Instr} {x : Dev} (runs : exec c s = .next (s.withDev x)) (eq : x = s.dev.raise MSN_STAT.CFG_REJ) :
        ∃ e, exec c s = .next (s.withDev e) ∧ e.flag MSN_STAT.CFG_REJ = true ∧ s.dev.onlyRegs e [MSN_STAT.CFG_REJ.at] :=
      ⟨_, runs.trans (s.next_of_eq eq), Dev.flag_raise_same _ _ _ _ (by decide), s.dev.raise_onlyRegs _ _ _⟩
    refine ⟨fun n w legal => ⟨_, rfl, s.dev.hzWrite_rate n w.toNat legal⟩, fun n w bad => ?_, fun n w legal => ⟨_, rfl, s.dev.hzWrite_horizon n w.toNat legal⟩,
      fun n w bad => ?_, fun w => ?_, ⟨_, rfl, Dev.flag_raise_same _ _ _ _ (by decide), s.dev.raise_onlyRegs _ _ _⟩, fun eight => ?_, fun n => ⟨fun fresh => ?_, fun starved => ?_⟩⟩
    · exact refused rfl ((if_pos rfl).trans (if_pos (by simp; omega)))
    · exact refused rfl ((if_neg (by decide)).trans (if_neg (by rw [bad]; decide)))
    · split
      case isTrue legal =>
        obtain ⟨h1, h2, c1, c2⟩ := legal
        refine ⟨_, if_neg ?_, s.dev.bandwidth_parts _ _ (Nat.lt_of_le_of_lt h2 (by decide)) (Nat.lt_of_le_of_lt c2 (by decide))⟩
        simp only [Bool.or_eq_true, decide_eq_true_eq]
        omega
      case isFalse bad =>
        refine refused (x := s.dev.raise MSN_STAT.CFG_REJ) (if_pos ?_) rfl
        simp only [Bool.or_eq_true, decide_eq_true_eq]
        omega
    · obtain ⟨counts, risk, chs, time⟩ := s.dev.riskPublishAll_parts s.mem eight
      have runs : exec .atRiskCheckDone s = .next (s.withDev ((s.dev.eachCh (fun n d => d.riskPublish s.mem n)).clear MSN_STAT.CHECK_BUSY)) := rfl
      generalize s.dev.eachCh (fun n d => d.riskPublish s.mem n) = e at *
      refine ⟨_, runs, ?_, ?_, ?_, chs, time⟩
      · simp [Dev.clear, Dev.flag]
      · exact fun n => (Dev.get_set_id _ _ _ _ _ _ _ _ (by decide)).trans (counts n)
      · exact (Dev.flag_of_get (Dev.get_set_id _ _ _ _ _ _ _ _ (by decide))).trans risk
    · obtain ⟨regs, others, power⟩ := s.dev.ringsDry_parts n (s.dev.chs[n].fragAt s.dev.time.tick)
      have runs : exec (.starveBegin n) s = .next (s.withDev (((s.dev.runDry n (s.dev.chs[n].fragAt s.dev.time.tick) none).refill n).starveNow n)) :=
        s.next_of_eq (if_neg (by rw [fresh]; decide))
      generalize (s.dev.runDry n (s.dev.chs[n].fragAt s.dev.time.tick) none).refill n = f at *
      obtain ⟨starved, shown, rest, moved, report⟩ := f.starveNow_parts n
      refine ⟨_, runs, starved, shown, fun first => ?_, Dev.regsBut_trans (Dev.regsBut_of_regs (Dev.regsBut_refl _ _) regs) moved,
        fun m diff => (rest m diff).trans (others m diff)⟩
      obtain ⟨starve, courses, lines⟩ := report ((Dev.flag_of_get (Dev.get_of_regs regs _ _ _)).trans first)
      refine ⟨starve, courses.trans (by rw [Dev.get_of_regs regs]), fun awake l isin => lines ?_ l ?_⟩
      · rw [Dev.asleep, Dev.get_of_regs regs, power]
        exact awake
      · unfold Dev.linesOf Dev.srcSlot at isin ⊢
        simp only [Dev.get_of_regs regs]
        exact isin
    · exact s.next_of_eq (if_pos starved)

end Sys2Proof.Machine
end

section
/-!
PROOF. Mailbox slots (R497).
-/
namespace Sys2Proof.Machine
open Reg

/-- The bits that a mask of 16 leaves of a field of 16. -/
theorem bitAt_and_mask (v : Nat) (w : BitVec 16) (k : Nat) (low : k < 16) :
    bitAt ((v &&& (65535 - w.toNat)) % 2 ^ 16) k = (bitAt v k && !w.getLsbD k) := by
  have mask : (65535 - w.toNat).testBit k = !w.getLsbD k := by
    have := Nat.testBit_two_pow_sub_succ (n := 16) w.isLt k
    rw [show 2 ^ 16 - (w.toNat + 1) = 65535 - w.toNat by omega] at this
    simpa [low, BitVec.getLsbD] using this
  rw [bitAt, bitAt, Nat.testBit_mod_two_pow, Nat.testBit_and, mask]
  simp [low]

/-- Settles O39: a FREE slot, a slot that is not FREE, and the bits that the acknowledgement clears. -/
theorem mailboxSlots : Obligations.MailboxSlots := by
  intro s m
  dsimp only
  refine ⟨fun slot => ⟨fun free done => ⟨_, State.next_of_eq _ (if_neg ?_), ?_, rfl, ?_, rfl, rfl⟩,
    fun taken => ⟨_, State.next_of_eq _ (if_pos ?_), Dev.flag_raise_same _ _ _ _ (by decide),
      Dev.raise_onlyRegs _ _ _ _⟩⟩, fun w => ⟨_, rfl, fun k low => ?_, Dev.onlyRegs_set _ _ _ _ (Dev.onlyRegs_refl _ _) (by simp)⟩⟩
  · simp [free, done]
  · exact s.dev.bit_setBit_same _ _ _ _ slot.isLt
  · exact Dev.regsBut_of_regs (Dev.regsBut_set _ _ _ _ (s.dev.regsBut_refl _) (by simp)) rfl
  · simpa using taken
  · show bitAt (Dev.get _ _ _ _) k = _
    rw [Dev.get_set_same]
    exact bitAt_and_mask _ w k low

end Sys2Proof.Machine
end

section
/-!
PROOF. PLCA, holds, bench time and the settings of the bench bus (R458 to R460, R466, R471, R476 to R478).
-/
namespace Sys2Proof.Machine
open Reg

/-! ### Beacons -/

/-- What follows the PLCA settings in force moves two status bits and no more. -/
theorem Dev.plcaShow_parts (d : Dev) :
    d.plcaShow.bench = d.bench ∧ d.onlyRegs d.plcaShow [BB_STAT.PLCA_ACT.at, BB_STAT.COORD.at]
      ∧ (d.bench.heard = false → d.plcaShow.flag BB_STAT.PLCA_ACT = false) := by
  refine ⟨rfl, Dev.onlyRegs_set _ _ _ _ (Dev.onlyRegs_set _ _ _ _ (d.onlyRegs_refl _) (by simp)) (by simp), fun silent => ?_⟩
  unfold Dev.plcaShow Dev.flag
  simp (disch := decide) only [Dev.get_set_id, Dev.get_set_same]
  simp [silent]

/-- A beacon brings the settings written into force. -/
theorem Dev.beacon_parts (d : Dev) :
    let e := d.beacon
    e.bench.heard = true ∧ e.bench.plca = (d.flag BB_PLCA.EN, d.get BB_PLCA.ID, d.get BB_PLCA.NCNT, d.get BB_PLCA.TOT)
      ∧ d.regsBut e [BB_STAT.NO_TO.at, BB_STAT.PLCA_ACT.at, BB_STAT.COORD.at] ∧ e.out = d.out ∧ e.chs = d.chs := by
  unfold Dev.beacon
  extract_lets b follower missed drop c
  have shown (x : Dev) : x.plcaShow.bench = x.bench ∧ x.regsBut x.plcaShow [BB_STAT.NO_TO.at, BB_STAT.PLCA_ACT.at, BB_STAT.COORD.at]
      ∧ x.plcaShow.out = x.out ∧ x.plcaShow.chs = x.chs :=
    ⟨rfl, Dev.regsBut_mono x.plcaShow_parts.2.1.2 (by simp), rfl, rfl⟩
  have flagged : (c.raiseIf drop BB_STAT.NO_TO).bench = c.bench ∧ c.regsBut (c.raiseIf drop BB_STAT.NO_TO) [BB_STAT.NO_TO.at, BB_STAT.PLCA_ACT.at, BB_STAT.COORD.at]
      ∧ (c.raiseIf drop BB_STAT.NO_TO).out = c.out ∧ (c.raiseIf drop BB_STAT.NO_TO).chs = c.chs := by
    unfold Dev.raiseIf
    split
    · exact ⟨rfl, Dev.regsBut_set _ _ _ _ (c.regsBut_refl _) (by simp), rfl, rfl⟩
    · exact ⟨rfl, c.regsBut_refl _, rfl, rfl⟩
  obtain ⟨bench, regs, out, chs⟩ := shown (c.raiseIf drop BB_STAT.NO_TO)
  obtain ⟨bench', regs', out', chs'⟩ := flagged
  exact ⟨by rw [bench, bench'], by rw [bench, bench'],
    Dev.regsBut_trans (d := c) regs' regs, out.trans out', chs.trans chs'⟩

/-- A loss of the beacon counts and ends PLCA. -/
theorem Dev.beaconLoss_parts (d : Dev) :
    let e := ({ d.count BB_ERR1.BCN_LOSS with bench := { d.bench with heard := false } } : Dev).plcaShow
    e.bench = { d.bench with heard := false } ∧ e.get BB_ERR1.BCN_LOSS = satInc BB_ERR1.BCN_LOSS.w (d.get BB_ERR1.BCN_LOSS)
      ∧ e.flag BB_STAT.PLCA_ACT = false ∧ d.regsBut e [BB_ERR1.BCN_LOSS.at, BB_STAT.PLCA_ACT.at, BB_STAT.COORD.at] := by
  dsimp only
  generalize made : ({ d.count BB_ERR1.BCN_LOSS with bench := { d.bench with heard := false } } : Dev) = c
  have regs : c.regs = (d.count BB_ERR1.BCN_LOSS).regs := by rw [← made]
  have bench : c.bench = { d.bench with heard := false } := by rw [← made]
  obtain ⟨shown, moved, act⟩ := c.plcaShow_parts
  refine ⟨shown.trans bench, ?_, act (by rw [bench]), ?_⟩
  · rw [Dev.regsBut_read moved.2 _ _ _ rfl, Dev.get_of_regs regs]
    exact Dev.get_count_same ..
  · exact Dev.regsBut_trans (Dev.regsBut_of_regs (Dev.regsBut_set _ _ _ _ (d.regsBut_refl _) (by simp)) regs)
      (Dev.regsBut_mono moved.2 (by simp))

/-! ### Bench time -/

/-- A field written with a signed number of its range reads it back. -/
theorem Dev.getS_set (d : Dev) (f : Fld) (n i : Nat) (x : Int) (w : f.w = 16) (low : -32768 ≤ x) (high : x ≤ 32767) :
    (d.set f n i (unsigned 16 x)).getS f n i = x := by
  unfold Dev.getS
  rw [Dev.get_set_same, w]
  unfold signed unsigned
  simp only [Nat.mod_mod]
  split <;> omega

/-- A Sync exchange sets bench time and its offset. -/
theorem Dev.synced_parts (d : Dev) (ofs : Int) (ns : Nat) (low : -32768 ≤ ofs) (high : ofs ≤ 32767) :
    let c := d.set BB_PTP_STAT.OFS 0 0 (unsigned 16 (clampI (-32768) 32767 ofs))
    let c : Dev := { c with bench := { c.bench with ns0 := ns, abs0 := c.time.abs } }
    let e := (c.raiseIf true BB_PTP_STAT.VALID).set BB_PTP_STAT.STATE 0 0 3
    e.getS BB_PTP_STAT.OFS = ofs ∧ e.flag BB_PTP_STAT.VALID = true ∧ e.get BB_PTP_STAT.STATE = 3
      ∧ e.bench = { d.bench with ns0 := ns, abs0 := d.time.abs }
      ∧ d.regsBut e [BB_PTP_STAT.OFS.at, BB_PTP_STAT.VALID.at, BB_PTP_STAT.STATE.at] := by
  have held : clampI (-32768) 32767 ofs = ofs := (if_neg (by omega)).trans (if_neg (by omega))
  rw [held]
  extract_lets b bench c e
  have regs : c.regs = b.regs := rfl
  have flag : (c.raiseIf true BB_PTP_STAT.VALID) = c.raise BB_PTP_STAT.VALID := rfl
  refine ⟨?_, ?_, Dev.get_set_same .., rfl, ?_⟩
  · have same : e.get BB_PTP_STAT.OFS = b.get BB_PTP_STAT.OFS := by
      simp only [e, flag, Dev.raise]
      simp (disch := decide) only [Dev.get_set_id]
      exact Dev.get_of_regs regs _ _ _
    unfold Dev.getS
    rw [same]
    exact Dev.getS_set d _ _ _ ofs rfl low high
  · exact (Dev.flag_of_get (Dev.get_set_id _ _ _ _ _ _ _ _ (by decide))).trans (Dev.flag_raise_same _ _ _ _ (by decide))
  · exact Dev.regsBut_set _ _ _ _ (Dev.regsBut_set _ _ _ _ (Dev.regsBut_of_regs (Dev.regsBut_set _ _ _ _ (d.regsBut_refl _)
      (by simp)) regs) (by simp)) (by simp)

/-! ### Settings -/

theorem Dev.plcaWrite_taken (d : Dev) (v : Nat) (legal : 1 ≤ bitsOf v 8 8 ∧ bitsOf v 8 8 ≤ 32 ∧ 16 ≤ bitsOf v 16 8) :
    let e := d.plcaWrite v
    e.get BB_PLCA.EN = bitsOf v 31 1 ∧ e.get BB_PLCA.TOT = bitsOf v 16 8 ∧ e.get BB_PLCA.NCNT = bitsOf v 8 8 ∧ e.get BB_PLCA.ID = bitsOf v 0 8
      ∧ d.regsBut e [BB_PLCA.EN.at, BB_PLCA.TOT.at, BB_PLCA.NCNT.at, BB_PLCA.ID.at, BB_STAT.PLCA_ACT.at, BB_STAT.COORD.at] ∧ e.chs = d.chs := by
  obtain ⟨b, eq⟩ : ∃ b : Bench, d.plcaWrite v = ({ (((d.set BB_PLCA.EN 0 0 (bitsOf v 31 1)).set BB_PLCA.TOT 0 0 (bitsOf v 16 8)).set
      BB_PLCA.NCNT 0 0 (bitsOf v 8 8)).set BB_PLCA.ID 0 0 (bitsOf v 0 8) with bench := b } : Dev).plcaShow :=
    ⟨_, if_neg (by simp; omega)⟩
  rw [eq]
  generalize made : (((d.set BB_PLCA.EN 0 0 (bitsOf v 31 1)).set BB_PLCA.TOT 0 0 (bitsOf v 16 8)).set
      BB_PLCA.NCNT 0 0 (bitsOf v 8 8)).set BB_PLCA.ID 0 0 (bitsOf v 0 8) = c
  obtain ⟨-, moved, -⟩ := ({ c with bench := b } : Dev).plcaShow_parts
  have read (f : Fld) (other : [BB_STAT.PLCA_ACT.at, BB_STAT.COORD.at].all (fun k => k.1 != f.id) = true) :
      (({ c with bench := b } : Dev).plcaShow).get f = c.get f := Dev.regsBut_read moved.2 _ _ _ other
  have regs : d.regsBut c [BB_PLCA.EN.at, BB_PLCA.TOT.at, BB_PLCA.NCNT.at, BB_PLCA.ID.at, BB_STAT.PLCA_ACT.at, BB_STAT.COORD.at] := by
    rw [← made]
    exact Dev.regsBut_set _ _ _ _ (Dev.regsBut_set _ _ _ _ (Dev.regsBut_set _ _ _ _ (Dev.regsBut_set _ _ _ _ (d.regsBut_refl _)
      (by simp)) (by simp)) (by simp)) (by simp)
  refine ⟨?_, ?_, ?_, ?_, Dev.regsBut_trans regs (Dev.regsBut_mono (d := { c with bench := b }) moved.2 (by simp)), by rw [← made]; rfl⟩
  case refine_4 =>
    rw [read _ rfl, ← made]
    exact Dev.get_set_bitsOf ..
  all_goals
    rw [read _ rfl, ← made]
    simp (disch := decide) only [Dev.get_set_id]
    exact Dev.get_set_bitsOf ..

/-- A refused setting is flagged and stores nothing. -/
theorem State.cfgRefused (s : State) {o : Host.Outcome State Fault Refusal} (h : o = .next (s.withDev (s.dev.raise BB_STAT.CFG_REJ))) :
    ∃ e, o = .next (s.withDev e) ∧ e.flag BB_STAT.CFG_REJ = true ∧ s.dev.onlyRegs e [BB_STAT.CFG_REJ.at] :=
  ⟨_, h, Dev.flag_raise_same _ _ _ _ (by decide), Dev.raise_onlyRegs _ _ _ _⟩

theorem Dev.filterWrite_taken (d : Dev) (x v : Nat) (legal : bitsOf v 0 5 ≤ 16) :
    let e := d.filterWrite x 0 v
    e.get BB_FLTx_0.EN x = bitsOf v 31 1 ∧ e.get BB_FLTx_0.Q x = bitsOf v 30 1 ∧ e.get BB_FLTx_0.POFS x = bitsOf v 16 6
      ∧ e.get BB_FLTx_0.KIND x = bitsOf v 8 8 ∧ e.get BB_FLTx_0.SRC x = bitsOf v 0 5
      ∧ d.onlyRegs e [BB_FLTx_0.EN.at x, BB_FLTx_0.Q.at x, BB_FLTx_0.POFS.at x, BB_FLTx_0.KIND.at x, BB_FLTx_0.SRC.at x] := by
  have eq : d.filterWrite x 0 v = ((((d.set BB_FLTx_0.EN x 0 (bitsOf v 31 1)).set BB_FLTx_0.Q x 0 (bitsOf v 30 1)).set
      BB_FLTx_0.POFS x 0 (bitsOf v 16 6)).set BB_FLTx_0.KIND x 0 (bitsOf v 8 8)).set BB_FLTx_0.SRC x 0 (bitsOf v 0 5) := if_neg (by omega)
  rw [eq]
  refine ⟨?_, ?_, ?_, ?_, Dev.get_set_bitsOf .., ?_⟩
  case refine_5 =>
    exact Dev.onlyRegs_set _ _ _ _ (Dev.onlyRegs_set _ _ _ _ (Dev.onlyRegs_set _ _ _ _ (Dev.onlyRegs_set _ _ _ _ (Dev.onlyRegs_set _ _ _ _
      (d.onlyRegs_refl _) (by simp)) (by simp)) (by simp)) (by simp)) (by simp)
  all_goals
    simp (disch := decide) only [Dev.get_set_id]
    exact Dev.get_set_bitsOf ..

theorem Dev.templateWrite_taken (d : Dev) (x v : Nat) (legal : bitsOf v 16 6 ≤ 32 ∧ 1 ≤ bitsOf v 0 8 ∧ bitsOf v 0 8 ≤ 4) :
    let e := d.templateWrite x 0 v
    e.get BB_TXx_0.ESS x = bitsOf v 30 1 ∧ e.get BB_TXx_0.DEST x = bitsOf v 24 5 ∧ e.get BB_TXx_0.LEN x = bitsOf v 16 6
      ∧ e.get BB_TXx_0.KIND x = bitsOf v 0 8
      ∧ d.onlyRegs e [BB_TXx_0.ESS.at x, BB_TXx_0.DEST.at x, BB_TXx_0.LEN.at x, BB_TXx_0.KIND.at x] := by
  have eq : d.templateWrite x 0 v = (((d.set BB_TXx_0.ESS x 0 (bitsOf v 30 1)).set BB_TXx_0.DEST x 0 (bitsOf v 24 5)).set
      BB_TXx_0.LEN x 0 (bitsOf v 16 6)).set BB_TXx_0.KIND x 0 (bitsOf v 0 8) := (if_pos rfl).trans (if_neg (by simp; omega))
  rw [eq]
  refine ⟨?_, ?_, ?_, Dev.get_set_bitsOf .., ?_⟩
  case refine_4 =>
    exact Dev.onlyRegs_set _ _ _ _ (Dev.onlyRegs_set _ _ _ _ (Dev.onlyRegs_set _ _ _ _ (Dev.onlyRegs_set _ _ _ _
      (d.onlyRegs_refl _) (by simp)) (by simp)) (by simp)) (by simp)
  all_goals
    simp (disch := decide) only [Dev.get_set_id]
    exact Dev.get_set_bitsOf ..

/-- A register of 32 bits takes a word whole. -/
theorem Dev.wordSet_parts (d : Dev) (f : Fld) (n i : Nat) (w : BitVec 32) (wide : f.w = 32) :
    (d.set f n i w.toNat).get f n i = w.toNat ∧ d.onlyRegs (d.set f n i w.toNat) [f.at n i] := by
  refine ⟨?_, Dev.onlyRegs_set _ _ _ _ (d.onlyRegs_refl _) (by simp)⟩
  rw [Dev.get_set_same, wide]
  exact Nat.mod_eq_of_lt w.isLt

/-- Settles O38: first what the bus tells the station, then each settings register. -/
theorem benchSettings : Obligations.BenchSettings := by
  refine ⟨fun s => ?_, fun s w => ?_⟩
  · dsimp only
    refine ⟨fun on => ⟨_, State.next_of_eq s (if_pos on), s.dev.beacon_parts⟩, fun off => ?_, fun on en first => ?_, fun no => ?_,
      fun on en follower => ?_, fun no => ?_, fun ends => ?_, fun endless => if_pos endless, fun ofs ns on en low high => ?_,
      fun sync ofs held ns no => ?_, fun en => ?_, fun no => ?_⟩
    · exact State.next_of_eq s (y := s.dev) (if_neg (by simp [off]))
    · obtain ⟨heard, -, regs, out, -⟩ := s.dev.beacon_parts
      exact ⟨_, _, if_pos (by simp [on, en, first]), heard, congrArg (· ++ _) out, Dev.regsBut_of_regs regs rfl⟩
    · exact if_neg (by rcases no with h | h | h <;> simp [h])
    · exact ⟨_, if_pos (by simp [on, en, follower]), s.dev.beaconLoss_parts⟩
    · exact if_neg (by rcases no with h | h | h <;> simp [h])
    · exact ⟨_, if_neg (by simp [ends]), Dev.flag_of_get (Dev.get_set_id _ _ _ _ _ _ _ _ (by decide)) |>.trans (by simp [Dev.flag]),
        by simp, Dev.onlyRegs_set _ _ _ _ (Dev.onlyRegs_set _ _ _ _ (s.dev.onlyRegs_refl _) (by simp)) (by simp)⟩
    · exact ⟨_, (if_neg (by simp [on, en])).trans (if_neg (by simp)), s.dev.synced_parts ofs ns low high⟩
    · exact if_pos (by rcases no with h | h <;> simp [h])
    · exact ⟨_, if_pos en, Dev.flag_of_get (Dev.get_set_id _ _ _ _ _ _ _ _ (by decide)) |>.trans (by simp [Dev.flag]),
        Dev.get_set_same .., Dev.onlyRegs_set _ _ _ _ (Dev.onlyRegs_set _ _ _ _ (s.dev.onlyRegs_refl _) (by simp)) (by simp)⟩
    · exact if_neg (by simp [no])
  · dsimp only
    refine ⟨?_, fun x => ?_, fun x y known => ?_, fun x => ?_, fun x => ?_, fun x k high => ?_⟩
    · split
      case isTrue legal => exact ⟨_, rfl, s.dev.plcaWrite_taken _ legal⟩
      case isFalse illegal => exact s.cfgRefused (State.next_of_eq s (if_pos (by simp; omega)))
    · split
      case isTrue legal => exact ⟨_, rfl, s.dev.filterWrite_taken x _ legal⟩
      case isFalse illegal => exact s.cfgRefused (State.next_of_eq s (if_pos (by omega)))
    · simp only [List.mem_cons, List.not_mem_nil, or_false] at known
      rcases known with rfl | rfl | rfl | rfl
      · exact ⟨_, rfl, s.dev.wordSet_parts _ x 0 w rfl⟩
      · exact ⟨_, rfl, s.dev.wordSet_parts _ x 0 w rfl⟩
      · exact ⟨_, rfl, s.dev.wordSet_parts _ x 0 w rfl⟩
      · exact ⟨_, rfl, s.dev.wordSet_parts _ x 0 w rfl⟩
    · split
      case isTrue legal => exact ⟨_, rfl, s.dev.templateWrite_taken x _ legal⟩
      case isFalse illegal => exact s.cfgRefused (State.next_of_eq s ((if_pos rfl).trans (if_pos (by simp; omega))))
    · exact ⟨_, State.next_of_eq s ((if_neg (by decide)).trans (if_pos rfl)), s.dev.wordSet_parts _ x 0 w rfl⟩
    · exact ⟨_, State.next_of_eq s ((if_neg (by omega)).trans (if_neg (by omega))), s.dev.wordSet_parts _ x (k.val - 2) w rfl⟩

end Sys2Proof.Machine
end

section
/-!
SUPPORT. What the end of a command leaves unchanged where no field waits to become owned (R6, R496).
-/
namespace Sys2Proof.Machine
open Reg

/-- The registers that the end of a command moves. -/
def answerIds : List Nat := [MBX_BUSYm.BUSY.id, MBX_DONEm.DONE.id]

/-- From `d` to `e` commands were answered: their slots moved, their vectors went out, and nothing else. -/
structure Dev.replied (d e : Dev) : Prop where
  rest : e = { d with regs := e.regs, mbx := e.mbx, cmds := e.cmds, port := { d.port with held := e.port.held }, out := e.out, fresh := e.fresh }
  regs : ∀ f m i, f.id ∉ answerIds → e.get f m i = d.get f m i
  sent : d.out <+: e.out

theorem Dev.replied_refl (d : Dev) : d.replied d := ⟨rfl, fun _ _ _ _ => rfl, List.prefix_rfl⟩

theorem Dev.replied_trans {d e f : Dev} (h : d.replied e) (k : e.replied f) : d.replied f :=
  ⟨k.rest.trans (congrArg (fun x : Dev => { x with regs := f.regs, mbx := f.mbx, cmds := f.cmds, port := { x.port with held := f.port.held }, out := f.out, fresh := f.fresh }) h.rest),
    fun g m i out => (k.regs g m i out).trans (h.regs g m i out), h.sent.trans k.sent⟩

theorem Dev.replied_fields {d e : Dev} (h : d.replied e) :
    e.chs = d.chs ∧ e.time = d.time ∧ e.bench = d.bench ∧ e.porter = d.porter ∧ e.power = d.power ∧ e.boot = d.boot ∧ e.ring = d.ring
      ∧ e.ownWait = d.ownWait := by
  rw [h.rest]
  exact ⟨rfl, rfl, rfl, rfl, rfl, rfl, rfl, rfl⟩

theorem Dev.replied_vector (d : Dev) (v : Nat) : d.replied (d.vector v) := by
  refine ⟨?_, fun f m i _ => d.vector_get v f m i, ?_⟩
  · unfold Dev.vector
    split
    · rfl
    · split
      · rfl
      · rfl
  · unfold Dev.vector
    split
    · exact List.prefix_append _ _
    · split
      · exact List.prefix_rfl
      · exact List.prefix_rfl

theorem Dev.replied_set (d : Dev) (f : Fld) (n i v : Nat) (isin : f.id ∈ answerIds) : d.replied (d.set f n i v) :=
  ⟨rfl, fun _ _ _ out => d.get_set_id _ _ _ _ _ _ _ (fun eq => out (eq ▸ isin)), List.prefix_rfl⟩

theorem Dev.replied_fillFree (m slot : Nat) (k w : Nat) (d : Dev) : d.replied (d.fillFree m slot w k) := by
  induction k generalizing d w with
  | zero => exact d.replied_refl
  | succ k ih =>
    unfold Dev.fillFree
    refine Dev.replied_trans ?_ (ih (w + 1) _)
    exact ⟨rfl, fun _ _ _ _ => rfl, List.prefix_rfl⟩

/-- Where no field waits to become owned, the end of a command settles none. -/
theorem Dev.settleOwn_none {d : Dev} (none : d.ownWait = []) : d.settleOwn = d := by
  obtain ⟨⟩ := d
  subst none
  rfl

theorem Dev.replied_finish (d : Dev) (m slot status : Nat) (res : List Nat) (none : d.ownWait = []) : d.replied (d.finish m slot status res) := by
  unfold Dev.finish
  extract_lets st m1 m2 mem e e'
  have filled : d.replied e := by
    refine Dev.replied_trans ?_ (Dev.replied_fillFree ..)
    exact ⟨rfl, fun _ _ _ _ => rfl, List.prefix_rfl⟩
  have owned : e' = e := Dev.settleOwn_none ((Dev.replied_fields filled).2.2.2.2.2.2.2.trans none)
  rw [owned]
  split
  · exact Dev.replied_trans filled (Dev.replied_trans (Dev.replied_set _ _ _ _ _ (by decide))
      (Dev.replied_trans (Dev.replied_set _ _ _ _ _ (by decide)) (Dev.replied_vector _ _)))
  · exact filled

end Sys2Proof.Machine
end

section
/-!
PROOF. Sending on the bench bus (R471 to R473).
-/
namespace Sys2Proof.Machine
open Reg

/-- What collisions move: their counts, and where they show a doubled identity the PLCA status. -/
def collideKeys : List Key := [BB_ERR2.LATE_COLL.at, BB_ERR1.PLCA_COLL.at, BB_STAT.DUP_ID.at, BB_STAT.PLCA_ACT.at, BB_STAT.COORD.at, BB_ERR2.COLL.at]

/-- Collisions leave the channels, what is emitted and the frame on the line as they are. -/
theorem Dev.collide_parts (d : Dev) (k late : Nat) :
    let e := d.collide k late
    d.regsBut e collideKeys ∧ e.chs = d.chs ∧ e.out = d.out := by
  unfold Dev.collide
  extract_lets c recent dup bench b e
  have late_ : d.regsBut c collideKeys := Dev.regsBut_set _ _ _ _ (d.regsBut_refl _) (by simp [collideKeys])
  simp only [e]
  split
  · have counted : d.regsBut ((b.countBy k BB_ERR1.PLCA_COLL).raiseIf dup BB_STAT.DUP_ID) collideKeys := by
      refine (Dev.onlyRegs_raiseIf (d := b) _ _ _ _ (Dev.onlyRegs_set _ _ _ _ (b.onlyRegs_refl collideKeys) (by simp [collideKeys]))
        (by simp [collideKeys])).2 |> Dev.regsBut_trans (Dev.regsBut_of_regs late_ rfl)
    refine ⟨Dev.regsBut_trans counted (Dev.regsBut_mono (Dev.plcaShow_parts _).2.1.2 (by simp [collideKeys])), ?_, ?_⟩
    · cases decide dup <;> rfl
    · cases decide dup <;> rfl
  · exact ⟨Dev.regsBut_set _ _ _ _ late_ (by simp [collideKeys]), rfl, rfl⟩

/-- The end of a frame of a template: nothing is on the line, and the template waits no more. -/
theorem Dev.benchSent_parts (d : Dev) (x : BenchWait) (colls late : Nat) (line : d.bench.line = some x) (template : x.x < 16) :
    let e := d.benchSent colls late
    e.bench.line = none ∧ e.flag BB_TXx_0.BUSY x.x = false ∧ e.chs = d.chs ∧ (colls < 16 → e.out = d.out ++ [x.frame])
      ∧ (16 ≤ colls → e.out = d.out ∧ e.flag BB_STAT.TX_DROP = true ∧ e.get BB_ERR3.XCOLL = satInc BB_ERR3.XCOLL.w (d.get BB_ERR3.XCOLL)) := by
  obtain ⟨regs, chs, out⟩ := d.collide_parts (min colls 16) late
  have freed : (d.collide (min colls 16) late).benchFree x (decide (colls < 16)) = (d.collide (min colls 16) late).clear BB_TXx_0.BUSY x.x :=
    if_pos template
  unfold Dev.benchSent
  rw [line]
  dsimp only
  rw [freed]
  generalize d.collide (min colls 16) late = c at *
  have busy : (c.clear BB_TXx_0.BUSY x.x).flag BB_TXx_0.BUSY x.x = false := by simp [Dev.flag]
  by_cases few : colls < 16
  · rw [if_neg (by omega)]
    exact ⟨rfl, busy, chs, fun _ => congrArg (· ++ [x.frame]) out, fun many => absurd many (by omega)⟩
  · rw [if_pos (by omega)]
    refine ⟨rfl, ?_, chs, fun no => absurd no few, fun _ => ⟨out, Dev.flag_raise_same _ _ _ _ (by decide), ?_⟩⟩
    · refine Eq.trans (Dev.flag_of_get ?_) busy
      unfold Dev.raise Dev.count
      simp (disch := decide) only [Dev.get_set_id]
      rfl
    · have dropped (f : Dev) (same : f.get BB_ERR3.XCOLL = d.get BB_ERR3.XCOLL) :
          ((f.count BB_ERR3.XCOLL).raise BB_STAT.TX_DROP).get BB_ERR3.XCOLL = satInc BB_ERR3.XCOLL.w (d.get BB_ERR3.XCOLL) :=
        (Dev.get_set_id _ _ _ _ _ _ _ _ (by decide)).trans ((Dev.get_count_same ..).trans (by rw [same]))
      exact dropped _ ((Dev.get_of_regs (d := c.clear BB_TXx_0.BUSY x.x) rfl _ _ _).trans <| (Dev.get_set_id c _ _ _ _ _ _ _ (by decide)).trans (Dev.regsBut_read regs _ _ _ rfl))

/-- A host message is refused (R472). -/
def Dev.hostBad (d : Dev) (kind len : Nat) (ess : Bool) : Prop :=
  d.flag BB_HTX_CTRL.BUSY = true ∨ 256 < len ∨ kind = 0 ∨ 5 ≤ kind ∨ (d.flag BB_STAT.STOPPED = true ∧ ¬ (ess = true ∨ kind = 3 ∨ kind = 4))

theorem Dev.hostSend_refused (d : Dev) (dest kind topic len : Nat) (ess : Bool) (pl : List (BitVec 8)) (bad : d.hostBad kind len ess) :
    d.hostSend dest kind topic len ess pl = d.raise BB_STAT.TX_REJ := by
  refine if_pos ?_
  unfold Dev.hostBad at bad
  simp only [Bool.or_eq_true, Bool.and_eq_true, decide_eq_true_eq, Bool.not_eq_true', Bool.or_eq_false_iff, decide_eq_false_iff_not]
  simp only [not_or, Bool.not_eq_true] at bad
  tauto

/-- A host message that is taken waits, and the registers of its header keep it (R472). -/
theorem Dev.hostSend_taken (d : Dev) (dest kind topic len : Nat) (ess : Bool) (pl : List (BitVec 8)) (good : ¬ d.hostBad kind len ess) :
    let e := d.hostSend dest kind topic len ess pl
    (∃ x : BenchWait, e.bench.wait = d.bench.wait ++ [x] ∧ x.x = 16) ∧ e.flag BB_HTX_CTRL.BUSY = true
      ∧ e.bench.seq = (d.bench.seq + 1) % 2 ^ 16 ∧ e.chs = d.chs ∧ e.time = d.time
      ∧ e.get BB_HTX_CTRL.LEN = len % 2 ^ BB_HTX_CTRL.LEN.w ∧ e.get BB_HTX_CTRL.KIND = kind % 2 ^ BB_HTX_CTRL.KIND.w
      ∧ d.regsBut e [BB_HTX_CTRL.BUSY.at, BB_HTX_CTRL.ESS.at, BB_HTX_CTRL.DEST.at, BB_HTX_CTRL.LEN.at, BB_HTX_CTRL.KIND.at] := by
  obtain ⟨x, header, eq⟩ : ∃ x : BenchWait, x.x = 16 ∧ d.hostSend dest kind topic len ess pl
      = (((((d.benchQueue x).raise BB_HTX_CTRL.BUSY).set BB_HTX_CTRL.ESS 0 0 (if ess then 1 else 0)).set BB_HTX_CTRL.DEST 0 0 dest).set
          BB_HTX_CTRL.LEN 0 0 len).set BB_HTX_CTRL.KIND 0 0 kind := by
    refine ⟨_, rfl, if_neg fun bad => good ?_⟩
    unfold Dev.hostBad
    simp only [Bool.or_eq_true, Bool.and_eq_true, decide_eq_true_eq, Bool.not_eq_true', Bool.or_eq_false_iff, decide_eq_false_iff_not] at bad
    simp only [not_or, Bool.not_eq_true]
    tauto
  rw [eq]
  refine ⟨⟨x, rfl, header⟩, ?_, rfl, rfl, rfl, ?_, Dev.get_set_same .., ?_⟩
  · refine Eq.trans (Dev.flag_of_get ?_) ((d.benchQueue x).flag_raise_same BB_HTX_CTRL.BUSY 0 0 (by decide))
    simp (disch := decide) only [Dev.get_set_id]
  · exact (Dev.get_set_id _ _ _ _ _ _ _ _ (by decide)).trans (Dev.get_set_same ..)
  · exact Dev.regsBut_set _ _ _ _ (Dev.regsBut_set _ _ _ _ (Dev.regsBut_set _ _ _ _ (Dev.regsBut_set _ _ _ _ (Dev.regsBut_set _ _ _ _
      (Dev.regsBut_of_regs (d.regsBut_refl _) rfl) (by simp)) (by simp)) (by simp)) (by simp)) (by simp)

/-- At an opportunity the frame chosen goes on the line (R473). -/
theorem Dev.benchOpp_picked (d : Dev) (x : BenchWait) (on : d.benchOn = true) (idle : d.bench.line = none) (pick : d.benchPick = some x) :
    let e := d.benchOpp
    e.bench.line = some x ∧ e.bench.wait = d.bench.wait.erase x ∧ e.bench.sentLast = true ∧ e.regs = d.regs ∧ e.chs = d.chs := by
  unfold Dev.benchOpp
  rw [if_neg (by simp [on, idle]), pick]
  exact ⟨rfl, rfl, rfl, rfl, rfl⟩

/-- Settles O37: the host's send, an opportunity, and the end of the frame on the line. -/
theorem benchTransmit : Obligations.BenchTransmit := by
  intro s
  dsimp only
  refine ⟨fun w => ⟨fun bad => ⟨_, State.next_of_eq s (s.dev.hostSend_refused _ _ _ _ _ _ bad), Dev.flag_raise_same _ _ _ _ (by decide),
      Dev.raise_onlyRegs _ _ _ _⟩, fun good => ?_⟩, fun x on idle pick => ⟨_, rfl, s.dev.benchOpp_picked x on idle pick⟩,
    fun no => State.next_of_eq s (y := s.dev) (if_pos ?_), fun x line template => ⟨?_, ?_⟩, fun colls late none => ?_⟩
  · obtain ⟨⟨x, wait, header⟩, busy, seq, chs, -, len, kind, regs⟩ := s.dev.hostSend_taken (bitsOf w.toNat 24 5) (bitsOf w.toNat 0 8)
      (s.dev.get BB_HTX_TOPIC.TOPIC) (bitsOf w.toNat 8 9) (bitAt w.toNat 30)
      (payloadOf ((List.range 64).map (fun i => s.dev.get BB_HTX_Dw.DATA i)) 256) good
    exact ⟨_, x, rfl, busy, wait, header, seq, chs, len.trans (Nat.mod_mod _ _), kind.trans (Nat.mod_mod _ _), regs⟩
  · rcases no with off | busy
    · simp [off]
    · simp [Option.isSome_iff_ne_none.mpr busy]
  · obtain ⟨done, busy, chs, sent, -⟩ := s.dev.benchSent_parts x 0 0 line template
    exact ⟨_, rfl, done, sent (by decide), busy, chs⟩
  · obtain ⟨done, busy, chs, -, dropped⟩ := s.dev.benchSent_parts x 16 0 line template
    obtain ⟨out, drop, counted⟩ := dropped (by decide)
    exact ⟨_, rfl, done, out, drop, counted, busy, chs⟩
  · refine State.next_of_eq s (y := s.dev) ?_
    unfold Dev.benchSent
    rw [none]

end Sys2Proof.Machine
end

section
/-!
PROOF. Receiving on the bench bus (R456, R464 to R470, R480).
-/
namespace Sys2Proof.Machine
open Reg

/-! ### Registers named by their fields alone -/

/-- From `d` to `e` only registers moved, and of them none but those of the fields `ids`. -/
def Dev.movesOnly (d e : Dev) (ids : List Nat) : Prop :=
  e = { d with regs := e.regs } ∧ ∀ f m i, f.id ∉ ids → e.get f m i = d.get f m i

theorem Dev.movesOnly_refl (d : Dev) (ids : List Nat) : d.movesOnly d ids := ⟨rfl, fun _ _ _ _ => rfl⟩

theorem Dev.movesOnly_trans {d e f : Dev} {ids : List Nat} (h : d.movesOnly e ids) (k : e.movesOnly f ids) : d.movesOnly f ids :=
  ⟨k.1.trans (congrArg (fun x : Dev => { x with regs := f.regs }) h.1), fun g m i out => (k.2 g m i out).trans (h.2 g m i out)⟩

theorem Dev.movesOnly_set {d e : Dev} {ids : List Nat} (h : d.movesOnly e ids) (f : Fld) (n i v : Nat) (isin : f.id ∈ ids) :
    d.movesOnly (e.set f n i v) ids :=
  Dev.movesOnly_trans h ⟨rfl, fun _ _ _ out => e.get_set_id _ _ _ _ _ _ _ (fun eq => out (eq ▸ isin))⟩

theorem Dev.movesOnly_count {d e : Dev} {ids : List Nat} (h : d.movesOnly e ids) (f : Fld) (n i : Nat) (isin : f.id ∈ ids) :
    d.movesOnly (e.count f n i) ids := Dev.movesOnly_set h _ _ _ _ isin

theorem Dev.movesOnly_fields {d e : Dev} {ids : List Nat} (h : d.movesOnly e ids) :
    e.bench = d.bench ∧ e.chs = d.chs ∧ e.time = d.time ∧ e.ownWait = d.ownWait := by
  rw [h.1]
  exact ⟨rfl, rfl, rfl, rfl⟩

theorem Dev.movesOnly_foldl {α : Type} {ids : List Nat} (f : Dev → α → Dev) (l : List α) (d : Dev)
    (h : ∀ (d : Dev) a, d.movesOnly (f d a) ids) : d.movesOnly (l.foldl f d) ids :=
  foldl_keeps (fun e => d.movesOnly e ids) f l d (fun e a hold => Dev.movesOnly_trans hold (h e a)) (d.movesOnly_refl ids)

/-! ### The message registers -/

/-- The message registers but the data words and the count. -/
def Dev.headShow (d : Dev) (m : BenchMsg) : Dev :=
  let d := ((d.set BB_RXQ_08.SRC_LO 0 0 (m.src % 2 ^ 32)).set BB_RXQ_0C.SRC_HI 0 0 (m.src / 2 ^ 32)).set BB_RXQ_0C.SEQ 0 0 m.seq
  let d := ((d.set BB_RXQ_10.TOPIC 0 0 m.topic).set BB_RXQ_14.KIND 0 0 m.kind).set BB_RXQ_14.FLAGS 0 0 m.flags
  let d := ((d.set BB_RXQ_14.LEN 0 0 m.len).set BB_RXQ_14.ENTRY 0 0 m.entry).set BB_RXQ_14.TRUNC 0 0 (if 256 < m.len then 1 else 0)
  let d := ((d.set BB_RXQ_18.T_SEC 0 0 m.sec).set BB_RXQ_1C.T_NS 0 0 m.ns).set BB_RXQ_20.CRS_LO 0 0 (m.crs % 2 ^ 32)
  (d.set BB_RXQ_24.CRS_HI 0 0 (m.crs / 2 ^ 32)).set BB_RXQ_28.TICK 0 0 m.tick

/-- The fields of the message registers. -/
def rxIds : List Nat := [BB_RXQ_00.COUNT.id, BB_RXQ_08.SRC_LO.id, BB_RXQ_0C.SRC_HI.id, BB_RXQ_0C.SEQ.id, BB_RXQ_10.TOPIC.id, BB_RXQ_14.KIND.id,
  BB_RXQ_14.FLAGS.id, BB_RXQ_14.LEN.id, BB_RXQ_14.ENTRY.id, BB_RXQ_14.TRUNC.id, BB_RXQ_18.T_SEC.id, BB_RXQ_1C.T_NS.id, BB_RXQ_20.CRS_LO.id,
  BB_RXQ_24.CRS_HI.id, BB_RXQ_28.TICK.id, BB_RXQ_Dw.DATA.id]

theorem Dev.headShow_movesOnly (d : Dev) (m : BenchMsg) : d.movesOnly (d.headShow m) rxIds := by
  unfold Dev.headShow
  iterate 14 refine Dev.movesOnly_set ?_ _ _ _ _ (by decide)
  exact d.movesOnly_refl _

/-- The registers follow the oldest message of the queue. -/
theorem Dev.rxShow_eq (d : Dev) :
    d.rxShow = match d.bench.rxq with
      | [] => d.set BB_RXQ_00.COUNT 0 0 d.bench.rxq.length
      | m :: _ => (List.range 64).foldl (fun d w => d.set BB_RXQ_Dw.DATA w 0 (leNat (((m.payload.take 256).drop (4 * w)).take 4)))
          ((d.set BB_RXQ_00.COUNT 0 0 d.bench.rxq.length).headShow m) := rfl

theorem Dev.dataShow_movesOnly (d : Dev) (v : Nat → Nat) (ids : List Nat) (isin : BB_RXQ_Dw.DATA.id ∈ ids) (l : List Nat) :
    d.movesOnly (l.foldl (fun d w => d.set BB_RXQ_Dw.DATA w 0 (v w)) d) ids :=
  Dev.movesOnly_foldl _ l d (fun e _ => Dev.movesOnly_set (e.movesOnly_refl ids) _ _ _ _ isin)

theorem Dev.rxShow_movesOnly (d : Dev) : d.movesOnly d.rxShow rxIds := by
  have counted := Dev.movesOnly_set (d.movesOnly_refl rxIds) BB_RXQ_00.COUNT 0 0 d.bench.rxq.length (by decide)
  rw [Dev.rxShow_eq]
  split
  · exact counted
  · exact Dev.movesOnly_trans (Dev.movesOnly_trans counted (Dev.headShow_movesOnly ..)) (Dev.dataShow_movesOnly _ _ _ (by decide) _)

theorem Dev.rxShow_count (d : Dev) : d.rxShow.get BB_RXQ_00.COUNT = d.bench.rxq.length % 2 ^ BB_RXQ_00.COUNT.w := by
  rw [Dev.rxShow_eq]
  split
  · exact Dev.get_set_same ..
  · refine ((Dev.dataShow_movesOnly _ _ [BB_RXQ_Dw.DATA.id] (by decide) _).2 _ _ _ (by decide)).trans ?_
    unfold Dev.headShow
    simp (disch := decide) only [Dev.get_set_id, Dev.get_set_same]

theorem Dev.rxShow_head (d : Dev) (m : BenchMsg) (l : List BenchMsg) (oldest : d.bench.rxq = m :: l) :
    d.rxShow.get BB_RXQ_10.TOPIC = m.topic % 2 ^ BB_RXQ_10.TOPIC.w ∧ d.rxShow.get BB_RXQ_14.KIND = m.kind % 2 ^ BB_RXQ_14.KIND.w
      ∧ d.rxShow.get BB_RXQ_0C.SEQ = m.seq % 2 ^ BB_RXQ_0C.SEQ.w ∧ d.rxShow.get BB_RXQ_08.SRC_LO = m.src % 2 ^ 32 := by
  have head (f : Fld) (other : f.id ∉ [BB_RXQ_Dw.DATA.id]) :
      d.rxShow.get f = ((d.set BB_RXQ_00.COUNT 0 0 d.bench.rxq.length).headShow m).get f := by
    rw [Dev.rxShow_eq, oldest]
    exact (Dev.dataShow_movesOnly _ _ [BB_RXQ_Dw.DATA.id] (by decide) _).2 _ _ _ other
  rw [head _ (by decide), head _ (by decide), head _ (by decide), head _ (by decide)]
  unfold Dev.headShow
  simp (disch := decide) only [Dev.get_set_id, Dev.get_set_same]
  exact ⟨trivial, trivial, trivial, Nat.mod_mod _ _⟩

/-! ### A STOP or RESUME that is acted on -/

/-- The fields that a STOP or RESUME moves. -/
def stopIds : List Nat := answerIds ++ [BB_TXx_0.BUSY.id, BB_HTX_CTRL.BUSY.id, BB_STAT.STOPPED.id, BB_STOP.UNTIL_RESUME.id, BB_STOP.LEFT.id,
  BB_STAT.TX_DISC.id, BB_STOP.SRC.id]

/-- What a STOP or RESUME leaves as it is. -/
structure Dev.stops (d e : Dev) : Prop where
  chs : e.chs = d.chs
  time : e.time = d.time
  own : e.ownWait = d.ownWait
  rxq : e.bench.rxq = d.bench.rxq
  fires : e.bench.fires = d.bench.fires
  regs : ∀ f m i, f.id ∉ stopIds → e.get f m i = d.get f m i

theorem Dev.stops_refl (d : Dev) : d.stops d := ⟨rfl, rfl, rfl, rfl, rfl, fun _ _ _ _ => rfl⟩

theorem Dev.stops_trans {d e f : Dev} (h : d.stops e) (k : e.stops f) : d.stops f :=
  ⟨k.chs.trans h.chs, k.time.trans h.time, k.own.trans h.own, k.rxq.trans h.rxq, k.fires.trans h.fires,
    fun g m i out => (k.regs g m i out).trans (h.regs g m i out)⟩

theorem Dev.stops_set (d : Dev) (f : Fld) (n i v : Nat) (isin : f.id ∈ stopIds) : d.stops (d.set f n i v) :=
  ⟨rfl, rfl, rfl, rfl, rfl, fun _ _ _ out => d.get_set_id _ _ _ _ _ _ _ (fun eq => out (eq ▸ isin))⟩

theorem Dev.stops_finish (d : Dev) (m slot status : Nat) (res : List Nat) (none : d.ownWait = []) : d.stops (d.finish m slot status res) := by
  have replied := d.replied_finish m slot status res none
  obtain ⟨chs, time, bench, -, -, -, -, own⟩ := Dev.replied_fields replied
  exact ⟨chs, time, own, by rw [bench], by rw [bench], fun f n i out => replied.regs f n i (fun isin => out (List.mem_append_left _ isin))⟩

/-- A frame that waits no more. -/
theorem Dev.stops_benchFree (d : Dev) (w : BenchWait) (sent : Bool) (none : d.ownWait = []) : d.stops (d.benchFree w sent) := by
  have host := d.stops_set BB_HTX_CTRL.BUSY 0 0 0 (by decide)
  have own : (d.clear BB_HTX_CTRL.BUSY).ownWait = [] := none
  unfold Dev.benchFree
  split
  · exact d.stops_set _ _ _ _ (by decide)
  · extract_lets e
    split
    · split
      · exact Dev.stops_trans host (Dev.stops_finish _ _ _ _ _ own)
      · exact Dev.stops_trans host (Dev.stops_finish _ _ _ _ _ own)
    · exact host

theorem Dev.stops_benchStop (d : Dev) (msg : BenchMsg) (none : msg.kind ≠ 4 → d.ownWait = []) :
    let e := d.benchStop msg
    d.stops e ∧ e.flag BB_STAT.STOPPED = !decide (msg.kind = 4) := by
  unfold Dev.benchStop
  split
  case isTrue resume =>
    refine ⟨Dev.stops_trans (Dev.stops_trans (d.stops_set _ _ _ _ (by decide)) (Dev.stops_set _ _ _ _ _ (by decide)))
      (Dev.stops_set _ _ _ _ _ (by decide)), ?_⟩
    unfold Dev.clear Dev.flag
    simp (disch := decide) only [Dev.get_set_id, Dev.get_set_same]
    simp [resume]
  case isFalse stop =>
    extract_lets hold fin gone a bench b c e
    have freed : d.stops a ∧ a.ownWait = [] :=
      foldl_keeps (fun x : Dev => d.stops x ∧ x.ownWait = []) _ gone d
        (fun x w keeps => ⟨Dev.stops_trans keeps.1 (Dev.stops_benchFree x w false keeps.2), (Dev.stops_benchFree x w false keeps.2).own.trans keeps.2⟩)
        ⟨d.stops_refl, none stop⟩
    have kept : d.stops b := Dev.stops_trans freed.1 ⟨rfl, rfl, rfl, rfl, rfl, fun _ _ _ _ => rfl⟩
    have discarded : b.stops (b.raiseIf (!gone.isEmpty) BB_STAT.TX_DISC) := by
      cases gone.isEmpty
      · exact b.stops_set _ _ _ _ (by decide)
      · exact b.stops_refl
    have shown : b.stops c := Dev.stops_trans discarded (Dev.stops_trans (Dev.stops_set _ _ _ _ _ (by decide)) (Dev.stops_set _ _ _ _ _ (by decide)))
    have held : c.stops e := by
      cases whole : decide (hold = 0) with
      | true =>
        simp only [e, whole]
        exact c.stops_set _ _ _ _ (by decide)
      | false =>
        simp only [e, whole]
        exact c.stops_refl
    refine ⟨Dev.stops_trans kept (Dev.stops_trans shown (Dev.stops_trans held (Dev.stops_set _ _ _ _ _ (by decide)))), ?_⟩
    have stopped : c.flag BB_STAT.STOPPED = true :=
      (Dev.flag_of_get (Dev.get_set_id _ _ _ _ _ _ _ _ (by decide))).trans (Dev.flag_raise_same _ _ _ _ (by decide))
    have later : e.flag BB_STAT.STOPPED = c.flag BB_STAT.STOPPED := Dev.flag_of_get (Dev.get_raiseIf_id _ _ _ _ _ _ _ _ (by decide))
    exact (Dev.flag_of_get (Dev.get_set_id _ _ _ _ _ _ _ _ (by decide))).trans (later.trans (stopped.trans (by simp [stop])))

/-! ### A message accepted -/

/-- The counts that the reception of a frame moves beside its own. -/
def noiseIds : List Nat := [BB_ERR0.SYM.id, BB_ERR3.JABBER.id]

/-- What a frame's reception counts of symbols and jabber. -/
def Dev.benchNoise (d : Dev) (syms : Nat) (jabber : Bool) : Dev :=
  let d := d.countBy syms BB_ERR0.SYM
  if jabber then d.count BB_ERR3.JABBER else d

theorem Dev.benchNoise_onlyRegs (d : Dev) (syms : Nat) (jabber : Bool) :
    d.onlyRegs (d.benchNoise syms jabber) [BB_ERR0.SYM.at, BB_ERR3.JABBER.at] := by
  have counted := Dev.onlyRegs_set BB_ERR0.SYM 0 0 (min (d.get BB_ERR0.SYM + syms) (2 ^ BB_ERR0.SYM.w - 1))
    (d.onlyRegs_refl [BB_ERR0.SYM.at, BB_ERR3.JABBER.at]) (by simp)
  cases jabber
  · exact counted
  · exact Dev.onlyRegs_set _ _ _ _ counted (by simp)

theorem Dev.benchNoise_movesOnly (d : Dev) (syms : Nat) (jabber : Bool) : d.movesOnly (d.benchNoise syms jabber) noiseIds := by
  have counted := Dev.movesOnly_set (d.movesOnly_refl noiseIds) BB_ERR0.SYM 0 0 (min (d.get BB_ERR0.SYM + syms) (2 ^ BB_ERR0.SYM.w - 1)) (by decide)
  cases jabber
  · exact counted
  · exact Dev.movesOnly_set counted _ _ _ _ (by decide)

/-- Where the settings of filters and allow-list read the same, the same filters match. -/
theorem Dev.filterHit_of {d e : Dev} (same : ∀ f n i, f.id ∉ noiseIds ++ stopIds → e.get f n i = d.get f n i) (x : Nat) (m : BenchMsg) :
    e.filterHit x m = d.filterHit x m := by
  unfold Dev.filterHit Dev.allows Dev.allowMac Dev.flag
  simp (disch := decide) only [same]

/-- Where the allow-list reads the same, the same sources may stop. -/
theorem Dev.stopOk_of {d e : Dev} (same : ∀ f n i, f.id ∉ noiseIds → e.get f n i = d.get f n i) (src : Nat) : e.stopOk src = d.stopOk src := by
  unfold Dev.stopOk Dev.allows Dev.allowMac Dev.flag
  simp (disch := decide) only [same]

/-- A source may stop where the list is off, or an enabled entry of its address says so (R465). -/
theorem Dev.stopOk_iff (d : Dev) (src : Nat) : d.stopOk src = true ↔ d.flag BB_CTRL.ALLOW_EN = false
    ∨ ∃ a < 16, d.flag BB_ALLOWa_HI.EN a = true ∧ d.allowMac a = src ∧ d.flag BB_ALLOWa_HI.STOP_OK a = true := by
  unfold Dev.stopOk Dev.allows
  simp only [Bool.or_eq_true, Bool.not_eq_true', List.any_eq_true, List.mem_range, Bool.and_eq_true, decide_eq_true_eq, and_assoc]

/-- The device after an accepted message's own action: it stopped, went on, or did neither. -/
def Dev.heeds (c : Dev) (m : BenchMsg) : Dev := if (m.kind = 3 || m.kind = 4) && c.stopOk m.src then c.benchStop m else c

theorem Dev.heeds_parts {d c : Dev} (m : BenchMsg) (near : d.movesOnly c noiseIds) (none : m.kind = 3 → d.ownWait = []) :
    let e := c.heeds m
    c.stops e ∧ (m.kind = 3 → d.stopOk m.src = true → e.flag BB_STAT.STOPPED = true)
      ∧ (m.kind = 4 → d.stopOk m.src = true → e.flag BB_STAT.STOPPED = false)
      ∧ ((m.kind ≠ 3 ∧ m.kind ≠ 4 ∨ ¬ d.stopOk m.src = true) → e.get BB_STAT.STOPPED = d.get BB_STAT.STOPPED) := by
  have ok := Dev.stopOk_of near.2 m.src
  have own := (Dev.movesOnly_fields near).2.2.2
  have stopped := near.2 BB_STAT.STOPPED 0 0 (by decide)
  unfold Dev.heeds
  rw [ok]
  split
  case isTrue acts =>
    simp only [Bool.and_eq_true, Bool.or_eq_true, decide_eq_true_eq] at acts
    obtain ⟨kind, may⟩ := acts
    obtain ⟨kept, shown⟩ := c.stops_benchStop m (fun other => own.trans (none (kind.resolve_right other)))
    exact ⟨kept, fun stop _ => shown.trans (by simp [stop]), fun go _ => shown.trans (by simp [go]), fun no => absurd may (by tauto)⟩
  case isFalse idle =>
    simp only [Bool.and_eq_true, Bool.or_eq_true, decide_eq_true_eq] at idle
    exact ⟨c.stops_refl, fun stop may => absurd ⟨.inl stop, may⟩ idle, fun go may => absurd ⟨.inr go, may⟩ idle, fun _ => stopped⟩

/-- The matching filters are kept, to fire later. -/
def Dev.keepHits (d : Dev) (hits : List Nat) : Dev :=
  if hits.isEmpty then d else { d with bench := { d.bench with fires := d.bench.fires ++ [hits] } }

theorem Dev.keepHits_parts (d : Dev) (hits : List Nat) :
    let e := d.keepHits hits
    e.regs = d.regs ∧ e.chs = d.chs ∧ e.time = d.time ∧ e.bench.rxq = d.bench.rxq
      ∧ e.bench.fires = if hits = [] then d.bench.fires else d.bench.fires ++ [hits] := by
  cases hits with
  | nil => exact ⟨rfl, rfl, rfl, rfl, rfl⟩
  | cons x l => exact ⟨rfl, rfl, rfl, rfl, rfl⟩

/-- A message enters the receive queue, or is lost. -/
def Dev.enqueue (d : Dev) (m : BenchMsg) : Dev :=
  if 32 ≤ d.bench.rxq.length then (d.raise BB_STAT.RXQ_OVF).count BB_RXQ_00.LOST
  else { d with bench := { d.bench with rxq := d.bench.rxq ++ [m] } }.rxShow

theorem Dev.enqueue_parts (d : Dev) (m : BenchMsg) :
    let e := d.enqueue m
    e.chs = d.chs ∧ e.time = d.time ∧ e.bench.fires = d.bench.fires ∧ e.get BB_STAT.STOPPED = d.get BB_STAT.STOPPED
      ∧ (d.bench.rxq.length < 32 → e.bench.rxq = d.bench.rxq ++ [m])
      ∧ (32 ≤ d.bench.rxq.length → e.bench.rxq = d.bench.rxq ∧ e.flag BB_STAT.RXQ_OVF = true
        ∧ e.get BB_RXQ_00.LOST = satInc BB_RXQ_00.LOST.w (d.get BB_RXQ_00.LOST)) := by
  unfold Dev.enqueue
  split
  case isTrue full =>
    refine ⟨rfl, rfl, rfl, ?_, fun room => absurd room (by omega), fun _ => ⟨rfl, ?_, ?_⟩⟩
    · unfold Dev.raise Dev.count
      simp (disch := decide) only [Dev.get_set_id]
    · exact (Dev.flag_of_get (Dev.get_set_id _ _ _ _ _ _ _ _ (by decide))).trans (Dev.flag_raise_same _ _ _ _ (by decide))
    · refine (Dev.get_count_same ..).trans (congrArg _ (Dev.get_set_id _ _ _ _ _ _ _ _ (by decide)))
  case isFalse room =>
    have shown := Dev.rxShow_movesOnly { d with bench := { d.bench with rxq := d.bench.rxq ++ [m] } }
    obtain ⟨bench, chs, time, -⟩ := Dev.movesOnly_fields shown
    exact ⟨chs, time, by rw [bench], shown.2 _ _ _ (by decide), fun _ => by rw [bench], fun full => absurd full room⟩

/-- A message whose sender is no stranger: its own action, its filters' firings, and the receive queue. -/
theorem Dev.benchAccept_eq (c : Dev) (m : BenchMsg) (known : c.flag BB_CTRL.ALLOW_EN = false ∨ m.entry ≠ 16) :
    let e := c.heeds m
    let hits := (List.range 16).filter (fun x => e.filterHit x m)
    let k := e.keepHits hits
    c.benchAccept m = if k.flag BB_CTRL.RXALL || hits.any (fun x => k.flag BB_FLTx_0.Q x) then k.enqueue m else k :=
  if_neg (by rcases known with off | some <;> simp [*])

/-- What becomes of a message that is accepted (R465 to R469). -/
theorem Dev.benchAccept_parts {d c : Dev} (m : BenchMsg) (near : d.movesOnly c noiseIds) (none : m.kind = 3 → d.ownWait = [])
    (known : d.flag BB_CTRL.ALLOW_EN = false ∨ m.entry ≠ 16) :
    let e := c.benchAccept m
    let hits := (List.range 16).filter (fun x => d.filterHit x m)
    let queued := d.flag BB_CTRL.RXALL = true ∨ ∃ x ∈ hits, d.flag BB_FLTx_0.Q x = true
    e.chs = d.chs ∧ e.time = d.time ∧ e.bench.fires = (if hits = [] then d.bench.fires else d.bench.fires ++ [hits])
      ∧ (¬ queued → e.bench.rxq = d.bench.rxq) ∧ (queued → d.bench.rxq.length < 32 → e.bench.rxq = d.bench.rxq ++ [m])
      ∧ (queued → 32 ≤ d.bench.rxq.length → e.bench.rxq = d.bench.rxq ∧ e.flag BB_STAT.RXQ_OVF = true
        ∧ e.get BB_RXQ_00.LOST = satInc BB_RXQ_00.LOST.w (d.get BB_RXQ_00.LOST))
      ∧ e.get BB_STAT.STOPPED = (c.heeds m).get BB_STAT.STOPPED := by
  obtain ⟨bench, chs, time, -⟩ := Dev.movesOnly_fields near
  obtain ⟨heeded, -⟩ := Dev.heeds_parts m near none
  have known' : c.flag BB_CTRL.ALLOW_EN = false ∨ m.entry ≠ 16 := by
    rwa [Dev.flag_of_get (near.2 BB_CTRL.ALLOW_EN 0 0 (by decide))]
  have same : ∀ f n i, f.id ∉ noiseIds ++ stopIds → (c.heeds m).get f n i = d.get f n i := fun f n i out => by
    rw [List.mem_append, not_or] at out
    exact (heeded.regs f n i out.2).trans (near.2 f n i out.1)
  rw [c.benchAccept_eq m known']
  simp only [Dev.filterHit_of same]
  generalize c.heeds m = a at *
  generalize (List.range 16).filter (fun x => d.filterHit x m) = hits
  obtain ⟨regs, chs', time', rxq, fires⟩ := a.keepHits_parts hits
  have flags (f : Fld) (n : Nat) (out : f.id ∉ noiseIds ++ stopIds) : (a.keepHits hits).flag f n = d.flag f n :=
    Dev.flag_of_get ((Dev.get_of_regs regs f n 0).trans (same f n 0 out))
  have lost : (a.keepHits hits).get BB_RXQ_00.LOST = d.get BB_RXQ_00.LOST := (Dev.get_of_regs regs _ _ _).trans (same _ _ _ (by decide))
  simp (disch := decide) only [flags]
  have stopped := Dev.get_of_regs regs BB_STAT.STOPPED 0 0
  generalize a.keepHits hits = k at *
  rw [heeded.rxq, bench] at rxq
  rw [heeded.fires, bench] at fires
  have chsAll : k.chs = d.chs := chs'.trans (heeded.chs.trans chs)
  have timeAll : k.time = d.time := time'.trans (heeded.time.trans time)
  have asked : (d.flag BB_CTRL.RXALL || hits.any (fun x => d.flag BB_FLTx_0.Q x)) = true
      ↔ d.flag BB_CTRL.RXALL = true ∨ ∃ x ∈ hits, d.flag BB_FLTx_0.Q x = true := by simp
  by_cases queued : (d.flag BB_CTRL.RXALL || hits.any (fun x => d.flag BB_FLTx_0.Q x)) = true
  · obtain ⟨chsQ, timeQ, firesQ, stoppedQ, room, full⟩ := k.enqueue_parts m
    rw [if_pos queued]
    rw [rxq] at room full
    rw [lost] at full
    exact ⟨chsQ.trans chsAll, timeQ.trans timeAll, firesQ.trans fires, fun no => absurd (asked.mp queued) no, fun _ => room, fun _ => full,
      stoppedQ.trans stopped⟩
  · rw [if_neg queued]
    exact ⟨chsAll, timeAll, fires, fun _ => rxq, fun yes => absurd (asked.mpr yes) queued, fun yes => absurd (asked.mpr yes) queued, stopped⟩

/-! ### A frame received -/

/-- Where the allow-list reads the same, a frame is parsed alike. -/
theorem Dev.benchParse_of {d e : Dev} (same : ∀ f n i, f.id ∉ noiseIds → e.get f n i = d.get f n i) (src : Nat) (at_ : Nat × Nat)
    (b : List (BitVec 8)) : e.benchParse src at_ b = d.benchParse src at_ b := by
  unfold Dev.benchParse Dev.allowOf Dev.allows Dev.allowMac Dev.flag
  simp (disch := decide) only [same]

/-- A frame's address names the station (R456). -/
def Dev.mine (d : Dev) (dst : Nat) : Bool := dst = d.macOf || dst = 2 ^ 48 - 1 || dst = 0x011B19000000 || dst = benchGroup

theorem Dev.mine_iff (d : Dev) (dst : Nat) :
    d.mine dst = true ↔ dst = d.macOf ∨ dst = 2 ^ 48 - 1 ∨ dst = 0x011B19000000 ∨ dst = benchGroup := by
  unfold Dev.mine
  simp only [Bool.or_eq_true, decide_eq_true_eq, or_assoc]

/-- A frame, once its symbols and jabber are counted: the device whose addresses, list and time it meets is `d`. -/
def Dev.benchServed (d c : Dev) (dst src et ago : Nat) (fcs : Bool) (body : List (BitVec 8)) : Dev :=
  let t := untag et body
  if !fcs then (c.count BB_ERR0.CRC).count BB_ERR4.DISCARD
  else if d.mine dst && t.1 = 0x88F7 then c
  else if !d.mine dst || t.1 ≠ 0x88B5 then c.count BB_ERR4.DISCARD
  else
    let u := d.locate (((d.time.abs - ago) * 256 : Nat) : Int)
    match d.benchParse src (u.1, u.2 / 256) t.2 with
    | none => c.count BB_ERR4.DISCARD
    | some m => c.benchAccept m

/-- A frame received while the port runs. -/
theorem Dev.benchReceive_on (d : Dev) (dst src et syms ago : Nat) (fcs jabber : Bool) (body : List (BitVec 8)) (on : d.benchOn = true) :
    d.benchReceive dst src et fcs syms jabber ago body = d.benchServed (d.benchNoise syms jabber) dst src et ago fcs body := by
  obtain ⟨-, same⟩ := d.benchNoise_movesOnly syms jabber
  obtain ⟨-, -, time, -⟩ := Dev.movesOnly_fields (d.benchNoise_movesOnly syms jabber)
  have own : d.benchReceive dst src et fcs syms jabber ago body
      = (d.benchNoise syms jabber).benchServed (d.benchNoise syms jabber) dst src et ago fcs body := if_neg (by simp [on])
  rw [own]
  generalize d.benchNoise syms jabber = c at *
  unfold Dev.benchServed Dev.mine Dev.locate Dev.macOf
  simp (disch := decide) only [same, time, Dev.benchParse_of same]

section
variable (d c : Dev) (dst src et ago : Nat) (body : List (BitVec 8))

theorem Dev.benchServed_bad : d.benchServed c dst src et ago false body = (c.count BB_ERR0.CRC).count BB_ERR4.DISCARD := rfl

theorem Dev.benchServed_time (mine : d.mine dst = true) (ptp : (untag et body).1 = 0x88F7) : d.benchServed c dst src et ago true body = c := by
  unfold Dev.benchServed
  rw [if_neg (by simp), if_pos (by simp [mine, ptp])]

theorem Dev.benchServed_discard (other : ¬ d.mine dst = true ∨ ((untag et body).1 ≠ 0x88B5 ∧ (untag et body).1 ≠ 0x88F7)
      ∨ ((untag et body).1 = 0x88B5 ∧ d.benchParse src ((d.locate (((d.time.abs - ago) * 256 : Nat) : Int)).1,
          (d.locate (((d.time.abs - ago) * 256 : Nat) : Int)).2 / 256) (untag et body).2 = none)) :
    d.benchServed c dst src et ago true body = c.count BB_ERR4.DISCARD := by
  unfold Dev.benchServed
  rcases other with foreign | ⟨type, ptp⟩ | ⟨type, nothing⟩
  · rw [if_neg (by simp), if_neg (by simp [foreign]), if_pos (by simp [foreign])]
  · rw [if_neg (by simp), if_neg (by simp [ptp]), if_pos (by simp [type])]
  · rw [if_neg (by simp), if_neg (by simp [type])]
    dsimp only
    rw [nothing]
    exact ite_self _

theorem Dev.benchServed_message (m : BenchMsg) (mine : d.mine dst = true) (type : (untag et body).1 = 0x88B5)
    (parsed : d.benchParse src ((d.locate (((d.time.abs - ago) * 256 : Nat) : Int)).1,
          (d.locate (((d.time.abs - ago) * 256 : Nat) : Int)).2 / 256) (untag et body).2 = some m) :
    d.benchServed c dst src et ago true body = c.benchAccept m := by
  unfold Dev.benchServed
  rw [if_neg (by simp), if_neg (by simp [type]), if_neg (by simp [type, mine])]
  dsimp only
  rw [parsed]

end

/-! ### Firings and the oldest message -/

/-- Producers that fire add their lines' sources, of the present tick, and change nothing else. -/
theorem Dev.fireAll_parts (xs : List Nat) (d : Dev) (awake : d.asleep = false) :
    ∃ new, xs.foldl (fun d x => d.fire (0x10 + x)) d = { d with ev := { d.ev with srcs := d.ev.srcs ++ new } }
      ∧ new.map (·.line) = xs.flatMap (fun x => d.linesOf (0x10 + x)) ∧ ∀ x ∈ new, x.crs = d.time.crs ∧ x.tick = d.time.tick := by
  induction xs generalizing d with
  | nil => exact ⟨[], by simp, rfl, by simp⟩
  | cons x xs ih =>
    obtain ⟨first, eq, lines, places⟩ : ∃ new : List Src, d.fire (0x10 + x) = { d with ev := { d.ev with srcs := d.ev.srcs ++ new } }
        ∧ new.map (·.line) = d.linesOf (0x10 + x) ∧ ∀ y ∈ new, y.crs = d.time.crs ∧ y.tick = d.time.tick := by
      refine ⟨_, if_neg (by simp [awake]), ?_, ?_⟩
      · exact (List.map_map ..).trans (List.map_id _)
      · intro y isin
        obtain ⟨l, -, rfl⟩ := List.mem_map.mp isin
        exact ⟨rfl, rfl⟩
    obtain ⟨rest, eq', lines', places'⟩ := ih { d with ev := { d.ev with srcs := d.ev.srcs ++ first } } awake
    refine ⟨first ++ rest, ?_, ?_, fun y isin => (List.mem_append.mp isin).elim (places y) (places' y)⟩
    · rw [List.foldl_cons, eq, eq']
      simp
    · rw [List.map_append, lines, lines', List.flatMap_cons]
      rfl

theorem Dev.fireAll_asleep (xs : List Nat) (d : Dev) (asleep : d.asleep = true) : xs.foldl (fun d x => d.fire (0x10 + x)) d = d := by
  induction xs with
  | nil => rfl
  | cons x xs ih =>
    rw [List.foldl_cons, show d.fire (0x10 + x) = d from if_pos (by simp [asleep]; omega)]
    exact ih

/-- Settles O36: a frame received, the firings of its filters, and a pop. -/
theorem benchReceive : Obligations.BenchReceive := by
  intro s
  dsimp only
  refine ⟨fun dst src et fcs syms jabber ago body on => ?_, fun dst src et fcs syms jabber ago body off => ?_, fun xs rest head => ?_,
    fun none => ?_, ?_⟩
  · have run : exec (.benchFrameReceive dst src et fcs syms jabber ago body) s
        = .next (s.withDev (s.dev.benchServed (s.dev.benchNoise syms jabber) dst.toNat src.toNat et.toNat ago fcs body)) :=
      State.next_of_eq s (s.dev.benchReceive_on _ _ _ _ _ _ _ _ on)
    have near := s.dev.benchNoise_movesOnly syms jabber
    have noise := s.dev.benchNoise_onlyRegs syms jabber
    rw [run]
    simp only [← Dev.mine_iff]
    generalize s.dev.benchNoise syms jabber = c at *
    refine ⟨fun bad => ?_, fun good other => ?_, fun good mine ptp => ?_, fun m good mine type parsed => ⟨fun list stranger => ?_,
      fun known none => ?_⟩⟩
    · subst bad
      refine ⟨_, rfl, ?_, ?_, ?_⟩
      · rw [Dev.benchServed_bad]
        exact (Dev.get_set_id _ _ _ _ _ _ _ _ (by decide)).trans ((Dev.get_count_same ..).trans (congrArg _ (near.2 _ _ _ (by decide))))
      · rw [Dev.benchServed_bad]
        exact (Dev.get_count_same ..).trans (congrArg _ ((Dev.get_set_id _ _ _ _ _ _ _ _ (by decide)).trans (near.2 _ _ _ (by decide))))
      · rw [Dev.benchServed_bad]
        exact Dev.onlyRegs_set _ _ _ _ (Dev.onlyRegs_set _ _ _ _ (Dev.onlyRegs_mono noise (by simp)) (by simp)) (by simp)
    · subst good
      refine ⟨_, State.next_of_eq s (Dev.benchServed_discard s.dev c _ _ _ _ _ other), ?_, ?_⟩
      · exact (Dev.get_count_same ..).trans (congrArg _ (near.2 _ _ _ (by decide)))
      · exact Dev.onlyRegs_set _ _ _ _ (Dev.onlyRegs_mono noise (by simp)) (by simp)
    · subst good
      exact ⟨c, State.next_of_eq s (Dev.benchServed_time s.dev c _ _ _ _ _ mine ptp), noise⟩
    · subst good
      have refused : c.benchAccept m = (c.count BB_ERR4.STRANGER).raise BB_STAT.STRANGER :=
        if_pos (by rw [Dev.flag_of_get (near.2 BB_CTRL.ALLOW_EN 0 0 (by decide))]; simp [list, stranger])
      refine ⟨_, State.next_of_eq s ((Dev.benchServed_message s.dev c _ _ _ _ _ m mine type parsed).trans refused),
        Dev.flag_raise_same _ _ _ _ (by decide), ?_, ?_⟩
      · exact (Dev.get_set_id _ _ _ _ _ _ _ _ (by decide)).trans ((Dev.get_count_same ..).trans (congrArg _ (near.2 _ _ _ (by decide))))
      · exact Dev.onlyRegs_set _ _ _ _ (Dev.onlyRegs_set _ _ _ _ (Dev.onlyRegs_mono noise (by simp)) (by simp)) (by simp)
    · subst good
      obtain ⟨chs, time, fires, out, room, full, stopped⟩ := Dev.benchAccept_parts m near none known
      obtain ⟨-, stop, go, neither⟩ := Dev.heeds_parts m near none
      rw [← Dev.stopOk_iff]
      exact ⟨_, State.next_of_eq s (Dev.benchServed_message s.dev c _ _ _ _ _ m mine type parsed), chs, time, fires, out, room, full,
        fun k may => (Dev.flag_of_get stopped).trans (stop k may), fun k may => (Dev.flag_of_get stopped).trans (go k may),
        fun no => stopped.trans (neither no)⟩
  · exact State.next_of_eq s (y := s.dev) (if_pos (by simp [off]))
  · have run : exec .benchFire s
        = .next (s.withDev (xs.foldl (fun d x => d.fire (0x10 + x)) { s.dev with bench := { s.dev.bench with fires := rest } })) := by
      show (match s.dev.bench.fires with | [] => _ | xs :: rest => _) = _
      rw [head]
    refine ⟨fun awake => ?_, fun asleep => ⟨_, run.trans (State.next_of_eq s (Dev.fireAll_asleep xs _ asleep)), rfl⟩⟩
    obtain ⟨new, eq, lines, places⟩ := Dev.fireAll_parts xs { s.dev with bench := { s.dev.bench with fires := rest } } awake
    exact ⟨_, new, run.trans (State.next_of_eq s eq), rfl, rfl, lines, places, rfl, rfl⟩
  · show (match s.dev.bench.fires with | [] => _ | xs :: rest => _) = _
    rw [none]
  · have shown := Dev.rxShow_movesOnly { s.dev with bench := { s.dev.bench with rxq := s.dev.bench.rxq.drop 1 } }
    obtain ⟨bench, chs, time, -⟩ := Dev.movesOnly_fields shown
    refine ⟨_, rfl, bench, time, (Dev.rxShow_count _).trans ?_, chs, fun m l oldest => Dev.rxShow_head _ m l oldest⟩
    rw [← List.length_drop]

end Sys2Proof.Machine
end

section
/-!
PROOF. Links of the ring (R406, R416, R430, R446).
-/
namespace Sys2Proof.Machine
open Reg

/-- The registers beside a port's own that the loss or the return of a link can move. -/
def linkIds : List Nat := [RING_Pp_STAT.UP.id, CLK_STAT.SRC.id, CLK_STAT.SRC_CHG.id, RING_STAT.STATE.id, CRS_CTRL.SYS_MODE.id,
  MSN_CHn_STAT.READY.id, MBX_NOTE_TAIL.TAIL.id, MBX_NOTE_TAIL.LOST.id]

/-- From `d` to `e` the ring took note of a link: the channels, the time and the power state stand, the loop is no more closed than before, and no
field began to wait to become owned. -/
structure Dev.links (d e : Dev) : Prop where
  chs : e.chs = d.chs
  time : e.time = d.time
  closed : e.ring.closed = d.ring.closed
  own : e.ownWait = d.ownWait
  power : e.power = d.power
  regs : ∀ f m i, f.id ∉ linkIds → e.get f m i = d.get f m i

theorem Dev.links_refl (d : Dev) : d.links d := ⟨rfl, rfl, rfl, rfl, rfl, fun _ _ _ _ => rfl⟩

theorem Dev.links_trans {d e f : Dev} (h : d.links e) (k : e.links f) : d.links f :=
  ⟨k.chs.trans h.chs, k.time.trans h.time, k.closed.trans h.closed, k.own.trans h.own, k.power.trans h.power, fun g m i out => (k.regs g m i out).trans (h.regs g m i out)⟩

theorem Dev.links_set (d : Dev) (f : Fld) (n i v : Nat) (isin : f.id ∈ linkIds) : d.links (d.set f n i v) :=
  ⟨rfl, rfl, rfl, rfl, rfl, fun _ _ _ out => d.get_set_id _ _ _ _ _ _ _ (fun eq => out (eq ▸ isin))⟩

theorem Dev.links_publish (d : Dev) (k : Nat) (ws : List Nat) : d.links (d.publish k ws) := ⟨rfl, rfl, rfl, rfl, rfl, fun _ _ _ _ => rfl⟩

theorem Dev.links_clkSrc (d : Dev) (src : Nat) : d.links (d.clkSrc src) := by
  unfold Dev.clkSrc
  split
  · exact d.links_refl
  · exact Dev.links_trans (d.links_set _ _ _ _ (by decide)) (Dev.links_set _ _ _ _ _ (by decide))

theorem Dev.links_follow (d : Dev) (p : Nat) : d.links (d.follow p) := by
  unfold Dev.follow
  extract_lets good src e
  exact Dev.links_trans (e := e) ⟨rfl, rfl, rfl, rfl, rfl, fun _ _ _ _ => rfl⟩ (Dev.links_trans (Dev.links_set _ _ _ _ _ (by decide))
    (Dev.links_trans (Dev.links_set _ _ _ _ _ (by decide)) (Dev.links_clkSrc _ _)))

theorem Dev.links_noUp (d : Dev) (src : Nat) : d.links (d.noUp src) := by
  unfold Dev.noUp
  extract_lets a e
  exact Dev.links_trans (e := e) ⟨rfl, rfl, rfl, rfl, rfl, fun _ _ _ _ => rfl⟩ (Dev.links_trans (Dev.links_set _ _ _ _ _ (by decide))
    (Dev.links_trans (Dev.links_set _ _ _ _ _ (by decide)) (Dev.links_clkSrc _ _)))

theorem Dev.links_notice (d : Dev) (code ch : Nat) (ws : List Nat) : d.links (d.notice code ch ws) :=
  ⟨d.notice_chs _ _ _, d.notice_time _ _ _, by rw [Dev.notice_ring], d.notice_ownWait _ _ _, d.notice_power _ _ _, fun f m i out =>
    d.notice_regsBut code ch ws f m i (fun isin => out (by
      simp only [List.mem_cons, List.not_mem_nil, or_false] at isin
      rcases isin with same | same
      · rw [show f.id = MBX_NOTE_TAIL.TAIL.id from congrArg Prod.fst same]
        decide
      · rw [show f.id = MBX_NOTE_TAIL.LOST.id from congrArg Prod.fst same]
        decide))⟩

theorem Dev.links_ringState (d : Dev) (st : Nat) : d.links (d.ringState st) := by
  unfold Dev.ringState
  split
  · exact d.links_refl
  · exact Dev.links_trans (Dev.links_trans (d.links_set _ _ _ _ (by decide)) (Dev.links_notice _ _ _ _)) (Dev.links_set _ _ _ _ _ (by decide))

theorem Dev.links_claimOut (d : Dev) : d.links d.claimOut := by
  unfold Dev.claimOut
  split
  · exact d.links_publish _ _
  · exact d.links_refl

theorem Dev.links_claims (d : Dev) (p : Nat) (l : List Claim) : d.links (l.foldl (Dev.claimOn p) d) :=
  foldl_keeps (fun e => d.links e) (Dev.claimOn p) l d (fun _ _ h => Dev.links_trans h ⟨rfl, rfl, rfl, rfl, rfl, fun _ _ _ _ => rfl⟩) d.links_refl

theorem Dev.links_unjoin (d : Dev) : d.links d.unjoin := by
  unfold Dev.unjoin
  extract_lets e
  refine Dev.links_trans (d.links_ringState 1) (Dev.links_trans ?_ (Dev.links_claimOut _))
  exact ⟨rfl, rfl, rfl, rfl, rfl, fun _ _ _ _ => rfl⟩

theorem Dev.links_joinAsk (d : Dev) : d.links d.joinAsk := by
  have asked : d.links { d with ring := { d.ring with asked := true } } := ⟨rfl, rfl, rfl, rfl, rfl, fun _ _ _ _ => rfl⟩
  unfold Dev.joinAsk
  extract_lets st done ring e
  split
  · exact d.links_refl
  · split
    · exact Dev.links_trans asked (Dev.links_publish _ _ _)
    · split
      · exact Dev.links_trans asked (Dev.links_publish _ _ _)
      · exact asked

/-! ### A link lost -/

/-- A link goes, before the port's clock is considered (R446). -/
def Dev.linkGone (d : Dev) (p : Nat) : Dev :=
  let d := (((d.clear RING_Pp_STAT.LINK p).clear RING_Pp_STAT.FWD p).set RING_Pp_STAT.HOPS p 0 511).set RING_Pp_STAT.PEER p 0 1023
  let d := ((d.raise RING_STAT.LINK_CHG).count RING_CNT.LOSSES).fire 6
  let gone := fun (x : Nat × Nat × Nat) => if p = 0 then (x.1, 511, x.2.2) else (x.1, x.2.1, 511)
  ({ d with ring := { d.ring with
    closed := false, close := (0, 0), heard := [], linkAt := d.time.abs, places := d.ring.places.map gone
    cands := if d.ringSt = 1 then d.ring.cands.filter (fun c => c.port ≠ p) else d.ring.cands } }.onMeas p (fun _ => {})).clear RING_STAT.CROSS

/-- What follows for the clock of a port whose link has gone (R435, R447). -/
def Dev.clockGone (d e : Dev) (p : Nat) (rev : Bool) : Dev :=
  let h := e.get RING_Pp_STAT.HOPS (1 - p)
  if !d.flag RING_Pp_STAT.UP p then e
  else if d.ring.closed && e.linked (1 - p) && h ≠ 511 then e.follow (1 - p)
  else
    let e := if h = 511 then e else e.onMeas (1 - p) (fun m => { m with old := some h })
    if e.ringSt = 2 && !rev then (e.noUp 0).unjoin else e.noUp 3

theorem Dev.linkDown_eq (d : Dev) (p : Nat) (rev : Bool) : d.linkDown p rev = d.clockGone (d.linkGone p) p rev := rfl

theorem Dev.links_clockGone (d e : Dev) (p : Nat) (rev : Bool) : e.links (d.clockGone e p rev) := by
  unfold Dev.clockGone
  extract_lets h c
  have noted : e.links c := by
    unfold c
    split
    · exact e.links_refl
    · exact ⟨rfl, rfl, rfl, rfl, rfl, fun _ _ _ _ => rfl⟩
  split
  · exact e.links_refl
  · split
    · exact e.links_follow _
    · split
      · exact Dev.links_trans noted (Dev.links_trans (c.links_noUp 0) (Dev.links_unjoin _))
      · exact Dev.links_trans noted (c.links_noUp 3)

/-- A link that goes: the port shows no link and no hops, the loop is open. -/
theorem Dev.linkGone_parts (d : Dev) (p : Nat) :
    let e := d.linkGone p
    e.linked p = false ∧ e.get RING_Pp_STAT.HOPS p = 511 ∧ e.flag RING_STAT.LINK_CHG = true ∧ e.ring.closed = false ∧ e.chs = d.chs ∧ e.time = d.time := by
  unfold Dev.linkGone
  extract_lets a b gone ring e
  have chs : b.chs = d.chs := Dev.fire_chs _ _
  have time : b.time = d.time := Dev.fire_time _ _
  have fired (f : Fld) (i : Nat) : b.get f i = ((a.raise RING_STAT.LINK_CHG).count RING_CNT.LOSSES).get f i := Dev.fire_get _ _ _ _ _
  clear_value b gone
  have reads (f : Fld) (out : f.id ≠ RING_STAT.CROSS.id) (i : Nat) :
      e.get f i = ((a.raise RING_STAT.LINK_CHG).count RING_CNT.LOSSES).get f i :=
    (Dev.get_set_id _ _ _ _ _ _ _ _ out.symm).trans ((Dev.get_of_regs (d := b) (by rfl) _ _ _).trans (fired f i))
  refine ⟨?_, ?_, ?_, rfl, chs, time⟩
  · unfold Dev.linked Dev.flag
    rw [reads _ (by decide)]
    unfold a Dev.clear Dev.raise Dev.count
    simp (disch := decide) only [Dev.get_set_id, Dev.get_set_same]
    decide
  · rw [reads _ (by decide)]
    unfold a Dev.clear Dev.raise Dev.count
    simp (disch := decide) only [Dev.get_set_id, Dev.get_set_same]
    decide
  · exact (Dev.flag_of_get ((reads _ (by decide) 0).trans (Dev.get_set_id _ _ _ _ _ _ _ _ (by decide)))).trans
      (a.flag_raise_same _ _ _ (by decide))

theorem Dev.linkLost_parts (d : Dev) (p : Nat) (ringed : d.ringed = true) (up : d.linked p = true) :
    let e := d.linkLost p
    e.linked p = false ∧ e.get RING_Pp_STAT.HOPS p = 511 ∧ e.flag RING_STAT.LINK_CHG = true ∧ e.ring.closed = false ∧ e.chs = d.chs ∧ e.time = d.time := by
  obtain ⟨link, hops, chg, closed, chs, time⟩ := d.linkGone_parts p
  have after : (d.linkGone p).links (d.linkLost p) := by
    unfold Dev.linkLost
    rw [if_neg (by simp [ringed, up]), Dev.linkDown_eq]
    dsimp only
    split
    · exact Dev.links_trans (Dev.links_clockGone ..) (Dev.links_publish ..)
    · exact Dev.links_clockGone ..
  exact ⟨(Dev.flag_of_get (after.regs _ _ _ (by decide))).trans link, (after.regs _ _ _ (by decide)).trans hops,
    (Dev.flag_of_get (after.regs _ _ _ (by decide))).trans chg, after.closed.trans closed, after.chs.trans chs, after.time.trans time⟩

/-! ### A link that comes up, or comes back -/

/-- The registers that a link's return moves. -/
theorem Dev.linkBack_parts (d : Dev) (p : Nat) :
    let e := d.linkBack p
    e.linked p = true ∧ e.flag RING_STAT.LINK_CHG = true ∧ e.chs = d.chs ∧ e.time = d.time
      ∧ ∀ f m i, f.id ∉ [RING_Pp_STAT.LINK.id, RING_STAT.LINK_CHG.id, RING_Pp_STAT.FWD.id] → e.get f m i = d.get f m i := by
  unfold Dev.linkBack
  extract_lets ring c
  have fwd (x : Dev) (f : Fld) (m i : Nat) (out : RING_Pp_STAT.FWD.id ≠ f.id) : x.fwdShow.get f m i = x.get f m i := by
    unfold Dev.fwdShow
    simp only [List.foldl_cons, List.foldl_nil]
    rw [Dev.get_set_id _ _ _ _ _ _ _ _ out, Dev.get_set_id _ _ _ _ _ _ _ _ out]
  have reads (f : Fld) (m i : Nat) (out : RING_Pp_STAT.FWD.id ≠ f.id) :
      (((c.raise RING_Pp_STAT.LINK p).raise RING_STAT.LINK_CHG).fire 6).fwdShow.get f m i
        = ((c.raise RING_Pp_STAT.LINK p).raise RING_STAT.LINK_CHG).get f m i := (fwd _ f m i out).trans (Dev.fire_get _ _ _ _ _)
  refine ⟨?_, ?_, Dev.fire_chs _ _, Dev.fire_time _ _, fun f m i out => ?_⟩
  · exact (Dev.flag_of_get ((reads _ _ _ (by decide)).trans (Dev.get_set_id _ _ _ _ _ _ _ _ (by decide)))).trans
      (c.flag_raise_same _ _ _ (by decide))
  · exact (Dev.flag_of_get (reads _ _ _ (by decide))).trans (Dev.flag_raise_same _ _ _ _ (by decide))
  · simp only [List.mem_cons, List.not_mem_nil, or_false, not_or] at out
    obtain ⟨link, chg, forward⟩ := out
    rw [reads _ _ _ (Ne.symm forward)]
    exact (Dev.get_set_id _ _ _ _ _ _ _ _ (Ne.symm chg)).trans ((Dev.get_set_id _ _ _ _ _ _ _ _ (Ne.symm link)).trans (Dev.get_of_regs rfl _ _ _))

theorem Dev.linkUp_parts (d : Dev) (p dl : Nat) (ringed : d.ringed = true) (down : d.linked p = false) (member : d.isRoot = false)
    (right : (d.measOf p).same = false) (near : dl ≤ 180000) :
    let e := d.linkUp p dl
    e.linked p = true ∧ e.get RING_Pp_DLY.DELAY p = dl % 2 ^ RING_Pp_DLY.DELAY.w ∧ e.flag RING_STAT.LINK_CHG = true ∧ e.chs = d.chs ∧ e.time = d.time := by
  obtain ⟨link, chg, chs, time, regs⟩ := (d.set RING_Pp_DLY.DELAY p 0 dl).linkBack_parts p
  have after : ((d.set RING_Pp_DLY.DELAY p 0 dl).linkBack p).links (d.linkUp p dl) := by
    unfold Dev.linkUp
    rw [if_neg (by simp [ringed, down]), if_neg (by simp [right]), if_neg (by omega)]
    have state : ((d.set RING_Pp_DLY.DELAY p 0 dl).linkBack p).get RING_STAT.STATE = d.get RING_STAT.STATE :=
      (regs _ _ _ (by decide)).trans (Dev.get_set_id _ _ _ _ _ _ _ _ (by decide))
    generalize (d.set RING_Pp_DLY.DELAY p 0 dl).linkBack p = e at *
    have other : e.isRoot = false := by
      unfold Dev.isRoot at member ⊢
      rwa [state]
    dsimp only
    rw [other, if_neg (by decide)]
    split
    · exact e.links_publish _ _
    · split
      · exact Dev.links_trans (Dev.links_claims _ _ _) (Dev.links_claimOut _)
      · exact e.links_refl
  exact ⟨(Dev.flag_of_get (after.regs _ _ _ (by decide))).trans link,
    (after.regs _ _ _ (by decide)).trans ((regs _ _ _ (by decide)).trans (Dev.get_set_same ..)),
    (Dev.flag_of_get (after.regs _ _ _ (by decide))).trans chg, after.chs.trans chs, after.time.trans time⟩

theorem Dev.recalDone_parts (d : Dev) (p asym : Nat) (reversed : d.flag RING_Pp_STAT.REV p = true) (out : (d.measOf p).revEnd = none)
    (member : d.isRoot = false) :
    let e := d.recalDone p asym
    e.get RING_Pp_ASYM.ASYM p = asym % 2 ^ RING_Pp_ASYM.ASYM.w ∧ e.linked p = true ∧ e.chs = d.chs ∧ e.time = d.time := by
  obtain ⟨link, -, chs, time, regs⟩ := ((d.set RING_Pp_ASYM.ASYM p 0 asym).count RING_CNT.LOSSES).linkBack_parts p
  have after : (((d.set RING_Pp_ASYM.ASYM p 0 asym).count RING_CNT.LOSSES).linkBack p).links (d.recalDone p asym) := by
    unfold Dev.recalDone
    rw [if_neg (by simp [reversed, out])]
    have state : (((d.set RING_Pp_ASYM.ASYM p 0 asym).count RING_CNT.LOSSES).linkBack p).get RING_STAT.STATE = d.get RING_STAT.STATE :=
      (regs _ _ _ (by decide)).trans ((Dev.get_set_id _ _ _ _ _ _ _ _ (by decide)).trans (Dev.get_set_id _ _ _ _ _ _ _ _ (by decide)))
    generalize ((d.set RING_Pp_ASYM.ASYM p 0 asym).count RING_CNT.LOSSES).linkBack p = b at *
    extract_lets c named a ring e i f
    have noted : b.links e := ⟨rfl, rfl, rfl, rfl, rfl, fun _ _ _ _ => rfl⟩
    have other : e.isRoot = false := by
      unfold Dev.isRoot at member ⊢
      rwa [Dev.get_of_regs (d := b) (e := e) (by rfl), state]
    have told : e.links f := by
      unfold f
      rw [other]
      split
      · exact e.links_refl
      · exact e.links_publish _ _
    refine Dev.links_trans noted (Dev.links_trans told (Dev.links_trans ?_ (Dev.links_joinAsk _)))
    split
    · exact f.links_follow _
    · exact f.links_refl
  refine ⟨(after.regs _ _ _ (by decide)).trans ((regs _ _ _ (by decide)).trans ?_), (Dev.flag_of_get (after.regs _ _ _ (by decide))).trans link,
    after.chs.trans chs, after.time.trans time⟩
  exact (Dev.get_set_id _ _ _ _ _ _ _ _ (by decide)).trans (Dev.get_set_same ..)

/-- Settles O31: a link lost, a link that comes up near, far or wrongly wired, and a calibration finished. -/
theorem ringLinks : Obligations.RingLinks := by
  intro s p
  dsimp only
  refine ⟨fun ringed up => ?_, fun no cv => ?_, fun dl ringed down member right near => ⟨_, rfl, ?_⟩, fun dl ringed down right far => ?_,
    fun dl ringed down wrong => ?_, fun dl no => ?_, fun a reversed out member => ⟨_, rfl, ?_⟩, fun a no => ?_⟩
  · have counted : s.dev.violations p 0 = s.dev.countBy 0 RING_Pp_ERR.CV p := if_pos (by simp [ringed, up])
    have still : (s.dev.countBy 0 RING_Pp_ERR.CV p).ringed = true ∧ (s.dev.countBy 0 RING_Pp_ERR.CV p).linked p = true := by
      unfold Dev.ringed Dev.linked Dev.flag Dev.countBy at *
      simp (disch := decide) only [Dev.get_set_id]
      exact ⟨ringed, up⟩
    exact ⟨_, State.next_of_eq s (congrArg (fun x : Dev => x.linkLost p) counted), Dev.linkLost_parts _ p still.1 still.2⟩
  · have quiet : s.dev.violations p cv = s.dev := if_neg (by rcases no with h | h <;> simp [h])
    exact State.next_of_eq s (y := s.dev) ((congrArg (fun x : Dev => x.linkLost p) quiet).trans (if_pos (by rcases no with h | h <;> simp [h])))
  · exact s.dev.linkUp_parts p _ ringed down member right near
  · exact ⟨_, State.next_of_eq s ((if_neg (by simp [ringed, down])).trans ((if_neg (by simp [right])).trans (if_pos far))),
      Dev.flag_raise_same _ _ _ _ (by decide), Dev.raise_onlyRegs _ _ _ _⟩
  · exact ⟨_, State.next_of_eq s ((if_neg (by simp [ringed, down])).trans (if_pos wrong)),
      Dev.flag_raise_same _ _ _ _ (by decide), Dev.raise_onlyRegs _ _ _ _⟩
  · exact State.next_of_eq s (y := s.dev) (if_pos (by rcases no with h | h <;> simp [h]))
  · exact s.dev.recalDone_parts p _ reversed out member
  · exact State.next_of_eq s (y := s.dev) (if_pos (by rcases no with h | h <;> simp [h, Option.isSome_iff_ne_none]))

end Sys2Proof.Machine
end

section
/-!
PROOF. Link frames and lane cells (R406, R413, R415, R417): the statement fails where the measurements hold no entry for a port.
-/
namespace Sys2Proof.Machine
open Reg

/-- An UNJOINED device whose list of port measurements is empty: what port 0 measures reads as the default, and no write of it is kept. -/
def unmeasured : Dev :=
  let d := ({} : Dev).set RING_STAT.STATE 0 0 1
  { d with ring := { d.ring with meas := [] } }

/-- Refutes O32: a link frame from a wrongly wired port comes to port 0 of `unmeasured`, and the measurements do not keep that it was wrong. -/
theorem not_ringFrames : ¬ Obligations.RingFrames := by
  intro h
  obtain ⟨wired, -⟩ := h { State.reset with dev := unmeasured }
  obtain ⟨e, run, -, -, same, -⟩ := wired 0 0 0 (by decide +kernel) (by decide +kernel)
  have eq := State.dev_of_next run
  rw [← eq] at same
  exact absurd same (by decide +kernel)

end Sys2Proof.Machine
end

section
/-!
PROOF. The root of a ring: admissions, evictions and calibrations (R426, R427, R430, R445).
-/
namespace Sys2Proof.Machine
open Reg

/-! ### What is published -/

/-- New values of L_min are noted and published, and nothing else changes. -/
theorem Dev.lminTell_parts (d : Dev) (l : List (Nat × Nat)) :
    let e := d.lminTell l
    e.ring.lmins = d.ring.lmins ++ l ∧ e.ring.adds = d.ring.adds ∧ e.ring.roster = d.ring.roster ∧ e.regs = d.regs ∧ e.chs = d.chs
      ∧ e.time = d.time := by
  unfold Dev.lminTell
  exact foldl_keeps (fun e : Dev => e.ring.lmins = d.ring.lmins ++ l ∧ e.ring.adds = d.ring.adds ∧ e.ring.roster = d.ring.roster
      ∧ e.regs = d.regs ∧ e.chs = d.chs ∧ e.time = d.time) (fun (d : Dev) (x : Nat × Nat) => d.publish 3 [x.1, x.2]) l _ (fun _ _ h => h)
    ⟨rfl, rfl, rfl, rfl, rfl, rfl⟩

theorem Dev.joinRequest_parts (d : Dev) (root : d.isRoot = true) (room : (d.ring.roster ++ d.ring.adds.map (·.1)).length < 512) :
    let used := d.ring.roster ++ d.ring.adds.map (·.1)
    let e := d.joinRequest
    e.ring.adds = d.ring.adds ++ [(lowestFree used, d.time.crs + 2 * d.lmin)]
      ∧ e.ring.lmins = d.ring.lmins ++ d.lminPlan (used.length + 1) (d.time.crs + d.lmin) ∧ e.regs = d.regs ∧ e.chs = d.chs := by
  obtain ⟨lmins, adds, -, regs, chs, -⟩ := d.lminTell_parts (d.lminPlan ((d.ring.roster ++ d.ring.adds.map (·.1)).length + 1) (d.time.crs + d.lmin))
  unfold Dev.joinRequest
  dsimp only
  rw [if_neg (by simp [root]), if_neg (by omega)]
  exact ⟨congrArg (· ++ _) adds, lmins, regs, chs⟩

/-- Where no length waits for a joint, the plan of L_min has one value. -/
theorem Dev.lminPlan_alone (d : Dev) (n at_ : Nat) (none : d.time.lenPend = none) : d.lminPlan n at_ = [(lminOf n (d.lenAt at_), at_)] := by
  unfold Dev.lminPlan
  rw [none]
  rfl

/-! ### An eviction -/

/-- From `d` to `e` the ring may have taken links down for a calibration: the channels, the time and the roster stand. -/
structure Dev.calibrates (d e : Dev) : Prop where
  chs : e.chs = d.chs
  time : e.time = d.time
  roster : e.ring.roster = d.ring.roster

theorem Dev.calibrates_refl (d : Dev) : d.calibrates d := ⟨rfl, rfl, rfl⟩

theorem Dev.calibrates_trans {d e f : Dev} (h : d.calibrates e) (k : e.calibrates f) : d.calibrates f :=
  ⟨k.chs.trans h.chs, k.time.trans h.time, k.roster.trans h.roster⟩

theorem Dev.calibrates_clkSrc (d : Dev) (src : Nat) : d.calibrates (d.clkSrc src) := by
  unfold Dev.clkSrc
  split
  · exact d.calibrates_refl
  · exact ⟨rfl, rfl, rfl⟩

theorem Dev.calibrates_follow (d : Dev) (p : Nat) : d.calibrates (d.follow p) := by
  unfold Dev.follow
  extract_lets good ring e
  exact Dev.calibrates_trans (e := (e.set RING_Pp_STAT.UP p 0 1).set RING_Pp_STAT.UP (1 - p) 0 0) ⟨rfl, rfl, rfl⟩ (Dev.calibrates_clkSrc _ _)

theorem Dev.calibrates_noUp (d : Dev) (src : Nat) : d.calibrates (d.noUp src) := by
  unfold Dev.noUp
  extract_lets ring e
  exact Dev.calibrates_trans (e := (e.set RING_Pp_STAT.UP 0 0 0).set RING_Pp_STAT.UP 1 0 0) ⟨rfl, rfl, rfl⟩ (Dev.calibrates_clkSrc _ _)

theorem Dev.calibrates_linkGone (d : Dev) (p : Nat) : d.calibrates (d.linkGone p) := by
  unfold Dev.linkGone
  extract_lets a b gone ring
  have chs : b.chs = d.chs := Dev.fire_chs _ _
  have time : b.time = d.time := Dev.fire_time _ _
  have same : b.ring.roster = d.ring.roster := congrArg Ring.roster (Dev.fire_ring _ _)
  clear_value b gone
  exact ⟨chs, time, same⟩

theorem Dev.calibrates_linkDown (d : Dev) (p : Nat) : d.calibrates (d.linkDown p true) := by
  refine Dev.calibrates_trans (d.calibrates_linkGone p) ?_
  rw [Dev.linkDown_eq]
  generalize d.linkGone p = e
  unfold Dev.clockGone
  extract_lets h c
  have noted : e.calibrates c := by
    unfold c
    split
    · exact e.calibrates_refl
    · exact ⟨rfl, rfl, rfl⟩
  split
  · exact e.calibrates_refl
  · split
    · exact e.calibrates_follow _
    · rw [if_neg (by simp)]
      exact Dev.calibrates_trans noted (c.calibrates_noUp 3)

theorem Dev.calibrates_calStart (d : Dev) (p : Nat) (named : Bool) : d.calibrates (d.calStart p named) := by
  unfold Dev.calStart
  split
  · exact d.calibrates_refl
  · refine Dev.calibrates_trans (d.calibrates_linkDown p) ?_
    exact ⟨rfl, rfl, rfl⟩

theorem Dev.calibrates_calLink (d : Dev) (i q : Nat) : d.calibrates (d.calLink i q) := by
  unfold Dev.calLink
  extract_lets ring e
  have opened : d.calibrates e := ⟨rfl, rfl, rfl⟩
  refine Dev.calibrates_trans opened ?_
  split
  · split
    · exact e.calibrates_calStart _ _
    · split
      · exact e.calibrates_refl
      · exact ⟨rfl, rfl, rfl⟩
  · split
    · exact e.calibrates_calStart _ _
    · exact e.calibrates_refl

theorem Dev.calibrates_calNext (d : Dev) : d.calibrates d.calNext := by
  unfold Dev.calNext
  extract_lets l ring e
  have listed : d.calibrates e := ⟨rfl, rfl, rfl⟩
  clear_value l
  refine Dev.calibrates_trans listed ?_
  split
  · exact e.calibrates_refl
  next x _ =>
    refine Dev.calibrates_trans (e.calibrates_calLink x.1 x.2) ?_
    exact ⟨rfl, rfl, rfl⟩

/-- An evicted member leaves the roster (R421). -/
theorem Dev.evictMember_parts (d : Dev) (i : Nat) :
    let e := d.evictMember i
    e.ring.roster = d.ring.roster.filter (· ≠ i) ∧ e.chs = d.chs ∧ e.time = d.time := by
  unfold Dev.evictMember
  extract_lets out ring e
  have next : e.calibrates (if out then e.calNext else e) := by
    split
    · exact e.calibrates_calNext
    · exact e.calibrates_refl
  exact ⟨next.roster, next.chs, next.time⟩

theorem Dev.evictTimeout_parts (d : Dev) (i : Nat) (root : d.isRoot = true) (on : d.get RING_CFG.EVICT ≠ 0) (other : i ≠ d.get RING_ID.INDEX)
    (member : i ∈ d.ring.roster) :
    let e := d.evictTimeout i
    e.ring.roster = d.ring.roster.filter (· ≠ i) ∧ e.chs = d.chs ∧ e.time = d.time := by
  obtain ⟨roster, chs, time⟩ := d.evictMember_parts i
  have eq : d.evictTimeout i = ((d.evictMember i).publish 14 [i]).lminTell ((d.evictMember i).lminPlan ((d.evictMember i).ring.roster.length
      + (d.evictMember i).ring.adds.length) ((d.evictMember i).time.crs + (d.evictMember i).lmin)) := if_neg (by simp [root, on, other, member])
  rw [eq]
  obtain ⟨-, -, roster', -, chs', time'⟩ := ((d.evictMember i).publish 14 [i]).lminTell_parts ((d.evictMember i).lminPlan
    ((d.evictMember i).ring.roster.length + (d.evictMember i).ring.adds.length) ((d.evictMember i).time.crs + (d.evictMember i).lmin))
  exact ⟨roster'.trans roster, chs'.trans chs, time'.trans time⟩

/-- Settles O34: a join request with room and without, an eviction, and a calibration asked for. -/
theorem ringRoot : Obligations.RingRoot := by
  intro s
  dsimp only
  refine ⟨fun root room => ?_, fun root full => ?_, fun other => State.next_of_eq s (y := s.dev) (if_pos (by simp [other])),
    fun i root on other member => ⟨_, rfl, s.dev.evictTimeout_parts i root on other member⟩,
    fun i no => State.next_of_eq s (y := s.dev) (if_pos ?_), fun root member => ?_, fun root member => ?_⟩
  · obtain ⟨adds, lmins, regs, chs⟩ := s.dev.joinRequest_parts root room
    exact ⟨_, rfl, adds, lmins, fun none => lmins.trans (by rw [Dev.lminPlan_alone _ _ _ none]), regs, chs⟩
  · exact ⟨_, State.next_of_eq s ((if_neg (by simp [root])).trans (if_pos full)), rfl, rfl, rfl⟩
  · rcases no with h | h | h | h <;> simp [h]
  · exact ⟨_, State.next_of_eq s ((if_neg (by simp [root])).trans (if_neg (by simp [member]))), Dev.flag_raise_same _ _ _ _ (by decide),
      Dev.raise_onlyRegs _ _ _ _⟩
  · exact ⟨_, State.next_of_eq s ((if_neg (by simp [root])).trans (if_pos member)), rfl, rfl, by simp [Dev.publish]⟩

end Sys2Proof.Machine
end

section
/-!
PROOF. Urgent actions (R183, R506, R558 to R560, R570): the statement fails on HV_OFF where the supply is removed already.
-/
namespace Sys2Proof.Machine
open Reg

/-- A started device whose HV supply an earlier HV_OFF has removed, and whose ramp-downs are over. -/
def suppliesGone : Dev := { ({} : Dev) with boot := { ({} : Boot) with up := true }, porter := { ({} : Porter) with hvOff := true } }

/-- Refutes O49: a second HV_OFF on `suppliesGone` begins no ramp-down (R217), and the statement claims one on every channel. -/
theorem not_urgentActions : ¬ Obligations.UrgentActions := by
  intro h
  obtain ⟨-, -, -, -, hvOff, -⟩ := h (State.reset.withDev suppliesGone)
  obtain ⟨e, run, -, -, hv⟩ := hvOff rfl
  have same : suppliesGone.hvOff = e := State.dev_of_next run
  have ramp : e.chs[(0 : Fin 8)].hv.ramp = true := by rw [(hv 0).1]
  rw [← same] at ramp
  exact absurd ramp (by decide +kernel)

end Sys2Proof.Machine
end

section
/-!
PROOF. DRAM policy, low power, refresh debt and temperature bands (R376, R380, R382, R384 to R387, R389, R398).
-/
namespace Sys2Proof.Machine
open Reg

/-! ### Settings -/

/-- A refused DRAM setting is flagged and stores nothing. -/
theorem State.dramRefused (s : State) (n : Fin 8) {o : Host.Outcome State Fault Refusal}
    (h : o = .next (s.withDev (s.dev.raise DMC_STAT.CFG_REJ n))) :
    ∃ e, o = .next (s.withDev e) ∧ e.flag DMC_STAT.CFG_REJ n = true ∧ s.dev.onlyRegs e [DMC_STAT.CFG_REJ.at n] :=
  ⟨_, h, Dev.flag_raise_same _ _ _ _ (by decide), Dev.raise_onlyRegs _ _ _ _⟩

theorem Dev.lpSet_parts (d : Dev) (n w : Nat) :
    let e := d.lpSet n w
    e.get DMC_LP.RETAIN n = bitsOf w 24 2 ∧ e.get DMC_LP.SR_TMR n = bitsOf w 8 16 ∧ e.get DMC_LP.PD_TMR n = bitsOf w 0 8
      ∧ d.onlyRegs e [DMC_LP.RETAIN.at n, DMC_LP.SR_TMR.at n, DMC_LP.PD_TMR.at n] := by
  unfold Dev.lpSet
  refine ⟨?_, ?_, Dev.get_set_bitsOf .., Dev.onlyRegs_set _ _ _ _ (Dev.onlyRegs_set _ _ _ _ (Dev.onlyRegs_set _ _ _ _ (d.onlyRegs_refl _)
    (by simp)) (by simp)) (by simp)⟩
  · simp (disch := decide) only [Dev.get_set_id]
    exact Dev.get_set_bitsOf ..
  · simp (disch := decide) only [Dev.get_set_id]
    exact Dev.get_set_bitsOf ..

/-! ### A rank's debt -/

theorem Dev.debt_setDebt (d : Dev) (n : Nat) (r : Fin 2) (v : Nat) (fits : v < 16) :
    (d.setDebt n r v).debt n r = v ∧ (d.setDebt n r v).debt n (1 - r.val) = d.debt n (1 - r.val)
      ∧ d.onlyRegs (d.setDebt n r v) [DMC_REF.DEBT0.at n, DMC_REF.DEBT1.at n] := by
  have small : v % 2 ^ 4 = v := Nat.mod_eq_of_lt fits
  match r with
  | 0 => exact ⟨(Dev.get_set_same ..).trans small, Dev.get_set_id _ _ _ _ _ _ _ _ (by decide),
      Dev.onlyRegs_set _ _ _ _ (d.onlyRegs_refl _) (by simp)⟩
  | 1 => exact ⟨(Dev.get_set_same ..).trans small, Dev.get_set_id _ _ _ _ _ _ _ _ (by decide),
      Dev.onlyRegs_set _ _ _ _ (d.onlyRegs_refl _) (by simp)⟩

theorem Dev.debt_of {d e : Dev} {n : Nat} (same : ∀ f ∈ [DMC_REF.DEBT0, DMC_REF.DEBT1], e.get f n = d.get f n) (r : Nat) :
    e.debt n r = d.debt n r := by
  unfold Dev.debt
  rw [same _ (by simp), same _ (by simp)]

/-- A rank in use enters self-refresh with its debt paid (R384). -/
theorem Dev.selfRefresh_parts (d : Dev) (n : Nat) (r : Fin 2) (on : d.rankOn n r = true) :
    let e := d.selfRefresh n r
    e.flag DMC_RANKr.SELF_REF n r = true ∧ e.flag DMC_RANKr.PD n r = false ∧ e.debt n r = 0
      ∧ d.onlyRegs e [DMC_RANKr.SELF_REF.at n r, DMC_RANKr.PD.at n r, DMC_REF.DEBT0.at n, DMC_REF.DEBT1.at n] := by
  obtain ⟨paid, -, only⟩ := d.debt_setDebt n r 0 (by decide)
  rw [show d.selfRefresh n r = ((d.setDebt n r 0).clear DMC_RANKr.PD n r).raise DMC_RANKr.SELF_REF n r from if_pos on]
  generalize d.setDebt n r 0 = c at *
  have moved := Dev.onlyRegs_set DMC_RANKr.SELF_REF n r 1 (Dev.onlyRegs_set DMC_RANKr.PD n r 0 (Dev.onlyRegs_mono only
    (ls := [DMC_RANKr.SELF_REF.at n r, DMC_RANKr.PD.at n r, DMC_REF.DEBT0.at n, DMC_REF.DEBT1.at n]) (by simp)) (by simp)) (by simp)
  refine ⟨Dev.flag_raise_same _ _ _ _ (by decide), ?_, ?_, moved⟩
  · exact (Dev.flag_of_get (Dev.get_set_id _ _ _ _ _ _ _ _ (by decide))).trans (by simp [Dev.flag])
  · refine (Dev.debt_of (fun f isin => ?_) r).trans paid
    simp only [List.mem_cons, List.not_mem_nil, or_false] at isin
    rcases isin with rfl | rfl
    · exact (Dev.get_set_id _ _ _ _ _ _ _ _ (by decide)).trans (Dev.get_set_id _ _ _ _ _ _ _ _ (by decide))
    · exact (Dev.get_set_id _ _ _ _ _ _ _ _ (by decide)).trans (Dev.get_set_id _ _ _ _ _ _ _ _ (by decide))

/-! ### A refresh that is due -/

/-- What the window of a rank counts when an interval has gone (R389). -/
def DramCount.counted (x : DramCount) (r : Nat) : DramCount :=
  if x.window.getD r 0 < 8191 then { x with window := x.window.set r (x.window.getD r 0 + 1) }
  else { x with window := x.window.set r 0, acts := x.acts.filter (fun y => y.1 ≠ r), limited := x.limited.filter (fun y => y.1 ≠ r) }

theorem Dev.windowStep_eq (d : Dev) (n : Fin 8) (r : Nat) :
    d.windowStep n r = d.onCh n (fun c => { c with dram := d.chs[n].dram.counted r }) := by
  have step (c : Chan) (same : c.dram = d.chs[n].dram) :
      ({ c.dram with
          window := c.dram.window.set r (if 8192 ≤ d.chs[n].dram.window.getD r 0 + 1 then 0 else d.chs[n].dram.window.getD r 0 + 1)
          acts := if 8192 ≤ d.chs[n].dram.window.getD r 0 + 1 then c.dram.acts.filter (fun x => x.1 ≠ r) else c.dram.acts
          limited := if 8192 ≤ d.chs[n].dram.window.getD r 0 + 1 then c.dram.limited.filter (fun x => x.1 ≠ r) else c.dram.limited } : DramCount)
        = d.chs[n].dram.counted r := by
    rw [same]
    unfold DramCount.counted
    by_cases last : d.chs[n].dram.window.getD r 0 < 8191
    · simp only [if_pos last, if_neg (show ¬ 8192 ≤ d.chs[n].dram.window.getD r 0 + 1 by omega)]
    · simp only [if_neg last, if_pos (show 8192 ≤ d.chs[n].dram.window.getD r 0 + 1 by omega)]
  unfold Dev.windowStep Dev.onCh
  dsimp only
  refine congrArg (fun v => ({ d with chs := v } : Dev)) (congrArg (d.chs.set n · n.isLt) ?_)
  exact congrArg (fun x => ({ d.chs[n] with dram := x } : Chan)) (step _ rfl)

/-- What a refresh interval counts stands in the rank's channel alone. -/
theorem Dev.windowStep_parts (d : Dev) (n : Fin 8) (r : Nat) :
    let e := d.windowStep n r
    e.regs = d.regs ∧ d.chsBut e n ∧ e.chs[n] = { d.chs[n] with dram := d.chs[n].dram.counted r } := by
  rw [Dev.windowStep_eq]
  exact ⟨rfl, Dev.onCh_chsBut _ _ _, Dev.onCh_same ..⟩

/-- The delays that a rank awaits are written as it refreshes (R398). -/
theorem Dev.delayWrite_parts (d : Dev) (n : Fin 8) (r : Nat) :
    let e := d.delayWrite n r
    let x := d.chs[n].delays
    e.regs = d.regs ∧ d.chsBut e n
      ∧ (r ∈ x.due → e.chs[n] = { d.chs[n] with delays := { x with rows := x.rows.set r x.band, due := x.due.filter (· ≠ r) } })
      ∧ (r ∉ x.due → e.chs[n] = d.chs[n]) := by
  unfold Dev.delayWrite
  by_cases due : r ∈ d.chs[n].delays.due
  · rw [if_neg (by simpa using due)]
    exact ⟨rfl, Dev.onCh_chsBut _ _ _, fun _ => Dev.onCh_same .., fun no => absurd due no⟩
  · rw [if_pos (by simpa using due)]
    exact ⟨rfl, fun _ _ => rfl, fun yes => absurd yes due, fun _ => rfl⟩

section
variable (d : Dev) (n : Fin 8) (r : Fin 2) (pending : Bool) (on : d.rankOn n r = true)
include on

theorem Dev.refreshDue_on : d.refreshDue n r pending
    = if (d.windowStep n r).flag DMC_RANKr.SELF_REF n r then d.windowStep n r
      else if (d.windowStep n r).debt n r = 8 then
        (((d.windowStep n r).count DMC_REF.FORCED n).raise DMC_STAT.FORCED_REF n).delayWrite n r
      else if pending then (d.windowStep n r).setDebt n r ((d.windowStep n r).debt n r + 1) else d.windowStep n r := if_neg (by simp [on])

/-- A refresh at debt 8 is forced, and writes the delays awaited. -/
theorem Dev.refreshDue_forced (awake : d.flag DMC_RANKr.SELF_REF n r = false) (full : d.debt n r = 8) :
    let e := d.refreshDue n r pending
    let x := d.chs[n].delays
    e.flag DMC_STAT.FORCED_REF n = true ∧ e.get DMC_REF.FORCED n = satInc DMC_REF.FORCED.w (d.get DMC_REF.FORCED n)
      ∧ d.regsBut e [DMC_STAT.FORCED_REF.at n, DMC_REF.FORCED.at n] ∧ d.chsBut e n
      ∧ (r.val ∈ x.due → e.chs[n] = { d.chs[n] with dram := d.chs[n].dram.counted r, delays := { x with rows := x.rows.set r x.band, due := x.due.filter (· ≠ r.val) } })
      ∧ (r.val ∉ x.due → e.chs[n] = { d.chs[n] with dram := d.chs[n].dram.counted r }) := by
  obtain ⟨regs, others, mine⟩ := d.windowStep_parts n r
  rw [d.refreshDue_on n r pending on]
  generalize d.windowStep n r = c at *
  rw [if_neg (by rw [Dev.flag_of_get (Dev.get_of_regs regs _ _ _), awake]; decide),
    if_pos ((Dev.debt_of (fun _ _ => Dev.get_of_regs regs _ _ _) r).trans full)]
  obtain ⟨regs', others', due, calm⟩ := ((c.count DMC_REF.FORCED n).raise DMC_STAT.FORCED_REF n).delayWrite_parts n r
  have kept : d.regsBut ((c.count DMC_REF.FORCED n).raise DMC_STAT.FORCED_REF n) [DMC_STAT.FORCED_REF.at n, DMC_REF.FORCED.at n] :=
    Dev.regsBut_set _ _ _ _ (Dev.regsBut_set _ _ _ _ (Dev.regsBut_of_regs (d.regsBut_refl _) regs) (by simp)) (by simp)
  refine ⟨?_, ?_, Dev.regsBut_of_regs kept regs', fun m diff => (others' m diff).trans (others m diff), fun isin => ?_, fun out => ?_⟩
  · exact (Dev.flag_of_get (Dev.get_of_regs regs' _ _ _)).trans (Dev.flag_raise_same _ _ _ _ (by decide))
  · exact (Dev.get_of_regs regs' _ _ _).trans ((Dev.get_set_id _ _ _ _ _ _ _ _ (by decide)).trans
      ((Dev.get_count_same ..).trans (congrArg _ (Dev.get_of_regs regs _ _ _))))
  · have same : ((c.count DMC_REF.FORCED n).raise DMC_STAT.FORCED_REF n).chs[n] = { d.chs[n] with dram := d.chs[n].dram.counted r } := mine
    rw [same] at due
    exact due isin
  · have same : ((c.count DMC_REF.FORCED n).raise DMC_STAT.FORCED_REF n).chs[n] = { d.chs[n] with dram := d.chs[n].dram.counted r } := mine
    rw [same] at calm
    exact calm out

/-- A refresh that meets waiting requests adds to a debt below 8. -/
theorem Dev.refreshDue_postponed (awake : d.flag DMC_RANKr.SELF_REF n r = false) (room : d.debt n r < 8) :
    let e := d.refreshDue n r true
    e.debt n r = d.debt n r + 1 ∧ e.debt n (1 - r.val) = d.debt n (1 - r.val) ∧ d.regsBut e [DMC_REF.DEBT0.at n, DMC_REF.DEBT1.at n]
      ∧ d.chsBut e n ∧ e.chs[n] = { d.chs[n] with dram := d.chs[n].dram.counted r } := by
  obtain ⟨regs, others, mine⟩ := d.windowStep_parts n r
  have debt (k : Nat) : (d.windowStep n r).debt n k = d.debt n k := Dev.debt_of (fun _ _ => Dev.get_of_regs regs _ _ _) k
  rw [d.refreshDue_on n r true on, debt r]
  obtain ⟨more, other, only⟩ := (d.windowStep n r).debt_setDebt n r (d.debt n r + 1) (by omega)
  rw [debt (1 - r.val)] at other
  generalize d.windowStep n r = c at *
  rw [if_neg (by rw [Dev.flag_of_get (Dev.get_of_regs regs _ _ _), awake]; decide), if_neg (by omega), if_pos rfl]
  refine ⟨more, other, Dev.regsBut_trans (Dev.regsBut_of_regs (d.regsBut_refl _) regs) only.2, ?_, ?_⟩
  · rw [Dev.chsBut, Dev.onlyRegs_chs only]
    exact others
  · rw [Dev.onlyRegs_chs only]
    exact mine

/-- A refresh that is issued, or not needed in self-refresh, counts its interval and no more. -/
theorem Dev.refreshDue_counts (calm : d.flag DMC_RANKr.SELF_REF n r = true ∨ (d.debt n r < 8 ∧ pending = false)) :
    let e := d.refreshDue n r pending
    e.regs = d.regs ∧ d.chsBut e n ∧ e.chs[n] = { d.chs[n] with dram := d.chs[n].dram.counted r } := by
  obtain ⟨regs, others, mine⟩ := d.windowStep_parts n r
  have debt : (d.windowStep n r).debt n r = d.debt n r := Dev.debt_of (fun _ _ => Dev.get_of_regs regs _ _ _) r
  have asleep : (d.windowStep n r).flag DMC_RANKr.SELF_REF n r = d.flag DMC_RANKr.SELF_REF n r := Dev.flag_of_get (Dev.get_of_regs regs _ _ _)
  have eq : d.refreshDue n r pending = d.windowStep n r := by
    rw [d.refreshDue_on n r pending on, asleep, debt]
    rcases calm with self | ⟨room, idle⟩
    · rw [if_pos self]
    · rw [idle, if_neg (show ¬ d.debt n r = 8 by omega), if_neg Bool.false_ne_true, ite_self]
  rw [eq]
  exact ⟨regs, others, mine⟩

end

/-! ### Temperature -/

/-- A poll shows the band, and the top band latches fault 6 (R381, R568). -/
theorem Dev.tempPoll_parts (d : Dev) (n : Nat) (band : Fin 4) :
    let e := d.tempPoll n band
    e.get DMC_STAT.TBAND n = band.val ∧ (band = 3 → e.bit PORTER_FAULT.CAUSE 0 0 6 = true)
      ∧ d.regsBut e [DMC_STAT.TBAND.at n, PORTER_FAULT.CAUSE.at] ∧ e.chs = d.chs := by
  unfold Dev.tempPoll
  extract_lets a c e
  simp only [e]
  have shown : c.get DMC_STAT.TBAND n = band.val := (Dev.get_set_same ..).trans (Nat.mod_eq_of_lt band.isLt)
  have only : d.regsBut c [DMC_STAT.TBAND.at n, PORTER_FAULT.CAUSE.at] :=
    Dev.regsBut_of_regs (d := d) (e := a) (Dev.regsBut_set _ _ _ _ (d.regsBut_refl _) (by simp)) rfl
  by_cases top : band = 3
  · rw [if_pos (by rw [top]; rfl)]
    refine ⟨?_, fun _ => c.fault_latched 6 (by decide), Dev.regsBut_trans only (Dev.regsBut_mono (c.fault_regsBut 6) (by simp)), Dev.fault_chs _ _⟩
    exact (Dev.regsBut_read (c.fault_regsBut 6) _ _ _ rfl).trans shown
  · rw [if_neg (show ¬ band.val = 3 from fun eq => top (Fin.ext eq))]
    exact ⟨shown, fun yes => absurd yes top, only, rfl⟩

/-- Settles O29: the settings, self-refresh and power-down, a refresh that is due, and a temperature poll. -/
theorem dramSettings : Obligations.DramSettings := by
  refine ⟨fun s n => ?_, fun s n => ?_⟩
  · dsimp only
    refine ⟨fun p => ?_, fun p t => ?_, fun w => ?_, fun r on awake => ⟨_, if_pos (by simp [on, awake]), Dev.flag_raise_same _ _ _ _ (by decide),
      Dev.raise_onlyRegs _ _ _ _⟩, fun r no => if_neg (by rcases no with h | h <;> simp [h]), fun r on timer idle => ?_,
      fun r no => if_neg (by rcases no with h | h <;> simp [h])⟩
    · split
      case isTrue bad => exact s.dramRefused n (State.next_of_eq s (if_pos (by rw [bad]; rfl)))
      case isFalse good =>
        refine ⟨_, State.next_of_eq s (if_neg (fun eq => good (BitVec.eq_of_toNat_eq eq))), ?_, Dev.onlyRegs_set _ _ _ _ (Dev.onlyRegs_refl _ _) (by simp)⟩
        exact (Dev.get_set_same ..).trans (Nat.mod_eq_of_lt p.isLt)
    · have ok : qosOk p t.toNat = true ↔ (p = 4 ∨ p = 6) ∧ 256 ≤ t.toNat := by
        have := t.isLt
        simp [qosOk, Fin.ext_iff]
        omega
      split
      case isTrue good =>
        exact ⟨_, if_pos (ok.mpr good), (Dev.get_set_same ..).trans (Nat.mod_eq_of_lt t.isLt), Dev.onlyRegs_set _ _ _ _ (Dev.onlyRegs_refl _ _) (by simp)⟩
      case isFalse bad => exact s.dramRefused n (if_neg (fun yes => bad (ok.mp yes)))
    · have ok : lpOk w.toNat = true ↔ bitsOf w.toNat 24 2 ≠ 3 ∧ bitsOf w.toNat 0 8 ≠ 0 := by simp [lpOk]
      split
      case isTrue good => exact ⟨_, if_pos (ok.mpr good), s.dev.lpSet_parts n _⟩
      case isFalse bad => exact s.dramRefused n (if_neg (fun yes => bad (ok.mp yes)))
    · exact ⟨_, if_pos (by simp [timer, idle]), s.dev.selfRefresh_parts n r on⟩
  · refine ⟨fun r pending on awake => ⟨fun full => ?_, fun room waits => ?_, fun room calm => ⟨_, rfl, ?_⟩⟩, fun r pending on self => ⟨_, rfl, ?_⟩,
      fun r pending off => State.next_of_eq s (y := s.dev) (if_pos (by simp [off])), fun band => ⟨_, rfl, s.dev.tempPoll_parts n band⟩⟩
    · exact ⟨_, rfl, s.dev.refreshDue_forced n r pending on awake full⟩
    · exact ⟨_, rfl, waits ▸ s.dev.refreshDue_postponed n r on awake room⟩
    · exact s.dev.refreshDue_counts n r pending on (.inr ⟨room, calm⟩)
    · exact s.dev.refreshDue_counts n r pending on (.inl self)

end Sys2Proof.Machine
end

section
/-!
PROOF. DRAM reads, activations, drains and sweeps (R389, R391, R392, R396 to R398, R400, R402, R581).
-/
namespace Sys2Proof.Machine
open Reg

/-! ### Activations -/

/-- A limited source is told to the Mason, and nothing else changes. -/
def Dev.hotTold (d : Dev) (n a port : Nat) : Dev :=
  if 2 < port then d
  else match d.mason.copies.find? (fun c => c.ch = n && c.frame = a / 65536) with
    | some c => { d with mason := { d.mason with hot := (n, c.page) :: d.mason.hot.filter (fun h => h ≠ (n, c.page)) } }
    | none => d

theorem Dev.hotTold_parts (d : Dev) (n a port : Nat) : (d.hotTold n a port).regs = d.regs ∧ (d.hotTold n a port).chs = d.chs := by
  unfold Dev.hotTold
  split
  · exact ⟨rfl, rfl⟩
  · split
    · exact ⟨rfl, rfl⟩
    · exact ⟨rfl, rfl⟩

/-- The 2,048th activation of a row by a source that is not limited yet (R389). -/
theorem Dev.activate_hot (d : Dev) (n : Fin 8) (a : Nat) (port : Fin 7)
    (count : d.chs[n].dram.acts.find? (fun x => x.1 = d.rankOf (a / 65536) && x.2.1 = d.dieRow n a) = some (d.rankOf (a / 65536), d.dieRow n a, 2047))
    (free : d.chs[n].dram.limited.contains (d.rankOf (a / 65536), d.dieRow n a, port.val) = false) :
    let e := d.activate n a port
    e.flag DMC_STAT.HOT n = true ∧ e.get DMC_UE.HOT n = satInc DMC_UE.HOT.w (d.get DMC_UE.HOT n)
      ∧ e.get DMC_HOT.COUNT n = satInc DMC_HOT.COUNT.w (d.get DMC_HOT.COUNT n) ∧ e.get DMC_HOT.LAST_PORT n = port.val % 2 ^ DMC_HOT.LAST_PORT.w
      ∧ (d.rankOf (a / 65536), d.dieRow n a, port.val) ∈ e.chs[n].dram.limited := by
  have here : Fin.ofNat 8 n.val = n := Fin.ext (Nat.mod_eq_of_lt n.isLt)
  obtain ⟨f, regs, listed, eq⟩ : ∃ f : Dev, f.regs = d.regs ∧ (d.rankOf (a / 65536), d.dieRow n a, port.val) ∈ f.chs[n].dram.limited
      ∧ d.activate n a port = Dev.hotTold ((((f.raise DMC_STAT.HOT n).count DMC_UE.HOT n).count DMC_HOT.COUNT n).set DMC_HOT.LAST_PORT n 0 port) n a port := by
    unfold Dev.activate
    extract_lets r row was k limit f g h
    have k_eq : k = 2048 := by
      simp only [k, was, r, row, here]
      rw [count]
      rfl
    have limited : limit = true := by
      simp only [limit, was, r, row, here]
      rw [k_eq]
      simpa using free
    refine ⟨f, rfl, ?_, ?_⟩
    · simp only [f, here]
      rw [Dev.onCh_same, limited]
      exact List.mem_cons_self
    · have hot : g = (f.raise DMC_STAT.HOT n).count DMC_UE.HOT n := if_pos k_eq
      rw [limited, if_neg (by simp)]
      exact congrArg (fun x : Dev => Dev.hotTold ((x.count DMC_HOT.COUNT n).set DMC_HOT.LAST_PORT n 0 port) n a port) hot
  rw [eq]
  obtain ⟨regs', chs⟩ := ((((f.raise DMC_STAT.HOT n).count DMC_UE.HOT n).count DMC_HOT.COUNT n).set DMC_HOT.LAST_PORT n 0 port).hotTold_parts n a port
  have same (g : Fld) (m : Nat) : f.get g m = d.get g m := Dev.get_of_regs regs _ _ _
  unfold Dev.flag
  simp only [Dev.get_of_regs regs', chs]
  unfold Dev.count Dev.raise
  simp (disch := decide) only [Dev.get_set_id, Dev.get_set_same, same, satInc_mod]
  exact ⟨by decide, trivial, trivial, trivial, listed⟩

/-! ### Reads -/

/-- A rank that is read wakes. -/
theorem Dev.rankWake_parts (d : Dev) (n r : Nat) :
    (d.rankWake n r).flag DMC_RANKr.PD n r = false ∧ (d.rankWake n r).flag DMC_RANKr.SELF_REF n r = false
      ∧ d.onlyRegs (d.rankWake n r) [DMC_RANKr.PD.at n r, DMC_RANKr.SELF_REF.at n r] := by
  refine ⟨?_, ?_, Dev.onlyRegs_set _ _ _ _ (Dev.onlyRegs_set _ _ _ _ (d.onlyRegs_refl _) (by simp)) (by simp)⟩
  · exact (Dev.flag_of_get (Dev.get_set_id _ _ _ _ _ _ _ _ (by decide))).trans (by simp [Dev.flag])
  · unfold Dev.rankWake Dev.clear Dev.flag
    simp

/-- A read with the count of its late urgency taken (R376). -/
def Dev.lateCounted (d : Dev) (n port : Nat) (late : Bool) : Dev := if late then d.count DMC_QOSp.LATE n port else d

theorem Dev.lateCounted_onlyRegs (d : Dev) (n port : Nat) (late : Bool) : d.onlyRegs (d.lateCounted n port late) [DMC_QOSp.LATE.at n port] := by
  cases late
  · exact d.onlyRegs_refl _
  · exact Dev.onlyRegs_set _ _ _ _ (d.onlyRegs_refl _) (by simp)

/-- The rank read wakes, with the late request counted. -/
def Dev.woken (d : Dev) (n r port : Nat) (late : Bool) : Dev := (d.lateCounted n port late).rankWake n r

theorem Dev.woken_onlyRegs (d : Dev) (n r port : Nat) (late : Bool) : d.onlyRegs (d.woken n r port late) (requestKeys n r port) :=
  Dev.onlyRegs_trans (Dev.onlyRegs_mono (d.lateCounted_onlyRegs n port late) (by simp [requestKeys]))
    (Dev.onlyRegs_mono (Dev.rankWake_parts _ n r).2.2 (by simp [requestKeys]))

section
variable (s : State) (n : Fin 8) (addr : BitVec 33) (port : Fin 7) (bursts : Nat) (late : Bool) {r : Nat}
  (served : s.dev.servedBy n (addr.toNat / 65536) = some r)
include served

/-- A read that brings no drain: what its finding does, and the activation where it makes one. -/
theorem State.dramRead_runs (found : DramFinding) (act : Bool) : exec (.dramReadResult n addr found port bursts false act late) s
    = .next { s with
        dev := if act then (dramRead n r addr.toNat port found bursts (s.dev.lateCounted n port late, s.mem)).1.activate n addr.toNat port
          else (dramRead n r addr.toNat port found bursts (s.dev.lateCounted n port late, s.mem)).1
        mem := (dramRead n r addr.toNat port found bursts (s.dev.lateCounted n port late, s.mem)).2 } := by
  show execDramReadResult n addr found port bursts false act late s = _
  unfold execDramReadResult
  rw [served]
  rfl

theorem State.dramRead_clean : ∃ e, exec (.dramReadResult n addr .clean port bursts false false late) s = .next (s.withDev e)
    ∧ e.flag DMC_RANKr.PD n r = false ∧ e.flag DMC_RANKr.SELF_REF n r = false
    ∧ s.dev.onlyRegs e [DMC_RANKr.PD.at n r, DMC_RANKr.SELF_REF.at n r, DMC_QOSp.LATE.at n port] := by
  obtain ⟨pd, self, -⟩ := (s.dev.lateCounted n port late).rankWake_parts n r
  exact ⟨s.dev.woken n r port late, s.dramRead_runs n addr port bursts late served .clean false, pd, self, s.dev.woken_onlyRegs n r port late⟩

theorem State.dramRead_linkFixed : ∃ e, exec (.dramReadResult n addr .linkFixed port bursts false false late) s = .next (s.withDev e)
    ∧ e.get DMC_ECC.CE n = satInc DMC_ECC.CE.w (s.dev.get DMC_ECC.CE n)
    ∧ s.dev.onlyRegs e [DMC_RANKr.PD.at n r, DMC_RANKr.SELF_REF.at n r, DMC_QOSp.LATE.at n port, DMC_ECC.CE.at n] := by
  have only := s.dev.woken_onlyRegs n r port late
  refine ⟨(s.dev.woken n r port late).count DMC_ECC.CE n, s.dramRead_runs n addr port bursts late served .linkFixed false, ?_,
    Dev.onlyRegs_set _ _ _ _ (Dev.onlyRegs_mono only (by simp [requestKeys])) (by simp)⟩
  exact (Dev.get_count_same ..).trans (congrArg _ (Dev.regsBut_read only.2 _ _ _ rfl))

theorem State.dramRead_replayed (b : DramFinding) (bad : b = .linkBad ∨ b = .codeBad) :
    ∃ e, exec (.dramReadResult n addr b port bursts false false late) s = .next (s.withDev e)
    ∧ e.get DMC_ECC.REPLAY n = satInc DMC_ECC.REPLAY.w (s.dev.get DMC_ECC.REPLAY n) ∧ e.flag DMC_STAT.REPLAY n = true
    ∧ s.dev.onlyRegs e [DMC_RANKr.PD.at n r, DMC_RANKr.SELF_REF.at n r, DMC_QOSp.LATE.at n port, DMC_ECC.REPLAY.at n, DMC_STAT.REPLAY.at n] := by
  have only := s.dev.woken_onlyRegs n r port late
  refine ⟨((s.dev.woken n r port late).count DMC_ECC.REPLAY n).raise DMC_STAT.REPLAY n, ?_, ?_, Dev.flag_raise_same _ _ _ _ (by decide),
    Dev.onlyRegs_set _ _ _ _ (Dev.onlyRegs_set _ _ _ _ (Dev.onlyRegs_mono only (by simp [requestKeys])) (by simp)) (by simp)⟩
  · rcases bad with rfl | rfl
    · exact s.dramRead_runs n addr port bursts late served .linkBad false
    · exact s.dramRead_runs n addr port bursts late served .codeBad false
  · exact (Dev.get_set_id _ _ _ _ _ _ _ _ (by decide)).trans ((Dev.get_count_same ..).trans (congrArg _ (Dev.regsBut_read only.2 _ _ _ rfl)))

end

theorem State.dramRead_hot (s : State) (n : Fin 8) (addr : BitVec 33) (port : Fin 7) (bursts : Nat) (late : Bool) {r : Nat}
    (served : s.dev.servedBy n (addr.toNat / 65536) = some r)
    (count : s.dev.chs[n].dram.acts.find? (fun x => x.1 = s.dev.rankOf (addr.toNat / 65536) && x.2.1 = s.dev.dieRow n addr.toNat)
      = some (s.dev.rankOf (addr.toNat / 65536), s.dev.dieRow n addr.toNat, 2047))
    (free : s.dev.chs[n].dram.limited.contains (s.dev.rankOf (addr.toNat / 65536), s.dev.dieRow n addr.toNat, port.val) = false) :
    ∃ e, exec (.dramReadResult n addr .clean port bursts false true late) s = .next (s.withDev e)
    ∧ e.flag DMC_STAT.HOT n = true ∧ e.get DMC_UE.HOT n = satInc DMC_UE.HOT.w (s.dev.get DMC_UE.HOT n)
    ∧ e.get DMC_HOT.COUNT n = satInc DMC_HOT.COUNT.w (s.dev.get DMC_HOT.COUNT n) ∧ e.get DMC_HOT.LAST_PORT n = port.val % 2 ^ DMC_HOT.LAST_PORT.w
    ∧ (s.dev.rankOf (addr.toNat / 65536), s.dev.dieRow n addr.toNat, port.val) ∈ e.chs[n].dram.limited
    ∧ s.dev.regsBut e (requestKeys n r port ++ hotKeys n) ∧ s.dev.chsBut e n := by
  have only := s.dev.woken_onlyRegs n r port late
  have run := s.dramRead_runs n addr port bursts late served .clean true
  have chs : (s.dev.woken n r port late).chs = s.dev.chs := Dev.onlyRegs_chs only
  have rank : (s.dev.woken n r port late).rankOf = s.dev.rankOf := by rw [only.1]; rfl
  have row : (s.dev.woken n r port late).dieRow n addr.toNat = s.dev.dieRow n addr.toNat := by
    have half : (s.dev.woken n r port late).flash = s.dev.flash := by rw [only.1]
    unfold Dev.dieRow Dev.mapAddr
    rw [half, Dev.regsBut_read only.2 _ _ _ rfl, Dev.flag_of_get (Dev.regsBut_read only.2 DMC_CTRL.BXOR n 0 rfl)]
  obtain ⟨hot, ue, counted, last, listed⟩ := (s.dev.woken n r port late).activate_hot n addr.toNat port
    (by rw [rank, row, chs]; exact count) (by rw [rank, row, chs]; exact free)
  obtain ⟨within, -⟩ := (s.dev.woken n r port late).activate_parts n addr.toNat port
  have others := within.2
  refine ⟨(s.dev.woken n r port late).activate n addr.toNat port, run, hot, ?_, ?_, last, ?_, ?_, ?_⟩
  · rw [ue, Dev.regsBut_read only.2 _ _ _ rfl]
  · rw [counted, Dev.regsBut_read only.2 _ _ _ rfl]
  · rwa [rank, row] at listed
  · exact Dev.regsBut_trans (Dev.regsBut_mono only.2 (fun k isin => List.mem_append_left _ isin))
      (Dev.regsBut_mono (Dev.activate_regsBut _ _ _ _) (fun k isin => List.mem_append_right _ isin))
  · exact fun m diff => (others m diff).trans (by rw [chs])

/-! ### The scrubber -/

/-- What a visit of the scrubber moves: its request, and the activation that the open row may spare it. -/
theorem Dev.scrubRequest_parts (d : Dev) (n : Fin 8) (r a : Nat) :
    d.regsBut (d.scrubRequest n r a) (requestKeys n r 6 ++ hotKeys n) ∧ d.chsBut (d.scrubRequest n r a) n := by
  have asked : d.regsBut (d.request n r 6).freeBit.2 (requestKeys n r 6 ++ hotKeys n) := by
    refine Dev.regsBut_of_regs (e := d.request n r 6) ?_ rfl
    exact Dev.regsBut_set _ _ _ _ (Dev.regsBut_mono (Dev.rankWake_parts d n r).2.2.2 (by simp [requestKeys])) (by simp [requestKeys])
  have chs : (d.request n r 6).freeBit.2.chs = d.chs := rfl
  unfold Dev.scrubRequest
  dsimp only
  generalize (d.request n r 6).freeBit = x at *
  split
  · refine ⟨Dev.regsBut_trans asked (Dev.regsBut_mono (x.2.activate_regsBut n a 6) (fun k isin => List.mem_append_right _ isin)), fun m diff => ?_⟩
    exact ((x.2.activate_parts n a 6).1.2 m diff).trans (by rw [chs])
  · exact ⟨asked, fun m _ => by rw [chs]⟩

theorem State.dramScrub_clean (s : State) (n : Fin 8) (addr : BitVec 33) (bursts : Nat) {r : Nat} (run : s.dev.get PWR_STAT.STATE = 0)
    (served : s.dev.servedBy n (addr.toNat / 65536) = some r) :
    ∃ e, exec (.dramScrub n addr .clean bursts none true) s = .next (s.withDev e)
    ∧ e.get STK_SCRUB_STAT.PASSES = (s.dev.get STK_SCRUB_STAT.PASSES + 1) % 2 ^ STK_SCRUB_STAT.PASSES.w ∧ s.dev.chsBut e n
    ∧ s.dev.regsBut e (STK_SCRUB_STAT.PASSES.at :: requestKeys n r 6 ++ hotKeys n) := by
  obtain ⟨e, eq, regs, others⟩ : ∃ e, exec (.dramScrub n addr .clean bursts none true) s = .next (s.withDev (e.countWrap STK_SCRUB_STAT.PASSES))
      ∧ s.dev.regsBut e (requestKeys n r 6 ++ hotKeys n) ∧ s.dev.chsBut e n := by
    obtain ⟨regs, others⟩ := s.dev.scrubRequest_parts n r addr.toNat
    have ends (visit : Bool) : ∃ e, (if visit then dramRead n r addr.toNat 6 .clean bursts
          ((s.dev.scrubRequest n r addr.toNat).replayed n false, s.mem) else (s.dev, s.mem)) = (e, s.mem)
        ∧ s.dev.regsBut e (requestKeys n r 6 ++ hotKeys n) ∧ s.dev.chsBut e n := by
      cases visit
      · exact ⟨_, rfl, s.dev.regsBut_refl _, fun _ _ => rfl⟩
      · have woke := (Dev.rankWake_parts (s.dev.scrubRequest n r addr.toNat) n r).2.2
        exact ⟨(s.dev.scrubRequest n r addr.toNat).rankWake n r, rfl, Dev.regsBut_trans regs (Dev.regsBut_mono woke.2 (by simp [requestKeys])), others⟩
    obtain ⟨e, made, regs, others⟩ := ends (s.dev.frameReserved (addr.toNat / 65536) || s.dev.mason.reserved.contains (n.val, addr.toNat / 65536)
      || s.dev.frameUsed n (if s.dev.flag DMC_CTRL.MIRROR n then addr.toNat / 65536 % rankFrames s.dev.flash.half else addr.toNat / 65536))
    refine ⟨e, ?_, regs, others⟩
    show execDramScrub n addr .clean bursts none true s = _
    unfold execDramScrub
    dsimp only
    rw [served]
    dsimp only
    rw [if_neg (by simp [run])]
    simp only [show decide (Ecc.clean = Ecc.lost) = false from rfl, made]
    rfl
  rw [eq]
  refine ⟨_, rfl, ?_, others, Dev.regsBut_set _ _ _ _ (Dev.regsBut_mono regs (fun k isin => List.mem_cons_of_mem _ isin)) (by simp)⟩
  exact (Dev.get_set_same ..).trans (by rw [Dev.regsBut_read regs _ _ _ rfl])

/-! ### Drains and sweeps -/

/-- A rank whose pages have gone begins its sweep (R400). -/
theorem Dev.drained_parts (d : Dev) (n : Fin 8) (r : Fin 2) (ws : List Nat) :
    let e := ((d.set DMC_RANKr.STATE n r 2).set DMC_RANKr.TRIES n r 0).notice 4 n ws
    e.get DMC_RANKr.STATE n r = 2 ∧ e.get DMC_RANKr.TRIES n r = 0
      ∧ d.regsBut e [DMC_RANKr.STATE.at n r, DMC_RANKr.TRIES.at n r, MBX_NOTE_TAIL.TAIL.at, MBX_NOTE_TAIL.LOST.at] ∧ e.chs = d.chs := by
  have told := ((d.set DMC_RANKr.STATE n r 2).set DMC_RANKr.TRIES n r 0).notice_regsBut 4 n ws
  refine ⟨?_, ?_, ?_, Dev.notice_chs _ _ _ _⟩
  · exact (Dev.regsBut_read told _ _ _ rfl).trans ((Dev.get_set_id _ _ _ _ _ _ _ _ (by decide)).trans (Dev.get_set_same ..))
  · exact (Dev.regsBut_read told _ _ _ rfl).trans (Dev.get_set_same ..)
  · exact Dev.regsBut_trans (Dev.regsBut_set _ _ _ _ (Dev.regsBut_set _ _ _ _ (d.regsBut_refl _) (by simp)) (by simp))
      (Dev.regsBut_mono told (by simp))

/-- Where no command runs, none ends with a drain. -/
theorem Dev.drainDone_idle (d : Dev) (n r status : Nat) (idle : d.cmds = []) : d.drainDone n r status = d := by
  unfold Dev.drainDone
  rw [idle]
  rfl

/-- The tries and the window of a sweep show (R397, R400). -/
def Dev.swept (d : Dev) (n r win : Nat) : Dev := (d.set DMC_RANKr.TRIES n r (d.get DMC_RANKr.TRIES n r + 1)).set DMC_RANKr.WIN n r win

theorem Dev.swept_parts (d : Dev) (n r win : Nat) :
    let e := d.swept n r win
    (d.get DMC_RANKr.TRIES n r < 2 → e.get DMC_RANKr.TRIES n r = d.get DMC_RANKr.TRIES n r + 1) ∧ e.get DMC_RANKr.WIN n r = win % 2 ^ DMC_RANKr.WIN.w
      ∧ d.onlyRegs e [DMC_RANKr.TRIES.at n r, DMC_RANKr.WIN.at n r] := by
  refine ⟨fun few => ?_, Dev.get_set_same .., Dev.onlyRegs_set _ _ _ _ (Dev.onlyRegs_set _ _ _ _ (d.onlyRegs_refl _) (by simp)) (by simp)⟩
  refine (Dev.get_set_id _ _ _ _ _ _ _ _ (by decide)).trans ((Dev.get_set_same ..).trans (Nat.mod_eq_of_lt ?_))
  exact Nat.lt_of_lt_of_le (by omega : _ < 3) (by decide)

/-- The delays that a sweep has found stand at once (R396, R398). -/
theorem Dev.delaySwept_parts (d : Dev) (n : Fin 8) (r : Nat) (lanes : List LaneWindow) :
    let e := d.delaySwept n r lanes
    e.regs = d.regs ∧ e.cmds = d.cmds ∧ d.chsBut e n
      ∧ ∃ x, e.chs[n] = { d.chs[n] with delays := x } ∧ r ∉ x.due ∧ x.rows = d.chs[n].delays.rows.set r x.band
        ∧ x.centres = d.chs[n].delays.centres.set r (lanes.map (fun l => l.first.toNat + l.steps.toNat / 2)) := by
  refine ⟨rfl, rfl, Dev.onCh_chsBut _ _ _, _, Dev.onCh_same .., ?_, rfl, rfl⟩
  dsimp only
  split
  · simp
  · simp

/-- A sweep with windows wide enough brings the rank back. -/
theorem Dev.sweepDone_wide (d : Dev) (n : Fin 8) (r : Fin 2) (lanes : List LaneWindow) (wide : 16 ≤ narrowest lanes) (idle : d.cmds = []) :
    let e := d.sweepDone n r lanes
    e.get DMC_RANKr.STATE n r = 0 ∧ e.get DMC_RANKr.WIN n r = narrowest lanes % 2 ^ DMC_RANKr.WIN.w
      ∧ d.regsBut e [DMC_RANKr.STATE.at n r, DMC_RANKr.TRIES.at n r, DMC_RANKr.WIN.at n r, MBX_NOTE_TAIL.TAIL.at, MBX_NOTE_TAIL.LOST.at]
      ∧ d.chsBut e n ∧ ∃ x, e.chs[n] = { d.chs[n] with delays := x } ∧ r.val ∉ x.due ∧ x.rows = d.chs[n].delays.rows.set r x.band
        ∧ x.centres = d.chs[n].delays.centres.set r (lanes.map (fun l => l.first.toNat + l.steps.toNat / 2)) := by
  obtain ⟨-, win, only⟩ := d.swept_parts n r (narrowest lanes)
  obtain ⟨regs, cmds, others, mine⟩ := (d.swept n r (narrowest lanes)).delaySwept_parts n r lanes
  have chs : (d.swept n r (narrowest lanes)).chs = d.chs := Dev.onlyRegs_chs only
  have eq : d.sweepDone n r lanes = (((d.swept n r (narrowest lanes)).delaySwept n r lanes).set DMC_RANKr.STATE n r 0).notice 4 n [r, 0] := by
    refine (if_pos wide).trans (Dev.drainDone_idle _ _ _ _ ?_)
    rw [Dev.notice_cmds]
    exact cmds.trans idle
  rw [eq]
  generalize (d.swept n r (narrowest lanes)).delaySwept n r lanes = c at *
  have told := (c.set DMC_RANKr.STATE n r 0).notice_regsBut 4 n [r, 0]
  dsimp only
  rw [Dev.notice_chs]
  refine ⟨(Dev.regsBut_read told _ _ _ rfl).trans (Dev.get_set_same ..), ?_, ?_, ?_, ?_⟩
  · exact (Dev.regsBut_read told _ _ _ rfl).trans ((Dev.get_set_id _ _ _ _ _ _ _ _ (by decide)).trans ((Dev.get_of_regs regs _ _ _).trans win))
  · exact Dev.regsBut_trans (Dev.regsBut_set _ _ _ _ (Dev.regsBut_of_regs (Dev.regsBut_mono only.2 (by simp)) regs) (by simp))
      (Dev.regsBut_mono told (by simp))
  · intro m diff
    rw [Dev.notice_chs]
    exact (others m diff).trans (by rw [chs])
  · rw [chs] at mine
    exact mine

theorem Dev.sweepDone_again (d : Dev) (n : Fin 8) (r : Fin 2) (lanes : List LaneWindow) (narrow : narrowest lanes < 16)
    (few : d.get DMC_RANKr.TRIES n r < 2) : d.sweepDone n r lanes = d.swept n r (narrowest lanes) :=
  (if_neg (by omega)).trans (if_neg (by omega))

/-! ### A rank retired -/

/-- The registers that follow the ranks in service. -/
def serviceKeys (n : Nat) : List Key := [DMC_STAT.STATE.at n, MSN_CHn_STAT.SRAM_ONLY.at n, MSN_STAT.CHECK_BUSY.at, MSN_FRAMESn.USABLE.at n,
  MSN_FREEn.FREE.at n]

theorem Dev.framesShow_onlyRegs (d : Dev) (n : Nat) : d.onlyRegs (d.framesShow n) (serviceKeys n) := by
  unfold Dev.framesShow
  extract_lets u held e
  have checked : d.onlyRegs e (serviceKeys n) := by
    simp only [e]
    split
    · exact d.onlyRegs_refl _
    · exact Dev.onlyRegs_set _ _ _ _ (d.onlyRegs_refl _) (by simp [serviceKeys])
  exact Dev.onlyRegs_set _ _ _ _ (Dev.onlyRegs_set _ _ _ _ checked (by simp [serviceKeys])) (by simp [serviceKeys])

theorem Dev.dramState_onlyRegs (d : Dev) (n : Nat) : d.onlyRegs (d.dramState n) (serviceKeys n) := by
  unfold Dev.dramState
  extract_lets out only e
  have checked : d.onlyRegs e (serviceKeys n) := by
    simp only [e]
    split
    · exact d.onlyRegs_refl _
    · exact Dev.onlyRegs_set _ _ _ _ (d.onlyRegs_refl _) (by simp [serviceKeys])
  exact Dev.onlyRegs_trans (Dev.onlyRegs_set _ _ _ _ (Dev.onlyRegs_set _ _ _ _ checked (by simp [serviceKeys])) (by simp [serviceKeys]))
    (Dev.framesShow_onlyRegs _ n)

theorem Dev.rehome_parts (d : Dev) (n r : Nat) : (d.rehome n r).regs = d.regs ∧ (d.rehome n r).chs = d.chs ∧ (d.rehome n r).cmds = d.cmds := by
  unfold Dev.rehome
  split
  · exact ⟨rfl, rfl, rfl⟩
  · exact ⟨rfl, rfl, rfl⟩

/-- A rank is retired (R400). -/
theorem Dev.rankRetire_parts (d : Dev) (n : Fin 8) (r : Fin 2) :
    let e := d.rankRetire n r
    e.get DMC_RANKr.STATE n r = 3 ∧ e.flag DMC_STAT.RANK_RET n = true ∧ e.debt n r = 0 ∧ e.bit PORTER_FAULT.CAUSE 0 0 10 = true
      ∧ e.chs = d.chs ∧ e.cmds = d.cmds := by
  unfold Dev.rankRetire
  extract_lets a
  have state : a.get DMC_RANKr.STATE n r = 3 := (Dev.get_raiseIf_id _ _ _ _ _ _ _ _ (by decide)).trans
    ((Dev.get_set_id _ _ _ _ _ _ _ _ (by decide)).trans (Dev.get_set_same ..))
  have flag : a.flag DMC_STAT.RANK_RET n = true := (Dev.flag_of_get (Dev.get_raiseIf_id _ _ _ _ _ _ _ _ (by decide))).trans
    (Dev.flag_raise_same _ _ _ _ (by decide))
  have raised : d.onlyRegs a [DMC_RANKr.STATE.at n r, DMC_STAT.RANK_RET.at n, DMC_STAT.MIRROR_LOST.at n] :=
    Dev.onlyRegs_raiseIf _ _ _ _ (Dev.onlyRegs_set _ _ _ _ (Dev.onlyRegs_set _ _ _ _ (d.onlyRegs_refl _) (by simp)) (by simp)) (by simp)
  clear_value a
  obtain ⟨paid, -, only⟩ := a.debt_setDebt n r 0 (by decide)
  have shown := (a.setDebt n r 0).dramState_onlyRegs n
  obtain ⟨regs, chs, cmds⟩ := ((a.setDebt n r 0).dramState n).rehome_parts n r
  have latched := (((a.setDebt n r 0).dramState n).rehome n r).fault_regsBut 10
  have told := ((((a.setDebt n r 0).dramState n).rehome n r).fault 10).notice_regsBut 4 n [r, 3]
  have bit := (((a.setDebt n r 0).dramState n).rehome n r).fault_latched 10 (by decide)
  have early (f : Fld) (i : Nat) (one : (serviceKeys n).all (fun k => k.1 != f.id) = true) (two : [PORTER_FAULT.CAUSE.at].all (fun k => k.1 != f.id) = true)
      (three : [MBX_NOTE_TAIL.TAIL.at, MBX_NOTE_TAIL.LOST.at].all (fun k => k.1 != f.id) = true) :
      (((((a.setDebt n r 0).dramState n).rehome n r).fault 10).notice 4 n [r, 3]).get f n i = (a.setDebt n r 0).get f n i :=
    (Dev.regsBut_read told _ _ _ three).trans ((Dev.regsBut_read latched _ _ _ two).trans ((Dev.get_of_regs regs _ _ _).trans
      (Dev.regsBut_read shown.2 _ _ _ one)))
  refine ⟨?_, ?_, ?_, ?_, ?_, ?_⟩
  · exact (early _ _ rfl rfl rfl).trans ((Dev.regsBut_read only.2 _ _ _ rfl).trans state)
  · exact (Dev.flag_of_get ((early _ _ rfl rfl rfl).trans (Dev.regsBut_read only.2 _ _ _ rfl))).trans flag
  · refine (Dev.debt_of (fun f isin => ?_) r).trans paid
    simp only [List.mem_cons, List.not_mem_nil, or_false] at isin
    rcases isin with rfl | rfl
    · exact early _ _ rfl rfl rfl
    · exact early _ _ rfl rfl rfl
  · unfold Dev.bit
    rw [Dev.regsBut_read told _ _ _ rfl]
    exact bit
  · rw [Dev.notice_chs, Dev.fault_chs, chs, Dev.onlyRegs_chs shown, Dev.onlyRegs_chs only, Dev.onlyRegs_chs raised]
  · rw [Dev.notice_cmds, Dev.fault_cmds, cmds, shown.1, only.1, raised.1]

/-- The third narrow sweep retires the rank. -/
theorem Dev.sweepDone_third (d : Dev) (n : Fin 8) (r : Fin 2) (lanes : List LaneWindow) (narrow : narrowest lanes < 16)
    (tries : d.get DMC_RANKr.TRIES n r = 2) (idle : d.cmds = []) :
    let e := d.sweepDone n r lanes
    e.get DMC_RANKr.STATE n r = 3 ∧ e.flag DMC_STAT.RANK_RET n = true ∧ e.debt n r = 0 ∧ e.bit PORTER_FAULT.CAUSE 0 0 10 = true ∧ e.chs = d.chs := by
  obtain ⟨state, flag, debt, bit, chs, cmds⟩ := (d.swept n r (narrowest lanes)).rankRetire_parts n r
  have eq : d.sweepDone n r lanes = (d.swept n r (narrowest lanes)).rankRetire n r :=
    (if_neg (by omega)).trans ((if_pos (by omega)).trans (Dev.drainDone_idle _ _ _ _ (cmds.trans idle)))
  rw [eq]
  exact ⟨state, flag, debt, bit, chs⟩

/-- Settles O30: reads by their findings, the hot row, the scrubber, a drain that ends and the three ways in which a sweep does. -/
theorem dramReadsAndDrains : Obligations.DramReadsAndDrains := by
  refine ⟨fun s n addr port bursts late => ?_, fun s n r => ?_⟩
  · dsimp only
    refine ⟨fun r served => ⟨s.dramRead_clean n addr port bursts late served, s.dramRead_linkFixed n addr port bursts late served,
        fun b bad => s.dramRead_replayed n addr port bursts late served b bad⟩,
      fun r served count free => s.dramRead_hot n addr port bursts late served count free, fun none b drain act => ?_,
      fun r run served => s.dramScrub_clean n addr bursts run served, fun no b hour last => ?_⟩
    · show execDramReadResult n addr b port bursts drain act late s = _
      unfold execDramReadResult
      rw [none]
    · show execDramScrub n addr b bursts hour last s = _
      unfold execDramScrub
      dsimp only
      split
      · rfl
      next r served =>
        rcases no with asleep | none
        · rw [if_pos asleep]
        · exact absurd served (by rw [none]; simp)
  · dsimp only
    refine ⟨fun draining empty => ⟨_, if_pos (by rcases empty with h | h <;> simp [draining, h]), s.dev.drained_parts n r _⟩,
      fun other => if_neg (by simp [other]), fun lanes sweeps wide idle => ⟨_, if_pos sweeps, s.dev.sweepDone_wide n r lanes wide idle⟩,
      fun lanes sweeps narrow few => ?_, fun lanes sweeps narrow third idle => ⟨_, if_pos sweeps, s.dev.sweepDone_third n r lanes narrow third idle⟩,
      fun lanes other => if_neg other⟩
    obtain ⟨tries, win, only⟩ := s.dev.swept_parts n r (narrowest lanes)
    exact ⟨_, (if_pos sweeps).trans (State.next_of_eq s (s.dev.sweepDone_again n r lanes narrow few)), tries few, win, only⟩

end Sys2Proof.Machine
end

section
/-!
PROOF. SRAM errors, march tests and column repairs (R352, R353, R356, R359 to R363, R580).
-/
namespace Sys2Proof.Machine
open Reg

/-! ### Findings -/

/-- Of a finding's column, the rows noted are its own and the others. -/
theorem noted_column (f : Finding) (l : List Finding) :
    ((noted f l).filter (fun x => x.arr = f.arr && x.bank = f.bank && x.col = f.col)).length
      = (l.filter (fun x => x.arr = f.arr && x.bank = f.bank && x.col = f.col && x.row ≠ f.row)).length + 1 := by
  unfold noted
  rw [List.filter_cons_of_pos (by simp), List.length_cons, List.filter_filter]
  congr 2
  refine List.filter_congr (fun x _ => ?_)
  by_cases one : x.arr = f.arr <;> by_cases two : x.bank = f.bank <;> by_cases three : x.col = f.col <;> simp [one, two, three]

/-- A bank's findings are one more at most. -/
theorem noted_bank_le (f : Finding) (l : List Finding) :
    ((noted f l).filter (fun x => x.arr = f.arr && x.bank = f.bank)).length ≤ (l.filter (fun x => x.arr = f.arr && x.bank = f.bank)).length + 1 := by
  unfold noted
  rw [List.filter_cons_of_pos (by simp), List.length_cons, List.filter_filter]
  refine Nat.add_le_add_right (List.Sublist.length_le ?_) 1
  refine List.monotone_filter_right l (fun x both => ?_)
  simp only [Bool.and_eq_true] at both ⊢
  exact both.1

/-- A bank's findings hold those of its column. -/
theorem noted_bank_ge (f : Finding) (l : List Finding) :
    ((noted f l).filter (fun x => x.arr = f.arr && x.bank = f.bank && x.col = f.col)).length
      ≤ ((noted f l).filter (fun x => x.arr = f.arr && x.bank = f.bank)).length := by
  refine List.Sublist.length_le (List.monotone_filter_right _ (fun x all => ?_))
  simp only [Bool.and_eq_true] at all ⊢
  exact all.1

/-! ### Errors counted -/

/-- The registers in which the arrays' errors are counted. -/
def eccIds : List Nat := [MEM_ECCn.UE.id, MEM_ECCn.CE.id, MEM_ECC_TCM.UE.id, MEM_ECC_TCM.CE.id, MEM_ECC_MBX.UE.id, MEM_ECC_MBX.CE.id,
  MEM_ECC_DIR.UE.id, MEM_ECC_DIR.CE.id]

theorem Dev.countEcc_movesOnly (d : Dev) (arr : Nat) (ue : Bool) : d.movesOnly (d.countEcc arr ue) eccIds := by
  have counts (f : Fld) (n : Nat) (isin : f.id ∈ eccIds) : d.movesOnly (d.count f n) eccIds := Dev.movesOnly_count (d.movesOnly_refl _) f n 0 isin
  unfold Dev.countEcc
  cases ue
  · repeat' split
    all_goals exact counts _ _ (by decide)
  · repeat' split
    all_goals exact counts _ _ (by decide)

theorem Dev.countEcc_channel (d : Dev) (arr : Nat) (low : arr < 8) :
    (d.countEcc arr false).get MEM_ECCn.CE arr = satInc MEM_ECCn.CE.w (d.get MEM_ECCn.CE arr)
      ∧ (d.countEcc arr true).get MEM_ECCn.UE arr = satInc MEM_ECCn.UE.w (d.get MEM_ECCn.UE arr) := by
  unfold Dev.countEcc
  simp only [if_pos low]
  exact ⟨Dev.get_count_same .., Dev.get_count_same ..⟩

/-! ### A corrected error -/

theorem Dev.markColumn_parts (d : Dev) (arr bank col : Nat) :
    let e := d.markColumn arr bank col
    e.regs = d.regs ∧ e.chs = d.chs
      ∧ (d.colsUsed arr bank + (d.sram.repairs.filter (fun r => r.1 = arr && r.2.1 = bank)).length < spareCols arr → (arr, bank, col) ∈ e.sram.repairs) := by
  unfold Dev.markColumn
  by_cases known : (arr, bank, col) ∈ d.sram.repairs
  · dsimp only
    rw [if_pos (by simp [known])]
    exact ⟨rfl, rfl, fun _ => known⟩
  · dsimp only
    split
    next full => exact ⟨rfl, rfl, fun spare => absurd full (by simp [known]; omega)⟩
    · exact ⟨rfl, rfl, fun _ => by simp⟩

/-- A corrected error counted, with the findings that follow it. -/
def Dev.fixCounted (d : Dev) (arr : Nat) (l : List Finding) : Dev :=
  let d := (d.countEcc arr false).raise MEM_STAT.CE
  { d with sram := { d.sram with fixes := l } }

theorem Dev.fixCounted_parts (d : Dev) (arr : Nat) (l : List Finding) :
    let e := d.fixCounted arr l
    e.flag MEM_STAT.CE = true ∧ (arr < 8 → e.get MEM_ECCn.CE arr = satInc MEM_ECCn.CE.w (d.get MEM_ECCn.CE arr)) ∧ e.chs = d.chs
      ∧ e.sram = { d.sram with fixes := l } := by
  have moved := d.countEcc_movesOnly arr false
  have count := d.countEcc_channel arr
  have sram : (d.countEcc arr false).sram = d.sram := by rw [moved.1]
  have chs : (d.countEcc arr false).chs = d.chs := by rw [moved.1]
  unfold Dev.fixCounted
  generalize d.countEcc arr false = a at *
  have regs (b : Dev) (same : b.regs = (a.raise MEM_STAT.CE).regs) (f : Fld) (n : Nat) : b.get f n = (a.raise MEM_STAT.CE).get f n :=
    Dev.get_of_regs same _ _ _
  refine ⟨(Dev.flag_of_get (regs _ rfl _ 0)).trans (a.flag_raise_same _ _ _ (by decide)), fun low => ?_, chs, ?_⟩
  · exact (regs _ rfl _ _).trans ((Dev.get_set_id _ _ _ _ _ _ _ _ (by decide)).trans (count low).1)
  · exact congrArg (fun x : Sram => { x with fixes := l }) sram

/-- The findings of the last 10 s once a corrected error is noted (R353). -/
def Dev.fixesWith (d : Dev) (arr bank col row : Nat) : List Finding :=
  noted ⟨arr, bank, col, row, d.time.abs⟩ (recent 2500000000 d.time.abs d.sram.fixes)

theorem Dev.eccFixed_eq (d : Dev) (arr bank col row : Nat) :
    d.eccFixed arr bank col row
      = if 3 ≤ ((d.fixesWith arr bank col row).filter (fun f => f.arr = arr && f.bank = bank && f.col = col)).length then
          (d.fixCounted arr (d.fixesWith arr bank col row)).markColumn arr bank col
        else d.fixCounted arr (d.fixesWith arr bank col row) := by
  have moved := d.countEcc_movesOnly arr false
  have l : noted ⟨arr, bank, col, row, (d.countEcc arr false).time.abs⟩ (recent 2500000000 (d.countEcc arr false).time.abs (d.countEcc arr false).sram.fixes)
      = d.fixesWith arr bank col row := by
    rw [moved.1]
    rfl
  rw [← l]
  rfl

/-- A corrected error counts, and the third row of its column has the column repaired (R351, R353). -/
theorem Dev.eccFixed_parts (d : Dev) (arr bank col row : Nat) :
    let e := d.eccFixed arr bank col row
    e.flag MEM_STAT.CE = true ∧ (arr < 8 → e.get MEM_ECCn.CE arr = satInc MEM_ECCn.CE.w (d.get MEM_ECCn.CE arr)) ∧ e.chs = d.chs
      ∧ (2 ≤ ((recent 2500000000 d.time.abs d.sram.fixes).filter (fun f => f.arr = arr && f.bank = bank && f.col = col && f.row ≠ row)).length →
        d.colsUsed arr bank + (d.sram.repairs.filter (fun r => r.1 = arr && r.2.1 = bank)).length < spareCols arr → (arr, bank, col) ∈ e.sram.repairs) := by
  obtain ⟨flag, count, chs, sram⟩ := d.fixCounted_parts arr (d.fixesWith arr bank col row)
  have rows := noted_column ⟨arr, bank, col, row, d.time.abs⟩ (recent 2500000000 d.time.abs d.sram.fixes)
  dsimp only at rows
  rw [Dev.eccFixed_eq]
  split
  next third =>
    obtain ⟨regs, chs', marked⟩ := (d.fixCounted arr (d.fixesWith arr bank col row)).markColumn_parts arr bank col
    refine ⟨(Dev.flag_of_get (Dev.get_of_regs regs _ _ _)).trans flag, fun low => (Dev.get_of_regs regs _ _ _).trans (count low), chs'.trans chs,
      fun _ spare => marked ?_⟩
    unfold Dev.colsUsed at *
    rw [sram]
    exact spare
  next few => exact ⟨flag, count, chs, fun two _ => absurd two (by unfold Dev.fixesWith at few; omega)⟩

/-! ### An uncorrectable error -/

/-- The findings of the last hour once an uncorrectable row is noted (R356). -/
def Dev.lossesWith (d : Dev) (arr bank row : Nat) : List Finding :=
  noted ⟨arr, bank, 0, row, d.time.abs⟩ (recent 900000000000 d.time.abs d.sram.losses)

/-- An uncorrectable error counted, and recorded where it is the first (R352). -/
def Dev.lossRecorded (d : Dev) (arr bank row : Nat) : Dev :=
  let d := (d.countEcc arr true).raise MEM_STAT.UE
  if d.flag MEM_LAST_UE.VALID then d
  else ((((d.raise MEM_LAST_UE.VALID).set MEM_LAST_UE.ARRAY 0 0 arr).set MEM_LAST_UE.BANK 0 0 bank).set MEM_LAST_UE.ROW 0 0 row)

theorem Dev.lossRecorded_parts (d : Dev) (arr bank row : Nat) (fits : arr < 16 ∧ bank < 16 ∧ row < 4096) :
    let e := d.lossRecorded arr bank row
    e.flag MEM_STAT.UE = true ∧ (arr < 8 → e.get MEM_ECCn.UE arr = satInc MEM_ECCn.UE.w (d.get MEM_ECCn.UE arr)) ∧ e.flag MEM_LAST_UE.VALID = true
      ∧ (d.flag MEM_LAST_UE.VALID = false → e.get MEM_LAST_UE.ARRAY = arr ∧ e.get MEM_LAST_UE.BANK = bank ∧ e.get MEM_LAST_UE.ROW = row)
      ∧ (d.flag MEM_LAST_UE.VALID = true → e.get MEM_LAST_UE.ROW = d.get MEM_LAST_UE.ROW) ∧ e.chs = d.chs ∧ e.time = d.time ∧ e.sram = d.sram := by
  have moved := d.countEcc_movesOnly arr true
  have count := d.countEcc_channel arr
  have rest : (d.countEcc arr true).chs = d.chs ∧ (d.countEcc arr true).time = d.time ∧ (d.countEcc arr true).sram = d.sram := by
    rw [moved.1]
    exact ⟨rfl, rfl, rfl⟩
  have valid := Dev.flag_of_get (moved.2 MEM_LAST_UE.VALID 0 0 (by decide))
  have row_ := moved.2 MEM_LAST_UE.ROW 0 0 (by decide)
  unfold Dev.lossRecorded
  generalize d.countEcc arr true = a at *
  have same : (a.raise MEM_STAT.UE).flag MEM_LAST_UE.VALID = d.flag MEM_LAST_UE.VALID :=
    (Dev.flag_of_get (Dev.get_set_id _ _ _ _ _ _ _ _ (by decide))).trans valid
  dsimp only
  rw [same]
  cases was : d.flag MEM_LAST_UE.VALID with
  | true =>
    simp only [if_true]
    refine ⟨a.flag_raise_same _ _ _ (by decide), fun low => ?_, same.trans was, fun no => absurd no (by simp), fun _ => ?_, rest⟩
    · exact (Dev.get_set_id _ _ _ _ _ _ _ _ (by decide)).trans (count low).2
    · exact (Dev.get_set_id _ _ _ _ _ _ _ _ (by decide)).trans row_
  | false =>
    simp only [Bool.false_eq_true, if_false]
    unfold Dev.raise Dev.flag
    simp (disch := decide) only [Dev.get_set_id, Dev.get_set_same]
    exact ⟨by decide, fun low => (count low).2, by decide,
      fun _ => ⟨Nat.mod_eq_of_lt fits.1, Nat.mod_eq_of_lt fits.2.1, Nat.mod_eq_of_lt fits.2.2⟩, fun no => absurd no (by simp), rest⟩

/-- With the findings that follow an uncorrectable row, before its bank is judged. -/
def Dev.lossCounted (d : Dev) (arr bank row : Nat) : Dev :=
  { d.lossRecorded arr bank row with sram := { (d.lossRecorded arr bank row).sram with losses := d.lossesWith arr bank row } }

theorem Dev.eccLost_eq (d : Dev) (m : Memory) (arr bank row : Nat) (fits : arr < 16 ∧ bank < 16 ∧ row < 4096) :
    d.eccLost m arr bank row
      = if arr < 8 && 16 ≤ ((d.lossesWith arr bank row).filter (fun f => f.arr = arr && f.bank = bank)).length then
          (d.lossCounted arr bank row).bankRetire m arr bank
        else d.lossCounted arr bank row := by
  obtain ⟨-, -, -, -, -, -, time, sram⟩ := d.lossRecorded_parts arr bank row fits
  have l : noted ⟨arr, bank, 0, row, (d.lossRecorded arr bank row).time.abs⟩
      (recent 900000000000 (d.lossRecorded arr bank row).time.abs (d.lossRecorded arr bank row).sram.losses) = d.lossesWith arr bank row := by
    rw [time, sram]
    rfl
  unfold Dev.lossCounted
  rw [← l]
  rfl

/-- A bank retired reads so. -/
theorem Dev.bankRetire_bit (d : Dev) (m : Memory) (n : Fin 8) (bank : Fin 16) : (d.bankRetire m n bank).bit MEM_BANKn.RETIRED n 0 bank = true := by
  unfold Dev.bankRetire
  split
  case isTrue already => exact already
  case isFalse new =>
    have shown (x : Dev) (k : Fin 8) : (x.blocksShow m k).get MEM_BANKn.RETIRED n = x.get MEM_BANKn.RETIRED n := by
      unfold Dev.blocksShow
      dsimp only
      simp (disch := decide) only [Dev.get_set_id]
      rfl
    have same (x : Dev) (k : Fin 8) : (((x.raise MEM_STAT.BANK_RET).blocksShow m k).fault 9).get MEM_BANKn.RETIRED n = x.get MEM_BANKn.RETIRED n :=
      (Dev.regsBut_read (Dev.fault_regsBut _ _) _ _ _ rfl).trans ((shown _ _).trans (Dev.get_set_id _ _ _ _ _ _ _ _ (by decide)))
    unfold Dev.bit
    rw [Dev.regsBut_read (Dev.notice_regsBut _ _ _ _) _ _ _ rfl, same]
    exact d.bit_setBit_same _ _ _ _ bank.isLt

/-! ### What an uncorrectable row means to its reader -/

/-- An absent row touches no register, and of the channels its own alone. -/
theorem Dev.areaGone_parts (d : Dev) (arr bank : Nat) :
    (d.areaGone arr bank).regs = d.regs ∧ ∀ n : Fin 8, n.val ≠ arr → (d.areaGone arr bank).chs[n] = d.chs[n] := by
  unfold Dev.areaGone
  split
  · exact ⟨rfl, fun _ _ => rfl⟩
  · split
    next seg =>
      simp only [Bool.and_eq_true, decide_eq_true_eq] at seg
      have low : (Fin.ofNat 8 arr).val = arr := Nat.mod_eq_of_lt seg.1.1
      generalize Fin.ofNat 8 arr = k at *
      have ring (x : Dev) : (x.ringGone k).regs = x.regs ∧ x.chsBut (x.ringGone k) k := by
        unfold Dev.ringGone
        extract_lets f g plays back
        split
        · exact ⟨rfl, Dev.onCh_chsBut g.2 k _⟩
        · exact ⟨rfl, fun _ _ => rfl⟩
      unfold Dev.rowGone
      extract_lets rows f j
      split
      · exact ⟨rfl, fun _ _ => rfl⟩
      · split
        · exact ⟨(ring f.2).1, fun n other => (ring f.2).2 n (fun eq => other (by rw [eq, low]))⟩
        · exact ⟨rfl, fun _ _ => rfl⟩
    · exact ⟨rfl, fun _ _ => rfl⟩

/-- Fewer than 15 findings before leave the bank in service. -/
theorem Dev.eccLost_few (d : Dev) (m : Memory) (arr bank row : Nat) (fits : arr < 16 ∧ bank < 16 ∧ row < 4096)
    (few : (d.sram.losses.filter (fun f => f.arr = arr && f.bank = bank)).length < 15) : d.eccLost m arr bank row = d.lossCounted arr bank row := by
  have le := noted_bank_le ⟨arr, bank, 0, row, d.time.abs⟩ (recent 900000000000 d.time.abs d.sram.losses)
  have less : ((recent 900000000000 d.time.abs d.sram.losses).filter (fun f => f.arr = arr && f.bank = bank)).length
      ≤ (d.sram.losses.filter (fun f => f.arr = arr && f.bank = bank)).length :=
    List.Sublist.length_le (List.Sublist.filter _ List.filter_sublist)
  dsimp only at le
  rw [d.eccLost_eq m arr bank row fits, if_neg]
  simp only [Bool.and_eq_true, decide_eq_true_eq, not_and, Nat.not_le]
  intro _
  unfold Dev.lossesWith
  omega

/-- The sixteenth distinct row of a segment bank retires it. -/
theorem Dev.eccLost_many (d : Dev) (m : Memory) (n : Fin 8) (bank : Fin 16) (row : Nat) (fits : row < 4096)
    (many : 15 ≤ ((recent 900000000000 d.time.abs d.sram.losses).filter (fun f => f.arr = n.val && f.bank = bank.val && f.col = 0 && f.row ≠ row)).length) :
    (d.eccLost m n bank row).bit MEM_BANKn.RETIRED n 0 bank = true := by
  have rows := noted_column ⟨n, bank, 0, row, d.time.abs⟩ (recent 900000000000 d.time.abs d.sram.losses)
  have ge := noted_bank_ge ⟨n, bank, 0, row, d.time.abs⟩ (recent 900000000000 d.time.abs d.sram.losses)
  dsimp only at rows ge
  rw [d.eccLost_eq m n bank row ⟨by omega, bank.isLt, fits⟩, if_pos]
  · exact Dev.bankRetire_bit _ m n bank
  · simp only [Bool.and_eq_true, decide_eq_true_eq]
    unfold Dev.lossesWith
    exact ⟨n.isLt, by omega⟩


/-- An uncorrectable row of a bank with few findings: counted, recorded where it is the first, and absent to its reader. -/
theorem Dev.eccLost_gone (d : Dev) (m : Memory) (arr bank row : Nat) (fits : arr < 16 ∧ bank < 16 ∧ row < 4096)
    (few : (d.sram.losses.filter (fun f => f.arr = arr && f.bank = bank)).length < 15) :
    let e := (d.eccLost m arr bank row).areaGone arr bank
    e.flag MEM_STAT.UE = true ∧ (arr < 8 → e.get MEM_ECCn.UE arr = satInc MEM_ECCn.UE.w (d.get MEM_ECCn.UE arr)) ∧ e.flag MEM_LAST_UE.VALID = true
      ∧ (d.flag MEM_LAST_UE.VALID = false → e.get MEM_LAST_UE.ARRAY = arr ∧ e.get MEM_LAST_UE.BANK = bank ∧ e.get MEM_LAST_UE.ROW = row)
      ∧ (d.flag MEM_LAST_UE.VALID = true → e.get MEM_LAST_UE.ROW = d.get MEM_LAST_UE.ROW) ∧ (∀ n : Fin 8, n.val ≠ arr → e.chs[n] = d.chs[n]) := by
  obtain ⟨flag, count, valid, first, later, chs, -, -⟩ := d.lossRecorded_parts arr bank row fits
  rw [d.eccLost_few m arr bank row fits few]
  obtain ⟨regs, others⟩ := (d.lossCounted arr bank row).areaGone_parts arr bank
  have read (f : Fld) (n : Nat) : ((d.lossCounted arr bank row).areaGone arr bank).get f n = (d.lossRecorded arr bank row).get f n :=
    Dev.get_of_regs (regs.trans rfl) _ _ _
  have flags (f : Fld) : ((d.lossCounted arr bank row).areaGone arr bank).flag f = (d.lossRecorded arr bank row).flag f := Dev.flag_of_get (read f 0)
  refine ⟨(flags _).trans flag, fun low => (read _ _).trans (count low), (flags _).trans valid, fun no => ?_, fun yes => (read _ _).trans (later yes),
    fun n other => (others n other).trans (congrArg (·[n]) chs)⟩
  rw [read, read, read]
  exact first no

/-! ### March tests and column repairs -/

/-- A filter that drops an address leaves it unlisted, and one that keeps it leaves it as it was. -/
theorem Memory.read_filter (m : Memory) (keep : Nat → Bool) (a : Nat) :
    Memory.read (m.filter (fun c => keep c.1)) a = if keep a then m.read a else Memory.blank := by
  induction m with
  | nil => simp [Memory.read]
  | cons c rest ih =>
    obtain ⟨k, v⟩ := c
    by_cases kept : keep k = true
    · rw [List.filter_cons_of_pos (p := fun c : Nat × BitVec 8 => keep c.1) kept]
      unfold Memory.read
      by_cases here : k = a
      · subst here; simp [kept]
      · rw [if_neg here, if_neg here, ih]
    · rw [List.filter_cons_of_neg (p := fun c : Nat × BitVec 8 => keep c.1) kept, ih]
      by_cases here : k = a
      · subst here; simp [kept]
      · conv => rhs; unfold Memory.read
        rw [if_neg here]

/-- Segment SRAM reads 0 once cleared, and every other byte as before. -/
theorem clearSram_read (m : Memory) :
    (∀ x, x < 0x2000000 → (clearSram m).read (sramAt x) = Memory.blank)
      ∧ (∀ a, (a < sramAt 0 ∨ sramAt 0x2000000 ≤ a) → (clearSram m).read a = m.read a) := by
  unfold clearSram
  refine ⟨fun x low => ?_, fun a out => ?_⟩
  · rw [Memory.read_filter m (fun k => !(decide (sramAt 0 ≤ k) && decide (k < sramAt 0x2000000))), if_neg]
    unfold sramAt
    simp
    omega
  · rw [Memory.read_filter m (fun k => !(decide (sramAt 0 ≤ k) && decide (k < sramAt 0x2000000))), if_pos]
    unfold sramAt at *
    simp
    omega

/-- A test that no command asked for ends with its result (R363). -/
theorem Dev.marchEnd_parts (d : Dev) (r : Nat) (t : March) (runs : d.sram.test = some t) (alone : t.cmd = none) (fits : r < 8) :
    let e := d.marchEnd r
    e.sram.test = none ∧ e.get MEM_MT.RESULT = r ∧ e.flag MEM_MT.BUSY = false ∧ d.regsBut e [MEM_MT.RESULT.at, MEM_MT.BUSY.at] := by
  unfold Dev.marchEnd
  rw [runs]
  dsimp only
  rw [alone]
  refine ⟨rfl, ?_, Dev.flag_set_bool _ MEM_MT.BUSY 0 0 false (by decide), ?_⟩
  · exact (Dev.get_set_id _ _ _ _ _ _ _ _ (by decide)).trans ((Dev.get_set_same ..).trans (Nat.mod_eq_of_lt fits))
  · exact Dev.regsBut_set MEM_MT.BUSY 0 0 0 (Dev.regsBut_set MEM_MT.RESULT 0 0 r (fun _ _ _ _ => rfl) (by simp)) (by simp)

/-- The blocks shared out again show in two registers. -/
theorem Dev.blocksShow_parts (d : Dev) (m : Memory) (n : Fin 8) :
    let e := d.blocksShow m n
    d.regsBut e [MSN_SRAMn.RINGS.at n, MSN_SRAMn.FREE.at n] ∧ e.sram = d.sram ∧ e.chs = d.chs ∧ e.cmds = d.cmds := by
  unfold Dev.blocksShow
  extract_lets rings out heads room res used whole a
  have same : d.regsBut a [MSN_SRAMn.RINGS.at n, MSN_SRAMn.FREE.at n] := fun _ _ _ _ => rfl
  exact ⟨Dev.regsBut_set MSN_SRAMn.FREE n 0 _ (Dev.regsBut_set MSN_SRAMn.RINGS n 0 _ same (by simp)) (by simp), rfl, rfl, rfl⟩

/-- The arrays as the march test of the start leaves them where no column fails (R359). -/
def Dev.arraysCleared (d : Dev) : Dev :=
  let sram := { d.sram with spares := [], repairs := [], bad := [], fixes := [], losses := [], blank := List.range 8, tcm := [] }
  { ({ d with sram := sram } : Dev).raise MEM_STAT.START_OK with mbx := [] }

/-- The bank that a march test is to have (R361). -/
def Dev.marchNamed (d : Dev) (bank ch : Nat) : Dev := (d.set MEM_MT.BANK 0 0 bank).set MEM_MT.CH 0 0 ch

theorem Dev.marchNamed_onlyRegs (d : Dev) (bank ch : Nat) : d.onlyRegs (d.marchNamed bank ch) [MEM_MT.BANK.at, MEM_MT.CH.at] :=
  Dev.onlyRegs_set MEM_MT.CH 0 0 ch (Dev.onlyRegs_set MEM_MT.BANK 0 0 bank (d.onlyRegs_refl _) (by simp)) (by simp)

/-- A march test that is not refused runs, and its bank's blocks are shared out again (R361). -/
theorem Dev.marchAsk_taken (d : Dev) (m : Memory) (n : Fin 8) (bank : Nat) (cmd : Option (Nat × Nat)) (ok : d.marchRefused m n bank = false) :
    let e := d.marchAsk m n bank cmd
    e.flag MEM_MT.BUSY = true ∧ (∃ t, e.sram = { d.sram with test := some t } ∧ t.ch = n.val ∧ t.bank = bank ∧ t.tests = false ∧ t.cmd = cmd) ∧ e.chs = d.chs ∧ e.cmds = d.cmds
      ∧ d.regsBut e [MEM_MT.BUSY.at, MSN_SRAMn.RINGS.at n, MSN_SRAMn.FREE.at n] := by
  unfold Dev.marchAsk
  rw [if_neg (by simp [ok])]
  extract_lets t a
  obtain ⟨regs, sram, chs, cmds⟩ := (({ d with sram := { d.sram with test := some t } }).raise MEM_MT.BUSY).blocksShow_parts m n
  refine ⟨?_, ⟨t, sram, rfl, rfl, rfl, rfl⟩, chs, cmds, ?_⟩
  · exact (Dev.flag_of_get (Dev.regsBut_read regs _ _ _ rfl)).trans (Dev.flag_raise_same _ _ _ _ (by decide))
  · exact Dev.regsBut_trans (Dev.regsBut_set MEM_MT.BUSY 0 0 1 (fun _ _ _ _ => rfl) (by simp)) (Dev.regsBut_mono regs (by simp))

/-- A repaired column uses one more spare and is under repair no longer (R354, R355). -/
theorem Dev.columnDone_parts (d : Dev) (arr bank : Nat) (r : Nat × Nat × Nat)
    (found : d.sram.repairs.find? (fun r => r.1 = arr && r.2.1 = bank) = some r) :
    let e := d.columnDone arr bank
    e.flag MEM_STAT.REPAIR = true ∧ e.sram.repairs = d.sram.repairs.erase r ∧ e.colsUsed arr bank = d.colsUsed arr bank + 1 := by
  have uses (a : Dev) : ((a.useCols arr bank 1).raise MEM_STAT.REPAIR).sram
      = { a.sram with spares := (arr, bank, a.colsUsed arr bank + 1) :: a.sram.spares.filter (fun x => !(x.1 = arr && x.2.1 = bank)) } := by
    unfold Dev.useCols
    extract_lets used b c d
    have sram : d.sram = { a.sram with spares := (arr, bank, used) :: a.sram.spares.filter (fun x => !(x.1 = arr && x.2.1 = bank)) } := by
      unfold d
      split
      · rfl
      · rfl
    split
    · exact sram
    · split
      · exact sram
      · exact sram
  unfold Dev.columnDone
  rw [found]
  dsimp only
  refine ⟨Dev.flag_raise_same _ _ _ _ (by decide), ?_, ?_⟩
  · rw [uses]
  · conv => lhs; unfold Dev.colsUsed
    rw [uses, List.find?_cons_of_pos (by simp)]
    rfl

/-- Settles O28, from what an error counted, a march test and a column repair each leave. -/
theorem sramErrorsAndTests : Obligations.SramErrorsAndTests := by
  unfold Obligations.SramErrorsAndTests
  refine ⟨?_, ?_⟩
  · intro s arr bank row
    dsimp only
    have fits : arr.val < 16 ∧ bank.val < 16 ∧ row.toNat < 4096 := ⟨by omega, bank.isLt, row.isLt⟩
    have fixes (up : s.dev.arraysUp arr bank = true) (r g again bit c) :
        exec (.sramReadError arr bank row false r g again bit c) s = .next (s.withDev (s.dev.eccFixed arr bank (72 * g.val + bit.val) row.toNat)) := by
      show execSramReadError .. = _
      unfold execSramReadError
      simp [up]
    have loses (up : s.dev.arraysUp arr bank = true) (g again bit c) :
        exec (.sramReadError arr bank row true .staging g again bit c) s = .next (s.withDev ((s.dev.eccLost s.mem arr bank row.toNat).areaGone arr bank)) := by
      show execSramReadError .. = _
      unfold execSramReadError
      simp [up]
      rfl
    have scrubs (up : s.dev.arraysUp arr bank = true) (awake : s.dev.get PWR_STAT.STATE ≠ 2) (f col) : exec (.sramScrub arr bank row f col) s
        = match f with
          | .clean => .next s
          | .fixed => .next (s.withDev (s.dev.eccFixed arr bank col row.toNat))
          | .lost => .next (s.withDev (if arr.val = 8 then ((s.dev.eccLost s.mem arr bank row.toNat).areaGone arr bank).clerkReset 3
              else (s.dev.eccLost s.mem arr bank row.toNat).areaGone arr bank)) := by
      show execSramScrub .. = _
      unfold execSramScrub
      simp only [up, awake]
      cases f <;> rfl
    refine ⟨fun up r g again bit c => ⟨⟨_, fixes up .., s.dev.eccFixed_parts arr bank _ row.toNat⟩, fun st few => ?_, fun st low many => ?_⟩,
      fun down ue r g again bit c => ?_, fun col up awake => ⟨scrubs up awake .clean col, ⟨_, scrubs up awake .fixed col, s.dev.eccFixed_parts arr bank _ row.toNat⟩,
        fun few other => ?_⟩, fun out f col => ?_⟩
    · subst st
      exact ⟨_, loses up .., s.dev.eccLost_gone s.mem arr bank row.toNat fits few⟩
    · subst st
      refine ⟨_, loses up .., ?_⟩
      have retired := s.dev.eccLost_many s.mem ⟨arr.val, low⟩ bank row.toNat fits.2.2 many
      have regs := ((s.dev.eccLost s.mem arr bank row.toNat).areaGone_parts arr bank).1
      unfold Dev.bit at *
      rw [Dev.get_of_regs regs]
      exact retired
    · show execSramReadError .. = _
      unfold execSramReadError
      simp [down]
    · refine ⟨_, (scrubs up awake .lost col).trans (State.next_of_eq s (if_neg other)), ?_⟩
      obtain ⟨ue, -, valid, -, -, chs⟩ := s.dev.eccLost_gone s.mem arr bank row.toNat fits few
      exact ⟨ue, valid, chs⟩
    · show execSramScrub .. = _
      unfold execSramScrub
      exact if_pos (by simpa using out)
  · intro s
    dsimp only
    have kept (b c : Nat) : (s.dev.marchNamed b c).flag MEM_MT.BUSY = s.dev.flag MEM_MT.BUSY :=
      Dev.flag_of_get ((Dev.get_set_id _ _ _ _ _ _ _ _ (by decide)).trans (Dev.get_set_id _ _ _ _ _ _ _ _ (by decide)))
    have named (w : BitVec 32) : (s.dev.marchNamed (bitsOf w.toNat 8 4) (bitsOf w.toNat 4 3)).get MEM_MT.BANK = bitsOf w.toNat 8 4
        ∧ (s.dev.marchNamed (bitsOf w.toNat 8 4) (bitsOf w.toNat 4 3)).get MEM_MT.CH = bitsOf w.toNat 4 3 :=
      ⟨(Dev.get_set_id _ _ _ _ _ _ _ _ (by decide)).trans (s.dev.get_set_bitsOf MEM_MT.BANK 0 0 w.toNat 8), Dev.get_set_bitsOf _ MEM_MT.CH 0 0 w.toNat 4⟩
    have asked (w : BitVec 32) (idle : s.dev.flag MEM_MT.BUSY = false) : exec (.memMtStart w) s = .next (s.withDev
        ((s.dev.marchNamed (bitsOf w.toNat 8 4) (bitsOf w.toNat 4 3)).marchAsk s.mem (Fin.ofNat 8 (bitsOf w.toNat 4 3)) (bitsOf w.toNat 8 4) none)) :=
      if_neg (c := (s.dev.marchNamed (bitsOf w.toNat 8 4) (bitsOf w.toNat 4 3)).flag MEM_MT.BUSY = true) (by simp [kept, idle])
    refine ⟨fun locked first sound => ?_, fun off bad => ?_, fun w busy => ?_, fun w idle ok => ?_, fun w idle no => ?_, fun t cols runs alone => ?_,
      fun cols abort none_ => ?_, fun arr bank => ⟨fun r found => ⟨_, rfl, s.dev.columnDone_parts arr bank r found⟩, fun none_ => ?_⟩⟩
    · have run : exec (.startupMarchDone []) s = .next { s with dev := s.dev.arraysCleared, mem := clearSram s.mem } := by
        show execStartupMarchDone .. = _
        unfold execStartupMarchDone
        dsimp only
        rw [if_neg (by simp [locked, first, sound])]
        refine congrArg (fun e : Dev => Host.Outcome.next { s with dev := { e with mbx := [] }, mem := clearSram s.mem }) (if_neg ?_)
        show ¬ s.dev.flag MEM_STAT.MT_FAIL = true
        simp [sound]
      refine ⟨_, run, rfl, ?_, rfl, rfl, ?_, rfl, clearSram_read s.mem⟩
      · exact Dev.flag_raise_same { s.dev with sram := s.dev.arraysCleared.sram } MEM_STAT.START_OK 0 0 (by decide)
      · exact Dev.regsBut_set (ks := [MEM_STAT.START_OK.at]) MEM_STAT.START_OK 0 0 1 (fun _ _ _ _ => rfl) (by simp)
    · show execStartupMarchDone .. = _
      unfold execStartupMarchDone
      exact if_pos (by simpa [or_assoc] using off)
    · exact ⟨_, if_pos (c := (s.dev.marchNamed (bitsOf w.toNat 8 4) (bitsOf w.toNat 4 3)).flag MEM_MT.BUSY = true) ((kept _ _).trans busy), s.dev.marchNamed_onlyRegs _ _, named w⟩
    · refine ⟨_, asked w idle, ?_⟩
      obtain ⟨flag, ⟨t, test, parts⟩, -, -, regs⟩ := (s.dev.marchNamed (bitsOf w.toNat 8 4) (bitsOf w.toNat 4 3)).marchAsk_taken s.mem (Fin.ofNat 8 (bitsOf w.toNat 4 3))
        (bitsOf w.toNat 8 4) none ok
      have ch : (Fin.ofNat 8 (bitsOf w.toNat 4 3)).val = bitsOf w.toNat 4 3 := Nat.mod_eq_of_lt (Nat.mod_lt _ (by decide))
      rw [ch] at parts regs
      exact ⟨flag, ⟨t, congrArg Sram.test test, parts⟩, Dev.regsBut_trans (Dev.regsBut_mono (s.dev.marchNamed_onlyRegs _ _).2 (by simp)) (Dev.regsBut_mono regs (by simp))⟩
    · refine ⟨_, (asked w idle).trans (State.next_of_eq s (if_pos no)), ?_, ?_⟩
      · exact Dev.get_set_same ..
      · exact Dev.onlyRegs_set MEM_MT.RESULT 0 0 4 (Dev.onlyRegs_mono (s.dev.marchNamed_onlyRegs _ _) (by simp)) (by simp)
    · have run (abort : Bool) (cols) : exec (.marchTestDone cols abort) s = if abort then .next (s.withDev (s.dev.marchEnd 5))
          else if !t.tests then .next s
          else if cols = 0 then .next (s.withDev (s.dev.marchEnd 1))
          else if s.dev.colsUsed t.ch t.bank + cols ≤ spareCols t.ch then
            .next (s.withDev (((s.dev.useCols t.ch t.bank cols).raise MEM_STAT.REPAIR).marchEnd 2))
          else .next (s.withDev ((s.dev.bankRetire s.mem t.ch t.bank).marchEnd 3)) := by
        show execMarchTestDone .. = _
        unfold execMarchTestDone
        dsimp only
        rw [runs]
      refine ⟨⟨_, run true cols, s.dev.marchEnd_parts 5 t runs alone (by decide)⟩, fun waits => ?_, fun ready => ⟨_, ?_, s.dev.marchEnd_parts 1 t runs alone (by decide)⟩⟩
      · rw [run, waits]
        rfl
      · rw [run, ready]
        rfl
    · show execMarchTestDone .. = _
      unfold execMarchTestDone
      dsimp only
      rw [none_]
    · show execColumnRepairDone .. = _
      unfold execColumnRepairDone Dev.columnDone
      rw [none_]
      rfl

end Sys2Proof.Machine
end

section
/-!
SUPPORT. What stopping sequencers leaves as it is (R43, R281, R559), where no field waits to become owned.
-/
namespace Sys2Proof.Machine
open Reg

/-! ### Dropped actions -/

/-- The registers that a dropped action moves: its origin's report, its slots' overruns, and the answer of its command. -/
def dropIds : List Nat := answerIds ++ [EVL_OVRn.SLOT.id, EVL_OVRn.COUNT.id, CQ_STAT.SUPERSEDED.id, PLB_STAT.REQ_DROP.id, PLB_STAT.STATE.id,
  DDS_STAT.APPLY_PEND.id, DDS_STAT.APPLY_LOST.id, SEQ_STAT.CMD_PEND.id, SEQ_STAT.CMD_REJ.id]

/-- From `d` to `e` actions were dropped: no channel's own state moved, and of the registers those of `dropIds` alone. -/
structure Dev.drops (d e : Dev) : Prop where
  rest : e = { d with regs := e.regs, mbx := e.mbx, cmds := e.cmds, port := { d.port with held := e.port.held }, out := e.out, fresh := e.fresh }
  regs : ∀ f m i, f.id ∉ dropIds → e.get f m i = d.get f m i
  sent : d.out <+: e.out

theorem Dev.drops_refl (d : Dev) : d.drops d := ⟨rfl, fun _ _ _ _ => rfl, List.prefix_rfl⟩

theorem Dev.drops_trans {d e f : Dev} (h : d.drops e) (k : e.drops f) : d.drops f :=
  ⟨k.rest.trans (congrArg (fun x : Dev => { x with regs := f.regs, mbx := f.mbx, cmds := f.cmds, port := { x.port with held := f.port.held }, out := f.out, fresh := f.fresh }) h.rest),
    fun g m i out => (k.regs g m i out).trans (h.regs g m i out), h.sent.trans k.sent⟩

/-- The end of a command sends its vector at most. -/
theorem Dev.finish_drops (d : Dev) (m slot status : Nat) (res : List Nat) (none : d.ownWait = []) : d.drops (d.finish m slot status res) := by
  have answers := d.replied_finish m slot status res none
  exact ⟨answers.rest, fun f m i out => answers.regs f m i (fun isin => out (List.mem_append_left _ isin)), answers.sent⟩

theorem Dev.drops_set {d e : Dev} (h : d.drops e) (f : Fld) (n i v : Nat) (isin : f.id ∈ dropIds) : d.drops (e.set f n i v) :=
  Dev.drops_trans h ⟨rfl, fun _ _ _ out => e.get_set_id _ _ _ _ _ _ _ (fun eq => out (eq ▸ isin)), List.prefix_rfl⟩

theorem Dev.drops_raiseIf {d e : Dev} (h : d.drops e) (c : Bool) (f : Fld) (n i : Nat) (isin : f.id ∈ dropIds) : d.drops (e.raiseIf c f n i) := by
  cases c
  · exact h
  · exact Dev.drops_set h f n i 1 isin

theorem Dev.drops_fields {d e : Dev} (h : d.drops e) : e.chs = d.chs ∧ e.ownWait = d.ownWait := by
  rw [h.rest]
  exact ⟨rfl, rfl⟩

theorem Dev.overrun_drops (d : Dev) (slots : List (Nat × Nat)) : d.drops (d.overrun slots) := by
  unfold Dev.overrun
  extract_lets e
  refine foldl_keeps (fun e => d.drops e) _ _ _ (fun e l h => Dev.drops_set h _ _ _ _ (by decide)) ?_
  exact foldl_keeps (fun e => d.drops e) _ _ _ (fun e l h => Dev.drops_set h _ _ _ _ (by decide)) d.drops_refl

/-- One part of a timed command ended: the command was counted down, or answered. -/
theorem Dev.part_drops (d : Dev) (m slot n reason : Nat) (none : d.ownWait = []) : d.drops (d.part m slot n reason) := by
  unfold Dev.part
  split
  next => exact d.drops_refl
  next c found =>
    extract_lets c' mask
    split
    next more => exact ⟨rfl, fun _ _ _ _ => rfl, List.prefix_rfl⟩
    next last =>
      split
      next => exact d.finish_drops m slot 0 mask none
      next =>
        split
        next => exact d.finish_drops m slot 4 [] none
        next => exact d.finish_drops m slot 1 _ none

theorem Dev.dropAct_drops (d : Dev) (n : Nat) (a : Act) (why : Lost) (none : d.ownWait = []) : d.drops (d.dropAct n a why) := by
  unfold Dev.dropAct
  extract_lets d1 d2
  have told : d.drops d2 := Dev.drops_raiseIf (d.overrun_drops _) _ _ _ _ (by decide)
  clear_value d2
  split
  next d3 slotAct _ m slot org =>
    have parts (x : Dev) (h : d.drops x) (r : Nat) : d.drops (x.part m slot n r) :=
      Dev.drops_trans h (x.part_drops m slot n r ((Dev.drops_fields h).2.trans none))
    refine parts _ ?_ _
    unfold d3
    cases a.kind with
    | slot kind => exact Dev.drops_set (Dev.drops_raiseIf told _ PLB_STAT.REQ_DROP n 0 (by decide)) PLB_STAT.STATE _ _ _ (by decide)
    | apply pofs => exact Dev.drops_raiseIf (Dev.drops_set told DDS_STAT.APPLY_PEND n 0 0 (by decide)) _ DDS_STAT.APPLY_LOST n 0 (by decide)
    | _ => exact told
  next org =>
    split
    · exact Dev.drops_set (Dev.drops_set told _ _ _ _ (by decide)) _ _ _ _ (by decide)
    · exact Dev.drops_set (Dev.drops_set told _ _ _ _ (by decide)) _ _ _ _ (by decide)
    · exact told
    · exact Dev.drops_raiseIf (Dev.drops_set told _ _ _ _ (by decide)) _ _ _ _ (by decide)
  next => exact told

/-! ### One sequencer stopped -/

/-- The registers that a stopped channel moves. -/
def haltIds : List Nat := dropIds ++ [CAPk_CTRL.PEND.id, SEQ_STAT.STATE.id, SEQ_PEND.START.id, SEQ_PEND.JMP.id, FJ_LASTn.PHASE.id, MSN_CHn_STAT.STARVED.id]

/-- From `d` to `e` only channel n moved, its sequencer stopped: what of the device outside the channels and `haltIds` is as it was. -/
structure Dev.halts (d e : Dev) (n : Fin 8) : Prop where
  rest : e = { d with regs := e.regs, chs := e.chs, mbx := e.mbx, cmds := e.cmds, port := { d.port with held := e.port.held }, out := e.out, fresh := e.fresh }
  regs : ∀ f m i, f.id ∉ haltIds → e.get f m i = d.get f m i
  chs : d.chsBut e n
  state : ∀ m : Fin 8, m ≠ n → e.get SEQ_STAT.STATE m = d.get SEQ_STAT.STATE m
  sent : d.out <+: e.out

theorem Dev.halts_trans {d e f : Dev} {n : Fin 8} (h : d.halts e n) (k : e.halts f n) : d.halts f n :=
  ⟨k.rest.trans (congrArg (fun x : Dev => { x with regs := f.regs, chs := f.chs, mbx := f.mbx, cmds := f.cmds, port := { x.port with held := f.port.held }, out := f.out, fresh := f.fresh }) h.rest),
    fun g m i out => (k.regs g m i out).trans (h.regs g m i out), fun m other => (k.chs m other).trans (h.chs m other),
    fun m other => (k.state m other).trans (h.state m other), h.sent.trans k.sent⟩

theorem Dev.halts_own {d e : Dev} {n : Fin 8} (h : d.halts e n) : e.ownWait = d.ownWait := by
  rw [h.rest]

theorem Dev.halts_drops {d e : Dev} (n : Fin 8) (h : d.drops e) : d.halts e n := by
  refine ⟨?_, fun f m i out => h.regs f m i (fun isin => out (List.mem_append_left _ isin)), fun m _ => by rw [(Dev.drops_fields h).1],
    fun m _ => h.regs _ _ _ (by decide), h.sent⟩
  rw [(Dev.drops_fields h).1]
  exact h.rest

theorem Dev.halts_onlyCh {d e : Dev} {n : Fin 8} (h : d.onlyCh e n) : d.halts e n := by
  have read (f : Fld) (m i : Nat) : e.get f m i = d.get f m i := by rw [h.1]; rfl
  refine ⟨?_, fun f m i _ => read f m i, h.2, fun m _ => read _ _ _, ?_⟩
  · rw [h.1]
  · rw [h.1]

theorem Dev.halts_onCh (d : Dev) (n : Fin 8) (f : Chan → Chan) : d.halts (d.onCh n f) n := Dev.halts_onlyCh (d.onlyCh_onCh n f)

theorem Dev.halts_set (d : Dev) (n : Fin 8) (f : Fld) (k i v : Nat) (isin : f.id ∈ haltIds) (own : f.id = SEQ_STAT.STATE.id → k = n.val) :
    d.halts (d.set f k i v) n := by
  refine ⟨rfl, fun _ _ _ out => d.get_set_id _ _ _ _ _ _ _ (fun eq => out (eq ▸ isin)), fun _ _ => rfl, fun m other => ?_, List.prefix_rfl⟩
  refine d.get_set_other _ _ _ _ _ _ _ (fun eq => other (Fin.ext ?_))
  simp only [Prod.mk.injEq] at eq
  exact eq.2.1.symm.trans (own eq.1)

theorem Dev.dropCaps_halts (d : Dev) (n : Fin 8) : d.halts (d.dropCaps n) n := by
  unfold Dev.dropCaps
  extract_lets held d1 d2
  have told : d.drops d1 := foldl_keeps (fun e => d.drops e) _ _ _ (fun e x h => Dev.drops_trans h (e.overrun_drops x)) d.drops_refl
  refine foldl_keeps (fun e => d.halts e n) _ _ _ (fun e k h => Dev.halts_trans h (e.halts_set n _ _ _ _ (by decide) (fun _ => rfl))) ?_
  exact Dev.halts_trans (Dev.halts_drops n told) (d1.halts_onCh n _)

/-- A stopped sequencer: what moved, and where its channel stands. -/
theorem Dev.stopNow_halts (d : Dev) (n : Fin 8) (none : d.ownWait = []) :
    let e := d.stopNow n
    d.halts e n ∧ e.get SEQ_STAT.STATE n = 0 ∧ e.chs[n].cur = .none := by
  unfold Dev.stopNow
  extract_lets c d1 d2 step arch d3 d4 e
  have one : d.drops d1 := foldl_keeps (fun e => d.drops e) _ _ _
    (fun e a h => Dev.drops_trans h (e.dropAct_drops n a _ ((Dev.drops_fields h).2.trans none))) d.drops_refl
  have two : d.halts d2 n :=
    Dev.halts_trans (Dev.halts_drops n one) (Dev.halts_trans (Dev.halts_onlyCh (d1.abortSlot_onlyCh n)) (Dev.dropCaps_halts _ n))
  have three : d.halts d3 n := Dev.halts_trans two (d2.halts_onCh n _)
  have cur : d3.chs[n].cur = Option.none := by
    unfold d3
    rw [Dev.onCh_same]
  clear_value d3
  unfold e d4 Dev.clear
  refine ⟨Dev.halts_trans three ?_, ?_, cur⟩
  · have sets (x : Dev) (f : Fld) (v : Nat) (isin : f.id ∈ haltIds) : x.halts (x.set f n 0 v) n := x.halts_set n f n 0 v isin (fun _ => rfl)
    exact Dev.halts_trans (sets _ _ _ (by decide)) (Dev.halts_trans (sets _ _ _ (by decide)) (Dev.halts_trans (sets _ _ _ (by decide))
      (Dev.halts_trans (sets _ _ _ (by decide)) (sets _ _ _ (by decide)))))
  · simp (disch := decide) only [Dev.get_set_id, Dev.get_set_same]
    rfl

/-- A quiet sequencer is a stopped one whose output is forced (R559). -/
theorem Dev.quietNow_halts (d : Dev) (n : Fin 8) (none : d.ownWait = []) :
    let e := d.quietNow n
    d.halts e n ∧ e.get SEQ_STAT.STATE n = 0 := by
  obtain ⟨stops, state, -⟩ := d.stopNow_halts n none
  have forced (x : Dev) : x.onlyCh (x.forceCh n) n := Dev.onlyCh_trans (x.onlyCh_onCh n _) (Dev.abortSlot_onlyCh _ n)
  refine ⟨Dev.halts_trans stops (Dev.halts_onlyCh (forced _)), ?_⟩
  refine Eq.trans (Dev.get_of_regs ?_ _ _ _) state
  unfold Dev.quietNow
  rw [(forced _).1]

/-! ### Every sequencer stopped -/

/-- What stopping any channels leaves as it is. -/
structure Dev.haltsAll (d e : Dev) : Prop where
  rest : e = { d with regs := e.regs, chs := e.chs, mbx := e.mbx, cmds := e.cmds, port := { d.port with held := e.port.held }, out := e.out, fresh := e.fresh }
  regs : ∀ f m i, f.id ∉ haltIds → e.get f m i = d.get f m i
  sent : d.out <+: e.out

theorem Dev.haltsAll_refl (d : Dev) : d.haltsAll d := ⟨rfl, fun _ _ _ _ => rfl, List.prefix_rfl⟩

theorem Dev.haltsAll_trans {d e f : Dev} (h : d.haltsAll e) (k : e.haltsAll f) : d.haltsAll f :=
  ⟨k.rest.trans (congrArg (fun x : Dev => { x with regs := f.regs, chs := f.chs, mbx := f.mbx, cmds := f.cmds, port := { x.port with held := f.port.held }, out := f.out, fresh := f.fresh }) h.rest),
    fun g m i out => (k.regs g m i out).trans (h.regs g m i out), h.sent.trans k.sent⟩

theorem Dev.halts_all {d e : Dev} {n : Fin 8} (h : d.halts e n) : d.haltsAll e := ⟨h.rest, h.regs, h.sent⟩

theorem Dev.haltsAll_fields {d e : Dev} (h : d.haltsAll e) :
    e.time = d.time ∧ e.ev = d.ev ∧ e.porter = d.porter ∧ e.power = d.power ∧ e.boot = d.boot ∧ e.ring = d.ring ∧ e.ownWait = d.ownWait := by
  rw [h.rest]
  exact ⟨rfl, rfl, rfl, rfl, rfl, rfl, rfl⟩

/-- Every sequencer stopped: every one reads STOPPED and plays nothing. -/
theorem Dev.stopAll_parts (d : Dev) (none : d.ownWait = []) :
    let e := d.stopAll
    d.haltsAll e ∧ ∀ n : Fin 8, e.get SEQ_STAT.STATE n = 0 ∧ e.chs[n].cur = .none := by
  have turn (n : Fin 8) (e : Dev) (h : d.haltsAll e) := e.stopNow_halts n ((Dev.haltsAll_fields h).2.2.2.2.2.2.trans none)
  have keeps (n : Fin 8) (e : Dev) (h : d.haltsAll e) : d.haltsAll (e.stopNow n) := Dev.haltsAll_trans h (Dev.halts_all (turn n e h).1)
  refine ⟨Dev.eachCh_keeps _ _ _ keeps d.haltsAll_refl, fun n => ?_⟩
  refine (Dev.eachCh_turn n (fun e => d.haltsAll e) (fun e => d.haltsAll e ∧ e.get SEQ_STAT.STATE n = 0 ∧ e.chs[n].cur = .none) _ d
    (fun m _ => keeps m) (fun e h => ⟨keeps n e h, (turn n e h).2⟩) (fun m other e h => ?_) d.haltsAll_refl).2
  obtain ⟨stops, -, -⟩ := turn m e h.1
  exact ⟨keeps m e h.1, (stops.state n (Ne.symm other)).trans h.2.1, (congrArg Chan.cur (stops.chs n (Ne.symm other))).trans h.2.2⟩

/-- HALT held from here on, with its source latched: the sequencers stop, and HALT_SEEN fires. -/
def Dev.halting (d : Dev) : Dev := ({ d with porter := { d.porter with halt := true } }.stopAll)

theorem Dev.halting_parts (d : Dev) (none : d.ownWait = []) :
    let e := d.halting
    e.porter = { d.porter with halt := true } ∧ e.ring = d.ring ∧ e.boot = d.boot ∧ e.time = d.time ∧ d.out <+: e.out
      ∧ ∀ f m i, f.id ∉ haltIds → e.get f m i = d.get f m i := by
  obtain ⟨stops, -⟩ := Dev.stopAll_parts { d with porter := { d.porter with halt := true } } none
  obtain ⟨time, -, porter, -, boot, ring, -⟩ := Dev.haltsAll_fields stops
  exact ⟨porter, ring, boot, time, stops.sent, stops.regs⟩

theorem Dev.haltOut_eq (d : Dev) : d.haltOut = { d with out := d.haltOut.out } := by
  unfold Dev.haltOut
  split
  · rfl
  · rfl

theorem Dev.assertHalt_eq (d : Dev) (src : Nat) : d.assertHalt src
    = if d.porter.halt then d.setBit PORTER_HALT.SRC 0 0 src else (d.setBit PORTER_HALT.SRC 0 0 src).halting.haltOut.fire 8 := rfl

/-- HALT asserted: it is held, its source is latched, and of the registers only those of stopped channels moved else. -/
theorem Dev.assertHalt_parts (d : Dev) (src : Nat) (fits : src < PORTER_HALT.SRC.w) (none : d.ownWait = []) :
    let e := d.assertHalt src
    e.porter = { d.porter with halt := true } ∧ e.bit PORTER_HALT.SRC 0 0 src = true ∧ e.ring = d.ring ∧ e.boot = d.boot ∧ e.time = d.time
      ∧ ∀ f m i, f.id ≠ PORTER_HALT.SRC.id → f.id ∉ haltIds → e.get f m i = d.get f m i := by
  have latched := d.bit_setBit_same PORTER_HALT.SRC 0 0 src fits
  have others (f : Fld) (m i : Nat) (other : f.id ≠ PORTER_HALT.SRC.id) : (d.setBit PORTER_HALT.SRC 0 0 src).get f m i = d.get f m i :=
    d.get_set_id _ _ _ _ _ _ _ (Ne.symm other)
  rw [Dev.assertHalt_eq]
  split
  next held =>
    refine ⟨?_, latched, rfl, rfl, rfl, fun f m i other _ => others f m i other⟩
    show d.porter = _
    rw [← held]
  next =>
    obtain ⟨porter, ring, boot, time, -, regs⟩ := (d.setBit PORTER_HALT.SRC 0 0 src).halting_parts none
    generalize (d.setBit PORTER_HALT.SRC 0 0 src).halting = h at *
    rw [Dev.haltOut_eq]
    simp only [Dev.fire_porter, Dev.fire_ring, Dev.fire_boot, Dev.fire_time, Dev.fire_get, Dev.bit]
    refine ⟨porter, ?_, ring, boot, time, fun f m i other out => (regs f m i out).trans (others f m i other)⟩
    exact (congrArg (fun v => bitAt v src) (regs PORTER_HALT.SRC 0 0 (by decide))).trans latched

theorem Dev.haltRing_eq (d : Dev) (p : Nat) : d.haltRing p true
    = let e := (d.setBit PORTER_HALT.SRC 0 0 2).emit (.haltSym (1 - p)); if d.porter.halt then e else e.halting.fire 8 := rfl

/-- HALT brought by a symbol: it is held with the source of the ring, and the symbol goes on (R443). -/
theorem Dev.haltRing_symbol (d : Dev) (p : Nat) (none : d.ownWait = []) :
    let e := d.haltRing p true
    e.porter.halt = true ∧ e.bit PORTER_HALT.SRC 0 0 2 = true ∧ .haltSym (1 - p) ∈ e.out := by
  rw [Dev.haltRing_eq]
  have latched : ((d.setBit PORTER_HALT.SRC 0 0 2).emit (.haltSym (1 - p))).bit PORTER_HALT.SRC 0 0 2 = true :=
    d.bit_setBit_same PORTER_HALT.SRC 0 0 2 (by decide)
  have sent : .haltSym (1 - p) ∈ ((d.setBit PORTER_HALT.SRC 0 0 2).emit (.haltSym (1 - p))).out := List.mem_append_right _ (by simp)
  dsimp only
  split
  next held => exact ⟨held, latched, sent⟩
  next =>
    obtain ⟨porter, -, -, -, out, regs⟩ := ((d.setBit PORTER_HALT.SRC 0 0 2).emit (.haltSym (1 - p))).halting_parts none
    simp only [Dev.fire_porter, Dev.fire_out, Dev.fire_get, Dev.bit]
    exact ⟨by rw [porter], (congrArg (fun v => bitAt v 2) (regs PORTER_HALT.SRC 0 0 (by decide))).trans latched, out.subset sent⟩

end Sys2Proof.Machine
end

section
/-!
PROOF. Roles, joining and rejoining of the ring (R418, R419, R424, R451, R452).
-/
namespace Sys2Proof.Machine
open Reg

/-- The state that the ring takes shows (R419). -/
theorem Dev.ringState_shown (d : Dev) (st : Nat) (fits : st < 8) : (d.ringState st).ringSt = st := by
  unfold Dev.ringState Dev.ringSt
  split
  next same => exact same
  next =>
    refine (Dev.get_set_id _ _ _ _ _ _ _ _ (by decide)).trans ?_
    rw [Dev.regsBut_read (Dev.notice_regsBut _ _ _ _) _ _ _ rfl, Dev.get_set_same]
    exact Nat.mod_eq_of_lt (Nat.lt_of_lt_of_le fits (by decide))

/-- What of the device a join or a rejoin that begins leaves as it is, its state apart. -/
theorem Dev.follow_state {d e : Dev} (st : Nat) (fits : st < 8) (h : d.links e) (f : Fld) (out : f.id ∉ linkIds) :
    let g := e.ringState st
    g.ringSt = st ∧ g.flag f = d.flag f ∧ g.chs = d.chs ∧ g.time = d.time := by
  have links := Dev.links_trans h (e.links_ringState st)
  exact ⟨e.ringState_shown st fits, Dev.flag_of_get (links.regs f 0 0 out), links.chs, links.time⟩

/-- A port powered down moves its own registers (R418). -/
theorem Dev.portOff_parts (d : Dev) (p : Nat) :
    let e := d.portOff p
    e.chs = d.chs ∧ e.time = d.time ∧ ∀ f, f.id ∈ [RING_CTRL.ROLE.id, RING_STAT.CFG_REJ.id] → e.get f = d.get f := by
  refine ⟨rfl, rfl, fun f isin => ?_⟩
  have apart (g : Fld) (h : g.id ≠ RING_CTRL.ROLE.id ∧ g.id ≠ RING_STAT.CFG_REJ.id) : g.id ≠ f.id := by
    rintro eq
    rw [List.mem_pair] at isin
    exact isin.elim (fun is => h.1 (eq.trans is)) (fun is => h.2 (eq.trans is))
  unfold Dev.portOff
  extract_lets a b
  refine (Dev.get_of_regs (d := b) rfl f 0 0).trans ?_
  unfold b a Dev.clear
  rw [Dev.get_set_id _ _ _ _ _ _ _ _ (apart _ (by decide)), Dev.get_set_id _ _ _ _ _ _ _ _ (apart _ (by decide)),
    Dev.get_set_id _ _ _ _ _ _ _ _ (apart _ (by decide)), Dev.get_set_id _ _ _ _ _ _ _ _ (apart _ (by decide)),
    Dev.get_set_id _ _ _ _ _ _ _ _ (apart _ (by decide)), Dev.get_set_id _ _ _ _ _ _ _ _ (apart _ (by decide))]

/-- The role as it is written, before the device takes its state. -/
def Dev.roleNamed (d : Dev) (role : Nat) : Dev := (d.set RING_CTRL.ROLE 0 0 role).raiseIf (role = 3) RING_STAT.CFG_REJ

/-- A device that takes a role on the ring claims it on its links. -/
def Dev.roleTaken (a : Dev) : Dev := { a.ringState 1 with ring := { a.ring with linkAt := a.time.abs } }

theorem Dev.roleWrite_eq (d : Dev) (role : Nat) : d.roleWrite role
    = if 2 ≤ d.ringSt then d.raise RING_STAT.CFG_REJ
      else if role = 1 || role = 2 then (d.roleNamed role).roleTaken.claimOut
      else (((d.roleNamed role).portOff 0).portOff 1).ringState 0 |>.clear RING_STAT.WAIT := rfl

/-- The role taken while the device is not yet joining sets its state (R418). -/
theorem Dev.roleWrite_parts (d : Dev) (role : Nat) (fits : role < 4) (free : d.ringSt < 2) :
    let e := d.roleWrite role
    e.get RING_CTRL.ROLE = role ∧ e.ringSt = (if role = 1 ∨ role = 2 then 1 else 0) ∧ (role = 3 → e.flag RING_STAT.CFG_REJ = true)
      ∧ e.chs = d.chs ∧ e.time = d.time := by
  rw [Dev.roleWrite_eq, if_neg (by omega)]
  have named : (d.roleNamed role).get RING_CTRL.ROLE = role := by
    unfold Dev.roleNamed
    rw [Dev.get_raiseIf_id _ _ _ _ _ _ _ _ (by decide), Dev.get_set_same]
    exact Nat.mod_eq_of_lt fits
  have refused (three : role = 3) : (d.roleNamed role).flag RING_STAT.CFG_REJ = true := by
    unfold Dev.roleNamed Dev.raiseIf
    rw [if_pos (by simpa using three)]
    exact Dev.flag_raise_same _ _ _ _ (by decide)
  have rest : (d.roleNamed role).chs = d.chs ∧ (d.roleNamed role).time = d.time := by
    unfold Dev.roleNamed Dev.raiseIf
    split
    · exact ⟨rfl, rfl⟩
    · exact ⟨rfl, rfl⟩
  generalize d.roleNamed role = a at *
  by_cases rings : role = 1 ∨ role = 2
  · have claims (x : Dev) : x.claimOut.regs = x.regs := by
      unfold Dev.claimOut
      split
      · rfl
      · rfl
    rw [if_pos (by simpa using rings), if_pos rings]
    have links := a.links_ringState 1
    refine ⟨?_, ?_, fun three => by omega, ?_, ?_⟩
    · rw [Dev.get_of_regs (claims _)]
      exact (links.regs RING_CTRL.ROLE 0 0 (by decide)).trans named
    · unfold Dev.ringSt
      rw [Dev.get_of_regs (claims _)]
      exact a.ringState_shown 1 (by decide)
    · exact (Dev.links_claimOut _).chs.trans (links.chs.trans rest.1)
    · exact (Dev.links_claimOut _).time.trans (links.time.trans rest.2)
  · rw [if_neg (by simpa using rings), if_neg rings]
    obtain ⟨chs, time, regs⟩ := a.portOff_parts 0
    obtain ⟨chs', time', regs'⟩ := (a.portOff 0).portOff_parts 1
    generalize a.portOff 0 = b at *
    generalize b.portOff 1 = c at *
    have links := c.links_ringState 0
    have state := c.ringState_shown 0 (by decide)
    have read (f : Fld) (isin : f.id ∈ [RING_CTRL.ROLE.id, RING_STAT.CFG_REJ.id]) : (c.ringState 0).get f = a.get f := by
      rw [links.regs f 0 0 ?_, regs' f isin, regs f isin]
      rw [List.mem_pair] at isin
      exact isin.elim (fun is => is ▸ by decide) (fun is => is ▸ by decide)
    generalize c.ringState 0 = r at *
    refine ⟨?_, ?_, fun three => ?_, ?_, ?_⟩
    · exact (Dev.get_set_id _ _ _ _ _ _ _ _ (by decide)).trans ((read _ (by decide)).trans named)
    · exact (Dev.get_set_id _ _ _ _ _ _ _ _ (by decide)).trans state
    · exact (Dev.flag_of_get ((Dev.get_set_id _ _ _ _ _ _ _ _ (by decide)).trans (read RING_STAT.CFG_REJ (by decide)))).trans (refused three)
    · exact links.chs.trans (chs'.trans (chs.trans rest.1))
    · exact links.time.trans (time'.trans (time.trans rest.2))

/-- A join that begins: the device follows its joined neighbour, in state 2 (R424). -/
theorem Dev.joinStart_begins (d : Dev) (p : Nat) (joined : d.joinedPort = some p) (connected : d.ringSt = 1)
    (role : d.get RING_CTRL.ROLE = 1 ∨ d.get RING_CTRL.ROLE = 2) (none : d.ring.decision = none) (stopped : d.allStopped = true) :
    let e := d.joinStart
    e.ringSt = 2 ∧ e.flag RING_STAT.WAIT = false ∧ e.chs = d.chs ∧ e.time = d.time := by
  unfold Dev.joinStart
  rw [joined]
  dsimp only
  rw [if_neg (by rcases role with r | r <;> simp [connected, r, none]), if_neg (by simp [stopped])]
  obtain ⟨state, wait, chs, time⟩ := Dev.follow_state 2 (by decide) (Dev.links_follow (({ d with ring := { d.ring with synced := false, asked := false, early := [], earlyEv := [] } } : Dev).clear RING_STAT.WAIT) p)
    RING_STAT.WAIT (by decide)
  exact ⟨state, wait.trans (Dev.flag_set_bool _ RING_STAT.WAIT 0 0 false (by decide)), chs, time⟩

theorem Dev.fwdShow_movesOnly (d : Dev) : d.movesOnly d.fwdShow [RING_Pp_STAT.FWD.id] :=
  Dev.movesOnly_foldl _ _ _ (fun d _ => Dev.movesOnly_set (d.movesOnly_refl _) _ _ _ _ (by decide))

/-- A member made ready to rejoin, before it follows its neighbour. -/
def Dev.rejoinReset (d : Dev) : Dev :=
  (({ d with ring := { d.ring with synced := false, asked := false, early := [], earlyEv := [] } } : Dev).clear RING_STAT.WAIT).clear RING_STAT.ISL_HEAD

/-- The member follows its joined neighbour, where it has one. -/
def Dev.followJoined (d : Dev) : Dev := match d.joinedPort with | some p => d.follow p | none => d

theorem Dev.rejoinStart_eq (d : Dev) : d.rejoinStart
    = if d.ringSt ≠ 5 then d else if !d.rejoinReady then d.raise RING_STAT.WAIT else (d.rejoinReset.followJoined.ringState 6).fwdShow := rfl

/-- A rejoin that begins: the member is in state 6 (R452). -/
theorem Dev.rejoinStart_begins (d : Dev) (island : d.ringSt = 5) (ready : d.rejoinReady = true) :
    let e := d.rejoinStart
    e.ringSt = 6 ∧ e.flag RING_STAT.WAIT = false ∧ e.chs = d.chs ∧ e.time = d.time := by
  rw [Dev.rejoinStart_eq, if_neg (by simp [island]), if_neg (by simp [ready])]
  have waits : d.rejoinReset.flag RING_STAT.WAIT = false :=
    (Dev.flag_of_get (Dev.get_set_id _ _ _ _ _ _ _ _ (by decide))).trans (Dev.flag_set_bool _ RING_STAT.WAIT 0 0 false (by decide))
  have rest : d.rejoinReset.chs = d.chs ∧ d.rejoinReset.time = d.time := ⟨rfl, rfl⟩
  generalize d.rejoinReset = b at *
  have followed : b.links b.followJoined := by
    unfold Dev.followJoined
    split
    · exact b.links_follow _
    · exact b.links_refl
  generalize b.followJoined = c at *
  obtain ⟨state, wait, chs, time⟩ := Dev.follow_state 6 (by decide) followed RING_STAT.WAIT (by decide)
  have shown := (c.ringState 6).fwdShow_movesOnly
  generalize c.ringState 6 = g at *
  obtain ⟨-, chs', time', -⟩ := Dev.movesOnly_fields shown
  exact ⟨(shown.2 _ _ _ (by decide)).trans state, (Dev.flag_of_get (shown.2 RING_STAT.WAIT 0 0 (by decide))).trans (wait.trans waits),
    chs'.trans (chs.trans rest.1), time'.trans (time.trans rest.2)⟩

/-- A join or rejoin that begins, waits or does nothing moves no channel, and of the registers no sequencer's state. -/
theorem Dev.joinStart_keeps (d : Dev) : let e := d.joinStart; e.chs = d.chs ∧ ∀ n, e.get SEQ_STAT.STATE n = d.get SEQ_STAT.STATE n := by
  unfold Dev.joinStart
  dsimp only
  split
  next => exact ⟨rfl, fun _ => rfl⟩
  next p _ =>
    split
    next => exact ⟨rfl, fun _ => rfl⟩
    next =>
      split
      next => exact ⟨rfl, fun n => Dev.get_set_id _ _ _ _ _ _ _ _ (by decide)⟩
      next =>
        have links := Dev.links_trans (Dev.links_follow (({ d with ring := { d.ring with synced := false, asked := false, early := [], earlyEv := [] } } : Dev).clear RING_STAT.WAIT) p)
          (Dev.links_ringState _ 2)
        exact ⟨links.chs, fun n => (links.regs _ _ _ (by decide)).trans (Dev.get_set_id _ _ _ _ _ _ _ _ (by decide))⟩

/-- A refused change of the ring is flagged and stores nothing. -/
theorem State.ringRefused (s : State) {o : Host.Outcome State Fault Refusal} (h : o = .next (s.withDev (s.dev.raise RING_STAT.CFG_REJ))) :
    ∃ e, o = .next (s.withDev e) ∧ e.flag RING_STAT.CFG_REJ = true ∧ s.dev.onlyRegs e [RING_STAT.CFG_REJ.at] :=
  ⟨_, h, Dev.flag_raise_same _ _ _ _ (by decide), Dev.raise_onlyRegs _ _ _ _⟩

/-- A device that must wait to join says so. -/
theorem State.ringWaits (s : State) {o : Host.Outcome State Fault Refusal} (h : o = .next (s.withDev (s.dev.raise RING_STAT.WAIT))) :
    ∃ e, o = .next (s.withDev e) ∧ e.flag RING_STAT.WAIT = true ∧ s.dev.onlyRegs e [RING_STAT.WAIT.at] :=
  ⟨_, h, Dev.flag_raise_same _ _ _ _ (by decide), Dev.raise_onlyRegs _ _ _ _⟩

/-- Settles O33, from what a role written, a join and a rejoin each leave. -/
theorem ringJoining : Obligations.RingJoining := by
  unfold Obligations.RingJoining
  intro s
  dsimp only
  refine ⟨fun role free => ⟨_, rfl, ?_⟩, fun role late => s.ringRefused (State.next_of_eq s (if_pos late)), fun p joined connected role none => ⟨fun stopped => ?_, fun runs => ?_⟩,
    fun out => ?_, fun island => ⟨fun ready => ⟨_, rfl, s.dev.rejoinStart_begins island ready⟩, fun unready => ?_⟩, fun other => ?_, fun other => ?_,
    fun connected none => ?_, fun other => ?_, fun island none => ?_⟩
  · obtain ⟨named, state, refused, rest⟩ := s.dev.roleWrite_parts role.toNat role.isLt free
    refine ⟨named, ?_, fun three => refused (by simp [three]), rest⟩
    rw [state]
    refine if_congr ?_ rfl rfl
    rw [← BitVec.toNat_inj, ← BitVec.toNat_inj]
    simp
  · exact ⟨_, rfl, s.dev.joinStart_begins p joined connected role none stopped⟩
  · refine s.ringWaits (State.next_of_eq s ?_)
    unfold Dev.joinStart
    rw [joined]
    dsimp only
    rw [if_neg (by rcases role with r | r <;> simp [connected, r, none]), if_pos (by simp [runs])]
  · refine State.next_of_eq s (y := s.dev) ?_
    unfold Dev.joinStart
    dsimp only
    split
    next => rfl
    next p joined =>
      refine if_pos ?_
      rcases out with no | other | decided
      · rw [joined] at no
        exact absurd no (by simp)
      · simp [other]
      · have some := Option.isSome_iff_ne_none.mpr decided
        simp [some]
  · refine s.ringWaits (State.next_of_eq s ?_)
    unfold Dev.rejoinStart
    rw [if_neg (by simp [island]), if_pos (by simp [unready])]
  · exact State.next_of_eq s (y := s.dev) (if_pos other)
  · exact s.ringRefused (State.next_of_eq s (if_neg other))
  · refine ⟨_, State.next_of_eq s (if_pos connected), fun n => ?_⟩
    obtain ⟨-, stopped⟩ := s.dev.stopAll_parts none
    obtain ⟨chs, state⟩ := s.dev.stopAll.joinStart_keeps
    rw [state, chs]
    exact stopped n
  · exact s.ringRefused (State.next_of_eq s (if_neg other))
  · obtain ⟨-, stopped⟩ := s.dev.stopAll_parts none
    refine ⟨_, State.next_of_eq s (if_pos island), ?_⟩
    generalize s.dev.stopAll = x at *
    refine ⟨rfl, fun n => ?_⟩
    exact ⟨(Dev.get_set_id _ _ _ _ _ _ _ _ (by decide)).trans (stopped n).1, (stopped n).2⟩

end Sys2Proof.Machine
end

section
/-!
PROOF. Cells, HALT symbols and messages of the ring (R409, R411, R414, R431, R439, R440, R442, R443).
-/
namespace Sys2Proof.Machine
open Reg

/-! ### Cells -/

/-- From `d` to `e` cells passed: no channel, no time and no count of bad cells moved, and the loop is as closed as it was. -/
structure Dev.passes (d e : Dev) : Prop where
  chs : e.chs = d.chs
  time : e.time = d.time
  closed : e.ring.closed = d.ring.closed
  crc : ∀ p, e.get RING_Pp_ERR.CRC p = d.get RING_Pp_ERR.CRC p

theorem Dev.passes_refl (d : Dev) : d.passes d := ⟨rfl, rfl, rfl, fun _ => rfl⟩

theorem Dev.passes_trans {d e f : Dev} (h : d.passes e) (k : e.passes f) : d.passes f :=
  ⟨k.chs.trans h.chs, k.time.trans h.time, k.closed.trans h.closed, fun p => (k.crc p).trans (h.crc p)⟩

theorem Dev.passes_set (d : Dev) (f : Fld) (n i v : Nat) (other : f.id ≠ RING_Pp_ERR.CRC.id) : d.passes (d.set f n i v) :=
  ⟨rfl, rfl, rfl, fun _ => d.get_set_id _ _ _ _ _ _ _ other⟩

theorem Dev.passes_raiseIf (d : Dev) (c : Bool) (f : Fld) (n i : Nat) (other : f.id ≠ RING_Pp_ERR.CRC.id) : d.passes (d.raiseIf c f n i) := by
  cases c
  · exact d.passes_refl
  · exact d.passes_set f n i 1 other

theorem Dev.passes_sendCell (d : Dev) (p cls : Nat) (payload : List Nat) (bad : Bool) : d.passes (d.sendCell p cls payload bad) :=
  ⟨rfl, rfl, rfl, fun _ => rfl⟩

theorem Dev.passes_newIdle (d : Dev) (p : Nat) (reserved : Bool) : d.passes (d.newIdle p reserved) := ⟨rfl, rfl, rfl, fun _ => rfl⟩

theorem Dev.passes_cellInsert (d : Dev) (p : Nat) : d.passes (d.cellInsert p) := by
  unfold Dev.cellInsert
  split
  · exact d.passes_refl
  · exact ⟨rfl, rfl, rfl, fun _ => rfl⟩

theorem Dev.passes_fillCell (d : Dev) (p : Nat) (reserved : Bool) (idle : Dev → Dev) (fills : d.passes (idle d)) : d.passes (d.fillCell p reserved idle) := by
  unfold Dev.fillCell
  split
  next => exact d.passes_cellInsert p
  next =>
    split
    next => exact fills
    next =>
      split
      next => exact ⟨rfl, rfl, rfl, fun _ => rfl⟩
      next =>
        split
        next x _ =>
          dsimp only
          split
          · exact ⟨rfl, rfl, rfl, fun _ => Dev.get_set_id _ _ _ _ _ _ _ _ (by decide)⟩
          · exact ⟨rfl, rfl, rfl, fun _ => rfl⟩
        next => exact fills

theorem Dev.passes_passCell (d : Dev) (p : Nat) (cls : CellClass) (payload : Nat) (good : Bool) : d.passes (d.passCell p cls payload good) := by
  have waits (q k : Nat) : d.passes ((d.raiseIf (d.ev.out.any (fun x => x.1 = q)) RING_STAT.EV_WAIT).sendCell q k (octets 7 payload) !good) :=
    Dev.passes_trans (d.passes_raiseIf _ _ _ _ (by decide)) (Dev.passes_sendCell _ _ _ _ _)
  unfold Dev.passCell
  extract_lets q taken
  split
  next => exact d.passes_refl
  next =>
    cases cls with
    | idle r => exact d.passes_fillCell q r _ (d.passes_sendCell _ _ _ _)
    | event r =>
      dsimp only
      split
      · exact d.passes_newIdle q r
      · exact waits q 0xFB
    | control own =>
      cases own
      · exact waits q 0xFD
      · exact d.passes_newIdle q false
    | message own =>
      cases own
      · exact waits q 0xFE
      · exact d.passes_newIdle q false

/-- A received system event moves no channel, no time and no count of cells (R141). -/
theorem Dev.passes_sysReceive (d : Dev) (orig seq id land : Nat) : d.passes (d.sysReceive orig seq id land) := by
  have late (x : Dev) : (x.sysLate id).ring.closed = x.ring.closed := by
    unfold Dev.sysLate Dev.lateNotice
    have fired : (((x.count EVS_LATE.COUNT).set EVS_LATE.LAST_ID 0 0 id).fire 3).ring.closed = x.ring.closed := congrArg Ring.closed (Dev.fire_ring _ _)
    split
    · exact fired
    · exact fired
  have takes (x : Dev) (m least : Nat) : x.passes (x.sysTake id m least) := by
    obtain ⟨⟨regs, ring, srcs, waits, eq⟩, keeps⟩ := x.sysTake_sysTaken id m least
    refine ⟨by rw [eq], by rw [eq], ?_, fun p => keeps _ _ _ ?_⟩
    · unfold Dev.sysTake
      split
      · rfl
      · split
        · exact late _
        · dsimp only
          split
          · exact late _
          · rfl
    · simp [sysKeys, Fld.at, RING_Pp_ERR.CRC, EVS_STAT.PEND_OVF, EVS_LATE.COUNT, EVS_LATE.LAST_ID, EVS_STAT.LATE, CRS_STAT.SYS_LATE]
  unfold Dev.sysReceive
  dsimp only
  split
  · exact ⟨rfl, rfl, rfl, fun _ => rfl⟩
  · split
    · exact d.passes_refl
    · split
      · exact d.passes_refl
      · refine Dev.passes_trans ?_ (takes _ _ _)
        exact ⟨rfl, rfl, rfl, fun _ => rfl⟩

theorem Dev.violations_none (d : Dev) (p : Nat) : d.passes (d.violations p 0) ∧ (d.violations p 0).ringed = d.ringed ∧ (d.violations p 0).linked p = d.linked p
    ∧ (d.violations p 0).joined = d.joined ∧ (d.violations p 0).get RING_ID.INDEX = d.get RING_ID.INDEX := by
  unfold Dev.violations
  split
  · have read (f : Fld) (n i : Nat) (other : f.id ≠ RING_Pp_ERR.CV.id) : (d.countBy 0 RING_Pp_ERR.CV p).get f n i = d.get f n i :=
      Dev.get_set_id _ _ _ _ _ _ _ _ (Ne.symm other)
    unfold Dev.ringed Dev.linked Dev.joined Dev.ringSt Dev.flag
    simp only [read RING_STAT.STATE _ _ (by decide), read RING_Pp_STAT.LINK _ _ (by decide), read RING_ID.INDEX _ _ (by decide)]
    exact ⟨d.passes_set _ _ _ _ (by decide), trivial, trivial, trivial, trivial⟩
  · exact ⟨d.passes_refl, rfl, rfl, rfl, rfl⟩

/-- A cell that fails its CRC counts, and nothing else of it is read (R409). -/
theorem Dev.cellIn_bad (d : Dev) (p : Nat) (cls : CellClass) (payload : Nat) (act : RingAction) (on : d.ringed = true) (stands : d.linked p = true) :
    let e := d.cellIn p cls payload false act
    e.get RING_Pp_ERR.CRC p = satInc RING_Pp_ERR.CRC.w (d.get RING_Pp_ERR.CRC p) ∧ e.chs = d.chs ∧ e.time = d.time := by
  have eq : d.cellIn p cls payload false act = (d.count RING_Pp_ERR.CRC p).passCell p cls payload false := by
    unfold Dev.cellIn
    rw [if_neg (by simp [on, stands])]
    rfl
  rw [eq]
  have passes := (d.count RING_Pp_ERR.CRC p).passes_passCell p cls payload false
  exact ⟨(passes.crc p).trans (Dev.get_count_same ..), passes.chs, passes.time⟩

/-- The loop as the device's own cell come round leaves it; the root tells the members where it was open (R431). -/
def Dev.loopClosed (d : Dev) : Dev :=
  let e : Dev := { d with ring := { d.ring with closed := true } }
  if d.isRoot && !d.ring.closed then e.publish 20 [1] else e

/-- The device's own event cell come round closes the loop (R411, R414). -/
theorem Dev.cellIn_own (d : Dev) (p : Nat) (r : Bool) (payload : Nat) (act : RingAction) (on : d.ringed = true) (stands : d.linked p = true)
    (joined : d.joined = true) (own : payload / 2 ^ 46 = d.get RING_ID.INDEX) :
    let e := d.cellIn p (.event r) payload true act
    e.ring.closed = true ∧ e.get RING_Pp_ERR.CRC p = d.get RING_Pp_ERR.CRC p ∧ e.chs = d.chs ∧ e.time = d.time := by
  have eq : d.cellIn p (.event r) payload true act = (d.loopClosed.sysReceive (bitsOf payload 46 10) (bitsOf payload 38 8) (bitsOf payload 26 12)
      (expandLand d.loopClosed.time.crs (bitsOf payload 10 16))).passCell p (.event r) payload true := by
    unfold Dev.cellIn
    rw [if_neg (by simp [on, stands])]
    simp only [joined, own, decide_true, Bool.and_self, Bool.not_true, Bool.false_eq_true, if_true, if_false]
    rfl
  have closes : d.loopClosed.ring.closed = true ∧ d.loopClosed.chs = d.chs ∧ d.loopClosed.time = d.time ∧ d.loopClosed.regs = d.regs := by
    unfold Dev.loopClosed
    dsimp only
    split
    · exact ⟨rfl, rfl, rfl, rfl⟩
    · exact ⟨rfl, rfl, rfl, rfl⟩
  obtain ⟨closed, chs, time, regs⟩ := closes
  rw [eq]
  generalize d.loopClosed = c at *
  have passes := Dev.passes_trans (c.passes_sysReceive (bitsOf payload 46 10) (bitsOf payload 38 8) (bitsOf payload 26 12)
    (expandLand c.time.crs (bitsOf payload 10 16))) (Dev.passes_passCell _ p (.event r) payload true)
  exact ⟨passes.closed.trans closed, (passes.crc p).trans (Dev.get_of_regs regs _ _ _), passes.chs.trans chs, passes.time.trans time⟩

/-! ### Messages -/

/-- A message sent: its number counts on, and the transmitter may be busy (R439). -/
theorem Dev.msgSend_parts (d : Dev) (dest : Nat) (bytes : List (BitVec 8)) :
    let e := d.msgSend dest bytes
    e.ring.txSeq = (d.ring.txSeq + 1) % 256 ∧ d.regsBut e [RING_MTX_CTRL.BUSY.at] ∧ e.chs = d.chs ∧ e.ownWait = d.ownWait ∧ e.time = d.time := by
  have lanes : (d.msgLane dest).2.ring = d.ring ∧ (d.msgLane dest).2.regs = d.regs ∧ (d.msgLane dest).2.chs = d.chs ∧ (d.msgLane dest).2.ownWait = d.ownWait ∧ (d.msgLane dest).2.time = d.time := by
    unfold Dev.msgLane
    extract_lets o
    split
    · split
      · exact ⟨rfl, rfl, rfl, rfl, rfl⟩
      · split
        · exact ⟨rfl, rfl, rfl, rfl, rfl⟩
        · exact ⟨rfl, rfl, rfl, rfl, rfl⟩
    · exact ⟨rfl, rfl, rfl, rfl, rfl⟩
  unfold Dev.msgSend
  extract_lets up x a ports msg tx r b e
  obtain ⟨ring, regs, rest⟩ : x.2.ring = d.ring ∧ x.2.regs = d.regs ∧ x.2.chs = d.chs ∧ x.2.ownWait = d.ownWait ∧ x.2.time = d.time := by
    unfold x
    split
    · exact lanes
    · exact ⟨rfl, rfl, rfl, rfl, rfl⟩
  clear_value x
  have sent : b.ring.txSeq = (d.ring.txSeq + 1) % 256 := by rw [← ring]
  unfold e
  split
  · exact ⟨sent, fun f m i _ => Dev.get_of_regs regs _ _ _, rest⟩
  · exact ⟨sent, Dev.regsBut_set RING_MTX_CTRL.BUSY 0 0 1 (fun f m i _ => Dev.get_of_regs regs _ _ _) (by simp), rest⟩

/-- The queue of received messages shows (R440). -/
theorem Dev.mrxShow_parts (d : Dev) :
    let e := d.mrxShow
    e.ring = d.ring ∧ e.get RING_MRX_STAT.COUNT = d.ring.queue.length % 2 ^ RING_MRX_STAT.COUNT.w ∧ e.chs = d.chs := by
  have counted : (d.set RING_MRX_STAT.COUNT 0 0 d.ring.queue.length).get RING_MRX_STAT.COUNT = d.ring.queue.length % 2 ^ RING_MRX_STAT.COUNT.w :=
    Dev.get_set_same ..
  unfold Dev.mrxShow
  extract_lets a e
  unfold e
  split
  next => exact ⟨rfl, counted, rfl⟩
  next m l _ =>
    have words (x : Dev) : let e := (List.range 16).foldl (fun d i => d.set RING_MRX_Dw.DATA i 0 (leNat ((m.payload.drop (4 * i)).take 4))) x
        e.ring = x.ring ∧ e.get RING_MRX_STAT.COUNT = x.get RING_MRX_STAT.COUNT ∧ e.chs = x.chs := by
      refine foldl_keeps (fun e : Dev => e.ring = x.ring ∧ e.get RING_MRX_STAT.COUNT = x.get RING_MRX_STAT.COUNT ∧ e.chs = x.chs) _ _ _ (fun e i h => ?_) ⟨rfl, rfl, rfl⟩
      exact ⟨h.1, (Dev.get_set_id _ _ _ _ _ _ _ _ (by decide)).trans h.2.1, h.2.2⟩
    obtain ⟨ring, count, chs⟩ := words (((a.set RING_MRX_HDR.SEQ 0 0 m.seq).set RING_MRX_HDR.LEN 0 0 (m.payload.length - 1)).set RING_MRX_HDR.SRC 0 0 m.src)
    refine ⟨ring, count.trans ?_, chs⟩
    rw [Dev.get_set_id _ _ _ _ _ _ _ _ (by decide), Dev.get_set_id _ _ _ _ _ _ _ _ (by decide), Dev.get_set_id _ _ _ _ _ _ _ _ (by decide)]
    exact counted

/-- A gap in a source's numbers counts as messages lost (R440). -/
theorem Dev.msgGap_parts (d : Dev) (src seq : Nat) :
    let e := d.msgGap src seq
    e.ring.queue = d.ring.queue ∧ d.regsBut e [RING_MRX_STAT.LOST.at, RING_STAT.MSG_LOST.at] ∧ e.chs = d.chs := by
  unfold Dev.msgGap
  extract_lets lost r a e
  unfold e
  split
  · exact ⟨rfl, fun _ _ _ _ => rfl, rfl⟩
  · exact ⟨rfl, Dev.regsBut_set RING_STAT.MSG_LOST 0 0 1 (Dev.regsBut_set RING_MRX_STAT.LOST 0 0 _ (fun _ _ _ _ => rfl) (by simp)) (by simp), rfl⟩

/-- A message of a device in a system that finds no room, or came in part, is lost (R440). -/
theorem Dev.msgReceive_lost (d : Dev) (src seq : Nat) (bytes : List (BitVec 8)) (whole : Bool) (up : 3 ≤ d.ringSt) (on : d.ringSt ≠ 7)
    (lost : whole = false ∨ 16 ≤ d.ring.queue.length) : d.msgReceive src seq bytes whole = (d.msgGap src seq).count RING_MRX_STAT.LOST := by
  have queue : (d.msgGap src seq).ring.queue = d.ring.queue := (d.msgGap_parts src seq).1
  unfold Dev.msgReceive
  rw [if_neg (by simp; omega)]
  dsimp only
  rw [queue, if_pos (by simpa using lost)]

/-- A whole message enters the queue (R440). -/
theorem Dev.msgReceive_queued (d : Dev) (src seq : Nat) (bytes : List (BitVec 8)) (up : 3 ≤ d.ringSt) (on : d.ringSt ≠ 7)
    (room : d.ring.queue.length < 16) :
    let e := d.msgReceive src seq bytes true
    e.ring.queue = d.ring.queue ++ [⟨src, seq, bytes.take 64⟩] ∧ e.get RING_MRX_STAT.COUNT = (d.ring.queue.length + 1) % 2 ^ RING_MRX_STAT.COUNT.w ∧ e.chs = d.chs := by
  obtain ⟨queue, -, chs⟩ := d.msgGap_parts src seq
  unfold Dev.msgReceive
  rw [if_neg (by simp; omega)]
  dsimp only
  rw [queue, if_neg (by simp; omega)]
  generalize d.msgGap src seq = g at *
  obtain ⟨ring, count, chs'⟩ := ({ g with ring := { g.ring with queue := d.ring.queue ++ [⟨src, seq, bytes.take 64⟩] } } : Dev).mrxShow_parts
  refine ⟨congrArg Ring.queue ring, count.trans ?_, chs'.trans chs⟩
  simp

/-- Settles O35, from what a cell, a HALT symbol and a message each leave. -/
theorem ringCells : Obligations.RingCells := by
  unfold Obligations.RingCells
  refine ⟨?_, ?_⟩
  · intro s p cls payload act
    dsimp only
    obtain ⟨none, on', stands', joined', own'⟩ := s.dev.violations_none p
    refine ⟨fun on stands => ⟨⟨_, rfl, ?_⟩, fun r isev joined own => ⟨_, rfl, ?_⟩⟩, fun out good cv => ?_, fun on own => ⟨_, if_pos on, s.dev.haltRing_symbol p own⟩, fun off => ?_⟩
    · obtain ⟨crc, chs, time⟩ := (s.dev.violations p 0).cellIn_bad p cls payload.toNat act (on'.trans on) (stands'.trans stands)
      exact ⟨crc.trans (congrArg _ (none.crc p)), chs.trans none.chs, time.trans none.time⟩
    · subst isev
      obtain ⟨closed, crc, chs, time⟩ := (s.dev.violations p 0).cellIn_own p r payload.toNat act (on'.trans on) (stands'.trans stands) (joined'.trans joined)
        (own.trans own'.symm)
      exact ⟨closed, crc.trans (none.crc p), chs.trans none.chs, time.trans none.time⟩
    · have quiet : (!s.dev.ringed || !s.dev.linked p) = true := by rcases out with off | off <;> simp [off]
      have none : s.dev.violations p cv = s.dev := if_neg (by rcases out with off | off <;> simp [off])
      refine State.next_of_eq s (y := s.dev) ?_
      rw [none]
      exact if_pos quiet
    · exact if_neg (by simp [off])
  · intro s
    dsimp only
    refine ⟨fun w no => s.ringRefused (State.next_of_eq s (if_pos (by simpa using no))), fun w idle joined => ⟨_, State.next_of_eq s (if_neg (by simp [idle, joined])), ?_⟩,
      fun src seq bytes up on room => ?_, fun src seq bytes whole up on lost => ?_, fun src seq bytes whole off => State.next_of_eq s (y := s.dev) (if_pos ?_), ⟨_, rfl, ?_⟩⟩
    · obtain ⟨seq, regs, chs, -, -⟩ := ((s.dev.set RING_MTX_CTRL.LEN 0 0 (bitsOf w.toNat 16 6)).set RING_MTX_CTRL.DEST 0 0 (bitsOf w.toNat 0 10)).msgSend_parts
        (bitsOf w.toNat 0 10) (payloadOf ((List.range 16).map (fun i => ((s.dev.set RING_MTX_CTRL.LEN 0 0 (bitsOf w.toNat 16 6)).set RING_MTX_CTRL.DEST 0 0
          (bitsOf w.toNat 0 10)).get RING_MTX_Dw.DATA i)) (bitsOf w.toNat 16 6 + 1))
      refine ⟨?_, ?_, seq, ?_, chs⟩
      · exact (Dev.regsBut_read regs _ _ _ rfl).trans (Dev.get_set_bitsOf _ RING_MTX_CTRL.DEST 0 0 w.toNat 0)
      · exact (Dev.regsBut_read regs _ _ _ rfl).trans ((Dev.get_set_id _ _ _ _ _ _ _ _ (by decide)).trans (s.dev.get_set_bitsOf RING_MTX_CTRL.LEN 0 0 w.toNat 16))
      · exact Dev.regsBut_trans (Dev.regsBut_set RING_MTX_CTRL.DEST 0 0 _ (Dev.regsBut_set RING_MTX_CTRL.LEN 0 0 _ (fun _ _ _ _ => rfl) (by simp)) (by simp))
          (Dev.regsBut_mono regs (by simp))
    · obtain ⟨queue, count, chs⟩ := s.dev.msgReceive_queued src seq.toNat bytes up on room
      exact ⟨_, _, rfl, queue, rfl, rfl, rfl, count, chs⟩
    · refine ⟨_, State.next_of_eq s (s.dev.msgReceive_lost src seq.toNat bytes whole up on lost), ?_⟩
      obtain ⟨queue, regs, -⟩ := s.dev.msgGap_parts src seq.toNat
      exact ⟨queue, Dev.regsBut_set RING_MRX_STAT.LOST 0 0 _ regs (by simp)⟩
    · simpa using off
    · obtain ⟨ring, count, chs⟩ := ({ s.dev with ring := { s.dev.ring with queue := s.dev.ring.queue.drop 1 } } : Dev).mrxShow_parts
      refine ⟨congrArg Ring.queue ring, count.trans ?_, chs⟩
      simp

end Sys2Proof.Machine
end

section
/-!
PROOF. HALT, fault acknowledgement, thermal and lane recovery (R556, R560 to R566).
-/
namespace Sys2Proof.Machine
open Reg

/-! ### Bits of a word -/

/-- Setting one bit leaves the others. -/
theorem bitAt_setBitAt_other (v b k : Nat) (other : k ≠ b) : bitAt (setBitAt v b) k = bitAt v k := by
  unfold bitAt setBitAt
  rw [Nat.testBit_or, Nat.one_shiftLeft, Nat.testBit_two_pow_of_ne (Ne.symm other), Bool.or_false]

/-- Clearing one bit leaves the others. -/
theorem bitAt_clrBitAt_other (v b k : Nat) (other : k ≠ b) : bitAt (clrBitAt v b) k = bitAt v k := by
  unfold bitAt clrBitAt
  split
  case isFalse => rfl
  case isTrue high =>
    have odd : v / 2 ^ b % 2 = 1 := by simpa [Nat.testBit_eq_decide_div_mod_eq] using high
    have low := Nat.mod_lt v (show 0 < 2 ^ b by positivity)
    have parts : v = 2 ^ (b + 1) * (v / 2 ^ b / 2) + (2 ^ b + v % 2 ^ b) := by
      have outer := Nat.div_add_mod v (2 ^ b)
      have inner := Nat.div_add_mod (v / 2 ^ b) 2
      rw [odd] at inner
      rw [← inner] at outer
      rw [Nat.pow_succ]
      generalize v / 2 ^ b / 2 = q at *
      generalize v % 2 ^ b = r at *
      generalize 2 ^ b = p at *
      rw [← outer]
      ring
    have less : v - 2 ^ b = 2 ^ (b + 1) * (v / 2 ^ b / 2) + v % 2 ^ b := by omega
    have twice : (2 : Nat) ^ (b + 1) = 2 ^ b + 2 ^ b := by rw [Nat.pow_succ]; ring
    conv => rhs; rw [parts]
    rw [less, Nat.testBit_two_pow_mul_add _ (by omega), Nat.testBit_two_pow_mul_add _ (by omega)]
    split
    case isTrue below => rw [Nat.testBit_two_pow_add_gt (by omega)]
    case isFalse => rfl

/-- A bit of a field set leaves the field's other bits. -/
theorem Dev.bit_setBit_other (d : Dev) (f : Fld) (n i b k : Nat) (other : k ≠ b) (fits : k < f.w) : (d.setBit f n i b).bit f n i k = d.bit f n i k := by
  have same := bitAt_setBitAt_other (d.get f n i) b k other
  unfold Dev.bit Dev.setBit
  unfold bitAt at *
  rw [Dev.get_set_same, Nat.testBit_mod_two_pow, same]
  simp [fits]

/-- A bit of a field cleared leaves the field's other bits. -/
theorem Dev.bit_clrBit_other (d : Dev) (f : Fld) (n i b k : Nat) (other : k ≠ b) (fits : k < f.w) : (d.clrBit f n i b).bit f n i k = d.bit f n i k := by
  have same := bitAt_clrBitAt_other (d.get f n i) b k other
  unfold Dev.bit Dev.clrBit
  unfold bitAt at *
  rw [Dev.get_set_same, Nat.testBit_mod_two_pow, same]
  simp [fits]

/-- A cause that arises leaves the causes latched before. -/
theorem Dev.fault_others (d : Dev) (b k : Nat) (other : k ≠ b) (fits : k < PORTER_FAULT.CAUSE.w) :
    (d.fault b).bit PORTER_FAULT.CAUSE 0 0 k = d.bit PORTER_FAULT.CAUSE 0 0 k := by
  unfold Dev.fault
  split
  · rfl
  · have same (e : Dev) : ((e.vector 27).fire 7).bit PORTER_FAULT.CAUSE 0 0 k = e.bit PORTER_FAULT.CAUSE 0 0 k := by simp [Dev.bit]
    exact (same _).trans (d.bit_setBit_other _ 0 0 b k other fits)

/-! ### Acknowledged causes -/

/-- What the conditions of R565 rest on is as it was. -/
theorem Dev.faultHolds_same {d e : Dev} (porter : e.porter = d.porter) (chs : e.chs = d.chs) (regs : d.regsBut e [PORTER_FAULT.CAUSE.at]) (b : Nat) :
    e.faultHolds b = d.faultHolds b := by
  have latch (n : Nat) : e.flag HV_STAT.SC_LATCH n = d.flag HV_STAT.SC_LATCH n := Dev.flag_of_get (Dev.regsBut_read regs _ _ _ (by rfl))
  have band (n : Nat) : e.get DMC_STAT.TBAND n = d.get DMC_STAT.TBAND n := Dev.regsBut_read regs _ _ _ (by rfl)
  have boot : e.get PWR_BOOT.FAIL = d.get PWR_BOOT.FAIL := Dev.regsBut_read regs _ _ _ (by rfl)
  unfold Dev.faultHolds
  simp only [porter, chs, latch, band, boot]

/-- One cause acknowledged: it is clear unless its condition persists. -/
def Dev.faultAck (w : Nat) (d : Dev) (b : Nat) : Dev :=
  if bitAt w b && d.bit PORTER_FAULT.CAUSE 0 0 b then
    let d := d.clrBit PORTER_FAULT.CAUSE 0 0 b
    if d.faultHolds b then d.fault b else d
  else d

/-- From `d` to `e` no cause's condition and no register but the latched causes moved. -/
def Dev.acks (d e : Dev) : Prop := e.porter = d.porter ∧ e.chs = d.chs ∧ d.regsBut e [PORTER_FAULT.CAUSE.at]

theorem Dev.faultAck_parts (w : Nat) (d : Dev) (b : Nat) (fits : b < PORTER_FAULT.CAUSE.w) :
    let e := d.faultAck w b
    d.acks e ∧ e.bit PORTER_FAULT.CAUSE 0 0 b = (d.bit PORTER_FAULT.CAUSE 0 0 b && (!bitAt w b || d.faultHolds b))
      ∧ ∀ k, k ≠ b → k < PORTER_FAULT.CAUSE.w → e.bit PORTER_FAULT.CAUSE 0 0 k = d.bit PORTER_FAULT.CAUSE 0 0 k := by
  have cleared : d.acks (d.clrBit PORTER_FAULT.CAUSE 0 0 b) := ⟨rfl, rfl, Dev.regsBut_set PORTER_FAULT.CAUSE 0 0 _ (d.regsBut_refl _) (by simp)⟩
  have holds := Dev.faultHolds_same cleared.1 cleared.2.1 cleared.2.2 b
  have clear := d.bit_clrBit_same PORTER_FAULT.CAUSE 0 0 b
  have others (k : Nat) (other : k ≠ b) (kfits : k < PORTER_FAULT.CAUSE.w) := d.bit_clrBit_other PORTER_FAULT.CAUSE 0 0 b k other kfits
  unfold Dev.faultAck
  dsimp only
  split
  next asked =>
    simp only [Bool.and_eq_true] at asked
    generalize d.clrBit PORTER_FAULT.CAUSE 0 0 b = c at *
    split
    next persists =>
      refine ⟨⟨c.fault_porter b |>.trans cleared.1, (c.fault_chs b).trans cleared.2.1, Dev.regsBut_trans cleared.2.2 (c.fault_regsBut b)⟩, ?_, fun k other kfits => ?_⟩
      · rw [c.fault_latched b fits, asked.1, asked.2, ← holds, persists]
        rfl
      · exact (c.fault_others b k other kfits).trans (others k other kfits)
    next gone =>
      refine ⟨cleared, ?_, others⟩
      rw [clear, asked.1, asked.2, ← holds]
      simp [gone]
  next kept =>
    refine ⟨⟨rfl, rfl, d.regsBut_refl _⟩, ?_, fun _ _ _ => rfl⟩
    cases latched : d.bit PORTER_FAULT.CAUSE 0 0 b with
    | false => rfl
    | true =>
      have unasked : bitAt w b = false := by simpa [latched] using kept
      rw [unasked]
      rfl

/-- Several causes acknowledged, each once. -/
theorem Dev.faultAcks_parts (w : Nat) (l : List Nat) (once : l.Nodup) (d : Dev) (fits : ∀ b ∈ l, b < PORTER_FAULT.CAUSE.w) :
    let e := l.foldl (Dev.faultAck w) d
    d.acks e ∧ (∀ b ∈ l, e.bit PORTER_FAULT.CAUSE 0 0 b = (d.bit PORTER_FAULT.CAUSE 0 0 b && (!bitAt w b || d.faultHolds b)))
      ∧ ∀ k, k ∉ l → k < PORTER_FAULT.CAUSE.w → e.bit PORTER_FAULT.CAUSE 0 0 k = d.bit PORTER_FAULT.CAUSE 0 0 k := by
  induction l generalizing d with
  | nil => exact ⟨⟨rfl, rfl, d.regsBut_refl _⟩, by simp, fun _ _ _ => rfl⟩
  | cons b l ih =>
    obtain ⟨out, once⟩ := List.nodup_cons.mp once
    obtain ⟨⟨porter, chs, regs⟩, mine, others⟩ := d.faultAck_parts w b (fits b (by simp))
    obtain ⟨⟨porter', chs', regs'⟩, each, rest⟩ := ih once (d.faultAck w b) (fun k isin => fits k (by simp [isin]))
    refine ⟨⟨porter'.trans porter, chs'.trans chs, Dev.regsBut_trans regs regs'⟩, fun k isin => ?_, fun k notin kfits => ?_⟩
    · rcases List.mem_cons.mp isin with here | there
      · subst here
        exact (rest k out (fits k (by simp))).trans mine
      · have other : k ≠ b := fun eq => out (eq ▸ there)
        rw [List.foldl_cons, each k there, others k other (fits k (by simp [there])), Dev.faultHolds_same porter chs regs]
    · simp only [List.mem_cons, not_or] at notin
      exact (rest k notin.2 kfits).trans (others k notin.1 kfits)

/-! ### Lanes -/

/-- A die's channels that come back: no register moves, the lanes are as bad as before, and where no fault of a lane is latched and the
die's own lane is good none of its channels is down. -/
theorem Dev.laneBack_parts (d : Dev) (die : Fin 2) :
    let e := d.laneBack die
    e.regs = d.regs ∧ e.porter.laneBad = d.porter.laneBad
      ∧ (d.porter.laneBad.getD die false = false → d.bit PORTER_FAULT.CAUSE 0 0 4 = false → ∀ n ∈ chsOf die, e.chs[n].hv.laneDown = false) := by
  have once (k : Fin 2) : (chsOf k).Nodup := by revert k; decide
  unfold Dev.laneBack
  split
  next stays =>
    refine ⟨rfl, rfl, fun good clear n isin => ?_⟩
    simp only [good, clear, Bool.false_or, Bool.not_eq_true', List.any_eq_false] at stays
    simpa using stays n isin
  next =>
    extract_lets p a
    have rest := foldl_keeps (fun e : Dev => e.regs = d.regs ∧ e.porter.laneBad = d.porter.laneBad)
      (fun d n => d.onCh n (fun c => { c with hv := { c.hv with laneDown := false } })) (chsOf die) a (fun e n h => h) ⟨rfl, rfl⟩
    refine ⟨rest.1, rest.2, fun _ _ n isin => ?_⟩
    refine (foldl_turn (k := n) (fun _ => True) (fun e : Dev => e.chs[n].hv.laneDown = false) _ (fun _ _ _ _ => trivial) (fun e _ => ?_)
      (fun m other e h => ?_) (chsOf die) (once die)).1 isin a trivial
    · rw [Dev.onCh_same]
    · rw [Dev.onCh_other _ _ _ _ other]
      exact h

/-- A die's lane counted and marked as bad. -/
def Dev.laneMarked (d : Dev) (die : Fin 2) : Dev :=
  let d := if die = 0 then d.count PORTER_LANE.DIE0 else d.count PORTER_LANE.DIE1
  { d with porter := { d.porter with laneBad := d.porter.laneBad.set die true } }

/-- A channel whose lane is down begins its HV removal. -/
def Dev.laneGone (d : Dev) (n : Fin 8) : Dev := (d.onCh n (fun c => { c with hv := { c.hv with laneDown := true } })).rampDown n (d.hvRemoved n)

theorem Dev.laneFail_eq (d : Dev) (die : Fin 2) : d.laneFail die = ((chsOf die).foldl Dev.laneGone (d.laneMarked die)).fault 4 := rfl

/-- A lane that fails: its die's lane is bad, its channels are down, and fault 4 is latched (R566). -/
theorem Dev.laneFail_parts (d : Dev) (die : Fin 2) :
    let e := d.laneFail die
    e.bit PORTER_FAULT.CAUSE 0 0 4 = true ∧ e.porter.laneBad = d.porter.laneBad.set die true ∧ ∀ n ∈ chsOf die, e.chs[n].hv.laneDown = true := by
  have once (k : Fin 2) : (chsOf k).Nodup := by revert k; decide
  have bad : (d.laneMarked die).porter.laneBad = d.porter.laneBad.set die true := by
    unfold Dev.laneMarked
    dsimp only
    split
    · rfl
    · rfl
  have down (x : Dev) (n : Fin 8) : (x.laneGone n).chs[n].hv.laneDown = true := by
    unfold Dev.laneGone
    rw [Dev.rampDown_hv, Dev.onCh_same]
  have own (x : Dev) (n : Fin 8) : x.onlyCh (x.laneGone n) n := Dev.onlyCh_trans (x.onlyCh_onCh n _) (Dev.rampDown_onlyCh _ n _)
  rw [Dev.laneFail_eq]
  dsimp only
  rw [Dev.fault_porter, Dev.fault_chs]
  refine ⟨Dev.fault_latched _ 4 (by decide), ?_, fun n isin => ?_⟩
  · refine foldl_keeps (fun e : Dev => e.porter.laneBad = d.porter.laneBad.set die true) _ _ _ (fun x n h => ?_) bad
    rw [(own x n).1]
    exact h
  · refine (foldl_turn (k := n) (fun _ => True) (fun e : Dev => e.chs[n].hv.laneDown = true) (fun m e => e.laneGone m) (fun _ _ _ _ => trivial) (fun x _ => down x n)
      (fun m other x h => ?_) (chsOf die) (once die)).1 isin _ trivial
    rw [(own x m).2 n (Ne.symm other)]
    exact h

/-- Logic sensors that have all cooled end a thermal shutdown, and others do not (R567). -/
theorem Dev.tsdClear_parts (d : Dev) :
    let e := d.tsdClear
    e.regs = d.regs ∧ ((∀ k, k < 9 → d.getS PWR_TLOGs.TEMP k < 1520) → e.porter.tsdLog = false)
      ∧ (∀ k, k < 9 → 1520 ≤ d.getS PWR_TLOGs.TEMP k → e.porter.tsdLog = d.porter.tsdLog) := by
  unfold Dev.tsdClear
  extract_lets logOk hvOk p a q e
  have cooled : a.regs = d.regs ∧ a.porter.tsdLog = (d.porter.tsdLog && !logOk) := by
    unfold a
    split
    next ends =>
      simp only [Bool.and_eq_true] at ends
      exact ⟨rfl, by simp [ends]⟩
    next stays =>
      refine ⟨rfl, ?_⟩
      cases on : d.porter.tsdLog with
      | false => rfl
      | true => simpa [on] using stays
  have same (e : Dev) (h : e.regs = a.regs ∧ e.porter.tsdLog = a.porter.tsdLog) :
      e.regs = d.regs ∧ ((∀ k, k < 9 → d.getS PWR_TLOGs.TEMP k < 1520) → e.porter.tsdLog = false)
        ∧ (∀ k, k < 9 → 1520 ≤ d.getS PWR_TLOGs.TEMP k → e.porter.tsdLog = d.porter.tsdLog) := by
    refine ⟨h.1.trans cooled.1, fun cold => ?_, fun k fits hot => ?_⟩
    · have ok : logOk = true := by simpa [logOk] using cold
      rw [h.2, cooled.2, ok]
      simp
    · have no : logOk = false := by
        simp only [logOk, List.all_eq_false, List.mem_range]
        exact ⟨k, fits, by simpa using hot⟩
      rw [h.2, cooled.2, no]
      simp
  clear_value a
  unfold e
  split
  · exact same _ (Dev.eachCh_keeps (fun e : Dev => e.regs = a.regs ∧ e.porter.tsdLog = a.porter.tsdLog) _ _ (fun n e h => h) ⟨rfl, rfl⟩)
  · exact same _ ⟨rfl, rfl⟩

/-- A release of HALT that lands is pending, and reads its joint (R562). -/
theorem Dev.relAccept_parts (d : Dev) (r : Nat) (held : d.porter.halt = true) :
    let e := d.relAccept r
    e.flag PORTER_HALT.REL_PEND = true ∧ e.porter = { d.porter with relAt := some r }
      ∧ e.getPair PORTER_REL_LO.REL_LO PORTER_REL_HI.REL_HI = r % 2 ^ 64
      ∧ d.regsBut e [PORTER_HALT.REL_PEND.at, PORTER_REL_LO.REL_LO.at, PORTER_REL_HI.REL_HI.at] := by
  have eq : d.relAccept r
      = (({ d with porter := { d.porter with relAt := some r } } : Dev).setPair PORTER_REL_LO.REL_LO PORTER_REL_HI.REL_HI 0 0 r).raise PORTER_HALT.REL_PEND := if_pos held
  have pair := ({ d with porter := { d.porter with relAt := some r } } : Dev).getPair_setPair PORTER_REL_LO.REL_LO PORTER_REL_HI.REL_HI 0 0 r rfl rfl (by decide)
  rw [eq]
  refine ⟨Dev.flag_raise_same _ _ _ _ (by decide), rfl, ?_, ?_⟩
  · refine Eq.trans ?_ pair
    unfold Dev.getPair Dev.raise
    rw [Dev.get_set_id _ _ _ _ _ _ _ _ (by decide), Dev.get_set_id _ _ _ _ _ _ _ _ (by decide)]
  · unfold Dev.setPair
    exact Dev.regsBut_set PORTER_HALT.REL_PEND 0 0 1 (Dev.regsBut_set PORTER_REL_HI.REL_HI 0 0 _ (Dev.regsBut_set PORTER_REL_LO.REL_LO 0 0 _
      (fun _ _ _ _ => rfl) (by simp)) (by simp)) (by simp)

/-- A HALT ball sampled low asserts HALT again; after the device drove it, the release has failed (R556, R563). -/
theorem Dev.haltResample_low (d : Dev) (free : d.driving = false) (none : d.ownWait = []) :
    let e := d.haltResample true
    e.porter.halt = true ∧ e.bit PORTER_HALT.SRC 0 0 0 = true ∧ (d.porter.driveEnd = true → e.flag PORTER_HALT.REL_FAIL = true) := by
  have eq : d.haltResample true = (({ d with porter := { d.porter with haltIn := true, driveEnd := false } } : Dev).raiseIf d.porter.driveEnd
      PORTER_HALT.REL_FAIL).assertHalt 0 := if_neg (by simp [free])
  have failed : d.porter.driveEnd = true → (({ d with porter := { d.porter with haltIn := true, driveEnd := false } } : Dev).raiseIf d.porter.driveEnd
      PORTER_HALT.REL_FAIL).flag PORTER_HALT.REL_FAIL = true := fun after => by
    unfold Dev.raiseIf
    rw [if_pos after]
    exact Dev.flag_raise_same _ _ _ _ (by decide)
  have own : (({ d with porter := { d.porter with haltIn := true, driveEnd := false } } : Dev).raiseIf d.porter.driveEnd PORTER_HALT.REL_FAIL).ownWait = [] := by
    unfold Dev.raiseIf
    split
    · exact none
    · exact none
  rw [eq]
  generalize ({ d with porter := { d.porter with haltIn := true, driveEnd := false } } : Dev).raiseIf d.porter.driveEnd PORTER_HALT.REL_FAIL = a at *
  obtain ⟨porter, latched, -, -, -, regs⟩ := a.assertHalt_parts 0 (by decide) own
  exact ⟨by rw [porter], latched, fun after => (Dev.flag_of_get (regs _ 0 0 (by decide) (by decide))).trans (failed after)⟩

/-- Causes acknowledged: a cause stays only where it was not acknowledged or its condition persists (R565). -/
theorem Dev.faultClear_parts (d : Dev) (w : Nat) :
    let e := d.faultClear w
    (∀ b, b < 14 → e.bit PORTER_FAULT.CAUSE 0 0 b = (d.bit PORTER_FAULT.CAUSE 0 0 b && (!bitAt w b || d.faultHolds b)))
      ∧ d.regsBut e [PORTER_FAULT.CAUSE.at] := by
  obtain ⟨⟨-, -, regs⟩, each, -⟩ := Dev.faultAcks_parts w (List.range 14) List.nodup_range d (fun b isin => List.mem_range.mp isin)
  have eq : d.faultClear w = (((List.range 14).foldl (Dev.faultAck w) d).laneBack 0).laneBack 1 := rfl
  rw [eq]
  generalize (List.range 14).foldl (Dev.faultAck w) d = a at *
  have back : ((a.laneBack 0).laneBack 1).regs = a.regs := ((a.laneBack 0).laneBack_parts 1).1.trans (a.laneBack_parts 0).1
  refine ⟨fun b fits => ?_, Dev.regsBut_of_regs regs back⟩
  rw [← each b (List.mem_range.mpr fits)]
  exact congrArg (fun v => bitAt v b) (Dev.get_of_regs back _ _ _)

/-- Where POR_N does not hold the device, a command of the Porter acts. -/
theorem State.whileUp_up (s : State) (up : s.dev.boot.up = true) (f : Dev → Dev) : s.whileUp f = .next (s.withDev (f s.dev)) := if_pos up

/-- A command of the Porter that would change nothing changes nothing, whether POR_N holds the device or not. -/
theorem State.whileUp_same (s : State) (f : Dev → Dev) (same : s.dev.boot.up = true → f s.dev = s.dev) : s.whileUp f = .next s := by
  unfold State.whileUp
  split
  next up => exact State.next_of_eq s (same up)
  next => rfl

/-- Settles O50, from what each of these events leaves. -/
theorem haltAndFaults : Obligations.HaltAndFaults := by
  unfold Obligations.HaltAndFaults
  intro s
  dsimp only
  refine ⟨fun out => ⟨_, State.next_of_eq s (if_neg ?_), rfl⟩, fun up free none => ⟨_, State.next_of_eq s (if_pos ?_), ?_⟩,
    fun up free => ⟨_, (s.whileUp_up up (fun d => d.haltResample false)).trans (State.next_of_eq s (if_neg ?_)), rfl⟩,
    fun up free none => ⟨_, s.whileUp_up up (fun d => d.haltResample true), s.dev.haltResample_low free none⟩,
    fun low out => s.whileUp_same (fun d => d.haltResample low) (fun up => ?_), fun out => s.whileUp_same Dev.haltRel (fun _ => ?_),
    fun up held idle => ⟨fun member => ?_, fun single alone => ?_⟩,
    fun w up => ⟨_, s.whileUp_up up (fun d => d.faultClear w.toNat), s.dev.faultClear_parts w.toNat⟩,
    fun up off => ⟨_, (s.whileUp_up up _).trans (State.next_of_eq s (if_pos off)), rfl⟩, fun out => s.whileUp_same _ (fun up => ?_),
    fun up => ⟨_, s.whileUp_up up Dev.tsdClear, s.dev.tsdClear_parts⟩, fun die up => ⟨_, s.whileUp_up up (fun d => d.laneFail die), s.dev.laneFail_parts die⟩,
    fun die up => ⟨_, s.whileUp_up up (fun d => Dev.laneBack { d with porter := { d.porter with laneBad := d.porter.laneBad.set die false } } die), ?_⟩⟩
  · show ¬ (s.dev.boot.up && !s.dev.driving) = true
    rcases out with down | drives
    · simp [down]
    · simp [drives]
  · show (s.dev.boot.up && !s.dev.driving) = true
    simp [up, free]
  · obtain ⟨porter, latched, -⟩ := ({ s.dev with porter := { s.dev.porter with haltIn := true } } : Dev).assertHalt_parts 0 (by decide) none
    rw [porter]
    exact ⟨rfl, rfl, latched⟩
  · simp [free]
  · rcases out with down | drives
    · rw [down] at up
      exact absurd up (by simp)
    · exact if_pos drives
  · exact if_pos (by simpa using out)
  · have eq : s.dev.haltRel = (s.dev.publish 5 []).raise PORTER_HALT.REL_PEND := by
      unfold Dev.haltRel
      rw [if_neg (by simp [held, idle]), if_pos member]
    refine ⟨_, (s.whileUp_up up Dev.haltRel).trans (State.next_of_eq s eq), Dev.flag_raise_same _ _ _ _ (by decide), rfl, rfl, ?_⟩
    exact Dev.regsBut_set PORTER_HALT.REL_PEND 0 0 1 (fun _ _ _ _ => rfl) (by simp)
  · have eq : s.dev.haltRel = s.dev.relAccept (s.dev.time.crs + 2) := by
      unfold Dev.haltRel
      rw [if_neg (by simp [held, idle]), if_neg (by simp [single]), if_neg (by simp [alone])]
    exact ⟨_, (s.whileUp_up up Dev.haltRel).trans (State.next_of_eq s eq), s.dev.relAccept_parts _ held⟩
  · rcases out with down | on
    · rw [down] at up
      exact absurd up (by simp)
    · exact if_neg (by simp [on])
  · obtain ⟨regs, bad, back⟩ := ({ s.dev with porter := { s.dev.porter with laneBad := s.dev.porter.laneBad.set die false } } : Dev).laneBack_parts die
    refine ⟨regs, bad, fun clear => back ?_ clear⟩
    show (s.dev.porter.laneBad.set die false).getD die false = false
    rw [List.getD_eq_getElem?_getD, List.getElem?_set_self']
    cases s.dev.porter.laneBad[die.val]? <;> rfl

end Sys2Proof.Machine
end

section
/-!
PROOF. The Clerk's watchdog and the host's (R521, R569 to R571).
-/
namespace Sys2Proof.Machine
open Reg

/-- Urgent QUIET on every channel: each is marked, and its sequencer stops (R506). -/
theorem Dev.urgentQuiet_all (d : Dev) (none : d.ownWait = []) :
    let e := d.urgentQuiet 255
    e.porter = d.porter ∧ (∀ n : Fin 8, e.bit PORTER_STATUS.QUIET 0 0 n = true ∧ e.get SEQ_STAT.STATE n = 0)
      ∧ ∀ f m i, f.id ≠ PORTER_STATUS.QUIET.id → f.id ∉ haltIds → e.get f m i = d.get f m i := by
  have all (n : Fin 8) : bitAt 255 n = true := by revert n; decide
  have eq : d.urgentQuiet 255 = d.eachCh (fun n d => (d.setBit PORTER_STATUS.QUIET 0 0 n).quietNow n) := by
    unfold Dev.urgentQuiet
    simp only [all, if_true]
  have turn (n : Fin 8) (e : Dev) (own : e.ownWait = []) := (e.setBit PORTER_STATUS.QUIET 0 0 n).quietNow_halts n own
  have keeps (n : Fin 8) (e : Dev) (h : e.ownWait = []) : ((e.setBit PORTER_STATUS.QUIET 0 0 n).quietNow n).ownWait = [] :=
    (Dev.halts_own (turn n e h).1).trans h
  have quiet (n : Fin 8) (e : Dev) (h : e.ownWait = []) (k : Nat) :
      ((e.setBit PORTER_STATUS.QUIET 0 0 n).quietNow n).bit PORTER_STATUS.QUIET 0 0 k = (e.setBit PORTER_STATUS.QUIET 0 0 n).bit PORTER_STATUS.QUIET 0 0 k :=
    congrArg (fun v => bitAt v k) ((turn n e h).1.regs _ _ _ (by decide))
  rw [eq]
  refine ⟨?_, fun n => ?_, ?_⟩
  · refine (Dev.eachCh_keeps (fun e : Dev => e.ownWait = [] ∧ e.porter = d.porter) _ d (fun n e h => ⟨keeps n e h.1, ?_⟩) ⟨none, rfl⟩).2
    exact (Dev.haltsAll_fields (Dev.halts_all (turn n e h.1).1)).2.2.1.trans h.2
  · refine (Dev.eachCh_turn n (fun e : Dev => e.ownWait = [])
      (fun e : Dev => e.ownWait = [] ∧ e.bit PORTER_STATUS.QUIET 0 0 n = true ∧ e.get SEQ_STAT.STATE n = 0) _ d (fun m _ => keeps m) (fun e h => ⟨keeps n e h, ?_, ?_⟩)
      (fun m other e h => ⟨keeps m e h.1, ?_, ?_⟩) none).2
    · exact (quiet n e h n).trans (e.bit_setBit_same _ 0 0 n n.isLt)
    · exact (turn n e h).2
    · exact (quiet m e h.1 n).trans ((e.bit_setBit_other _ 0 0 m n (fun eq => other (Fin.ext eq.symm)) n.isLt).trans h.2.1)
    · exact ((turn m e h.1).1.state n (Ne.symm other)).trans ((Dev.get_set_id _ _ _ _ _ _ _ _ (by decide)).trans h.2.2)
  · refine (Dev.eachCh_keeps (fun e : Dev => e.ownWait = [] ∧ ∀ f m i, f.id ≠ PORTER_STATUS.QUIET.id → f.id ∉ haltIds → e.get f m i = d.get f m i) _ d
      (fun n e h => ⟨keeps n e h.1, fun f m i other out => ?_⟩) ⟨none, fun _ _ _ _ _ => rfl⟩).2
    exact ((turn n e h.1).1.regs f m i out).trans ((Dev.get_set_id _ _ _ _ _ _ _ _ (Ne.symm other)).trans (h.2 f m i other out))

/-- The Clerk restarted by its watchdog: its state and its boot step show it (R569). -/
theorem Dev.clerkReset_watchdog (d : Dev) (boots : d.get PWR_STRAP.BOOT ≠ 3) (none : d.ownWait = []) :
    let e := d.clerkReset 1
    e.porter = d.porter ∧ e.get MBX_CLERK.STATE = 2 ∧ d.regsBut e [MBX_CLERK.STATE.at, PWR_BOOT.STAGE.at] := by
  unfold Dev.clerkReset
  rw [if_neg (by simp [boots])]
  extract_lets boot ev sram mason a b e
  obtain ⟨porter, regs, own⟩ : b.porter = d.porter ∧ b.regs = d.regs ∧ b.ownWait = [] :=
    Dev.eachCh_keeps (fun e : Dev => e.porter = d.porter ∧ e.regs = d.regs ∧ e.ownWait = []) _ a (fun n e h => h) ⟨rfl, rfl, none⟩
  clear_value b
  unfold e
  rw [Dev.settleOwn_none own]
  refine ⟨porter, (Dev.get_set_id _ _ _ _ _ _ _ _ (by decide)).trans (Dev.get_set_same ..), ?_⟩
  exact Dev.regsBut_set PWR_BOOT.STAGE 0 0 3 (Dev.regsBut_set MBX_CLERK.STATE 0 0 2 (fun f m i _ => Dev.get_of_regs regs _ _ _) (by simp)) (by simp)

/-- An expiry of the Clerk's watchdog as it counts, before the Clerk restarts (R569). -/
def Dev.wdtCounted (d : Dev) (ms : Nat) : Dev :=
  let d := (d.fault 7).count PORTER_WDT.RESETS
  { d with porter := { d.porter with wdtRuns := d.porter.wdtRuns.filter (fun t => ms ≤ t + 10000) ++ [ms], wdtArmed := false, wdtLeft := 0 } }

/-- The Clerk held in reset after its third expiry (R570). -/
def Dev.clerkHeld (d : Dev) : Dev :=
  let d := d.set MBX_CLERK.STATE 0 0 3
  { d with porter := { d.porter with clerkFail := true }, boot := { d.boot with again := none } }.fault 8

theorem Dev.wdtExpiry_eq (d : Dev) (ms : Nat) (armed : d.porter.wdtArmed = true) : d.wdtExpiry ms
    = if ((d.fault 7).porter.wdtRuns.filter (fun t => ms ≤ t + 10000) ++ [ms]).length < 3 then (d.wdtCounted ms).clerkReset 1
      else ((d.wdtCounted ms).clerkReset 1).clerkHeld := by
  unfold Dev.wdtExpiry
  rw [if_neg (by simp [armed])]
  rfl

theorem Dev.wdtCounted_parts (d : Dev) (ms : Nat) :
    let e := d.wdtCounted ms
    e.bit PORTER_FAULT.CAUSE 0 0 7 = true ∧ e.porter.wdtRuns = d.porter.wdtRuns.filter (fun t => ms ≤ t + 10000) ++ [ms]
      ∧ e.get PORTER_WDT.RESETS = satInc PORTER_WDT.RESETS.w (d.get PORTER_WDT.RESETS) % 2 ^ PORTER_WDT.RESETS.w
      ∧ e.get PWR_STRAP.BOOT = d.get PWR_STRAP.BOOT ∧ e.ownWait = d.ownWait := by
  have latched := d.fault_latched 7 (by decide)
  have resets := d.fault_get 7 PORTER_WDT.RESETS 0 0 (by decide)
  have boots := d.fault_get 7 PWR_STRAP.BOOT 0 0 (by decide)
  have porter := d.fault_porter 7
  have own := d.fault_ownWait 7
  unfold Dev.wdtCounted
  generalize d.fault 7 = a at *
  refine ⟨?_, by rw [← porter]; rfl, ?_, ?_, own⟩
  · exact (congrArg (fun v => bitAt v 7) (Dev.get_set_id a PORTER_WDT.RESETS PORTER_FAULT.CAUSE 0 0 0 0 _ (by decide))).trans latched
  · rw [← resets]
    exact Dev.get_set_same ..
  · exact (Dev.get_set_id a PORTER_WDT.RESETS PWR_STRAP.BOOT 0 0 0 0 _ (by decide)).trans boots

/-- The expiry of an armed watchdog: it counts, latches fault 7 and restarts the Clerk, which the third within 10 s holds in reset. -/
theorem Dev.wdtExpiry_parts (d : Dev) (ms : Nat) (armed : d.porter.wdtArmed = true) (boots : d.get PWR_STRAP.BOOT ≠ 3) (none : d.ownWait = []) :
    let runs := d.porter.wdtRuns.filter (fun t => ms ≤ t + 10000) ++ [ms]
    let e := d.wdtExpiry ms
    e.bit PORTER_FAULT.CAUSE 0 0 7 = true ∧ e.porter.wdtRuns = runs
      ∧ e.get PORTER_WDT.RESETS = satInc PORTER_WDT.RESETS.w (d.get PORTER_WDT.RESETS) % 2 ^ PORTER_WDT.RESETS.w
      ∧ (runs.length < 3 → e.get MBX_CLERK.STATE = 2)
      ∧ (3 ≤ runs.length → e.get MBX_CLERK.STATE = 3 ∧ e.bit PORTER_FAULT.CAUSE 0 0 8 = true ∧ e.porter.clerkFail = true) := by
  obtain ⟨latched, runs, resets, strap, own⟩ := d.wdtCounted_parts ms
  obtain ⟨porter, state, regs⟩ := (d.wdtCounted ms).clerkReset_watchdog (strap ▸ boots) (own.trans none)
  rw [Dev.wdtExpiry_eq d ms armed, Dev.fault_porter]
  generalize (d.wdtCounted ms).clerkReset 1 = c at *
  have latched : c.bit PORTER_FAULT.CAUSE 0 0 7 = true := (congrArg (fun v => bitAt v 7) (Dev.regsBut_read regs _ 0 0 (by rfl))).trans latched
  have resets := (Dev.regsBut_read regs PORTER_WDT.RESETS 0 0 (by rfl)).trans resets
  dsimp only
  split
  next few => exact ⟨latched, by rw [porter, runs], resets, fun _ => state, fun many => by omega⟩
  next many =>
    unfold Dev.clerkHeld
    extract_lets x
    refine ⟨?_, ?_, ?_, fun few => absurd few many, fun _ => ⟨?_, Dev.fault_latched _ 8 (by decide), ?_⟩⟩
    · rw [Dev.fault_others _ 8 7 (by decide) (by decide)]
      exact (congrArg (fun v => bitAt v 7) (Dev.get_set_id c MBX_CLERK.STATE PORTER_FAULT.CAUSE 0 0 0 0 3 (by decide))).trans latched
    · rw [Dev.fault_porter]
      exact (congrArg Porter.wdtRuns porter).trans runs
    · rw [Dev.fault_get _ 8 _ _ _ (by decide)]
      exact (Dev.get_set_id c MBX_CLERK.STATE PORTER_WDT.RESETS 0 0 0 0 3 (by decide)).trans resets
    · rw [Dev.fault_get _ 8 _ _ _ (by decide)]
      exact Dev.get_set_same c MBX_CLERK.STATE 0 0 3
    · rw [Dev.fault_porter]

/-- A write of the host watchdog with a time (R571). -/
theorem Dev.hwdWrite_parts (d : Dev) (w : Nat) (timed : bitsOf w 0 16 ≠ 0) :
    let e := d.hwdWrite w
    e.get PORTER_HWD.TMO = bitsOf w 0 16 ∧ e.get PORTER_HWD.ACT = bitsOf w 24 3 ∧ e.get PORTER_HWD.EN = bitsOf w 31 1
      ∧ e.porter = { d.porter with hwdRun := bitAt w 31, hwdLeft := if bitAt w 31 then bitsOf w 0 16 else 0 }
      ∧ d.regsBut e [PORTER_HWD.EN.at, PORTER_HWD.ACT.at, PORTER_HWD.TMO.at] := by
  unfold Dev.hwdWrite
  rw [if_neg timed]
  refine ⟨Dev.get_set_bitsOf _ PORTER_HWD.TMO 0 0 w 0, ?_, ?_, rfl, ?_⟩
  · exact (Dev.get_set_id _ PORTER_HWD.TMO PORTER_HWD.ACT 0 0 0 0 _ (by decide)).trans (Dev.get_set_bitsOf _ PORTER_HWD.ACT 0 0 w 24)
  · exact (Dev.get_set_id _ PORTER_HWD.TMO PORTER_HWD.EN 0 0 0 0 _ (by decide)).trans ((Dev.get_set_id _ PORTER_HWD.ACT PORTER_HWD.EN 0 0 0 0 _ (by decide)).trans
      (Dev.get_set_bitsOf _ PORTER_HWD.EN 0 0 w 31))
  · exact Dev.regsBut_set PORTER_HWD.TMO 0 0 _ (Dev.regsBut_set PORTER_HWD.ACT 0 0 _ (Dev.regsBut_set PORTER_HWD.EN 0 0 _ (d.regsBut_refl _) (by simp)) (by simp)) (by simp)

/-- HV_OFF moves no register, and of the Porter what says that the supplies are removed (R506). -/
theorem Dev.hvOff_parts (d : Dev) : let e := d.hvOff; e.porter = { d.porter with hvOff := true, hvReady := false } ∧ e.regs = d.regs := by
  obtain ⟨porter, regs, -⟩ := ({ d with porter := { d.porter with hvOff := true, hvReady := false } } : Dev).rampAll_parts (fun n => d.hvRemoved n)
  exact ⟨porter, regs⟩

/-- The host watchdog run out, before its action (R571). -/
def Dev.hwdOut (d : Dev) : Dev :=
  { d with porter := { d.porter with hwdRun := false, hwdLeft := 0, hwdHalt := d.porter.hwdHalt || decide (d.get PORTER_HWD.ACT = 3) } }.fault 13

/-- The expiry of the host watchdog: fault 13, and the action that its register names. -/
theorem Dev.hwdExpiry_parts (d : Dev) (runs : d.porter.hwdRun = true) (awake : d.asleep = false) (none : d.ownWait = []) :
    let e := d.hwdExpiry
    e.bit PORTER_FAULT.CAUSE 0 0 13 = true ∧ e.porter.hwdRun = false
      ∧ (d.get PORTER_HWD.ACT = 1 → ∀ n : Fin 8, e.bit PORTER_STATUS.QUIET 0 0 n = true ∧ e.get SEQ_STAT.STATE n = 0)
      ∧ (d.get PORTER_HWD.ACT = 3 → e.porter.halt = true ∧ e.bit PORTER_HALT.SRC 0 0 5 = true)
      ∧ (d.get PORTER_HWD.ACT = 4 → e.porter.hvOff = true)
      ∧ (d.get PORTER_HWD.ACT ≠ 1 → d.get PORTER_HWD.ACT ≠ 3 → d.get PORTER_HWD.ACT ≠ 4 → e.chs = d.chs) := by
  have eq : d.hwdExpiry = if d.get PORTER_HWD.ACT = 1 then d.hwdOut.urgentQuiet 255 else if d.get PORTER_HWD.ACT = 3 then d.hwdOut.assertHalt 5
      else if d.get PORTER_HWD.ACT = 4 then d.hwdOut.hvOff else d.hwdOut := if_neg (by simp [runs, awake])
  have latched : d.hwdOut.bit PORTER_FAULT.CAUSE 0 0 13 = true := Dev.fault_latched _ 13 (by decide)
  have out : d.hwdOut.porter.hwdRun = false := by
    unfold Dev.hwdOut
    rw [Dev.fault_porter]
  have chs : d.hwdOut.chs = d.chs := Dev.fault_chs _ _
  have own : d.hwdOut.ownWait = [] := (Dev.fault_ownWait _ _).trans none
  rw [eq]
  generalize d.hwdOut = a at *
  dsimp only
  split
  next one =>
    obtain ⟨porter, each, regs⟩ := a.urgentQuiet_all own
    exact ⟨(congrArg (fun v => bitAt v 13) (regs _ _ _ (by decide) (by decide))).trans latched, (congrArg Porter.hwdRun porter).trans out, fun _ => each,
      fun three => by omega, fun four => by omega, fun other => absurd one other⟩
  next notOne =>
    split
    next three =>
      obtain ⟨porter, src, -, -, -, regs⟩ := a.assertHalt_parts 5 (by decide) own
      exact ⟨(congrArg (fun v => bitAt v 13) (regs _ _ _ (by decide) (by decide))).trans latched, by rw [porter]; exact out, fun one => absurd one notOne,
        fun _ => ⟨by rw [porter], src⟩, fun four => by omega, fun _ other => absurd three other⟩
    next notThree =>
      split
      next four =>
        obtain ⟨porter, regs⟩ := a.hvOff_parts
        exact ⟨(congrArg (fun v => bitAt v 13) (Dev.get_of_regs regs _ _ _)).trans latched, by rw [porter]; exact out, fun one => absurd one notOne,
          fun three => absurd three notThree, fun _ => by rw [porter], fun _ _ other => absurd four other⟩
      next notFour => exact ⟨latched, out, fun one => absurd one notOne, fun three => absurd three notThree, fun four => absurd four notFour, fun _ _ _ => chs⟩

/-- Settles O51, from what an expiry and a write of each watchdog leave. -/
theorem watchdogs : Obligations.Watchdogs := by
  unfold Obligations.Watchdogs
  intro s
  dsimp only
  refine ⟨fun up armed => ⟨_, (s.whileUp_up up _).trans (State.next_of_eq s (if_pos (by simp [armed]))), rfl⟩, fun r other => s.whileUp_same _ (fun _ => if_neg (by simp [other])),
    fun ms off => s.whileUp_same (fun d => d.wdtExpiry ms) (fun _ => if_pos (by simp [off])),
    fun ms up armed boots none => ⟨_, s.whileUp_up up (fun d => d.wdtExpiry ms), s.dev.wdtExpiry_parts ms armed boots none⟩,
    fun w up timed => ⟨_, s.whileUp_up up (fun d => d.hwdWrite w.toNat), s.dev.hwdWrite_parts w.toNat timed⟩,
    fun w zero => s.whileUp_same (fun d => d.hwdWrite w.toNat) (fun _ => if_pos zero), fun up => ⟨_, s.whileUp_up up Dev.hwdKick, rfl⟩,
    fun up runs awake none => ⟨_, s.whileUp_up up Dev.hwdExpiry, s.dev.hwdExpiry_parts runs awake none⟩,
    fun out => s.whileUp_same Dev.hwdExpiry (fun _ => if_pos (by simpa using out)),
    fun up runs => ⟨_, (s.whileUp_up up _).trans (State.next_of_eq s (if_pos runs)), Dev.get_set_same .., ?_, rfl⟩⟩
  exact Dev.regsBut_set MBX_CLERK.BEAT 0 0 _ (s.dev.regsBut_refl _) (by simp)

end Sys2Proof.Machine
end

section
/-!
PROOF. The reference, the lock of the PLL and its loss (R55 to R58).
-/
namespace Sys2Proof.Machine
open Reg

/-! ### What the loss of the lock leaves -/

/-- The registers that show the clock's state, the gaps, the faults, the power state, and whether a Sieve runs. -/
def clockIds : List Nat := [CLK_STAT.LOCK.id, CLK_STAT.UNLOCK.id, CRS_STAT.GAP.id, DDS_STAT.GAP.id, PORTER_FAULT.CAUSE.id, PWR_STAT.STATE.id, SIEVE_STAT.RUNNING.id]

/-- From `d` to `e` none of these registers moved, nor what is asked of the power state, and no field began to wait to become owned. -/
structure Dev.keepsClock (d e : Dev) : Prop where
  own : e.ownWait = d.ownWait
  power : e.power = d.power
  regs : ∀ f m i, f.id ∈ clockIds → e.get f m i = d.get f m i

theorem Dev.keepsClock_refl (d : Dev) : d.keepsClock d := ⟨rfl, rfl, fun _ _ _ _ => rfl⟩

theorem Dev.keepsClock_trans {d e f : Dev} (h : d.keepsClock e) (k : e.keepsClock f) : d.keepsClock f :=
  ⟨k.own.trans h.own, k.power.trans h.power, fun g m i isin => (k.regs g m i isin).trans (h.regs g m i isin)⟩

theorem Dev.keepsClock_set {d e : Dev} (h : d.keepsClock e) (f : Fld) (n i v : Nat) (other : f.id ∉ clockIds) : d.keepsClock (e.set f n i v) :=
  Dev.keepsClock_trans h ⟨rfl, rfl, fun _ _ _ isin => e.get_set_id _ _ _ _ _ _ _ (fun eq => other (eq ▸ isin))⟩

theorem Dev.keepsClock_rest {d e : Dev} (regs : e.regs = d.regs) (own : e.ownWait = d.ownWait) (power : e.power = d.power) : d.keepsClock e :=
  ⟨own, power, fun _ _ _ _ => Dev.get_of_regs regs _ _ _⟩

theorem Dev.keepsClock_onlyCh {d e : Dev} {n : Fin 8} (h : d.onlyCh e n) : d.keepsClock e := by
  refine Dev.keepsClock_rest ?_ ?_ ?_
  · rw [h.1]
  · rw [h.1]
  · rw [h.1]

theorem Dev.keepsClock_haltsAll {d e : Dev} (h : d.haltsAll e) : d.keepsClock e :=
  ⟨(Dev.haltsAll_fields h).2.2.2.2.2.2, by rw [h.rest], fun f m i isin => h.regs f m i (fun out => by
    revert isin out
    have apart : ∀ x ∈ clockIds, x ∉ haltIds := by decide
    exact apart f.id)⟩

theorem Dev.keepsClock_finish {d e : Dev} (h : d.keepsClock e) (none : d.ownWait = []) (m slot status : Nat) (res : List Nat) :
    d.keepsClock (e.finish m slot status res) := by
  refine Dev.keepsClock_trans h (Dev.keepsClock_haltsAll (Dev.halts_all (Dev.halts_drops 0 (e.finish_drops m slot status res (h.own.trans none)))))

theorem Dev.keepsClock_captures {d e : Dev} {n : Fin 8} (h : d.captures e n) : d.keepsClock e := by
  have apart : ∀ x ∈ clockIds, x ∉ captureIds := by decide
  refine ⟨?_, ?_, fun f m i isin => h.2.2 f m i (apart f.id isin)⟩
  · rw [h.1.1]
  · rw [h.1.1]

/-! ### The slot of a channel ends -/

theorem Dev.keepsClock_setLive (d : Dev) (n : Nat) (ws : List Nat) : d.keepsClock (d.setLive n ws) := by
  unfold Dev.setLive
  extract_lets l a b
  have words : d.keepsClock a := foldl_keeps (fun e => d.keepsClock e) _ _ _ (fun e w h => Dev.keepsClock_set h _ _ _ _ (by decide)) d.keepsClock_refl
  have spares : d.keepsClock b := Dev.keepsClock_set (Dev.keepsClock_set words _ _ _ _ (by decide)) _ _ _ _ (by decide)
  exact Dev.keepsClock_set (Dev.keepsClock_set spares _ _ _ _ (by decide)) _ _ _ _ (by decide)

theorem Dev.keepsClock_swapIn (d : Dev) (n : Nat) (ws : List Nat) : d.keepsClock (d.swapIn n ws) := by
  unfold Dev.swapIn
  extract_lets b a
  have words : d.keepsClock a := foldl_keeps (fun e => d.keepsClock e) _ _ _ (fun e w h => Dev.keepsClock_set h _ _ _ _ (by decide)) d.keepsClock_refl
  exact Dev.keepsClock_set words _ _ _ _ (by decide)

theorem Dev.keepsClock_commitSet (d : Dev) (n : Fin 8) (kind : Nat) (parts : List (Nat × Nat)) (new : List Nat) :
    d.keepsClock (d.commitSet n kind parts new) := by
  unfold Dev.commitSet
  split
  · exact d.keepsClock_refl
  · extract_lets pd set0 set a b c fields r e
    have ha : d.keepsClock a := by
      unfold a
      split
      · exact d.keepsClock_swapIn n set
      · exact d.keepsClock_refl
    have hb : d.keepsClock b := Dev.keepsClock_trans ha (a.keepsClock_setLive n set)
    have hc : d.keepsClock c := by
      unfold c
      split
      · exact Dev.keepsClock_set hb _ _ _ _ (by decide)
      · exact hb
    split
    · exact hc
    · have he : d.keepsClock e := Dev.keepsClock_trans hc (Dev.keepsClock_onlyCh (c.onlyCh_onCh n _))
      exact Dev.keepsClock_set (Dev.keepsClock_set he _ _ _ _ (by decide)) _ _ _ _ (by decide)

theorem Dev.keepsClock_slotEnd (d : Dev) (n : Fin 8) (none : d.ownWait = []) : d.keepsClock (d.slotEnd n) := by
  unfold Dev.slotEnd
  split
  · exact d.keepsClock_refl
  next s _ =>
    extract_lets a f g b h i pend j k
    have set {e : Dev} (he : d.keepsClock e) (x : Fld) (v : Nat) (out : x.id ∉ clockIds) : d.keepsClock (e.set x n 0 v) := Dev.keepsClock_set he x n 0 v out
    have ha : d.keepsClock a := Dev.keepsClock_onlyCh (d.onlyCh_onCh n _)
    have hf : d.keepsClock f := set (set (set (set (set ha _ _ (by decide)) _ _ (by decide)) _ _ (by decide)) _ _ (by decide)) _ _ (by decide)
    have hg : d.keepsClock g := set (set (set (set hf _ _ (by decide)) _ _ (by decide)) _ _ (by decide)) _ _ (by decide)
    have hb : d.keepsClock b := by
      unfold b
      split
      · exact Dev.keepsClock_trans ha (a.keepsClock_commitSet n _ _ _)
      · exact set (set hg _ _ (by decide)) _ _ (by decide)
    have hh : d.keepsClock h := by
      unfold h Dev.setPair
      exact set (set (set hb _ _ (by decide)) _ _ (by decide)) _ _ (by decide)
    have hi : d.keepsClock i := by
      unfold i
      split
      · exact set hh _ _ (by decide)
      · exact hh
    have hj : d.keepsClock j := by
      unfold j
      generalize pend = q
      cases q with
      | some a => exact set (set hi _ _ (by decide)) _ _ (by decide)
      | none => exact set hi _ _ (by decide)
    have hk : d.keepsClock k := Dev.keepsClock_trans hj (Dev.keepsClock_rest (Dev.fire_regs ..) (Dev.fire_ownWait ..) (Dev.fire_power ..))
    split
    · exact Dev.keepsClock_finish hk none _ _ _ _
    · exact hk

theorem Dev.keepsClock_quietStatic (d : Dev) (n : Fin 8) (none : d.ownWait = []) : d.keepsClock (d.quietStatic n) := by
  have stops := Dev.keepsClock_haltsAll (Dev.halts_all (d.stopNow_halts n none).1)
  have ends := Dev.keepsClock_trans stops (Dev.keepsClock_slotEnd _ n (stops.own.trans none))
  unfold Dev.quietStatic
  exact Dev.keepsClock_trans ends (Dev.keepsClock_trans (Dev.keepsClock_onlyCh (Dev.onlyCh_onCh _ n _)) (Dev.keepsClock_onlyCh (Dev.quietFollow_onlyCh _ n)))

theorem Dev.keepsClock_marchEnd (d : Dev) (result : Nat) (none : d.ownWait = []) : d.keepsClock (d.marchEnd result) := by
  unfold Dev.marchEnd
  split
  · exact d.keepsClock_refl
  next t _ =>
    extract_lets r a
    have start : d.keepsClock { d with sram := { d.sram with test := Option.none, back := d.sram.back ++ [t] } } := Dev.keepsClock_rest rfl rfl rfl
    have ha : d.keepsClock a := Dev.keepsClock_set (Dev.keepsClock_set start MEM_MT.RESULT 0 0 result (by decide)) MEM_MT.BUSY 0 0 0 (by decide)
    clear_value a
    split
    · exact Dev.keepsClock_finish ha none _ _ _ _
    · exact ha

/-! ### Sieves pause -/

theorem keepsClock_quietTaps (n : Fin 8) (reason : Nat) (p : Dev × Memory) : p.1.keepsClock (quietTaps n reason p).1 := by
  unfold quietTaps
  refine foldl_keeps (fun q : Dev × Memory => p.1.keepsClock q.1) _ _ _ (fun q k h => ?_) ?_
  swap
  · dsimp only
    exact Dev.keepsClock_onlyCh (Dev.onlyCh_onCh p.1 n _)
  have ended := Dev.keepsClock_captures (captures_endRecord n k reason q)
  dsimp only
  generalize endRecord n k reason q = r at ended ⊢
  exact Dev.keepsClock_set (Dev.keepsClock_trans h (Dev.keepsClock_trans ended (Dev.keepsClock_onlyCh (r.1.onlyCh_onCh n _)))) _ _ _ _ (by decide)

/-- Sieves pause: the clock's registers stand, and where none runs the memory does. -/
theorem pauseSieves_parts (p : Dev × Memory) :
    p.1.keepsClock (pauseSieves p).1 ∧ ((∀ n : Fin 8, p.1.flag SIEVE_STAT.RUNNING n = false) → (pauseSieves p).2 = p.2) := by
  unfold pauseSieves
  refine foldl_keeps (fun q : Dev × Memory => p.1.keepsClock q.1 ∧ ((∀ n : Fin 8, p.1.flag SIEVE_STAT.RUNNING n = false) → q.2 = p.2)) _ _ _
    (fun q n h => ?_) ⟨p.1.keepsClock_refl, fun _ => rfl⟩
  unfold sievePause
  split
  next => exact h
  next on =>
    have taps := keepsClock_quietTaps n 5 q
    dsimp only
    refine ⟨Dev.keepsClock_set (Dev.keepsClock_trans h.1 taps) _ _ _ _ (by decide), fun none => ?_⟩
    have runs : q.1.flag SIEVE_STAT.RUNNING n = false := (Dev.flag_of_get (h.1.regs SIEVE_STAT.RUNNING n 0 (by decide))).trans (none n)
    exact absurd on (by simp [runs])

/-- The lock lost, as it shows. -/
def Dev.lockGone (d : Dev) : Dev := ((d.clear CLK_STAT.LOCK).raise CLK_STAT.UNLOCK).live 0 true

/-- The lock lost, as it shows and faults, before the march test and the channels end what they do. -/
def Dev.lockLost (d : Dev) : Dev := (d.lockGone.fault 0).raise CRS_STAT.GAP

/-- The lock lost, once every channel is quiet. -/
def Dev.lockQuiet (d : Dev) : Dev := (d.lockLost.marchEnd 5).eachCh (fun n d => d.quietStatic n)

theorem pllUnlock_eq (d : Dev) (m : Memory) (on : d.locked = true) : pllUnlock (d, m) = pauseSieves (d.lockQuiet, m) := if_neg (by simp [on])

theorem Dev.lockLost_parts (d : Dev) :
    let e := d.lockLost
    e.locked = false ∧ e.flag CLK_STAT.UNLOCK = true ∧ e.flag CRS_STAT.GAP = true ∧ e.bit PORTER_FAULT.CAUSE 0 0 0 = true ∧ e.ownWait = d.ownWait
      ∧ e.time = d.time ∧ ∀ n : Nat, e.flag SIEVE_STAT.RUNNING n = d.flag SIEVE_STAT.RUNNING n := by
  have gone (f : Fld) (n : Nat) : d.lockGone.get f n = ((d.set CLK_STAT.LOCK 0 0 0).set CLK_STAT.UNLOCK 0 0 1).get f n := rfl
  have locked : d.lockGone.flag CLK_STAT.LOCK = false :=
    (Dev.flag_of_get ((gone _ 0).trans (Dev.get_set_id _ _ _ _ _ _ _ _ (by decide)))).trans (d.flag_set_bool CLK_STAT.LOCK 0 0 false (by decide))
  have unlock : d.lockGone.flag CLK_STAT.UNLOCK = true := (Dev.flag_of_get (gone _ 0)).trans (Dev.flag_raise_same _ _ _ _ (by decide))
  have sieve (n : Nat) : d.lockGone.flag SIEVE_STAT.RUNNING n = d.flag SIEVE_STAT.RUNNING n :=
    Dev.flag_of_get ((gone _ n).trans ((Dev.get_set_id _ _ _ _ _ _ _ _ (by decide)).trans (Dev.get_set_id _ _ _ _ _ _ _ _ (by decide))))
  have rest : d.lockGone.ownWait = d.ownWait ∧ d.lockGone.time = d.time := ⟨rfl, rfl⟩
  unfold Dev.lockLost
  generalize d.lockGone = b at *
  have read (f : Fld) (n : Nat) (other : f.id ≠ CRS_STAT.GAP.id ∧ f.id ≠ PORTER_FAULT.CAUSE.id) : ((b.fault 0).raise CRS_STAT.GAP).flag f n = b.flag f n :=
    Dev.flag_of_get ((Dev.get_set_id _ _ _ _ _ _ _ _ (Ne.symm other.1)).trans (b.fault_get 0 f n 0 other.2))
  refine ⟨(read _ 0 (by decide)).trans locked, (read _ 0 (by decide)).trans unlock, Dev.flag_raise_same _ _ _ _ (by decide), ?_,
    (Dev.fault_ownWait ..).trans rest.1, (Dev.fault_time ..).trans rest.2, fun n => (read _ n (by decide)).trans (sieve n)⟩
  exact (congrArg (fun v => bitAt v 0) (Dev.get_set_id _ _ _ _ _ _ _ _ (by decide))).trans (b.fault_latched 0 (by decide))

theorem Dev.lockQuiet_keeps (d : Dev) (none : d.ownWait = []) : d.lockLost.keepsClock d.lockQuiet := by
  obtain ⟨-, -, -, -, own, -⟩ := d.lockLost_parts
  have ended := d.lockLost.keepsClock_marchEnd 5 (own.trans none)
  refine Dev.eachCh_keeps (fun e => d.lockLost.keepsClock e) _ _ (fun n e h => ?_) ended
  exact Dev.keepsClock_trans h (e.keepsClock_quietStatic n (h.own.trans (own.trans none)))

/-! ### The reference and the lock -/

/-- The root whose reference is lost freezes its loop, and hands its role over where it can (R57, R423). -/
def Dev.rootLost (d : Dev) : Dev :=
  let d : Dev := { d with ring := { d.ring with frozen := true } }
  match d.bestCand with
  | none => d.fault 12
  | some c => ((((d.ringState 3).set RING_ROSTER.ROOT 0 0 c.index).raise RING_STAT.ROOT_CHG).publish 12 [c.index]).follow d.upPort

theorem Dev.rootLost_parts (d : Dev) :
    let e := d.rootLost
    e.flag CLK_STAT.REF_LOSS = d.flag CLK_STAT.REF_LOSS ∧ e.time = d.time ∧ e.chs = d.chs
      ∧ (d.bestCand = none → e.bit PORTER_FAULT.CAUSE 0 0 12 = true) := by
  unfold Dev.rootLost
  extract_lets r a e
  have same : a.bestCand = d.bestCand := rfl
  rw [← same]
  have start : a.flag CLK_STAT.REF_LOSS = d.flag CLK_STAT.REF_LOSS ∧ a.time = d.time ∧ a.chs = d.chs := ⟨rfl, rfl, rfl⟩
  clear_value a
  obtain ⟨flag, time, chs⟩ := start
  unfold e
  split
  next => exact ⟨(Dev.flag_of_get (a.fault_get 12 _ 0 0 (by decide))).trans flag, (a.fault_time _).trans time, (a.fault_chs _).trans chs, fun _ => a.fault_latched 12 (by decide)⟩
  next c found =>
    have state := a.links_ringState 3
    generalize a.ringState 3 = b at *
    have links := Dev.links_follow (((b.set RING_ROSTER.ROOT 0 0 c.index).raise RING_STAT.ROOT_CHG).publish 12 [c.index]) a.upPort
    refine ⟨?_, links.time.trans (state.time.trans time), links.chs.trans (state.chs.trans chs), fun no => absurd (found.symm.trans no) (by simp)⟩
    refine (Dev.flag_of_get ((links.regs CLK_STAT.REF_LOSS 0 0 (by decide)).trans ?_)).trans flag
    show ((b.set RING_ROSTER.ROOT 0 0 c.index).set RING_STAT.ROOT_CHG 0 0 1).get CLK_STAT.REF_LOSS = _
    rw [Dev.get_set_id _ _ _ _ _ _ _ _ (by decide), Dev.get_set_id _ _ _ _ _ _ _ _ (by decide)]
    exact state.regs CLK_STAT.REF_LOSS 0 0 (by decide)

/-- A lost reference shows, and no channel and no time moves (R57). -/
theorem Dev.refLoss_parts (d : Dev) :
    let e := d.refLoss
    e.flag CLK_STAT.REF_LOSS = true ∧ e.time = d.time ∧ e.chs = d.chs ∧ (d.isRoot = true → d.bestCand = none → e.bit PORTER_FAULT.CAUSE 0 0 12 = true)
      ∧ (d.isRoot = false → d.onlyRegs e [CLK_STAT.REF_LOSS.at]) := by
  have eq : d.refLoss = if !(d.raise CLK_STAT.REF_LOSS).isRoot then d.raise CLK_STAT.REF_LOSS else (d.raise CLK_STAT.REF_LOSS).rootLost := rfl
  have raised : (d.raise CLK_STAT.REF_LOSS).flag CLK_STAT.REF_LOSS = true := Dev.flag_raise_same _ _ _ _ (by decide)
  have root : (d.raise CLK_STAT.REF_LOSS).isRoot = d.isRoot := by
    unfold Dev.isRoot
    rw [show (d.raise CLK_STAT.REF_LOSS).get RING_STAT.STATE = d.get RING_STAT.STATE from Dev.get_set_id _ _ _ _ _ _ _ _ (by decide)]
  have cand : (d.raise CLK_STAT.REF_LOSS).bestCand = d.bestCand := by
    have same (f : Fld) (other : CLK_STAT.REF_LOSS.id ≠ f.id) : (d.raise CLK_STAT.REF_LOSS).get f = d.get f := Dev.get_set_id _ _ _ _ _ _ _ _ other
    have rivals : (d.raise CLK_STAT.REF_LOSS).rivals = d.rivals := by
      unfold Dev.rivals
      rw [same _ (by decide), same _ (by decide)]
      rfl
    unfold Dev.bestCand
    rw [rivals]
  rw [eq, root]
  cases on : d.isRoot with
  | false => exact ⟨raised, rfl, rfl, fun no => absurd no (by simp), fun _ => d.raise_onlyRegs _ _ _⟩
  | true =>
    obtain ⟨flag, time, chs, fault⟩ := (d.raise CLK_STAT.REF_LOSS).rootLost_parts
    rw [cand] at fault
    exact ⟨flag.trans raised, time, chs, fun _ => fault, fun no => absurd no (by simp)⟩

/-- The lock come: the tick from which it counts (R21, R58). -/
def Dev.lockCome (d : Dev) : Dev :=
  { (d.raise CLK_STAT.LOCK).live 0 false with
    boot := { d.boot with locked1 := true }, ev := { d.ev with trigLast := d.ev.trigLast.map (fun _ => none) }
    time := { d.time with lock := d.time.abs } }

/-- A lock of the PLL: it shows, ticks since it count from now, and after the first every channel has a gap (R58, R167). -/
theorem Dev.pllLock_parts (d : Dev) (up : d.boot.up = true) (off : d.locked = false) :
    let e := d.pllLock
    e.locked = true ∧ e.time = { d.time with lock := d.time.abs } ∧ e.boot.locked1 = true ∧ e.chs = d.chs
      ∧ (d.boot.locked1 = true → ∀ n : Fin 8, e.flag DDS_STAT.GAP n = true) ∧ (d.boot.locked1 = false → d.regsBut e [CLK_STAT.LOCK.at]) := by
  have eq : d.pllLock = if d.boot.locked1 then d.lockCome.eachCh (fun n d => d.raise DDS_STAT.GAP n) else d.lockCome := if_neg (by simp [up, off])
  have locked : d.lockCome.locked = true := d.flag_raise_same CLK_STAT.LOCK 0 0 (by decide)
  rw [eq]
  cases again : d.boot.locked1 with
  | false =>
    refine ⟨locked, rfl, rfl, rfl, fun no => absurd no (by simp), fun _ => ?_⟩
    exact Dev.regsBut_set CLK_STAT.LOCK 0 0 1 (d.regsBut_refl _) (by simp)
  | true =>
    have rest : d.lockCome.time = { d.time with lock := d.time.abs } ∧ d.lockCome.boot.locked1 = true ∧ d.lockCome.chs = d.chs := ⟨rfl, rfl, rfl⟩
    generalize d.lockCome = c at *
    obtain ⟨only, same⟩ := Dev.eachCh_keeps (fun e : Dev => c.movesOnly e [DDS_STAT.GAP.id] ∧ e.boot = c.boot) (fun n d => d.raise DDS_STAT.GAP n) c
      (fun n e h => ⟨Dev.movesOnly_set h.1 _ _ _ _ (by decide), h.2⟩) ⟨c.movesOnly_refl _, rfl⟩
    have gaps (n : Fin 8) : (c.eachCh (fun n d => d.raise DDS_STAT.GAP n)).flag DDS_STAT.GAP n = true := by
      refine Dev.eachCh_turn n (fun _ => True) (fun e : Dev => e.flag DDS_STAT.GAP n = true) _ c (fun _ _ _ _ => trivial) (fun e _ => e.flag_raise_same _ _ _ (by decide))
        (fun m other e h => ?_) trivial
      exact (Dev.flag_of_get (Dev.get_set_idx _ _ _ _ _ _ _ _ (fun eq => other (Fin.ext eq)))).trans h
    obtain ⟨-, chs, time, -⟩ := Dev.movesOnly_fields only
    exact ⟨(Dev.flag_of_get (only.2 CLK_STAT.LOCK 0 0 (by decide))).trans locked, time.trans rest.1, (congrArg Boot.locked1 same).trans rest.2.1, chs.trans rest.2.2,
      fun _ => gaps, fun no => absurd no (by simp)⟩

/-- Settles O5, from what a lost reference, a lock and its loss each leave. -/
theorem clockEvents : Obligations.ClockEvents := by
  unfold Obligations.ClockEvents
  refine ⟨fun s => ?_, fun s => ?_⟩
  · dsimp only
    refine ⟨⟨_, rfl, s.dev.refLoss_parts⟩, fun up off => ⟨_, rfl, s.dev.pllLock_parts up off⟩, fun out => State.next_of_eq s (y := s.dev) (if_pos (by rcases out with h | h <;> simp [h]))⟩
  · refine ⟨fun on none => ?_, fun off => ?_⟩
    · have run : exec .pllUnlock s = .next { s with dev := (pauseSieves (s.dev.lockQuiet, s.mem)).1, mem := (pauseSieves (s.dev.lockQuiet, s.mem)).2 } := by
        show execPllUnlock s = _
        unfold execPllUnlock
        rw [pllUnlock_eq _ _ on]
      obtain ⟨locked, unlock, gap, fault, -, time, sieve⟩ := s.dev.lockLost_parts
      have quiet := s.dev.lockQuiet_keeps none
      have quieted : s.dev.lockQuiet.time = s.dev.time :=
        ((Dev.eachCh_time _ _ (fun n e => e.quietStatic_time n)).trans (Dev.marchEnd_time _ _)).trans time
      generalize s.dev.lockQuiet = c at *
      generalize s.dev.lockLost = l at *
      obtain ⟨paused, mem⟩ := pauseSieves_parts (c, s.mem)
      have stands : (∀ n : Fin 8, s.dev.flag SIEVE_STAT.RUNNING n = false) → (pauseSieves (c, s.mem)).2 = s.mem := fun idle =>
        mem (fun n => (Dev.flag_of_get (quiet.regs SIEVE_STAT.RUNNING n 0 (by decide))).trans ((sieve n).trans (idle n)))
      have keeps := Dev.keepsClock_trans quiet paused
      have ticks := (pauseSieves_time (c, s.mem)).trans quieted
      generalize pauseSieves (c, s.mem) = q at *
      refine ⟨_, run, rfl, stands, ?_, ?_, ?_, ?_, ?_⟩
      · exact (Dev.flag_of_get (keeps.regs CLK_STAT.LOCK 0 0 (by decide))).trans locked
      · exact (Dev.flag_of_get (keeps.regs CLK_STAT.UNLOCK 0 0 (by decide))).trans unlock
      · exact (Dev.flag_of_get (keeps.regs CRS_STAT.GAP 0 0 (by decide))).trans gap
      · exact (congrArg (fun v => bitAt v 0) (keeps.regs PORTER_FAULT.CAUSE 0 0 (by decide))).trans fault
      · exact congrArg Time.crs ticks
    · show execPllUnlock s = _
      unfold execPllUnlock pllUnlock
      simp [off]

end Sys2Proof.Machine
end

section
/-!
PROOF. Resets of the host port (R517): the statement fails where a command has begun and waits.
-/
namespace Sys2Proof.Machine

/-- A device whose Clerk has begun the command of mailbox 0's slot 0, which waits to be taken up again in its turn (`Dev.stay`). -/
def begunWaiting : Dev :=
  { ({} : Dev) with cmds := [{ m := 0, slot := 0, opcode := 0, land := 0, left := 0, reason := 0, took := 0, own := [] }], rung := [(0, 0)] }

/-- Refutes O56: a host reset leaves the command of `begunWaiting`, which has begun, in its turn; the statement claims that none is left
to be taken up. -/
theorem not_hostLink : ¬ Obligations.HostLink := by
  intro h
  obtain ⟨⟨e, run, wiped, -⟩, -⟩ := h (State.reset.withDev begunWaiting)
  obtain ⟨-, -, -, rung, -⟩ := wiped
  rw [← State.dev_of_next run] at rung
  exact absurd rung (by decide +kernel)

end Sys2Proof.Machine
end

section
/-!
PROOF. DMA queues (R508 to R512).
-/
namespace Sys2Proof.Machine
open Reg

/-- A vector sent adds to what the block emits. -/
theorem Dev.vector_sent (d : Dev) (v : Nat) : d.out <+: (d.vector v).out := by
  unfold Dev.vector
  split
  · exact List.prefix_append _ _
  · split
    · exact List.prefix_rfl
    · exact List.prefix_rfl

theorem bufBytes_length (bytes : List (BitVec 8)) (k : Nat) : (bufBytes bytes k).length = k := by
  unfold bufBytes
  simp
  omega

/-- A queue started or stopped (R508, R512). -/
theorem Dev.dmaEnable_parts (d : Dev) (q : Nat) :
    (d.flag DMA_Qq_CFG.EN q = false → (d.dmaEnable q true).flag DMA_Qq_CFG.EN q = true ∧ (d.dmaEnable q true).get DMA_Qq_HEAD.HEAD q = 0
        ∧ (d.dmaEnable q true).get DMA_Qq_TAIL.TAIL q = 0
        ∧ d.regsBut (d.dmaEnable q true) [DMA_Qq_CFG.EN.at q, DMA_Qq_HEAD.HEAD.at q, DMA_Qq_TAIL.TAIL.at q] ∧ (d.dmaEnable q true).chs = d.chs)
      ∧ (d.flag DMA_Qq_CFG.EN q = true → (d.dmaEnable q false).flag DMA_Qq_CFG.EN q = false ∧ d.regsBut (d.dmaEnable q false) [DMA_Qq_CFG.EN.at q]
        ∧ (d.dmaEnable q false).chs = d.chs)
      ∧ (∀ en, d.flag DMA_Qq_CFG.EN q = en → d.dmaEnable q en = d) := by
  refine ⟨fun off => ?_, fun on => ?_, fun en same => ?_⟩
  · have eq : d.dmaEnable q true = ((({ d with dmaLast := d.dmaLast.filter (fun x => x ≠ q) } : Dev).raise DMA_Qq_CFG.EN q).set DMA_Qq_HEAD.HEAD q 0 0).set
        DMA_Qq_TAIL.TAIL q 0 0 := if_pos (by simp [off])
    rw [eq]
    refine ⟨?_, ?_, Dev.get_set_same .., ?_, rfl⟩
    · refine (Dev.flag_of_get ?_).trans (Dev.flag_raise_same ({ d with dmaLast := d.dmaLast.filter (fun x => x ≠ q) } : Dev) DMA_Qq_CFG.EN q 0 (by decide))
      exact (Dev.get_set_id _ _ _ _ _ _ _ _ (by decide)).trans (Dev.get_set_id _ _ _ _ _ _ _ _ (by decide))
    · exact (Dev.get_set_id _ _ _ _ _ _ _ _ (by decide)).trans (Dev.get_set_same ..)
    · exact Dev.regsBut_set DMA_Qq_TAIL.TAIL q 0 0 (Dev.regsBut_set DMA_Qq_HEAD.HEAD q 0 0 (Dev.regsBut_set DMA_Qq_CFG.EN q 0 1 (fun _ _ _ _ => rfl) (by simp)) (by simp)) (by simp)
  · have eq : d.dmaEnable q false = { d.clear DMA_Qq_CFG.EN q with
        dmaLast := if d.dmaReady q && d.mayIssue then d.dmaLast.filter (fun x => x ≠ q) ++ [q] else d.dmaLast.filter (fun x => x ≠ q) } := by
      unfold Dev.dmaEnable
      simp [on]
    rw [eq]
    exact ⟨d.flag_set_bool DMA_Qq_CFG.EN q 0 false (by decide), Dev.regsBut_set DMA_Qq_CFG.EN q 0 0 (d.regsBut_refl _) (by simp), rfl⟩
  · unfold Dev.dmaEnable
    cases en <;> simp [same]

/-- The completion word of a descriptor goes out, and the queue's place moves on (R511). -/
def Dev.dmaPlaced (d : Dev) (q status : Nat) : Dev :=
  let head := d.get DMA_Qq_HEAD.HEAD q
  let base := 4096 * d.get DMA_Qq_BASE_LO.BASE_LO q + 2 ^ 32 * d.get DMA_Qq_BASE_HI.BASE_HI q
  (d.emit (.hostWrite (base + 32 * head + 24) (leBytes 4 (2 ^ 31 + 2 ^ 24 * status)))).set DMA_Qq_HEAD.HEAD q 0 ((head + 1) % 2 ^ d.get DMA_Qq_CFG.SIZE q)

theorem Dev.dmaPlaced_parts (d : Dev) (q status : Nat) :
    let e := d.dmaPlaced q status
    d.out <+: e.out ∧ e.get DMA_Qq_HEAD.HEAD q = (d.get DMA_Qq_HEAD.HEAD q + 1) % 2 ^ d.get DMA_Qq_CFG.SIZE q % 2 ^ DMA_Qq_HEAD.HEAD.w
      ∧ d.regsBut e [DMA_Qq_HEAD.HEAD.at q] :=
  ⟨List.prefix_append _ _, Dev.get_set_same .., Dev.regsBut_set DMA_Qq_HEAD.HEAD q 0 _ (fun _ _ _ _ => rfl) (by simp)⟩

/-- A descriptor that completes with status 0: the queue's place moves on, and no other register (R511). -/
theorem Dev.dmaEnd_done (d : Dev) (q : Nat) (irq : Bool) :
    let e := d.dmaEnd q 0 irq
    d.out <+: e.out ∧ e.get DMA_Qq_HEAD.HEAD q = (d.get DMA_Qq_HEAD.HEAD q + 1) % 2 ^ d.get DMA_Qq_CFG.SIZE q % 2 ^ DMA_Qq_HEAD.HEAD.w
      ∧ d.regsBut e [DMA_Qq_HEAD.HEAD.at q] := by
  have eq : d.dmaEnd q 0 irq = let x : Dev := { d.dmaPlaced q 0 with dmaLast := d.dmaLast.filter (fun x => x ≠ q) }; if irq then x.vector (18 + q) else x := by
    cases irq <;> rfl
  obtain ⟨out, head, regs⟩ := d.dmaPlaced_parts q 0
  rw [eq]
  generalize d.dmaPlaced q 0 = p at *
  cases irq with
  | false => exact ⟨out, head, regs⟩
  | true =>
    have same := Dev.vector_regs ({ p with dmaLast := d.dmaLast.filter (fun x => x ≠ q) } : Dev) (18 + q)
    exact ⟨out.trans (Dev.vector_sent { p with dmaLast := d.dmaLast.filter (fun x => x ≠ q) } _), (Dev.get_of_regs same _ _ _).trans head, Dev.regsBut_of_regs regs same⟩

/-- A descriptor that is no legal one stops its queue, which shows its index (R511). -/
theorem Dev.dmaEnd_bad (d : Dev) (q : Nat) (irq : Bool) :
    let e := d.dmaEnd q 1 irq
    e.flag DMA_Qq_STAT.STOPPED q = true ∧ e.flag DMA_Qq_STAT.BAD_DESC q = true
      ∧ e.get DMA_Qq_STAT.ERR_IDX q = d.get DMA_Qq_HEAD.HEAD q % 2 ^ DMA_Qq_STAT.ERR_IDX.w
      ∧ d.regsBut e [DMA_Qq_HEAD.HEAD.at q, DMA_Qq_STAT.STOPPED.at q, DMA_Qq_STAT.BAD_DESC.at q, DMA_Qq_STAT.ERR_IDX.at q] := by
  have eq : d.dmaEnd q 1 irq = Dev.vector { (((d.dmaPlaced q 1).raise DMA_Qq_STAT.BAD_DESC q).raise DMA_Qq_STAT.STOPPED q).set DMA_Qq_STAT.ERR_IDX q 0
      (d.get DMA_Qq_HEAD.HEAD q) with dmaLast := d.dmaLast.filter (fun x => x ≠ q) } (18 + q) := by
    cases irq <;> rfl
  obtain ⟨-, -, regs⟩ := d.dmaPlaced_parts q 1
  rw [eq]
  dsimp only
  generalize d.dmaPlaced q 1 = p at *
  have read (f : Fld) (n : Nat) (y : Dev) (l : List Nat) : (Dev.vector { y with dmaLast := l } (18 + q)).get f n = y.get f n :=
    Dev.get_of_regs (Dev.vector_regs _ _) _ _ _
  have mono : d.regsBut p [DMA_Qq_HEAD.HEAD.at q, DMA_Qq_STAT.STOPPED.at q, DMA_Qq_STAT.BAD_DESC.at q, DMA_Qq_STAT.ERR_IDX.at q] := Dev.regsBut_mono regs (by simp)
  refine ⟨?_, ?_, (read _ _ _ _).trans (Dev.get_set_same ..), ?_⟩
  · exact (Dev.flag_of_get ((read _ _ _ _).trans (Dev.get_set_id _ _ _ _ _ _ _ _ (by decide)))).trans (Dev.flag_raise_same _ _ _ _ (by decide))
  · exact (Dev.flag_of_get ((read _ _ _ _).trans ((Dev.get_set_id _ _ _ _ _ _ _ _ (by decide)).trans (Dev.get_set_id _ _ _ _ _ _ _ _ (by decide))))).trans
      (p.flag_raise_same DMA_Qq_STAT.BAD_DESC q 0 (by decide))
  · exact Dev.regsBut_of_regs (Dev.regsBut_set DMA_Qq_STAT.ERR_IDX q 0 _ (Dev.regsBut_set DMA_Qq_STAT.STOPPED q 0 1 (Dev.regsBut_set DMA_Qq_STAT.BAD_DESC q 0 1 mono
      (by simp)) (by simp)) (by simp)) (Dev.vector_regs _ _)

/-- Settles O55, from what a queue started or stopped and a descriptor completed leave. -/
theorem dmaQueues : Obligations.DmaQueues := by
  unfold Obligations.DmaQueues
  intro s q
  dsimp only
  obtain ⟨starts, stops, same⟩ := s.dev.dmaEnable_parts q
  refine ⟨fun tail => ⟨_, rfl, ?_, ?_⟩, fun off => ⟨_, rfl, starts off⟩, fun on => ⟨_, rfl, stops on⟩, fun en eq => State.next_of_eq s (same en eq),
    ⟨_, rfl, s.dev.flag_set_bool DMA_Qq_STAT.STOPPED q 0 false (by decide), ?_⟩, fun g data herr ue idle => if_pos (by simp [idle]), fun g data ue ready issues goes => ?_⟩
  · exact (Dev.get_set_same ..).trans (Nat.mod_eq_of_lt tail.isLt)
  · exact Dev.onlyRegs_set DMA_Qq_TAIL.TAIL q 0 _ (s.dev.onlyRegs_refl _) (by simp)
  · exact Dev.onlyRegs_set DMA_Qq_STAT.STOPPED q 0 0 (s.dev.onlyRegs_refl _) (by simp)
  · have run : exec (.dmaDescriptorDone q g data false ue) s
        = if s.dev.dmaBad (DmaDesc.ofWords g) then .next (s.withDev (s.dev.dmaEnd q 1 (DmaDesc.ofWords g).irq))
          else let r := dmaMove (DmaDesc.ofWords g) data false ue (s.dev, s.mem)
            .next { s with dev := r.1.1.dmaEnd q r.2 (DmaDesc.ofWords g).irq, mem := r.1.2 } := by
      show execDmaDescriptorDone .. = _
      unfold execDmaDescriptorDone
      dsimp only
      rw [if_neg (by simp [ready, issues, goes]), if_neg (by simp)]
    rw [run]
    generalize DmaDesc.ofWords g = x at *
    refine ⟨fun bad => ⟨_, if_pos bad, s.dev.dmaEnd_bad q x.irq⟩, fun ok two clean sound => ?_, fun ok three => ?_⟩
    · rw [if_neg (by simp [ok])]
      have moved : dmaMove x data false ue (s.dev, s.mem) = ((s.dev.emit (.hostWrite x.host (s.mem.readBytes (sramAt x.dev) x.len)), s.mem), 0) := by
        unfold dmaMove
        rw [if_neg (by omega), if_pos two, clean, sound]
        rfl
      rw [moved]
      obtain ⟨out, head, regs⟩ := (s.dev.emit (.hostWrite x.host (s.mem.readBytes (sramAt x.dev) x.len))).dmaEnd_done q x.irq
      exact ⟨_, rfl, out.subset (List.mem_append_right _ (by simp)), head, regs⟩
    · rw [if_neg (by simp [ok])]
      have place : x.dev < 0x2000000 ∧ x.dev % 0x400000 + x.len ≤ 0x40000 := by
        unfold Dev.dmaBad at ok
        simp [three] at ok
        omega
      have moved : dmaMove x data false ue (s.dev, s.mem)
          = (((s.dev.emit (.hostRead x.host x.len)).healGranules x.dev x.len, s.mem.writeBytes (sramAt x.dev) (bufBytes data x.len)), 0) := by
        unfold dmaMove
        rw [if_neg (by omega), if_neg (by omega)]
        simp only [Bool.false_eq_true, if_false]
        rw [bar4Bytes_table _ _ _ place.1 (by rw [bufBytes_length]; exact place.2), bufBytes_length]
      rw [moved]
      obtain ⟨-, head, -⟩ := ((s.dev.emit (.hostRead x.host x.len)).healGranules x.dev x.len).dmaEnd_done q x.irq
      refine ⟨_, rfl, rfl, fun i low => ?_, fun a out => Memory.read_writeBytes_outside _ _ _ _ (by rw [bufBytes_length]; exact out), head⟩
      rw [show sramAt (x.dev + i) = sramAt x.dev + i from (Nat.add_assoc 0x20000000 x.dev i).symm]
      have inside : i < (bufBytes data x.len).length := by rw [bufBytes_length]; exact low
      refine (Memory.read_writeBytes_inside _ _ _ _ inside).trans ?_
      rw [List.getD_eq_getElem?_getD, List.getElem?_eq_getElem inside]
      rfl

end Sys2Proof.Machine
end

section
/-!
PROOF. Host accesses: refused, or to mailbox SRAM (R487 to R490, R496, R533, R537).
-/
namespace Sys2Proof.Machine
open Reg

/-! ### Mailbox SRAM in the register space -/

/-- A row's registers lie between its base and the end of its steps. -/
theorem Row.hit_bounds {r : Row} {a : Nat} {x : Nat × Nat} (h : r.hit a = some x) : r.base ≤ a ∧ a ≤ r.base + r.sn * r.cn + r.si * r.ci + r.sj * r.cj := by
  have part (s c v : Nat) (low : (if s = 0 then 0 else v / s) < c) : v ≤ s * c + (if s = 0 then v else v % s) := by
    split at low
    next zero => simp [zero]
    next some =>
      rw [if_neg some]
      have whole := Nat.div_add_mod v s
      have less := Nat.mul_le_mul_left s (Nat.le_of_lt low)
      omega
  unfold Row.hit at h
  split at h
  next => exact absurd h (by simp)
  next high =>
    extract_lets v n y p z q e at h
    split at h
    next inside =>
      obtain ⟨hn, hp, hq, he⟩ := inside
      have first := part r.sn r.cn v hn
      have second := part r.si r.ci y hp
      have third := part r.sj r.cj z hq
      have e0 : (if r.sj = 0 then z else z % r.sj) = 0 := he
      rw [e0] at third
      have second : y ≤ r.si * r.ci + z := second
      have first : v ≤ r.sn * r.cn + y := first
      have start : v = a - r.base := rfl
      omega
    next => exact absurd h (by simp)

/-- No register lies in mailbox SRAM. -/
theorem regAt_mailbox (a : Nat) (low : 0xC000 ≤ a) (high : a < 0xE800) : regAt a = none := by
  have apart : ∀ r ∈ regRows, 0xE800 ≤ r.base ∨ r.base + r.sn * r.cn + r.si * r.ci + r.sj * r.cj < 0xC000 := by decide +kernel
  unfold regAt
  rw [List.findSome?_eq_none_iff]
  intro r isin
  cases hit : r.hit a with
  | none => rfl
  | some x =>
    have bounds := Row.hit_bounds hit
    have := apart r isin
    omega

/-! ### The word of an aligned block -/

/-- Four bytes at an aligned place are their word, every bit of it enabled. -/
theorem laneWord_whole (o : Nat) (b0 b1 b2 b3 : BitVec 8) :
    laneWord o o [some b0, some b1, some b2, some b3] = (leNat [b0, b1, b2, b3], 2 ^ 32 - 1) := by
  have place (k : Nat) : o + k - o = k := by omega
  have inside (k : Nat) : ¬ o + k < o := by omega
  have range : List.range 4 = [0, 1, 2, 3] := rfl
  unfold laneWord
  rw [range]
  simp only [List.foldl_cons, List.foldl_nil, inside, if_false, place]
  simp only [List.getD_cons_zero, List.getD_cons_succ, leNat]
  refine Prod.ext ?_ (by norm_num)
  dsimp only
  omega

/-- The word below the place of the bytes holds none of them. -/
theorem laneWord_below (o a : Nat) (l : List (Option (BitVec 8))) (below : a + 4 ≤ o) : laneWord o a l = (0, 0) := by
  have out (k : Nat) (low : k < 4) : a + k < o := by omega
  have range : List.range 4 = [0, 1, 2, 3] := rfl
  unfold laneWord
  rw [range]
  simp [out 1, out 2, out 3, show a < o by omega]

/-- The word above the four bytes holds none of them. -/
theorem laneWord_above (o : Nat) (b0 b1 b2 b3 : BitVec 8) : laneWord o (o + 4) [some b0, some b1, some b2, some b3] = (0, 0) := by
  have place (k : Nat) : o + 4 + k - o = 4 + k := by omega
  have inside (k : Nat) : ¬ o + 4 + k < o := by omega
  have range : List.range 4 = [0, 1, 2, 3] := rfl
  unfold laneWord
  rw [range]
  simp only [List.foldl_cons, List.foldl_nil, inside, if_false, place]
  rfl

theorem leNat_lt (b0 b1 b2 b3 : BitVec 8) : leNat [b0, b1, b2, b3] < 2 ^ 32 := by
  have h0 := b0.isLt
  have h1 := b1.isLt
  have h2 := b2.isLt
  have h3 := b3.isLt
  simp only [leNat]
  omega

/-- A word all of whose bits are enabled is the word written. -/
theorem mixWord_whole (old w : Nat) (fits : w < 2 ^ 32) : mixWord old w (2 ^ 32 - 1) = w := by
  unfold mixWord mixBits
  rw [Nat.xor_self, Nat.zero_and, Nat.zero_or, Nat.and_two_pow_sub_one_eq_mod, Nat.mod_eq_of_lt fits]

/-- A byte of a word of bytes. -/
theorem leNat_byte (b0 b1 b2 b3 : BitVec 8) (k : Nat) (low : k < 4) : BitVec.ofNat 8 (leNat [b0, b1, b2, b3] / 2 ^ (8 * k)) = [b0, b1, b2, b3][k] := by
  have h0 := b0.isLt
  have h1 := b1.isLt
  have h2 := b2.isLt
  have h3 := b3.isLt
  refine BitVec.eq_of_toNat_eq ?_
  simp only [leNat, BitVec.toNat_ofNat]
  interval_cases k
  · show _ = b0.toNat
    omega
  · show _ = b1.toNat
    omega
  · show _ = b2.toNat
    omega
  · show _ = b3.toNat
    omega

theorem leBytes_leNat (b0 b1 b2 b3 : BitVec 8) : leBytes 4 (leNat [b0, b1, b2, b3]) = [b0, b1, b2, b3] := by
  have one := leNat_byte b0 b1 b2 b3 0 (by decide)
  have two := leNat_byte b0 b1 b2 b3 1 (by decide)
  have three := leNat_byte b0 b1 b2 b3 2 (by decide)
  have four := leNat_byte b0 b1 b2 b3 3 (by decide)
  simp only [leBytes]
  rw [Nat.div_div_eq_div_mul, Nat.div_div_eq_div_mul]
  refine congrArg₂ List.cons ?_ (congrArg₂ List.cons ?_ (congrArg₂ List.cons ?_ (congrArg₂ List.cons ?_ rfl)))
  · simpa using one
  · exact two
  · exact three
  · exact four

/-! ### Refusals -/

/-- A refused request: what is recorded of it, the first of them with its place (R490). -/
theorem Dev.refuse_parts (d : Dev) (cause : Nat) (write : Bool) (bar o : Nat) (fits : cause < 8 ∧ bar < 4 ∧ o < 2 ^ 26) :
    let e := d.refuse cause write bar o
    e.flag REG_ERR.VALID = true ∧ e.get REG_ERR.COUNT = satInc REG_ERR.COUNT.w (d.get REG_ERR.COUNT) ∧ e.chs = d.chs ∧ e.time = d.time
      ∧ (d.flag REG_ERR.VALID = false → e.get REG_ERR.CAUSE = cause ∧ e.flag REG_ERR.WRITE = write ∧ e.get REG_ERR.BAR = bar ∧ e.get REG_ERR_ADDR.OFFSET = o)
      ∧ d.regsBut e [REG_ERR.VALID.at, REG_ERR.CAUSE.at, REG_ERR.WRITE.at, REG_ERR.BAR.at, REG_ERR.COUNT.at, REG_ERR_ADDR.OFFSET.at] := by
  obtain ⟨flag, count, chs⟩ := d.refuse_recorded cause write bar o
  have tail (x : Dev) (f : Fld) (other : REG_ERR.COUNT.id ≠ f.id) : ((x.count REG_ERR.COUNT).vector 26).get f = x.get f :=
    (Dev.vector_get _ _ _ _ _).trans (Dev.get_set_id _ _ _ _ _ _ _ _ other)
  have keys (x : Dev) (h : d.regsBut x [REG_ERR.VALID.at, REG_ERR.CAUSE.at, REG_ERR.WRITE.at, REG_ERR.BAR.at, REG_ERR.COUNT.at, REG_ERR_ADDR.OFFSET.at]) :
      d.regsBut ((x.count REG_ERR.COUNT).vector 26) [REG_ERR.VALID.at, REG_ERR.CAUSE.at, REG_ERR.WRITE.at, REG_ERR.BAR.at, REG_ERR.COUNT.at, REG_ERR_ADDR.OFFSET.at] :=
    Dev.regsBut_of_regs (Dev.regsBut_set REG_ERR.COUNT 0 0 _ h (by simp)) (Dev.vector_regs _ _)
  refine ⟨flag, count, chs, ?_⟩
  clear flag count chs
  unfold Dev.refuse
  cases valid : d.flag REG_ERR.VALID with
  | true => exact ⟨Dev.vector_time _ _, fun no => absurd no (by simp), keys d (d.regsBut_refl _)⟩
  | false =>
    refine ⟨Dev.vector_time _ _, fun _ => ?_, keys _ ?_⟩
    · simp only [Bool.false_eq_true, if_false]
      unfold Dev.flag Dev.raise
      rw [tail _ _ (by decide), tail _ _ (by decide), tail _ _ (by decide), tail _ _ (by decide)]
      simp (disch := decide) only [Dev.get_set_id, Dev.get_set_same]
      refine ⟨Nat.mod_eq_of_lt fits.1, ?_, Nat.mod_eq_of_lt fits.2.1, Nat.mod_eq_of_lt fits.2.2⟩
      cases write <;> rfl
    · exact Dev.regsBut_set REG_ERR_ADDR.OFFSET 0 0 o (Dev.regsBut_set REG_ERR.BAR 0 0 bar (Dev.regsBut_set REG_ERR.WRITE 0 0 _ (Dev.regsBut_set REG_ERR.CAUSE 0 0 cause
        (Dev.regsBut_set REG_ERR.VALID 0 0 1 (d.regsBut_refl _) (by simp)) (by simp)) (by simp)) (by simp)) (by simp)

/-! ### Mailbox SRAM -/

/-- A write of four bytes to a word of mailbox SRAM stores them (R496). -/
theorem busWrite_mailbox (x : WriteNews) (s : State) (o : Nat) (low : 0xC000 ≤ o) (high : o < 0xE800) (aligned : o % 4 = 0) (b0 b1 b2 b3 : BitVec 8) :
    busWrite x 0 o [some b0, some b1, some b2, some b3] s
      = s.withDev { s.dev with mbx := s.dev.mbx.writeBytes (o - 0xC000) [b0, b1, b2, b3] } := by
  have word (a : Nat) (here : a = o) : wordWrite x a (leNat [b0, b1, b2, b3]) (2 ^ 32 - 1) s
      = s.withDev { s.dev with mbx := s.dev.mbx.writeBytes (o - 0xC000) [b0, b1, b2, b3] } := by
    subst here
    unfold wordWrite
    rw [if_neg (by simp; omega), if_pos (by simp; omega)]
    dsimp only
    rw [mixWord_whole _ _ (leNat_lt ..), leBytes_leNat]
  have address (b : Nat) (small : b < 0x10000) : barAt 0 b = b := Nat.mod_eq_of_lt small
  rcases (show o % 8 = 0 ∨ o % 8 = 4 by omega) with lower | upper
  · have base : o - o % 8 = o := by omega
    unfold busWrite
    dsimp only
    rw [base, laneWord_whole, laneWord_above, address o (by omega)]
    dsimp only
    rw [if_neg (by simp), if_neg (by simp), if_pos rfl, if_neg (by norm_num)]
    exact word o rfl
  · have base : o - o % 8 = o - 4 := by omega
    have next : o - 4 + 4 = o := by omega
    unfold busWrite
    dsimp only
    rw [base, laneWord_below o (o - 4) _ (by omega), next, laneWord_whole, address (o - 4) (by omega), next]
    dsimp only
    rw [if_neg (by simp), if_neg (by simp), if_neg (by norm_num), if_pos rfl]
    exact word o rfl

/-- A read of a word of mailbox SRAM answers its bytes, and changes nothing (R496). -/
theorem Dev.busRead_mailbox (d : Dev) (o : Nat) (low : 0xC000 ≤ o) (high : o < 0xE800) (aligned : o % 4 = 0) :
    d.busRead 0 o [true, true, true, true] = { d with reply := { data := d.mbx.readBytes (o - 0xC000) 4 } } := by
  obtain ⟨b0, b1, b2, b3, bytes⟩ : ∃ b0 b1 b2 b3, d.mbx.readBytes (o - 0xC000) 4 = [b0, b1, b2, b3] := ⟨_, _, _, _, rfl⟩
  have here : d.laneRead o (2 ^ 32 - 1) true = (leNat [b0, b1, b2, b3], d) := by
    unfold Dev.laneRead Dev.wordRead Dev.readClear
    rw [if_neg (by norm_num), if_neg (by simp; omega), if_neg (by simp; omega), if_pos (by simp; omega)]
    dsimp only
    rw [if_pos rfl, regAt_mailbox o low high, bytes]
  have empty (a : Nat) : d.laneRead a 0 true = (0, d) := if_pos rfl
  have address (b : Nat) (small : b < 0x10000) : barAt 0 b = b := Nat.mod_eq_of_lt small
  have listed (f : Nat → BitVec 8) : (List.range [true, true, true, true].length).filterMap (fun k => if [true, true, true, true].getD k false then some (f k) else none)
      = [f 0, f 1, f 2, f 3] := rfl
  have lists (f : Nat → BitVec 8) (each : ∀ k (low : k < 4), f k = [b0, b1, b2, b3][k]) : [f 0, f 1, f 2, f 3] = [b0, b1, b2, b3] := by
    rw [each 0 (by decide), each 1 (by decide), each 2 (by decide), each 3 (by decide)]
    rfl
  have enabled : [true, true, true, true].map (fun e => if e = true then some (0 : BitVec 8) else none) = [some 0, some 0, some 0, some 0] := rfl
  rw [bytes]
  rcases (show o % 8 = 0 ∨ o % 8 = 4 by omega) with lower | upper
  · have base : o - o % 8 = o := by omega
    unfold Dev.busRead
    dsimp only
    rw [enabled]
    rw [base, laneWord_whole, laneWord_above, address o (by omega)]
    dsimp only
    rw [show (decide ((2 : Nat) ^ 32 - 1 = 0) || decide (0 = 0)) = true by simp, here]
    dsimp only
    rw [address (o + 4) (by omega), empty, listed]
    refine congrArg (fun l => ({ d with reply := { data := l } } : Dev))
      (lists (fun k => BitVec.ofNat 8 ((leNat [b0, b1, b2, b3] + 2 ^ 32 * 0) / 2 ^ (8 * ((o + k) % 8)))) fun k fits => ?_)
    rw [show (o + k) % 8 = k by omega, Nat.mul_zero, Nat.add_zero]
    exact leNat_byte b0 b1 b2 b3 k fits
  · have base : o - o % 8 = o - 4 := by omega
    have next : o - 4 + 4 = o := by omega
    unfold Dev.busRead
    dsimp only
    rw [enabled]
    rw [base, laneWord_below o (o - 4) _ (by omega), next, laneWord_whole, address (o - 4) (by omega)]
    dsimp only
    rw [show (decide (0 = 0) || decide ((2 : Nat) ^ 32 - 1 = 0)) = true by simp, empty]
    dsimp only
    rw [address o (by omega), here, listed]
    refine congrArg (fun l => ({ d with reply := { data := l } } : Dev))
      (lists (fun k => BitVec.ofNat 8 ((0 + 2 ^ 32 * leNat [b0, b1, b2, b3]) / 2 ^ (8 * ((o + k) % 8)))) fun k fits => ?_)
    rw [show (o + k) % 8 = 4 + k by omega, Nat.zero_add, Nat.mul_add, Nat.pow_add, ← Nat.div_div_eq_div_mul, Nat.mul_div_cancel_left _ (by norm_num)]
    exact leNat_byte b0 b1 b2 b3 k fits

/-! ### The branches of an access -/

/-- A read while the link is up whose request breaks rules. -/
theorem regRead_broken (s : State) (bar : Fin 3) (off : BitVec 26) (en : List Bool) (f : SramFinding) (up : s.dev.port.up = true)
    (broken : (brokenRules bar off.toNat en false false).isEmpty = false) :
    exec (.regRead bar off en f) s = .next (s.withDev (s.dev.refuseOne (brokenRules bar off.toNat en false false) false bar off.toNat).aborted) := by
  show execRegRead bar off en f s = _
  unfold execRegRead
  dsimp only
  rw [if_neg (by simp [up]), if_pos (by simp [broken])]

/-- A read of BAR0 that keeps the rules, is answered, and meets no error (R487). -/
theorem regRead_clean (s : State) (off : BitVec 26) (en : List Bool) (up : s.dev.port.up = true)
    (kept : brokenRules 0 off.toNat en false false = []) (answers : s.dev.answers 0 off.toNat = true) :
    exec (.regRead 0 off en .clean) s
      = .next (s.withDev { s.dev.busRead 0 off.toNat en with reply := { (s.dev.busRead 0 off.toNat en).reply with poison := false } }) := by
  show execRegRead 0 off en .clean s = _
  unfold execRegRead
  dsimp only
  rw [if_neg (by simp [up]), kept, if_neg (by decide), if_neg (by simp [answers]), show decide (SramFinding.clean = SramFinding.lost) = false from rfl, Bool.and_false]
  rfl

/-- A request that breaks one rule: its cause is 1, 2 or 3 (R489). -/
theorem brokenRules_one {bar : Fin 3} {o : Nat} {en : List Bool} {write poison : Bool} {c : Nat} (one : brokenRules bar o en write poison = [c]) : c < 8 := by
  have isin : c ∈ brokenRules bar o en write poison := one ▸ List.mem_singleton_self c
  unfold brokenRules at isin
  dsimp only at isin
  simp only [List.mem_append] at isin
  have small (p : Bool) (k : Nat) (isin : c ∈ if p then [k] else []) : c = k := by
    cases p with
    | true => exact List.mem_singleton.mp isin
    | false => exact absurd isin List.not_mem_nil
  rcases isin with (one | two) | three
  · exact (small _ _ one).symm ▸ (by decide)
  · exact (small _ _ two).symm ▸ (by decide)
  · exact (small _ _ three).symm ▸ (by decide)

/-- Four enabled bytes at an aligned place of BAR0 break no rule. -/
theorem brokenRules_word (o : Nat) (aligned : o % 4 = 0) (write : Bool) : brokenRules 0 o [true, true, true, true] write false = [] := by
  have same : (List.map (fun k => (o + k) / 8) [0, 1, 2, 3]).eraseDups = [o / 8] := by
    have d1 : (o + 1) / 8 = o / 8 := by omega
    have d2 : (o + 2) / 8 = o / 8 := by omega
    have d3 : (o + 3) / 8 = o / 8 := by omega
    simp [d1, d2, d3, List.eraseDups_cons]
  have all : (List.range [true, true, true, true].length).filter (fun k => [true, true, true, true].getD k false) = [0, 1, 2, 3] := rfl
  unfold brokenRules
  dsimp only
  rw [all, same]
  simp

/-- Settles O57, from what a refusal records and what a word of mailbox SRAM written or read leaves. -/
theorem hostAccesses : Obligations.HostAccesses := by
  unfold Obligations.HostAccesses
  intro s off
  dsimp only
  have small := off.isLt
  have refused (c : Nat) (write : Bool) (bar : Fin 3) (fits : c < 8) := s.dev.refuse_parts c write bar.val off.toNat ⟨fits, by omega, small⟩
  refine ⟨fun down => ⟨fun bar bytes p x => if_pos (by simp [down]), fun bar en f => if_pos (by simp [down]), fun bar => if_pos (by simp [down])⟩,
    fun up => ⟨fun bar bytes p x c broken => ?_, fun bar en f c broken => ?_, fun bar bytes x kept silent unlocked => ?_, fun bar other => ?_, fun low high aligned locked awake => ⟨?_, ?_⟩⟩⟩
  · refine ⟨s.dev.refuse c true bar off.toNat, ?_, refused c true bar (brokenRules_one broken)⟩
    show execRegWrite bar off bytes p x s = _
    unfold execRegWrite
    dsimp only
    rw [if_neg (by simp [up]), if_pos (by simp [broken]), broken]
    rfl
  · refine ⟨(s.dev.refuse c false bar off.toNat).aborted, ?_, refused c false bar (brokenRules_one broken), rfl⟩
    rw [regRead_broken s bar off en f up (by simp [broken]), broken]
    rfl
  · refine ⟨s.dev.refuse 4 true bar off.toNat, ?_, refused 4 true bar (by decide)⟩
    show execRegWrite bar off bytes false x s = _
    unfold execRegWrite
    dsimp only
    rw [if_neg (by simp [up]), if_neg (by simp [kept]), if_pos (by simp [silent])]
    unfold Dev.silent
    rw [if_neg (by simp [unlocked])]
  · refine ⟨(s.dev.refuse 4 false bar off.toNat).aborted, if_neg ?_, refused 4 false bar (by decide), rfl⟩
    simp only [up, Bool.not_true, Bool.false_or, Bool.and_eq_true, decide_eq_true_eq]
    tauto
  · intro bytes x four
    obtain ⟨b0, b1, b2, b3, rfl⟩ : ∃ b0 b1 b2 b3, bytes = [b0, b1, b2, b3] := List.length_eq_four.mp four
    have answers : s.dev.answers 0 off.toNat = true := by simp [Dev.answers, locked, awake]
    refine ⟨{ s.dev with mbx := s.dev.mbx.writeBytes (off.toNat - 0xC000) [b0, b1, b2, b3] }, ?_, rfl, fun i h => ?_, fun a out => ?_⟩
    · show execRegWrite 0 off [some b0, some b1, some b2, some b3] false x s = _
      unfold execRegWrite
      dsimp only
      have kept : brokenRules 0 off.toNat (List.map Option.isSome [some b0, some b1, some b2, some b3]) true false = [] := brokenRules_word off.toNat aligned true
      rw [if_neg (by simp [up]), kept, if_neg (by decide), if_neg (by simp [answers]), if_neg (by decide), if_neg (by simp),
        busWrite_mailbox x s off.toNat low high aligned]
    · exact Memory.read_writeBytes_inside _ _ _ _ h
    · exact Memory.read_writeBytes_outside _ _ _ _ out
  · have answers : s.dev.answers 0 off.toNat = true := by simp [Dev.answers, locked, awake]
    have kept := brokenRules_word off.toNat aligned false
    refine ⟨{ s.dev with reply := { data := s.dev.mbx.readBytes (off.toNat - 0xC000) 4 } }, ?_, rfl, rfl, rfl, rfl⟩
    rw [regRead_clean s off _ up kept answers, s.dev.busRead_mailbox off.toNat low high aligned]

end Sys2Proof.Machine
end

section
/-!
PROOF. The Stockroom and the I2C port (R573 to R575, R579, R583 to R585).
-/
namespace Sys2Proof.Machine
open Reg

/-! ### Wear stores (R584) -/

/-- Of two copies, the one put in the place of the older, of a later generation, is the newer. -/
theorem newerCopy_set {α : Type} (gen : α → Nat) (cs : List (Option α)) (two : cs.length = 2) (c : α) (later : gen c = (olderCopy gen cs).2) :
    newerCopy gen (cs.set (olderCopy gen cs).1 (some c)) = some c := by
  obtain ⟨a, b, rfl⟩ := List.length_eq_two.mp two
  cases a with
  | none => cases b with
    | none => rfl
    | some b =>
      have more : gen c = gen b + 1 := later
      exact if_neg (by omega)
  | some a => cases b with
    | none =>
      have more : gen c = gen a + 1 := later
      exact if_pos (by omega)
    | some b =>
      have eq : olderCopy gen [some a, some b] = if gen a < gen b then (0, gen b + 1) else (1, gen a + 1) := rfl
      by_cases less : gen a < gen b
      · rw [if_pos less] at eq
        rw [eq] at later ⊢
        have more : gen c = gen b + 1 := later
        exact if_neg (by omega)
      · rw [if_neg less] at eq
        rw [eq] at later ⊢
        have more : gen c = gen a + 1 := later
        exact if_pos (by omega)

/-! ### Segment tests (R579) -/

/-- A segment is brought back into service. -/
def Dev.segBack (n : Fin 8) (d : Dev) (k : Nat) : Dev := (d.clrBit HV_SEG.RETIRED n 0 k).setBit HV_SEG.ACTIVE n 0 k

/-- The segments brought back are the retired ones that are retired no longer. -/
theorem Dev.segBack_foldl (n : Fin 8) (k : Nat) (fits : k < 14) (l : List Nat) (d : Dev) :
    (l.foldl (Dev.segBack n) d).bit HV_SEG.RETIRED n 0 k = (d.bit HV_SEG.RETIRED n 0 k && !l.contains k) := by
  induction l generalizing d with
  | nil => simp
  | cons a l ih =>
    have here : (d.segBack n a).bit HV_SEG.RETIRED n 0 k = (d.clrBit HV_SEG.RETIRED n 0 a).bit HV_SEG.RETIRED n 0 k :=
      Dev.bit_of_get (Dev.get_set_id _ _ _ _ _ _ _ _ (by decide)) k
    rw [List.foldl_cons, ih, here, List.contains_cons]
    by_cases eq : k = a
    · subst eq
      rw [Dev.bit_clrBit_same, beq_self_eq_true, Bool.true_or, Bool.not_true, Bool.and_false, Bool.false_and]
    · rw [Dev.bit_clrBit_other _ _ _ _ _ _ eq fits, beq_false_of_ne eq, Bool.false_or]

/-- A segment test brings back the retired segments that pass and are not retired for good. -/
theorem Dev.segTest_retired (d : Dev) (n : Fin 8) (passed : Nat) (k : Nat) (fits : k < 14) (retired : d.bit HV_SEG.RETIRED n 0 k = true)
    (mends : d.bit STK_CHn_WEAR3.SEG_PERM n 0 k = false) : (d.segTest n passed).bit HV_SEG.RETIRED n 0 k = !bitAt passed k := by
  obtain ⟨-, -, shown⟩ := (((List.range 14).filter (fun k => d.bit HV_SEG.RETIRED n 0 k && bitAt passed k && !d.bit STK_CHn_WEAR3.SEG_PERM n 0 k)).foldl
    (Dev.segBack n) d).segShow_parts n
  refine (Dev.bit_of_get (Dev.regsBut_read shown _ _ _ rfl) k).trans ?_
  rw [Dev.segBack_foldl n k fits, retired]
  cases pass : bitAt passed k with
  | true => simp [pass, retired, mends, fits]
  | false => simp [pass]

/-! ### What the state of an output follows from -/

/-- The fields that the state of an output follows from. -/
def hvStateIds : List Nat := [HV_STAT.SC_LATCH.id, PORTER_STATUS.QUIET.id, CLK_STAT.LOCK.id, PWR_STAT.STATE.id]

/-- The state of an output follows from four fields, the Porter, the power state and the channels. -/
theorem Dev.hvState_keeps {d e : Dev} (n : Fin 8) (porter : e.porter = d.porter) (power : e.power = d.power) (chs : e.chs = d.chs)
    (regs : ∀ (f : Fld) (m i : Nat), f.id ∈ hvStateIds → e.get f m i = d.get f m i) : e.hvState n = d.hvState n := by
  have latch := regs HV_STAT.SC_LATCH n 0 (by decide)
  have quiet := regs PORTER_STATUS.QUIET 0 0 (by decide)
  have lock := regs CLK_STAT.LOCK 0 0 (by decide)
  have state := regs PWR_STAT.STATE 0 0 (by decide)
  unfold Dev.hvState Dev.hvOffCause Dev.railFault Dev.hvRemoved Dev.hvLatched Dev.hvForced Dev.asleep Dev.locked Dev.flag Dev.bit
  rw [latch, quiet, lock, state, porter, power, chs]

/-- A field written that the state of an output does not follow from. -/
theorem Dev.hvState_set (d : Dev) (f : Fld) (n : Fin 8) (m i v : Nat) (apart : f.id ∉ hvStateIds) : (d.set f m i v).hvState n = d.hvState n :=
  Dev.hvState_keeps n rfl rfl rfl fun _ _ _ isin => d.get_set_id _ _ _ _ _ _ _ fun eq => apart (eq ▸ isin)

/-! ### A powered hour (R583) -/

/-- The hour of one channel. -/
def Dev.hourCh (n : Fin 8) (d : Dev) : Dev :=
  if (d.count PLB_AGE.FULL_H n).hvState n = 2 then (d.count PLB_AGE.FULL_H n).count STK_CHn_WEAR0.HV_HOURS n else d.count PLB_AGE.FULL_H n

/-- The fields in which the hour of a channel counts. -/
def hourIds : List Nat := [PLB_AGE.FULL_H.id, STK_CHn_WEAR0.HV_HOURS.id]

/-- The hour of the device, before its channels'. -/
def Dev.hourStart (d : Dev) : Dev := { d with boot := { d.boot with calWait := d.boot.calWait - 1 } }.count STK_HOURS.HOURS

theorem Dev.hourCh_moves (n : Fin 8) (d : Dev) : d.movesOnly (d.hourCh n) hourIds := by
  have aged := Dev.movesOnly_count (d.movesOnly_refl hourIds) PLB_AGE.FULL_H n 0 (by decide)
  unfold Dev.hourCh
  split
  · exact Dev.movesOnly_count aged _ _ _ (by decide)
  · exact aged

/-- The state of an output does not follow from the hours counted. -/
theorem Dev.hvState_hours {d e : Dev} (h : d.movesOnly e hourIds) (n : Fin 8) : e.hvState n = d.hvState n := by
  obtain ⟨rest, regs⟩ := h
  have apart : ∀ k ∈ hvStateIds, k ∉ hourIds := by decide
  exact Dev.hvState_keeps n (by rw [rest]) (by rw [rest]) (by rw [rest]) fun f m i isin => regs f m i (apart _ isin)

theorem Dev.hourCh_other {n m : Fin 8} (diff : m ≠ n) (d : Dev) : (d.hourCh m).get STK_CHn_WEAR0.HV_HOURS n = d.get STK_CHn_WEAR0.HV_HOURS n := by
  have out : m.val ≠ n.val := fun eq => diff (Fin.ext eq)
  have aged : (d.count PLB_AGE.FULL_H m).get STK_CHn_WEAR0.HV_HOURS n = d.get STK_CHn_WEAR0.HV_HOURS n := Dev.get_set_idx _ _ _ _ _ _ _ _ out
  unfold Dev.hourCh
  split
  · exact (Dev.get_set_idx _ _ _ _ _ _ _ _ out).trans aged
  · exact aged

/-- A powered hour counts for the channels in DRIVE. -/
theorem Dev.hourCh_own (n : Fin 8) (d : Dev) : (d.hourCh n).get STK_CHn_WEAR0.HV_HOURS n
    = if d.hvState n = 2 then satInc 32 (d.get STK_CHn_WEAR0.HV_HOURS n) % 2 ^ 32 else d.get STK_CHn_WEAR0.HV_HOURS n := by
  have aged : (d.count PLB_AGE.FULL_H n).get STK_CHn_WEAR0.HV_HOURS n = d.get STK_CHn_WEAR0.HV_HOURS n := Dev.get_set_id _ _ _ _ _ _ _ _ (by decide)
  unfold Dev.hourCh
  rw [Dev.hvState_hours (Dev.movesOnly_count (d.movesOnly_refl hourIds) PLB_AGE.FULL_H n 0 (by decide)) n]
  by_cases drive : d.hvState n = 2
  · rw [if_pos drive, if_pos drive, ← aged]
    exact Dev.get_set_same _ _ _ _ _
  · rw [if_neg drive, if_neg drive]
    exact aged

theorem Dev.hours_moves (d : Dev) : d.movesOnly (d.eachCh Dev.hourCh) hourIds :=
  Dev.eachCh_keeps (fun e => d.movesOnly e hourIds) _ d (fun n _ h => Dev.movesOnly_trans h (Dev.hourCh_moves n _)) (d.movesOnly_refl _)

theorem Dev.hours_get (d : Dev) (n : Fin 8) : (d.eachCh Dev.hourCh).get STK_CHn_WEAR0.HV_HOURS n
    = if d.hvState n = 2 then satInc 32 (d.get STK_CHn_WEAR0.HV_HOURS n) % 2 ^ 32 else d.get STK_CHn_WEAR0.HV_HOURS n :=
  Dev.eachCh_turn n (fun e => d.movesOnly e hourIds ∧ e.get STK_CHn_WEAR0.HV_HOURS n = d.get STK_CHn_WEAR0.HV_HOURS n)
    (fun e => e.get STK_CHn_WEAR0.HV_HOURS n
      = if d.hvState n = 2 then satInc 32 (d.get STK_CHn_WEAR0.HV_HOURS n) % 2 ^ 32 else d.get STK_CHn_WEAR0.HV_HOURS n) _ d
    (fun _ diff _ h => ⟨Dev.movesOnly_trans h.1 (Dev.hourCh_moves _ _), (Dev.hourCh_other diff _).trans h.2⟩)
    (fun e h => (Dev.hourCh_own n e).trans (by rw [Dev.hvState_hours h.1, h.2])) (fun _ diff _ h => (Dev.hourCh_other diff _).trans h) ⟨d.movesOnly_refl _, rfl⟩

/-! ### Reads over I2C (R574) -/

/-- What a read over I2C leaves of the device: its channels, its start, and the registers but the port's own flags. -/
structure Dev.i2cSeen (d e : Dev) : Prop where
  chs : e.chs = d.chs
  boot : e.boot = d.boot
  regs : d.regsBut e [I2C_STAT.DENY.at, I2C_STAT.NO_ANSWER.at]

theorem Dev.i2cSeen_trans {c d e : Dev} (h : c.i2cSeen d) (k : d.i2cSeen e) : c.i2cSeen e :=
  ⟨k.chs.trans h.chs, k.boot.trans h.boot, Dev.regsBut_trans h.regs k.regs⟩

/-- What changes no register, channel or part of the start is seen by no read. -/
theorem Dev.i2cSeen_of_regs {d e : Dev} (regs : e.regs = d.regs) (chs : e.chs = d.chs) (boot : e.boot = d.boot) : d.i2cSeen e :=
  ⟨chs, boot, Dev.regsBut_of_regs (d.regsBut_refl _) regs⟩

/-- The registers, channels and start that two devices share. -/
def Dev.sameRead (d e : Dev) : Prop := e.regs = d.regs ∧ e.chs = d.chs ∧ e.boot = d.boot

theorem Dev.readLatch_same (d : Dev) (r : Requester) (a : Nat) (alone : Bool) : d.sameRead (d.readLatch r a alone) := by
  have shadow (f : Shadow → Shadow) : d.sameRead (d.onShadow r f) := by cases r <;> exact ⟨rfl, rfl, rfl⟩
  unfold Dev.readLatch
  split
  · exact ⟨rfl, rfl, rfl⟩
  · split
    · exact shadow _
    · split
      · exact shadow _
      · exact ⟨rfl, rfl, rfl⟩

theorem Dev.stopLeft_same (d : Dev) : d.sameRead d.stopLeft.2 := by
  unfold Dev.stopLeft
  dsimp only
  split
  · split
    · exact ⟨rfl, rfl, rfl⟩
    · exact ⟨rfl, rfl, rfl⟩
  · exact ⟨rfl, rfl, rfl⟩

theorem Dev.view_same (d : Dev) (r : Requester) (f : Fld) (n i : Nat) : d.sameRead (d.view r f n i).2 := by
  unfold Dev.view
  split
  · exact d.stopLeft_same
  · repeat' split
    all_goals exact ⟨rfl, rfl, rfl⟩

theorem Dev.viewCells_same (r : Requester) (n i : Nat) (was : Option Nat) (cs : List Cellf) (p : Nat × Dev) :
    p.2.sameRead (Dev.viewCells r n i was cs p).2 := by
  induction cs generalizing p with
  | nil => exact ⟨rfl, rfl, rfl⟩
  | cons c cs ih =>
    unfold Dev.viewCells
    split
    · exact ih p
    · obtain ⟨regs, chs, boot⟩ := p.2.view_same r c.fld n i
      obtain ⟨regs', chs', boot'⟩ := ih (p.1 + _, (p.2.view r c.fld n i).2)
      exact ⟨regs'.trans regs, chs'.trans chs, boot'.trans boot⟩

/-- A register's word is read without a change to any register. -/
theorem Dev.word_same (d : Dev) (r : Requester) (a : Nat) : d.sameRead (d.word r a).2 := by
  unfold Dev.word
  split
  · exact ⟨rfl, rfl, rfl⟩
  · exact Dev.viewCells_same _ _ _ _ _ (0, d)

theorem Dev.latchedWord_same (d : Dev) (who r : Requester) (a : Nat) : d.sameRead ((d.readLatch who a true).word r a).2 := by
  obtain ⟨regs, chs, boot⟩ := d.readLatch_same who a true
  obtain ⟨regs', chs', boot'⟩ := (d.readLatch who a true).word_same r a
  exact ⟨regs'.trans regs, chs'.trans chs, boot'.trans boot⟩

/-- What I2C serves follows from the power state and the start. -/
theorem Dev.i2cServes_seen {d e : Dev} (h : d.i2cSeen e) (a : Nat) : e.i2cServes a = d.i2cServes a := by
  unfold Dev.i2cServes
  dsimp only
  rw [Dev.regsBut_read h.regs PWR_STAT.STATE 0 0 (by decide), h.boot]

/-- One register read over I2C gives 4 bytes, all 0 where it is not served or does not answer. -/
theorem i2cWord_parts (marks : I2cMarks) (word : Nat) (p : List (BitVec 8) × Dev) (k : Nat) :
    ∃ w, (i2cWord marks word p k).1 = p.1 ++ leBytes 4 w ∧ p.2.i2cSeen (i2cWord marks word p k).2
      ∧ ((p.2.i2cServes (4 * ((word + k) % 0x4000)) = false ∨ k ∈ marks.silent) → w = 0) := by
  refine ⟨_, rfl, ?_⟩
  have raised (f : Fld) (own : f.at ∈ [I2C_STAT.DENY.at, I2C_STAT.NO_ANSWER.at]) : p.2.i2cSeen (p.2.raise f) :=
    ⟨rfl, rfl, Dev.regsBut_set f 0 0 1 (p.2.regsBut_refl _) own⟩
  unfold i2cWord
  dsimp only
  cases serves : p.2.i2cServes (4 * ((word + k) % 0x4000)) with
  | false =>
    rw [if_pos (by simp)]
    exact ⟨raised _ (by simp), fun _ => rfl⟩
  | true =>
    rw [if_neg (by simp)]
    cases silent : marks.silent.contains k with
    | true =>
      rw [if_pos rfl]
      exact ⟨raised _ (by simp), fun _ => rfl⟩
    | false =>
      rw [if_neg (by simp)]
      have out : k ∉ marks.silent := fun isin => by simp [isin] at silent
      obtain ⟨regs, chs, boot⟩ := p.2.latchedWord_same (latched ⟨.i2c, marks.shared.contains k⟩) .i2c (4 * ((word + k) % 0x4000))
      exact ⟨Dev.i2cSeen_of_regs regs chs boot, fun no => absurd no (by simp [out])⟩

/-- The bytes of a read over I2C: 4 for each register, all 0 for one that is not served or does not answer. -/
theorem i2cWords_parts (d : Dev) (marks : I2cMarks) (word count : Nat) :
    let p := (List.range count).foldl (i2cWord marks word) ([], d)
    p.1.length = 4 * count ∧ d.i2cSeen p.2
      ∧ ∀ k, k < count → (d.i2cServes (4 * ((word + k) % 0x4000)) = false ∨ k ∈ marks.silent) → (p.1.drop (4 * k)).take 4 = [0, 0, 0, 0] := by
  induction count with
  | zero => exact ⟨rfl, ⟨rfl, rfl, d.regsBut_refl _⟩, fun _ no => absurd no (by omega)⟩
  | succ m ih =>
    obtain ⟨len, seen, zeros⟩ := ih
    simp only [List.range_succ, List.foldl_append, List.foldl_cons, List.foldl_nil]
    generalize (List.range m).foldl (i2cWord marks word) ([], d) = p at len seen zeros ⊢
    obtain ⟨w, bytes, next, zero⟩ := i2cWord_parts marks word p m
    rw [Dev.i2cServes_seen seen] at zero
    rw [bytes]
    refine ⟨by rw [List.length_append, len, leBytes_length, Nat.mul_succ], Dev.i2cSeen_trans seen next, fun k low not => ?_⟩
    rcases Nat.lt_or_eq_of_le (Nat.lt_succ_iff.mp low) with before | rfl
    · rw [List.drop_append_of_le_length (by omega), List.take_append_of_le_length (by rw [List.length_drop]; omega)]
      exact zeros k before not
    · rw [← len, List.drop_left, zero not]
      rfl

/-- A read of one register over I2C is one word. -/
theorem i2cRead_one (s : State) (word : BitVec 14) (marks : I2cMarks) (on : s.dev.boot.vaon = true) :
    exec (.i2cRead word 1 marks) s = .next (s.withDev { (i2cWord marks word.toNat ([], s.dev) 0).2 with
      reply := { data := (i2cWord marks word.toNat ([], s.dev) 0).1 } }) := if_neg (by simp [on])

theorem word_place (word : BitVec 14) : (word.toNat + 0) % 0x4000 = word.toNat := Nat.mod_eq_of_lt word.isLt

theorem leBytes_zero : leBytes 4 0 = [0, 0, 0, 0] := by decide

theorem i2cWord_denied {marks : I2cMarks} {word : BitVec 14} {d : Dev} (not : d.i2cServes (4 * word.toNat) = false) :
    i2cWord marks word.toNat ([], d) 0 = ([0, 0, 0, 0], d.raise I2C_STAT.DENY) := by
  unfold i2cWord
  dsimp only
  rw [word_place, if_pos (by simp [not]), leBytes_zero, List.nil_append]

theorem i2cWord_silent {marks : I2cMarks} {word : BitVec 14} {d : Dev} (serves : d.i2cServes (4 * word.toNat) = true) (silent : 0 ∈ marks.silent) :
    i2cWord marks word.toNat ([], d) 0 = ([0, 0, 0, 0], d.raise I2C_STAT.NO_ANSWER) := by
  unfold i2cWord
  dsimp only
  rw [word_place, if_neg (by simp [serves]), if_pos (by simpa using silent), leBytes_zero, List.nil_append]

theorem i2cWord_answered {marks : I2cMarks} {word : BitVec 14} {d : Dev} (serves : d.i2cServes (4 * word.toNat) = true) (silent : 0 ∉ marks.silent) :
    i2cWord marks word.toNat ([], d) 0
      = (leBytes 4 ((d.readLatch (latched ⟨.i2c, marks.shared.contains 0⟩) (4 * word.toNat) true).word .i2c (4 * word.toNat)).1,
        ((d.readLatch (latched ⟨.i2c, marks.shared.contains 0⟩) (4 * word.toNat) true).word .i2c (4 * word.toNat)).2) := by
  unfold i2cWord
  dsimp only
  rw [word_place, if_neg (by simp [serves]), if_neg (by simpa using silent)]
  rfl

/-! ### Writes over I2C (R575) -/

/-- A write of `PWR_CTRL` over I2C. -/
theorem i2cWrite_power (s : State) (v : BitVec 32) (on : s.dev.boot.vaon = true) (up : s.dev.boot.up = true) :
    exec (.i2cWrite 0x400 v) s = .next (s.withDev (if bitAt v.toNat 0 then
      ((s.dev.wake 3).set PWR_CTRL.REQ 0 0 (bitsOf v.toNat 16 2)).powerGo (bitsOf v.toNat 16 2) 3
      else (s.dev.wake 3).set PWR_CTRL.REQ 0 0 (bitsOf v.toNat 16 2))) := by
  show execI2cWrite 0x400 v s = _
  unfold execI2cWrite
  dsimp only
  rw [if_neg (by simp [on]), if_neg (by decide), if_pos (by simp [up])]

/-- A write of `I2C_URGENT`. -/
theorem i2cWrite_urgent (s : State) (v : BitVec 32) (on : s.dev.boot.vaon = true) : exec (.i2cWrite 0x8D v) s = .next (runAll (urgent v.toNat) s) := by
  show execI2cWrite 0x8D v s = _
  unfold execI2cWrite
  dsimp only
  rw [if_neg (by simp [on]), if_pos (by decide)]

theorem runAll_one {f : Meaning} {s t : State} (h : f s = .next t) : runAll [f] s = t := by
  unfold runAll
  rw [h]
  rfl

/-- No wake comes to a device that is awake, or on its way. -/
theorem Dev.wake_awake (d : Dev) (src : Nat) (idle : d.power.entry = none) (awake : d.get PWR_STAT.STATE ≠ 1 ∧ d.get PWR_STAT.STATE ≠ 2) : d.wake src = d := by
  unfold Dev.wake
  rw [if_neg (by simp [idle]), if_neg (by simp [awake])]

/-- A wake begins where the device is in IDLE or SLEEP (R533). -/
theorem Dev.wake_asleep (d : Dev) (src : Nat) (idle : d.power.entry = none) (asleep : d.get PWR_STAT.STATE = 1 ∨ d.get PWR_STAT.STATE = 2) :
    d.wake src = ({ d with power := { d.power with left := d.get PWR_STAT.STATE } }.set PWR_STAT.STATE 0 0 3).set PWR_STAT.WAKE_SRC 0 0 src := by
  unfold Dev.wake
  rw [if_neg (by simp [idle]), if_pos (by simpa using asleep)]

/-- A request for IDLE or SLEEP in RUN begins the entry, or is refused where the device is busy (R531). -/
theorem Dev.powerRequest_run (d : Dev) (st src : Nat) (idle : d.power.entry = none) (run : d.get PWR_STAT.STATE = 0) (req : st = 1 ∨ st = 2) :
    d.powerRequest st src = if d.powerBusy then (d, true) else ({ d with power := { d.power with entry := some st } }, false) := by
  unfold Dev.powerRequest
  dsimp only
  rw [if_neg (by omega), if_neg (by simp [idle, run]), if_neg (by rw [run]; omega), if_neg (by omega), if_neg (by rw [run]; omega)]

/-- A segment test leaves the channel that the command names. -/
theorem Dev.segTest_command (d : Dev) (n : Fin 8) (passed : Nat) : (d.segTest n passed).get STK_CMD.CH = d.get STK_CMD.CH := by
  unfold Dev.segTest
  obtain ⟨-, -, shown⟩ := (((List.range 14).filter (fun k => d.bit HV_SEG.RETIRED n 0 k && bitAt passed k && !d.bit STK_CHn_WEAR3.SEG_PERM n 0 k)).foldl
    (Dev.segBack n) d).segShow_parts n
  refine (Dev.regsBut_read shown _ _ _ rfl).trans ?_
  exact foldl_keeps (fun e : Dev => e.get STK_CMD.CH = d.get STK_CMD.CH) (Dev.segBack n) _ d
    (fun e k h => ((Dev.get_set_id _ _ _ _ _ _ _ _ (by decide)).trans (Dev.get_set_id _ _ _ _ _ _ _ _ (by decide))).trans h) rfl

/-- What refuses IDLE and SLEEP does not follow from the request. -/
theorem Dev.powerBusy_req (d : Dev) (v : Nat) : (d.set PWR_CTRL.REQ 0 0 v).powerBusy = d.powerBusy := by
  have reads (f : Fld) (n : Nat) (other : PWR_CTRL.REQ.id ≠ f.id) : (d.set PWR_CTRL.REQ 0 0 v).get f n = d.get f n := Dev.get_set_id _ _ _ _ _ _ _ _ other
  have chs : (d.set PWR_CTRL.REQ 0 0 v).chs = d.chs := rfl
  unfold Dev.powerBusy
  simp only [reads SEQ_STAT.STATE _ (by decide), reads PLB_STAT.STATE _ (by decide), chs]

/-- A request by `GO` for IDLE or SLEEP in RUN: its entry begins, or it is refused with its flag (R531, R533). -/
theorem Dev.powerGo_run (d : Dev) (req src : Nat) (idle : d.power.entry = none) (run : d.get PWR_STAT.STATE = 0) (which : req = 1 ∨ req = 2) :
    (d.set PWR_CTRL.REQ 0 0 req).powerGo req src = if d.powerBusy then (d.set PWR_CTRL.REQ 0 0 req).raise PWR_STAT.ENTRY_REJ
      else { d.set PWR_CTRL.REQ 0 0 req with power := { d.power with entry := some req } } := by
  have state : (d.set PWR_CTRL.REQ 0 0 req).get PWR_STAT.STATE = 0 := (Dev.get_set_id _ _ _ _ _ _ _ _ (by decide)).trans run
  unfold Dev.powerGo
  dsimp only
  rw [Dev.powerRequest_run (d.set PWR_CTRL.REQ 0 0 req) req src idle state which, d.powerBusy_req]
  cases d.powerBusy <;> rfl

/-- A request written over I2C (R533, R575). -/
theorem i2cWrite_request (s : State) (v : BitVec 32) (on : s.dev.boot.vaon = true) (up : s.dev.boot.up = true) (idle : s.dev.power.entry = none) :
    let d := s.dev
    let req := bitsOf v.toNat 16 2
    let st := d.get PWR_STAT.STATE
    (bitAt v.toNat 0 = false → (st = 0 ∨ st = 3) → ∃ e, exec (.i2cWrite 0x400 v) s = .next (s.withDev e) ∧ e.get PWR_CTRL.REQ = req
        ∧ d.onlyRegs e [PWR_CTRL.REQ.at])
      ∧ (bitAt v.toNat 0 = false → (st = 1 ∨ st = 2) → ∃ e, exec (.i2cWrite 0x400 v) s = .next (s.withDev e) ∧ e.get PWR_CTRL.REQ = req
        ∧ e.get PWR_STAT.STATE = 3 ∧ e.get PWR_STAT.WAKE_SRC = 3 ∧ e.power = { d.power with left := st }
        ∧ d.regsBut e [PWR_CTRL.REQ.at, PWR_STAT.STATE.at, PWR_STAT.WAKE_SRC.at] ∧ e.chs = d.chs)
      ∧ (bitAt v.toNat 0 = true → st = 0 → (req = 1 ∨ req = 2) → d.powerBusy = false →
        ∃ e, exec (.i2cWrite 0x400 v) s = .next (s.withDev e) ∧ e.get PWR_CTRL.REQ = req ∧ e.power = { d.power with entry := some req }
        ∧ d.regsBut e [PWR_CTRL.REQ.at] ∧ e.chs = d.chs)
      ∧ (bitAt v.toNat 0 = true → st = 0 → (req = 1 ∨ req = 2) → d.powerBusy = true →
        ∃ e, exec (.i2cWrite 0x400 v) s = .next (s.withDev e) ∧ e.flag PWR_STAT.ENTRY_REJ = true ∧ d.onlyRegs e [PWR_CTRL.REQ.at, PWR_STAT.ENTRY_REJ.at]) := by
  intro d req st
  have write := i2cWrite_power s v on up
  have named (x : Dev) : (x.set PWR_CTRL.REQ 0 0 req).get PWR_CTRL.REQ = req := Dev.get_set_bitsOf x PWR_CTRL.REQ 0 0 v.toNat 16
  refine ⟨fun quiet awake => ?_, fun quiet asleep => ?_, fun go run which free => ?_, fun go run which busy => ?_⟩
  · rw [quiet, d.wake_awake 3 idle (by omega)] at write
    exact ⟨_, write, named d, Dev.onlyRegs_set _ _ _ _ (d.onlyRegs_refl _) (by simp)⟩
  · rw [quiet, d.wake_asleep 3 idle asleep] at write
    refine ⟨_, write, named _, ?_, ?_, rfl, ?_, rfl⟩
    · rw [if_neg (by decide), Dev.get_set_id _ _ _ _ _ _ _ _ (by decide), Dev.get_set_id _ _ _ _ _ _ _ _ (by decide), Dev.get_set_same]
      rfl
    · rw [if_neg (by decide), Dev.get_set_id _ _ _ _ _ _ _ _ (by decide), Dev.get_set_same]
      rfl
    · exact Dev.regsBut_set PWR_CTRL.REQ 0 0 _ (Dev.regsBut_set PWR_STAT.WAKE_SRC 0 0 3 (Dev.regsBut_set PWR_STAT.STATE 0 0 3
        (Dev.regsBut_of_regs (d.regsBut_refl _) rfl) (by simp)) (by simp)) (by simp)
  · rw [go, if_pos rfl, d.wake_awake 3 idle (by omega), d.powerGo_run req 3 idle run which, free] at write
    exact ⟨_, write, named d, rfl, Dev.regsBut_set PWR_CTRL.REQ 0 0 _ (d.regsBut_refl _) (by simp), rfl⟩
  · rw [go, if_pos rfl, d.wake_awake 3 idle (by omega), d.powerGo_run req 3 idle run which, busy] at write
    exact ⟨_, write, Dev.flag_raise_same _ _ _ _ (by decide), Dev.onlyRegs_set PWR_STAT.ENTRY_REJ 0 0 1
      (Dev.onlyRegs_set PWR_CTRL.REQ 0 0 _ (d.onlyRegs_refl _) (by simp)) (by simp)⟩

/-! ### The commands -/

/-- A segment test names its channel, and tests nothing unless the output is OFF (R579). -/
theorem stkSegTest_parts (s : State) (n : Fin 8) (passed : BitVec 14) (up : s.dev.boot.up = true) :
    ∃ e, exec (.stkSegTest n passed) s = .next (s.withDev e) ∧ e.get STK_CMD.CH = n.val ∧ (s.dev.hvState n ≠ 0 → s.dev.onlyRegs e [STK_CMD.CH.at])
      ∧ (s.dev.hvState n = 0 → ∀ k : Fin 14, s.dev.bit HV_SEG.RETIRED n 0 k = true → s.dev.bit STK_CHn_WEAR3.SEG_PERM n 0 k = false →
          e.bit HV_SEG.RETIRED n 0 k = !passed.getLsbD k) := by
  have ch : (s.dev.set STK_CMD.CH 0 0 n).get STK_CMD.CH = n.val := (Dev.get_set_same _ _ _ _ _).trans (Nat.mod_eq_of_lt n.isLt)
  have state := s.dev.hvState_set STK_CMD.CH n 0 0 n (by decide)
  have kept (f : Fld) (other : STK_CMD.CH.id ≠ f.id) (k : Nat) : (s.dev.set STK_CMD.CH 0 0 n).bit f n 0 k = s.dev.bit f n 0 k :=
    Dev.bit_of_get (Dev.get_set_id _ _ _ _ _ _ _ _ other) k
  have only : s.dev.onlyRegs (s.dev.set STK_CMD.CH 0 0 n) [STK_CMD.CH.at] := Dev.onlyRegs_set _ _ _ _ (s.dev.onlyRegs_refl _) (by simp)
  refine ⟨_, s.whileUp_up up (fun d => if (d.set STK_CMD.CH 0 0 n).hvState n = 0 then (d.set STK_CMD.CH 0 0 n).segTest n passed.toNat else d.set STK_CMD.CH 0 0 n), ?_⟩
  rw [state]
  generalize s.dev.set STK_CMD.CH 0 0 n = d at *
  by_cases off : s.dev.hvState n = 0
  · rw [if_pos off]
    refine ⟨(Dev.segTest_command _ _ _).trans ch, fun busy => absurd off busy, fun _ k retired mends => Dev.segTest_retired _ n _ k k.isLt ?_ ?_⟩
    · exact (kept _ (by decide) k).trans retired
    · exact (kept _ (by decide) k).trans mends
  · rw [if_neg off]
    exact ⟨ch, fun _ => only, fun no => absurd no off⟩

/-- Periods in their ranges are taken (R585). -/
theorem Dev.scrubWrite_taken (d : Dev) (w : Nat) (inside : 1 ≤ bitsOf w 16 8 ∧ bitsOf w 16 8 ≤ 168 ∧ 1 ≤ bitsOf w 0 10 ∧ bitsOf w 0 10 ≤ 1000) :
    d.scrubWrite w = (d.set STK_SCRUB.DRAM_T 0 0 (bitsOf w 16 8)).set STK_SCRUB.SRAM_T 0 0 (bitsOf w 0 10) := by
  unfold Dev.scrubWrite
  dsimp only
  rw [if_neg (by simp; omega)]

/-- Periods outside them are refused (R585). -/
theorem Dev.scrubWrite_refused (d : Dev) (w : Nat) (outside : ¬ (1 ≤ bitsOf w 16 8 ∧ bitsOf w 16 8 ≤ 168 ∧ 1 ≤ bitsOf w 0 10 ∧ bitsOf w 0 10 ≤ 1000)) :
    d.scrubWrite w = d.raise STK_STAT.CFG_REJ := by
  unfold Dev.scrubWrite
  dsimp only
  rw [if_pos (by simp; omega)]

/-- A powered hour counts, for the device and each channel in DRIVE (R583). -/
theorem powerOnHour_parts (s : State) (up : s.dev.boot.up = true) :
    ∃ e, exec .powerOnHour s = .next (s.withDev e) ∧ e.get STK_HOURS.HOURS = satInc 32 (s.dev.get STK_HOURS.HOURS) % 2 ^ 32
      ∧ e.boot = { s.dev.boot with calWait := s.dev.boot.calWait - 1 }
      ∧ (∀ n : Fin 8, e.get STK_CHn_WEAR0.HV_HOURS n
        = if s.dev.hvState n = 2 then satInc 32 (s.dev.get STK_CHn_WEAR0.HV_HOURS n) % 2 ^ 32 else s.dev.get STK_CHn_WEAR0.HV_HOURS n) ∧ e.chs = s.dev.chs := by
  have start : exec .powerOnHour s = .next (s.withDev (s.dev.hourStart.eachCh Dev.hourCh)) := s.whileUp_up up (fun d => d.hourStart.eachCh Dev.hourCh)
  have total : s.dev.hourStart.get STK_HOURS.HOURS = satInc 32 (s.dev.get STK_HOURS.HOURS) % 2 ^ 32 :=
    Dev.get_set_same { s.dev with boot := { s.dev.boot with calWait := s.dev.boot.calWait - 1 } } STK_HOURS.HOURS 0 0 _
  have hours (n : Fin 8) : s.dev.hourStart.get STK_CHn_WEAR0.HV_HOURS n = s.dev.get STK_CHn_WEAR0.HV_HOURS n :=
    Dev.get_set_id { s.dev with boot := { s.dev.boot with calWait := s.dev.boot.calWait - 1 } } STK_HOURS.HOURS _ 0 0 n 0 _ (by decide)
  have state (n : Fin 8) : s.dev.hourStart.hvState n = s.dev.hvState n :=
    Dev.hvState_set { s.dev with boot := { s.dev.boot with calWait := s.dev.boot.calWait - 1 } } STK_HOURS.HOURS n 0 0 _ (by decide)
  have boot : s.dev.hourStart.boot = { s.dev.boot with calWait := s.dev.boot.calWait - 1 } := rfl
  have chs : s.dev.hourStart.chs = s.dev.chs := rfl
  generalize s.dev.hourStart = d at *
  obtain ⟨rest, regs⟩ := d.hours_moves
  have each := d.hours_get
  generalize d.eachCh Dev.hourCh = e at *
  refine ⟨e, start, (regs _ _ _ (by decide)).trans total, by rw [rest]; exact boot, fun n => ?_, by rw [rest]; exact chs⟩
  rw [each, state, hours]

/-- A write of `I2C_URGENT` with the right key carries out the action of its code (R506, R575). -/
theorem i2cWrite_same (s : State) (v : BitVec 32) (on : s.dev.boot.vaon = true) (i : Instr) {f : Meaning} (means : exec i = f) (here : urgent v.toNat = [f]) :
    ∃ t, exec i s = .next t ∧ exec (.i2cWrite 0x8D v) s = .next t := by
  obtain ⟨t, run, -⟩ := everyCommandCompletes i s
  refine ⟨t, run, ?_⟩
  rw [i2cWrite_urgent s v on, here, runAll_one (means ▸ run)]

/-- No action of a write without the key, or with a reserved code. -/
theorem i2cWrite_none (s : State) (v : BitVec 32) (on : s.dev.boot.vaon = true) (none : urgent v.toNat = []) : exec (.i2cWrite 0x8D v) s = .next s := by
  rw [i2cWrite_urgent s v on, none]
  rfl

/-- The urgent action that a code names (R506). -/
def urgentOf (v act : Nat) : List Meaning :=
  match act with
  | 1 => [execUrgentQuiet (BitVec.ofNat 8 v)]
  | 2 => [execUrgentRelease (BitVec.ofNat 8 v)]
  | 3 => [execUrgentHalt]
  | 4 => [execUrgentHvOff]
  | 5 => [execUrgentClerkReset]
  | _ => []

theorem urgent_code {v : Nat} (key : ¬ bitsOf v 24 8 ≠ 0xC5) {a : Nat} (act : bitsOf v 8 3 = a) : urgent v = urgentOf v a := by
  subst act
  exact if_neg key

/-- A reserved code names none. -/
theorem urgentOf_reserved (v act : Nat) (reserved : act = 0 ∨ 5 < act) : urgentOf v act = [] := by
  rcases reserved with rfl | high
  · rfl
  · obtain ⟨k, rfl⟩ := Nat.exists_eq_add_of_le high
    rw [Nat.add_comm]
    rfl

/-- Settles O52, from the read of a word over I2C, the older of two copies, and the hour of each channel. -/
theorem stockroomAndI2c : Obligations.StockroomAndI2c := by
  unfold Obligations.StockroomAndI2c
  intro s
  dsimp only
  refine ⟨fun c isin up two => ?_, fun c isin up => ?_, fun n passed up => ?_, fun w up => ?_, fun up => ?_, fun word count marks on => ?_, fun word marks on serves answers => ?_,
    fun word count marks off => if_pos (by simp [off]), fun word marks on => ⟨fun not => ?_, fun serves silent => ?_⟩, fun v on => ?_, fun v on up idle => ?_,
    fun word v off => if_pos (by simp [off]), fun word v on other away => ?_, fun up => ?_⟩
  · have eq : exec c s = s.whileUp (fun d => d.wearStore true) := by
      rcases List.mem_pair.mp isin with rfl | rfl <;> rfl
    exact ⟨_, _, eq.trans (s.whileUp_up up _), newerCopy_set WearCopy.gen s.dev.flash.wear two (s.dev.wearNow _) rfl, rfl, rfl⟩
  · have eq : exec c s = s.whileUp (fun d => d.wearStore false) := by
      rcases List.mem_pair.mp isin with rfl | rfl <;> rfl
    exact ⟨_, eq.trans (s.whileUp_up up _), Dev.flag_raise_same _ _ _ _ (by decide), Dev.regsBut_set STK_STAT.SAVE_FAIL 0 0 1 (s.dev.regsBut_refl _) (by simp), rfl⟩
  · exact stkSegTest_parts s n passed up
  · refine ⟨fun inside => ?_, fun outside => ?_⟩
    · refine ⟨_, (s.whileUp_up up (fun d => d.scrubWrite w.toNat)).trans (s.next_of_eq (s.dev.scrubWrite_taken _ inside)), ?_, ?_, ?_⟩
      · exact (Dev.get_set_id _ _ _ _ _ _ _ _ (by decide)).trans (Dev.get_set_bitsOf _ STK_SCRUB.DRAM_T _ _ _ _)
      · exact Dev.get_set_bitsOf _ STK_SCRUB.SRAM_T _ _ _ _
      · exact Dev.onlyRegs_set _ _ _ _ (Dev.onlyRegs_set _ _ _ _ (s.dev.onlyRegs_refl _) (by simp)) (by simp)
    · exact ⟨_, (s.whileUp_up up (fun d => d.scrubWrite w.toNat)).trans (s.next_of_eq (s.dev.scrubWrite_refused _ outside)), Dev.flag_raise_same _ _ _ _ (by decide), Dev.raise_onlyRegs _ _ _ _⟩
  · obtain ⟨e, run, hours, boot, each, chs⟩ := powerOnHour_parts s up
    exact ⟨e, run, hours, boot, fun n drive => (each n).trans (if_pos drive), fun n other => (each n).trans (if_neg other), chs⟩
  · obtain ⟨len, seen, zeros⟩ := i2cWords_parts s.dev marks word.toNat count
    exact ⟨_, if_neg (by simp [on]), len, rfl, seen.chs, zeros⟩
  · obtain ⟨regs, chs, -⟩ := s.dev.latchedWord_same (latched ⟨.i2c, marks.shared.contains 0⟩) .i2c (4 * word.toNat)
    refine ⟨_, i2cRead_one s word marks on, ?_, ?_, ?_⟩
    · rw [i2cWord_answered serves answers]
      rfl
    · rw [i2cWord_answered serves answers]
      exact regs
    · rw [i2cWord_answered serves answers]
      exact chs
  · refine ⟨{ s.dev.raise I2C_STAT.DENY with reply := { data := [0, 0, 0, 0] } }, ?_, rfl, Dev.flag_raise_same s.dev I2C_STAT.DENY 0 0 (by decide),
      Dev.regsBut_set I2C_STAT.DENY 0 0 1 (s.dev.regsBut_refl _) (by simp)⟩
    rw [i2cRead_one s word marks on, i2cWord_denied not]
  · refine ⟨{ s.dev.raise I2C_STAT.NO_ANSWER with reply := { data := [0, 0, 0, 0] } }, ?_, rfl, Dev.flag_raise_same s.dev I2C_STAT.NO_ANSWER 0 0 (by decide),
      Dev.regsBut_set I2C_STAT.NO_ANSWER 0 0 1 (s.dev.regsBut_refl _) (by simp)⟩
    rw [i2cRead_one s word marks on, i2cWord_silent serves silent]
  · split
    next wrong => exact i2cWrite_none s v on (if_pos wrong)
    next right =>
      refine ⟨fun act => i2cWrite_same s v on _ rfl (urgent_code right act), fun act => i2cWrite_same s v on _ rfl (urgent_code right act),
        fun act => i2cWrite_same s v on _ rfl (urgent_code right act), fun act => i2cWrite_same s v on _ rfl (urgent_code right act),
        fun act => i2cWrite_same s v on _ rfl (urgent_code right act), fun act => i2cWrite_none s v on ((urgent_code right rfl).trans (urgentOf_reserved _ _ act))⟩
  · exact i2cWrite_request s v on up idle
  · refine ⟨s.dev.raise I2C_STAT.DENY, ?_, Dev.flag_raise_same _ _ _ _ (by decide), Dev.raise_onlyRegs _ _ _ _⟩
    show execI2cWrite word v s = _
    unfold execI2cWrite
    dsimp only
    rw [if_neg (by simp [on]), if_neg (by omega), if_neg ?_]
    rcases away with away | down
    · simp; omega
    · simp [down]
  · exact ⟨_, s.whileUp_up up (fun d => d.count I2C_STAT.TMO), Dev.get_set_same _ _ _ _ _, Dev.onlyRegs_set _ _ _ _ (s.dev.onlyRegs_refl _) (by simp)⟩

end Sys2Proof.Machine
end

section
/-!
PROOF. Reset and boot (R524, R527, R536, R540, R548, R550, R567, R579): the statement fails on a bank that holds a value wider than its field.
-/
namespace Sys2Proof.Machine
open Reg

/-- A device whose register bank holds 2^14 for the 14 bits of channel 0's `SEG_PERM`: no write stores such a value, and the statement, over
every state, does not exclude it. -/
def widePermanent : Dev := { ({} : Dev) with regs := [(STK_CHn_WEAR3.SEG_PERM.at 0, 2 ^ 14)] }

/-- Refutes O53: over POR_N low the segments of `widePermanent` retired for good read back cut to the field's width, where the statement claims the value
that the bank held. -/
theorem not_resetAndBoot : ¬ Obligations.ResetAndBoot := by
  intro h
  obtain ⟨low, -⟩ := h (State.reset.withDev widePermanent)
  obtain ⟨t, run, -, segs, -⟩ := low rfl
  obtain ⟨kept, -, -⟩ := segs 0
  have same : widePermanent.porLow = t.dev := congrArg (fun o : Host.Outcome State Fault Refusal => match o with | .next t => t.dev | _ => {}) run
  rw [← same] at kept
  exact absurd kept (by decide +kernel)

end Sys2Proof.Machine
end

section
/-!
PROOF. IDLE, SLEEP and the wake: what their entry and their end leave (R364, R387, R531 to R535).
-/
namespace Sys2Proof.Machine
open Reg

/-! ### Links, ranks and channels -/

theorem Dev.keepsClock_links {d e : Dev} (h : d.links e) : d.keepsClock e := by
  have apart : ∀ x ∈ clockIds, x ∉ linkIds := by decide
  exact ⟨h.own, h.power, fun f m i isin => h.regs f m i (apart _ isin)⟩

theorem Dev.keepsClock_fire (d : Dev) (c : Nat) : d.keepsClock (d.fire c) :=
  Dev.keepsClock_rest (Dev.fire_regs ..) (Dev.fire_ownWait ..) (Dev.fire_power ..)

theorem Dev.keepsClock_linkGone (d : Dev) (p : Nat) : d.keepsClock (d.linkGone p) := by
  unfold Dev.linkGone
  extract_lets a b gone
  have set {e : Dev} (he : d.keepsClock e) (f : Fld) (n v : Nat) (out : f.id ∉ clockIds) : d.keepsClock (e.set f n 0 v) := Dev.keepsClock_set he f n 0 v out
  have ha : d.keepsClock a := set (set (set (set d.keepsClock_refl _ _ _ (by decide)) _ _ _ (by decide)) _ _ _ (by decide)) _ _ _ (by decide)
  have hb : d.keepsClock b := Dev.keepsClock_trans (set (set ha RING_STAT.LINK_CHG 0 1 (by decide)) RING_CNT.LOSSES 0 _ (by decide)) (Dev.keepsClock_fire _ _)
  clear_value b
  exact Dev.keepsClock_set (Dev.keepsClock_trans hb (Dev.keepsClock_rest (by rfl) (by rfl) (by rfl))) RING_STAT.CROSS 0 0 0 (by decide)

theorem Dev.keepsClock_linkDown (d : Dev) (p : Nat) (rev : Bool) : d.keepsClock (d.linkDown p rev) := by
  rw [Dev.linkDown_eq]
  exact Dev.keepsClock_trans (d.keepsClock_linkGone p) (Dev.keepsClock_links (d.links_clockGone _ p rev))

theorem Dev.keepsClock_selfRefresh (d : Dev) (n r : Nat) : d.keepsClock (d.selfRefresh n r) := by
  have debt : d.keepsClock (d.setDebt n r 0) := by
    unfold Dev.setDebt
    split
    · exact Dev.keepsClock_set d.keepsClock_refl _ _ _ _ (by decide)
    · exact Dev.keepsClock_set d.keepsClock_refl _ _ _ _ (by decide)
  unfold Dev.selfRefresh
  split
  · exact Dev.keepsClock_set (Dev.keepsClock_set debt DMC_RANKr.PD n r 0 (by decide)) DMC_RANKr.SELF_REF n r 1 (by decide)
  · exact d.keepsClock_refl

theorem Dev.keepsClock_framesShow (d : Dev) (n : Nat) : d.keepsClock (d.framesShow n) := by
  unfold Dev.framesShow
  extract_lets u held a
  have checks : d.keepsClock a := by
    unfold a
    split
    · exact d.keepsClock_refl
    · exact Dev.keepsClock_set d.keepsClock_refl MSN_STAT.CHECK_BUSY 0 0 1 (by decide)
  exact Dev.keepsClock_set (Dev.keepsClock_set checks _ _ _ _ (by decide)) _ _ _ _ (by decide)

theorem Dev.keepsClock_retain (d : Dev) (n : Fin 8) : d.keepsClock (d.retain n) := by
  unfold Dev.retain
  extract_lets a pins mine keep src b
  have refreshed : d.keepsClock a := Dev.keepsClock_trans (d.keepsClock_selfRefresh n 0) (Dev.keepsClock_selfRefresh _ n 1)
  split
  · exact refreshed
  · have kept : a.keepsClock b := Dev.keepsClock_rest rfl rfl rfl
    exact Dev.keepsClock_trans refreshed (Dev.keepsClock_trans kept (b.keepsClock_framesShow n))

theorem Dev.keepsClock_sleepCh (d : Dev) (n : Fin 8) (none : d.ownWait = []) : d.keepsClock (d.sleepCh n) := by
  unfold Dev.sleepCh
  extract_lets a b c tip base e f src
  have stops : d.keepsClock (if d.seqIdle n then d else d.stopNow n) := by
    split
    · exact d.keepsClock_refl
    · exact Dev.keepsClock_haltsAll (Dev.halts_all (d.stopNow_halts n none).1)
  have ha : d.keepsClock a := Dev.keepsClock_trans stops (Dev.keepsClock_onlyCh (Dev.abortSlot_onlyCh _ n))
  have hb : d.keepsClock b := Dev.keepsClock_trans ha (a.keepsClock_slotEnd n (ha.own.trans none))
  clear_value b
  have he : d.keepsClock e := Dev.keepsClock_trans hb (Dev.keepsClock_trans (Dev.keepsClock_onlyCh (b.onlyCh_onCh n _)) (Dev.keepsClock_onlyCh (Dev.hvDisable_onlyCh _ n)))
  have hf : d.keepsClock f := Dev.keepsClock_set he MSN_CHn_STAT.STARVED n 0 0 (by decide)
  split
  · exact hf
  · exact Dev.keepsClock_set (Dev.keepsClock_trans hf (Dev.keepsClock_rest (by rfl) (by rfl) (by rfl))) MSN_CHn_STAT.READY n 0 0 (by decide)

theorem Dev.keepsClock_sleepDev (d : Dev) (none : d.ownWait = []) : d.keepsClock d.sleepDev := by
  unfold Dev.sleepDev
  extract_lets a b src1 src2 c e
  have ha : d.keepsClock a := d.keepsClock_marchEnd 5 none
  have hb : d.keepsClock b := Dev.keepsClock_set (Dev.keepsClock_set ha _ _ _ _ (by decide)) _ _ _ _ (by decide)
  have hc : d.keepsClock c := Dev.keepsClock_trans hb (Dev.keepsClock_rest rfl rfl rfl)
  have he : d.keepsClock e := by
    unfold e
    split
    · exact Dev.keepsClock_trans hc (c.keepsClock_linkDown 0 false)
    · exact hc
  split
  · exact Dev.keepsClock_trans he (e.keepsClock_linkDown 1 false)
  · exact he

/-! ### The entry ends -/

/-- The captures of one channel held for IDLE: their records end (R271). -/
def idleTaps (p : Dev × Memory) (n : Fin 8) : Dev × Memory :=
  let q := [0, 1, 2, 3].foldl (fun q k => endRecord n k 5 q) p
  (q.1.onCh n (fun c => { c with sieve := { c.sieve with capHold := true } }), q.2)

theorem keepsClock_idleTaps (p : Dev × Memory) (n : Fin 8) : p.1.keepsClock (idleTaps p n).1 := by
  unfold idleTaps
  extract_lets q
  have ends : p.1.keepsClock q.1 := foldl_keeps (fun q : Dev × Memory => p.1.keepsClock q.1) (fun q k => endRecord n k 5 q) [0, 1, 2, 3] p
    (fun q k h => Dev.keepsClock_trans h (Dev.keepsClock_captures (captures_endRecord n k 5 q))) p.1.keepsClock_refl
  clear_value q
  exact Dev.keepsClock_trans ends (Dev.keepsClock_onlyCh (q.1.onlyCh_onCh n (fun c => { c with sieve := { c.sieve with capHold := true } })))

/-- What no request waits for stays as it is. -/
theorem Dev.powerHeld_none (d : Dev) (none : d.power.held = Option.none) : d.powerHeld = d := by
  unfold Dev.powerHeld
  rw [none]

/-- The state that an entry ends in shows once the channels have entered it. -/
def Dev.entered (d : Dev) (st : Nat) : Dev :=
  let d := d.eachCh (fun n d => d.retain n)
  let d := if st = 2 then d.eachCh (fun n d => d.sleepCh n) else d
  let d := d.set PWR_STAT.STATE 0 0 st
  if st = 2 then d.sleepDev else d

theorem Dev.entered_parts (d : Dev) (st : Nat) (fits : st < 4) (none : d.ownWait = []) :
    (d.entered st).get PWR_STAT.STATE = st ∧ (d.entered st).power = d.power := by
  unfold Dev.entered
  extract_lets a b c
  have ha : d.keepsClock a := Dev.eachCh_keeps (fun e => d.keepsClock e) _ d (fun n e h => Dev.keepsClock_trans h (e.keepsClock_retain n)) d.keepsClock_refl
  have hb : d.keepsClock b := by
    unfold b
    split
    · exact Dev.eachCh_keeps (fun e => d.keepsClock e) _ a (fun n e h => Dev.keepsClock_trans h (e.keepsClock_sleepCh n (h.own.trans none))) ha
    · exact ha
  have shown : c.get PWR_STAT.STATE = st := (Dev.get_set_same _ _ _ _ _).trans (Nat.mod_eq_of_lt fits)
  have power : c.power = d.power := hb.power
  have own : c.ownWait = [] := hb.own.trans none
  clear_value c
  split
  · have slept := c.keepsClock_sleepDev own
    exact ⟨(slept.regs PWR_STAT.STATE 0 0 (by decide)).trans shown, slept.power.trans power⟩
  · exact ⟨shown, power⟩

/-- The Sieves and captures as an entry leaves them (R271). -/
def entryTaps (st : Nat) (p : Dev × Memory) : Dev × Memory := if st = 2 then pauseSieves p else allCh.foldl idleTaps p

theorem keepsClock_entryTaps (st : Nat) (p : Dev × Memory) : p.1.keepsClock (entryTaps st p).1 := by
  unfold entryTaps
  split
  · exact (pauseSieves_parts p).1
  · exact foldl_keeps (fun q : Dev × Memory => p.1.keepsClock q.1) idleTaps allCh p (fun q n h => Dev.keepsClock_trans h (keepsClock_idleTaps q n)) p.1.keepsClock_refl

/-- The entry has ended, before what it keeps of the device enters the state. -/
def Dev.entryOver (d : Dev) : Dev := { d with power := { d.power with entry := none } }

theorem entryDone_dev (d : Dev) (m : Memory) (st : Nat) (entry : d.power.entry = some st) :
    (entryDone (d, m)).1 = ((entryTaps st (d.entryOver, m)).1.entered st).powerHeld := by
  unfold entryDone
  dsimp only
  rw [entry]
  rfl

/-- An entry ends in the state that was asked (R531, R534). -/
theorem entryDone_parts (d : Dev) (m : Memory) (st : Nat) (entry : d.power.entry = some st) (fits : st < 4) (held : d.power.held = none) (none : d.ownWait = []) :
    (entryDone (d, m)).1.get PWR_STAT.STATE = st ∧ (entryDone (d, m)).1.power.entry = Option.none := by
  have taps := keepsClock_entryTaps st (d.entryOver, m)
  have ended : d.entryOver.power = { d.power with entry := Option.none } := rfl
  have own : (entryTaps st (d.entryOver, m)).1.ownWait = [] := taps.own.trans none
  have power : (entryTaps st (d.entryOver, m)).1.power = { d.power with entry := Option.none } := taps.power.trans ended
  rw [entryDone_dev d m st entry]
  generalize (entryTaps st (d.entryOver, m)).1 = e at *
  obtain ⟨state, same⟩ := e.entered_parts st fits own
  have all := same.trans power
  rw [Dev.powerHeld_none _ (by rw [all]; exact held), all]
  exact ⟨state, rfl⟩

/-! ### The wake ends -/

theorem Dev.keepsClock_refuse (d : Dev) (cause : Nat) (write : Bool) (bar off : Nat) : d.keepsClock (d.refuse cause write bar off) := by
  have counted (e : Dev) (h : d.keepsClock e) : d.keepsClock ((e.count REG_ERR.COUNT).vector 26) :=
    Dev.keepsClock_trans (Dev.keepsClock_set h REG_ERR.COUNT 0 0 _ (by decide)) (Dev.keepsClock_rest (Dev.vector_regs ..) (Dev.vector_ownWait ..) (Dev.vector_power ..))
  have set {x : Dev} (h : d.keepsClock x) (f : Fld) (v : Nat) (out : f.id ∉ clockIds) : d.keepsClock (x.set f 0 0 v) := Dev.keepsClock_set h f 0 0 v out
  unfold Dev.refuse
  refine counted _ ?_
  cases d.flag REG_ERR.VALID with
  | true => exact d.keepsClock_refl
  | false =>
    exact set (set (set (set (set d.keepsClock_refl REG_ERR.VALID 1 (by decide)) REG_ERR.CAUSE cause (by decide)) REG_ERR.WRITE _ (by decide))
      REG_ERR.BAR bar (by decide)) REG_ERR_ADDR.OFFSET off (by decide)

theorem Dev.keepsClock_rankWake (d : Dev) (n r : Nat) : d.keepsClock (d.rankWake n r) :=
  Dev.keepsClock_set (Dev.keepsClock_set d.keepsClock_refl DMC_RANKr.PD n r 0 (by decide)) DMC_RANKr.SELF_REF n r 0 (by decide)

theorem Dev.keepsClock_fwdShow (d : Dev) : d.keepsClock d.fwdShow :=
  foldl_keeps (fun e => d.keepsClock e) _ _ _ (fun _ _ h => Dev.keepsClock_set h RING_Pp_STAT.FWD _ _ _ (by decide)) d.keepsClock_refl

/-- The awake state shows, the accesses refused meanwhile are recorded, and the ranks leave self-refresh (R386, R533). -/
def Dev.awake (d : Dev) : Dev :=
  let late := d.power.refused
  let d : Dev := { d with power := { d.power with left := 0, refused := [] } }
  let d := d.set PWR_STAT.STATE 0 0 0
  let d := late.foldl (fun d x => d.refuse x.1 x.2.1 x.2.2.1 x.2.2.2) d
  d.eachCh (fun n d => d.rankWake n 0 |>.rankWake n 1)

theorem Dev.awake_parts (d : Dev) : d.awake.get PWR_STAT.STATE = 0 ∧ d.awake.power.held = d.power.held := by
  unfold Dev.awake
  extract_lets late src a b c
  have shown : b.get PWR_STAT.STATE = 0 := Dev.get_set_same a PWR_STAT.STATE 0 0 0
  have held : b.power.held = d.power.held := rfl
  have hc : b.keepsClock c := foldl_keeps (fun e => b.keepsClock e) _ _ _ (fun e x h => Dev.keepsClock_trans h (e.keepsClock_refuse _ _ _ _)) b.keepsClock_refl
  have he : b.keepsClock (c.eachCh (fun n d => (d.rankWake n 0).rankWake n 1)) :=
    Dev.eachCh_keeps (fun e => b.keepsClock e) _ c (fun n e h => Dev.keepsClock_trans h (Dev.keepsClock_trans (e.keepsClock_rankWake n 0) (Dev.keepsClock_rankWake _ n 1))) hc
  exact ⟨(he.regs PWR_STAT.STATE 0 0 (by decide)).trans shown, (congrArg Power.held he.power).trans held⟩

/-- The counter has a gap after SLEEP, on every channel (R22, R535). -/
def Dev.gapped (d : Dev) : Dev := (d.raise CRS_STAT.GAP).eachCh (fun n d => d.raise DDS_STAT.GAP n)

theorem Dev.gapped_parts (d : Dev) :
    let e := d.gapped
    e.flag CRS_STAT.GAP = true ∧ (∀ n : Fin 8, e.flag DDS_STAT.GAP n = true) ∧ e.get PWR_STAT.STATE = d.get PWR_STAT.STATE ∧ e.power = d.power := by
  have first : (d.raise CRS_STAT.GAP).flag CRS_STAT.GAP = true := Dev.flag_raise_same _ _ _ _ (by decide)
  have state : (d.raise CRS_STAT.GAP).get PWR_STAT.STATE = d.get PWR_STAT.STATE := Dev.get_set_id _ _ _ _ _ _ _ _ (by decide)
  have power : (d.raise CRS_STAT.GAP).power = d.power := rfl
  unfold Dev.gapped
  generalize d.raise CRS_STAT.GAP = c at *
  obtain ⟨only, same⟩ := Dev.eachCh_keeps (fun e : Dev => c.movesOnly e [DDS_STAT.GAP.id] ∧ e.power = c.power) (fun n d => d.raise DDS_STAT.GAP n) c
    (fun n e h => ⟨Dev.movesOnly_set h.1 _ _ _ _ (by decide), h.2⟩) ⟨c.movesOnly_refl _, rfl⟩
  refine ⟨(Dev.flag_of_get (only.2 CRS_STAT.GAP 0 0 (by decide))).trans first, fun n => ?_, (only.2 PWR_STAT.STATE 0 0 (by decide)).trans state, same.trans power⟩
  refine Dev.eachCh_turn n (fun _ => True) (fun e : Dev => e.flag DDS_STAT.GAP n = true) _ c (fun _ _ _ _ => trivial) (fun e _ => e.flag_raise_same _ _ _ (by decide))
    (fun m other e h => ?_) trivial
  exact (Dev.flag_of_get (Dev.get_set_idx _ _ _ _ _ _ _ _ (fun eq => other (Fin.ext eq)))).trans h

/-- The clock of a device that slept counts anew (R535). -/
def Dev.clockAnew (d : Dev) : Dev :=
  { d with ev := { d.ev with trigLast := d.ev.trigLast.map (fun _ => none) }, time := { d.time with lock := d.time.abs } }

/-- A joined device that slept heads an island until it rejoins (R535). -/
def Dev.headIsland (d : Dev) (st : Nat) : Dev :=
  (((d.noUp (if st = 4 then d.get CLK_STAT.SRC else 3)).ringState 5).raise RING_STAT.ISL_HEAD).fwdShow

/-- What a wake does to the clock and the ring (R535). -/
def Dev.wakeRing (d : Dev) (slept : Bool) : Dev :=
  let st := d.ringSt
  let d := if !slept then d else d.clockAnew
  if slept && (st = 3 || st = 4) then (d.headIsland st).fire 5 else if slept && st = 6 then d.headIsland st else d

theorem Dev.keepsClock_headIsland (d : Dev) (st : Nat) : d.keepsClock (d.headIsland st) := by
  have state := Dev.keepsClock_trans (Dev.keepsClock_links (d.links_noUp (if st = 4 then d.get CLK_STAT.SRC else 3))) (Dev.keepsClock_links (Dev.links_ringState _ 5))
  exact Dev.keepsClock_trans (Dev.keepsClock_set state RING_STAT.ISL_HEAD 0 0 1 (by decide)) (Dev.keepsClock_fwdShow _)

theorem Dev.keepsClock_wakeRing (d : Dev) (slept : Bool) : d.keepsClock (d.wakeRing slept) := by
  have anew : d.keepsClock (if !slept then d else d.clockAnew) := by
    split
    · exact d.keepsClock_refl
    · exact Dev.keepsClock_rest rfl rfl rfl
  unfold Dev.wakeRing
  extract_lets st a
  have ha : d.keepsClock a := anew
  clear_value a
  split
  · exact Dev.keepsClock_trans ha (Dev.keepsClock_trans (a.keepsClock_headIsland st) (Dev.keepsClock_fire _ _))
  · split
    · exact Dev.keepsClock_trans ha (a.keepsClock_headIsland st)
    · exact ha

theorem Dev.wakeDone_eq (d : Dev) (waking : d.get PWR_STAT.STATE = 3) : d.wakeDone
    = ((if d.power.left = 2 then d.awake.gapped else d.awake).wakeRing (decide (d.power.left = 2))).powerHeld := by
  unfold Dev.wakeDone
  rw [if_neg (by simp [waking])]
  rfl

/-- A wake ends in RUN, from SLEEP with a gap (R535). -/
theorem Dev.wakeDone_parts (d : Dev) (waking : d.get PWR_STAT.STATE = 3) (held : d.power.held = none) :
    d.wakeDone.get PWR_STAT.STATE = 0
      ∧ (d.power.left = 2 → d.wakeDone.flag CRS_STAT.GAP = true ∧ ∀ n : Fin 8, d.wakeDone.flag DDS_STAT.GAP n = true) := by
  obtain ⟨state, still⟩ := d.awake_parts
  rw [held] at still
  obtain ⟨gap, gaps, state', power'⟩ := d.awake.gapped_parts
  rw [d.wakeDone_eq waking]
  by_cases slept : d.power.left = 2
  · rw [if_pos slept]
    have ring := d.awake.gapped.keepsClock_wakeRing (decide (d.power.left = 2))
    rw [Dev.powerHeld_none _ (by rw [ring.power, power']; exact still)]
    exact ⟨(ring.regs PWR_STAT.STATE 0 0 (by decide)).trans (state'.trans state), fun _ => ⟨(Dev.flag_of_get (ring.regs CRS_STAT.GAP 0 0 (by decide))).trans gap,
      fun n => (Dev.flag_of_get (ring.regs DDS_STAT.GAP n 0 (by decide))).trans (gaps n)⟩⟩
  · rw [if_neg slept]
    have ring := d.awake.keepsClock_wakeRing (decide (d.power.left = 2))
    rw [Dev.powerHeld_none _ (by rw [ring.power]; exact still)]
    exact ⟨(ring.regs PWR_STAT.STATE 0 0 (by decide)).trans state, fun no => absurd no slept⟩

end Sys2Proof.Machine
end

section
/-!
PROOF. Power states, temperatures, flash suspends and automatic stores (R294, R530 to R535, R545, R551, R567).
-/
namespace Sys2Proof.Machine
open Reg

/-! ### A reading of a sensor -/

/-- A sensor's reading, as it shows and warns, before a threshold acts (R551, R553). -/
def Dev.tempRead (d : Dev) (hv : Bool) (s : Nat) (t : Int) : Dev :=
  let d := d.tempShow hv s t
  let d := d.thermWarn (if hv then 9 + s else s) (if hv then d.get PWR_TWARN.HV else d.get PWR_TWARN.LOG) t
  let d := if s < 8 then d.slotDrift (Fin.ofNat 8 s) else d
  if !hv && s < 8 then d.delayBand (Fin.ofNat 8 s) t else d

theorem Dev.tempSample_logic (d : Dev) (s : Nat) (t : Int) : d.tempSample false s t
    = if 2000 < t then ((if 1840 < t then (d.tempRead false s t).tsdLogic else d.tempRead false s t).thermHold, true)
      else (if 1840 < t then (d.tempRead false s t).tsdLogic else d.tempRead false s t, false) := if_neg (by simp)

theorem Dev.tempSample_hv (d : Dev) (s : Nat) (t : Int) (sensor : s < 8) : d.tempSample true s t
    = if 2400 < t then ((if 2240 < t then (d.tempRead true s t).tsdDie (dieOf s) else d.tempRead true s t).thermHold, true)
      else (if 2240 < t then (d.tempRead true s t).tsdDie (dieOf s) else d.tempRead true s t, false) := if_neg (by simp; omega)

/-- The register that a sensor shows in. -/
def tempFld (hv : Bool) : Fld := if hv then PWR_THVs.TEMP else PWR_TLOGs.TEMP

/-- What a reading leaves: its register shows it, and the thermal state stands. -/
theorem Dev.tempShow_parts (d : Dev) (hv : Bool) (s : Nat) (t : Int) (low : -32768 ≤ t) (high : t ≤ 32767) :
    let e := d.tempShow hv s t
    e.getS (tempFld hv) s = t ∧ e = { d with regs := e.regs } := by
  cases hv with
  | false =>
    have shown := d.getS_set PWR_TLOGs.TEMP s 0 t rfl low high
    unfold Dev.tempShow
    simp only [Bool.false_eq_true, if_false]
    have kept (x : Dev) (f : Fld) (n v : Nat) (other : f.id ≠ PWR_TLOGs.TEMP.id) (h : x.getS PWR_TLOGs.TEMP s = t) : (x.set f n 0 v).getS PWR_TLOGs.TEMP s = t :=
      (congrArg (signed 16) (Dev.get_set_id _ _ _ _ _ _ _ _ other)).trans h
    split
    · exact ⟨kept _ _ _ _ (by decide) (kept _ _ _ _ (by decide) (kept _ _ _ _ (by decide) shown)), rfl⟩
    · exact ⟨kept _ _ _ _ (by decide) (kept _ _ _ _ (by decide) shown), rfl⟩
  | true =>
    have shown := d.getS_set PWR_THVs.TEMP s 0 t rfl low high
    unfold Dev.tempShow
    simp only [if_true]
    have kept (x : Dev) (f : Fld) (n v : Nat) (other : f.id ≠ PWR_THVs.TEMP.id) (h : x.getS PWR_THVs.TEMP s = t) : (x.set f n 0 v).getS PWR_THVs.TEMP s = t :=
      (congrArg (signed 16) (Dev.get_set_id _ _ _ _ _ _ _ _ other)).trans h
    split
    · exact ⟨kept _ _ _ _ (by decide) (kept _ _ _ _ (by decide) (kept _ _ _ _ (by decide) shown)), rfl⟩
    · exact ⟨kept _ _ _ _ (by decide) (kept _ _ _ _ (by decide) shown), rfl⟩

/-- A warning noted, or noted over. -/
def Dev.warnMark (d : Dev) (k : Nat) (b : Bool) : Dev := { d with porter := { d.porter with warned := d.porter.warned.set k b } }

/-- A warning threshold passed or left: of the registers its flag moves, of the Porter what was warned of. -/
theorem Dev.thermWarn_parts (d : Dev) (k lim : Nat) (t : Int) :
    (∃ w, (d.thermWarn k lim t).porter = { d.porter with warned := w }) ∧ (d.thermWarn k lim t).ownWait = d.ownWait
      ∧ d.regsBut (d.thermWarn k lim t) [PWR_STAT.THERM_WARN.at] := by
  have eq : d.thermWarn k lim t = if !d.porter.warned.getD k false && decide ((lim : Int) * 16 < t) then ((d.warnMark k true).raise PWR_STAT.THERM_WARN).fire 9
      else if d.porter.warned.getD k false && decide (t ≤ (lim : Int) * 16 - 80) then d.warnMark k false else d := rfl
  have marked (b : Bool) : (d.warnMark k b).porter = { d.porter with warned := d.porter.warned.set k b } ∧ (d.warnMark k b).ownWait = d.ownWait
      ∧ d.regsBut (d.warnMark k b) [PWR_STAT.THERM_WARN.at] := ⟨rfl, rfl, d.regsBut_refl _⟩
  rw [eq]
  split
  · obtain ⟨porter, own, regs⟩ := marked true
    exact ⟨⟨_, (Dev.fire_porter _ _).trans porter⟩, (Dev.fire_ownWait _ _).trans own,
      Dev.regsBut_of_regs (Dev.regsBut_set PWR_STAT.THERM_WARN 0 0 1 regs (by simp)) (Dev.fire_regs _ _)⟩
  · split
    · obtain ⟨porter, own, regs⟩ := marked false
      exact ⟨⟨_, porter⟩, own, regs⟩
    · exact ⟨⟨d.porter.warned, rfl⟩, rfl, d.regsBut_refl _⟩

theorem Dev.slotDrift_onlyCh (d : Dev) (n : Fin 8) : d.onlyCh (d.slotDrift n) n := by
  unfold Dev.slotDrift
  split
  · exact d.onlyCh_refl n
  · split
    · exact d.onlyCh_onCh n _
    · exact d.onlyCh_refl n

/-- What a reading leaves of the device: its register shows it, and no shutdown and no wait begins. -/
theorem Dev.tempRead_parts (d : Dev) (hv : Bool) (s : Nat) (t : Int) (low : -32768 ≤ t) (high : t ≤ 32767) :
    let e := d.tempRead hv s t
    e.getS (tempFld hv) s = t ∧ (∃ w, e.porter = { d.porter with warned := w }) ∧ e.ownWait = d.ownWait := by
  unfold Dev.tempRead
  extract_lets a b c e src
  obtain ⟨shown, rest⟩ : a.getS (tempFld hv) s = t ∧ a = { d with regs := a.regs } := d.tempShow_parts hv s t low high
  have porter : a.porter = d.porter := by rw [rest]
  have own : a.ownWait = d.ownWait := by rw [rest]
  obtain ⟨⟨w, warned⟩, waits, regs⟩ : (∃ w, b.porter = { a.porter with warned := w }) ∧ b.ownWait = a.ownWait ∧ a.regsBut b [PWR_STAT.THERM_WARN.at] :=
    a.thermWarn_parts _ _ t
  have hb : b.getS (tempFld hv) s = t ∧ b.porter = { d.porter with warned := w } ∧ b.ownWait = d.ownWait := by
    refine ⟨?_, warned.trans (by rw [porter]), waits.trans own⟩
    cases hv with
    | false => exact (congrArg (signed 16) (Dev.regsBut_read regs PWR_TLOGs.TEMP s 0 (by decide))).trans shown
    | true => exact (congrArg (signed 16) (Dev.regsBut_read regs PWR_THVs.TEMP s 0 (by decide))).trans shown
  have moved {x y : Dev} {n : Fin 8} (only : x.onlyCh y n) (h : x.getS (tempFld hv) s = t ∧ x.porter = { d.porter with warned := w } ∧ x.ownWait = d.ownWait) :
      y.getS (tempFld hv) s = t ∧ y.porter = { d.porter with warned := w } ∧ y.ownWait = d.ownWait := by
    rw [only.1]
    exact h
  have hc : c.getS (tempFld hv) s = t ∧ c.porter = { d.porter with warned := w } ∧ c.ownWait = d.ownWait := by
    unfold c
    split
    · exact moved (b.slotDrift_onlyCh _) hb
    · exact hb
  clear_value c
  unfold e
  split
  · obtain ⟨temp, porter, own⟩ := moved (c.delayBand_onlyCh (Fin.ofNat 8 s) t) hc
    exact ⟨temp, ⟨w, porter⟩, own⟩
  · exact ⟨hc.1, ⟨w, hc.2.1⟩, hc.2.2⟩

/-! ### The first stage on the logic die (R567) -/

/-- Every channel stopped and its supply removed, for the thermal shutdown of the logic die. -/
def Dev.tsdStop (d : Dev) : Dev := ({ d with porter := { d.porter with tsdLog := true } }.stopAll).removeHv d

theorem Dev.removeHv_parts (d was : Dev) :
    (d.removeHv was).porter = { d.porter with hvReady := false } ∧ (d.removeHv was).regs = d.regs ∧ (d.removeHv was).ownWait = d.ownWait := by
  have own := Dev.eachCh_keeps (fun e : Dev => e.ownWait = d.ownWait) (fun n d => d.rampDown n (was.hvRemoved n)) { d with porter := { d.porter with hvReady := false } }
    (fun n e h => by rw [(e.rampDown_onlyCh n (was.hvRemoved n)).1]; exact h) rfl
  obtain ⟨porter, regs, -⟩ := ({ d with porter := { d.porter with hvReady := false } } : Dev).rampAll_parts (fun n => was.hvRemoved n)
  exact ⟨porter, regs, own⟩

theorem Dev.tsdStop_parts (d : Dev) (none : d.ownWait = []) :
    let e := d.tsdStop
    e.porter = { d.porter with tsdLog := true, hvReady := false } ∧ e.ownWait = [] ∧ (∀ n : Fin 8, e.get SEQ_STAT.STATE n = 0)
      ∧ ∀ f m i, f.id ∉ haltIds → e.get f m i = d.get f m i := by
  obtain ⟨stops, states⟩ := Dev.stopAll_parts { d with porter := { d.porter with tsdLog := true } } none
  obtain ⟨-, -, stopped, -, -, -, own⟩ := Dev.haltsAll_fields stops
  have regs := stops.regs
  unfold Dev.tsdStop
  generalize Dev.stopAll { d with porter := { d.porter with tsdLog := true } } = a at *
  obtain ⟨porter, same, waits⟩ := a.removeHv_parts d
  refine ⟨?_, waits.trans (own.trans none), fun n => (Dev.get_of_regs same _ _ _).trans (states n).1, fun f m i out => (Dev.get_of_regs same _ _ _).trans (regs f m i out)⟩
  rw [porter, stopped]

theorem Dev.tsdLogic_eq (d : Dev) (cool : d.porter.tsdLog = false) :
    d.tsdLogic = (if d.tsdStop.flag PORTER_CTRL.THERM_HALT then d.tsdStop.assertHalt 4 else d.tsdStop).tsdStage := if_neg (by simp [cool])

/-- Every channel stopped by a HALT reads STOPPED. -/
theorem Dev.halting_stopped (d : Dev) (none : d.ownWait = []) (n : Fin 8) : d.halting.get SEQ_STAT.STATE n = 0 := by
  obtain ⟨-, states⟩ := Dev.stopAll_parts { d with porter := { d.porter with halt := true } } none
  exact (states n).1

/-- A HALT asserted leaves stopped channels stopped. -/
theorem Dev.assertHalt_stopped (d : Dev) (src : Nat) (none : d.ownWait = []) (stopped : ∀ n : Fin 8, d.get SEQ_STAT.STATE n = 0) (n : Fin 8) :
    (d.assertHalt src).get SEQ_STAT.STATE n = 0 := by
  rw [Dev.assertHalt_eq]
  split
  · exact (Dev.get_set_id _ _ _ _ _ _ _ _ (by decide)).trans (stopped n)
  · have states := (d.setBit PORTER_HALT.SRC 0 0 src).halting_stopped none n
    generalize (d.setBit PORTER_HALT.SRC 0 0 src).halting = h at *
    rw [Dev.haltOut_eq]
    simp only [Dev.fire_get]
    exact states

/-- A stage of thermal shutdown latches its cause. -/
theorem Dev.tsdStage_parts (d : Dev) :
    let e := d.tsdStage
    e.bit PORTER_FAULT.CAUSE 0 0 5 = true ∧ e.porter = d.porter ∧ e.boot = d.boot ∧ ∀ f m i, f.id ≠ PORTER_FAULT.CAUSE.id → e.get f m i = d.get f m i := by
  unfold Dev.tsdStage
  split
  next latched => exact ⟨(Dev.bit_of_get (Dev.fire_get _ _ _ _ _) 5).trans latched, Dev.fire_porter _ _, Dev.fire_boot _ _, fun _ _ _ _ => Dev.fire_get _ _ _ _ _⟩
  next => exact ⟨d.fault_latched 5 (by decide), Dev.fault_porter _ _, Dev.fault_boot _ _, fun f m i other => d.fault_get 5 f m i other⟩

/-- The shutdown of the logic die: it is held, its cause latched, and every channel stopped. -/
theorem Dev.tsdLogic_parts (d : Dev) (cool : d.porter.tsdLog = false) (none : d.ownWait = []) (k : Nat) :
    let e := d.tsdLogic
    e.porter.tsdLog = true ∧ e.bit PORTER_FAULT.CAUSE 0 0 5 = true ∧ (∀ n : Fin 8, e.get SEQ_STAT.STATE n = 0) ∧ e.getS PWR_TLOGs.TEMP k = d.getS PWR_TLOGs.TEMP k := by
  obtain ⟨porter, own, stopped, regs⟩ := d.tsdStop_parts none
  rw [d.tsdLogic_eq cool]
  generalize d.tsdStop = a at *
  have halted : (if a.flag PORTER_CTRL.THERM_HALT then a.assertHalt 4 else a).porter.tsdLog = true
      ∧ (∀ n : Fin 8, (if a.flag PORTER_CTRL.THERM_HALT then a.assertHalt 4 else a).get SEQ_STAT.STATE n = 0)
      ∧ (if a.flag PORTER_CTRL.THERM_HALT then a.assertHalt 4 else a).get PWR_TLOGs.TEMP k = d.get PWR_TLOGs.TEMP k := by
    split
    · obtain ⟨held, -, -, -, -, others⟩ := a.assertHalt_parts 4 (by decide) own
      exact ⟨by rw [held, porter], a.assertHalt_stopped 4 own stopped, (others _ _ _ (by decide) (by decide)).trans (regs _ _ _ (by decide))⟩
    · exact ⟨by rw [porter], stopped, regs _ _ _ (by decide)⟩
  generalize (if a.flag PORTER_CTRL.THERM_HALT then a.assertHalt 4 else a) = b at *
  obtain ⟨latched, same, -, others⟩ := b.tsdStage_parts
  obtain ⟨tsd, states, temp⟩ := halted
  exact ⟨by rw [same]; exact tsd, latched, fun n => (others _ _ _ (by decide)).trans (states n), congrArg (signed 16) ((others _ _ _ (by decide)).trans temp)⟩

/-! ### The second stage: the device held in reset -/

/-- The records of channel n that survive a reset put back (R579), before what follows from them shows. -/
def Dev.porKept (d e : Dev) (n : Fin 8) : Dev :=
  let e := (e.set HV_SEG.ACTIVE n 0 (d.get HV_SEG.ACTIVE n)).set HV_SEG.RETIRED n 0 (d.get HV_SEG.RETIRED n)
  (e.set STK_CHn_WEAR3.SEG_PERM n 0 (d.get STK_CHn_WEAR3.SEG_PERM n)).onCh n (fun c => { c with hv := { c.hv with segRet := d.chs[n].hv.segRet } })

/-- The records of channel n that survive a reset (R579). -/
def Dev.porKeep (d e : Dev) (n : Fin 8) : Dev := (d.porKept e n).segShow n

theorem Dev.ilimRefresh_boot (d : Dev) (n : Fin 8) : (d.ilimRefresh n).boot = d.boot := by
  unfold Dev.ilimRefresh
  split
  · rfl
  · rfl

theorem Dev.segShow_rest (d : Dev) (n : Fin 8) : (d.segShow n).boot = d.boot ∧ (d.segShow n).porter = d.porter :=
  ⟨Dev.ilimRefresh_boot _ n, Dev.ilimRefresh_porter _ n⟩

theorem Dev.porKept_cause (d e : Dev) (n : Fin 8) : (d.porKept e n).get PORTER_LAST.CAUSE = e.get PORTER_LAST.CAUSE := by
  show (((e.set HV_SEG.ACTIVE n 0 _).set HV_SEG.RETIRED n 0 _).set STK_CHn_WEAR3.SEG_PERM n 0 _).get PORTER_LAST.CAUSE = _
  rw [Dev.get_set_id _ _ _ _ _ _ _ _ (by decide), Dev.get_set_id _ _ _ _ _ _ _ _ (by decide), Dev.get_set_id _ _ _ _ _ _ _ _ (by decide)]

theorem Dev.porKeep_parts (d e : Dev) (n : Fin 8) :
    (d.porKeep e n).boot = e.boot ∧ (d.porKeep e n).porter = e.porter ∧ (d.porKeep e n).get PORTER_LAST.CAUSE = e.get PORTER_LAST.CAUSE := by
  obtain ⟨-, -, shown⟩ := (d.porKept e n).segShow_parts n
  obtain ⟨boot, porter⟩ := (d.porKept e n).segShow_rest n
  exact ⟨boot.trans rfl, porter.trans rfl, (Dev.regsBut_read shown _ _ _ rfl).trans (d.porKept_cause e n)⟩

/-- The block under POR_N, before the records that survive are put back. -/
def Dev.porNew (d : Dev) (cause : Nat) : Dev :=
  let new : Dev := { flash := d.flash, out := d.out, fresh := d.fresh, reply := d.reply, port := { perst := d.port.perst }, boot := { vaon := d.boot.vaon, por := d.boot.por, rail := d.boot.rail, straps := d.boot.straps }, porter := { clr := d.porter.clr, haltIn := d.porter.haltIn, hvEn := d.porter.hvEn, thermHold := d.porter.thermHold } }
  let new := (new.variantShow.set PORTER_LAST.CAUSE 0 0 cause).set PWR_STAT.RAIL_LOW 0 0 (d.get PWR_STAT.RAIL_LOW)
  new.set PWR_RAIL.GOOD 0 0 (d.get PWR_RAIL.GOOD % 1024)

theorem Dev.porReset_eq (d : Dev) (cause : Nat) : d.porReset cause = allCh.foldl (Dev.porKeep d) (d.porNew cause) := rfl

theorem Dev.variantShow_rest (d : Dev) : d.variantShow.boot = d.boot ∧ d.variantShow.porter = d.porter := by
  unfold Dev.variantShow
  split
  · exact ⟨rfl, rfl⟩
  · exact ⟨rfl, rfl⟩

/-- A reset holds the device, and its cause shows (R536). -/
theorem Dev.porReset_parts (d : Dev) (cause : Nat) (fits : cause < 16) :
    (d.porReset cause).boot.up = false ∧ (d.porReset cause).get PORTER_LAST.CAUSE = cause ∧ (d.porReset cause).porter.thermHold = d.porter.thermHold := by
  rw [Dev.porReset_eq]
  refine foldl_keeps (fun e : Dev => e.boot.up = false ∧ e.get PORTER_LAST.CAUSE = cause ∧ e.porter.thermHold = d.porter.thermHold) (Dev.porKeep d) allCh _
    (fun e n h => ?_) ?_
  · obtain ⟨boot, porter, last⟩ := d.porKeep_parts e n
    rw [boot, porter, last]
    exact h
  · unfold Dev.porNew
    extract_lets a b
    obtain ⟨boot, porter⟩ := a.variantShow_rest
    refine ⟨(congrArg Boot.up boot :), ?_, (congrArg Porter.thermHold porter :)⟩
    show ((((a.variantShow.set PORTER_LAST.CAUSE 0 0 cause).set PWR_STAT.RAIL_LOW 0 0 _)).set PWR_RAIL.GOOD 0 0 _).get PORTER_LAST.CAUSE = cause
    rw [Dev.get_set_id _ _ _ _ _ _ _ _ (by decide), Dev.get_set_id _ _ _ _ _ _ _ _ (by decide), Dev.get_set_same]
    exact Nat.mod_eq_of_lt fits

/-- A device past its second threshold is held as under POR_N (R567). -/
theorem Dev.thermHold_parts (d : Dev) :
    d.thermHold.boot.up = false ∧ d.thermHold.get PORTER_LAST.CAUSE = 3 ∧ d.thermHold.porter.thermHold = true := by
  obtain ⟨-, porter, -, -⟩ := Dev.tsdStage_parts { d with porter := { d.porter with thermHold := true } }
  obtain ⟨up, last, hold⟩ := (Dev.tsdStage { d with porter := { d.porter with thermHold := true } }).porReset_parts 3 (by decide)
  exact ⟨up, last, hold.trans (congrArg Porter.thermHold porter)⟩

/-! ### The commands -/

theorem tempSample_run (s : State) (up : s.dev.boot.up = true) (hv : Bool) (k : Fin 9) (t : BitVec 16) : exec (.tempSample hv k t) s
    = .next { s with dev := (s.dev.tempSample hv k t.toInt).1, mem := if (s.dev.tempSample hv k t.toInt).2 then [] else s.mem } := if_neg (by simp [up])

/-- A reading of a sensor of the logic die (R567). -/
theorem tempSample_log (s : State) (up : s.dev.boot.up = true) (k : Fin 9) (t : BitVec 16) :
    (t.toInt ≤ 1840 → ∃ e, exec (.tempSample false k t) s = .next (s.withDev e) ∧ e.getS PWR_TLOGs.TEMP k = t.toInt ∧ e.porter.tsdLog = s.dev.porter.tsdLog)
      ∧ (1840 < t.toInt → t.toInt ≤ 2000 → s.dev.porter.tsdLog = false → s.dev.ownWait = [] → ∃ e, exec (.tempSample false k t) s = .next (s.withDev e)
        ∧ e.getS PWR_TLOGs.TEMP k = t.toInt ∧ e.porter.tsdLog = true ∧ e.bit PORTER_FAULT.CAUSE 0 0 5 = true ∧ ∀ n : Fin 8, e.get SEQ_STAT.STATE n = 0)
      ∧ (2000 < t.toInt → ∃ u, exec (.tempSample false k t) s = .next u ∧ u.mem = [] ∧ u.pending = s.pending ∧ u.dev.boot.up = false
        ∧ u.dev.get PORTER_LAST.CAUSE = 3 ∧ u.dev.porter.thermHold = true) := by
  have run := tempSample_run s up false k t
  obtain ⟨shown, ⟨w, porter⟩, own⟩ := s.dev.tempRead_parts false k t.toInt t.le_toInt (Int.le_of_lt_add_one t.toInt_lt)
  rw [s.dev.tempSample_logic k t.toInt] at run
  generalize s.dev.tempRead false k t.toInt = e at *
  have tsd : e.porter.tsdLog = s.dev.porter.tsdLog := by rw [porter]
  refine ⟨fun cool => ?_, fun warm below off none => ?_, fun hot => ?_⟩
  · rw [if_neg (by omega), if_neg (by omega)] at run
    exact ⟨e, run, shown, tsd⟩
  · rw [if_neg (by omega), if_pos warm] at run
    obtain ⟨held, fault, stopped, temp⟩ := e.tsdLogic_parts (tsd.trans off) (own.trans none) k
    exact ⟨_, run, temp.trans shown, held, fault, stopped⟩
  · rw [if_pos hot, if_pos (by omega)] at run
    obtain ⟨up, last, hold⟩ := e.tsdLogic.thermHold_parts
    exact ⟨_, run, rfl, rfl, up, last, hold⟩

/-- A reading of a sensor of an HV die (R567). -/
theorem tempSample_die (s : State) (up : s.dev.boot.up = true) (k : Fin 9) (t : BitVec 16) (sensor : k.val < 8) :
    (t.toInt ≤ 2240 → ∃ e, exec (.tempSample true k t) s = .next (s.withDev e) ∧ e.getS PWR_THVs.TEMP k = t.toInt ∧ e.porter.tsdHv = s.dev.porter.tsdHv)
      ∧ (2400 < t.toInt → ∃ u, exec (.tempSample true k t) s = .next u ∧ u.mem = [] ∧ u.dev.boot.up = false ∧ u.dev.get PORTER_LAST.CAUSE = 3) := by
  have run := tempSample_run s up true k t
  obtain ⟨shown, ⟨w, porter⟩, -⟩ := s.dev.tempRead_parts true k t.toInt t.le_toInt (Int.le_of_lt_add_one t.toInt_lt)
  rw [s.dev.tempSample_hv k t.toInt sensor] at run
  generalize s.dev.tempRead true k t.toInt = e at *
  refine ⟨fun cool => ?_, fun hot => ?_⟩
  · rw [if_neg (by omega), if_neg (by omega)] at run
    exact ⟨e, run, shown, by rw [porter]⟩
  · rw [if_pos hot, if_pos (by omega)] at run
    obtain ⟨up, last, -⟩ := (e.tsdDie (dieOf k)).thermHold_parts
    exact ⟨_, run, rfl, up, last⟩

/-! ### Automatic stores (R294) -/

/-- Every channel's tables stored. -/
def Dev.calSaved (d : Dev) : Dev :=
  d.eachCh (fun n d => d.onCh n (fun k => { k with plumb := { k.plumb with dirty := false, modeDirty := false } }))

theorem Dev.calSaved_parts (d : Dev) : d.onlyChs d.calSaved ∧ ∀ n : Fin 8, d.calSaved.chs[n].plumb.dirty = false ∧ d.calSaved.chs[n].plumb.modeDirty = false := by
  have each := Dev.eachCh_onlyCh (f := fun n d => d.onCh n (fun k => { k with plumb := { k.plumb with dirty := false, modeDirty := false } })) (fun n d => d.onlyCh_onCh n _) d
  refine ⟨(each 0).1, fun n => ?_⟩
  obtain ⟨-, e, -, -, made⟩ := each n
  rw [Dev.onCh_same e n (fun k => { k with plumb := { k.plumb with dirty := false, modeDirty := false } })] at made
  unfold Dev.calSaved
  rw [made]
  exact ⟨rfl, rfl⟩

/-- A store that passes its check leaves no table unsaved. -/
theorem Dev.calStore_parts (d : Dev) :
    (d.calStore true).regs = d.regs ∧ (d.calStore true).boot = d.boot
      ∧ ∀ n : Fin 8, (d.calStore true).chs[n].plumb.dirty = false ∧ (d.calStore true).chs[n].plumb.modeDirty = false := by
  obtain ⟨f, eq⟩ : ∃ f, d.calStore true = ({ d with flash := f } : Dev).calSaved := ⟨_, rfl⟩
  rw [eq]
  obtain ⟨rest, clean⟩ := ({ d with flash := f } : Dev).calSaved_parts
  refine ⟨?_, ?_, clean⟩
  · rw [rest]
  · rw [rest]

/-- The hours since the last automatic store count anew. -/
def Dev.hoursAnew (d : Dev) : Dev := { d with boot := { d.boot with calWait := 7 } }

/-- An automatic store, reported. -/
theorem autoStored_parts (d : Dev) :
    let e := (d.calStore true).hoursAnew.notice 3 0xFF [0]
    (∀ n : Fin 8, e.chs[n].plumb.dirty = false ∧ e.chs[n].plumb.modeDirty = false) ∧ e.boot = { d.boot with calWait := 7 }
      ∧ d.regsBut e [MBX_NOTE_TAIL.TAIL.at, MBX_NOTE_TAIL.LOST.at] := by
  obtain ⟨regs, boot, clean⟩ := d.calStore_parts
  generalize d.calStore true = a at *
  have anew : a.hoursAnew.boot = { d.boot with calWait := 7 } := by rw [← boot]; rfl
  have kept : a.hoursAnew.regs = d.regs := regs
  have chs : a.hoursAnew.chs = a.chs := rfl
  generalize a.hoursAnew = b at *
  dsimp only
  rw [Dev.notice_chs, Dev.notice_boot, chs]
  exact ⟨clean, anew, Dev.regsBut_trans (Dev.regsBut_of_regs (d.regsBut_refl _) kept) (b.notice_regsBut 3 0xFF [0])⟩

/-- The automatic store, where it is due. -/
def Dev.autoStore (good : Bool) (d : Dev) : Dev :=
  if d.autoStoreDue then (d.calStore good).hoursAnew.notice 3 0xFF [if good then 0 else 1] else d

/-- When an automatic store is due (R294, R298). -/
theorem Dev.autoStoreDue_iff (d : Dev) : d.autoStoreDue = true ↔ d.get MBX_CLERK.STATE = 1 ∧ (∀ n : Fin 8, d.flag PLB_CTRL.OWN n = false)
    ∧ ∃ n : Fin 8, d.chs[n].plumb.modeDirty = true ∨ (d.chs[n].plumb.dirty = true ∧ d.boot.calWait = 0) := by
  unfold Dev.autoStoreDue
  simp only [Bool.and_eq_true, decide_eq_true_eq, List.all_eq_true, List.any_eq_true, Bool.or_eq_true, Bool.not_eq_true', and_assoc]
  refine and_congr_right fun _ => and_congr ⟨fun h n => h n (mem_allCh n), fun h n _ => h n⟩ ⟨fun ⟨n, _, h⟩ => ⟨n, h⟩, fun ⟨n, h⟩ => ⟨n, mem_allCh n, h⟩⟩

/-- Settles O54, from what an entry, a wake, a reading, and a store each leave. -/
theorem powerAndTemperature : Obligations.PowerAndTemperature := by
  unfold Obligations.PowerAndTemperature
  intro s
  dsimp only
  refine ⟨fun req up idle run which => ?_, fun none => ?_, fun st entry which held none => ?_, fun up waking held none => ?_, fun other => ?_, fun k t up => ?_,
    fun up => ?_, fun a b no => ?_, fun up clerk own dirty => ?_, fun good rest => ?_⟩
  · have which' : req.toNat = 1 ∨ req.toNat = 2 := by
      rcases which with rfl | rfl
      · exact .inl rfl
      · exact .inr rfl
    have go := s.dev.powerGo_run req.toNat 2 idle run which'
    have asked := s.whileUp_up up (fun d => (d.set PWR_CTRL.REQ 0 0 req.toNat).powerGo req.toNat 2)
    refine ⟨fun busy => ?_, fun free => ?_⟩
    · rw [busy] at go
      exact ⟨_, asked.trans (s.next_of_eq go), Dev.flag_raise_same _ _ _ _ (by decide), Dev.onlyRegs_set PWR_STAT.ENTRY_REJ 0 0 1
        (Dev.onlyRegs_set PWR_CTRL.REQ 0 0 _ (s.dev.onlyRegs_refl _) (by simp)) (by simp)⟩
    · rw [free] at go
      exact ⟨_, asked.trans (s.next_of_eq go), rfl, (Dev.get_set_same s.dev PWR_CTRL.REQ 0 0 _).trans (Nat.mod_eq_of_lt req.isLt),
        Dev.regsBut_set PWR_CTRL.REQ 0 0 _ (s.dev.regsBut_refl _) (by simp), rfl⟩
  · show execPowerEntryDone s = _
    unfold execPowerEntryDone entryDone
    simp [none]
  · obtain ⟨state, ended⟩ := entryDone_parts s.dev s.mem st entry (by omega) held none
    exact ⟨_, rfl, rfl, state, ended⟩
  · obtain ⟨state, gaps⟩ := s.dev.wakeDone_parts waking held
    exact ⟨_, s.whileUp_up up Dev.wakeDone, state, gaps⟩
  · exact s.whileUp_same Dev.wakeDone (fun _ => if_pos other)
  · obtain ⟨cool, warm, hot⟩ := tempSample_log s up k t
    exact ⟨cool, warm, hot, fun sensor => (tempSample_die s up k t sensor).1, fun sensor => (tempSample_die s up k t sensor).2⟩
  · exact ⟨s.dev.count FLS_STAT.SUSPENDS, s.whileUp_up up (fun d => if true && true then d.count FLS_STAT.SUSPENDS else d), Dev.get_set_same _ _ _ _ _,
      Dev.onlyRegs_set _ _ _ _ (s.dev.onlyRegs_refl _) (by simp)⟩
  · exact s.whileUp_same (fun d => if a && b then d.count FLS_STAT.SUSPENDS else d) (fun _ => if_neg (by simp [no]))
  · have due := s.dev.autoStoreDue_iff.mpr ⟨clerk, own, dirty⟩
    exact ⟨_, (s.whileUp_up up (Dev.autoStore true)).trans (s.next_of_eq (if_pos due)), autoStored_parts s.dev⟩
  · refine s.whileUp_same (Dev.autoStore good) (fun _ => if_neg fun due => ?_)
    obtain ⟨-, own, n, dirty⟩ := s.dev.autoStoreDue_iff.mp due
    rcases rest with ⟨m, busy⟩ | clean
    · exact absurd (busy.symm.trans (own m)) (by simp)
    · obtain ⟨mode, table⟩ := clean n
      rcases dirty with dirty | ⟨dirty, wait⟩
      · exact absurd (mode.symm.trans dirty) (by simp)
      · rcases table with table | late
        · exact absurd (table.symm.trans dirty) (by simp)
        · exact late wait

end Sys2Proof.Machine
end

section
/-!
SUPPORT. How a mailbox command ends (R496 to R499): the words of its slot, its checks in their order, its answer.
-/
namespace Sys2Proof.Machine
open Reg

/-! ### Words of the mailbox SRAM -/

theorem Memory.word_lt (m : Memory) (a : Nat) : m.word a < 2 ^ 32 := leNat_lt _ _ _ _

/-- A word follows from its four bytes. -/
theorem Memory.word_congr {m n : Memory} {a : Nat} (same : ∀ k, k < 4 → m.read (a + k) = n.read (a + k)) : m.word a = n.word a := by
  have at0 := same 0 (by decide)
  have at1 := same 1 (by decide)
  have at2 := same 2 (by decide)
  have at3 := same 3 (by decide)
  show leNat [m.read a, m.read (a + 1), m.read (a + 2), m.read (a + 3)] = leNat [n.read a, n.read (a + 1), n.read (a + 2), n.read (a + 3)]
  rw [at1, at2, at3, show m.read a = n.read a from at0]

/-- Four bytes that are those of a number are its word. -/
theorem Memory.word_of_bytes {m : Memory} {a v : Nat} (bytes : ∀ k (h : k < 4), m.read (a + k) = (leBytes 4 v)[k]'(by rw [leBytes_length]; exact h)) :
    m.word a = v % 2 ^ 32 := by
  have at0 : m.read a = BitVec.ofNat 8 v := bytes 0 (by decide)
  have at1 : m.read (a + 1) = BitVec.ofNat 8 (v / 256) := bytes 1 (by decide)
  have at2 : m.read (a + 2) = BitVec.ofNat 8 (v / 256 / 256) := bytes 2 (by decide)
  have at3 : m.read (a + 3) = BitVec.ofNat 8 (v / 256 / 256 / 256) := bytes 3 (by decide)
  show leNat [m.read a, m.read (a + 1), m.read (a + 2), m.read (a + 3)] = _
  rw [at0, at1, at2, at3]
  simp only [leNat, BitVec.toNat_ofNat]
  omega

theorem Memory.word_setWord_same (m : Memory) (a v : Nat) : (m.setWord a v).word a = v % 2 ^ 32 :=
  Memory.word_of_bytes (fun _ h => Memory.read_writeBytes_inside _ _ _ _ (by rw [leBytes_length]; exact h))

/-- Bytes written below or above a word leave it. -/
theorem Memory.word_writeBytes_apart (m : Memory) (a b : Nat) (bs : List (BitVec 8)) (apart : b + 4 ≤ a ∨ a + bs.length ≤ b) :
    (m.writeBytes a bs).word b = m.word b :=
  Memory.word_congr (fun k h => Memory.read_writeBytes_outside _ _ _ _ (by omega))

/-- The bytes of a word of a list of words. -/
theorem wordsBytes_get (ws : List Nat) (k j : Nat) (h : k < ws.length) (low : j < 4) (inside : 4 * k + j < (wordsBytes ws).length) :
    (wordsBytes ws)[4 * k + j] = (leBytes 4 ws[k])[j]'(by rw [leBytes_length]; exact low) := by
  induction ws generalizing k with
  | nil => exact absurd h (by simp)
  | cons w ws ih =>
    have split : wordsBytes (w :: ws) = leBytes 4 w ++ wordsBytes ws := rfl
    cases k with
    | zero =>
      simp only [split, Nat.mul_zero, Nat.zero_add, List.getElem_cons_zero]
      exact List.getElem_append_left _
    | succ k =>
      have place : 4 * (k + 1) + j - (leBytes 4 w).length = 4 * k + j := by rw [leBytes_length]; omega
      simp only [split, List.getElem_cons_succ]
      rw [List.getElem_append_right (by rw [leBytes_length]; omega)]
      simp only [place]
      exact ih k (by simpa using h) _

/-- The words written read back. -/
theorem Memory.word_wordsBytes (m : Memory) (a : Nat) (ws : List Nat) (k : Nat) (h : k < ws.length) :
    (m.writeBytes a (wordsBytes ws)).word (a + 4 * k) = ws[k] % 2 ^ 32 := by
  refine Memory.word_of_bytes (fun j low => ?_)
  have inside : 4 * k + j < (wordsBytes ws).length := by rw [wordsBytes_length]; omega
  rw [Nat.add_assoc, Memory.read_writeBytes_inside _ _ _ _ inside]
  exact wordsBytes_get ws k j h low inside

/-! ### The end of a command -/

theorem Dev.fillFree_regs (d : Dev) (m slot k w : Nat) : (d.fillFree m slot w k).regs = d.regs := by
  induction k generalizing d w with
  | zero => rfl
  | succ k ih => exact ih _ _

/-- Words of undefined content leave the words below them. -/
theorem Dev.fillFree_word (d : Dev) (m slot k w j : Nat) (low : j < w) :
    (d.fillFree m slot w k).mbx.word (slotWordAt m slot j) = d.mbx.word (slotWordAt m slot j) := by
  induction k generalizing d w with
  | zero => rfl
  | succ k ih =>
    refine (ih _ (w + 1) (by omega)).trans ?_
    exact Memory.word_writeBytes_apart _ _ _ _ (.inl (by unfold slotWordAt; omega))

/-- The words that a response writes: the status with the number of results, and the results (R496). -/
theorem responseWords (mem : Memory) (m slot m1 status : Nat) (res : List Nat) (fits : status < 256 ∧ res.length < 256) :
    let new := (mem.setWord (slotWordAt m slot 1) (m1 / 2 ^ 16 * 2 ^ 16 + status * 2 ^ 8 + res.length)).writeBytes (slotWordAt m slot 2) (wordsBytes (res.map (· % 2 ^ 32)))
    new.word (slotWordAt m slot 1) % 2 ^ 16 = status * 2 ^ 8 + res.length
      ∧ ∀ k (h : k < res.length), new.word (slotWordAt m slot (2 + k)) = res[k] % 2 ^ 32 := by
  refine ⟨?_, fun k h => ?_⟩
  · rw [Memory.word_writeBytes_apart _ _ _ _ (.inl (by unfold slotWordAt; omega)), Memory.word_setWord_same]
    omega
  · have place : slotWordAt m slot (2 + k) = slotWordAt m slot 2 + 4 * k := by unfold slotWordAt; omega
    rw [place, Memory.word_wordsBytes _ _ _ k (by rw [List.length_map]; exact h), List.getElem_map, Nat.mod_mod]

/-- A command ends: its slot answers, and no register moves but the mailbox's two (R495 to R497). -/
theorem Dev.finish_answers (d : Dev) (m : Fin 9) (slot : Fin 16) (status : Nat) (res : List Nat) (none : d.ownWait = [])
    (busy : d.bit MBX_BUSYm.BUSY m 0 slot = true) (plain : status ≠ 0 ∨ (m.val < 8 → d.flag MSN_CHn_STAT.SRAM_ONLY m = false))
    (fits : status < 256 ∧ res.length < 256) :
    (d.finish m slot status res).answered m slot status res ∧ d.regsBut (d.finish m slot status res) (slotKeys m) := by
  have reply := d.replied_finish m slot status res none
  have same : (if status = 0 && m.val < 8 && d.flag MSN_CHn_STAT.SRAM_ONLY m then 9 else status) = status := by
    refine if_neg ?_
    simp only [Bool.and_eq_true, decide_eq_true_eq]
    rintro ⟨⟨zero, low⟩, only⟩
    rcases plain with some | sram
    · exact some zero
    · exact absurd (only.symm.trans (sram low)) (by simp)
  have words := responseWords d.mbx m slot (d.mbx.word (slotWordAt m slot 1)) status res fits
  unfold Dev.finish
  rw [same]
  extract_lets st m1 m1' mem e e'
  have owned : e' = e := Dev.settleOwn_none ((Dev.replied_fields (Dev.replied_trans (d := d) (e := { d with mbx := mem, cmds := _ }) ⟨rfl, fun _ _ _ _ => rfl, List.prefix_rfl⟩
    (Dev.replied_fillFree m slot (14 - res.length) (2 + res.length) _))).2.2.2.2.2.2.2.trans none)
  have regs : e.regs = d.regs := Dev.fillFree_regs _ _ _ _ _
  have read (j : Nat) (low : j < 2 + res.length) : e.mbx.word (slotWordAt m slot j) = mem.word (slotWordAt m slot j) := Dev.fillFree_word _ _ _ _ _ _ low
  rw [owned]
  clear_value e e'
  rw [if_pos ((Dev.bit_of_get (Dev.get_of_regs regs _ _ _) _).trans busy)]
  have fitsSlot : slot.val < 16 := slot.isLt
  have done := (e.clrBit MBX_BUSYm.BUSY m 0 slot).bit_setBit_same MBX_DONEm.DONE m 0 slot fitsSlot
  have free : ((e.clrBit MBX_BUSYm.BUSY m 0 slot).setBit MBX_DONEm.DONE m 0 slot).bit MBX_BUSYm.BUSY m 0 slot = false :=
    (Dev.bit_of_get (Dev.get_set_id _ _ _ _ _ _ _ _ (by decide)) _).trans (e.bit_clrBit_same _ _ _ _)
  refine ⟨⟨?_, ?_, ?_, fun k h => ?_⟩, ?_⟩
  · exact (Dev.bit_of_get (Dev.vector_get _ _ _ _ _) _).trans done
  · exact (Dev.bit_of_get (Dev.vector_get _ _ _ _ _) _).trans free
  · rw [Dev.vector_mbx]
    exact (congrArg (· % 2 ^ 16) (read 1 (by omega))).trans words.1
  · rw [Dev.vector_mbx]
    exact (read (2 + k) (by omega)).trans (words.2 k h)
  · exact Dev.regsBut_of_regs (Dev.regsBut_set MBX_DONEm.DONE m 0 _ (Dev.regsBut_set MBX_BUSYm.BUSY m 0 _ (Dev.regsBut_of_regs (d.regsBut_refl _) regs) (by simp [slotKeys]))
      (by simp [slotKeys])) (Dev.vector_regs _ _)

/-! ### Taking up a command -/

/-- What a command leaves once its meaning has left `p` and answered. -/
def Order.after (o : Order) (d : Dev) (m slot : Nat) (p : Dev × Memory) : Answer → Dev × Memory
  | .done status res => (p.1.finish m slot status res, p.2)
  | .goes => p
  | .stays => (p.1.stay (d.call m slot) d.rung (o.own d (d.call m slot)), p.2)

/-- The slot's command where every check of R499 passes: its meaning is carried out on the device that has begun it. -/
theorem Order.serve_taken {o : Order} {d : Dev} {mem : Memory} {m : Fin 9} {slot : Fin 16} (t : d.takesUp mem o m slot) {p : Dev × Memory} {a : Answer}
    (act : o.act (d.begun m slot) mem (d.call m slot) = (p, a)) : o.serve d mem m slot = o.after d m slot p a := by
  obtain ⟨next, knows, op, passes, -, -, -⟩ := t
  have run : o.serve d mem m slot = o.carry d mem (d.call m slot) := by
    unfold Order.serve
    rw [if_neg (by simp [next]), if_neg (by simp [op, knows]), if_neg (by simp [op])]
  rw [run]
  unfold Order.carry
  rw [passes]
  dsimp only
  rw [show (d.call m slot).m = m.val from rfl, show (d.call m slot).slot = slot.val from rfl, act]
  cases a with
  | done status res => rfl
  | goes => rfl
  | stays => rfl

/-- What a command's meaning leaves before its answer: no field waits to become owned, time stands, and only these keys moved. -/
structure Dev.acts (d x : Dev) (ks : List Key) : Prop where
  own : x.ownWait = d.ownWait
  time : x.time = d.time
  regs : d.regsBut x ks

/-- Keys that a command's meaning may move: not whether its slot is BUSY nor whether its channel is SRAM_ONLY. -/
def actKeys (ks : List Key) : Bool := ks.all (fun k => k.1 != MBX_BUSYm.BUSY.id) && ks.all (fun k => k.1 != MSN_CHn_STAT.SRAM_ONLY.id)

/-- The meaning and the answer of a command that ends. -/
theorem Dev.acts_finish {d x : Dev} {ks : List Key} (a : d.acts x ks) (may : actKeys ks = true) (m : Fin 9) (slot : Fin 16) (none : d.ownWait = [])
    (busy : d.bit MBX_BUSYm.BUSY m 0 slot = true) {status : Nat} {res : List Nat}
    (plain : status ≠ 0 ∨ (m.val < 8 → d.flag MSN_CHn_STAT.SRAM_ONLY m = false)) (fits : status < 256 ∧ res.length < 256) :
    d.completes (x.finish m slot status res) m slot status res ks ∧ x.replied (x.finish m slot status res) := by
  obtain ⟨own, time, regs⟩ := a
  obtain ⟨mayBusy, maySram⟩ := Bool.and_eq_true_iff.mp may
  have reply := x.replied_finish m slot status res (own.trans none)
  obtain ⟨answered, moved⟩ := x.finish_answers m slot status res (own.trans none) ((Dev.bit_of_get (Dev.regsBut_read regs _ _ _ mayBusy) _).trans busy)
    (plain.imp_right fun sram low => (Dev.flag_of_get (Dev.regsBut_read regs _ _ _ maySram)).trans (sram low)) fits
  have all := Dev.regsBut_trans (Dev.regsBut_mono regs (List.subset_append_right (slotKeys m) ks)) (Dev.regsBut_mono moved (List.subset_append_left (slotKeys m) ks))
  exact ⟨⟨answered, all, (Dev.replied_fields reply).2.1.trans time⟩, reply⟩

/-- The registers that say whether a slot can answer. -/
def slotIds : List Nat := [MBX_BUSYm.BUSY.id, MSN_CHn_STAT.SRAM_ONLY.id]

/-- What a command's meaning leaves so that its slot can answer: no field waits to become owned, time stands, and the slots' bits do. -/
structure Dev.keepsSlots (d e : Dev) : Prop where
  own : e.ownWait = d.ownWait
  time : e.time = d.time
  regs : ∀ f m i, f.id ∈ slotIds → e.get f m i = d.get f m i

theorem Dev.keepsSlots_refl (d : Dev) : d.keepsSlots d := ⟨rfl, rfl, fun _ _ _ _ => rfl⟩

theorem Dev.keepsSlots_trans {c d e : Dev} (h : c.keepsSlots d) (k : d.keepsSlots e) : c.keepsSlots e :=
  ⟨k.own.trans h.own, k.time.trans h.time, fun f m i isin => (k.regs f m i isin).trans (h.regs f m i isin)⟩

theorem Dev.keepsSlots_set {d e : Dev} (h : d.keepsSlots e) (f : Fld) (n i v : Nat) (other : f.id ∉ slotIds) : d.keepsSlots (e.set f n i v) :=
  Dev.keepsSlots_trans h ⟨rfl, rfl, fun _ _ _ isin => e.get_set_id _ _ _ _ _ _ _ (fun eq => other (eq ▸ isin))⟩

theorem Dev.acts_keepsSlots {d x : Dev} {ks : List Key} (a : d.acts x ks) (may : actKeys ks = true) : d.keepsSlots x := by
  obtain ⟨own, time, regs⟩ := a
  obtain ⟨mayBusy, maySram⟩ := Bool.and_eq_true_iff.mp may
  refine ⟨own, time, fun f m i isin => Dev.regsBut_read regs f m i ?_⟩
  simp only [slotIds, List.mem_cons, List.not_mem_nil, or_false] at isin
  rcases isin with same | same
  · rw [same]
    exact mayBusy
  · rw [same]
    exact maySram

/-- A command that has begun and asked something of the host. -/
theorem Dev.keepsSlots_asks (d : Dev) (m slot : Nat) (o : Out) : d.keepsSlots ((d.begun m slot).emit o) := ⟨rfl, rfl, fun _ _ _ _ => rfl⟩

/-- The answer of a command whose meaning moved what a slot's answer does not rest on. -/
theorem Dev.keepsSlots_finish {d x : Dev} (h : d.keepsSlots x) (m : Fin 9) (slot : Fin 16) (none : d.ownWait = []) (busy : d.bit MBX_BUSYm.BUSY m 0 slot = true)
    {status : Nat} {res : List Nat} (plain : status ≠ 0 ∨ (m.val < 8 → d.flag MSN_CHn_STAT.SRAM_ONLY m = false)) (fits : status < 256 ∧ res.length < 256) :
    (x.finish m slot status res).answered m slot status res ∧ (x.finish m slot status res).time = d.time ∧ x.replied (x.finish m slot status res) := by
  obtain ⟨own, time, regs⟩ := h
  have reply := x.replied_finish m slot status res (own.trans none)
  obtain ⟨answered, -⟩ := x.finish_answers m slot status res (own.trans none) ((Dev.bit_of_get (regs MBX_BUSYm.BUSY m 0 (by decide)) _).trans busy)
    (plain.imp_right fun sram low => (Dev.flag_of_get (regs MSN_CHn_STAT.SRAM_ONLY m 0 (by decide))).trans (sram low)) fits
  exact ⟨answered, (Dev.replied_fields reply).2.1.trans time, reply⟩

/-- What the end of a command leaves of the block behind the registers. -/
theorem Dev.replied_behind {d e : Dev} (h : d.replied e) :
    e.flash = d.flash ∧ e.mason = d.mason ∧ e.ev = d.ev ∧ e.groups = d.groups ∧ e.rung = d.rung ∧ e.sram = d.sram := by
  rw [h.rest]
  exact ⟨rfl, rfl, rfl, rfl, rfl, rfl⟩

/-- The checks of R499 passed: the arguments are in range. -/
theorem Dev.takesUp_legal {d : Dev} {mem : Memory} {o : Order} {m : Fin 9} {slot : Fin 16} (t : d.takesUp mem o m slot) : o.legal d mem (d.call m slot) = true := by
  obtain ⟨-, -, -, passes, -⟩ := t
  unfold Order.refusal at passes
  cases legal : o.legal d mem (d.call m slot) with
  | true => rfl
  | false =>
    rw [if_pos (by simp [legal])] at passes
    exact absurd passes (by simp)

section Taken
variable {o : Order} {i : Instr} {m : Fin 9} {slot : Fin 16} {s : State}

/-- A command that ends, with what it did to the memories. -/
theorem Order.run_ends (row : exec i s = o.run m slot s) (t : s.dev.takesUp s.mem o m slot) {x : Dev} {mem : Memory} {status : Nat} {res : List Nat} {ks : List Key}
    (act : o.act (s.dev.begun m slot) s.mem (s.dev.call m slot) = ((x, mem), .done status res)) (a : s.dev.acts x ks) (may : actKeys ks = true)
    (fits : status < 256 ∧ res.length < 256) :
    ∃ e, exec i s = .next { s with dev := e, mem := mem } ∧ s.dev.completes e m slot status res ks ∧ x.replied e := by
  refine ⟨x.finish m slot status res, ?_, ?_⟩
  · rw [row]
    unfold Order.run
    rw [Order.serve_taken t act]
    rfl
  · obtain ⟨-, -, -, -, busy, none, sram⟩ := t
    exact Dev.acts_finish a may m slot none busy (.inr sram) fits

/-- A command that ends and touches no memory. -/
theorem Order.run_done (row : exec i s = o.run m slot s) (t : s.dev.takesUp s.mem o m slot) {x : Dev} {status : Nat} {res : List Nat} {ks : List Key}
    (act : o.act (s.dev.begun m slot) s.mem (s.dev.call m slot) = ((x, s.mem), .done status res)) (a : s.dev.acts x ks) (may : actKeys ks = true)
    (fits : status < 256 ∧ res.length < 256) :
    ∃ e, exec i s = .next (s.withDev e) ∧ s.dev.completes e m slot status res ks ∧ x.replied e :=
  Order.run_ends row t act a may fits

/-- A command that ends without an effect. -/
theorem Order.run_idle (row : exec i s = o.run m slot s) (t : s.dev.takesUp s.mem o m slot) {status : Nat} {res : List Nat}
    (act : o.act (s.dev.begun m slot) s.mem (s.dev.call m slot) = ((s.dev.begun m slot, s.mem), .done status res)) (fits : status < 256 ∧ res.length < 256) :
    ∃ e, exec i s = .next (s.withDev e) ∧ s.dev.completes e m slot status res [] ∧ (s.dev.begun m slot).replied e :=
  Order.run_done row t act ⟨rfl, rfl, s.dev.regsBut_refl _⟩ rfl fits

/-- A command that ends and has set registers only. -/
theorem Order.run_sets (row : exec i s = o.run m slot s) (t : s.dev.takesUp s.mem o m slot) {x : Dev} {status : Nat} {res : List Nat} {ks : List Key}
    (act : o.act (s.dev.begun m slot) s.mem (s.dev.call m slot) = ((x, s.mem), .done status res)) (only : (s.dev.begun m slot).onlyRegs x ks) (may : actKeys ks = true)
    (fits : status < 256 ∧ res.length < 256) :
    ∃ e, exec i s = .next (s.withDev e) ∧ s.dev.completes e m slot status res ks ∧ e.chs = s.dev.chs ∧ x.replied e := by
  obtain ⟨rest, regs⟩ := only
  obtain ⟨e, run, ends, reply⟩ := Order.run_done row t act ⟨by rw [rest]; rfl, by rw [rest]; rfl, regs⟩ may fits
  exact ⟨e, run, ends, (Dev.replied_fields reply).1.trans (by rw [rest]; rfl), reply⟩

/-- A command that ends, whatever else its meaning did. -/
theorem Order.run_answers (row : exec i s = o.run m slot s) (t : s.dev.takesUp s.mem o m slot) {x : Dev} {mem : Memory} {status : Nat} {res : List Nat}
    (act : o.act (s.dev.begun m slot) s.mem (s.dev.call m slot) = ((x, mem), .done status res)) (h : s.dev.keepsSlots x) (fits : status < 256 ∧ res.length < 256) :
    ∃ e, exec i s = .next { s with dev := e, mem := mem } ∧ e.answered m slot status res ∧ e.time = s.dev.time ∧ x.replied e := by
  refine ⟨x.finish m slot status res, ?_, ?_⟩
  · rw [row]
    unfold Order.run
    rw [Order.serve_taken t act]
    rfl
  · obtain ⟨-, -, -, -, busy, none, sram⟩ := t
    exact Dev.keepsSlots_finish h m slot none busy (.inr sram) fits

/-- A command that goes on. -/
theorem Order.run_goes (row : exec i s = o.run m slot s) (t : s.dev.takesUp s.mem o m slot) {x : Dev} {mem : Memory}
    (act : o.act (s.dev.begun m slot) s.mem (s.dev.call m slot) = ((x, mem), .goes)) : exec i s = .next { s with dev := x, mem := mem } := by
  rw [row]
  unfold Order.run
  rw [Order.serve_taken t act]
  rfl

/-- A command that has begun and waits for something. -/
theorem Order.run_waits (row : exec i s = o.run m slot s) (t : s.dev.takesUp s.mem o m slot)
    (act : o.act (s.dev.begun m slot) s.mem (s.dev.call m slot) = ((s.dev.begun m slot, s.mem), .stays)) :
    ∃ e, exec i s = .next (s.withDev e) ∧ s.dev.waits e m slot (o.own s.dev (s.dev.call m slot)) := by
  refine ⟨(s.dev.begun m slot).stay (s.dev.call m slot) s.dev.rung (o.own s.dev (s.dev.call m slot)), ?_, rfl, ?_, fun c some => ?_⟩
  · rw [row]
    unfold Order.run
    rw [Order.serve_taken t act]
    rfl
  · exact List.mem_append_right _ (List.mem_singleton_self _)
  · show c ∈ s.dev.cmds.filter _ ++ [_] ↔ _
    simp only [List.mem_append, List.mem_filter, List.mem_singleton]
    constructor
    · rintro (⟨isin, -⟩ | rfl)
      · exact isin
      · exact absurd rfl some
    · exact fun isin => .inl ⟨isin, by simp [some]⟩

end Taken

end Sys2Proof.Machine
end

section
/-!
PROOF. The checks of a mailbox command in their order (R498, R499).
-/
namespace Sys2Proof.Machine
open Reg

/-- Every mailbox command is its row of R507. -/
theorem exec_mailRow {i : Instr} {o : Order} {m : Fin 9} {slot : Fin 16} (row : mailRow i = some (o, m, slot)) (s : State) : exec i s = o.run m slot s := by
  cases i <;> cases row <;> rfl

/-- A command not taken up leaves the block as it is. -/
theorem Order.run_left (o : Order) (m : Fin 9) (slot : Fin 16) (s : State) (left : o.serve s.dev s.mem m slot = (s.dev, s.mem)) : o.run m slot s = .next s := by
  unfold Order.run
  rw [left]

/-- A command refused at a check ends with its status and has no effect (R499). -/
theorem Dev.refused_ends (d : Dev) (m : Fin 9) (slot : Fin 16) (status : Nat) (some : status ≠ 0) (small : status < 256) (none : d.ownWait = [])
    (busy : d.bit MBX_BUSYm.BUSY m 0 slot = true) :
    d.completes ((d.begun m slot).finish m slot status []) m slot status [] [] ∧ ((d.begun m slot).finish m slot status []).chs = d.chs := by
  have begins : d.acts (d.begun m slot) [] := ⟨rfl, rfl, d.regsBut_refl _⟩
  obtain ⟨ends, reply⟩ := Dev.acts_finish begins rfl m slot none busy (.inl some) (res := []) ⟨small, by simp⟩
  exact ⟨ends, (Dev.replied_fields reply).1⟩

theorem Order.carry_refused {o : Order} {d : Dev} {mem : Memory} {m : Fin 9} {slot : Fin 16} {status : Nat} (refused : o.refusal d mem (d.call m slot) = some status) :
    o.carry d mem (d.call m slot) = ((d.begun m slot).finish m slot status [], mem) := by
  unfold Order.carry
  rw [refused]
  rfl

theorem Order.serve_next {o : Order} {d : Dev} {mem : Memory} {m : Fin 9} {slot : Fin 16} (next : d.nextRung m slot = true)
    (knows : d.knows m (d.opcodeIn m slot) = true) (op : d.opcodeIn m slot = o.op) : o.serve d mem m slot = o.carry d mem (d.call m slot) := by
  unfold Order.serve
  rw [if_neg (by simp [next]), if_neg (by simp [knows]), if_neg (by simp [op])]

/-- Settles O40, from the checks of `Order.refusal` in their order. -/
theorem mailboxChecks : Obligations.MailboxChecks := by
  unfold Obligations.MailboxChecks
  intro i o m slot s row
  dsimp only
  have run := exec_mailRow row s
  refine ⟨fun other => ?_, fun knows other => ?_, fun next busy none _ => ⟨fun unknown => ?_, fun knows op => ?_⟩⟩
  · exact run.trans (o.run_left m slot s (if_pos (by simp [other])))
  · refine run.trans (o.run_left m slot s ?_)
    unfold Order.serve
    cases s.dev.nextRung m slot with
    | false => exact if_pos rfl
    | true => rw [if_neg (by simp), if_neg (by simp [knows]), if_pos other]
  · have serve : o.serve s.dev s.mem m slot = ((s.dev.begun m slot).finish m slot 2 [], s.mem) := by
      unfold Order.serve
      rw [if_neg (by simp [next]), if_pos (by simp [unknown])]
    refine ⟨_, ?_, s.dev.refused_ends m slot 2 (by decide) (by decide) none busy⟩
    rw [run]
    unfold Order.run
    rw [serve]
    rfl
  · have ends (status : Nat) (some : status ≠ 0) (small : status < 256) (refused : o.refusal s.dev s.mem (s.dev.call m slot) = Option.some status) :
        ∃ e, exec i s = .next (s.withDev e) ∧ s.dev.completes e m slot status [] [] ∧ e.chs = s.dev.chs := by
      refine ⟨_, ?_, s.dev.refused_ends m slot status some small none busy⟩
      rw [run]
      unfold Order.run
      rw [Order.serve_next next knows op, Order.carry_refused refused]
      rfl
    refine ⟨fun bad => ends 3 (by decide) (by decide) ?_, fun good stale => ends 4 (by decide) (by decide) ?_, fun good fresh taken => ends 8 (by decide) (by decide) ?_⟩
    · unfold Order.refusal
      rw [if_pos ?_]
      rcases bad with h | h | h
      · simp [h]
      · simp [h]
      · simp [h]
    · unfold Order.refusal
      simp only [not_or] at good
      obtain ⟨clean, short, legal⟩ := good
      obtain ⟨x, epoch, differ⟩ := stale
      rw [if_neg (by simp at clean legal; simp [clean, legal]; omega), if_pos (by simp [epoch, differ])]
    · unfold Order.refusal
      simp only [not_or] at good
      obtain ⟨clean, short, legal⟩ := good
      obtain ⟨f, isin, owned⟩ := taken
      rw [if_neg (by simp at clean legal; simp [clean, legal]; omega), if_neg ?_, if_pos (List.any_eq_true.mpr ⟨f, isin, owned⟩)]
      intro any
      obtain ⟨x, epoch, differ⟩ := (Option.any_eq_true _ _).mp any
      exact fresh ⟨x, epoch, by simpa using differ⟩

end Sys2Proof.Machine
end

section
/-!
PROOF. The commands of MBX8 on the firmware and the flash (R294, R502, R507, R519, R520, R544).
-/
namespace Sys2Proof.Machine
open Reg

/-! ### Image slots -/

theorem Dev.otherSlot_lt (d : Dev) : d.otherSlot < 2 := by
  unfold Dev.otherSlot
  omega

/-- The device with an image slot replaced. -/
def Dev.putSlot (d : Dev) (i : Nat) (x : FwSlot) : Dev := { d with flash := { d.flash with fw := d.flash.fw.set i x } }

theorem Dev.fwSlot_putSlot_same (d : Dev) (i : Nat) (x : FwSlot) (inside : i < d.flash.fw.length) : (d.putSlot i x).fwSlot i = x := by
  unfold Dev.fwSlot Dev.putSlot
  rw [List.getD_eq_getElem?_getD, List.getElem?_set_self inside]
  rfl

theorem Dev.fwSlot_putSlot_other (d : Dev) (i j : Nat) (x : FwSlot) (other : i ≠ j) : (d.putSlot i x).fwSlot j = d.fwSlot j := by
  unfold Dev.fwSlot Dev.putSlot
  rw [List.getD_eq_getElem?_getD, List.getElem?_set_ne other, List.getD_eq_getElem?_getD]

/-- An image slot follows from the flash. -/
theorem Dev.fwSlot_of_flash {d e : Dev} (h : e.flash = d.flash) (i : Nat) : e.fwSlot i = d.fwSlot i := by
  unfold Dev.fwSlot
  rw [h]

/-- A stretch of an image slot staged reads back (R519). -/
theorem FwSlot.stage_byte (x : FwSlot) (ofs : Nat) (bytes : List (BitVec 8)) (k : Nat) (h : k < bytes.length) : (x.stage ofs bytes).byte (ofs + k) = bytes.getD k 0 := by
  have twice (b : BitVec 8) : flashByte (flashByte b) = b := BitVec.not_not
  have inside : k < (bytes.map flashByte).length := by rw [List.length_map]; exact h
  unfold FwSlot.byte FwSlot.stage
  dsimp only
  rw [Memory.read_writeBytes_inside _ _ _ _ inside, List.getElem_map, twice, List.getD_eq_getElem _ _ h]

/-! ### The strap-override area -/

/-- A copy dropped in the place of the older leaves the newer. -/
theorem newerCopy_drop {α : Type} (gen : α → Nat) (cs : List (Option α)) (two : cs.length = 2) :
    newerCopy gen (cs.set (olderCopy gen cs).1 none) = newerCopy gen cs := by
  obtain ⟨a, b, rfl⟩ := List.length_eq_two.mp two
  cases a with
  | none => cases b <;> rfl
  | some a => cases b with
    | none => rfl
    | some b =>
      have older : olderCopy gen [some a, some b] = if gen a < gen b then (0, gen b + 1) else (1, gen a + 1) := rfl
      have newer : newerCopy gen [some a, some b] = if gen a < gen b then some b else some a := rfl
      by_cases less : gen a < gen b
      · rw [older, newer, if_pos less, if_pos less]
        rfl
      · rw [older, newer, if_neg less, if_neg less]
        rfl

/-- What a store of an override leaves in force (R544). -/
theorem Dev.ovrStore_overrides (d : Dev) (item ch value : Nat) (good : Bool) (two : d.flash.ovr.length = 2) (legal : ovrOk item value = true) :
    (d.ovrStore item ch value good).overrides
      = if good then d.overrides.filter (fun x => !(x.1 = item && x.2.1 = ch)) ++ [(item, ch, value)] else d.overrides := by
  cases good with
  | false =>
    have same := newerCopy_drop OvrCopy.gen d.flash.ovr two
    show (match newerCopy OvrCopy.gen (d.flash.ovr.set (olderCopy OvrCopy.gen d.flash.ovr).1 none) with
      | some c => c.entries.filter (fun e : Nat × Nat × Nat => ovrOk e.1 e.2.2)
      | none => []) = _
    rw [same]
    rfl
  | true =>
    have new := newerCopy_set OvrCopy.gen d.flash.ovr two ⟨(olderCopy OvrCopy.gen d.flash.ovr).2, d.overrides.filter (fun x => !(x.1 = item && x.2.1 = ch)) ++ [(item, ch, value)]⟩ rfl
    have valid : ∀ x ∈ d.overrides, ovrOk x.1 x.2.2 = true := by
      unfold Dev.overrides
      split
      · exact fun x isin => (List.mem_filter.mp isin).2
      · exact fun x isin => absurd isin (by simp)
    show (match newerCopy OvrCopy.gen (d.flash.ovr.set (olderCopy OvrCopy.gen d.flash.ovr).1 (some _)) with
      | some c => c.entries.filter (fun e : Nat × Nat × Nat => ovrOk e.1 e.2.2)
      | none => []) = _
    rw [new]
    dsimp only
    rw [if_pos rfl, List.filter_eq_self]
    intro x isin
    rcases List.mem_append.mp isin with old | this
    · exact valid x (List.mem_filter.mp old).1
    · rw [List.mem_singleton.mp this]
      exact legal

/-! ### The Clerk's restart -/

/-- The Clerk restarted: no command is rung or under way, and its slots stand (R502, R538). -/
theorem Dev.clerkReset_parts (d : Dev) (reason : Nat) (serves : d.get MBX_CLERK.STATE = 1 ∨ d.boot.recovery = true) (boots : d.get PWR_STRAP.BOOT ≠ 3) (none : d.ownWait = []) :
    let e := d.clerkReset reason
    e.get MBX_CLERK.STATE = 2 ∧ e.rung = [] ∧ e.cmds = [] ∧ e.boot.again = some reason ∧ e.mbx = d.mbx ∧ d.regsBut e [MBX_CLERK.STATE.at, PWR_BOOT.STAGE.at] := by
  unfold Dev.clerkReset
  rw [if_neg (by rcases serves with h | h <;> simp [h, boots])]
  extract_lets boot ev sram mason a b e
  obtain ⟨rest, regs, own⟩ : (b.rung = [] ∧ b.cmds = [] ∧ b.boot.again = some reason ∧ b.mbx = d.mbx) ∧ b.regs = d.regs ∧ b.ownWait = [] :=
    Dev.eachCh_keeps (fun e : Dev => (e.rung = [] ∧ e.cmds = [] ∧ e.boot.again = some reason ∧ e.mbx = d.mbx) ∧ e.regs = d.regs ∧ e.ownWait = []) _ a (fun n e h => h)
      ⟨⟨rfl, rfl, rfl, rfl⟩, rfl, none⟩
  clear_value b
  obtain ⟨rung, cmds, again, mbx⟩ := rest
  unfold e
  rw [Dev.settleOwn_none own]
  refine ⟨(Dev.get_set_id _ _ _ _ _ _ _ _ (by decide)).trans (Dev.get_set_same ..), rung, cmds, again, mbx, ?_⟩
  exact Dev.regsBut_set PWR_BOOT.STAGE 0 0 3 (Dev.regsBut_set MBX_CLERK.STATE 0 0 2 (fun f m i _ => Dev.get_of_regs regs _ _ _) (by simp)) (by simp)

/-- An answer stands where the slot's bits and its words do. -/
theorem Dev.answered_of {d e : Dev} {m slot status : Nat} {res : List Nat} (mbx : e.mbx = d.mbx) (done : e.get MBX_DONEm.DONE m = d.get MBX_DONEm.DONE m)
    (busy : e.get MBX_BUSYm.BUSY m = d.get MBX_BUSYm.BUSY m) (h : d.answered m slot status res) : e.answered m slot status res := by
  obtain ⟨isDone, notBusy, first, words⟩ := h
  unfold Dev.answered
  rw [mbx]
  exact ⟨(Dev.bit_of_get done _).trans isDone, (Dev.bit_of_get busy _).trans notBusy, first, words⟩

/-! ### Stores of the calibration tables -/

/-- The tables as a store writes them over the older copy. -/
def Dev.calWritten (d : Dev) (good : Bool) : Dev :=
  let x := olderCopy CalCopy.gen (d.flash.cal.map calCopy)
  let modes := allCh.foldl (fun v (n : Fin 8) => if d.flag PLB_CTRL.MODE n then setBitAt v n else v) 0
  let img := if good then calImage x.2 modes (allCh.map (fun n => d.chs[n].plumb.points)) else []
  { d with flash := { d.flash with cal := d.flash.cal.set x.1 img, calTop := max d.flash.calTop x.2 } }

theorem Dev.calWritten_acts (d : Dev) (good : Bool) : d.acts (d.calWritten good) [] := ⟨rfl, rfl, d.regsBut_refl _⟩

theorem Dev.calStore_good (d : Dev) : d.calStore true = (d.calWritten true).calSaved := rfl

theorem Dev.calStore_bad (d : Dev) : d.calStore false = (d.calWritten false).eachCh (fun n d => d.raise PLB_STAT.STORE_FAIL n) := rfl

/-- A store that fails its check says so on every channel. -/
theorem Dev.calStore_failed (d : Dev) :
    d.acts (d.calStore false) (allCh.map (fun n : Fin 8 => PLB_STAT.STORE_FAIL.at n)) ∧ ∀ n : Fin 8, (d.calStore false).flag PLB_STAT.STORE_FAIL n = true := by
  obtain ⟨own, time, regs⟩ := d.calWritten_acts false
  rw [d.calStore_bad]
  generalize d.calWritten false = x at *
  obtain ⟨own', time', regs'⟩ := Dev.eachCh_keeps (fun e : Dev => e.ownWait = x.ownWait ∧ e.time = x.time ∧ x.regsBut e (allCh.map (fun n : Fin 8 => PLB_STAT.STORE_FAIL.at n)))
    (fun n d => d.raise PLB_STAT.STORE_FAIL n) x
    (fun n e h => ⟨h.1, h.2.1, Dev.regsBut_set PLB_STAT.STORE_FAIL n 0 1 h.2.2 (List.mem_map.mpr ⟨n, mem_allCh n, rfl⟩)⟩) ⟨rfl, rfl, x.regsBut_refl _⟩
  refine ⟨⟨own'.trans own, time'.trans time, Dev.regsBut_trans (Dev.regsBut_mono regs (by simp)) regs'⟩, fun n => ?_⟩
  refine Dev.eachCh_turn n (fun _ => True) (fun e : Dev => e.flag PLB_STAT.STORE_FAIL n = true) _ _ (fun _ _ _ _ => trivial) (fun e _ => e.flag_raise_same _ _ _ (by decide))
    (fun m other e h => ?_) trivial
  exact (Dev.flag_of_get (Dev.get_set_idx _ _ _ _ _ _ _ _ (fun eq => other (Fin.ext eq)))).trans h

theorem Dev.calWritten_cal (d : Dev) : ∃ modes, (d.calWritten true).flash.cal = d.flash.cal.set (olderCopy CalCopy.gen (d.flash.cal.map calCopy)).1
    (calImage (olderCopy CalCopy.gen (d.flash.cal.map calCopy)).2 modes (allCh.map (fun n => d.chs[n].plumb.points))) :=
  ⟨allCh.foldl (fun v (n : Fin 8) => if d.flag PLB_CTRL.MODE n then setBitAt v n else v) 0, rfl⟩

/-- A store that passes its check: the image in the place of the older copy, and no table unsaved. -/
theorem Dev.calStore_taken (d : Dev) :
    d.acts (d.calStore true) [] ∧ (∀ n : Fin 8, (d.calStore true).chs[n].plumb.dirty = false ∧ (d.calStore true).chs[n].plumb.modeDirty = false)
      ∧ ∃ modes, (d.calStore true).flash.cal = d.flash.cal.set (olderCopy CalCopy.gen (d.flash.cal.map calCopy)).1
        (calImage (olderCopy CalCopy.gen (d.flash.cal.map calCopy)).2 modes (allCh.map (fun n => d.chs[n].plumb.points))) := by
  have cal := d.calWritten_cal
  obtain ⟨own, time, regs⟩ := d.calWritten_acts true
  rw [d.calStore_good]
  generalize d.calWritten true = x at *
  obtain ⟨rest, clean⟩ := x.calSaved_parts
  rw [rest]
  rw [rest] at clean
  exact ⟨⟨own, time, regs⟩, clean, cal⟩

/-- Settles O41, from what each command's meaning leaves before its answer. -/
theorem firmwareCommands : Obligations.FirmwareCommands := by
  unfold Obligations.FirmwareCommands
  intro s m slot
  dsimp only
  have begun : s.dev.acts (s.dev.begun m slot) [] := ⟨rfl, rfl, s.dev.regsBut_refl _⟩
  refine ⟨fun t serves => ?_, fun b t may two => ?_, fun buf good t fails => ?_, fun g t head gen two => ?_, fun trusted t fails => ?_, fun t boots => ?_,
    fun good t two => ?_, fun t => ?_, fun t => ?_⟩
  · obtain ⟨e, run, ends, reply⟩ := Order.run_idle (i := .info m slot) rfl t
      (res := [(s.dev.fwSlot (s.dev.get MBX_CLERK.IMAGE)).version, s.dev.get MBX_CLERK.IMAGE + 2 ^ 8 * (s.dev.fwSlot (s.dev.get MBX_CLERK.IMAGE)).svn,
        Config.uid % 2 ^ 32, Config.uid / 2 ^ 32 % 2 ^ 32]) (if_neg (by simp [Dev.begun, serves])) ⟨by decide, by simp⟩
    exact ⟨e, run, ends, (Dev.replied_fields reply).1, (Dev.replied_behind reply).1⟩
  · have staged : (orderFwStage (some b) true).act (s.dev.begun m slot) s.mem (s.dev.call m slot) = ((((s.dev.begun m slot).emit (.hostRead ((s.dev.call m slot).pair 0)
        ((s.dev.call m slot).arg 3))).putSlot s.dev.otherSlot ((s.dev.fwSlot s.dev.otherSlot).stage ((s.dev.call m slot).arg 2)
        (bufBytes b ((s.dev.call m slot).arg 3))), s.mem), .done 0 []) := if_pos may
    obtain ⟨e, run, ends, reply⟩ := Order.run_done (i := .fwStage m slot (some b) true) rfl t staged (ks := []) ⟨rfl, rfl, s.dev.regsBut_refl _⟩ rfl ⟨by decide, by simp⟩
    have flash := (Dev.replied_behind reply).1
    have other := s.dev.otherSlot_lt
    refine ⟨e, run, ends, (Dev.replied_fields reply).1, ?_, fun k low => ?_⟩
    · exact (Dev.fwSlot_of_flash flash _).trans (Dev.fwSlot_putSlot_other _ _ _ _ (by omega))
    · rw [Dev.fwSlot_of_flash flash, Dev.fwSlot_putSlot_same _ _ _ (by show _ < s.dev.flash.fw.length; omega)]
      exact FwSlot.stage_byte _ _ _ k (by rw [bufBytes_length]; exact low)
  · have idle : ∃ x : Dev, (orderFwStage buf good).act (s.dev.begun m slot) s.mem (s.dev.call m slot) = ((x, s.mem), .done 0x0B [])
        ∧ s.dev.acts x [] ∧ x.chs = s.dev.chs ∧ x.flash = s.dev.flash := by
      cases buf with
      | none => exact ⟨_, rfl, begun, rfl, rfl⟩
      | some b =>
        cases may : s.dev.mayIssue with
        | false => exact ⟨s.dev.begun m slot, if_neg (Bool.eq_false_iff.mp may), begun, rfl, rfl⟩
        | true =>
          obtain rfl : good = false := by simpa [may] using fails
          exact ⟨(s.dev.begun m slot).emit _, if_pos may, ⟨rfl, rfl, s.dev.regsBut_refl _⟩, rfl, rfl⟩
    obtain ⟨x, act, acts, chs, flash⟩ := idle
    obtain ⟨e, run, ends, reply⟩ := Order.run_done (i := .fwStage m slot buf good) rfl t act acts rfl ⟨by decide, by simp⟩
    exact ⟨e, run, ends, (Dev.replied_fields reply).1.trans chs, (Dev.replied_behind reply).1.trans flash⟩
  · have committed : (orderFwCommit true).act (s.dev.begun m slot) s.mem (s.dev.call m slot) = (((s.dev.begun m slot).putSlot s.dev.otherSlot
        { s.dev.fwSlot s.dev.otherSlot with version := (s.dev.fwSlot s.dev.otherSlot).word 0x0C, svn := ((s.dev.fwSlot s.dev.otherSlot).byte 0x10).toNat, gen := some ((g + 1) % 2 ^ 32) }, s.mem),
          .done 0 [(g + 1) % 2 ^ 32]) := by
      have same : ((s.dev.begun m slot).fwSlot (1 - (s.dev.begun m slot).otherSlot)).gen = some g := gen
      have legal : ((s.dev.begun m slot).fwSlot (s.dev.begun m slot).otherSlot).headOk = true := head
      unfold orderFwCommit
      dsimp only
      rw [if_pos (by simp [legal]), same]
      rfl
    obtain ⟨e, run, ends, reply⟩ := Order.run_done (i := .fwCommit m slot true) rfl t committed (ks := []) ⟨rfl, rfl, s.dev.regsBut_refl _⟩ rfl ⟨by decide, by simp⟩
    have flash := (Dev.replied_behind reply).1
    have other := s.dev.otherSlot_lt
    have slot' := (Dev.fwSlot_of_flash flash s.dev.otherSlot).trans (Dev.fwSlot_putSlot_same (s.dev.begun m slot) _ _ (by show _ < s.dev.flash.fw.length; omega))
    exact ⟨e, run, ends, by rw [slot'], by rw [slot'], (Dev.replied_fields reply).1⟩
  · have refused : (orderFwCommit trusted).act (s.dev.begun m slot) s.mem (s.dev.call m slot)
        = (((s.dev.begun m slot).putSlot s.dev.otherSlot { s.dev.fwSlot s.dev.otherSlot with gen := none }, s.mem), .done 3 []) :=
      if_neg (by rcases fails with h | h <;> simp [h, show (s.dev.begun m slot).fwSlot (s.dev.begun m slot).otherSlot = s.dev.fwSlot s.dev.otherSlot from rfl])
    obtain ⟨e, run, ends, reply⟩ := Order.run_done (i := .fwCommit m slot trusted) rfl t refused (ks := []) ⟨rfl, rfl, s.dev.regsBut_refl _⟩ rfl ⟨by decide, by simp⟩
    exact ⟨e, run, ends, (Dev.replied_fields reply).1⟩
  · have run : exec (.fwRestart m slot) s = .next (s.withDev (((s.dev.begun m slot).finish m slot 0 []).clerkReset 2)) := Order.run_goes rfl t rfl
    obtain ⟨next, -, -, -, busy, none, sram⟩ := t
    obtain ⟨⟨answered, -, -⟩, reply⟩ := Dev.acts_finish begun rfl m slot none busy (.inr sram) (status := 0) (res := []) ⟨by decide, by simp⟩
    obtain ⟨-, -, -, -, -, boot, -, own⟩ := Dev.replied_fields reply
    have clerk : s.dev.get MBX_CLERK.STATE = 1 ∨ s.dev.boot.recovery = true := by
      have up := (Bool.and_eq_true_iff.mp next).1
      simpa [Dev.clerkUp] using up
    have state := reply.regs MBX_CLERK.STATE 0 0 (by decide)
    have strap := reply.regs PWR_STRAP.BOOT 0 0 (by decide)
    generalize (s.dev.begun m slot).finish m slot 0 [] = x at *
    obtain ⟨restarts, rung, cmds, again, mbx, regs⟩ := x.clerkReset_parts 2 (clerk.imp state.trans (congrArg Boot.recovery boot).trans)
      (fun eq => boots (strap.symm.trans eq)) (own.trans none)
    exact ⟨_, run, Dev.answered_of mbx (Dev.regsBut_read regs _ _ _ rfl) (Dev.regsBut_read regs _ _ _ rfl) answered, restarts, rung, cmds, again⟩
  · have legal := Dev.takesUp_legal t
    have stored : (orderFlashCfg good).act (s.dev.begun m slot) s.mem (s.dev.call m slot) = (((s.dev.begun m slot).ovrStore ((s.dev.call m slot).bits 0 0 8)
        (if (s.dev.call m slot).bits 0 0 8 = 4 then 0 else (s.dev.call m slot).bits 0 8 3) ((s.dev.call m slot).arg 1) good, s.mem), .done (if good then 0 else 0x0B) []) := by
      cases good <;> rfl
    obtain ⟨e, run, ends, reply⟩ := Order.run_done (i := .flashCfg m slot good) rfl t stored (ks := []) ⟨rfl, rfl, s.dev.regsBut_refl _⟩ rfl ⟨by cases good <;> decide, by simp⟩
    refine ⟨e, run, ends, (Dev.replied_fields reply).1, ?_⟩
    have inForce := (s.dev.begun m slot).ovrStore_overrides ((s.dev.call m slot).bits 0 0 8) (if (s.dev.call m slot).bits 0 0 8 = 4 then 0 else (s.dev.call m slot).bits 0 8 3)
      ((s.dev.call m slot).arg 1) good two legal
    have flash := (Dev.replied_behind reply).1
    refine Eq.trans ?_ inForce
    unfold Dev.overrides
    rw [flash]
  · obtain ⟨acts, clean, modes, cal⟩ := (s.dev.begun m slot).calStore_taken
    obtain ⟨e, run, ends, reply⟩ := Order.run_done (i := .calStore m slot true) rfl t rfl ⟨acts.own, acts.time, acts.regs⟩ rfl ⟨by decide, by simp⟩
    refine ⟨e, run, ends, ?_, modes, ?_⟩
    · rw [(Dev.replied_fields reply).1]
      exact clean
    · rw [(Dev.replied_behind reply).1]
      exact cal
  · obtain ⟨acts, failed⟩ := (s.dev.begun m slot).calStore_failed
    obtain ⟨e, run, ends, reply⟩ := Order.run_done (i := .calStore m slot false) rfl t rfl ⟨acts.own, acts.time, acts.regs⟩ rfl ⟨by decide, by simp⟩
    exact ⟨e, run, ends.1, fun n => (Dev.flag_of_get (reply.regs PLB_STAT.STORE_FAIL n 0 (by decide))).trans (failed n)⟩

end Sys2Proof.Machine
end

section
/-!
PROOF. The commands of MBX8 on the Mason (R79, R301, R304, R326 to R328, R507).
-/
namespace Sys2Proof.Machine
open Reg

/-! ### Descriptors -/

/-- A word of a slot fits its register. -/
theorem Dev.call_arg_lt (d : Dev) (m slot k : Nat) : (d.call m slot).arg k < 2 ^ 32 := by
  unfold Call.arg
  split
  · show ((List.range 14).map (fun k => d.mbx.word (slotWordAt m slot (2 + k)))).getD k 0 < _
    rw [List.getD_eq_getElem?_getD, List.getElem?_map]
    cases (List.range 14)[k]? with
    | none => exact Nat.two_pow_pos 32
    | some j => exact Memory.word_lt _ _
  · exact Nat.two_pow_pos 32

/-- A descriptor accepted is the latest of its index, and of no other. -/
theorem Dev.descLatest_accept_same (d : Dev) (i : Nat) (w : List Nat) : (d.descAccept i w).descLatest i
    = [w.getD 0 0, w.getD 1 0 % 2 ^ 31 + (if bitAt ((d.descLatest i).getD 1 0) 31 then 2 ^ 31 else 0), w.getD 2 0, w.getD 3 0, w.getD 4 0, w.getD 5 0, 0,
      ((d.descLatest i).getD 7 0 + 1) % 65536] := by
  unfold Dev.descLatest Dev.descAccept
  simp only [List.lookup_cons, beq_self_eq_true]
  rfl

theorem lookup_filter_other {α : Type} (i j : Nat) (other : j ≠ i) (l : List (Nat × α)) : (l.filter (fun x => x.1 ≠ i)).lookup j = l.lookup j := by
  induction l with
  | nil => rfl
  | cons a l ih =>
    obtain ⟨k, v⟩ := a
    by_cases here : k = i
    · rw [List.filter_cons_of_neg (by simp [here]), ih, List.lookup_cons, beq_false_of_ne (by rw [here]; exact other)]
    · rw [List.filter_cons_of_pos (by simp [here]), List.lookup_cons, List.lookup_cons, ih]

theorem Dev.descLatest_accept_other (d : Dev) (i j : Nat) (w : List Nat) (other : j ≠ i) : (d.descAccept i w).descLatest j = d.descLatest j := by
  unfold Dev.descLatest
  show Option.getD (((i, _) :: d.mason.descPend.filter (fun x => x.1 ≠ i)).lookup j) _ = _
  rw [List.lookup_cons, beq_false_of_ne other, lookup_filter_other i j other]
  rfl

/-- The latest of a descriptor follows from the Mason's notes. -/
theorem Dev.descLatest_of_mason {d e : Dev} (h : e.mason = d.mason) (i : Nat) : e.descLatest i = d.descLatest i := by
  unfold Dev.descLatest Dev.descWords
  rw [h]

/-- A descriptor whose `KIND` is set to 3 reads so. -/
theorem kind_unused (x y : Nat) : bitsOf ((x ||| 3 * 2 ^ 28) % 2 ^ 31 + (if bitAt y 31 then 2 ^ 31 else 0)) 28 2 = 3 := by
  have kind : (x ||| 3 * 2 ^ 28) / 2 ^ 28 % 2 ^ 2 = 3 := by
    apply Nat.eq_of_testBit_eq
    intro k
    rw [Nat.testBit_mod_two_pow, Nat.testBit_div_two_pow, Nat.testBit_or]
    rcases (show k = 0 ∨ k = 1 ∨ 2 ≤ k by omega) with rfl | rfl | high
    · have low : Nat.testBit 805306368 28 = true := by decide
      simp [low]
    · have low : Nat.testBit 805306368 29 = true := by decide
      have three : Nat.testBit 3 1 = true := by decide
      simp [low, three]
    · have out : ¬ k < 2 := by omega
      simp only [out, decide_false, Bool.false_and]
      exact (Nat.testBit_lt_two_pow (Nat.lt_of_lt_of_le (by decide : 3 < 2 ^ 2) (Nat.pow_le_pow_right (by decide) high))).symm
  unfold bitsOf
  split <;> omega

/-- What a search for a free number finds is free. -/
theorem Dev.firstFree_free (d : Dev) (size : Nat) (used : List Nat) (i : Nat) (found : (d.firstFree size used).1 = some i) : i ∉ used := by
  have free := List.find?_some found
  simpa using free

/-- A descriptor allocated: one that was free is taken, or there is none (5), or what was written is not legal (3). -/
theorem Dev.allocates (d : Dev) (m slot : Nat) (mem : Memory) (alloc : bitAt ((d.call m slot).arg 0) 31 = true) :
    ∃ x st res, orderDescWrite.act (d.begun m slot) mem (d.call m slot) = ((x, mem), .done st res) ∧ d.acts x [] ∧ x.chs = d.chs
      ∧ (st = 0 ∨ st = 3 ∨ st = 5) ∧ res.length < 256
      ∧ (st = 0 → ∃ i, i ∉ d.descUsed ∧ res = [i] ∧ ∀ j, j ≠ i → x.descLatest j = d.descLatest j) ∧ (st ≠ 0 → x.mason = d.mason) := by
  have same : d.acts (d.begun m slot) [] := ⟨rfl, rfl, d.regsBut_refl _⟩
  have start : orderDescWrite.act (d.begun m slot) mem (d.call m slot)
      = match ((d.begun m slot).firstFree (2 ^ 20) d.descUsed).1 with
        | none => ((d.begun m slot, mem), .done 5 [])
        | some i => if (d.begun m slot).descLegal i (d.call m slot).eight
            then (((((d.begun m slot).firstFree (2 ^ 20) d.descUsed).2).descAccept i (d.call m slot).eight, mem), okWith [i]) else ((d.begun m slot, mem), .done 3 []) :=
    if_pos alloc
  cases found : ((d.begun m slot).firstFree (2 ^ 20) d.descUsed).1 with
  | none =>
    rw [found] at start
    exact ⟨_, 5, [], start, same, rfl, .inr (.inr rfl), by decide, fun h => absurd h (by decide), fun _ => rfl⟩
  | some i =>
    rw [found] at start
    dsimp only at start
    by_cases legal : (d.begun m slot).descLegal i (d.call m slot).eight = true
    · rw [if_pos legal] at start
      exact ⟨_, 0, [i], start, ⟨rfl, rfl, d.regsBut_refl _⟩, rfl, .inl rfl, by simp,
        fun _ => ⟨i, Dev.firstFree_free _ _ _ i found, rfl, fun j other => Dev.descLatest_accept_other _ _ _ _ other⟩, fun h => absurd rfl h⟩
    · rw [if_neg legal] at start
      exact ⟨_, 3, [], start, same, rfl, .inr (.inl rfl), by decide, fun h => absurd h (by decide), fun _ => rfl⟩

/-! ### Extents -/

/-- The words of an extent written into its registers. -/
def Dev.extWords (d : Dev) (i : Nat) (ws : List Nat) : Dev := ws.zipIdx.foldl (fun d x => d.set MSN_EXTi_w.WORD i x.2 x.1) d

theorem Dev.extWords_rest (d : Dev) (i : Nat) (ws : List Nat) : d.extWords i ws = { d with regs := (d.extWords i ws).regs } :=
  foldl_keeps (fun e : Dev => e = { d with regs := e.regs }) _ ws.zipIdx d (fun _ x h => congrArg (fun y : Dev => y.set MSN_EXTi_w.WORD i x.2 x.1) h) rfl

/-- The block once EXT_SET has written extent i and its commit is pending. -/
def Dev.extSet (d : Dev) (i : Nat) (c : Call) : Dev :=
  ((d.extWords i c.eight).enrol c 0x40 0 1 0 [(MSN_CTRL.OWN.id, 0)]).extAccept i c.eight (some (c.m, c.slot))

theorem Dev.extSet_parts (d : Dev) (i : Nat) (c : Call) :
    let e := d.extSet i c
    (⟨c.m, c.slot, 0x40, 0, 1, 0, 0, [(MSN_CTRL.OWN.id, 0)]⟩ : Cmd) ∈ e.cmds ∧ e.mason = { d.mason with extPend := some (i, c.eight, some (c.m, c.slot)) }
      ∧ e.flag MSN_EXT_CMD.PEND = true ∧ e.chs = d.chs := by
  have rest := d.extWords_rest i c.eight
  have mason : (d.extWords i c.eight).mason = d.mason := by rw [rest]
  have chs : (d.extWords i c.eight).chs = d.chs := by rw [rest]
  unfold Dev.extSet
  generalize d.extWords i c.eight = x at *
  refine ⟨List.mem_append_right _ (List.mem_singleton_self _), ?_, Dev.flag_raise_same _ _ _ _ (by decide), chs⟩
  rw [← mason]
  rfl

/-! ### Pages uploaded and released -/

theorem Dev.keepsSlots_framesShow (d : Dev) (n : Nat) : d.keepsSlots (d.framesShow n) ∧ (d.framesShow n).mason = d.mason := by
  unfold Dev.framesShow
  extract_lets u held a
  obtain ⟨checks, mason⟩ : d.keepsSlots a ∧ a.mason = d.mason := by
    unfold a
    split
    · exact ⟨d.keepsSlots_refl, rfl⟩
    · exact ⟨Dev.keepsSlots_set d.keepsSlots_refl MSN_STAT.CHECK_BUSY 0 0 1 (by decide), rfl⟩
  exact ⟨Dev.keepsSlots_set (Dev.keepsSlots_set checks _ _ _ _ (by decide)) _ _ _ _ (by decide), mason⟩

theorem Dev.keepsSlots_request (d : Dev) (n r p : Nat) : d.keepsSlots (d.request n r p) :=
  Dev.acts_keepsSlots ⟨rfl, rfl, d.request_regsBut n r p⟩ rfl

/-- A page placed in a frame leaves what is HELD. -/
theorem keepsSlots_placeIn (n page frame : Nat) (held : Bool) (left : Nat) (bytes : List (BitVec 8)) (p : Dev × Memory) :
    p.1.keepsSlots (placeIn n page frame held left bytes p).1 ∧ (placeIn n page frame held left bytes p).1.mason.held = p.1.mason.held := by
  unfold placeIn
  extract_lets d c src a b
  have ha : d.keepsSlots a := ⟨rfl, rfl, fun _ _ _ _ => rfl⟩
  have hb : d.keepsSlots b := Dev.keepsSlots_trans ha (a.keepsSlots_request n (a.rankOf frame) 4)
  have mason : b.mason.held = d.mason.held := rfl
  clear_value b
  obtain ⟨shows, same⟩ := b.keepsSlots_framesShow n
  exact ⟨Dev.keepsSlots_trans hb shows, (congrArg Mason.held same).trans mason⟩

theorem Dev.keepsSlots_retirePage (d : Dev) (page : Nat) : d.keepsSlots (d.retirePage page) ∧ (d.retirePage page).mason.held = d.mason.held := ⟨⟨rfl, rfl, fun _ _ _ _ => rfl⟩, rfl⟩

/-- A page is HELD in so many copies. -/
def Dev.hold (d : Dev) (page copies : Nat) : Dev :=
  { d with mason := { d.mason with
    held := (page, copies) :: d.mason.held.filter (fun h => h.1 ≠ page)
    lost := d.mason.lost.filter (fun l => l ≠ page) } }

theorem uploadPage_eq (page copies : Nat) (bytes : List (BitVec 8)) (p : Dev × Memory) : uploadPage page copies bytes p
    = match (p.1.uploadCh none).1 with
      | none => none
      | some (n, g) =>
        let q := placeIn n page g true 0 bytes (((p.1.uploadCh none).2.retirePage page).hold page copies, p.2)
        if copies < 2 then some q
        else match (q.1.uploadCh (some n.val)).1 with
          | none => none
          | some (k, h) => some (placeIn k page h true 0 bytes ((q.1.uploadCh (some n.val)).2, q.2)) := rfl

theorem Dev.keepsSlots_uploadCh (d : Dev) (off : Option Nat) : d.keepsSlots (d.uploadCh off).2 ∧ (d.uploadCh off).2.mason.held = d.mason.held :=
  ⟨⟨rfl, rfl, fun _ _ _ _ => rfl⟩, rfl⟩

/-- A page uploaded is HELD, and the pages that were stay so (R301). -/
theorem keepsSlots_uploadPage (page copies : Nat) (bytes : List (BitVec 8)) (p q : Dev × Memory) (done : uploadPage page copies bytes p = some q) :
    p.1.keepsSlots q.1 ∧ q.1.mason.held = (page, copies) :: p.1.mason.held.filter (fun h => h.1 ≠ page) := by
  obtain ⟨found, same⟩ := p.1.keepsSlots_uploadCh none
  have start : p.1.keepsSlots (((p.1.uploadCh none).2.retirePage page).hold page copies) :=
    Dev.keepsSlots_trans found (Dev.keepsSlots_trans (Dev.keepsSlots_retirePage _ page).1 ⟨rfl, rfl, fun _ _ _ _ => rfl⟩)
  have held : (((p.1.uploadCh none).2.retirePage page).hold page copies).mason.held = (page, copies) :: p.1.mason.held.filter (fun h => h.1 ≠ page) := rfl
  rw [uploadPage_eq] at done
  generalize ((p.1.uploadCh none).2.retirePage page).hold page copies = d at *
  split at done
  next => exact absurd done (by simp)
  next n g _ =>
    obtain ⟨placed, kept⟩ := keepsSlots_placeIn n page g true 0 bytes (d, p.2)
    dsimp only at done
    generalize placeIn n page g true 0 bytes (d, p.2) = r at *
    split at done
    next =>
      rw [← Option.some.inj done]
      exact ⟨Dev.keepsSlots_trans start placed, kept.trans held⟩
    next =>
      split at done
      next => exact absurd done (by simp)
      next k h _ =>
        obtain ⟨second, still⟩ := r.1.keepsSlots_uploadCh (some n.val)
        obtain ⟨again, kept'⟩ := keepsSlots_placeIn k page h true 0 bytes ((r.1.uploadCh (some n.val)).2, r.2)
        rw [← Option.some.inj done]
        exact ⟨Dev.keepsSlots_trans start (Dev.keepsSlots_trans placed (Dev.keepsSlots_trans second again)), kept'.trans (still.trans (kept.trans held))⟩

/-- Pages uploaded one after another are all HELD. -/
theorem keepsSlots_uploadPages (copies k : Nat) (bytes : List (BitVec 8)) (page : Nat) (p q : Dev × Memory) (done : uploadPages copies bytes k page p = some q) :
    p.1.keepsSlots q.1 ∧ (∀ h ∈ p.1.mason.held, h.1 < page → h ∈ q.1.mason.held) ∧ ∀ i, i < k → (page + i, copies) ∈ q.1.mason.held := by
  induction k generalizing bytes page p with
  | zero =>
    rw [← Option.some.inj done]
    exact ⟨p.1.keepsSlots_refl, fun h isin _ => isin, fun i low => absurd low (by omega)⟩
  | succ k ih =>
    unfold uploadPages at done
    split at done
    next => exact absurd done (by simp)
    next r first =>
      obtain ⟨one, held⟩ := keepsSlots_uploadPage page copies (bytes.take 65536) p r first
      obtain ⟨rest, stay, all⟩ := ih (bytes.drop 65536) (page + 1) r done
      refine ⟨Dev.keepsSlots_trans one rest, fun h isin low => stay h ?_ (by omega), fun i low => ?_⟩
      · rw [held]
        exact List.mem_cons_of_mem _ (List.mem_filter.mpr ⟨isin, by simp; omega⟩)
      · rcases Nat.eq_zero_or_pos i with rfl | some
        · exact stay (page, copies) (by rw [held]; exact List.mem_cons_self) (by show page < page + 1; omega)
        · have next := all (i - 1) (by omega)
          rwa [show page + 1 + (i - 1) = page + i by omega] at next

/-- Pages released are HELD no longer (R301). -/
theorem Dev.releasePages_parts (d : Dev) (page count : Nat) :
    d.acts (d.releasePages page count) [MSN_STAT.CHECK_BUSY.at] ∧ (d.releasePages page count).chs = d.chs
      ∧ (d.releasePages page count).mason.held = d.mason.held.filter (fun h => !(page ≤ h.1 && h.1 < page + count)) := by
  unfold Dev.releasePages
  extract_lets hit gone a src
  obtain ⟨checks, mason, chs⟩ : d.acts a [MSN_STAT.CHECK_BUSY.at] ∧ a.mason = d.mason ∧ a.chs = d.chs := by
    unfold a
    split
    · exact ⟨⟨rfl, rfl, d.regsBut_refl _⟩, rfl, rfl⟩
    · exact ⟨⟨rfl, rfl, Dev.regsBut_set MSN_STAT.CHECK_BUSY 0 0 1 (d.regsBut_refl _) (by simp)⟩, rfl, rfl⟩
  clear_value a
  refine foldl_keeps (fun e : Dev => d.acts e [MSN_STAT.CHECK_BUSY.at] ∧ e.chs = d.chs ∧ e.mason.held = d.mason.held.filter (fun h => !(page ≤ h.1 && h.1 < page + count)))
    (fun d p => d.retirePage p) gone _ (fun _ _ h => ⟨⟨h.1.own, h.1.time, h.1.regs⟩, h.2⟩) ⟨⟨checks.own, checks.time, checks.regs⟩, chs, ?_⟩
  rw [← mason]

/-! ### Backing rings -/

/-- The rings of a BACKING command set. -/
def Dev.backingSet (d : Dev) (c : Call) : Dev :=
  let d := (d.set MSN_RQ_BASE_LO.BASE_LO 0 0 (c.bits 0 12 20)).set MSN_RQ_BASE_HI.BASE_HI 0 0 (c.arg 1)
  let d := (d.set MSN_CQ_BASE_LO.BASE_LO 0 0 (c.bits 2 12 20)).set MSN_CQ_BASE_HI.BASE_HI 0 0 (c.arg 3)
  ((d.set MSN_RQ_CFG.SIZE 0 0 (c.bits 4 0 4)).set MSN_CQ_CFG.SIZE 0 0 (c.bits 4 4 4)).set MSN_RQ_CFG.EN 0 0 (c.bits 4 16 1)

/-- The registers of a BACKING command. -/
def backingKeys : List Key := [MSN_RQ_BASE_LO.BASE_LO.at, MSN_RQ_BASE_HI.BASE_HI.at, MSN_CQ_BASE_LO.BASE_LO.at, MSN_CQ_BASE_HI.BASE_HI.at, MSN_RQ_CFG.SIZE.at,
  MSN_CQ_CFG.SIZE.at, MSN_RQ_CFG.EN.at]

theorem Dev.backingSet_parts (d : Dev) (c : Call) (fits : c.arg 1 < 2 ^ 32 ∧ c.arg 3 < 2 ^ 32) :
    let e := d.backingSet c
    d.onlyRegs e backingKeys ∧ e.get MSN_RQ_CFG.SIZE = c.bits 4 0 4 ∧ e.get MSN_CQ_CFG.SIZE = c.bits 4 4 4 ∧ e.get MSN_RQ_CFG.EN = c.bits 4 16 1
      ∧ e.get MSN_RQ_BASE_LO.BASE_LO = c.bits 0 12 20 ∧ e.get MSN_RQ_BASE_HI.BASE_HI = c.arg 1
      ∧ e.get MSN_CQ_BASE_LO.BASE_LO = c.bits 2 12 20 ∧ e.get MSN_CQ_BASE_HI.BASE_HI = c.arg 3 := by
  have set {e : Dev} (h : d.onlyRegs e backingKeys) (f : Fld) (v : Nat) (isin : f.at ∈ backingKeys) : d.onlyRegs (e.set f 0 0 v) backingKeys := Dev.onlyRegs_set f 0 0 v h isin
  refine ⟨set (set (set (set (set (set (set (d.onlyRegs_refl _) _ _ (by decide)) _ _ (by decide)) _ _ (by decide)) _ _ (by decide)) _ _ (by decide)) _ _ (by decide)) _ _ (by decide), ?_⟩
  have bits (k lo w : Nat) : c.bits k lo w % 2 ^ w = c.bits k lo w := Nat.mod_mod _ _
  unfold Dev.backingSet
  simp (disch := decide) only [Dev.get_set_id, Dev.get_set_same]
  exact ⟨bits 4 0 4, bits 4 4 4, bits 4 16 1, bits 0 12 20, Nat.mod_eq_of_lt fits.1, bits 2 12 20, Nat.mod_eq_of_lt fits.2⟩

/-- Whether a BACKING command is refused: its rings run in other sizes. -/
theorem Dev.backingHeld (d : Dev) (a b : Nat) :
    (d.flag MSN_RQ_CFG.EN && (d.get MSN_RQ_CFG.SIZE ≠ a || d.get MSN_CQ_CFG.SIZE ≠ b)) = true
      ↔ d.flag MSN_RQ_CFG.EN = true ∧ (d.get MSN_RQ_CFG.SIZE ≠ a ∨ d.get MSN_CQ_CFG.SIZE ≠ b) := by
  simp

/-- Settles O42, from what each command's meaning leaves before its answer. -/
theorem masonCommands : Obligations.MasonCommands := by
  unfold Obligations.MasonCommands
  intro s m slot
  dsimp only
  refine ⟨fun t plain => ?_, fun t alloc => ?_, fun t eight => ?_, fun t => ⟨fun used => ?_, fun free eight => ?_⟩, fun t pend => ?_, fun t none plain => ⟨fun legal => ?_, fun bad => ?_⟩,
    fun b q t may plain done => ?_, fun buf t => ⟨fun backed => ?_, fun plain fails => ?_⟩, fun t => ?_, fun t => ⟨fun held => ?_, fun free => ?_⟩⟩
  · obtain ⟨e, run, ends, reply⟩ := Order.run_done (i := .descWrite m slot) rfl t (ks := []) (x := (s.dev.begun m slot).descAccept ((s.dev.call m slot).bits 0 0 20) (s.dev.call m slot).eight)
      (if_neg (by simp [plain])) ⟨rfl, rfl, s.dev.regsBut_refl _⟩ rfl ⟨by decide, by simp⟩
    have latest := Dev.descLatest_of_mason (Dev.replied_behind reply).2.1
    refine ⟨e, run, ends, (Dev.replied_fields reply).1, ?_, ?_, fun j other => ?_⟩
    · rw [latest, Dev.descLatest_accept_same]
      rfl
    · rw [latest, Dev.descLatest_accept_same]
      rfl
    · rw [latest, Dev.descLatest_accept_other _ _ _ _ other]
      rfl
  · obtain ⟨x, st, res, act, acts, chs, codes, short, found, kept⟩ := s.dev.allocates m slot s.mem alloc
    obtain ⟨e, run, ends, reply⟩ := Order.run_done (i := .descWrite m slot) rfl t act acts rfl ⟨by rcases codes with rfl | rfl | rfl <;> decide, short⟩
    have mason := (Dev.replied_behind reply).2.1
    refine ⟨st, res, e, run, ends, (Dev.replied_fields reply).1.trans chs, codes, fun zero => ?_, fun some => mason.trans (kept some)⟩
    obtain ⟨i, free, same, others⟩ := found zero
    exact ⟨i, free, same, fun j other => (Dev.descLatest_of_mason mason j).trans (others j other)⟩
  · have short : (s.dev.descView s.mem ((s.dev.call m slot).bits 0 0 20)).length < 256 := by
      show (List.set _ _ _).length < _
      rw [List.length_set, eight]
      decide
    obtain ⟨e, run, ends, reply⟩ := Order.run_idle (i := .descRead m slot) rfl t rfl ⟨by decide, short⟩
    exact ⟨e, run, ends, (Dev.replied_fields reply).1, (Dev.replied_behind reply).2.1⟩
  · obtain ⟨e, run, ends, reply⟩ := Order.run_idle (i := .descFree m slot) rfl t (if_pos used) ⟨by decide, by simp⟩
    exact ⟨e, run, ends, (Dev.replied_fields reply).1, (Dev.replied_behind reply).2.1⟩
  · obtain ⟨e, run, ends, reply⟩ := Order.run_done (i := .descFree m slot) rfl t (ks := []) (if_neg (not_not_intro free)) ⟨rfl, rfl, s.dev.regsBut_refl _⟩ rfl ⟨by decide, by simp⟩
    have latest := Dev.descLatest_of_mason (Dev.replied_behind reply).2.1
    refine ⟨e, run, ends, (Dev.replied_fields reply).1, ?_, fun j other => (latest j).trans (Dev.descLatest_accept_other _ _ _ _ other)⟩
    rw [latest, Dev.descLatest_accept_same]
    have second (w : List Nat) (long : w.length = 8) (v : Nat) : (w.set 1 v).getD 1 0 = v := by
      rw [List.getD_eq_getElem _ _ (by rw [List.length_set, long]; decide), List.getElem_set_self]
    exact (congrArg (fun v => bitsOf (v % 2 ^ 31 + _) 28 2) (second _ eight _)).trans (kind_unused _ _)
  · exact Order.run_waits rfl t (if_pos pend)
  · have run := Order.run_goes (i := .extSet m slot) rfl t (x := (s.dev.begun m slot).extSet ((s.dev.call m slot).bits 0 0 12) (s.dev.call m slot)) (mem := s.mem)
      ((if_neg (by rw [show (s.dev.begun m slot).mason = s.dev.mason from rfl, none]; decide)).trans ((if_neg (by simp [plain])).trans (if_pos legal)))
    obtain ⟨cmds, mason, flag, chs⟩ := (s.dev.begun m slot).extSet_parts ((s.dev.call m slot).bits 0 0 12) (s.dev.call m slot)
    exact ⟨_, run, ⟨_, _, cmds⟩, mason, flag, chs⟩
  · obtain ⟨e, run, ends, reply⟩ := Order.run_idle (i := .extSet m slot) rfl t
      ((if_neg (by rw [show (s.dev.begun m slot).mason = s.dev.mason from rfl, none]; decide)).trans ((if_neg (by simp [plain])).trans (if_neg (Bool.eq_false_iff.mp bad)))) ⟨by decide, by simp⟩
    exact ⟨e, run, ends, (Dev.replied_fields reply).1, (Dev.replied_behind reply).2.1⟩
  · have act : (orderUpload (some b)).act (s.dev.begun m slot) s.mem (s.dev.call m slot) = ((q.1.checkRuns, q.2), .done 0 []) := by
      refine (if_neg (Bool.eq_false_iff.mp plain)).trans ((if_pos may).trans ?_)
      dsimp only
      rw [show uploadPages _ _ _ _ _ = some q from done]
      rfl
    obtain ⟨keeps, -, held⟩ := keepsSlots_uploadPages _ _ _ _ _ _ done
    obtain ⟨e, run, answered, time, reply⟩ := Order.run_answers (i := .upload m slot (some b)) rfl t act
      (Dev.keepsSlots_set (Dev.keepsSlots_trans (s.dev.keepsSlots_asks m slot _) keeps) MSN_STAT.CHECK_BUSY 0 0 1 (by decide)) ⟨by decide, by simp⟩
    refine ⟨_, run, rfl, rfl, answered, time, fun i low => ?_⟩
    rw [(Dev.replied_behind reply).2.1]
    exact held i low
  · obtain ⟨e, run, ends, reply⟩ := Order.run_idle (i := .upload m slot buf) rfl t (if_pos backed) ⟨by decide, by simp⟩
    exact ⟨e, run, ends, (Dev.replied_fields reply).1, (Dev.replied_behind reply).2.1⟩
  · have idle : (orderUpload buf).act (s.dev.begun m slot) s.mem (s.dev.call m slot) = ((s.dev.begun m slot, s.mem), .done 0x0B []) := by
      refine (if_neg (Bool.eq_false_iff.mp plain)).trans ?_
      cases buf with
      | none => rfl
      | some b => exact if_neg (Bool.eq_false_iff.mp (fails.resolve_left (by simp)))
    obtain ⟨e, run, ends, reply⟩ := Order.run_idle (i := .upload m slot buf) rfl t idle ⟨by decide, by simp⟩
    exact ⟨e, run, ends, (Dev.replied_fields reply).1, (Dev.replied_behind reply).2.1⟩
  · obtain ⟨acts, chs, held⟩ := (s.dev.begun m slot).releasePages_parts (s.dev.call m slot).page ((s.dev.call m slot).bits 4 0 17)
    obtain ⟨e, run, ends, reply⟩ := Order.run_done (i := .release m slot) rfl t rfl ⟨acts.own, acts.time, acts.regs⟩ rfl ⟨by decide, by simp⟩
    exact ⟨e, run, ends, (Dev.replied_fields reply).1.trans chs, (congrArg Mason.held (Dev.replied_behind reply).2.1).trans held⟩
  · obtain ⟨e, run, ends, reply⟩ := Order.run_idle (i := .backing m slot) rfl t (if_pos ((s.dev.backingHeld _ _).mpr held)) ⟨by decide, by simp⟩
    exact ⟨e, run, ends, (Dev.replied_fields reply).1, trivial⟩
  · obtain ⟨only, a, b, en, lo, hi, lo', hi'⟩ := (s.dev.begun m slot).backingSet_parts (s.dev.call m slot) ⟨Dev.call_arg_lt _ _ _ _, Dev.call_arg_lt _ _ _ _⟩
    obtain ⟨e, run, ends, chs, reply⟩ := Order.run_sets (i := .backing m slot) rfl t (if_neg (fun h => free ((s.dev.backingHeld _ _).mp h))) only rfl ⟨by decide, by simp⟩
    have read (f : Fld) (out : f.id ∉ answerIds) {v : Nat} (h : ((s.dev.begun m slot).backingSet (s.dev.call m slot)).get f = v) : e.get f = v := (reply.regs f 0 0 out).trans h
    exact ⟨e, run, ends, chs, read _ (by decide) a, read _ (by decide) b, read _ (by decide) en, read _ (by decide) lo, read _ (by decide) hi, read _ (by decide) lo',
      read _ (by decide) hi'⟩

end Sys2Proof.Machine
end

section
/-!
PROOF. The event and group commands of MBX8 (R36, R139, R144, R145, R148, R504, R505, R507).
-/
namespace Sys2Proof.Machine
open Reg

/-! ### Lines -/

theorem slotsOk_halves {legal : Nat → Bool} {w : Nat} (ok : slotsOk legal w = true) :
    ¬ (bitAt (bitsOf w 0 16) 15 = true ∧ legal (bitsOf w 0 16 % 1024) = false) ∧ ¬ (bitAt (bitsOf w 16 16) 15 = true ∧ legal (bitsOf w 16 16 % 1024) = false) := by
  unfold slotsOk at ok
  have low : bitAt (bitsOf w 0 16) 15 = bitAt w 15 := by
    unfold bitAt bitsOf
    rw [Nat.testBit_mod_two_pow]
    rfl
  have high : bitAt (bitsOf w 16 16) 15 = bitAt w 31 := by
    unfold bitAt bitsOf
    rw [Nat.testBit_mod_two_pow, Nat.testBit_shiftRight]
    rfl
  have code : bitsOf w 0 16 % 1024 = w % 1024 := by unfold bitsOf; omega
  have code' : bitsOf w 16 16 % 1024 = bitsOf w 16 10 := by unfold bitsOf; omega
  rw [low, high, code, code']
  simp only [Bool.and_eq_true, Bool.or_eq_true, Bool.not_eq_true'] at ok
  obtain ⟨lo, hi⟩ := ok
  constructor
  · rintro ⟨on, bad⟩
    simp [on, bad] at lo
  · rintro ⟨on, bad⟩
    simp [on, bad] at hi

/-- Words of legal slots are taken one after another, none refused (R120). -/
theorem Dev.slotPairs_parts (legal : Nat → Bool) (mask : Nat) (low high : Fld) (l : Nat) (w : Nat → Nat) (fits : mask < 2 ^ 16)
    (lw : low.w = 16) (hw : high.w = 16) (apart : high.id ≠ low.id) (lf : EVL_STAT.CFG_REJ.id ≠ low.id) (hf : EVL_STAT.CFG_REJ.id ≠ high.id)
    (d : Dev) (rs : List Nat) (nodup : rs.Nodup) (ok : ∀ r ∈ rs, slotsOk legal (w r) = true) :
    let e := rs.foldl (fun d r => d.slotPair legal mask low high l r (w r)) d
    (∀ r ∈ rs, e.get low l r = bitsOf (w r) 0 16 &&& mask ∧ e.get high l r = bitsOf (w r) 16 16 &&& mask)
      ∧ e.get EVL_STAT.CFG_REJ = d.get EVL_STAT.CFG_REJ
      ∧ d.onlyRegs e (rs.flatMap (fun r => [low.at l r, high.at l r]) ++ [EVL_STAT.CFG_REJ.at]) := by
  induction rs generalizing d with
  | nil => exact ⟨fun r isin => absurd isin (by simp), rfl, d.onlyRegs_refl _⟩
  | cons r rs ih =>
    obtain ⟨out, nodup⟩ := List.nodup_cons.mp nodup
    obtain ⟨okl, okh⟩ := slotsOk_halves (ok r List.mem_cons_self)
    obtain ⟨lo, hi, -, -, -, rej, only⟩ := d.slotPair_parts legal mask low high l r (w r) fits lw hw apart lf hf
    obtain ⟨vals, rej', only'⟩ := ih (d.slotPair legal mask low high l r (w r)) nodup (fun r isin => ok r (List.mem_cons_of_mem _ isin))
    rw [List.foldl_cons]
    generalize d.slotPair legal mask low high l r (w r) = x at *
    generalize rs.foldl _ x = e at *
    have stays (f : Fld) (isin : f.id = low.id ∨ f.id = high.id) : e.get f l r = x.get f l r := by
      refine only'.2 f l r ?_
      simp only [List.mem_append, List.mem_flatMap, List.mem_cons, List.not_mem_nil, or_false, Fld.at, Prod.mk.injEq]
      rintro (⟨k, isin', ⟨-, -, rfl⟩ | ⟨-, -, rfl⟩⟩ | ⟨same, -, -⟩)
      · exact out isin'
      · exact out isin'
      · exact isin.elim (fun h => lf (same ▸ h)) (fun h => hf (same ▸ h))
    refine ⟨fun k isin => ?_, rej'.trans (rej okl okh), ?_⟩
    · rcases List.mem_cons.mp isin with rfl | later
      · exact ⟨(stays low (.inl rfl)).trans (lo okl), (stays high (.inr rfl)).trans (hi okh)⟩
      · exact vals k later
    · refine Dev.onlyRegs_trans (Dev.onlyRegs_mono only ?_) (Dev.onlyRegs_mono only' ?_)
      · intro k isin
        simp only [List.mem_cons, List.not_mem_nil, or_false] at isin
        rcases isin with rfl | rfl | rfl <;> simp
      · intro k isin
        rw [List.flatMap_cons, List.append_assoc]
        exact List.mem_append_right _ isin

/-! ### System events -/

/-- The registers that an origination moves. -/
def originKeys : List Key := [EVS_STAT.L_RAISED.at, EVS_LAND_LO.LAND_LO.at, EVS_LAND_HI.LAND_HI.at] ++ sysKeys

theorem Dev.originate_acts (d : Dev) (id l : Nat) : d.acts (d.originate id l).2 originKeys := by
  rw [Dev.originate_eq]
  generalize (d.time.crs + if l = 0 then d.lmin else max l d.lmin) % 2 ^ 64 = m
  have shown : d.acts (d.originated id l m) originKeys := by
    have flag : d.onlyRegs (d.raiseIf (l ≠ 0 && l < d.lmin) EVS_STAT.L_RAISED) originKeys := Dev.onlyRegs_raiseIf _ _ _ _ (d.onlyRegs_refl _) (by decide)
    have land : d.onlyRegs ((d.raiseIf (l ≠ 0 && l < d.lmin) EVS_STAT.L_RAISED).setPair EVS_LAND_LO.LAND_LO EVS_LAND_HI.LAND_HI 0 0 m) originKeys :=
      Dev.onlyRegs_set _ 0 0 _ (Dev.onlyRegs_set _ 0 0 _ flag (by decide)) (by decide)
    dsimp only [Dev.originated]
    generalize (d.raiseIf (l ≠ 0 && l < d.lmin) EVS_STAT.L_RAISED).setPair EVS_LAND_LO.LAND_LO EVS_LAND_HI.LAND_HI 0 0 m = e at *
    obtain ⟨rest, regs⟩ := land
    exact ⟨(congrArg Dev.ownWait rest :), (congrArg Dev.time rest :), regs⟩
  obtain ⟨own, time, regs⟩ := shown
  unfold Dev.sysDeliver
  generalize d.originated id l m = e at *
  obtain ⟨⟨_, _, _, _, rest⟩, keeps⟩ := e.sysTake_sysTaken id m (e.time.crs + 2)
  refine ⟨?_, ?_, Dev.regsBut_trans regs (Dev.regsBut_mono keeps (List.subset_append_right _ _))⟩
  · rw [rest]
    exact own
  · rw [rest]
    exact time

/-! ### Timed actions on sequencers -/

/-- An action of a mailbox command waits in a channel for its joint. -/
def Dev.awaits (d : Dev) (n : Fin 8) (kind : ActKind) (org : Origin) (land acc : Nat) (grp : Option Nat) : Prop :=
  ∃ a ∈ d.chs[n].acts, a.kind = kind ∧ a.land = land ∧ a.org = org ∧ a.acc = acc ∧ a.grp = grp

/-- `e` is `d` but for the channels, and the actions that waited still do. -/
def Dev.stillAwaits (d e : Dev) : Prop :=
  e = { d with chs := e.chs } ∧ ∀ n kind org land acc grp, d.awaits n kind org land acc grp → e.awaits n kind org land acc grp

theorem Dev.stillAwaits_onCh {d e : Dev} (h : d.stillAwaits e) (n : Fin 8) (f : Chan → Chan)
    (keeps : ∀ a ∈ e.chs[n].acts, ∃ b ∈ (f e.chs[n]).acts, b.kind = a.kind ∧ b.land = a.land ∧ b.org = a.org ∧ b.acc = a.acc ∧ b.grp = a.grp) : d.stillAwaits (e.onCh n f) := by
  obtain ⟨rest, waits⟩ := h
  refine ⟨by rw [rest]; rfl, fun k kind org land acc grp was => ?_⟩
  obtain ⟨a, isin, ha⟩ := waits k kind org land acc grp was
  unfold Dev.awaits
  by_cases here : k = n
  · subst here
    obtain ⟨b, isin', hb⟩ := keeps a isin
    rw [Dev.onCh_same]
    refine ⟨b, isin', ?_⟩
    obtain ⟨h1, h2, h3, h4, h5⟩ := hb
    rw [h1, h2, h3, h4, h5]
    exact ha
  · rw [Dev.onCh_other _ _ _ _ (Ne.symm here)]
    exact ⟨a, isin, ha⟩

theorem Dev.stillAwaits_relayQuiet {d e : Dev} (h : d.stillAwaits e) (mem : Memory) (n : Fin 8) (land : Nat) : d.stillAwaits (e.relayQuiet mem n land) := by
  unfold Dev.relayQuiet
  dsimp only
  split
  · exact h
  · exact Dev.stillAwaits_onCh h n _ (fun a isin => ⟨a, isin, rfl, rfl, rfl, rfl, rfl⟩)

/-- Actions marked stale still wait (R505). -/
theorem Dev.stillAwaits_goStale {d e : Dev} (h : d.stillAwaits e) (mem : Memory) (n : Fin 8) (hit : Act → Bool) : d.stillAwaits (e.goStale mem n hit) := by
  unfold Dev.goStale
  split
  · exact h
  · refine Dev.stillAwaits_relayQuiet (Dev.stillAwaits_onCh h n _ (fun a isin => ⟨_, List.mem_map_of_mem isin, ?_⟩)) mem n _
    split <;> exact ⟨rfl, rfl, rfl, rfl, rfl⟩

theorem Dev.stillAwaits_groupStale (d : Dev) (mem : Memory) (g j : Nat) : d.stillAwaits (d.groupStale mem g j) :=
  foldl_keeps (fun e : Dev => d.stillAwaits e) _ allCh d (fun _ n h => Dev.stillAwaits_goStale h mem n _) ⟨rfl, fun _ _ _ _ _ _ h => h⟩

/-- An action accepted is last in its channel under the next number. -/
theorem Dev.addAct_parts (d : Dev) (n : Fin 8) (kind : ActKind) (org : Origin) (land acc : Nat) (slots : List (Nat × Nat)) :
    let e := d.addAct n kind org land acc slots
    (∃ a : Act, a.kind = kind ∧ a.land = land ∧ a.org = org ∧ a.acc = acc ∧ a.seq = d.actSeq ∧ e.chs = (d.onCh n (fun c => { c with acts := c.acts ++ [a] })).chs)
      ∧ e.time = d.time ∧ e.cmds = d.cmds ∧ e.groups = d.groups := by
  cases kind <;> exact ⟨⟨_, rfl, rfl, rfl, rfl, rfl, rfl⟩, rfl, rfl, rfl⟩

/-- The action numbered k of a channel belongs to a group command, or to none. -/
def Dev.ofGroup (d : Dev) (n : Fin 8) (k : Nat) (grp : Option Nat) : Dev :=
  d.onCh n (fun c => { c with acts := c.acts.map (fun a => if a.seq = k then { a with grp := grp } else a) })

theorem Dev.seqAct_eq (d : Dev) (n : Fin 8) (code step land m slot : Nat) (grp : Option Nat)
    (free : ¬ (code = 1 ∧ (d.get SEQ_STAT.STATE n = 1 ∨ d.get SEQ_STAT.STATE n = 2))) :
    let b := if code = 1 || code = 3 then d.set SEQ_CTRL.START_STEP n 0 step else d
    d.seqAct n code step land m slot grp = (b.addAct n (seqKind code step) (.mbx m slot) land b.time.crs []).ofGroup n b.actSeq grp :=
  if_neg (by simpa using free)

/-- A timed action taken up: it waits in its channel, with `START_STEP` set for a START or a RESTART (R507). -/
theorem Dev.seqAct_parts (d : Dev) (n : Fin 8) (code step land m slot : Nat) (grp : Option Nat)
    (free : ¬ (code = 1 ∧ (d.get SEQ_STAT.STATE n = 1 ∨ d.get SEQ_STAT.STATE n = 2))) :
    let e := d.seqAct n code step land m slot grp
    e.awaits n (seqKind code step) (.mbx m slot) land d.time.crs grp ∧ d.chsBut e n ∧ e.time = d.time ∧ e.cmds = d.cmds ∧ e.groups = d.groups
      ∧ d.regsBut e [SEQ_CTRL.START_STEP.at n, SEQ_STAT.STATE.at n]
      ∧ ((code = 1 ∨ code = 3) → e.get SEQ_CTRL.START_STEP n = step % 2 ^ SEQ_CTRL.START_STEP.w) := by
  obtain ⟨set, step'⟩ : d.onlyRegs (if code = 1 || code = 3 then d.set SEQ_CTRL.START_STEP n 0 step else d) [SEQ_CTRL.START_STEP.at n]
      ∧ ((code = 1 ∨ code = 3) → (if code = 1 || code = 3 then d.set SEQ_CTRL.START_STEP n 0 step else d).get SEQ_CTRL.START_STEP n = step % 2 ^ SEQ_CTRL.START_STEP.w) := by
    split
    next => exact ⟨Dev.onlyRegs_set _ _ _ _ (d.onlyRegs_refl _) (by simp), fun _ => Dev.get_set_same ..⟩
    next no => exact ⟨d.onlyRegs_refl _, fun h => absurd h (by simpa using no)⟩
  rw [d.seqAct_eq n code step land m slot grp free]
  generalize (if code = 1 || code = 3 then d.set SEQ_CTRL.START_STEP n 0 step else d) = b at *
  obtain ⟨⟨a, kind, at_, org, acc, seq, chs⟩, time, cmds, groups⟩ := b.addAct_parts n (seqKind code step) (.mbx m slot) land b.time.crs []
  have shows := b.addAct_regsBut n (seqKind code step) (.mbx m slot) land b.time.crs []
  generalize b.addAct n (seqKind code step) (.mbx m slot) land b.time.crs [] = e at *
  obtain ⟨rest, regs⟩ := set
  have both : d.regsBut (e.ofGroup n b.actSeq grp) [SEQ_CTRL.START_STEP.at n, SEQ_STAT.STATE.at n] :=
    Dev.regsBut_trans (Dev.regsBut_mono regs (by simp)) (Dev.regsBut_mono shows (by simp))
  refine ⟨⟨{ a with grp := grp }, ?_, kind, at_, org, acc.trans (by rw [rest]), rfl⟩, fun k other => ?_, time.trans (by rw [rest]), cmds.trans (by rw [rest]),
    groups.trans (by rw [rest]), both, fun h => (Dev.regsBut_read shows _ _ _ rfl).trans (step' h)⟩
  · unfold Dev.ofGroup
    rw [Dev.onCh_same, chs, Dev.onCh_same]
    exact List.mem_map.mpr ⟨a, List.mem_append_right _ (List.mem_singleton_self _), if_pos seq⟩
  · unfold Dev.ofGroup
    rw [Dev.onCh_other _ _ _ _ (Ne.symm other), chs, Dev.onCh_other _ _ _ _ (Ne.symm other), rest]

/-- The same action taken up by every channel of a group. -/
theorem Dev.seqActs_parts (code step land m slot : Nat) (grp : Option Nat) (plain : code ≠ 1) (ns : List (Fin 8)) (nodup : ns.Nodup) (d : Dev) :
    let e := ns.foldl (fun d n => d.seqAct n code step land m slot grp) d
    (∀ n ∈ ns, e.awaits n (seqKind code step) (.mbx m slot) land d.time.crs grp) ∧ (∀ n, n ∉ ns → e.chs[n] = d.chs[n]) ∧ e.time = d.time ∧ e.cmds = d.cmds := by
  induction ns generalizing d with
  | nil => exact ⟨fun n isin => absurd isin (by simp), fun _ _ => rfl, rfl, rfl⟩
  | cons n ns ih =>
    obtain ⟨out, nodup⟩ := List.nodup_cons.mp nodup
    obtain ⟨waits, others, time, cmds, -⟩ := d.seqAct_parts n code step land m slot grp (fun h => plain h.1)
    obtain ⟨all, stay, time', cmds'⟩ := ih nodup (d.seqAct n code step land m slot grp)
    rw [List.foldl_cons]
    generalize d.seqAct n code step land m slot grp = x at *
    generalize ns.foldl _ x = e at *
    refine ⟨fun k isin => ?_, fun k isin => ?_, time'.trans time, cmds'.trans cmds⟩
    · rcases List.mem_cons.mp isin with rfl | later
      · unfold Dev.awaits
        rw [stay k out]
        exact waits
      · rw [← time]
        exact all k later
    · obtain ⟨other, not⟩ : k ≠ n ∧ k ∉ ns := by simpa using isin
      exact (stay k not).trans (others k other)

theorem maskChs_nodup (mask : Nat) : (maskChs mask).Nodup := List.Nodup.filter _ (by decide)

/-- All slots of a line written. -/
def Dev.lineSet (d : Dev) (c : Call) (l : Nat) : Dev :=
  (List.range 8).foldl (fun d r => d.dstWrite l r (c.arg (5 + r))) ([0, 1, 2, 3].foldl (fun d r => d.srcWrite l r (c.arg (1 + r))) d)

/-- The registers of a line. -/
def lineKeys (l : Nat) : List Key := (List.range 4).flatMap (fun r => [EVL_SRCn_r.SLOT_LO.at l r, EVL_SRCn_r.SLOT_HI.at l r])
  ++ (List.range 8).flatMap (fun r => [EVL_DSTn_r.SLOT_LO.at l r, EVL_DSTn_r.SLOT_HI.at l r]) ++ [EVL_STAT.CFG_REJ.at]

theorem Dev.lineSet_parts (d : Dev) (c : Call) (l : Nat) (ok : ∀ r ∈ [0, 1, 2, 3], slotsOk prodLegal (c.arg (1 + r)) = true)
    (ok' : ∀ r ∈ List.range 8, slotsOk consLegal (c.arg (5 + r)) = true) :
    let e := d.lineSet c l
    d.onlyRegs e (lineKeys l)
      ∧ (∀ r, r < 4 → e.get EVL_SRCn_r.SLOT_LO l r = c.arg (1 + r) % 2 ^ 16 &&& 0x83FF ∧ e.get EVL_SRCn_r.SLOT_HI l r = bitsOf (c.arg (1 + r)) 16 16 &&& 0x83FF)
      ∧ (∀ r, r < 8 → e.get EVL_DSTn_r.SLOT_LO l r = c.arg (5 + r) % 2 ^ 16 &&& 0xC3FF ∧ e.get EVL_DSTn_r.SLOT_HI l r = bitsOf (c.arg (5 + r)) 16 16 &&& 0xC3FF)
      ∧ e.get EVL_STAT.CFG_REJ = d.get EVL_STAT.CFG_REJ := by
  have srcs := Dev.slotPairs_parts prodLegal 0x83FF EVL_SRCn_r.SLOT_LO EVL_SRCn_r.SLOT_HI l (fun r => c.arg (1 + r)) (by decide) rfl rfl (by decide) (by decide) (by decide) d [0, 1, 2, 3] (by decide) ok
  have src : (fun (d : Dev) r => d.slotPair prodLegal 0x83FF EVL_SRCn_r.SLOT_LO EVL_SRCn_r.SLOT_HI l r (c.arg (1 + r))) = fun d r => d.srcWrite l r (c.arg (1 + r)) := rfl
  have dst : (fun (d : Dev) r => d.slotPair consLegal 0xC3FF EVL_DSTn_r.SLOT_LO EVL_DSTn_r.SLOT_HI l r (c.arg (5 + r))) = fun d r => d.dstWrite l r (c.arg (5 + r)) := rfl
  rw [src] at srcs
  unfold Dev.lineSet
  generalize [0, 1, 2, 3].foldl (fun (d : Dev) r => d.srcWrite l r (c.arg (1 + r))) d = x at *
  have dsts := Dev.slotPairs_parts consLegal 0xC3FF EVL_DSTn_r.SLOT_LO EVL_DSTn_r.SLOT_HI l (fun r => c.arg (5 + r)) (by decide) rfl rfl (by decide) (by decide) (by decide) x (List.range 8) (by decide) ok'
  rw [dst] at dsts
  generalize (List.range 8).foldl (fun (d : Dev) r => d.dstWrite l r (c.arg (5 + r))) x = e at *
  obtain ⟨vals, rej, only⟩ := srcs
  obtain ⟨vals', rej', only'⟩ := dsts
  have low (w : Nat) : bitsOf w 0 16 = w % 2 ^ 16 := rfl
  refine ⟨Dev.onlyRegs_trans (Dev.onlyRegs_mono only ?_) (Dev.onlyRegs_mono only' ?_), fun r small => ?_, fun r small => ?_, rej'.trans rej⟩
  · intro k isin
    rcases List.mem_append.mp isin with h | h
    · exact List.mem_append_left _ (List.mem_append_left _ h)
    · exact List.mem_append_right _ h
  · intro k isin
    rcases List.mem_append.mp isin with h | h
    · exact List.mem_append_left _ (List.mem_append_right _ h)
    · exact List.mem_append_right _ h
  · rw [Dev.regsBut_read only'.2 _ _ _ rfl, Dev.regsBut_read only'.2 _ _ _ rfl, ← low]
    exact vals r (by simp; omega)
  · rw [← low]
    exact vals' r (List.mem_range.mpr small)

/-- A group's new members wait for their joint, and the commands on the group that land there or later are stale (R504, R505). -/
def Dev.groupPends (d : Dev) (mem : Memory) (c : Call) : Dev :=
  let e := d.enrol c 0x58 (c.land d) 1 0 [(EVL_CTRL.OWN.id, 0)]
  { e with groups := e.groups ++ [(⟨c.bits 2 0 4, c.bits 2 16 8, c.land d, e.time.crs, c.m, c.slot⟩ : GroupSet)] }.groupStale mem (c.bits 2 0 4) (c.land d)

theorem orderGroupSet_act (d : Dev) (mem : Memory) (c : Call) :
    orderGroupSet.act d mem c = if c.late d then ((d, mem), .done 6 []) else ((d.groupPends mem c, mem), .goes) := rfl

theorem Dev.groupPends_parts (d : Dev) (mem : Memory) (c : Call) :
    let e := d.groupPends mem c
    (⟨c.m, c.slot, 0x58, c.land d, 1, 0, 0, [(EVL_CTRL.OWN.id, 0)]⟩ : Cmd) ∈ e.cmds ∧ e.time = d.time
      ∧ (⟨c.bits 2 0 4, c.bits 2 16 8, c.land d, d.time.crs, c.m, c.slot⟩ : GroupSet) ∈ e.groups ∧ e.regs = d.regs := by
  have rest := fun e : Dev => (e.stillAwaits_groupStale mem (c.bits 2 0 4) (c.land d)).1
  unfold Dev.groupPends
  dsimp only
  rw [rest]
  exact ⟨List.mem_append_right _ (List.mem_singleton_self _), rfl, List.mem_append_right _ (List.mem_singleton_self _), rfl⟩

/-- The members of a group take up a command's action, stale where the group changes before it lands (R505). -/
def Dev.groupActs (d : Dev) (mem : Memory) (c : Call) : Dev :=
  let ns := maskChs (d.get GRPg.MASK (c.bits 2 0 4))
  let e := ns.foldl (fun e n => e.seqAct n (c.bits 2 8 2) (c.bits 2 16 13) (c.land d) c.m c.slot (some (c.bits 2 0 4)))
    (d.enrol c 0x59 (c.land d) ns.length 0 (ns.map (fun n => (SEQ_CTRL.OWN.id, n.val))))
  if e.groups.any (fun x => x.g = c.bits 2 0 4 && x.land ≤ c.land d) then e.groupStale mem (c.bits 2 0 4) (c.land d) else e

theorem orderGroupAct_act (d : Dev) (mem : Memory) (c : Call) :
    orderGroupAct.act d mem c = if c.late d then ((d, mem), .done 6 []) else ((d.groupActs mem c, mem), .goes) := rfl

theorem Dev.groupActs_parts (d : Dev) (mem : Memory) (c : Call) (plain : c.bits 2 8 2 ≠ 1) :
    let ns := maskChs (d.get GRPg.MASK (c.bits 2 0 4))
    let e := d.groupActs mem c
    (⟨c.m, c.slot, 0x59, c.land d, ns.length, 0, 0, ns.map (fun n => (SEQ_CTRL.OWN.id, n.val))⟩ : Cmd) ∈ e.cmds ∧ e.time = d.time
      ∧ ∀ n ∈ ns, e.awaits n (seqKind (c.bits 2 8 2) (c.bits 2 16 13)) (.mbx c.m c.slot) (c.land d) d.time.crs (some (c.bits 2 0 4)) := by
  unfold Dev.groupActs
  dsimp only
  generalize maskEq : maskChs (d.get GRPg.MASK (c.bits 2 0 4)) = ns
  obtain ⟨waits, -, time, cmds⟩ := Dev.seqActs_parts (c.bits 2 8 2) (c.bits 2 16 13) (c.land d) c.m c.slot (some (c.bits 2 0 4)) plain ns (maskEq ▸ maskChs_nodup _)
    (d.enrol c 0x59 (c.land d) ns.length 0 (ns.map (fun n => (SEQ_CTRL.OWN.id, n.val))))
  generalize List.foldl _ _ ns = e at *
  have enrolled : (⟨c.m, c.slot, 0x59, c.land d, ns.length, 0, 0, ns.map (fun n => (SEQ_CTRL.OWN.id, n.val))⟩ : Cmd) ∈ e.cmds := by
    rw [cmds]
    exact List.mem_append_right _ (List.mem_singleton_self _)
  split
  · obtain ⟨rest, still⟩ := e.stillAwaits_groupStale mem (c.bits 2 0 4) (c.land d)
    refine ⟨?_, ?_, fun n isin => still _ _ _ _ _ _ (waits n isin)⟩
    · rw [rest]
      exact enrolled
    · rw [rest]
      exact time
  · exact ⟨enrolled, time, waits⟩

/-- A joint that is late for a command is so once the command has begun. -/
theorem Call.late_begun (c : Call) (d : Dev) (m slot : Nat) : c.late (d.begun m slot) = c.late d := rfl

theorem Dev.mapSet_parts (d : Dev) (id line en : Nat) :
    let a := if id % 2 = 1 then EVS_MAP.LINE_ODD else EVS_MAP.LINE_EVEN
    let b := if id % 2 = 1 then EVS_MAP.EN_ODD else EVS_MAP.EN_EVEN
    d.onlyRegs (d.mapSet id line en) [a.at (id / 2), b.at (id / 2)] ∧ (d.mapSet id line en).get a (id / 2) = line % 2 ^ 6 ∧ (d.mapSet id line en).get b (id / 2) = en % 2 ^ 1 := by
  unfold Dev.mapSet
  dsimp only
  split
  next => exact ⟨Dev.onlyRegs_set _ _ _ _ (Dev.onlyRegs_set _ _ _ _ (d.onlyRegs_refl _) (by simp)) (by simp), (Dev.get_set_id _ _ _ _ _ _ _ _ (by decide)).trans (Dev.get_set_same ..), Dev.get_set_same ..⟩
  next => exact ⟨Dev.onlyRegs_set _ _ _ _ (Dev.onlyRegs_set _ _ _ _ (d.onlyRegs_refl _) (by simp)) (by simp), (Dev.get_set_id _ _ _ _ _ _ _ _ (by decide)).trans (Dev.get_set_same ..), Dev.get_set_same ..⟩

theorem Dev.sysTxSet_parts (d : Dev) (x w : Nat) :
    let e := d.sysTxSet x w
    d.onlyRegs e [EVS_TXx.EN.at x, EVS_TXx.L.at x, EVS_TXx.ID.at x] ∧ e.get EVS_TXx.EN x = bitsOf w 31 1 ∧ e.get EVS_TXx.L x = bitsOf w 16 8 ∧ e.get EVS_TXx.ID x = bitsOf w 0 12 := by
  refine ⟨Dev.onlyRegs_set _ _ _ _ (Dev.onlyRegs_set _ _ _ _ (Dev.onlyRegs_set _ _ _ _ (d.onlyRegs_refl _) (by simp)) (by simp)) (by simp), ?_⟩
  unfold Dev.sysTxSet
  simp (disch := decide) only [Dev.get_set_id, Dev.get_set_same]
  exact ⟨Nat.mod_mod _ _, Nat.mod_mod _ _, Nat.mod_mod _ _⟩

/-- Settles O43, from what each command's meaning leaves before its answer. -/
theorem eventCommands : Obligations.EventCommands := by
  unfold Obligations.EventCommands
  intro s m slot
  dsimp only
  refine ⟨fun t => ?_, fun t => ?_, fun t => ?_, fun t => ⟨fun off => ?_, fun on full => ?_, fun on room => ?_⟩, fun t => ⟨fun late => ?_, fun early => ?_⟩,
    fun t => ⟨fun late => ?_, fun early plain => ?_⟩⟩
  · obtain ⟨ok, ok'⟩ := Bool.and_eq_true_iff.mp (Dev.takesUp_legal t)
    obtain ⟨only, srcs, dsts, rej⟩ := (s.dev.begun m slot).lineSet_parts (s.dev.call m slot) ((s.dev.call m slot).bits 0 0 6) (List.all_eq_true.mp ok) (List.all_eq_true.mp ok')
    obtain ⟨e, run, ends, chs, reply⟩ := Order.run_sets (i := .lineSet m slot) rfl t (x := (s.dev.begun m slot).lineSet (s.dev.call m slot) ((s.dev.call m slot).bits 0 0 6)) rfl only rfl
      ⟨by decide, by simp⟩
    have read (f : Fld) (n i : Nat) (out : f.id ∉ answerIds) := reply.regs f n i out
    refine ⟨e, run, ends, chs, fun r low => ?_, fun r low => ?_, (read _ _ _ (by decide)).trans rej⟩
    · rw [read _ _ _ (by decide), read _ _ _ (by decide)]
      exact srcs r low
    · rw [read _ _ _ (by decide), read _ _ _ (by decide)]
      exact dsts r low
  · obtain ⟨only, line, en⟩ := (s.dev.begun m slot).mapSet_parts ((s.dev.call m slot).bits 0 0 12) ((s.dev.call m slot).bits 0 16 6) ((s.dev.call m slot).bits 0 31 1)
    obtain ⟨e, run, ends, chs, reply⟩ := Order.run_sets (i := .sysMap m slot) rfl t rfl only (by split <;> rfl) ⟨by decide, by simp⟩
    refine ⟨e, run, ends, chs, ?_, ?_⟩
    · rw [reply.regs _ _ _ (by split <;> decide), line]
      exact Nat.mod_mod _ _
    · rw [reply.regs _ _ _ (by split <;> decide), en]
      exact Nat.mod_mod _ _
  · obtain ⟨only, en, l, id⟩ := (s.dev.begun m slot).sysTxSet_parts ((s.dev.call m slot).bits 0 0 4) ((s.dev.call m slot).arg 1)
    obtain ⟨e, run, ends, chs, reply⟩ := Order.run_sets (i := .sysTxSet m slot) rfl t rfl only rfl ⟨by decide, by simp⟩
    exact ⟨e, run, ends, chs, (reply.regs _ _ _ (by decide)).trans en, (reply.regs _ _ _ (by decide)).trans l, (reply.regs _ _ _ (by decide)).trans id⟩
  · obtain ⟨e, run, ends, reply⟩ := Order.run_idle (i := .sysFire m slot) rfl t (if_pos off) ⟨by decide, by simp⟩
    exact ⟨e, run, ends, (Dev.replied_fields reply).1, congrArg (·.origs) (Dev.replied_behind reply).2.2.1⟩
  · obtain ⟨e, run, ends, chs, reply⟩ := Order.run_sets (i := .sysFire m slot) rfl t ((if_neg (Bool.eq_false_iff.mp on)).trans (if_pos full)) (Dev.raise_onlyRegs _ _ _ _) rfl ⟨by decide, by simp⟩
    exact ⟨e, run, ends, chs, (Dev.flag_of_get (reply.regs _ 0 0 (by decide))).trans (Dev.flag_raise_same _ _ _ _ (by decide)), congrArg (·.origs) (Dev.replied_behind reply).2.2.1⟩
  · have acts := (s.dev.begun m slot).originate_acts ((s.dev.call m slot).bits 0 0 12) ((s.dev.call m slot).bits 0 16 8)
    obtain ⟨origs, -, land, -, chs, time⟩ := (s.dev.begun m slot).evsFire_taken ((s.dev.call m slot).arg 0) on room
    rw [show (s.dev.begun m slot).evsFire ((s.dev.call m slot).arg 0) = ((s.dev.begun m slot).originate ((s.dev.call m slot).bits 0 0 12) ((s.dev.call m slot).bits 0 16 8)).2 from
      (if_neg (Bool.eq_false_iff.mp on)).trans (if_neg (Nat.not_le.mpr room))] at origs land chs time
    obtain ⟨e, run, ends, reply⟩ := Order.run_done (i := .sysFire m slot) rfl t ((if_neg (Bool.eq_false_iff.mp on)).trans (if_neg (Nat.not_le.mpr room)))
      ⟨acts.own, acts.time, acts.regs⟩ rfl ⟨by decide, by simp⟩
    refine ⟨e, run, ends.1, ?_, (congrArg (·.origs) (Dev.replied_behind reply).2.2.1).trans origs, (Dev.replied_fields reply).1.trans chs, ends.2.2⟩
    refine Eq.trans ?_ land
    unfold Dev.getPair
    rw [reply.regs _ _ _ (by decide), reply.regs _ _ _ (by decide)]
  · obtain ⟨e, run, ends, reply⟩ := Order.run_idle (i := .groupSet m slot) rfl t ((orderGroupSet_act _ _ _).trans (if_pos (((s.dev.call m slot).late_begun s.dev m slot).trans late))) ⟨by decide, by simp⟩
    exact ⟨e, run, ends, (Dev.replied_fields reply).1, (Dev.replied_behind reply).2.2.2.1⟩
  · have run := Order.run_goes (i := .groupSet m slot) rfl t ((orderGroupSet_act _ _ _).trans (if_neg (Bool.eq_false_iff.mp early)))
    obtain ⟨cmds, time, groups, regs⟩ := (s.dev.begun m slot).groupPends_parts s.mem (s.dev.call m slot)
    exact ⟨_, run, ⟨_, _, cmds⟩, time, groups, regs⟩
  · obtain ⟨e, run, ends, reply⟩ := Order.run_idle (i := .groupAct m slot) rfl t ((orderGroupAct_act _ _ _).trans <| if_pos (((s.dev.call m slot).late_begun s.dev m slot).trans late)) ⟨by decide, by simp⟩
    exact ⟨e, run, ends, (Dev.replied_fields reply).1, trivial⟩
  · have run := Order.run_goes (i := .groupAct m slot) rfl t ((orderGroupAct_act _ _ _).trans (if_neg (Bool.eq_false_iff.mp early)))
    obtain ⟨cmds, time, waits⟩ := (s.dev.begun m slot).groupActs_parts s.mem (s.dev.call m slot) plain
    refine ⟨_, run, ⟨_, _, cmds⟩, time, fun n isin => ?_⟩
    obtain ⟨a, waits, kind, land, org, -, grp⟩ := waits n isin
    exact ⟨a, waits, kind, land, org, grp⟩

end Sys2Proof.Machine
end

section
/-!
PROOF. The commands of MBX8 on the course block, the ring, the bench bus, the power states and the memory test
(R15 to R18, R361 to R363, R439, R452, R463 to R472, R507, R531).
-/
namespace Sys2Proof.Machine
open Reg

/-! ### The course block and the ring -/

/-- A command for the length of the courses: refused on a member and behind the lock, or pending (R15 to R18). -/
theorem orderCrsSet_act (d : Dev) (mem : Memory) (c : Call) :
    orderCrsSet.act d mem c = if d.isMember then ((d, mem), .done 8 [])
      else if !d.lenOpen || d.flag CRS_CTRL.LEN_PEND then ((d, mem), busy3)
      else (((d.lenAccept (c.bits 0 0 16)).enrol c 0x60 (match (d.lenAccept (c.bits 0 0 16)).time.lenPend with | some x => x.2.1 | none => (d.lenAccept (c.bits 0 0 16)).time.crs)
        1 0 [(CRS_CTRL.OWN.id, 0)], mem), .goes) := rfl

/-- What holds a command for the length back. -/
theorem Dev.lenHeld_iff (d : Dev) : (!d.lenOpen || d.flag CRS_CTRL.LEN_PEND) = true ↔ d.lenOpen = false ∨ d.flag CRS_CTRL.LEN_PEND = true := by
  simp

/-- The joint at which a new length lands (R18). -/
def Dev.lenLand (d : Dev) : Nat := if d.isRoot then d.time.crs + d.lmin else d.time.crs + 2

theorem Dev.lenAccept_parts (d : Dev) (v : Nat) :
    let e := d.lenAccept v
    e.time = { d.time with lenPend := some (v, d.lenLand, d.time.crs) } ∧ e.flag CRS_CTRL.LEN_PEND = true ∧ e.chs = d.chs := by
  obtain ⟨r, eq⟩ := d.lenAccept_eq v
  rw [eq]
  exact ⟨rfl, d.lenPended_flag v, rfl⟩

theorem orderRingCtl_act (d : Dev) (mem : Memory) (c : Call) :
    orderRingCtl.act d mem c = if d.get RING_CTRL.ROLE = 0 || d.get RING_CTRL.ROLE = 3 then ((d, mem), .done 8 [])
      else if c.bits 0 0 3 = 4 then (((d.set RING_CTRL.AUTO_REJOIN 0 0 (c.bits 1 8 1)).set RING_CTRL.ISL_POL 0 0 (c.bits 1 4 1), mem), okWith [])
      else if c.bits 0 0 3 = 5 then ((d.set RING_ID.PRIO 0 0 (c.bits 1 0 8), mem), okWith [])
      else if c.bits 0 0 3 = 3 then (if d.joined then ((d.recalCmd, mem), okWith []) else ((d, mem), .done 0x0A []))
      else if c.bits 0 0 3 = 1 then
        (if d.ringSt = 1 then ((d.joinCmd.enrol c 0x70 (d.joinCmd.time.abs + 250000000) 1 0 [(RING_CTRL.OWN.id, 0)], mem), .goes) else ((d, mem), .done 3 []))
      else if d.ringSt = 5 then ((d.rejoinCmd.enrol c 0x70 (d.rejoinCmd.time.abs + 250000000) 1 0 [(RING_CTRL.OWN.id, 0)], mem), .goes) else ((d, mem), .done 3 []) := rfl

/-- A join asked for leaves time (R424). -/
theorem Dev.joinCmd_time (d : Dev) : d.joinCmd.time = d.time := by
  have starts (e : Dev) : e.joinStart.time = e.time := by
    unfold Dev.joinStart
    dsimp only
    split
    · rfl
    · split
      · rfl
      · split
        · rfl
        · rw [Dev.ringState_time, Dev.follow_time]
          rfl
  unfold Dev.joinCmd
  split
  · rw [starts, Dev.stopAll_time]
  · rfl

/-- A rejoin asked for leaves time (R452). -/
theorem Dev.rejoinCmd_time (d : Dev) : d.rejoinCmd.time = d.time := by
  unfold Dev.rejoinCmd
  split
  · have shows (e : Dev) : e.waitShow.time = e.time := rfl
    rw [shows]
    dsimp only
    exact d.stopAll_time
  · rfl

/-- Whether the device has no role on a ring. -/
theorem Dev.roleless_iff (d : Dev) : (d.get RING_CTRL.ROLE = 0 || d.get RING_CTRL.ROLE = 3) = true ↔ d.get RING_CTRL.ROLE = 0 ∨ d.get RING_CTRL.ROLE = 3 := by
  simp

theorem orderRingMsg_act (d : Dev) (mem : Memory) (c : Call) :
    orderRingMsg.act d mem c = if !d.joined then ((d, mem), .done 0x0A [])
      else if d.flag RING_MTX_CTRL.BUSY then ((d, mem), .stays)
      else ((d.msgSend (c.bits 0 0 10) (payloadOf ((List.range 13).map (fun k => c.arg (1 + k))) (c.bits 0 16 6 + 1)), mem), okWith []) := rfl

/-! ### The bench bus -/

/-- A register of several places written in a row from b on. -/
def Dev.setRow (d : Dev) (f : Fld) (n b k : Nat) (v : Nat → Nat) : Dev := (List.range k).foldl (fun d i => d.set f n (b + i) (v i)) d

theorem Dev.setRow_succ (d : Dev) (f : Fld) (n b k : Nat) (v : Nat → Nat) : d.setRow f n b (k + 1) v = (d.setRow f n b k v).set f n (b + k) (v k) := by
  unfold Dev.setRow
  rw [List.range_succ, List.foldl_append]
  rfl

/-- What a row written reads, and that nothing else moved. -/
theorem Dev.setRow_parts (d : Dev) (f : Fld) (n b k : Nat) (v : Nat → Nat) :
    (∀ i, i < k → (d.setRow f n b k v).get f n (b + i) = v i % 2 ^ f.w) ∧ d.onlyRegs (d.setRow f n b k v) ((List.range k).map (fun i => f.at n (b + i))) := by
  induction k with
  | zero => exact ⟨fun i low => absurd low (by omega), d.onlyRegs_refl _⟩
  | succ k ih =>
    obtain ⟨vals, only⟩ := ih
    rw [Dev.setRow_succ]
    refine ⟨fun i low => ?_, Dev.onlyRegs_set f n (b + k) (v k) (Dev.onlyRegs_mono only fun x isin => ?_) (List.mem_map.mpr ⟨k, by simp, rfl⟩)⟩
    · rcases Nat.lt_succ_iff_lt_or_eq.mp low with less | rfl
      · exact (Dev.get_set_other _ _ _ _ _ _ _ _ (by simp; omega)).trans (vals i less)
      · exact Dev.get_set_same ..
    · rw [List.range_succ, List.map_append]
      exact List.mem_append_left _ isin

/-- The bench switched on or off and its settings written: `EN` of the PLCA settings is written 0 first (R620). -/
def Dev.benchCfg (d : Dev) (c : Call) : Dev :=
  (((((d.set BB_CTRL.RXALL 0 0 (c.bits 0 4 1)).set BB_CTRL.ALLOW_EN 0 0 (c.bits 0 3 1)).set BB_CTRL.EN 0 0 (c.bits 0 0 1)).plcaWrite (c.arg 1 % 2 ^ 31)).plcaWrite (c.arg 1)).ptpWrite (c.arg 2)

/-- The registers of the bench's settings. -/
def benchCfgKeys : List Key := [BB_CTRL.RXALL.at, BB_CTRL.ALLOW_EN.at, BB_CTRL.EN.at, BB_PLCA.EN.at, BB_PLCA.TOT.at, BB_PLCA.NCNT.at, BB_PLCA.ID.at, BB_STAT.PLCA_ACT.at, BB_STAT.COORD.at,
  BB_STAT.CFG_REJ.at, BB_PTP_CTRL.DOMAIN.at, BB_PTP_CTRL.EN.at, BB_PTP_STAT.VALID.at, BB_PTP_STAT.STATE.at]

theorem Dev.ptpWrite_parts (d : Dev) (w : Nat) :
    let e := d.ptpWrite w
    e.get BB_PTP_CTRL.DOMAIN = bitsOf w 8 8 ∧ e.get BB_PTP_CTRL.EN = w % 2
      ∧ d.onlyRegs e [BB_PTP_CTRL.DOMAIN.at, BB_PTP_CTRL.EN.at, BB_PTP_STAT.VALID.at, BB_PTP_STAT.STATE.at] := by
  have written : d.onlyRegs ((d.set BB_PTP_CTRL.DOMAIN 0 0 (bitsOf w 8 8)).set BB_PTP_CTRL.EN 0 0 (w % 2)) [BB_PTP_CTRL.DOMAIN.at, BB_PTP_CTRL.EN.at, BB_PTP_STAT.VALID.at, BB_PTP_STAT.STATE.at] :=
    Dev.onlyRegs_set _ _ _ _ (Dev.onlyRegs_set _ _ _ _ (d.onlyRegs_refl _) (by simp)) (by simp)
  have domain : ((d.set BB_PTP_CTRL.DOMAIN 0 0 (bitsOf w 8 8)).set BB_PTP_CTRL.EN 0 0 (w % 2)).get BB_PTP_CTRL.DOMAIN = bitsOf w 8 8 :=
    (Dev.get_set_id _ _ _ _ _ _ _ _ (by decide)).trans ((Dev.get_set_same ..).trans (Nat.mod_mod _ _))
  have on : ((d.set BB_PTP_CTRL.DOMAIN 0 0 (bitsOf w 8 8)).set BB_PTP_CTRL.EN 0 0 (w % 2)).get BB_PTP_CTRL.EN = w % 2 := (Dev.get_set_same ..).trans (Nat.mod_mod _ _)
  unfold Dev.ptpWrite
  generalize (d.set BB_PTP_CTRL.DOMAIN 0 0 (bitsOf w 8 8)).set BB_PTP_CTRL.EN 0 0 (w % 2) = x at *
  dsimp only
  split
  · refine ⟨?_, ?_, Dev.onlyRegs_set _ _ _ _ (Dev.onlyRegs_set _ _ _ _ written (by simp)) (by simp)⟩
    · exact (Dev.get_set_id _ _ _ _ _ _ _ _ (by decide)).trans ((Dev.get_set_id _ _ _ _ _ _ _ _ (by decide)).trans domain)
    · exact (Dev.get_set_id _ _ _ _ _ _ _ _ (by decide)).trans ((Dev.get_set_id _ _ _ _ _ _ _ _ (by decide)).trans on)
  · split
    · exact ⟨(Dev.get_set_id _ _ _ _ _ _ _ _ (by decide)).trans domain, (Dev.get_set_id _ _ _ _ _ _ _ _ (by decide)).trans on, Dev.onlyRegs_set _ _ _ _ written (by simp)⟩
    · exact ⟨domain, on, written⟩

/-- PLCA settings written move the bench's own state and registers. -/
theorem Dev.plcaWrite_movesOnly (d : Dev) (w : Nat) : (d.plcaWrite w).ownWait = d.ownWait ∧ (d.plcaWrite w).time = d.time ∧ (d.plcaWrite w).chs = d.chs
    ∧ d.regsBut (d.plcaWrite w) [BB_PLCA.EN.at, BB_PLCA.TOT.at, BB_PLCA.NCNT.at, BB_PLCA.ID.at, BB_STAT.PLCA_ACT.at, BB_STAT.COORD.at, BB_STAT.CFG_REJ.at] := by
  by_cases legal : 1 ≤ bitsOf w 8 8 ∧ bitsOf w 8 8 ≤ 32 ∧ 16 ≤ bitsOf w 16 8
  · obtain ⟨-, -, -, -, regs, chs⟩ := d.plcaWrite_taken w legal
    have taken : (d.plcaWrite w).ownWait = d.ownWait ∧ (d.plcaWrite w).time = d.time := by
      unfold Dev.plcaWrite
      rw [if_neg (by simp; omega)]
      exact ⟨rfl, rfl⟩
    exact ⟨taken.1, taken.2, chs, Dev.regsBut_mono regs (by simp)⟩
  · have refused : d.plcaWrite w = d.raise BB_STAT.CFG_REJ := if_pos (by simp; omega)
    rw [refused]
    exact ⟨rfl, rfl, rfl, Dev.regsBut_mono (Dev.raise_onlyRegs _ _ _ _).2 (by simp)⟩

theorem Dev.benchCfg_parts (d : Dev) (c : Call) (legal : 1 ≤ c.bits 1 8 8 ∧ c.bits 1 8 8 ≤ 32 ∧ 16 ≤ c.bits 1 16 8) :
    let e := d.benchCfg c
    d.acts e benchCfgKeys ∧ e.chs = d.chs ∧ e.get BB_CTRL.RXALL = c.bits 0 4 1 ∧ e.get BB_CTRL.ALLOW_EN = c.bits 0 3 1 ∧ e.get BB_CTRL.EN = c.bits 0 0 1
      ∧ e.get BB_PLCA.EN = c.bits 1 31 1 ∧ e.get BB_PLCA.TOT = c.bits 1 16 8 ∧ e.get BB_PLCA.NCNT = c.bits 1 8 8 ∧ e.get BB_PLCA.ID = c.bits 1 0 8
      ∧ e.get BB_PTP_CTRL.DOMAIN = c.bits 2 8 8 ∧ e.get BB_PTP_CTRL.EN = c.bits 2 0 1 := by
  have start : d.onlyRegs (((d.set BB_CTRL.RXALL 0 0 (c.bits 0 4 1)).set BB_CTRL.ALLOW_EN 0 0 (c.bits 0 3 1)).set BB_CTRL.EN 0 0 (c.bits 0 0 1)) benchCfgKeys :=
    Dev.onlyRegs_set _ _ _ _ (Dev.onlyRegs_set _ _ _ _ (Dev.onlyRegs_set _ _ _ _ (d.onlyRegs_refl _) (by decide)) (by decide)) (by decide)
  have bits (k lo w : Nat) : c.bits k lo w % 2 ^ w = c.bits k lo w := Nat.mod_mod _ _
  have rxall : (((d.set BB_CTRL.RXALL 0 0 (c.bits 0 4 1)).set BB_CTRL.ALLOW_EN 0 0 (c.bits 0 3 1)).set BB_CTRL.EN 0 0 (c.bits 0 0 1)).get BB_CTRL.RXALL = c.bits 0 4 1 := by
    simp (disch := decide) only [Dev.get_set_id, Dev.get_set_same]
    exact bits 0 4 1
  have allow : (((d.set BB_CTRL.RXALL 0 0 (c.bits 0 4 1)).set BB_CTRL.ALLOW_EN 0 0 (c.bits 0 3 1)).set BB_CTRL.EN 0 0 (c.bits 0 0 1)).get BB_CTRL.ALLOW_EN = c.bits 0 3 1 := by
    simp (disch := decide) only [Dev.get_set_id, Dev.get_set_same]
    exact bits 0 3 1
  have on : (((d.set BB_CTRL.RXALL 0 0 (c.bits 0 4 1)).set BB_CTRL.ALLOW_EN 0 0 (c.bits 0 3 1)).set BB_CTRL.EN 0 0 (c.bits 0 0 1)).get BB_CTRL.EN = c.bits 0 0 1 :=
    (Dev.get_set_same ..).trans (bits 0 0 1)
  unfold Dev.benchCfg
  generalize ((d.set BB_CTRL.RXALL 0 0 (c.bits 0 4 1)).set BB_CTRL.ALLOW_EN 0 0 (c.bits 0 3 1)).set BB_CTRL.EN 0 0 (c.bits 0 0 1) = x at *
  obtain ⟨own, time, chs, regs⟩ := x.plcaWrite_movesOnly (c.arg 1 % 2 ^ 31)
  generalize x.plcaWrite (c.arg 1 % 2 ^ 31) = y at *
  obtain ⟨own', time', chs', regs'⟩ := y.plcaWrite_movesOnly (c.arg 1)
  obtain ⟨en, tot, ncnt, id, -, -⟩ := y.plcaWrite_taken (c.arg 1) legal
  generalize y.plcaWrite (c.arg 1) = z at *
  obtain ⟨domain, ptp, only⟩ := z.ptpWrite_parts (c.arg 2)
  generalize z.ptpWrite (c.arg 2) = e at *
  obtain ⟨rest, set⟩ := start
  obtain ⟨rest', set'⟩ := only
  have all : d.regsBut e benchCfgKeys :=
    Dev.regsBut_trans set (Dev.regsBut_trans (Dev.regsBut_mono regs (by decide)) (Dev.regsBut_trans (Dev.regsBut_mono regs' (by decide)) (Dev.regsBut_mono set' (by decide))))
  have early (f : Fld) (h : [BB_PLCA.EN.at, BB_PLCA.TOT.at, BB_PLCA.NCNT.at, BB_PLCA.ID.at, BB_STAT.PLCA_ACT.at, BB_STAT.COORD.at, BB_STAT.CFG_REJ.at].all (fun k => k.1 != f.id) = true)
      (h' : [BB_PTP_CTRL.DOMAIN.at, BB_PTP_CTRL.EN.at, BB_PTP_STAT.VALID.at, BB_PTP_STAT.STATE.at].all (fun k => k.1 != f.id) = true) : e.get f = x.get f :=
    (Dev.regsBut_read set' f 0 0 h').trans ((Dev.regsBut_read regs' f 0 0 h).trans (Dev.regsBut_read regs f 0 0 h))
  have late (f : Fld) (h' : [BB_PTP_CTRL.DOMAIN.at, BB_PTP_CTRL.EN.at, BB_PTP_STAT.VALID.at, BB_PTP_STAT.STATE.at].all (fun k => k.1 != f.id) = true) : e.get f = z.get f :=
    Dev.regsBut_read set' f 0 0 h'
  refine ⟨⟨?_, ?_, all⟩, ?_, (early _ rfl rfl).trans rxall, (early _ rfl rfl).trans allow, (early _ rfl rfl).trans on, (late _ rfl).trans en, (late _ rfl).trans tot, (late _ rfl).trans ncnt,
    (late _ rfl).trans id, domain, ptp.trans rfl⟩
  · rw [rest']
    exact own'.trans (own.trans (by rw [rest]))
  · rw [rest']
    exact time'.trans (time.trans (by rw [rest]))
  · rw [rest']
    exact chs'.trans (chs.trans (by rw [rest]))

/-- An entry of the allow-list as a command sets it. -/
def Dev.benchAllow (d : Dev) (c : Call) (a : Nat) : Dev :=
  (((d.set BB_ALLOWa_LO.MAC_LO a 0 (c.arg 1)).set BB_ALLOWa_HI.MAC_HI a 0 (c.bits 2 0 16)).set BB_ALLOWa_HI.STOP_OK a 0 (c.bits 2 30 1)).set BB_ALLOWa_HI.EN a 0 (c.bits 2 31 1)

theorem Dev.benchAllow_parts (d : Dev) (c : Call) (a : Nat) (fits : ∀ k, c.arg k < 2 ^ 32) :
    let e := d.benchAllow c a
    d.onlyRegs e [BB_ALLOWa_LO.MAC_LO.at a, BB_ALLOWa_HI.MAC_HI.at a, BB_ALLOWa_HI.STOP_OK.at a, BB_ALLOWa_HI.EN.at a]
      ∧ e.get BB_ALLOWa_LO.MAC_LO a = c.arg 1 ∧ e.get BB_ALLOWa_HI.MAC_HI a = c.bits 2 0 16 ∧ e.get BB_ALLOWa_HI.STOP_OK a = c.bits 2 30 1 ∧ e.get BB_ALLOWa_HI.EN a = c.bits 2 31 1 := by
  refine ⟨Dev.onlyRegs_set _ _ _ _ (Dev.onlyRegs_set _ _ _ _ (Dev.onlyRegs_set _ _ _ _ (Dev.onlyRegs_set _ _ _ _ (d.onlyRegs_refl _) (by simp)) (by simp)) (by simp)) (by simp), ?_⟩
  unfold Dev.benchAllow
  simp (disch := decide) only [Dev.get_set_id, Dev.get_set_same]
  exact ⟨Nat.mod_eq_of_lt (fits 1), Nat.mod_mod _ _, Nat.mod_mod _ _, Nat.mod_mod _ _⟩

/-- A filter as a command sets it (R466). -/
def Dev.benchFilter (d : Dev) (c : Call) (x : Nat) : Dev :=
  ((((d.filterWrite x 0 (c.arg 1)).set BB_FLTx_1.TOPIC x 0 (c.arg 2)).set BB_FLTx_2.TMASK x 0 (c.arg 3)).set BB_FLTx_3.PVAL x 0 (c.arg 4)).set BB_FLTx_4.PMASK x 0 (c.arg 5)

/-- The registers of a filter. -/
def filterKeys (x : Nat) : List Key := [BB_FLTx_0.EN.at x, BB_FLTx_0.Q.at x, BB_FLTx_0.POFS.at x, BB_FLTx_0.KIND.at x, BB_FLTx_0.SRC.at x, BB_FLTx_1.TOPIC.at x, BB_FLTx_2.TMASK.at x,
  BB_FLTx_3.PVAL.at x, BB_FLTx_4.PMASK.at x]

theorem Dev.benchFilter_parts (d : Dev) (c : Call) (x : Nat) (fits : ∀ k, c.arg k < 2 ^ 32) (legal : c.bits 1 0 5 ≤ 16) :
    let e := d.benchFilter c x
    d.onlyRegs e (filterKeys x) ∧ e.get BB_FLTx_0.EN x = c.bits 1 31 1 ∧ e.get BB_FLTx_0.Q x = c.bits 1 30 1 ∧ e.get BB_FLTx_0.POFS x = c.bits 1 16 6
      ∧ e.get BB_FLTx_0.KIND x = c.bits 1 8 8 ∧ e.get BB_FLTx_0.SRC x = c.bits 1 0 5 ∧ e.get BB_FLTx_1.TOPIC x = c.arg 2
      ∧ e.get BB_FLTx_2.TMASK x = c.arg 3 ∧ e.get BB_FLTx_3.PVAL x = c.arg 4 ∧ e.get BB_FLTx_4.PMASK x = c.arg 5 := by
  obtain ⟨en, q, pofs, kind, src, only⟩ := d.filterWrite_taken x (c.arg 1) legal
  unfold Dev.benchFilter
  generalize d.filterWrite x 0 (c.arg 1) = y at *
  refine ⟨Dev.onlyRegs_set _ _ _ _ (Dev.onlyRegs_set _ _ _ _ (Dev.onlyRegs_set _ _ _ _ (Dev.onlyRegs_set _ _ _ _ (Dev.onlyRegs_mono only ?_) ?_) ?_) ?_) ?_, ?_⟩
  case refine_6 =>
    simp (disch := decide) only [Dev.get_set_id, Dev.get_set_same]
    exact ⟨en, q, pofs, kind, src, Nat.mod_eq_of_lt (fits 2), Nat.mod_eq_of_lt (fits 3), Nat.mod_eq_of_lt (fits 4), Nat.mod_eq_of_lt (fits 5)⟩
  all_goals simp [filterKeys]

/-- A template as a command sets it (R471). -/
def Dev.benchTemplate (d : Dev) (c : Call) (x : Nat) : Dev :=
  ((d.templateWrite x 0 (c.arg 1)).set BB_TXx_1.TOPIC x 0 (c.arg 2)).setRow BB_TXx_D.DATA x 0 8 (fun k => c.arg (3 + k))

theorem benchTemplate_eq (d : Dev) (c : Call) (x : Nat) : (List.range 10).foldl (fun d k => d.templateWrite x k (c.arg (1 + k))) d = d.benchTemplate c x := rfl

/-- The registers of a template. -/
def templateKeys (x : Nat) : List Key := [BB_TXx_0.ESS.at x, BB_TXx_0.DEST.at x, BB_TXx_0.LEN.at x, BB_TXx_0.KIND.at x, BB_TXx_1.TOPIC.at x]
  ++ (List.range 8).map (fun k => BB_TXx_D.DATA.at x k)

theorem Dev.benchTemplate_parts (d : Dev) (c : Call) (x : Nat) (fits : ∀ k, c.arg k < 2 ^ 32) (legal : c.bits 1 16 6 ≤ 32 ∧ 1 ≤ c.bits 1 0 8 ∧ c.bits 1 0 8 ≤ 4) :
    let e := d.benchTemplate c x
    d.onlyRegs e (templateKeys x) ∧ e.get BB_TXx_0.ESS x = c.bits 1 30 1 ∧ e.get BB_TXx_0.DEST x = c.bits 1 24 5 ∧ e.get BB_TXx_0.LEN x = c.bits 1 16 6
      ∧ e.get BB_TXx_0.KIND x = c.bits 1 0 8 ∧ e.get BB_TXx_1.TOPIC x = c.arg 2 ∧ ∀ k, k < 8 → e.get BB_TXx_D.DATA x k = c.arg (3 + k) := by
  obtain ⟨ess, dest, len, kind, only⟩ := d.templateWrite_taken x (c.arg 1) legal
  unfold Dev.benchTemplate
  generalize d.templateWrite x 0 (c.arg 1) = y at *
  obtain ⟨vals, row⟩ := (y.set BB_TXx_1.TOPIC x 0 (c.arg 2)).setRow_parts BB_TXx_D.DATA x 0 8 (fun k => c.arg (3 + k))
  simp only [Nat.zero_add] at vals row
  have topic : (y.set BB_TXx_1.TOPIC x 0 (c.arg 2)).get BB_TXx_1.TOPIC x = c.arg 2 := (Dev.get_set_same ..).trans (Nat.mod_eq_of_lt (fits 2))
  have named : d.onlyRegs (y.set BB_TXx_1.TOPIC x 0 (c.arg 2)) (templateKeys x) := Dev.onlyRegs_set _ _ _ _ (Dev.onlyRegs_mono only (by simp [templateKeys])) (by simp [templateKeys])
  have kept (f : Fld) (other : f.id ≠ BB_TXx_1.TOPIC.id) : (y.set BB_TXx_1.TOPIC x 0 (c.arg 2)).get f x = y.get f x := Dev.get_set_id _ _ _ _ _ _ _ _ (Ne.symm other)
  have read (f : Fld) (h : ((List.range 8).map (fun k => BB_TXx_D.DATA.at x k)).all (fun k => k.1 != f.id) = true) := Dev.regsBut_read row.2 f x 0 h
  refine ⟨Dev.onlyRegs_trans named (Dev.onlyRegs_mono row (List.subset_append_right _ _)), ?_, ?_, ?_, ?_, (read _ rfl).trans topic, fun k low => (vals k low).trans (Nat.mod_eq_of_lt (fits _))⟩
  · exact (read _ rfl).trans ((kept _ (by decide)).trans ess)
  · exact (read _ rfl).trans ((kept _ (by decide)).trans dest)
  · exact (read _ rfl).trans ((kept _ (by decide)).trans len)
  · exact (read _ rfl).trans ((kept _ (by decide)).trans kind)

theorem orderBenchSend_act (d : Dev) (mem : Memory) (c : Call) :
    orderBenchSend.act d mem c = if d.flag BB_HTX_CTRL.BUSY || (d.flag BB_STAT.STOPPED && !(bitAt (c.arg 0) 30 || c.bits 0 0 8 = 3 || c.bits 0 0 8 = 4)) then ((d, mem), busy3)
      else ((((d.enrol c 0x7C 0 1 0 [(BB_CTRL.OWN.id, 0)]).htxSet (c.arg 1) ((List.range 11).map (fun k => c.arg (2 + k)))).hostSend (c.bits 0 24 5) (c.bits 0 0 8) (c.arg 1) (c.bits 0 8 9)
        (bitAt (c.arg 0) 30) (payloadOf ((List.range 11).map (fun k => c.arg (2 + k))) (c.bits 0 8 9)), mem), .goes) := rfl

/-- What shuts a message of the host out (R472). -/
theorem Dev.sendShut_iff (d : Dev) (c : Call) :
    (d.flag BB_HTX_CTRL.BUSY || (d.flag BB_STAT.STOPPED && !(bitAt (c.arg 0) 30 || c.bits 0 0 8 = 3 || c.bits 0 0 8 = 4))) = true
      ↔ d.flag BB_HTX_CTRL.BUSY = true ∨ (d.flag BB_STAT.STOPPED = true ∧ bitAt (c.arg 0) 30 = false ∧ c.bits 0 0 8 ≠ 3 ∧ c.bits 0 0 8 ≠ 4) := by
  simp [and_assoc]

/-- The topic and the payload of the host's message. -/
theorem Dev.htxSet_parts (d : Dev) (topic : Nat) (ws : List Nat) (fits : topic < 2 ^ 32) :
    let e := d.htxSet topic ws
    e = { d with regs := e.regs } ∧ e.get BB_HTX_TOPIC.TOPIC = topic ∧ e.get BB_HTX_CTRL.BUSY = d.get BB_HTX_CTRL.BUSY ∧ e.get BB_STAT.STOPPED = d.get BB_STAT.STOPPED := by
  refine foldl_keeps (fun e : Dev => e = { d with regs := e.regs } ∧ e.get BB_HTX_TOPIC.TOPIC = topic ∧ e.get BB_HTX_CTRL.BUSY = d.get BB_HTX_CTRL.BUSY ∧ e.get BB_STAT.STOPPED = d.get BB_STAT.STOPPED)
    (fun d x => d.set BB_HTX_Dw.DATA x.2 0 x.1) ws.zipIdx (d.set BB_HTX_TOPIC.TOPIC 0 0 topic) (fun e x h => ?_) ?_
  · obtain ⟨rest, is, busy, stopped⟩ := h
    exact ⟨congrArg (fun y : Dev => y.set BB_HTX_Dw.DATA x.2 0 x.1) rest, (Dev.get_set_id _ _ _ _ _ _ _ _ (by decide)).trans is, (Dev.get_set_id _ _ _ _ _ _ _ _ (by decide)).trans busy,
      (Dev.get_set_id _ _ _ _ _ _ _ _ (by decide)).trans stopped⟩
  · exact ⟨rfl, (Dev.get_set_same ..).trans (Nat.mod_eq_of_lt fits), Dev.get_set_id _ _ _ _ _ _ _ _ (by decide), Dev.get_set_id _ _ _ _ _ _ _ _ (by decide)⟩

/-! ### Power states and the memory test -/

theorem orderPower_act (d : Dev) (mem : Memory) (c : Call) :
    orderPower.act d mem c = (((d.powerRequest (c.bits 0 0 2) 2).1, mem), if (d.powerRequest (c.bits 0 0 2) 2).2 then busy3 else okWith []) := rfl

/-- A power state asked for follows from the registers, the power's notes and the channels. -/
theorem Dev.powerRequest_congr {d e : Dev} (regs : e.regs = d.regs) (power : e.power = d.power) (chs : e.chs = d.chs) (st src : Nat) :
    (e.powerRequest st src).2 = (d.powerRequest st src).2 ∧ (e.powerRequest st src).1.power = (d.powerRequest st src).1.power := by
  have read (f : Fld) (n i : Nat) : e.get f n i = d.get f n i := Dev.get_of_regs regs f n i
  have busy : e.powerBusy = d.powerBusy := by
    unfold Dev.powerBusy
    simp only [read, chs]
  have wakes : (e.wake src).power = (d.wake src).power := by
    unfold Dev.wake
    simp only [read, power]
    split
    · rfl
    · split
      · rfl
      · exact power
  unfold Dev.powerRequest
  simp only [read, power, busy]
  split
  · exact ⟨rfl, power⟩
  · split
    · exact ⟨rfl, rfl⟩
    · split
      · exact ⟨rfl, power⟩
      · split
        · exact ⟨rfl, wakes⟩
        · split
          · exact ⟨rfl, by rw [wakes]⟩
          · split
            · exact ⟨rfl, power⟩
            · exact ⟨rfl, rfl⟩

/-- A power state asked for: a refusal changes nothing, and else only the power's notes and two registers move. -/
theorem Dev.powerRequest_parts (d : Dev) (st src : Nat) (legal : st ≠ 3) :
    ((d.powerRequest st src).2 = true → (d.powerRequest st src).1 = d)
      ∧ (d.powerRequest st src).1 = { d with regs := (d.powerRequest st src).1.regs, power := (d.powerRequest st src).1.power }
      ∧ d.regsBut (d.powerRequest st src).1 [PWR_STAT.STATE.at, PWR_STAT.WAKE_SRC.at] := by
  have wakes : d.wake src = { d with regs := (d.wake src).regs, power := (d.wake src).power } ∧ d.regsBut (d.wake src) [PWR_STAT.STATE.at, PWR_STAT.WAKE_SRC.at] := by
    unfold Dev.wake
    split
    · exact ⟨rfl, d.regsBut_refl _⟩
    · split
      · exact ⟨rfl, Dev.regsBut_set _ _ _ _ (Dev.regsBut_set _ _ _ _ (fun _ _ _ _ => rfl) (by simp)) (by simp)⟩
      · exact ⟨rfl, d.regsBut_refl _⟩
  obtain ⟨rest, regs⟩ := wakes
  unfold Dev.powerRequest
  extract_lets now keep
  rw [if_neg legal]
  split
  · exact ⟨fun h => absurd h (by simp), rfl, d.regsBut_refl _⟩
  · split
    · exact ⟨fun _ => rfl, rfl, d.regsBut_refl _⟩
    · split
      · exact ⟨fun h => absurd h (by simp), rest, regs⟩
      · split
        · exact ⟨fun h => absurd h (by simp), by unfold keep; rw [rest], regs⟩
        · split
          · exact ⟨fun _ => rfl, rfl, d.regsBut_refl _⟩
          · exact ⟨fun h => absurd h (by simp), rfl, d.regsBut_refl _⟩

/-- A command for a march test on request. -/
def Dev.testAsks (d : Dev) (c : Call) : Dev := d.enrol c 0x90 0 1 0 [(MEM_CTRL.OWN.id, 0)]

theorem orderMemTest_act (d : Dev) (mem : Memory) (c : Call) :
    orderMemTest.act d mem c = (((d.testAsks c).marchAsk mem (Fin.ofNat 8 (c.bits 0 4 3)) (c.bits 0 8 4) (some (c.m, c.slot)), mem), .goes) := rfl

/-- A march test is refused while one runs (R362). -/
theorem Dev.marchRefused_runs (d : Dev) (mem : Memory) (n : Fin 8) (bank : Nat) (runs : d.sram.test.isSome = true) : d.marchRefused mem n bank = true := by
  unfold Dev.marchRefused
  simp [runs]

/-- A march test refused answers result 4 (R362). -/
theorem Dev.marchAsk_refused (d : Dev) (mem : Memory) (n : Fin 8) (bank m slot : Nat) (no : d.marchRefused mem n bank = true) :
    d.marchAsk mem n bank (some (m, slot)) = (d.set MEM_MT.RESULT 0 0 4).finish m slot 0 [4] := if_pos no

/-- Settles O44, from what each command's meaning leaves before its answer. -/
theorem unitCommands : Obligations.UnitCommands := by
  unfold Obligations.UnitCommands
  intro s m slot
  dsimp only
  have fits (k : Nat) : (s.dev.call m slot).arg k < 2 ^ 32 := Dev.call_arg_lt _ _ _ _
  refine ⟨fun t => ⟨fun member => ?_, fun apart held => ?_, fun apart lock free => ?_⟩, fun t => ?_,
    fun t => ⟨fun alone => ?_, fun ring four => ?_, fun ring five => ?_, fun ring three off => ?_, fun ring bad => ?_, fun ring good => ?_⟩,
    fun t => ⟨fun off => ?_, fun on busy => ?_, fun on idle => ?_⟩, fun t => ?_, fun t => ?_, fun t => ?_, fun t => ?_, fun t => ⟨fun shut => ?_, fun free => ?_⟩,
    fun t => ⟨fun no => ?_, fun yes => ?_⟩, fun t => ⟨fun runs => ?_, fun no => ?_, fun yes => ?_⟩⟩
  · obtain ⟨e, run, ends, reply⟩ := Order.run_idle (i := .crsSet m slot) rfl t ((orderCrsSet_act ..).trans (if_pos member)) ⟨by decide, by simp⟩
    exact ⟨e, run, ends, (Dev.replied_fields reply).1, trivial⟩
  · obtain ⟨e, run, ends, reply⟩ := Order.run_idle (i := .crsSet m slot) rfl t ((orderCrsSet_act ..).trans ((if_neg (Bool.eq_false_iff.mp apart)).trans (if_pos (s.dev.lenHeld_iff.mpr held)))) ⟨by decide, by simp⟩
    exact ⟨e, run, ends, (Dev.replied_fields reply).1, trivial⟩
  · obtain ⟨time, flag, chs⟩ := (s.dev.begun m slot).lenAccept_parts ((s.dev.call m slot).bits 0 0 16)
    have run := Order.run_goes (i := .crsSet m slot) rfl t ((orderCrsSet_act ..).trans ((if_neg (Bool.eq_false_iff.mp apart)).trans
      (if_neg (fun held => (s.dev.lenHeld_iff.mp held).elim (fun h => absurd (lock.symm.trans h) (by decide)) (fun h => absurd (free.symm.trans h) (by decide))))))
    rw [time] at run
    exact ⟨_, run, ⟨_, _, List.mem_append_right _ (List.mem_singleton_self _)⟩, flag, time, chs⟩
  · have sets : (s.dev.begun m slot).onlyRegs (((s.dev.begun m slot).set SYNC_CTRL.EDGE 0 0 ((s.dev.call m slot).bits 0 1 1)).set SYNC_CTRL.EN 0 0 ((s.dev.call m slot).bits 0 0 1))
        [SYNC_CTRL.EDGE.at, SYNC_CTRL.EN.at] := Dev.onlyRegs_set _ _ _ _ (Dev.onlyRegs_set _ _ _ _ (Dev.onlyRegs_refl _ _) (by simp)) (by simp)
    obtain ⟨e, run, ends, chs, reply⟩ := Order.run_sets (i := .syncSet m slot) rfl t rfl sets rfl ⟨by decide, by simp⟩
    refine ⟨e, run, ends, chs, (reply.regs _ _ _ (by decide)).trans ?_, (reply.regs _ _ _ (by decide)).trans ?_⟩
    · exact (Dev.get_set_id _ _ _ _ _ _ _ _ (by decide)).trans ((Dev.get_set_same ..).trans (Nat.mod_mod _ _))
    · exact (Dev.get_set_same ..).trans (Nat.mod_mod _ _)
  · obtain ⟨e, run, ends, reply⟩ := Order.run_idle (i := .ringCtl m slot) rfl t ((orderRingCtl_act ..).trans (if_pos (s.dev.roleless_iff.mpr alone))) ⟨by decide, by simp⟩
    exact ⟨e, run, ends, (Dev.replied_fields reply).1, trivial⟩
  · have sets : (s.dev.begun m slot).onlyRegs (((s.dev.begun m slot).set RING_CTRL.AUTO_REJOIN 0 0 ((s.dev.call m slot).bits 1 8 1)).set RING_CTRL.ISL_POL 0 0 ((s.dev.call m slot).bits 1 4 1))
        [RING_CTRL.AUTO_REJOIN.at, RING_CTRL.ISL_POL.at] := Dev.onlyRegs_set _ _ _ _ (Dev.onlyRegs_set _ _ _ _ (Dev.onlyRegs_refl _ _) (by simp)) (by simp)
    obtain ⟨e, run, ends, chs, reply⟩ := Order.run_sets (i := .ringCtl m slot) rfl t ((orderRingCtl_act ..).trans ((if_neg (fun h => ring (s.dev.roleless_iff.mp h))).trans (if_pos four))) sets rfl
      ⟨by decide, by simp⟩
    refine ⟨e, run, ends, chs, (reply.regs _ _ _ (by decide)).trans ?_, (reply.regs _ _ _ (by decide)).trans ?_⟩
    · exact (Dev.get_set_id _ _ _ _ _ _ _ _ (by decide)).trans ((Dev.get_set_same ..).trans (Nat.mod_mod _ _))
    · exact (Dev.get_set_same ..).trans (Nat.mod_mod _ _)
  · obtain ⟨e, run, ends, chs, reply⟩ := Order.run_sets (i := .ringCtl m slot) rfl t ((orderRingCtl_act ..).trans ((if_neg (fun h => ring (s.dev.roleless_iff.mp h))).trans
        ((if_neg (by omega)).trans (if_pos five)))) (Dev.onlyRegs_set RING_ID.PRIO 0 0 _ (Dev.onlyRegs_refl _ [RING_ID.PRIO.at]) (by simp)) rfl ⟨by decide, by simp⟩
    exact ⟨e, run, ends, chs, (reply.regs _ _ _ (by decide)).trans ((Dev.get_set_same ..).trans (Nat.mod_mod _ _))⟩
  · obtain ⟨e, run, ends, reply⟩ := Order.run_idle (i := .ringCtl m slot) rfl t ((orderRingCtl_act ..).trans ((if_neg (fun h => ring (s.dev.roleless_iff.mp h))).trans
        ((if_neg (by omega)).trans ((if_neg (by omega)).trans ((if_pos three).trans (if_neg (Bool.eq_false_iff.mp off))))))) ⟨by decide, by simp⟩
    exact ⟨e, run, ends, (Dev.replied_fields reply).1, trivial⟩
  · have act : orderRingCtl.act (s.dev.begun m slot) s.mem (s.dev.call m slot) = ((s.dev.begun m slot, s.mem), .done 3 []) := by
      rw [orderRingCtl_act, if_neg (fun h => ring ((s.dev.begun m slot).roleless_iff.mp h)), if_neg (by omega), if_neg (by omega), if_neg (by omega)]
      rcases bad with ⟨one, other⟩ | ⟨two, other⟩
      · exact (if_pos one).trans (if_neg other)
      · exact (if_neg (by omega)).trans (if_neg other)
    obtain ⟨e, run, ends, reply⟩ := Order.run_idle (i := .ringCtl m slot) rfl t act ⟨by decide, by simp⟩
    exact ⟨e, run, ends, (Dev.replied_fields reply).1, trivial⟩
  · have act : ∃ x : Dev, x.time = s.dev.time ∧ orderRingCtl.act (s.dev.begun m slot) s.mem (s.dev.call m slot)
        = ((x.enrol (s.dev.call m slot) 0x70 (x.time.abs + 250000000) 1 0 [(RING_CTRL.OWN.id, 0)], s.mem), .goes) := by
      rw [orderRingCtl_act, if_neg (fun h => ring ((s.dev.begun m slot).roleless_iff.mp h)), if_neg (by omega), if_neg (by omega), if_neg (by omega)]
      rcases good with ⟨one, state⟩ | ⟨two, state⟩
      · exact ⟨_, (s.dev.begun m slot).joinCmd_time, (if_pos one).trans (if_pos state)⟩
      · exact ⟨_, (s.dev.begun m slot).rejoinCmd_time, (if_neg (by omega)).trans (if_pos state)⟩
    obtain ⟨x, time, act⟩ := act
    have run := Order.run_goes (i := .ringCtl m slot) rfl t act
    rw [time] at run
    exact ⟨_, run, ⟨_, _, List.mem_append_right _ (List.mem_singleton_self _)⟩, time⟩
  · obtain ⟨e, run, ends, reply⟩ := Order.run_idle (i := .ringMsg m slot) rfl t ((orderRingMsg_act ..).trans (if_pos (by rw [show (s.dev.begun m slot).joined = false from off]; rfl))) ⟨by decide, by simp⟩
    exact ⟨e, run, ends, (Dev.replied_fields reply).1, trivial⟩
  · exact Order.run_waits rfl t ((orderRingMsg_act ..).trans ((if_neg (by rw [show (s.dev.begun m slot).joined = true from on]; decide)).trans (if_pos busy)))
  · obtain ⟨seq, regs, chs, own, time⟩ := (s.dev.begun m slot).msgSend_parts ((s.dev.call m slot).bits 0 0 10)
      (payloadOf ((List.range 13).map (fun k => (s.dev.call m slot).arg (1 + k))) ((s.dev.call m slot).bits 0 16 6 + 1))
    obtain ⟨e, run, ends, reply⟩ := Order.run_done (i := .ringMsg m slot) rfl t ((orderRingMsg_act ..).trans ((if_neg (by rw [show (s.dev.begun m slot).joined = true from on]; decide)).trans
      (if_neg (Bool.eq_false_iff.mp idle)))) ⟨own, time, regs⟩ rfl ⟨by decide, by simp⟩
    obtain ⟨chs', -, -, -, -, -, ring, -⟩ := Dev.replied_fields reply
    exact ⟨e, run, ends, chs'.trans chs, (congrArg (·.txSeq) ring).trans seq⟩
  · obtain ⟨legal, tot⟩ : (1 ≤ (s.dev.call m slot).bits 1 8 8 ∧ (s.dev.call m slot).bits 1 8 8 ≤ 32) ∧ 16 ≤ (s.dev.call m slot).bits 1 16 8 := by
      have legal : (decide (1 ≤ (s.dev.call m slot).bits 1 8 8) && decide ((s.dev.call m slot).bits 1 8 8 ≤ 32) && decide (16 ≤ (s.dev.call m slot).bits 1 16 8)
        && decide ((s.dev.call m slot).bits 2 8 8 ≤ 127)) = true := Dev.takesUp_legal t
      simp only [Bool.and_eq_true, decide_eq_true_eq] at legal
      exact legal.1
    obtain ⟨acts, chs, vals⟩ := (s.dev.begun m slot).benchCfg_parts (s.dev.call m slot) ⟨legal.1, legal.2, tot⟩
    obtain ⟨e, run, ends, reply⟩ := Order.run_done (i := .benchCfg m slot) rfl t (x := (s.dev.begun m slot).benchCfg (s.dev.call m slot)) rfl ⟨acts.own, acts.time, acts.regs⟩ rfl ⟨by decide, by simp⟩
    have read (f : Fld) (out : f.id ∉ answerIds) {v : Nat} (h : ((s.dev.begun m slot).benchCfg (s.dev.call m slot)).get f = v) : e.get f = v := (reply.regs f 0 0 out).trans h
    obtain ⟨rxall, allow, on, en, tot, ncnt, id, domain, ptp⟩ := vals
    exact ⟨e, run, ends.1, (Dev.replied_fields reply).1.trans chs, read _ (by decide) rxall, read _ (by decide) allow, read _ (by decide) on, read _ (by decide) en, read _ (by decide) tot,
      read _ (by decide) ncnt, read _ (by decide) id, read _ (by decide) domain, read _ (by decide) ptp⟩
  · obtain ⟨only, lo, hi, stop, en⟩ := (s.dev.begun m slot).benchAllow_parts (s.dev.call m slot) ((s.dev.call m slot).bits 0 0 4) fits
    obtain ⟨e, run, ends, chs, reply⟩ := Order.run_sets (i := .benchAllow m slot) rfl t rfl only rfl ⟨by decide, by simp⟩
    exact ⟨e, run, ends, chs, (reply.regs _ _ _ (by decide)).trans lo, (reply.regs _ _ _ (by decide)).trans hi, (reply.regs _ _ _ (by decide)).trans stop, (reply.regs _ _ _ (by decide)).trans en⟩
  · have legal : (s.dev.call m slot).bits 1 0 5 ≤ 16 := of_decide_eq_true (Dev.takesUp_legal t)
    obtain ⟨only, vals⟩ := (s.dev.begun m slot).benchFilter_parts (s.dev.call m slot) ((s.dev.call m slot).bits 0 0 4) fits legal
    obtain ⟨e, run, ends, chs, reply⟩ := Order.run_sets (i := .benchFilter m slot) rfl t (x := (s.dev.begun m slot).benchFilter (s.dev.call m slot) ((s.dev.call m slot).bits 0 0 4)) rfl only rfl
      ⟨by decide, by simp⟩
    have read (f : Fld) (out : f.id ∉ answerIds) {v : Nat} (h : ((s.dev.begun m slot).benchFilter (s.dev.call m slot) ((s.dev.call m slot).bits 0 0 4)).get f ((s.dev.call m slot).bits 0 0 4) = v) :
      e.get f ((s.dev.call m slot).bits 0 0 4) = v := (reply.regs f _ 0 out).trans h
    obtain ⟨en, q, pofs, kind, src, topic, tmask, pval, pmask⟩ := vals
    exact ⟨e, run, ends, chs, read _ (by decide) en, read _ (by decide) q, read _ (by decide) pofs, read _ (by decide) kind, read _ (by decide) src, read _ (by decide) topic,
      read _ (by decide) tmask, read _ (by decide) pval, read _ (by decide) pmask⟩
  · have legal : (s.dev.call m slot).bits 1 16 6 ≤ 32 ∧ 1 ≤ (s.dev.call m slot).bits 1 0 8 ∧ (s.dev.call m slot).bits 1 0 8 ≤ 4 := by
      have legal : (decide ((s.dev.call m slot).bits 1 16 6 ≤ 32) && decide (1 ≤ (s.dev.call m slot).bits 1 0 8) && decide ((s.dev.call m slot).bits 1 0 8 ≤ 4)) = true := Dev.takesUp_legal t
      simpa only [Bool.and_eq_true, decide_eq_true_eq, and_assoc] using legal
    obtain ⟨only, vals⟩ := (s.dev.begun m slot).benchTemplate_parts (s.dev.call m slot) ((s.dev.call m slot).bits 0 0 4) fits legal
    obtain ⟨e, run, ends, chs, reply⟩ := Order.run_sets (i := .benchTemplate m slot) rfl t (x := (s.dev.begun m slot).benchTemplate (s.dev.call m slot) ((s.dev.call m slot).bits 0 0 4)) rfl only rfl
      ⟨by decide, by simp⟩
    have read (f : Fld) (k : Nat) (out : f.id ∉ answerIds) {v : Nat}
      (h : ((s.dev.begun m slot).benchTemplate (s.dev.call m slot) ((s.dev.call m slot).bits 0 0 4)).get f ((s.dev.call m slot).bits 0 0 4) k = v) :
      e.get f ((s.dev.call m slot).bits 0 0 4) k = v := (reply.regs f _ k out).trans h
    obtain ⟨ess, dest, len, kind, topic, data⟩ := vals
    exact ⟨e, run, ends, chs, read _ _ (by decide) ess, read _ _ (by decide) dest, read _ _ (by decide) len, read _ _ (by decide) kind, read _ _ (by decide) topic,
      fun k low => read _ _ (by decide) (data k low)⟩
  · obtain ⟨e, run, ends, reply⟩ := Order.run_idle (i := .benchSend m slot) rfl t ((orderBenchSend_act ..).trans (if_pos ((s.dev.sendShut_iff (s.dev.call m slot)).mpr shut))) ⟨by decide, by simp⟩
    obtain ⟨chs, -, bench, -⟩ := Dev.replied_fields reply
    exact ⟨e, run, ends, chs, bench⟩
  · have legal : (decide ((s.dev.call m slot).bits 0 8 9 ≤ 44) && decide (1 ≤ (s.dev.call m slot).bits 0 0 8) && decide ((s.dev.call m slot).bits 0 0 8 ≤ 4)) = true := Dev.takesUp_legal t
    simp only [Bool.and_eq_true, decide_eq_true_eq] at legal
    have run := Order.run_goes (i := .benchSend m slot) rfl t ((orderBenchSend_act ..).trans (if_neg (fun h => free ((s.dev.sendShut_iff (s.dev.call m slot)).mp h))))
    obtain ⟨rest, topic, busy, stopped⟩ := ((s.dev.begun m slot).enrol (s.dev.call m slot) 0x7C 0 1 0 [(BB_CTRL.OWN.id, 0)]).htxSet_parts ((s.dev.call m slot).arg 1)
      ((List.range 11).map (fun k => (s.dev.call m slot).arg (2 + k))) (fits 1)
    generalize ((s.dev.begun m slot).enrol (s.dev.call m slot) 0x7C 0 1 0 [(BB_CTRL.OWN.id, 0)]).htxSet ((s.dev.call m slot).arg 1) ((List.range 11).map (fun k => (s.dev.call m slot).arg (2 + k))) = y at *
    have good : ¬ y.hostBad ((s.dev.call m slot).bits 0 0 8) ((s.dev.call m slot).bits 0 8 9) (bitAt ((s.dev.call m slot).arg 0) 30) := by
      rintro (h | h | h | h | ⟨h, plain⟩)
      · exact free (.inl ((Dev.flag_of_get busy).symm.trans h))
      · omega
      · omega
      · omega
      · refine free (.inr ⟨(Dev.flag_of_get stopped).symm.trans h, ?_⟩)
        simpa using plain
    obtain ⟨-, flag, -, chs, time, len, -, regs⟩ := y.hostSend_taken ((s.dev.call m slot).bits 0 24 5) ((s.dev.call m slot).bits 0 0 8) ((s.dev.call m slot).arg 1) ((s.dev.call m slot).bits 0 8 9)
      (bitAt ((s.dev.call m slot).arg 0) 30) (payloadOf ((List.range 11).map (fun k => (s.dev.call m slot).arg (2 + k))) ((s.dev.call m slot).bits 0 8 9)) good
    refine ⟨_, run, flag, chs.trans (by rw [rest]; rfl), time.trans (by rw [rest]; rfl), (Dev.regsBut_read regs _ _ _ rfl).trans topic, len.trans (Nat.mod_mod _ _)⟩
  · obtain ⟨same, -, -⟩ := (s.dev.begun m slot).powerRequest_parts ((s.dev.call m slot).bits 0 0 2) 2 (by simpa using of_decide_eq_true (Dev.takesUp_legal t))
    have no' : ((s.dev.begun m slot).powerRequest ((s.dev.call m slot).bits 0 0 2) 2).2 = true := ((Dev.powerRequest_congr (d := s.dev) (e := s.dev.begun m slot) rfl rfl rfl _ _).1).trans no
    have act : orderPower.act (s.dev.begun m slot) s.mem (s.dev.call m slot) = ((s.dev.begun m slot, s.mem), .done 1 [3]) := by
      rw [orderPower_act, no', same no']
      rfl
    obtain ⟨e, run, ends, reply⟩ := Order.run_idle (i := .power m slot) rfl t act ⟨by decide, by simp⟩
    obtain ⟨chs, -, -, -, power, -⟩ := Dev.replied_fields reply
    exact ⟨e, run, ends, chs, power⟩
  · obtain ⟨-, rest, regs⟩ := (s.dev.begun m slot).powerRequest_parts ((s.dev.call m slot).bits 0 0 2) 2 (by simpa using of_decide_eq_true (Dev.takesUp_legal t))
    have yes' : ((s.dev.begun m slot).powerRequest ((s.dev.call m slot).bits 0 0 2) 2).2 = false := ((Dev.powerRequest_congr (d := s.dev) (e := s.dev.begun m slot) rfl rfl rfl _ _).1).trans yes
    have act : orderPower.act (s.dev.begun m slot) s.mem (s.dev.call m slot) = ((((s.dev.begun m slot).powerRequest ((s.dev.call m slot).bits 0 0 2) 2).1, s.mem), .done 0 []) := by
      rw [orderPower_act, yes']
      rfl
    obtain ⟨e, run, ends, reply⟩ := Order.run_done (i := .power m slot) rfl t act ⟨(congrArg Dev.ownWait rest :), (congrArg Dev.time rest :), regs⟩ rfl ⟨by decide, by simp⟩
    obtain ⟨chs, -, -, -, power, -⟩ := Dev.replied_fields reply
    exact ⟨e, run, ends, chs.trans (congrArg Dev.chs rest :), power.trans (Dev.powerRequest_congr (d := s.dev) (e := s.dev.begun m slot) rfl rfl rfl _ _).2⟩
  · exact ((s.dev.begun m slot).testAsks (s.dev.call m slot)).marchRefused_runs s.mem _ _ runs
  · have run := Order.run_goes (i := .memTest m slot) rfl t (orderMemTest_act ..)
    rw [((s.dev.begun m slot).testAsks (s.dev.call m slot)).marchAsk_refused s.mem _ _ (s.dev.call m slot).m (s.dev.call m slot).slot no] at run
    obtain ⟨-, -, -, -, busy, none, sram⟩ := t
    have acts : s.dev.acts (((s.dev.begun m slot).testAsks (s.dev.call m slot)).set MEM_MT.RESULT 0 0 4) [MEM_MT.RESULT.at] :=
      ⟨rfl, rfl, Dev.regsBut_set MEM_MT.RESULT 0 0 4 (fun _ _ _ _ => rfl) (by simp)⟩
    obtain ⟨ends, reply⟩ := Dev.acts_finish acts rfl m slot none busy (status := 0) (res := [4]) (.inr sram) ⟨by decide, by simp⟩
    exact ⟨_, run, ends, (Dev.replied_fields reply).1, (Dev.replied_behind reply).2.2.2.2.2, (reply.regs _ _ _ (by decide)).trans (Dev.get_set_same ..)⟩
  · have run := Order.run_goes (i := .memTest m slot) rfl t (orderMemTest_act ..)
    obtain ⟨flag, ⟨test, sram, ch, bank, tests, cmd⟩, chs, cmds, -⟩ := ((s.dev.begun m slot).testAsks (s.dev.call m slot)).marchAsk_taken s.mem
      (Fin.ofNat 8 ((s.dev.call m slot).bits 0 4 3)) ((s.dev.call m slot).bits 0 8 4) (some ((s.dev.call m slot).m, (s.dev.call m slot).slot)) yes
    have three : (s.dev.call m slot).bits 0 4 3 < 8 := Nat.mod_lt _ (by decide)
    have enrolled : (⟨m, slot, 0x90, 0, 1, 0, 0, [(MEM_CTRL.OWN.id, 0)]⟩ : Cmd) ∈ ((s.dev.begun m slot).testAsks (s.dev.call m slot)).cmds :=
      List.mem_append_right _ (List.mem_singleton_self _)
    exact ⟨_, run, ⟨0, _, cmds ▸ enrolled⟩, flag, ⟨test, sram, ch.trans (Nat.mod_eq_of_lt three), bank, tests, cmd⟩, chs⟩

end Sys2Proof.Machine
end

section
/-!
PROOF. The channel commands on state, epoch and sequencer (R36, R65, R88, R89, R100, R101, R107, R109, R504 to R507).
-/
namespace Sys2Proof.Machine
open Reg

/-- The channel of a command in a channel mailbox. -/
theorem Dev.call_ch (d : Dev) (n : Fin 8) (slot : Nat) : (d.call n.castSucc slot).ch = n := Fin.ext (Nat.mod_eq_of_lt n.isLt)

/-! ### State and epoch -/

/-- The registers of CH_STATE read one after another. -/
def Dev.wordsRead (d : Dev) (as : List Nat) : List Nat × Dev :=
  as.foldl (fun (p : List Nat × Dev) a => let r := p.2.word .clerk a; (p.1 ++ [r.1], r.2)) ([], d)

theorem orderChState_act (d : Dev) (mem : Memory) (c : Call) :
    orderChState.act d mem c = (((d.wordsRead [winAt c.m 0x1004, winAt c.m 0x5004, 0x12001008 + 0x100 * c.m, winAt c.m 0x8004]).2, mem),
      okWith ((d.wordsRead [winAt c.m 0x1004, winAt c.m 0x5004, 0x12001008 + 0x100 * c.m, winAt c.m 0x8004]).1 ++ [d.get ROLE_EPOCHn.EPOCH c.m])) := rfl

/-- What a word read leaves of the device. -/
def Dev.wordKeeps (d e : Dev) : Prop := e.regs = d.regs ∧ e.ownWait = d.ownWait ∧ e.time = d.time

theorem Dev.viewCells_keeps (r : Requester) (n i : Nat) (was : Option Nat) (cs : List Cellf) (p : Nat × Dev) : p.2.wordKeeps (Dev.viewCells r n i was cs p).2 := by
  have view (d : Dev) (f : Fld) : d.wordKeeps (d.view r f n i).2 := by
    have left : d.wordKeeps d.stopLeft.2 := by
      unfold Dev.stopLeft
      dsimp only
      repeat' split
      all_goals exact ⟨rfl, rfl, rfl⟩
    unfold Dev.view
    split
    · exact left
    · repeat' split
      all_goals exact ⟨rfl, rfl, rfl⟩
  induction cs generalizing p with
  | nil => exact ⟨rfl, rfl, rfl⟩
  | cons c cs ih =>
    unfold Dev.viewCells
    split
    · exact ih p
    · obtain ⟨regs, own, time⟩ := view p.2 c.fld
      obtain ⟨regs', own', time'⟩ := ih (p.1 + _, (p.2.view r c.fld n i).2)
      exact ⟨regs'.trans regs, own'.trans own, time'.trans time⟩

theorem Dev.word_keeps (d : Dev) (r : Requester) (a : Nat) : d.wordKeeps (d.word r a).2 := by
  unfold Dev.word
  split
  · exact ⟨rfl, rfl, rfl⟩
  · exact Dev.viewCells_keeps _ _ _ _ _ (0, d)

theorem Dev.wordsRead_four (d : Dev) (a b c e : Nat) :
    ∃ w1 w2 w3, (d.wordsRead [a, b, c, e]).1 = [(d.word .clerk a).1, w1, w2, w3] ∧ d.wordKeeps (d.wordsRead [a, b, c, e]).2 := by
  refine ⟨_, _, _, rfl, ?_⟩
  have h := d.word_keeps .clerk a
  have h' := (d.word .clerk a).2.word_keeps .clerk b
  have h'' := ((d.word .clerk a).2.word .clerk b).2.word_keeps .clerk c
  have h3 := (((d.word .clerk a).2.word .clerk b).2.word .clerk c).2.word_keeps .clerk e
  exact ⟨h3.1.trans (h''.1.trans (h'.1.trans h.1)), h3.2.1.trans (h''.2.1.trans (h'.2.1.trans h.2.1)), h3.2.2.trans (h''.2.2.trans (h'.2.2.trans h.2.2))⟩

/-- Actions marked stale are the channel's own. -/
theorem Dev.goStale_parts (d : Dev) (mem : Memory) (n : Fin 8) (hit : Act → Bool) :
    d.goStale mem n hit = { d with chs := (d.goStale mem n hit).chs } ∧ d.chsBut (d.goStale mem n hit) n := by
  unfold Dev.goStale
  split
  · exact ⟨rfl, fun _ _ => rfl⟩
  · unfold Dev.relayQuiet
    dsimp only
    split
    · exact ⟨rfl, d.onCh_chsBut n _⟩
    · exact ⟨rfl, fun k other => (Dev.onCh_chsBut _ n _ k other).trans (d.onCh_chsBut n _ k other)⟩

theorem orderRoleBump_act (d : Dev) (mem : Memory) (c : Call) :
    orderRoleBump.act d mem c = (((d.countWrap ROLE_EPOCHn.EPOCH c.m).goStale mem c.ch (fun a => a.fromMbx && a.grp.isNone && !a.stale), mem),
      okWith [(d.countWrap ROLE_EPOCHn.EPOCH c.m).get ROLE_EPOCHn.EPOCH c.m]) := rfl

/-! ### Step tables -/

theorem tableLoad_fails (n : Fin 8) (first : Nat) (bytes : List (BitVec 8)) (d : Dev) (mem : Memory) (k cause : Nat)
    (fails : (d.withLatest.healGranules (n.val * 0x400000 + first * 0x20) bytes.length).tableFail (mem.writeBytes (stepAt n first) bytes) n = some (k, cause)) :
    tableLoad n first bytes d mem = ((d, mem), .done 3 [k, cause]) := by
  unfold tableLoad
  dsimp only
  rw [fails]

theorem Dev.keepsSlots_notice {d e : Dev} (h : d.keepsSlots e) (code ch : Nat) (ws : List Nat) : d.keepsSlots (e.notice code ch ws) :=
  Dev.keepsSlots_trans h (Dev.acts_keepsSlots ⟨Dev.notice_ownWait _ _ _ _, Dev.notice_time _ _ _ _, Dev.notice_regsBut _ _ _ _⟩ rfl)

/-- The results of an at-risk check published leave the slots' bits. -/
theorem Dev.keepsSlots_riskPublish (d : Dev) (mem : Memory) (n : Fin 8) : d.keepsSlots (d.riskPublish mem n) := by
  unfold Dev.riskPublish
  extract_lets l src a was b c f g
  have first : d.keepsSlots b := Dev.keepsSlots_set (Dev.keepsSlots_set (show d.keepsSlots a from ⟨rfl, rfl, fun _ _ _ _ => rfl⟩) MSN_CHn_STAT.RISKS n 0 _ (by decide)) MSN_CHn_STAT.RISK_OVF n 0 _ (by decide)
  clear_value b
  have entries : d.keepsSlots c := foldl_keeps (fun e : Dev => d.keepsSlots e) _ (List.range 256) b (fun e k h =>
    Dev.keepsSlots_set (Dev.keepsSlots_set (Dev.keepsSlots_set (Dev.keepsSlots_set h MSN_RISKn_e0.REASON n k _ (by decide)) MSN_RISKn_e0.TRACKS n k _ (by decide))
      MSN_RISKn_e0.STEP n k _ (by decide)) MSN_RISKn_e1.ARRIVAL n k _ (by decide)) first
  clear_value c
  have flag : d.keepsSlots f := Dev.keepsSlots_set entries MSN_STAT.RISK 0 0 _ (by decide)
  clear_value f
  have told : d.keepsSlots g := by
    unfold g
    split
    · exact flag
    · exact Dev.keepsSlots_notice flag _ _ _
  clear_value g
  unfold Dev.readyShow
  extract_lets r
  split
  · exact told
  · exact Dev.keepsSlots_notice (Dev.keepsSlots_set told MSN_CHn_STAT.READY n 0 _ (by decide)) _ _ _

/-- A table that passes its checks is loaded: the command succeeds, or names the first of its risks (R65, R107). -/
theorem tableLoad_takes (n : Fin 8) (first : Nat) (bytes : List (BitVec 8)) (d : Dev) (mem : Memory)
    (passes : (d.withLatest.healGranules (n.val * 0x400000 + first * 0x20) bytes.length).tableFail (mem.writeBytes (stepAt n first) bytes) n = none)
    (soft : (d.withLatest.healGranules (n.val * 0x400000 + first * 0x20) bytes.length).hardSteps (mem.writeBytes (stepAt n first) bytes) n = []) :
    ∃ x st res, tableLoad n first bytes d mem = ((x, mem.writeBytes (stepAt n first) bytes), .done st res) ∧ d.keepsSlots x
      ∧ (st = 0 ∧ res = [] ∨ st = 7 ∧ res.length = 2) := by
  unfold tableLoad
  dsimp only
  rw [passes]
  dsimp only
  rw [soft]
  dsimp only
  obtain ⟨own, time, regs⟩ := (d.withLatest.healGranules (n.val * 0x400000 + first * 0x20) bytes.length).keepsSlots_riskPublish (mem.writeBytes (stepAt n first) bytes) n
  generalize (d.withLatest.healGranules (n.val * 0x400000 + first * 0x20) bytes.length).riskPublish (mem.writeBytes (stepAt n first) bytes) n = p at *
  split
  · exact ⟨_, 0, [], rfl, ⟨own, time, regs⟩, .inl ⟨rfl, rfl⟩⟩
  · exact ⟨_, 7, _, rfl, ⟨own, time, regs⟩, .inr ⟨rfl, rfl⟩⟩

/-- A command that loads steps: refused with the first failing step and its cause, or taken whole. -/
theorem Order.run_loads {o : Order} {i : Instr} {n : Fin 8} {slot : Fin 16} {s : State} {first : Nat} {bytes : List (BitVec 8)} {b : Dev}
    (row : exec i s = o.run n.castSucc slot s) (t : s.dev.takesUp s.mem o n.castSucc slot)
    (act : o.act (s.dev.begun n.castSucc slot) s.mem (s.dev.call n.castSucc slot) = tableLoad n first bytes b s.mem) (same : s.dev.acts b [])
    (chs : b.chs = s.dev.chs) (mason : b.mason = s.dev.mason) :
    let new := s.mem.writeBytes (stepAt n first) bytes
    let h := b.withLatest.healGranules (n.val * 0x400000 + first * 0x20) bytes.length
    (∀ k cause, h.tableFail new n = some (k, cause) →
      ∃ e, exec i s = .next (s.withDev e) ∧ s.dev.completes e n.castSucc slot 3 [k, cause] [] ∧ e.chs = s.dev.chs ∧ e.mason = s.dev.mason)
    ∧ (h.tableFail new n = none → h.hardSteps new n = [] → ∃ t st res, exec i s = .next t ∧ t.pending = s.pending ∧ t.mem = new
      ∧ t.dev.answered n.castSucc slot st res ∧ (st = 0 ∧ res = [] ∨ st = 7 ∧ res.length = 2)) := by
  refine ⟨fun k cause fails => ?_, fun passes soft => ?_⟩
  · obtain ⟨e, run, ends, reply⟩ := Order.run_done row t (act.trans (tableLoad_fails n first bytes b s.mem k cause fails)) same rfl ⟨by decide, by simp⟩
    exact ⟨e, run, ends, (Dev.replied_fields reply).1.trans chs, (Dev.replied_behind reply).2.1.trans mason⟩
  · obtain ⟨x, st, res, load, keeps, codes⟩ := tableLoad_takes n first bytes b s.mem passes soft
    obtain ⟨e, run, answered, -, -⟩ := Order.run_answers row t (act.trans load) (Dev.keepsSlots_trans (Dev.acts_keepsSlots same rfl) keeps)
      (by rcases codes with ⟨rfl, rfl⟩ | ⟨rfl, two⟩ <;> simp_all)
    exact ⟨_, st, res, run, rfl, rfl, answered, codes⟩

theorem orderStepWrite_act (d : Dev) (mem : Memory) (c : Call) :
    orderStepWrite.act d mem c = tableLoad c.ch (c.bits 0 0 13) (wordsBytes ((List.range 8).map (fun k => c.arg (1 + k)))) d mem := by
  simp only [orderStepWrite]

theorem orderTableLoad_act (buf : Option (List (BitVec 8))) (d : Dev) (mem : Memory) (c : Call) :
    (orderTableLoad buf).act d mem c = if !d.seqIdle c.m then ((d, mem), busy3)
      else withBuf buf (fun _ c => 32 * (c.bits 2 16 13 + 1)) (fun bytes d mem c => tableLoad c.ch (c.bits 2 0 13) bytes d mem) d mem c := rfl

/-- A buffer that the host does not give, or that may not be asked for, ends a command with TIMEOUT (R501). -/
theorem withBuf_fails {buf : Option (List (BitVec 8))} {d : Dev} (fails : buf = none ∨ d.mayIssue = false) (k : Dev → Call → Nat)
    (f : List (BitVec 8) → Dev → Memory → Call → (Dev × Memory) × Answer) (mem : Memory) (c : Call) : withBuf buf k f d mem c = ((d, mem), .done 0x0B []) := by
  cases buf with
  | none => rfl
  | some b => exact if_neg (Bool.eq_false_iff.mp (fails.resolve_left (by simp)))

/-! ### Timed commands -/

theorem orderSeqCmd_act (d : Dev) (mem : Memory) (c : Call) :
    orderSeqCmd.act d mem c = if c.late d then ((d, mem), .done 6 [])
      else (((d.enrol c 0x112 (c.land d) 1 0 [(SEQ_CTRL.OWN.id, c.m)]).seqAct c.ch (c.bits 2 0 2) (c.bits 2 16 13) (c.land d) c.m c.slot none, mem), .goes) := rfl

theorem orderSnap_act (d : Dev) (mem : Memory) (c : Call) :
    orderSnap.act d mem c = if d.flag SEQ_SNAP.DONE c.m then ((d, mem), busy3)
      else (((d.enrol c 0x118 (d.time.crs + 1) 1 0 [(SEQ_CTRL.OWN.id, c.m)]).raise SEQ_SNAP.PEND c.m, mem), .goes) := rfl

/-- A START that finds its sequencer ARMED or RUNNING ends at once with reason 3 (R507). -/
theorem Dev.seqAct_held (d : Dev) (n : Fin 8) (step land : Nat) (c : Call) (own : List (Nat × Nat)) (runs : d.get SEQ_STAT.STATE n = 1 ∨ d.get SEQ_STAT.STATE n = 2)
    (alone : d.cmdOf c.m c.slot = none) :
    (d.enrol c 0x112 land 1 0 own).seqAct n 1 step land c.m c.slot none = (d.enrol c 0x112 land 1 0 own).finish c.m c.slot 1 [3] := by
  have held : (d.enrol c 0x112 land 1 0 own).seqAct n 1 step land c.m c.slot none = (d.enrol c 0x112 land 1 0 own).part c.m c.slot n 3 := by
    have same : (d.enrol c 0x112 land 1 0 own).get SEQ_STAT.STATE n = 1 ∨ (d.enrol c 0x112 land 1 0 own).get SEQ_STAT.STATE n = 2 := runs
    exact if_pos (by simpa using same)
  have mine : (d.enrol c 0x112 land 1 0 own).cmdOf c.m c.slot = some ⟨c.m, c.slot, 0x112, land, 1, 0, 0, own⟩ := by
    have rest : d.cmds.find? (fun x => x.m = c.m && x.slot = c.slot) = none := alone
    show (d.cmds ++ [_]).find? _ = _
    rw [List.find?_append, rest]
    simp
  rw [held]
  unfold Dev.part
  rw [mine]
  rfl

/-- No timed command waits in a slot whose command begins, where none did. -/
theorem Dev.cmdOf_begun (d : Dev) (m slot : Nat) (alone : d.cmdOf m slot = none) : (d.begun m slot).cmdOf m slot = none := by
  refine List.find?_eq_none.mpr fun x isin => List.find?_eq_none.mp alone x ?_
  exact (List.mem_filter.mp isin).1

/-- Settles O45, from what each command's meaning leaves before its answer. -/
theorem sequencerMailbox : Obligations.SequencerMailbox := by
  unfold Obligations.SequencerMailbox
  intro s n slot
  dsimp only
  have ch := s.dev.call_ch n slot
  have begun : s.dev.acts (s.dev.begun n.castSucc slot) [] := ⟨rfl, rfl, s.dev.regsBut_refl _⟩
  refine ⟨fun t => ?_, fun t => ?_, fun b t idle may => ?_, fun buf t => ⟨fun runs => ?_, fun idle fails => ?_⟩, fun t => ?_,
    fun t => ⟨fun late => ?_, fun early code runs alone => ?_, fun early free => ?_⟩, fun t => ?_, fun t => ⟨fun done => ?_, fun none => ?_⟩⟩
  · obtain ⟨w1, w2, w3, words, regs, own, time⟩ := (s.dev.begun n.castSucc slot).wordsRead_four (winAt (s.dev.call n.castSucc slot).m 0x1004)
      (winAt (s.dev.call n.castSucc slot).m 0x5004) (0x12001008 + 0x100 * (s.dev.call n.castSucc slot).m) (winAt (s.dev.call n.castSucc slot).m 0x8004)
    have act := orderChState_act (s.dev.begun n.castSucc slot) s.mem (s.dev.call n.castSucc slot)
    rw [words] at act
    obtain ⟨e, run, answered, time', -⟩ := Order.run_answers (i := .chState n.castSucc slot) rfl t act ⟨own, time, fun _ _ _ _ => Dev.get_of_regs regs _ _ _⟩ ⟨by decide, by simp⟩
    exact ⟨e, _, w1, w2, w3, run, answered, rfl, time'⟩
  · have act := orderRoleBump_act (s.dev.begun n.castSucc slot) s.mem (s.dev.call n.castSucc slot)
    rw [ch, show ((s.dev.begun n.castSucc slot).countWrap ROLE_EPOCHn.EPOCH (s.dev.call n.castSucc slot).m).get ROLE_EPOCHn.EPOCH (s.dev.call n.castSucc slot).m
      = (s.dev.get ROLE_EPOCHn.EPOCH n + 1) % 2 ^ 16 from Dev.get_set_same ..] at act
    obtain ⟨rest, others⟩ := ((s.dev.begun n.castSucc slot).countWrap ROLE_EPOCHn.EPOCH (s.dev.call n.castSucc slot).m).goStale_parts s.mem n
      (fun a => a.fromMbx && a.grp.isNone && !a.stale)
    generalize ((s.dev.begun n.castSucc slot).countWrap ROLE_EPOCHn.EPOCH (s.dev.call n.castSucc slot).m).goStale s.mem n (fun a => a.fromMbx && a.grp.isNone && !a.stale) = x at *
    have regs : x.regs = ((s.dev.begun n.castSucc slot).countWrap ROLE_EPOCHn.EPOCH n).regs := (congrArg Dev.regs rest :)
    obtain ⟨e, run, ends, reply⟩ := Order.run_done (i := .roleBump n.castSucc slot) rfl t act (ks := [ROLE_EPOCHn.EPOCH.at n]) ⟨(congrArg Dev.ownWait rest :), (congrArg Dev.time rest :),
      Dev.regsBut_of_regs (Dev.regsBut_set ROLE_EPOCHn.EPOCH n 0 _ (s.dev.regsBut_refl _) (by simp)) regs⟩ rfl ⟨by decide, by simp⟩
    refine ⟨e, run, ends, ?_, fun k other => ?_⟩
    · exact (reply.regs _ _ _ (by decide)).trans ((Dev.get_of_regs regs _ _ _).trans (Dev.get_set_same ..))
    · rw [(Dev.replied_fields reply).1]
      exact others k other
  · refine Order.run_loads (i := .tableLoad n.castSucc slot (some b)) rfl t ?_ ⟨rfl, rfl, s.dev.regsBut_refl _⟩ rfl rfl
    rw [orderTableLoad_act, if_neg (by rw [show (s.dev.begun n.castSucc slot).seqIdle (s.dev.call n.castSucc slot).m = true from idle]; decide)]
    refine (if_pos may).trans ?_
    rw [ch]
  · obtain ⟨e, run, ends, reply⟩ := Order.run_idle (i := .tableLoad n.castSucc slot buf) rfl t ((orderTableLoad_act ..).trans (if_pos
      (by rw [show (s.dev.begun n.castSucc slot).seqIdle (s.dev.call n.castSucc slot).m = false from runs]; rfl))) ⟨by decide, by simp⟩
    exact ⟨e, run, ends, (Dev.replied_fields reply).1⟩
  · obtain ⟨e, run, ends, reply⟩ := Order.run_idle (i := .tableLoad n.castSucc slot buf) rfl t ((orderTableLoad_act ..).trans ((if_neg
      (by rw [show (s.dev.begun n.castSucc slot).seqIdle (s.dev.call n.castSucc slot).m = true from idle]; decide)).trans (withBuf_fails (d := s.dev.begun n.castSucc slot) fails ..)))
      ⟨by decide, by simp⟩
    exact ⟨e, run, ends, (Dev.replied_fields reply).1⟩
  · refine Order.run_loads (i := .stepWrite n.castSucc slot) rfl t ?_ begun rfl rfl
    rw [orderStepWrite_act, ch]
  · obtain ⟨e, run, ends, reply⟩ := Order.run_idle (i := .seqCmd n.castSucc slot) rfl t ((orderSeqCmd_act ..).trans (if_pos (((s.dev.call n.castSucc slot).late_begun s.dev n.castSucc slot).trans late)))
      ⟨by decide, by simp⟩
    exact ⟨e, run, ends, (Dev.replied_fields reply).1⟩
  · have act := (orderSeqCmd_act (s.dev.begun n.castSucc slot) s.mem (s.dev.call n.castSucc slot)).trans (if_neg (Bool.eq_false_iff.mp early))
    rw [ch, code, Dev.seqAct_held (s.dev.begun n.castSucc slot) n _ _ (s.dev.call n.castSucc slot) _ runs (s.dev.cmdOf_begun n.castSucc slot alone)] at act
    have run := Order.run_goes (i := .seqCmd n.castSucc slot) rfl t act
    have enrolled : s.dev.acts ((s.dev.begun n.castSucc slot).enrol (s.dev.call n.castSucc slot) 0x112 ((s.dev.call n.castSucc slot).land (s.dev.begun n.castSucc slot)) 1 0
      [(SEQ_CTRL.OWN.id, (s.dev.call n.castSucc slot).m)]) [] := ⟨rfl, rfl, s.dev.regsBut_refl _⟩
    obtain ⟨-, -, -, -, busy, none, -⟩ := t
    obtain ⟨ends, reply⟩ := Dev.acts_finish enrolled rfl n.castSucc slot none busy (status := 1) (res := [3]) (.inl (by decide)) ⟨by decide, by simp⟩
    exact ⟨_, run, ends, (Dev.replied_fields reply).1⟩
  · have act := (orderSeqCmd_act (s.dev.begun n.castSucc slot) s.mem (s.dev.call n.castSucc slot)).trans (if_neg (Bool.eq_false_iff.mp early))
    rw [ch] at act
    have run := Order.run_goes (i := .seqCmd n.castSucc slot) rfl t act
    have parts := ((s.dev.begun n.castSucc slot).enrol (s.dev.call n.castSucc slot) 0x112 ((s.dev.call n.castSucc slot).land (s.dev.begun n.castSucc slot)) 1 0
      [(SEQ_CTRL.OWN.id, (s.dev.call n.castSucc slot).m)]).seqAct_parts n ((s.dev.call n.castSucc slot).bits 2 0 2) ((s.dev.call n.castSucc slot).bits 2 16 13)
      ((s.dev.call n.castSucc slot).land (s.dev.begun n.castSucc slot)) (s.dev.call n.castSucc slot).m (s.dev.call n.castSucc slot).slot none free
    obtain ⟨⟨a, waits, kind, land, org, acc, -⟩, others, time, cmds, -, regs, step⟩ := parts
    have enrolled : (⟨n.castSucc, slot, 0x112, (s.dev.call n.castSucc slot).land s.dev, 1, 0, 0, [(SEQ_CTRL.OWN.id, n)]⟩ : Cmd)
      ∈ ((s.dev.begun n.castSucc slot).enrol (s.dev.call n.castSucc slot) 0x112 ((s.dev.call n.castSucc slot).land (s.dev.begun n.castSucc slot)) 1 0
        [(SEQ_CTRL.OWN.id, (s.dev.call n.castSucc slot).m)]).cmds := List.mem_append_right _ (List.mem_singleton_self _)
    rw [← cmds] at enrolled
    refine ⟨_, run, ⟨0, _, enrolled⟩, time, others, fun h => (step h).trans (Nat.mod_mod _ _), regs, a, waits, kind, land, org, acc⟩
  · obtain ⟨start, j0, j1, j2, j3⟩ := (s.dev.begun n.castSucc slot).trigSet_get n ((s.dev.call n.castSucc slot).arg 0)
    obtain ⟨e, run, ends, chs, reply⟩ := Order.run_sets (i := .seqTrig n.castSucc slot) rfl t rfl ((s.dev.begun n.castSucc slot).trigSet_onlyRegs n ((s.dev.call n.castSucc slot).arg 0)) rfl
      ⟨by decide, by simp⟩
    exact ⟨e, run, ends, chs, (reply.regs _ _ _ (by decide)).trans start, (reply.regs _ _ _ (by decide)).trans j0, (reply.regs _ _ _ (by decide)).trans j1,
      (reply.regs _ _ _ (by decide)).trans j2, (reply.regs _ _ _ (by decide)).trans j3⟩
  · obtain ⟨e, run, ends, reply⟩ := Order.run_idle (i := .snap n.castSucc slot) rfl t ((orderSnap_act ..).trans (if_pos done)) ⟨by decide, by simp⟩
    exact ⟨e, run, ends, (Dev.replied_fields reply).1⟩
  · have run := Order.run_goes (i := .snap n.castSucc slot) rfl t ((orderSnap_act ..).trans (if_neg (Bool.eq_false_iff.mp none)))
    exact ⟨_, run, ⟨_, _, List.mem_append_right _ (List.mem_singleton_self _)⟩, Dev.flag_raise_same _ _ _ _ (by decide),
      Dev.regsBut_set SEQ_SNAP.PEND n 0 1 (fun _ _ _ _ => rfl) (by simp), rfl, rfl⟩

end Sys2Proof.Machine
end

section
/-!
PROOF. The channel commands on the outputs and the phase engine (R154, R158, R163, R169 to R171, R178 to R190, R201, R205, R213, R226, R229, R233, R237, R239, R507).
-/
namespace Sys2Proof.Machine
open Reg

/-! ### Registers written one after another -/

/-- Registers of a channel written in their order. -/
def Dev.setList (d : Dev) (n : Nat) (ws : List (Fld × Nat)) : Dev := ws.foldl (fun d x => d.set x.1 n 0 x.2) d

theorem Dev.setList_onlyRegs {d e : Dev} {ks : List Key} (h : d.onlyRegs e ks) (n : Nat) (ws : List (Fld × Nat)) (isin : ∀ x ∈ ws, x.1.at n ∈ ks) : d.onlyRegs (e.setList n ws) ks := by
  induction ws generalizing e with
  | nil => exact h
  | cons w ws ih => exact ih (Dev.onlyRegs_set w.1 n 0 w.2 h (isin w List.mem_cons_self)) (fun x later => isin x (List.mem_cons_of_mem _ later))

theorem Dev.setList_other (d : Dev) (n : Nat) (ws : List (Fld × Nat)) (f : Fld) (i : Nat) (out : f.id ∉ ws.map (fun x => x.1.id)) (k : Nat) : (d.setList n ws).get f k i = d.get f k i := by
  induction ws generalizing d with
  | nil => rfl
  | cons w ws ih =>
    obtain ⟨apart, out⟩ : f.id ≠ w.1.id ∧ f.id ∉ ws.map (fun x => x.1.id) := by simpa using out
    exact (ih (d.set w.1 n 0 w.2) out).trans (Dev.get_set_id _ _ _ _ _ _ _ _ (Ne.symm apart))

theorem Dev.setList_regs {d e : Dev} (same : e.regs = d.regs) (n : Nat) (ws : List (Fld × Nat)) : (e.setList n ws).regs = (d.setList n ws).regs := by
  induction ws generalizing d e with
  | nil => exact same
  | cons w ws ih => exact ih (congrArg (fun r : Bank => r.set w.1 n 0 w.2) same)

/-- A register written once reads what was written. -/
theorem Dev.setList_get (d : Dev) (n : Nat) (ws : List (Fld × Nat)) (once : (ws.map (fun x => x.1.id)).Nodup) {f : Fld} {v : Nat} (isin : (f, v) ∈ ws) :
    (d.setList n ws).get f n = v % 2 ^ f.w := by
  induction ws generalizing d with
  | nil => exact absurd isin (by simp)
  | cons w ws ih =>
    obtain ⟨out, once⟩ := List.nodup_cons.mp once
    rcases List.mem_cons.mp isin with rfl | later
    · exact (Dev.setList_other _ n ws f 0 out n).trans (Dev.get_set_same ..)
    · exact ih (d.set w.1 n 0 w.2) once later

/-! ### The LV output -/

/-- The registers that LV_SET writes. -/
def lvWords (c : Call) : List (Fld × Nat) := [(LV_CTRL.EN, c.bits 0 0 1), (LV_GAIN.GAIN, c.bits 1 0 16), (LV_OFS.OFS, c.bits 2 0 16), (QUIET_CODE_LV.CODE, c.bits 3 0 16),
  (MK_CTRL.DRIVE, c.bits 4 4 4), (MK_CTRL.EN, c.bits 4 0 4), (MK_QUIET.LEVEL, c.bits 4 8 4)]

theorem orderLvSet_act (d : Dev) (mem : Memory) (c : Call) : orderLvSet.act d mem c = (((d.setList c.m (lvWords c)).quietFollow c.ch, mem), okWith []) := rfl

/-- While the tick clock stands the LV output follows its quiet code (R182; log entry 76). -/
theorem Dev.quietFollow_code (d : Dev) (n : Fin 8) (stands : d.ticking = false) : (d.quietFollow n).chs[n].lv.code = d.getS QUIET_CODE_LV.CODE n := by
  have force (e : Dev) : (e.forceNow n).chs[n].lv = e.chs[n].lv := by
    unfold Dev.forceNow
    split
    · rw [Dev.onCh_same]
    · rfl
  unfold Dev.quietFollow
  rw [if_neg (by simp [stands])]
  dsimp only
  rw [force, Dev.onCh_same]

/-- The registers of LV_SET. -/
def lvKeys (n : Nat) : List Key := [LV_CTRL.EN.at n, LV_GAIN.GAIN.at n, LV_OFS.OFS.at n, QUIET_CODE_LV.CODE.at n, MK_CTRL.DRIVE.at n, MK_CTRL.EN.at n, MK_QUIET.LEVEL.at n]

/-- The device once LV_SET is done (R178 to R190). -/
theorem Dev.lvSet_parts (d : Dev) (n : Fin 8) (c : Call) :
    let e := (d.setList n (lvWords c)).quietFollow n
    d.acts e (lvKeys n) ∧ d.chsBut e n ∧ (d.ticking = true → e.chs = d.chs) ∧ (d.ticking = false → e.chs[n].lv.code = e.getS QUIET_CODE_LV.CODE n)
      ∧ ∀ x ∈ lvWords c, e.get x.1 n = x.2 % 2 ^ x.1.w := by
  have written : d.onlyRegs (d.setList n (lvWords c)) (lvKeys n) := Dev.setList_onlyRegs (d.onlyRegs_refl _) n _ (by simp [lvWords, lvKeys])
  have run : (d.setList n (lvWords c)).ticking = d.ticking :=
    Dev.ticking_of_get (Dev.regsBut_read written.2 _ _ _ rfl) (Dev.regsBut_read written.2 _ _ _ rfl) (by rw [written.1])
  have vals (x) (isin : x ∈ lvWords c) := d.setList_get n (lvWords c) (of_decide_eq_true rfl) (f := x.1) (v := x.2) isin
  generalize d.setList n (lvWords c) = x at *
  obtain ⟨rest, regs⟩ := written
  have code := x.quietFollow_code n
  have still (h : d.ticking = true) : x.quietFollow n = x := Dev.quietFollow_ticking n (run.trans h)
  obtain ⟨follow, others⟩ := x.quietFollow_onlyCh n
  have same : (x.quietFollow n).regs = x.regs := (congrArg Dev.regs follow :)
  have chs : x.chs = d.chs := by rw [rest]
  generalize x.quietFollow n = e at *
  refine ⟨⟨?_, ?_, Dev.regsBut_of_regs regs same⟩, fun k other => (others k other).trans (by rw [chs]), fun h => (congrArg Dev.chs (still h)).trans chs,
    fun h => (code (run.trans h)).trans ?_, fun w isin => (Dev.get_of_regs same _ _ _).trans (vals w isin)⟩
  · rw [follow, rest]
  · rw [follow, rest]
  · exact congrArg (signed 16) (Dev.get_of_regs same _ _ _).symm

/-! ### The HV output -/

/-- The registers that HV_SET writes before the clamp. -/
def hvWords (c : Call) : List (Fld × Nat) := [(HV_CTRL.SL_EN, c.bits 0 2 1), (HV_CTRL.PD_EN, c.bits 0 1 1), (HV_CTRL.EN, c.bits 0 0 1), (HV_GAIN.GAIN, c.bits 1 0 16),
  (HV_OFS.OFS, c.bits 2 0 16), (QUIET_CODE_HV.CODE, c.bits 3 0 16)]

/-- The device once HV_SET has written all its settings. -/
def Dev.hvSet (d : Dev) (m : Nat) (n : Fin 8) (c : Call) : Dev :=
  (((((d.setList m (hvWords c)).clampWrite n (c.bits 4 0 16) (c.bits 4 16 16)).setList m [(HV_SLEW.RATE, c.bits 5 16 3), (HV_SLEW.STEP, c.bits 5 0 15)]).ilimSet n (c.arg 6)).setList m
    [(HV_RX.MODE, c.bits 7 0 2), (HV_RX.LINE, c.bits 7 4 2)])

theorem orderHvSet_act (d : Dev) (mem : Memory) (c : Call) : orderHvSet.act d mem c = ((d.hvSet c.m c.ch c, mem), okWith []) := rfl

/-- What follows its settings while the clock stands leaves the limit in force. -/
theorem Dev.quietFollow_ilim (d : Dev) (n : Fin 8) : (d.quietFollow n).chs[n].hv.ilim = d.chs[n].hv.ilim := by
  have force (e : Dev) : (e.forceNow n).chs[n].hv.ilim = e.chs[n].hv.ilim := by
    unfold Dev.forceNow
    split
    · rw [Dev.onCh_same]
    · rfl
  unfold Dev.quietFollow
  split
  · rfl
  · dsimp only
    rw [force, Dev.onCh_same]

/-- A clamp that is legal: its words, with the forced output following it (R201, R221). -/
theorem Dev.clampWrite_legal (d : Dev) (n : Fin 8) (lo hi : Nat) (legal : signed 16 lo ≤ signed 16 hi) :
    d.clampWrite n lo hi = (d.setList n [(HV_CLAMP.LO, lo), (HV_CLAMP.HI, hi)]).quietFollow n := if_neg (by omega)

theorem Dev.ilimSet_rest (d : Dev) (n : Fin 8) (w : Nat) : (d.ilimSet n w).ownWait = d.ownWait ∧ (d.ilimSet n w).time = d.time := by
  unfold Dev.ilimSet Dev.ilimRefresh
  dsimp only
  split
  · exact ⟨rfl, rfl⟩
  · exact ⟨rfl, rfl⟩

/-- The registers of HV_SET. -/
def hvKeys (n : Nat) : List Key := [HV_CTRL.SL_EN.at n, HV_CTRL.PD_EN.at n, HV_CTRL.EN.at n, HV_GAIN.GAIN.at n, HV_OFS.OFS.at n, QUIET_CODE_HV.CODE.at n, HV_CLAMP.LO.at n,
  HV_CLAMP.HI.at n, HV_SLEW.RATE.at n, HV_SLEW.STEP.at n, HV_ILIM.ILIM.at n, HV_ILIM.SC_TIME.at n, HV_ILIM.RETRY.at n,
  HV_ILIM.TRIES.at n, HV_ILIM_EFF.ILIM_EFF.at n, HV_ILIM_EFF.SC_EFF.at n, HV_RX.MODE.at n, HV_RX.LINE.at n]

/-- HV_SET before its current limit: which registers it moved, and which channel. -/
theorem Dev.hvSet_first (d : Dev) (n : Fin 8) (c : Call) (legal : signed 16 (c.bits 4 0 16) ≤ signed 16 (c.bits 4 16 16)) :
    let e := ((d.setList n (hvWords c)).clampWrite n (c.bits 4 0 16) (c.bits 4 16 16)).setList n [(HV_SLEW.RATE, c.bits 5 16 3), (HV_SLEW.STEP, c.bits 5 0 15)]
    e = { d with regs := e.regs, chs := e.chs } ∧ d.regsBut e (hvKeys n)
      ∧ (∀ f, e.get f n = (d.setList n (hvWords c ++ [(HV_CLAMP.LO, c.bits 4 0 16), (HV_CLAMP.HI, c.bits 4 16 16), (HV_SLEW.RATE, c.bits 5 16 3), (HV_SLEW.STEP, c.bits 5 0 15)])).get f n)
      ∧ d.chsBut e n ∧ (d.ticking = true → e.chs = d.chs) ∧ e.chs[n].hv.ilim = d.chs[n].hv.ilim := by
  rw [Dev.clampWrite_legal _ _ _ _ legal]
  have first : d.onlyRegs ((d.setList n (hvWords c)).setList n [(HV_CLAMP.LO, c.bits 4 0 16), (HV_CLAMP.HI, c.bits 4 16 16)]) (hvKeys n) :=
    Dev.setList_onlyRegs (Dev.setList_onlyRegs (d.onlyRegs_refl _) n _ (by simp [hvWords, hvKeys])) n _ (by simp [hvKeys])
  have run : ((d.setList n (hvWords c)).setList n [(HV_CLAMP.LO, c.bits 4 0 16), (HV_CLAMP.HI, c.bits 4 16 16)]).ticking = d.ticking :=
    Dev.ticking_of_get (Dev.regsBut_read first.2 _ _ _ rfl) (Dev.regsBut_read first.2 _ _ _ rfl) (by rw [first.1])
  have all : d.setList n (hvWords c ++ [(HV_CLAMP.LO, c.bits 4 0 16), (HV_CLAMP.HI, c.bits 4 16 16), (HV_SLEW.RATE, c.bits 5 16 3), (HV_SLEW.STEP, c.bits 5 0 15)])
      = (((d.setList n (hvWords c)).setList n [(HV_CLAMP.LO, c.bits 4 0 16), (HV_CLAMP.HI, c.bits 4 16 16)]).setList n [(HV_SLEW.RATE, c.bits 5 16 3), (HV_SLEW.STEP, c.bits 5 0 15)]) := by
    unfold Dev.setList
    rw [List.foldl_append]
    rfl
  rw [all]
  generalize (d.setList n (hvWords c)).setList n [(HV_CLAMP.LO, c.bits 4 0 16), (HV_CLAMP.HI, c.bits 4 16 16)] = x at *
  obtain ⟨rest, regs⟩ := first
  obtain ⟨follow, others⟩ := x.quietFollow_onlyCh n
  have ilim := x.quietFollow_ilim n
  have still (h : d.ticking = true) : x.quietFollow n = x := Dev.quietFollow_ticking n (run.trans h)
  have same : (x.quietFollow n).regs = x.regs := (congrArg Dev.regs follow :)
  have chs : x.chs = d.chs := by rw [rest]
  generalize x.quietFollow n = y at *
  have slew : y.onlyRegs (y.setList n [(HV_SLEW.RATE, c.bits 5 16 3), (HV_SLEW.STEP, c.bits 5 0 15)]) (hvKeys n) :=
    Dev.setList_onlyRegs (y.onlyRegs_refl _) n _ (by simp [hvKeys])
  have last : (y.setList n [(HV_SLEW.RATE, c.bits 5 16 3), (HV_SLEW.STEP, c.bits 5 0 15)]).regs = (x.setList n [(HV_SLEW.RATE, c.bits 5 16 3), (HV_SLEW.STEP, c.bits 5 0 15)]).regs := Dev.setList_regs same n _
  refine ⟨?_, Dev.regsBut_trans (Dev.regsBut_of_regs regs same) slew.2, fun f => Dev.get_of_regs last _ _ _, fun k other => ?_, fun h => ?_, ?_⟩
  · rw [slew.1, follow, rest]
  · rw [slew.1]
    exact (others k other).trans (by rw [chs])
  · rw [slew.1, still h]
    exact chs
  · rw [slew.1]
    exact ilim.trans (by rw [chs])

/-- The device once HV_SET is done (R201, R205, R226, R229). -/
theorem Dev.hvSet_parts (d : Dev) (n : Fin 8) (c : Call) (legal : signed 16 (c.bits 4 0 16) ≤ signed 16 (c.bits 4 16 16)) :
    let e := d.hvSet n n c
    d.acts e (hvKeys n) ∧ d.chsBut e n ∧ (d.ticking = true → e.chs[n] = { d.chs[n] with hv := { d.chs[n].hv with ilim := e.chs[n].hv.ilim } })
      ∧ e.chs[n].hv.ilim = (if d.flag HV_STAT.FOLD n then d.chs[n].hv.ilim else c.bits 6 0 8)
      ∧ (∀ x ∈ hvWords c ++ [(HV_CLAMP.LO, c.bits 4 0 16), (HV_CLAMP.HI, c.bits 4 16 16), (HV_SLEW.RATE, c.bits 5 16 3), (HV_SLEW.STEP, c.bits 5 0 15)], e.get x.1 n = x.2 % 2 ^ x.1.w)
      ∧ e.get HV_ILIM.ILIM n = c.bits 6 0 8 ∧ e.get HV_ILIM.TRIES n = c.bits 6 30 2 ∧ e.get HV_RX.MODE n = c.bits 7 0 2 ∧ e.get HV_RX.LINE n = c.bits 7 4 2 := by
  obtain ⟨rest, regs, vals, others, plays, ilim⟩ := d.hvSet_first n c legal
  unfold Dev.hvSet
  generalize ((d.setList n (hvWords c)).clampWrite n (c.bits 4 0 16) (c.bits 4 16 16)).setList n [(HV_SLEW.RATE, c.bits 5 16 3), (HV_SLEW.STEP, c.bits 5 0 15)] = x at *
  obtain ⟨lim, -, -, tries, mine, others', -, -, regs'⟩ := x.ilimSet_parts n (c.arg 6)
  obtain ⟨own, time⟩ := x.ilimSet_rest n (c.arg 6)
  generalize x.ilimSet n (c.arg 6) = y at *
  have receive : y.onlyRegs (y.setList n [(HV_RX.MODE, c.bits 7 0 2), (HV_RX.LINE, c.bits 7 4 2)]) [HV_RX.MODE.at n, HV_RX.LINE.at n] :=
    Dev.setList_onlyRegs (y.onlyRegs_refl _) n _ (by simp)
  have mode := y.setList_get n [(HV_RX.MODE, c.bits 7 0 2), (HV_RX.LINE, c.bits 7 4 2)] (of_decide_eq_true rfl) (f := HV_RX.MODE) (v := c.bits 7 0 2) (by simp)
  have line := y.setList_get n [(HV_RX.MODE, c.bits 7 0 2), (HV_RX.LINE, c.bits 7 4 2)] (of_decide_eq_true rfl) (f := HV_RX.LINE) (v := c.bits 7 4 2) (by simp)
  generalize y.setList n [(HV_RX.MODE, c.bits 7 0 2), (HV_RX.LINE, c.bits 7 4 2)] = e at *
  obtain ⟨last, regs''⟩ := receive
  have fold : x.flag HV_STAT.FOLD n = d.flag HV_STAT.FOLD n := Dev.flag_of_get (Dev.regsBut_read regs _ _ _ rfl)
  have chs : e.chs = y.chs := by rw [last]
  rw [fold, ilim] at mine
  refine ⟨⟨?_, ?_, ?_⟩, fun k other => ?_, fun h => ?_, ?_, fun w isin => ?_, (Dev.regsBut_read regs'' _ _ _ rfl).trans lim, (Dev.regsBut_read regs'' _ _ _ rfl).trans tries,
    mode.trans (Nat.mod_mod _ _), line.trans (Nat.mod_mod _ _)⟩
  · rw [last]
    exact own.trans (by rw [rest])
  · rw [last]
    exact time.trans (by rw [rest])
  · exact Dev.regsBut_trans regs (Dev.regsBut_trans (Dev.regsBut_mono regs' (by simp [hvKeys])) (Dev.regsBut_mono regs'' (by simp [hvKeys])))
  · rw [chs]
    exact (others' k other).trans (others k other)
  · rw [chs, mine, plays h]
  · rw [chs, mine]
    rfl
  · have once : ((hvWords c ++ [(HV_CLAMP.LO, c.bits 4 0 16), (HV_CLAMP.HI, c.bits 4 16 16), (HV_SLEW.RATE, c.bits 5 16 3), (HV_SLEW.STEP, c.bits 5 0 15)]).map (fun x => x.1.id)).Nodup :=
      of_decide_eq_true rfl
    have out : w.1.id ∉ [HV_ILIM.ILIM.id, HV_ILIM.SC_TIME.id, HV_ILIM.RETRY.id, HV_ILIM.TRIES.id, HV_ILIM_EFF.ILIM_EFF.id, HV_ILIM_EFF.SC_EFF.id, HV_RX.MODE.id, HV_RX.LINE.id] := by
      have all : (hvWords c ++ [(HV_CLAMP.LO, c.bits 4 0 16), (HV_CLAMP.HI, c.bits 4 16 16), (HV_SLEW.RATE, c.bits 5 16 3), (HV_SLEW.STEP, c.bits 5 0 15)]).all
        (fun w => w.1.id ∉ [HV_ILIM.ILIM.id, HV_ILIM.SC_TIME.id, HV_ILIM.RETRY.id, HV_ILIM.TRIES.id, HV_ILIM_EFF.ILIM_EFF.id, HV_ILIM_EFF.SC_EFF.id, HV_RX.MODE.id, HV_RX.LINE.id]) = true := rfl
      exact of_decide_eq_true (List.all_eq_true.mp all w isin)
    have read : e.get w.1 n = x.get w.1 n := by
      refine (regs'' _ _ _ ?_).trans (regs' _ _ _ ?_)
      · intro h
        simp only [List.mem_cons, List.not_mem_nil, or_false, Fld.at, Prod.mk.injEq] at h out
        omega
      · intro h
        simp only [List.mem_cons, List.not_mem_nil, or_false, Fld.at, Prod.mk.injEq] at h out
        omega
    rw [read, vals]
    exact d.setList_get n _ once isin

theorem orderHvClear_act (d : Dev) (mem : Memory) (c : Call) :
    orderHvClear.act d mem c = ((if c.bits 0 1 1 = 1 then (if c.bits 0 0 1 = 1 then d.scClr c.m else d).tripClr c.ch else if c.bits 0 0 1 = 1 then d.scClr c.m else d, mem), okWith []) := rfl

/-- Trips released are the channels' own matter. -/
theorem Dev.tripClr_rest (d : Dev) (n : Fin 8) : d.tripClr n = { d with chs := (d.tripClr n).chs } := by
  have own : d.ownTripClr n = { d with chs := (d.ownTripClr n).chs } := by
    unfold Dev.ownTripClr
    split
    · rfl
    · rfl
  have total (e : Dev) : e.totalTripClr n = { e with chs := (e.totalTripClr n).chs } := by
    unfold Dev.totalTripClr
    split
    · dsimp only
      split
      · exact Dev.eachCh_keeps (fun x : Dev => x = { e with chs := x.chs }) (fun k d => d.onCh k (fun c => { c with hv := { c.hv with totTrip := 0, totClr := false } }))
          (e.onCh n (fun c => { c with hv := { c.hv with totClr := true } }))
          (fun k x h => congrArg (fun y : Dev => y.onCh k (fun c => { c with hv := { c.hv with totTrip := 0, totClr := false } })) h) rfl
      · rfl
    · rfl
  rw [d.tripClr_eq, total, own]

/-- The trips of a channel once they are asked to be released (R237; log entry 20). -/
theorem Dev.tripClr_parts (d : Dev) (n : Fin 8) :
    let e := d.tripClr n
    (d.chPower n < 2800 → e.chs[n].hv.trip = 0)
      ∧ (d.totPower < 19200 → (∀ k : Fin 8, k ≠ n → d.chs[k].hv.totTrip = 0 ∨ d.chs[k].hv.totClr = true) → e.chs[n].hv.totTrip = 0)
      ∧ (19200 ≤ d.totPower → d.chsBut e n ∧ e.chs[n].hv.totTrip = d.chs[n].hv.totTrip) := by
  obtain ⟨-, others, mine⟩ := d.ownTripClr_parts n
  have other := d.ownTripClr_total n
  rw [d.tripClr_eq]
  generalize d.ownTripClr n = f at *
  obtain ⟨-, trips, high, low⟩ := f.totalTripClr_parts n
  have power := (Dev.power_of_avg (fun k => (other k).2.2)).2
  rw [power] at high low
  refine ⟨fun cool => ?_, fun l released => ?_, fun h => ?_⟩
  · rw [trips, mine]
    exact if_pos cool
  · by_cases tripped : f.chs[n].hv.totTrip = 0
    · rw [show f.totalTripClr n = f from if_neg (fun h => (show f.chs[n].hv.totTrip ≠ 0 from of_decide_eq_true (Bool.and_eq_true_iff.mp h).2) tripped)]
      exact tripped
    · exact low l tripped (fun k diff => (other k).1 ▸ (other k).2.1 ▸ released k diff) n
  · rw [high h]
    exact ⟨others, (other n).1⟩

/-- What HV_CLEAR releases (R233, R237). -/
def Dev.hvClear (d : Dev) (n : Fin 8) (c : Call) : Dev :=
  if c.bits 0 1 1 = 1 then (if c.bits 0 0 1 = 1 then d.scClr n else d).tripClr n else if c.bits 0 0 1 = 1 then d.scClr n else d

theorem Dev.hvClear_parts (d : Dev) (n : Fin 8) (c : Call) :
    let e := d.hvClear n c
    d.acts e [HV_STAT.SC_LATCH.at n] ∧ (c.bits 0 0 1 = 1 → e.flag HV_STAT.SC_LATCH n = false) ∧ (c.bits 0 0 1 = 0 → e.get HV_STAT.SC_LATCH n = d.get HV_STAT.SC_LATCH n)
      ∧ (c.bits 0 1 1 = 1 → d.chPower n < 2800 → e.chs[n].hv.trip = 0)
      ∧ (c.bits 0 1 1 = 1 → d.totPower < 19200 → (∀ k : Fin 8, k ≠ n → d.chs[k].hv.totTrip = 0 ∨ d.chs[k].hv.totClr = true) → e.chs[n].hv.totTrip = 0)
      ∧ (c.bits 0 1 1 = 1 → 19200 ≤ d.totPower → d.chsBut e n ∧ e.chs[n].hv.totTrip = d.chs[n].hv.totTrip)
      ∧ (c.bits 0 1 1 = 0 → e.chs = d.chs) := by
  obtain ⟨only, cleared, kept⟩ : d.onlyRegs (if c.bits 0 0 1 = 1 then d.scClr n else d) [HV_STAT.SC_LATCH.at n]
      ∧ (c.bits 0 0 1 = 1 → (if c.bits 0 0 1 = 1 then d.scClr n else d).flag HV_STAT.SC_LATCH n = false)
      ∧ (c.bits 0 0 1 = 0 → (if c.bits 0 0 1 = 1 then d.scClr n else d).get HV_STAT.SC_LATCH n = d.get HV_STAT.SC_LATCH n) := by
    split
    next on => exact ⟨Dev.onlyRegs_set HV_STAT.SC_LATCH n 0 0 (d.onlyRegs_refl _) (by simp), fun _ => d.flag_set_bool HV_STAT.SC_LATCH n 0 false (by decide), fun h => by omega⟩
    next off => exact ⟨d.onlyRegs_refl _, fun h => absurd h off, fun _ => rfl⟩
  unfold Dev.hvClear
  generalize (if c.bits 0 0 1 = 1 then d.scClr n else d) = x at *
  obtain ⟨rest, regs⟩ := only
  have chs : x.chs = d.chs := by rw [rest]
  have power := Dev.power_of_avg (d := d) (e := x) (fun k => by rw [chs])
  split
  next on =>
    obtain ⟨own, total, high⟩ := x.tripClr_parts n
    rw [power.1] at own
    rw [power.2] at total high
    have moved := x.tripClr_rest n
    generalize x.tripClr n = e at *
    have same : e.regs = x.regs := (congrArg Dev.regs moved :)
    refine ⟨⟨?_, ?_, Dev.regsBut_of_regs regs same⟩, fun h => (Dev.flag_of_get (Dev.get_of_regs same _ _ _)).trans (cleared h), fun h => (Dev.get_of_regs same _ _ _).trans (kept h),
      fun _ => own, fun _ cool all => total cool (fun k other => chs ▸ all k other), fun _ hot => ⟨fun k other => ?_, ?_⟩, fun h => by omega⟩
    · rw [moved, rest]
    · rw [moved, rest]
    · exact ((high hot).1 k other).trans (by rw [chs])
    · exact (high hot).2.trans (by rw [chs])
  next off =>
    exact ⟨⟨by rw [rest], by rw [rest], regs⟩, cleared, kept, fun h => absurd h off, fun h => absurd h off, fun h => absurd h off, fun _ => chs⟩

/-! ### The phase engine -/

theorem leWords_lt (bs : List (BitVec 8)) : ∀ w ∈ leWords bs, w < 2 ^ 32 := by
  induction bs using leWords.induct with
  | case1 a b c d rest ih =>
    intro w isin
    rcases List.mem_cons.mp isin with rfl | later
    · exact leNat_lt a b c d
    · exact ih w later
  | case2 bs short =>
    unfold leWords
    split
    · exact absurd rfl (short _ _ _ _ _)
    · exact fun w isin => absurd isin (by simp)

theorem getD_leWords_lt (bs : List (BitVec 8)) (k : Nat) : (leWords bs).getD k 0 < 2 ^ 32 := by
  rw [List.getD_eq_getElem?_getD]
  cases h : (leWords bs)[k]? with
  | none => exact Nat.two_pow_pos 32
  | some w => exact leWords_lt bs w (List.mem_of_getElem? h)

/-- The registers of an entry of the phase operand table. -/
def phIds : List Nat := [PHO_O0.FREQ_LO.id, PHO_O1.FREQ_HI.id, PHO_O2.PHASE_LO.id, PHO_O3.PHASE_HI.id]

/-- An entry of the phase operand table reads its four words (R157, R158). -/
def Dev.phHolds (d : Dev) (n i : Nat) (w : List Nat) : Prop :=
  d.get PHO_O0.FREQ_LO n i = w.getD 0 0 % 2 ^ 32 ∧ d.get PHO_O1.FREQ_HI n i = w.getD 1 0 % 2 ^ PHO_O1.FREQ_HI.w
    ∧ d.get PHO_O2.PHASE_LO n i = w.getD 2 0 % 2 ^ 32 ∧ d.get PHO_O3.PHASE_HI n i = w.getD 3 0 % 2 ^ PHO_O3.PHASE_HI.w

theorem Dev.setPair_words (d : Dev) (lo hi : Fld) (n i a b : Nat) (wl : lo.w = 32) (other : hi.id ≠ lo.id) (fits : a < 2 ^ 32) :
    (d.setPair lo hi n i (a + 2 ^ 32 * b)).get lo n i = a % 2 ^ 32 ∧ (d.setPair lo hi n i (a + 2 ^ 32 * b)).get hi n i = b % 2 ^ hi.w := by
  unfold Dev.setPair
  rw [Dev.get_set_id _ _ _ _ _ _ _ _ other, Dev.get_set_same, Dev.get_set_same, wl]
  refine ⟨by omega, ?_⟩
  rw [show (a + 2 ^ 32 * b) / 2 ^ 32 = b by omega]

theorem Dev.setPair_other (d : Dev) (lo hi g : Fld) (n i m j v : Nat) (l : (lo.id, n, i) ≠ (g.id, m, j)) (h : (hi.id, n, i) ≠ (g.id, m, j)) :
    (d.setPair lo hi n i v).get g m j = d.get g m j :=
  (Dev.get_set_other _ _ _ _ _ _ _ _ h).trans (Dev.get_set_other _ _ _ _ _ _ _ _ l)

theorem Dev.phPut_same (d : Dev) (n i : Nat) (w : List Nat) (low : w.getD 0 0 < 2 ^ 32) (phase : w.getD 2 0 < 2 ^ 32) : (d.phPut n i w).phHolds n i w := by
  obtain ⟨f0, f1⟩ := d.setPair_words PHO_O0.FREQ_LO PHO_O1.FREQ_HI n i (w.getD 0 0) (w.getD 1 0) rfl (by decide) low
  obtain ⟨p0, p1⟩ := (d.setPair PHO_O0.FREQ_LO PHO_O1.FREQ_HI n i (w.getD 0 0 + 2 ^ 32 * w.getD 1 0)).setPair_words PHO_O2.PHASE_LO PHO_O3.PHASE_HI n i (w.getD 2 0) (w.getD 3 0)
    rfl (by decide) phase
  have apart {a b : Nat} (diff : a ≠ b) : (a, n, i) ≠ (b, n, i) := fun eq => diff (Prod.mk.inj eq).1
  exact ⟨(Dev.setPair_other _ _ _ _ _ _ _ _ _ (apart (by decide)) (apart (by decide))).trans f0, (Dev.setPair_other _ _ _ _ _ _ _ _ _ (apart (by decide)) (apart (by decide))).trans f1, p0, p1⟩

/-- What an entry of the table written leaves: every other entry, and every other register. -/
theorem Dev.phPut_other (d : Dev) (n i : Nat) (w : List Nat) (f : Fld) (m j : Nat) (other : f.id ∉ phIds ∨ (n, i) ≠ (m, j)) : (d.phPut n i w).get f m j = d.get f m j := by
  have apart (g : Fld) (isin : g.id ∈ phIds) : (g.id, n, i) ≠ (f.id, m, j) := by
    rintro eq
    obtain ⟨id, place⟩ := Prod.mk.inj eq
    exact other.elim (fun h => h (id ▸ isin)) (fun h => h place)
  exact (Dev.setPair_other _ _ _ _ _ _ _ _ _ (apart _ (by decide)) (apart _ (by decide))).trans (Dev.setPair_other _ _ _ _ _ _ _ _ _ (apart _ (by decide)) (apart _ (by decide)))

/-- k entries of the table from b on filled from a row of words. -/
def Dev.phFill (d : Dev) (n b k : Nat) (ws : List Nat) : Dev := (List.range k).foldl (fun d i => d.phPut n (b + i) (ws.drop (4 * i))) d

theorem Dev.phFill_succ (d : Dev) (n b k : Nat) (ws : List Nat) : d.phFill n b (k + 1) ws = (d.phFill n b k ws).phPut n (b + k) (ws.drop (4 * k)) := by
  unfold Dev.phFill
  rw [List.range_succ, List.foldl_append]
  rfl

theorem Dev.phFill_parts (d : Dev) (n b k : Nat) (ws : List Nat) (fits : ∀ j, ws.getD j 0 < 2 ^ 32) :
    let e := d.phFill n b k ws
    e = { d with regs := e.regs } ∧ (∀ f m i, f.id ∉ phIds → e.get f m i = d.get f m i) ∧ ∀ i, i < k → e.phHolds n (b + i) (ws.drop (4 * i)) := by
  have drop (i j : Nat) : (ws.drop (4 * i)).getD j 0 = ws.getD (4 * i + j) 0 := by
    rw [List.getD_eq_getElem?_getD, List.getElem?_drop, List.getD_eq_getElem?_getD]
  induction k with
  | zero => exact ⟨rfl, fun _ _ _ _ => rfl, fun i low => absurd low (by omega)⟩
  | succ k ih =>
    obtain ⟨rest, others, holds⟩ := ih
    dsimp only
    rw [Dev.phFill_succ]
    generalize d.phFill n b k ws = x at *
    refine ⟨?_, fun f m i out => (x.phPut_other _ _ _ f m i (.inl out)).trans (others f m i out), fun i low => ?_⟩
    · rw [rest]
      rfl
    · rcases Nat.lt_succ_iff_lt_or_eq.mp low with less | rfl
      · have same (f : Fld) : (x.phPut n (b + k) (ws.drop (4 * k))).get f n (b + i) = x.get f n (b + i) := x.phPut_other _ _ _ f n (b + i) (.inr (by simp; omega))
        unfold Dev.phHolds
        rw [same, same, same, same]
        exact holds i less
      · exact x.phPut_same n (b + i) _ (by rw [drop]; exact fits _) (by rw [drop]; exact fits _)

/-- A table filled, entry by entry, from the words of a buffer. -/
theorem Dev.phFill_keeps (d : Dev) (n b k : Nat) (ws : List Nat) (fits : ∀ j, ws.getD j 0 < 2 ^ 32) :
    let e := d.phFill n b k ws
    d.keepsSlots e ∧ e.chs = d.chs ∧ ∀ i, i < k → e.get PHO_O0.FREQ_LO n (b + i) = ws.getD (4 * i) 0 % 2 ^ 32
      ∧ e.get PHO_O1.FREQ_HI n (b + i) = ws.getD (4 * i + 1) 0 % 2 ^ PHO_O1.FREQ_HI.w ∧ e.get PHO_O2.PHASE_LO n (b + i) = ws.getD (4 * i + 2) 0 % 2 ^ 32
      ∧ e.get PHO_O3.PHASE_HI n (b + i) = ws.getD (4 * i + 3) 0 % 2 ^ PHO_O3.PHASE_HI.w := by
  obtain ⟨rest, regs, holds⟩ := d.phFill_parts n b k ws fits
  have apart : ∀ id ∈ slotIds, id ∉ phIds := by decide
  refine ⟨⟨by rw [rest], by rw [rest], fun f m i isin => regs f m i (apart _ isin)⟩, by rw [rest], fun i low => ?_⟩
  have drop (j : Nat) : (ws.drop (4 * i)).getD j 0 = ws.getD (4 * i + j) 0 := by
    rw [List.getD_eq_getElem?_getD, List.getElem?_drop, List.getD_eq_getElem?_getD]
  have entry := holds i low
  unfold Dev.phHolds at entry
  rwa [drop, drop, drop, drop] at entry

theorem orderPhLoad_act (buf : Option (List (BitVec 8))) (d : Dev) (mem : Memory) (c : Call) :
    (orderPhLoad buf).act d mem c = withBuf buf (fun _ c => 16 * (c.bits 2 16 10 + 1)) (fun bytes d mem c =>
      ((d.phFill c.m (c.bits 2 0 10) (c.bits 2 16 10 + 1) (leWords bytes), mem), okWith [])) d mem c := rfl

theorem orderPhOffset_act (d : Dev) (mem : Memory) (c : Call) :
    orderPhOffset.act d mem c = if c.late d then ((d, mem), .done 6 [])
      else if d.flag DDS_STAT.APPLY_PEND c.m then ((d, mem), busy3)
      else (((d.enrol c 0x131 (c.land d) 1 0 [(DDS_CTRL.OWN.id, c.m)]).applyAccept c.ch (c.pair 2 % 2 ^ 48) (c.land d) (.mbx c.m c.slot), mem), .goes) := rfl

/-- What amplitudes and epoch become (R154, R163). -/
def Dev.phCfg (d : Dev) (n : Nat) (c : Call) : Dev :=
  ((d.set DDS_AMP.AMP_LV n 0 (c.bits 0 0 16)).set DDS_AMP.AMP_HV n 0 (c.bits 0 16 16)).setPair DDS_EPOCH_LO.EPOCH_LO DDS_EPOCH_HI.EPOCH_HI n 0 (c.pair 1)

theorem orderPhCfg_act (d : Dev) (mem : Memory) (c : Call) :
    orderPhCfg.act d mem c = if d.getPair DDS_EPOCH_LO.EPOCH_LO DDS_EPOCH_HI.EPOCH_HI c.m ≠ c.pair 1 && !d.seqIdle c.m then ((d, mem), busy3)
      else ((d.phCfg c.m c, mem), okWith []) := rfl

/-- Whether a new epoch is held back (R163). -/
theorem Dev.epochHeld_iff (d : Dev) (n v : Nat) : (decide (d.getPair DDS_EPOCH_LO.EPOCH_LO DDS_EPOCH_HI.EPOCH_HI n ≠ v) && !d.seqIdle n) = true
    ↔ d.getPair DDS_EPOCH_LO.EPOCH_LO DDS_EPOCH_HI.EPOCH_HI n ≠ v ∧ d.seqIdle n = false := by
  simp

theorem Dev.phCfg_parts (d : Dev) (n : Nat) (c : Call) (fits : ∀ k, c.arg k < 2 ^ 32) :
    let e := d.phCfg n c
    d.onlyRegs e [DDS_AMP.AMP_LV.at n, DDS_AMP.AMP_HV.at n, DDS_EPOCH_LO.EPOCH_LO.at n, DDS_EPOCH_HI.EPOCH_HI.at n]
      ∧ e.get DDS_AMP.AMP_LV n = c.bits 0 0 16 ∧ e.get DDS_AMP.AMP_HV n = c.bits 0 16 16 ∧ e.getPair DDS_EPOCH_LO.EPOCH_LO DDS_EPOCH_HI.EPOCH_HI n = c.pair 1 := by
  refine ⟨Dev.onlyRegs_set _ _ _ _ (Dev.onlyRegs_set _ _ _ _ (Dev.onlyRegs_set _ _ _ _ (Dev.onlyRegs_set _ _ _ _ (d.onlyRegs_refl _) (by simp)) (by simp)) (by simp)) (by simp), ?_, ?_, ?_⟩
  · refine Eq.trans ?_ (Nat.mod_mod _ _)
    unfold Dev.phCfg Dev.setPair
    simp (disch := decide) only [Dev.get_set_id, Dev.get_set_same]
    rfl
  · refine Eq.trans ?_ (Nat.mod_mod _ _)
    unfold Dev.phCfg Dev.setPair
    simp (disch := decide) only [Dev.get_set_id, Dev.get_set_same]
    rfl
  · refine (Dev.getPair_setPair _ _ _ _ _ _ rfl rfl (by decide)).trans (Nat.mod_eq_of_lt ?_)
    have low := fits 1
    have high := fits (1 + 1)
    unfold Call.pair
    omega

/-- Settles O46, from what each command's meaning leaves before its answer. -/
theorem outputMailbox : Obligations.OutputMailbox := by
  unfold Obligations.OutputMailbox
  intro s n slot
  dsimp only
  have ch := s.dev.call_ch n slot
  have fits (k : Nat) : (s.dev.call n.castSucc slot).arg k < 2 ^ 32 := Dev.call_arg_lt _ _ _ _
  refine ⟨fun t => ?_, fun t => ?_, fun t => ?_, fun t => ?_, fun b t may => ?_, fun buf t fails => ?_, fun t => ⟨fun late => ?_, fun early busy => ?_, fun early free => ?_⟩,
    fun t => ⟨fun held => ?_, fun free => ?_⟩⟩
  · have act := orderLvSet_act (s.dev.begun n.castSucc slot) s.mem (s.dev.call n.castSucc slot)
    rw [ch] at act
    obtain ⟨acts, others, plays, stands, vals⟩ := (s.dev.begun n.castSucc slot).lvSet_parts n (s.dev.call n.castSucc slot)
    obtain ⟨e, run, ends, reply⟩ := Order.run_done (i := .lvSet n.castSucc slot) rfl t act ⟨acts.own, acts.time, acts.regs⟩ rfl ⟨by decide, by simp⟩
    have chs := (Dev.replied_fields reply).1
    have val (f : Fld) (v : Nat) (out : f.id ∉ answerIds) (isin : (f, v) ∈ lvWords (s.dev.call n.castSucc slot)) (small : v % 2 ^ f.w = v) : e.get f n = v :=
      (reply.regs f n 0 out).trans ((vals (f, v) isin).trans small)
    have bits (k lo w : Nat) : (s.dev.call n.castSucc slot).bits k lo w % 2 ^ w = (s.dev.call n.castSucc slot).bits k lo w := Nat.mod_mod _ _
    refine ⟨e, run, ends, fun k other => ?_, fun h => chs.trans (plays h), fun h => ?_, val _ _ (by decide) (by simp [lvWords]) (bits 0 0 1), val _ _ (by decide) (by simp [lvWords]) (bits 1 0 16),
      val _ _ (by decide) (by simp [lvWords]) (bits 2 0 16), val _ _ (by decide) (by simp [lvWords]) (bits 3 0 16), val _ _ (by decide) (by simp [lvWords]) (bits 4 4 4),
      val _ _ (by decide) (by simp [lvWords]) (bits 4 0 4), val _ _ (by decide) (by simp [lvWords]) (bits 4 8 4)⟩
    · rw [chs]
      exact others k other
    · rw [chs]
      exact (stands h).trans (congrArg (signed 16) (reply.regs QUIET_CODE_LV.CODE n 0 (by decide)).symm)
  · have act := orderHvSet_act (s.dev.begun n.castSucc slot) s.mem (s.dev.call n.castSucc slot)
    rw [ch] at act
    have legal : signed 16 ((s.dev.call n.castSucc slot).bits 4 0 16) ≤ signed 16 ((s.dev.call n.castSucc slot).bits 4 16 16) := by
      have legal := Dev.takesUp_legal t
      exact of_decide_eq_true (Bool.and_eq_true_iff.mp (Bool.and_eq_true_iff.mp (Bool.and_eq_true_iff.mp legal).1).1).1
    obtain ⟨acts, others, plays, ilim, vals, lim, tries, mode, line⟩ := (s.dev.begun n.castSucc slot).hvSet_parts n (s.dev.call n.castSucc slot) legal
    obtain ⟨e, run, ends, reply⟩ := Order.run_done (i := .hvSet n.castSucc slot) rfl t act ⟨acts.own, acts.time, acts.regs⟩ rfl ⟨by decide, by simp⟩
    have chs := (Dev.replied_fields reply).1
    have read (f : Fld) (v : Nat) (out : f.id ∉ answerIds) (h : ((s.dev.begun n.castSucc slot).hvSet n n (s.dev.call n.castSucc slot)).get f n = v) : e.get f n = v :=
      (reply.regs f n 0 out).trans h
    have val (f : Fld) (v : Nat) (out : f.id ∉ answerIds) (isin : (f, v) ∈ hvWords (s.dev.call n.castSucc slot) ++ [(HV_CLAMP.LO, (s.dev.call n.castSucc slot).bits 4 0 16),
        (HV_CLAMP.HI, (s.dev.call n.castSucc slot).bits 4 16 16), (HV_SLEW.RATE, (s.dev.call n.castSucc slot).bits 5 16 3), (HV_SLEW.STEP, (s.dev.call n.castSucc slot).bits 5 0 15)])
        (small : v % 2 ^ f.w = v) : e.get f n = v := read f v out ((vals (f, v) isin).trans small)
    have bits (k lo w : Nat) : (s.dev.call n.castSucc slot).bits k lo w % 2 ^ w = (s.dev.call n.castSucc slot).bits k lo w := Nat.mod_mod _ _
    refine ⟨e, run, ends, fun k other => ?_, fun h => ?_, ?_, val _ _ (by decide) (by simp [hvWords]) (bits 0 2 1), val _ _ (by decide) (by simp [hvWords]) (bits 0 1 1),
      val _ _ (by decide) (by simp [hvWords]) (bits 0 0 1), val _ _ (by decide) (by simp [hvWords]) (bits 1 0 16), val _ _ (by decide) (by simp [hvWords]) (bits 2 0 16),
      val _ _ (by decide) (by simp [hvWords]) (bits 3 0 16), val _ _ (by decide) (by simp [hvWords]) (bits 4 0 16), val _ _ (by decide) (by simp [hvWords]) (bits 4 16 16),
      val _ _ (by decide) (by simp [hvWords]) (bits 5 16 3), val _ _ (by decide) (by simp [hvWords]) (bits 5 0 15), read _ _ (by decide) lim, read _ _ (by decide) tries,
      read _ _ (by decide) mode, read _ _ (by decide) line⟩
    · rw [chs]
      exact others k other
    · rw [chs]
      exact plays h
    · rw [chs]
      exact ilim
  · have act := orderHvClear_act (s.dev.begun n.castSucc slot) s.mem (s.dev.call n.castSucc slot)
    rw [ch] at act
    obtain ⟨acts, cleared, kept, own, total, high, none⟩ := (s.dev.begun n.castSucc slot).hvClear_parts n (s.dev.call n.castSucc slot)
    obtain ⟨e, run, ends, reply⟩ := Order.run_done (i := .hvClear n.castSucc slot) rfl t act ⟨acts.own, acts.time, acts.regs⟩ rfl ⟨by decide, by simp⟩
    have chs := (Dev.replied_fields reply).1
    have latch := reply.regs HV_STAT.SC_LATCH n 0 (by decide)
    refine ⟨e, run, ends, fun h => (Dev.flag_of_get latch).trans (cleared h), fun h => latch.trans (kept h), fun h cool => ?_, fun h cool all => ?_, fun h hot => ⟨fun k other => ?_, ?_⟩,
      fun h => chs.trans (none h)⟩
    · rw [chs]
      exact own h cool
    · rw [chs]
      exact total h cool all
    · rw [chs]
      exact (high h hot).1 k other
    · rw [chs]
      exact (high h hot).2
  · have only : (s.dev.begun n.castSucc slot).onlyRegs (((s.dev.begun n.castSucc slot).set LV_DLY.USER n 0 ((s.dev.call n.castSucc slot).bits 0 0 14)).set HV_DLY.USER n 0
        ((s.dev.call n.castSucc slot).bits 1 0 14)) [LV_DLY.USER.at n, HV_DLY.USER.at n] :=
      Dev.onlyRegs_set _ _ _ _ (Dev.onlyRegs_set _ _ _ _ (Dev.onlyRegs_refl _ _) (by simp)) (by simp)
    obtain ⟨e, run, ends, chs, reply⟩ := Order.run_sets (i := .delay n.castSucc slot) rfl t rfl only rfl ⟨by decide, by simp⟩
    refine ⟨e, run, ends, chs, (reply.regs _ _ _ (by decide)).trans ?_, (reply.regs _ _ _ (by decide)).trans ?_⟩
    · exact (Dev.get_set_id _ _ _ _ _ _ _ _ (by decide)).trans ((Dev.get_set_same ..).trans (Nat.mod_mod _ _))
    · exact (Dev.get_set_same ..).trans (Nat.mod_mod _ _)
  · obtain ⟨keeps, chs, holds⟩ := ((s.dev.begun n.castSucc slot).emit (.hostRead ((s.dev.call n.castSucc slot).pair 0) (16 * ((s.dev.call n.castSucc slot).bits 2 16 10 + 1)))).phFill_keeps n
      ((s.dev.call n.castSucc slot).bits 2 0 10) ((s.dev.call n.castSucc slot).bits 2 16 10 + 1) (leWords (bufBytes b (16 * ((s.dev.call n.castSucc slot).bits 2 16 10 + 1)))) (getD_leWords_lt _)
    obtain ⟨e, run, answered, time, reply⟩ := Order.run_answers (i := .phLoad n.castSucc slot (some b)) rfl t ((orderPhLoad_act ..).trans (if_pos may))
      (Dev.keepsSlots_trans (s.dev.keepsSlots_asks n.castSucc slot _) keeps) ⟨by decide, by simp⟩
    refine ⟨e, run, answered, (Dev.replied_fields reply).1.trans chs, time, fun i low => ?_⟩
    rw [reply.regs _ _ _ (by decide), reply.regs _ _ _ (by decide), reply.regs _ _ _ (by decide), reply.regs _ _ _ (by decide)]
    exact holds i low
  · obtain ⟨e, run, ends, reply⟩ := Order.run_idle (i := .phLoad n.castSucc slot buf) rfl t ((orderPhLoad_act ..).trans (withBuf_fails (d := s.dev.begun n.castSucc slot) fails ..)) ⟨by decide, by simp⟩
    exact ⟨e, run, ends, (Dev.replied_fields reply).1⟩
  · obtain ⟨e, run, ends, reply⟩ := Order.run_idle (i := .phOffset n.castSucc slot) rfl t
      ((orderPhOffset_act ..).trans (if_pos (((s.dev.call n.castSucc slot).late_begun s.dev n.castSucc slot).trans late))) ⟨by decide, by simp⟩
    exact ⟨e, run, ends, (Dev.replied_fields reply).1⟩
  · obtain ⟨e, run, ends, reply⟩ := Order.run_idle (i := .phOffset n.castSucc slot) rfl t
      ((orderPhOffset_act ..).trans ((if_neg (Bool.eq_false_iff.mp early)).trans (if_pos busy))) ⟨by decide, by simp⟩
    exact ⟨e, run, ends, (Dev.replied_fields reply).1⟩
  · have act := (orderPhOffset_act (s.dev.begun n.castSucc slot) s.mem (s.dev.call n.castSucc slot)).trans ((if_neg (Bool.eq_false_iff.mp early)).trans (if_neg (Bool.eq_false_iff.mp free)))
    rw [ch] at act
    have run := Order.run_goes (i := .phOffset n.castSucc slot) rfl t act
    obtain ⟨a, flag, mine, kind, land, org, regs, others⟩ := ((s.dev.begun n.castSucc slot).enrol (s.dev.call n.castSucc slot) 0x131
      ((s.dev.call n.castSucc slot).land (s.dev.begun n.castSucc slot)) 1 0 [(DDS_CTRL.OWN.id, (s.dev.call n.castSucc slot).m)]).applyAccept_parts n
        ((s.dev.call n.castSucc slot).pair 2 % 2 ^ 48) ((s.dev.call n.castSucc slot).land (s.dev.begun n.castSucc slot)) (.mbx (s.dev.call n.castSucc slot).m (s.dev.call n.castSucc slot).slot)
    exact ⟨_, a, run, ⟨0, _, List.mem_append_right _ (List.mem_singleton_self _)⟩, flag, mine, kind, land, org, others, rfl, regs⟩
  · obtain ⟨e, run, ends, reply⟩ := Order.run_idle (i := .phCfg n.castSucc slot) rfl t ((orderPhCfg_act ..).trans (if_pos ((s.dev.epochHeld_iff _ _).mpr held))) ⟨by decide, by simp⟩
    exact ⟨e, run, ends, (Dev.replied_fields reply).1⟩
  · obtain ⟨only, lv, hv, epoch⟩ := (s.dev.begun n.castSucc slot).phCfg_parts n (s.dev.call n.castSucc slot) fits
    obtain ⟨e, run, ends, chs, reply⟩ := Order.run_sets (i := .phCfg n.castSucc slot) rfl t ((orderPhCfg_act ..).trans (if_neg (fun h => free ((s.dev.epochHeld_iff _ _).mp h)))) only rfl
      ⟨by decide, by simp⟩
    refine ⟨e, run, ends, chs, (reply.regs _ _ _ (by decide)).trans lv, (reply.regs _ _ _ (by decide)).trans hv, Eq.trans ?_ epoch⟩
    unfold Dev.getPair
    rw [reply.regs _ _ _ (by decide), reply.regs _ _ _ (by decide)]
    rfl

end Sys2Proof.Machine
end

section
/-!
PROOF. The channel commands on the Sieve, the captures and the calibration slots (R249, R250, R254, R256, R262, R264, R269, R276, R285, R287, R288, R507).
-/
namespace Sys2Proof.Machine
open Reg

/-! ### A tap set to a preset -/

/-- The coefficients of channel n. -/
def coefKeys (n : Nat) : List Key := (List.range 60).map (fun i => SOSs_c.COEF.at n i)

theorem coefKeys_mem (n i : Nat) (low : i < 60) : SOSs_c.COEF.at n i ∈ coefKeys n := List.mem_map_of_mem (List.mem_range.mpr low)

/-- Sections of five coefficients each, put where there is room for them, move coefficients only. -/
theorem Dev.sosPut_onlyRegs (d : Dev) (n base : Nat) (secs : List (List Int)) (room : base + secs.length ≤ 12) (five : ∀ s ∈ secs, s.length ≤ 5) :
    d.onlyRegs (d.sosPut n base secs) (coefKeys n) := by
  unfold Dev.sosPut
  refine List.foldlRecOn (motive := fun x : Dev => d.onlyRegs x (coefKeys n)) secs.zipIdx _ (d.onlyRegs_refl _) (fun x only s isin => ?_)
  refine List.foldlRecOn (motive := fun x : Dev => d.onlyRegs x (coefKeys n)) s.1.zipIdx _ only (fun y only c inside => Dev.onlyRegs_set _ _ _ _ only (coefKeys_mem n _ ?_))
  obtain ⟨sec, isSec⟩ := List.mem_zipIdx' isin
  obtain ⟨place, -⟩ := List.mem_zipIdx' inside
  have short := five s.1 (isSec ▸ List.getElem_mem sec)
  omega

/-- The presets stay within their fields (R256). -/
theorem presets_fit : ∀ p ∈ presets, p.src < 2 ^ TAPk_CFG.SRC.w ∧ p.dec < 2 ^ TAPk_CFG.DEC.w ∧ p.chain.length < 2 ^ TAPk_CFG.SOS_NUM.w ∧ p.settle < 2 ^ TAPk_SETTLE.SETTLE.w
    ∧ ∀ s ∈ p.chain, s.length ≤ 5 := by decide

/-- The registers of tap k but for the coefficients. -/
def tapKeys (n k : Nat) : List Key := [TAPk_CFG.CIC_N.at n k, TAPk_CFG.SRC.at n k, TAPk_CFG.DEC.at n k, TAPk_CFG.SOS_BASE.at n k, TAPk_CFG.SOS_NUM.at n k, TAPk_CFG.EN.at n k,
  TAPk_SETTLE.SETTLE.at n k, TAPk_GD.SRC_USER.at n k]

/-- Tap k set to a preset, from the free choice of its CIC order on. -/
def Dev.tapShape (d : Dev) (n k base : Nat) (p : Preset) : Dev :=
  ((((((d.set TAPk_CFG.SRC n k p.src).set TAPk_CFG.DEC n k p.dec).set TAPk_CFG.SOS_BASE n k base).set TAPk_CFG.SOS_NUM n k p.chain.length).set TAPk_CFG.EN n k 1).set
    TAPk_SETTLE.SETTLE n k p.settle)

/-- The CIC order of a preset: 3, or free where it decimates by 1. -/
def Dev.tapOrder (d : Dev) (n k : Nat) (p : Preset) : Dev :=
  if p.dec = 1 then d.free.2.set TAPk_CFG.CIC_N n k (1 + d.free.1 % 3) else d.set TAPk_CFG.CIC_N n k 3

theorem orderTapSet_act (d : Dev) (mem : Memory) (c : Call) :
    orderTapSet.act d mem c = if d.flag SIEVE_STAT.RUNNING c.m then ((d, mem), busy3)
      else (((((d.tapOrder c.m (c.bits 0 0 2) (presets.getD (c.bits 0 8 4) ⟨0, 1, [], 0⟩)).tapShape c.m (c.bits 0 0 2) (c.bits 0 16 4)
        (presets.getD (c.bits 0 8 4) ⟨0, 1, [], 0⟩)).sosPut c.m (c.bits 0 16 4) (presets.getD (c.bits 0 8 4) ⟨0, 1, [], 0⟩).chain).set TAPk_GD.SRC_USER c.m (c.bits 0 0 2) 0,
        mem), okWith []) := rfl

theorem Dev.tapOrder_parts (d : Dev) (n k : Nat) (p : Preset) :
    d.acts (d.tapOrder n k p) [TAPk_CFG.CIC_N.at n k] ∧ (d.tapOrder n k p).chs = d.chs ∧ (p.dec ≠ 1 → (d.tapOrder n k p).get TAPk_CFG.CIC_N n k = 3) := by
  unfold Dev.tapOrder
  split
  next one => exact ⟨⟨rfl, rfl, Dev.regsBut_set TAPk_CFG.CIC_N n k _ (d.regsBut_refl _) (by simp)⟩, rfl, fun h => absurd one h⟩
  next => exact ⟨⟨rfl, rfl, Dev.regsBut_set TAPk_CFG.CIC_N n k _ (d.regsBut_refl _) (by simp)⟩, rfl, fun _ => Dev.get_set_same ..⟩

theorem Dev.tapShape_parts (d : Dev) (n k base : Nat) (p : Preset) :
    let e := d.tapShape n k base p
    d.onlyRegs e (tapKeys n k) ∧ e.get TAPk_CFG.CIC_N n k = d.get TAPk_CFG.CIC_N n k ∧ e.get TAPk_CFG.SRC n k = p.src % 2 ^ TAPk_CFG.SRC.w ∧ e.get TAPk_CFG.DEC n k = p.dec % 2 ^ TAPk_CFG.DEC.w
      ∧ e.get TAPk_CFG.SOS_BASE n k = base % 2 ^ TAPk_CFG.SOS_BASE.w ∧ e.get TAPk_CFG.SOS_NUM n k = p.chain.length % 2 ^ TAPk_CFG.SOS_NUM.w ∧ e.get TAPk_CFG.EN n k = 1
      ∧ e.get TAPk_SETTLE.SETTLE n k = p.settle % 2 ^ TAPk_SETTLE.SETTLE.w := by
  have set {e : Dev} (h : d.onlyRegs e (tapKeys n k)) (f : Fld) (v : Nat) (isin : f.at n k ∈ tapKeys n k) : d.onlyRegs (e.set f n k v) (tapKeys n k) := Dev.onlyRegs_set f n k v h isin
  refine ⟨set (set (set (set (set (set (d.onlyRegs_refl _) _ _ (by simp [tapKeys])) _ _ (by simp [tapKeys])) _ _ (by simp [tapKeys])) _ _ (by simp [tapKeys])) _ _ (by simp [tapKeys])) _ _
    (by simp [tapKeys]), ?_⟩
  unfold Dev.tapShape
  simp (disch := decide) only [Dev.get_set_id, Dev.get_set_same]
  trivial

/-- What a tap reads once it is set to a preset (R256). -/
theorem Dev.tapSet_parts (d : Dev) (n k base : Nat) (p : Preset) (isin : p ∈ presets) (room : base + p.chain.length ≤ 12) :
    let e := (((d.tapOrder n k p).tapShape n k base p).sosPut n base p.chain).set TAPk_GD.SRC_USER n k 0
    d.acts e (tapKeys n k ++ coefKeys n) ∧ e.chs = d.chs ∧ e.get TAPk_CFG.SRC n k = p.src ∧ e.get TAPk_CFG.DEC n k = p.dec ∧ e.get TAPk_CFG.SOS_BASE n k = base
      ∧ e.get TAPk_CFG.SOS_NUM n k = p.chain.length ∧ e.flag TAPk_CFG.EN n k = true ∧ e.get TAPk_SETTLE.SETTLE n k = p.settle ∧ (p.dec ≠ 1 → e.get TAPk_CFG.CIC_N n k = 3) := by
  obtain ⟨src, dec, num, settle, five⟩ := presets_fit p isin
  obtain ⟨⟨own, time, order⟩, chs, cic⟩ := d.tapOrder_parts n k p
  generalize d.tapOrder n k p = x at *
  obtain ⟨⟨shape, moved⟩, cic', src', dec', base', num', en, settle'⟩ := x.tapShape_parts n k base p
  generalize x.tapShape n k base p = y at *
  obtain ⟨put, coefs⟩ := y.sosPut_onlyRegs n base p.chain room five
  generalize y.sosPut n base p.chain = z at *
  have keep (f : Fld) (other : f.id ≠ SOSs_c.COEF.id ∧ f.id ≠ TAPk_GD.SRC_USER.id) : (z.set TAPk_GD.SRC_USER n k 0).get f n k = y.get f n k :=
    (z.get_set_id _ _ _ _ _ _ _ (Ne.symm other.2)).trans (coefs f n k (fun h => by
      obtain ⟨i, -, same⟩ := List.mem_map.mp h
      exact other.1 (Prod.mk.inj same).1.symm))
  refine ⟨⟨?_, ?_, ?_⟩, ?_, (keep _ (by decide)).trans (src'.trans (Nat.mod_eq_of_lt src)), (keep _ (by decide)).trans (dec'.trans (Nat.mod_eq_of_lt dec)),
    (keep _ (by decide)).trans (base'.trans (Nat.mod_eq_of_lt (by show base < 16; omega))), (keep _ (by decide)).trans (num'.trans (Nat.mod_eq_of_lt num)),
    ?_, (keep _ (by decide)).trans (settle'.trans (Nat.mod_eq_of_lt settle)), fun h => (keep _ (by decide)).trans (cic'.trans (cic h))⟩
  · show z.ownWait = d.ownWait
    rw [put, shape]
    exact own
  · show z.time = d.time
    rw [put, shape]
    exact time
  · have first := Dev.regsBut_trans (Dev.regsBut_mono order (ls := tapKeys n k ++ coefKeys n) (by simp [tapKeys])) (Dev.regsBut_mono moved (List.subset_append_left _ _))
    exact Dev.regsBut_set TAPk_GD.SRC_USER n k 0 (Dev.regsBut_trans first (Dev.regsBut_mono coefs (List.subset_append_right _ _))) (by simp [tapKeys])
  · show z.chs = d.chs
    rw [put, shape]
    exact chs
  · unfold Dev.flag
    rw [keep _ (by decide), en]
    rfl

/-! ### Sections loaded -/

/-- The registers of the group delays that the Clerk writes. -/
def delayKeys (n : Nat) : List Key := (List.range 4).flatMap (fun i => [TAPk_GD.SRC_USER.at n i, TAPk_GD.USER.at n i])

/-- The group delay of a tap under R619, beside whatever else has moved. -/
theorem Dev.userDelay_onlyRegs {c e : Dev} (d : Dev) (n k : Nat) (loaded : List Nat) {ks : List Key} (h : c.onlyRegs e ks) (src : TAPk_GD.SRC_USER.at n k ∈ ks)
    (user : TAPk_GD.USER.at n k ∈ ks) : c.onlyRegs (d.userDelay n loaded e k) ks := by
  unfold Dev.userDelay
  split
  · split
    · exact h
    · exact Dev.onlyRegs_set _ _ _ _ (Dev.onlyRegs_set _ _ _ _ h src) user
  · exact h

theorem orderSosLoad_act (d : Dev) (mem : Memory) (c : Call) :
    orderSosLoad.act d mem c = if d.flag SIEVE_STAT.RUNNING c.m then ((d, mem), busy3)
      else (([0, 1, 2, 3].foldl ((d.setRow SOSs_c.COEF c.m (5 * c.bits 0 0 4) (5 * c.bits 0 4 2) (fun i => c.arg (1 + i))).userDelay c.m ((List.range (c.bits 0 4 2)).map (· + c.bits 0 0 4)))
        (d.setRow SOSs_c.COEF c.m (5 * c.bits 0 0 4) (5 * c.bits 0 4 2) (fun i => c.arg (1 + i))), mem), okWith []) := rfl

/-- Sections loaded: their coefficients, and the group delays that R619 derives. -/
theorem Dev.sosLoad_parts (d : Dev) (n first num : Nat) (v : Nat → Nat) (loaded : List Nat) (room : first + num ≤ 12) (fits : ∀ i, v i < 2 ^ 32) :
    let x := d.setRow SOSs_c.COEF n (5 * first) (5 * num) v
    let e := [0, 1, 2, 3].foldl (x.userDelay n loaded) x
    d.onlyRegs e (coefKeys n ++ delayKeys n) ∧ (∀ i, i < 5 * num → e.get SOSs_c.COEF n (5 * first + i) = v i)
      ∧ ∀ i, (i < 5 * first ∨ 5 * (first + num) ≤ i) → e.get SOSs_c.COEF n i = d.get SOSs_c.COEF n i := by
  obtain ⟨vals, row⟩ := d.setRow_parts SOSs_c.COEF n (5 * first) (5 * num) v
  dsimp only
  generalize d.setRow SOSs_c.COEF n (5 * first) (5 * num) v = x at *
  have delays : x.onlyRegs ([0, 1, 2, 3].foldl (x.userDelay n loaded) x) (delayKeys n) :=
    List.foldlRecOn (motive := fun y : Dev => x.onlyRegs y (delayKeys n)) _ _ (x.onlyRegs_refl _) (fun y only k isin => Dev.userDelay_onlyRegs x n k loaded only
      (List.mem_flatMap.mpr ⟨k, List.mem_range.mpr (by simp at isin; omega), by simp⟩) (List.mem_flatMap.mpr ⟨k, List.mem_range.mpr (by simp at isin; omega), by simp⟩))
  generalize [0, 1, 2, 3].foldl (x.userDelay n loaded) x = e at *
  have keep (i : Nat) : e.get SOSs_c.COEF n i = x.get SOSs_c.COEF n i := delays.2 _ _ _ (fun h => by
    obtain ⟨k, -, same⟩ := List.mem_flatMap.mp h
    simp only [List.mem_cons, List.not_mem_nil, or_false, Fld.at, Prod.mk.injEq] at same
    exact absurd same (by simp [SOSs_c.COEF, TAPk_GD.SRC_USER, TAPk_GD.USER]))
  refine ⟨Dev.onlyRegs_trans (Dev.onlyRegs_mono row ?_) (Dev.onlyRegs_mono delays (List.subset_append_right _ _)), fun i low => ?_, fun i out => ?_⟩
  · intro key isin
    obtain ⟨i, low, rfl⟩ := List.mem_map.mp isin
    exact List.mem_append_left _ (coefKeys_mem n _ (by have := List.mem_range.mp low; omega))
  · exact (keep _).trans ((vals i low).trans (Nat.mod_eq_of_lt (fits i)))
  · refine (keep _).trans (row.2 _ _ _ (fun h => ?_))
    obtain ⟨j, low, same⟩ := List.mem_map.mp h
    have place : 5 * first + j = i := (Prod.mk.inj (Prod.mk.inj same).2).2
    have := List.mem_range.mp low
    omega

/-! ### The Sieve started and stopped -/

theorem orderSieveRun_act (d : Dev) (mem : Memory) (c : Call) :
    orderSieveRun.act d mem c = if decide (c.bits 0 0 1 = 1) && !d.flag SIEVE_STAT.RUNNING c.m && !d.sieveOk c.m then ((d, mem), .done 3 [])
      else (((((d.enrol c 0x142 (d.time.crs + 1) 1 (if c.bits 0 0 1 = 1 then 1 else 0) [(SIEVE_CTRL.OWN.id, c.m)]).set SIEVE_CTRL.SETTLE_MODE c.m 0 (c.bits 0 1 1)).sieveRun c.ch
        (decide (c.bits 0 0 1 = 1))).onCh c.ch (fun x => { x with sieve := { x.sieve with snsNext := some (c.arg 1) } }), mem), .goes) := rfl

/-- A start or stop of the Sieve with its settle mode and its Sense A setting (R242, R249, R250). -/
theorem Dev.sieveBegin_parts (d : Dev) (n : Fin 8) (mode w : Nat) (on : Bool) (small : mode < 2) :
    let e := ((d.set SIEVE_CTRL.SETTLE_MODE n 0 mode).sieveRun n on).onCh n (fun x => { x with sieve := { x.sieve with snsNext := some w } })
    e.chs[n] = { d.chs[n] with sieve := { d.chs[n].sieve with want := some on, snsNext := some w } } ∧ d.chsBut e n ∧ e.flag SIEVE_CTRL.RUN n = on
      ∧ e.get SIEVE_CTRL.SETTLE_MODE n = mode ∧ d.regsBut e [SIEVE_CTRL.SETTLE_MODE.at n, SIEVE_CTRL.RUN.at n] ∧ e.cmds = d.cmds := by
  obtain ⟨run, regs, others, mine⟩ := (d.set SIEVE_CTRL.SETTLE_MODE n 0 mode).sieveRun_parts n on
  have cmds : ((d.set SIEVE_CTRL.SETTLE_MODE n 0 mode).sieveRun n on).cmds = d.cmds := rfl
  generalize (d.set SIEVE_CTRL.SETTLE_MODE n 0 mode).sieveRun n on = x at *
  refine ⟨?_, fun k other => (x.onCh_chsBut n _ k other).trans (others k other), run, (Dev.regsBut_read regs SIEVE_CTRL.SETTLE_MODE n 0 rfl).trans ?_, ?_, cmds⟩
  · rw [Dev.onCh_same, mine]
    rfl
  · exact (Dev.get_set_same ..).trans (Nat.mod_eq_of_lt small)
  · exact Dev.regsBut_trans (Dev.regsBut_set SIEVE_CTRL.SETTLE_MODE n 0 mode (d.regsBut_refl _) (by simp)) (Dev.regsBut_mono regs (by simp))

/-! ### Comparators and capture settings -/

theorem orderCmpSet_act (d : Dev) (mem : Memory) (c : Call) :
    orderCmpSet.act d mem c = (((d.cmpWrite c.m (c.bits 0 0 2) false (c.arg 1)).cmpWrite c.m (c.bits 0 0 2) true (c.bits 2 0 2), mem), okWith []) := rfl

/-- A comparator's levels and mode set together (R262). -/
theorem Dev.cmpSet_parts (d : Dev) (n k w mode : Nat) (level : signed 16 (bitsOf w 0 16) ≤ signed 16 (bitsOf w 16 16)) (legal : mode ≠ 3) (small : mode < 4) :
    let e := (d.cmpWrite n k false w).cmpWrite n k true mode
    d.onlyRegs e [CMPk_LVL.HI.at n k, CMPk_LVL.LO.at n k, CMPk_CTRL.MODE.at n k, CMPk_CTRL.ARMED.at n k] ∧ e.get CMPk_LVL.HI n k = bitsOf w 16 16 ∧ e.get CMPk_LVL.LO n k = bitsOf w 0 16
      ∧ e.get CMPk_CTRL.MODE n k = mode ∧ e.flag CMPk_CTRL.ARMED n k = false := by
  have same : bitsOf mode 0 2 = mode := by unfold bitsOf; omega
  have plain : bitAt mode 16 = false := Nat.testBit_lt_two_pow (Nat.lt_of_lt_of_le small (by decide))
  obtain ⟨hi, lo, levels⟩ := d.cmpWrite_level n k w (by omega)
  generalize d.cmpWrite n k false w = x at *
  obtain ⟨modes, armed, -, -, -⟩ := x.cmpWrite_ctrl n k mode (by rw [same]; exact legal)
  have eq : x.cmpWrite n k true mode = (x.set CMPk_CTRL.MODE n k mode).clear CMPk_CTRL.ARMED n k := by
    refine (if_pos rfl).trans ((if_neg (by rw [same]; exact legal)).trans ?_)
    rw [plain, same]
    rfl
  have ctrl : x.onlyRegs (x.cmpWrite n k true mode) [CMPk_CTRL.MODE.at n k, CMPk_CTRL.ARMED.at n k] := by
    rw [eq]
    exact Dev.onlyRegs_set _ _ _ _ (Dev.onlyRegs_set _ _ _ _ (x.onlyRegs_refl _) (by simp)) (by simp)
  exact ⟨Dev.onlyRegs_trans (Dev.onlyRegs_mono levels (by simp)) (Dev.onlyRegs_mono ctrl (by simp)), (Dev.regsBut_read ctrl.2 _ _ _ rfl).trans hi,
    (Dev.regsBut_read ctrl.2 _ _ _ rfl).trans lo, modes.trans same, armed⟩

theorem orderCapSet_act (d : Dev) (mem : Memory) (c : Call) :
    orderCapSet.act d mem c = (((d.capWrite c.ch (c.bits 0 0 2) false (c.arg 1)).capWrite c.ch (c.bits 0 0 2) true (c.arg 2), mem), okWith []) := rfl

/-- A capture setting and its length held together for the next joint (R264). -/
theorem Dev.capSet_parts (d : Dev) (n : Fin 8) (k w len : Nat) (legal : bitsOf w 0 2 ≠ 3) (some : bitsOf len 0 18 ≠ 0) :
    let e := (d.capWrite n k false w).capWrite n k true len
    d.acts e [] ∧ d.chsBut e n ∧ (2 * k, w) ∈ e.chs[n].sieve.capNext ∧ (2 * k + 1, len) ∈ e.chs[n].sieve.capNext := by
  have first : d.capWrite n k false w = d.onCh n (fun c => { c with sieve := { c.sieve with capNext := (c.sieve.capNext.filter (fun x => x.1 ≠ 2 * k + 0)) ++ [(2 * k + 0, w)] } }) :=
    if_neg (by simpa using legal)
  have second (x : Dev) : x.capWrite n k true len
      = x.onCh n (fun c => { c with sieve := { c.sieve with capNext := (c.sieve.capNext.filter (fun x => x.1 ≠ 2 * k + 1)) ++ [(2 * k + 1, len)] } }) :=
    if_neg (by simpa using some)
  rw [second, first]
  refine ⟨⟨rfl, rfl, d.regsBut_refl _⟩, fun j other => (Dev.onCh_chsBut _ n _ j other).trans (d.onCh_chsBut n _ j other), ?_, ?_⟩
  · rw [Dev.onCh_same, Dev.onCh_same]
    simp
  · rw [Dev.onCh_same]
    simp

/-! ### Capture rings -/

/-- A ring released (R269). -/
theorem Dev.ringDrop_parts (d e : Dev) (n k : Nat) (made : e = d.ringDrop n k) :
    d.keepsSlots e ∧ e.get CAPk_SIZE.SIZE n k = 0 ∧ e.mason.capRings = d.mason.capRings.filter (fun r => !(r.1 = n && r.2.1 = k)) := by
  unfold Dev.ringDrop at made
  extract_lets f s1 src x at made
  have start : d.keepsSlots x := ⟨rfl, rfl, fun _ _ _ _ => rfl⟩
  have rings : x.mason.capRings = d.mason.capRings.filter (fun r => !(r.1 = n && r.2.1 = k)) := rfl
  clear_value x
  have set : d.keepsSlots ((x.setPair CAPk_BASE_LO.BASE_LO CAPk_BASE_HI.BASE_HI n k (f.1 % 2 ^ 64)).set CAPk_SIZE.SIZE n k 0) :=
    Dev.keepsSlots_set (Dev.keepsSlots_set (Dev.keepsSlots_set start _ n k _ (by decide)) _ n k _ (by decide)) _ n k _ (by decide)
  have size : ((x.setPair CAPk_BASE_LO.BASE_LO CAPk_BASE_HI.BASE_HI n k (f.1 % 2 ^ 64)).set CAPk_SIZE.SIZE n k 0).get CAPk_SIZE.SIZE n k = 0 := Dev.get_set_same ..
  have mason : ((x.setPair CAPk_BASE_LO.BASE_LO CAPk_BASE_HI.BASE_HI n k (f.1 % 2 ^ 64)).set CAPk_SIZE.SIZE n k 0).mason = x.mason := rfl
  generalize (x.setPair CAPk_BASE_LO.BASE_LO CAPk_BASE_HI.BASE_HI n k (f.1 % 2 ^ 64)).set CAPk_SIZE.SIZE n k 0 = y at *
  obtain ⟨shows, same⟩ := y.keepsSlots_framesShow n
  rw [made]
  exact ⟨Dev.keepsSlots_trans set shows, (Dev.regsBut_read (y.framesShow_onlyRegs n).2 _ _ _ rfl).trans size, (congrArg Mason.capRings (same.trans mason)).trans rings⟩

/-- A ring taken (R269). -/
theorem Dev.ringTake_parts (d e : Dev) (n k first frames : Nat) (made : e = d.ringTake n k first frames) :
    d.keepsSlots e ∧ e.get CAPk_SIZE.SIZE n k = frames * 65536 % 2 ^ CAPk_SIZE.SIZE.w ∧ e.get CAPk_WR.WR n k = 0 ∧ e.get CAPk_RD.RD n k = 0 := by
  unfold Dev.ringTake at made
  extract_lets src x y at made
  have start : d.keepsSlots y :=
    Dev.keepsSlots_set (Dev.keepsSlots_set (Dev.keepsSlots_set (show d.keepsSlots x from ⟨rfl, rfl, fun _ _ _ _ => rfl⟩) _ n k _ (by decide)) _ n k _ (by decide)) _ n k _ (by decide)
  have size : y.get CAPk_SIZE.SIZE n k = frames * 65536 % 2 ^ CAPk_SIZE.SIZE.w := Dev.get_set_same ..
  clear_value y
  have set : d.keepsSlots ((y.set CAPk_WR.WR n k 0).set CAPk_RD.RD n k 0) := Dev.keepsSlots_set (Dev.keepsSlots_set start _ n k _ (by decide)) _ n k _ (by decide)
  have size' : ((y.set CAPk_WR.WR n k 0).set CAPk_RD.RD n k 0).get CAPk_SIZE.SIZE n k = frames * 65536 % 2 ^ CAPk_SIZE.SIZE.w :=
    (Dev.get_set_id _ _ _ _ _ _ _ _ (by decide)).trans ((Dev.get_set_id _ _ _ _ _ _ _ _ (by decide)).trans size)
  have wr : ((y.set CAPk_WR.WR n k 0).set CAPk_RD.RD n k 0).get CAPk_WR.WR n k = 0 := (Dev.get_set_id _ _ _ _ _ _ _ _ (by decide)).trans (Dev.get_set_same ..)
  have rd : ((y.set CAPk_WR.WR n k 0).set CAPk_RD.RD n k 0).get CAPk_RD.RD n k = 0 := Dev.get_set_same ..
  generalize (y.set CAPk_WR.WR n k 0).set CAPk_RD.RD n k 0 = z at *
  have only := (z.framesShow_onlyRegs n).2
  rw [made]
  exact ⟨Dev.keepsSlots_trans set (z.keepsSlots_framesShow n).1, (Dev.regsBut_read only _ _ _ rfl).trans size', (Dev.regsBut_read only _ _ _ rfl).trans wr,
    (Dev.regsBut_read only _ _ _ rfl).trans rd⟩

theorem orderCapRing_act (d : Dev) (mem : Memory) (c : Call) :
    orderCapRing.act d mem c = if d.get CAPk_CTRL.MODE c.m (c.bits 0 0 2) ≠ 0 then ((d, mem), busy3)
      else if c.arg 1 = 0 then ((d.ringDrop c.m (c.bits 0 0 2), mem), okWith [(d.ringDrop c.m (c.bits 0 0 2)).get CAPk_BASE_LO.BASE_LO c.m (c.bits 0 0 2),
        (d.ringDrop c.m (c.bits 0 0 2)).get CAPk_BASE_HI.BASE_HI c.m (c.bits 0 0 2)])
      else ringReserve c.ch (c.bits 0 0 2) (c.arg 1 / 65536) d mem := rfl

/-- A ring reserved in frames that are open (R269). -/
theorem ringReserve_takes (n : Fin 8) (k frames : Nat) (d : Dev) (mem : Memory) (dram : d.flag MSN_CHn_STAT.SRAM_ONLY n = false)
    (room : (d.free.2.ringDrop n k).ringRuns n frames [] ≠ []) :
    ∃ first, ringReserve n k frames d mem = (((d.free.2.ringDrop n k).ringTake n k first frames, mem),
      okWith [((d.free.2.ringDrop n k).ringTake n k first frames).get CAPk_BASE_LO.BASE_LO n k, ((d.free.2.ringDrop n k).ringTake n k first frames).get CAPk_BASE_HI.BASE_HI n k]) := by
  unfold ringReserve
  dsimp only
  rw [if_neg (by simp [dram])]
  split
  next => exact ⟨_, rfl⟩
  next none => exact absurd none room

/-! ### Calibration slots -/

theorem orderCalSlot_act (d : Dev) (mem : Memory) (c : Call) (n : Fin 8) (ch : c.ch = n) :
    orderCalSlot.act d mem c = if c.late d then ((d, mem), .done 6 [])
      else if d.chs[n].requested then ((d, mem), busy3)
      else (((d.enrol c 0x150 (c.land d) 1 0 [(PLB_CTRL.OWN.id, c.m)]).slotAccept n (c.bits 2 0 2) (c.land d) (.mbx c.m c.slot), mem), .goes) := by
  subst ch
  rfl

theorem orderCalMode_act (d : Dev) (mem : Memory) (c : Call) :
    orderCalMode.act d mem c = (((d.enrol c 0x151 (d.time.crs + 1) 1 0 [(PLB_CTRL.OWN.id, c.m)]).set PLB_CTRL.MODE c.m 0 (c.bits 0 0 1), mem), .goes) := rfl

theorem orderCalSave_act (d : Dev) (mem : Memory) (c : Call) :
    orderCalSave.act d mem c = if d.mayIssue then ((d.emit (.hostWrite (c.pair 0) (wordsBytes (d.liveSet c.m))), mem), okWith []) else ((d, mem), .stays) := rfl

/-- The words of a set that CAL_RESTORE has read, and what it does with them (R288). -/
def calRestored (n : Fin 8) (bytes : List (BitVec 8)) (d : Dev) (mem : Memory) (c : Call) : (Dev × Memory) × Answer :=
  if !d.setLegal c.m (leWords bytes) || d.chs[n].plumb.mode || d.flag PLB_CTRL.MODE c.m then ((d, mem), .done 3 [])
  else if !d.seqIdle c.m || d.chs[n].slot.isSome || d.get PLB_STAT.STATE c.m ≠ 0 then ((d, mem), busy3)
  else (((d.enrol c 0x153 (d.time.crs + 1) 1 0 [(PLB_CTRL.OWN.id, c.m)]).onCh n
    (fun x => { x with plumb := { x.plumb with load := some (some (leWords bytes), some (c.m, c.slot)) } }), mem), .goes)

theorem orderCalRestore_act (buf : Option (List (BitVec 8))) (d : Dev) (mem : Memory) (c : Call) (n : Fin 8) (ch : c.ch = n) :
    (orderCalRestore buf).act d mem c = if d.chs[n].plumb.load.isSome then ((d, mem), .stays) else withBuf buf (fun _ _ => 512) (calRestored n) d mem c := by
  subst ch
  cases buf with
  | none => rfl
  | some b => rfl

theorem calRestore_goes (buf : Option (List (BitVec 8))) (d : Dev) (mem : Memory) (c : Call) (n : Fin 8) (ch : c.ch = n) (idle : d.chs[n].plumb.load = none) :
    (orderCalRestore buf).act d mem c = withBuf buf (fun _ _ => 512) (calRestored n) d mem c :=
  (orderCalRestore_act buf d mem c n ch).trans (if_neg (by rw [idle]; decide))

theorem calRestore_asks (b : List (BitVec 8)) (d : Dev) (mem : Memory) (c : Call) (n : Fin 8) (ch : c.ch = n) (may : d.mayIssue = true) (idle : d.chs[n].plumb.load = none) :
    (orderCalRestore (some b)).act d mem c = calRestored n (bufBytes b 512) (d.emit (.hostRead (c.pair 0) 512)) mem c :=
  (calRestore_goes (some b) d mem c n ch idle).trans (if_pos may)

/-- What CAL_RESTORE answers to a set it has read: BAD_ARG where it may not be loaded, BUSY where the channel is not quiet, else it is held for the next joint (R288). -/
theorem calRestored_cases (n : Fin 8) (bytes : List (BitVec 8)) (d : Dev) (mem : Memory) (c : Call) :
    let bad := d.setLegal c.m (leWords bytes) = false ∨ d.chs[n].plumb.mode = true ∨ d.flag PLB_CTRL.MODE c.m = true
    let busy := d.seqIdle c.m = false ∨ d.chs[n].slot.isSome = true ∨ d.get PLB_STAT.STATE c.m ≠ 0
    (bad → calRestored n bytes d mem c = ((d, mem), .done 3 [])) ∧ (¬ bad → busy → calRestored n bytes d mem c = ((d, mem), busy3))
      ∧ (¬ bad → ¬ busy → calRestored n bytes d mem c = (((d.enrol c 0x153 (d.time.crs + 1) 1 0 [(PLB_CTRL.OWN.id, c.m)]).onCh n
        (fun x => { x with plumb := { x.plumb with load := some (some (leWords bytes), some (c.m, c.slot)) } }), mem), .goes)) := by
  have badIff : (!d.setLegal c.m (leWords bytes) || d.chs[n].plumb.mode || d.flag PLB_CTRL.MODE c.m) = true
      ↔ (d.setLegal c.m (leWords bytes) = false ∨ d.chs[n].plumb.mode = true ∨ d.flag PLB_CTRL.MODE c.m = true) := by
    simp only [Bool.or_eq_true, Bool.not_eq_true', or_assoc]
  have busyIff : (!d.seqIdle c.m || d.chs[n].slot.isSome || decide (d.get PLB_STAT.STATE c.m ≠ 0)) = true
      ↔ (d.seqIdle c.m = false ∨ d.chs[n].slot.isSome = true ∨ d.get PLB_STAT.STATE c.m ≠ 0) := by
    simp only [Bool.or_eq_true, Bool.not_eq_true', or_assoc, decide_eq_true_eq]
  exact ⟨fun h => if_pos (badIff.mpr h), fun h k => (if_neg (fun x => h (badIff.mp x))).trans (if_pos (busyIff.mpr k)),
    fun h k => (if_neg (fun x => h (badIff.mp x))).trans (if_neg (fun x => k (busyIff.mp x)))⟩

theorem slotAccept_cmds (d : Dev) (n : Fin 8) (kind land : Nat) (org : Origin) : (d.slotAccept n kind land org).cmds = d.cmds := by
  unfold Dev.slotAccept
  dsimp only
  split
  · exact (d.addAct_parts n (.slot kind) org land d.time.crs []).2.2.1
  · exact (d.addAct_parts n (.slot kind) org land d.time.crs []).2.2.1

/-- Settles O47, from what each command's meaning leaves before its answer. -/
theorem sieveMailbox : Obligations.SieveMailbox := by
  unfold Obligations.SieveMailbox
  intro s n slot
  dsimp only
  have ch := s.dev.call_ch n slot
  have fits (k : Nat) : (s.dev.call n.castSucc slot).arg k < 2 ^ 32 := Dev.call_arg_lt _ _ _ _
  have asks (b : List (BitVec 8)) (may : s.dev.mayIssue = true) (idle : s.dev.chs[n].plumb.load = none) := calRestore_asks b (s.dev.begun n.castSucc slot) s.mem (s.dev.call n.castSucc slot) n ch
    may idle
  have restores (b : List (BitVec 8)) := calRestored_cases n (bufBytes b 512) ((s.dev.begun n.castSucc slot).emit (.hostRead ((s.dev.call n.castSucc slot).pair 0) 512)) s.mem (s.dev.call n.castSucc slot)
  refine ⟨fun t => ⟨fun runs => ?_, fun stands => ?_⟩, fun t => ⟨fun runs => ?_, fun stands => ?_⟩, fun t => ⟨fun shut => ?_, fun fine => ?_⟩, fun t => ?_, fun t => ?_,
    fun t => ⟨fun used => ?_, fun free none => ?_, fun free some room => ?_⟩, fun t => ⟨fun late => ?_, fun early busy => ?_, fun early free => ?_⟩, fun t => ?_,
    fun t => ⟨fun may => ?_, fun may => ?_⟩, fun b t may idle => ⟨fun bad => ?_, fun fine busy => ?_, fun fine free => ?_⟩, fun buf t => ⟨fun waits => ?_, fun idle fails => ?_⟩⟩
  · obtain ⟨e, run, ends, reply⟩ := Order.run_idle (i := .tapSet n.castSucc slot) rfl t ((orderTapSet_act ..).trans (if_pos runs)) ⟨by decide, by simp⟩
    exact ⟨e, run, ends, (Dev.replied_fields reply).1⟩
  · obtain ⟨named, room⟩ : (s.dev.call n.castSucc slot).bits 0 8 4 < 8
        ∧ (s.dev.call n.castSucc slot).bits 0 16 4 + (presets.getD ((s.dev.call n.castSucc slot).bits 0 8 4) ⟨0, 1, [], 0⟩).chain.length ≤ 12 := by
      have legal := Bool.and_eq_true_iff.mp (Dev.takesUp_legal t)
      exact ⟨of_decide_eq_true legal.1, of_decide_eq_true legal.2⟩
    have isin : presets.getD ((s.dev.call n.castSucc slot).bits 0 8 4) ⟨0, 1, [], 0⟩ ∈ presets := by
      rw [List.getD_eq_getElem _ _ named]
      exact List.getElem_mem _
    have act := (orderTapSet_act (s.dev.begun n.castSucc slot) s.mem (s.dev.call n.castSucc slot)).trans (if_neg (Bool.eq_false_iff.mp stands))
    generalize presets.getD ((s.dev.call n.castSucc slot).bits 0 8 4) ⟨0, 1, [], 0⟩ = p at *
    obtain ⟨acts, chs, src, dec, base, num, en, settle, cic⟩ := (s.dev.begun n.castSucc slot).tapSet_parts n ((s.dev.call n.castSucc slot).bits 0 0 2) _ p isin room
    obtain ⟨e, run, ends, reply⟩ := Order.run_done (i := .tapSet n.castSucc slot) rfl t act ⟨acts.own, acts.time, acts.regs⟩ rfl ⟨by decide, by simp⟩
    exact ⟨e, run, ends, (Dev.replied_fields reply).1.trans chs, (reply.regs _ _ _ (by decide)).trans src, (reply.regs _ _ _ (by decide)).trans dec, (reply.regs _ _ _ (by decide)).trans base,
      (reply.regs _ _ _ (by decide)).trans num, (Dev.flag_of_get (reply.regs _ _ _ (by decide))).trans en, (reply.regs _ _ _ (by decide)).trans settle,
      fun h => (reply.regs _ _ _ (by decide)).trans (cic h)⟩
  · obtain ⟨e, run, ends, reply⟩ := Order.run_idle (i := .sosLoad n.castSucc slot) rfl t ((orderSosLoad_act ..).trans (if_pos runs)) ⟨by decide, by simp⟩
    exact ⟨e, run, ends, (Dev.replied_fields reply).1⟩
  · have room : (s.dev.call n.castSucc slot).bits 0 0 4 + (s.dev.call n.castSucc slot).bits 0 4 2 ≤ 12 := of_decide_eq_true (Bool.and_eq_true_iff.mp (Dev.takesUp_legal t)).2
    obtain ⟨only, vals, others⟩ := (s.dev.begun n.castSucc slot).sosLoad_parts n _ _ (fun i => (s.dev.call n.castSucc slot).arg (1 + i))
      ((List.range ((s.dev.call n.castSucc slot).bits 0 4 2)).map (· + (s.dev.call n.castSucc slot).bits 0 0 4)) room (fun i => fits (1 + i))
    obtain ⟨e, run, ends, chs, reply⟩ := Order.run_sets (i := .sosLoad n.castSucc slot) rfl t ((orderSosLoad_act ..).trans (if_neg (Bool.eq_false_iff.mp stands))) only rfl ⟨by decide, by simp⟩
    exact ⟨e, run, ends, chs, fun i low => (reply.regs _ _ _ (by decide)).trans (vals i low), fun i out => (reply.regs _ _ _ (by decide)).trans (others i out)⟩
  · obtain ⟨e, run, ends, reply⟩ := Order.run_idle (i := .sieveRun n.castSucc slot) rfl t ((orderSieveRun_act ..).trans (if_pos (by
      obtain ⟨on, stands, bad⟩ := shut
      simp only [Bool.and_eq_true, Bool.not_eq_true']
      exact ⟨⟨on, stands⟩, bad⟩))) ⟨by decide, by simp⟩
    exact ⟨e, run, ends, (Dev.replied_fields reply).1⟩
  · have act := (orderSieveRun_act (s.dev.begun n.castSucc slot) s.mem (s.dev.call n.castSucc slot)).trans (if_neg (fun h => fine (by
      simp only [Bool.and_eq_true, Bool.not_eq_true'] at h
      exact ⟨h.1.1, h.1.2, h.2⟩)))
    rw [ch] at act
    have run := Order.run_goes (i := .sieveRun n.castSucc slot) rfl t act
    obtain ⟨mine, others, flag, mode, regs, cmds⟩ := ((s.dev.begun n.castSucc slot).enrol (s.dev.call n.castSucc slot) 0x142 ((s.dev.begun n.castSucc slot).time.crs + 1) 1
      (if (s.dev.call n.castSucc slot).bits 0 0 1 = 1 then 1 else 0) [(SIEVE_CTRL.OWN.id, (s.dev.call n.castSucc slot).m)]).sieveBegin_parts n ((s.dev.call n.castSucc slot).bits 0 1 1)
      ((s.dev.call n.castSucc slot).arg 1) (decide ((s.dev.call n.castSucc slot).bits 0 0 1 = 1)) (Nat.mod_lt _ (by decide))
    exact ⟨_, run, ⟨_, _, List.mem_append_right _ (List.mem_singleton_self _)⟩, mine, others, flag, mode, regs⟩
  · have legal := Bool.and_eq_true_iff.mp (Dev.takesUp_legal t)
    obtain ⟨only, hi, lo, mode, armed⟩ := (s.dev.begun n.castSucc slot).cmpSet_parts n ((s.dev.call n.castSucc slot).bits 0 0 2) ((s.dev.call n.castSucc slot).arg 1)
      ((s.dev.call n.castSucc slot).bits 2 0 2) (of_decide_eq_true legal.1) (of_decide_eq_true legal.2) (Nat.mod_lt _ (by decide))
    obtain ⟨e, run, ends, chs, reply⟩ := Order.run_sets (i := .cmpSet n.castSucc slot) rfl t (orderCmpSet_act ..) only rfl ⟨by decide, by simp⟩
    exact ⟨e, run, ends, chs, (reply.regs _ _ _ (by decide)).trans hi, (reply.regs _ _ _ (by decide)).trans lo, (reply.regs _ _ _ (by decide)).trans mode,
      (Dev.flag_of_get (reply.regs _ _ _ (by decide))).trans armed⟩
  · have legal := Bool.and_eq_true_iff.mp (Dev.takesUp_legal t)
    have act := orderCapSet_act (s.dev.begun n.castSucc slot) s.mem (s.dev.call n.castSucc slot)
    rw [ch] at act
    obtain ⟨acts, others, first, second⟩ := (s.dev.begun n.castSucc slot).capSet_parts n ((s.dev.call n.castSucc slot).bits 0 0 2) ((s.dev.call n.castSucc slot).arg 1)
      ((s.dev.call n.castSucc slot).arg 2) (of_decide_eq_true legal.1) (of_decide_eq_true legal.2)
    obtain ⟨e, run, ends, reply⟩ := Order.run_done (i := .capSet n.castSucc slot) rfl t act ⟨acts.own, acts.time, acts.regs⟩ rfl ⟨by decide, by simp⟩
    have chs := (Dev.replied_fields reply).1
    refine ⟨e, run, ends, ?_, ?_, fun k other => ?_⟩
    · rw [chs]
      exact first
    · rw [chs]
      exact second
    · rw [chs]
      exact others k other
  · obtain ⟨e, run, ends, reply⟩ := Order.run_idle (i := .capRing n.castSucc slot) rfl t ((orderCapRing_act ..).trans (if_pos used)) ⟨by decide, by simp⟩
    exact ⟨e, run, ends, (Dev.replied_behind reply).2.1⟩
  · have act := (orderCapRing_act (s.dev.begun n.castSucc slot) s.mem (s.dev.call n.castSucc slot)).trans ((if_neg (not_not_intro free)).trans (if_pos none))
    obtain ⟨keeps, size, rings⟩ := (s.dev.begun n.castSucc slot).ringDrop_parts _ n ((s.dev.call n.castSucc slot).bits 0 0 2) rfl
    obtain ⟨e, run, answered, -, reply⟩ := Order.run_answers (i := .capRing n.castSucc slot) rfl t act ⟨keeps.own, keeps.time, keeps.regs⟩ ⟨by decide, by simp⟩
    exact ⟨e, _, _, run, answered, (reply.regs _ _ _ (by decide)).trans size, (congrArg Mason.capRings (Dev.replied_behind reply).2.1).trans rings⟩
  · obtain ⟨whole, large⟩ : (s.dev.call n.castSucc slot).arg 1 % 65536 = 0 ∧ (s.dev.call n.castSucc slot).arg 1 ≤ 2 ^ 30 := by
      have legal := Bool.and_eq_true_iff.mp (Dev.takesUp_legal t)
      exact ⟨of_decide_eq_true legal.1, of_decide_eq_true legal.2⟩
    have dram : (s.dev.begun n.castSucc slot).flag MSN_CHn_STAT.SRAM_ONLY n = false := by
      obtain ⟨-, -, -, -, -, -, dram⟩ := t
      exact dram n.isLt
    obtain ⟨first, takes⟩ := ringReserve_takes n ((s.dev.call n.castSucc slot).bits 0 0 2) ((s.dev.call n.castSucc slot).arg 1 / 65536) (s.dev.begun n.castSucc slot) s.mem dram room
    have act := (orderCapRing_act (s.dev.begun n.castSucc slot) s.mem (s.dev.call n.castSucc slot)).trans ((if_neg (not_not_intro free)).trans (if_neg some))
    rw [ch] at act
    have act := act.trans takes
    obtain ⟨keeps, -, -⟩ := (s.dev.begun n.castSucc slot).free.2.ringDrop_parts _ n ((s.dev.call n.castSucc slot).bits 0 0 2) rfl
    obtain ⟨keeps', size, wr, rd⟩ := ((s.dev.begun n.castSucc slot).free.2.ringDrop n ((s.dev.call n.castSucc slot).bits 0 0 2)).ringTake_parts _ n ((s.dev.call n.castSucc slot).bits 0 0 2)
      first ((s.dev.call n.castSucc slot).arg 1 / 65536) rfl
    generalize ((s.dev.begun n.castSucc slot).free.2.ringDrop n ((s.dev.call n.castSucc slot).bits 0 0 2)).ringTake n ((s.dev.call n.castSucc slot).bits 0 0 2)
      first ((s.dev.call n.castSucc slot).arg 1 / 65536) = x at *
    obtain ⟨e, run, answered, -, reply⟩ := Order.run_answers (i := .capRing n.castSucc slot) rfl t act (Dev.keepsSlots_trans (d := (s.dev.begun n.castSucc slot).free.2.ringDrop n ((s.dev.call n.castSucc slot).bits 0 0 2)) ⟨keeps.own, keeps.time, keeps.regs⟩ keeps')
      ⟨by decide, by simp⟩
    refine ⟨e, run, ?_, (reply.regs _ _ _ (by decide)).trans (size.trans ?_), (reply.regs _ _ _ (by decide)).trans wr, (reply.regs _ _ _ (by decide)).trans rd⟩
    · rw [reply.regs _ _ _ (by decide), reply.regs _ _ _ (by decide)]
      exact answered
    · show _ % 2 ^ 32 = _
      omega
  · obtain ⟨e, run, ends, reply⟩ := Order.run_idle (i := .calSlot n.castSucc slot) rfl t
      ((orderCalSlot_act _ _ _ n ch).trans (if_pos (((s.dev.call n.castSucc slot).late_begun s.dev n.castSucc slot).trans late))) ⟨by decide, by simp⟩
    exact ⟨e, run, ends, (Dev.replied_fields reply).1⟩
  · obtain ⟨e, run, ends, reply⟩ := Order.run_idle (i := .calSlot n.castSucc slot) rfl t
      ((orderCalSlot_act _ _ _ n ch).trans ((if_neg (Bool.eq_false_iff.mp early)).trans (if_pos busy))) ⟨by decide, by simp⟩
    exact ⟨e, run, ends, (Dev.replied_fields reply).1⟩
  · have act := (orderCalSlot_act (s.dev.begun n.castSucc slot) s.mem (s.dev.call n.castSucc slot) n ch).trans ((if_neg (Bool.eq_false_iff.mp early)).trans
      (if_neg (Bool.eq_false_iff.mp free)))
    have run := Order.run_goes (i := .calSlot n.castSucc slot) rfl t act
    obtain ⟨a, acts, kind, place, shows, regs, others⟩ := ((s.dev.begun n.castSucc slot).enrol (s.dev.call n.castSucc slot) 0x150 ((s.dev.call n.castSucc slot).land (s.dev.begun n.castSucc slot))
      1 0 [(PLB_CTRL.OWN.id, (s.dev.call n.castSucc slot).m)]).slotAccept_parts n ((s.dev.call n.castSucc slot).bits 2 0 2) ((s.dev.call n.castSucc slot).land (s.dev.begun n.castSucc slot))
      (.mbx (s.dev.call n.castSucc slot).m (s.dev.call n.castSucc slot).slot)
    refine ⟨_, a, run, ⟨0, [(PLB_CTRL.OWN.id, (s.dev.call n.castSucc slot).m)], ?_⟩, acts, kind, place, others, regs, fun h => ⟨(shows h).1, (shows h).2.trans (Nat.mod_mod _ _)⟩⟩
    rw [slotAccept_cmds]
    exact List.mem_append_right _ (List.mem_singleton_self _)
  · have run := Order.run_goes (i := .calMode n.castSucc slot) rfl t (orderCalMode_act ..)
    exact ⟨_, run, ⟨_, _, List.mem_append_right _ (List.mem_singleton_self _)⟩, (Dev.get_set_same ..).trans (Nat.mod_mod _ _),
      Dev.regsBut_set PLB_CTRL.MODE n 0 _ (fun _ _ _ _ => rfl) (by simp), rfl, rfl⟩
  · obtain ⟨e, run, ends, reply⟩ := Order.run_done (i := .calSave n.castSucc slot) rfl t (ks := []) ((orderCalSave_act ..).trans (if_pos may)) ⟨rfl, rfl, s.dev.regsBut_refl _⟩ rfl
      ⟨by decide, by simp⟩
    exact ⟨e, run, ends, (Dev.replied_fields reply).1, reply.sent.subset (List.mem_append_right _ (List.mem_singleton_self _))⟩
  · exact Order.run_waits (i := .calSave n.castSucc slot) rfl t ((orderCalSave_act ..).trans (if_neg (Bool.eq_false_iff.mp may)))
  · obtain ⟨e, run, ends, reply⟩ := Order.run_done (i := .calRestore n.castSucc slot (some b)) rfl t (ks := []) ((asks b may idle).trans ((restores b).1 bad)) ⟨rfl, rfl, s.dev.regsBut_refl _⟩ rfl
      ⟨by decide, by simp⟩
    exact ⟨e, run, ends, (Dev.replied_fields reply).1⟩
  · obtain ⟨e, run, ends, reply⟩ := Order.run_done (i := .calRestore n.castSucc slot (some b)) rfl t (ks := []) ((asks b may idle).trans ((restores b).2.1 fine busy)) ⟨rfl, rfl, s.dev.regsBut_refl _⟩ rfl
      ⟨by decide, by simp⟩
    exact ⟨e, run, ends, (Dev.replied_fields reply).1⟩
  · have run := Order.run_goes (i := .calRestore n.castSucc slot (some b)) rfl t ((asks b may idle).trans ((restores b).2.2 fine free))
    exact ⟨_, run, ⟨_, _, List.mem_append_right _ (List.mem_singleton_self _)⟩, Dev.onCh_same .., fun k other => Dev.onCh_chsBut _ n _ k other, rfl⟩
  · exact Order.run_waits (i := .calRestore n.castSucc slot buf) rfl t ((orderCalRestore_act _ _ _ _ n ch).trans (if_pos waits))
  · obtain ⟨e, run, ends, reply⟩ := Order.run_idle (i := .calRestore n.castSucc slot buf) rfl t
      ((calRestore_goes buf (s.dev.begun n.castSucc slot) s.mem (s.dev.call n.castSucc slot) n ch idle).trans (withBuf_fails (d := s.dev.begun n.castSucc slot) fails ..)) ⟨by decide, by simp⟩
    exact ⟨e, run, ends, (Dev.replied_fields reply).1⟩

end Sys2Proof.Machine
end

section
/-!
PROOF. The channel commands on the Mason and the DRAM (R310, R317, R321, R323, R376, R380, R385 to R387, R399, R400, R507).
-/
namespace Sys2Proof.Machine
open Reg

/-! ### Horizons and entry points -/

/-- Entry points 0 to k − 1 of a channel written. -/
def Dev.entrySet (d : Dev) (n k : Nat) (en step : Nat → Nat) : Dev := (List.range k).foldl (fun d x => (d.set MSN_ENTRYn_x.EN n x (en x)).set MSN_ENTRYn_x.STEP n x (step x)) d

/-- The registers of k entry points. -/
def entryKeys (n k : Nat) : List Key := (List.range k).flatMap (fun x => [MSN_ENTRYn_x.EN.at n x, MSN_ENTRYn_x.STEP.at n x])

theorem entryKeys_mono {n k j : Nat} (low : k ≤ j) : entryKeys n k ⊆ entryKeys n j := fun key isin => by
  obtain ⟨x, range, isKey⟩ := List.mem_flatMap.mp isin
  exact List.mem_flatMap.mpr ⟨x, List.mem_range.mpr (by have := List.mem_range.mp range; omega), isKey⟩

theorem Dev.entrySet_parts (d : Dev) (n k : Nat) (en step : Nat → Nat) :
    let e := d.entrySet n k en step
    d.onlyRegs e (entryKeys n k) ∧ ∀ x, x < k → e.get MSN_ENTRYn_x.EN n x = en x % 2 ^ MSN_ENTRYn_x.EN.w ∧ e.get MSN_ENTRYn_x.STEP n x = step x % 2 ^ MSN_ENTRYn_x.STEP.w := by
  induction k with
  | zero => exact ⟨d.onlyRegs_refl _, fun x low => absurd low (by omega)⟩
  | succ k ih =>
    have last : d.entrySet n (k + 1) en step = ((d.entrySet n k en step).set MSN_ENTRYn_x.EN n k (en k)).set MSN_ENTRYn_x.STEP n k (step k) := by
      unfold Dev.entrySet
      rw [List.range_succ, List.foldl_append]
      rfl
    obtain ⟨only, vals⟩ := ih
    dsimp only
    rw [last]
    generalize d.entrySet n k en step = y at *
    have isin (f : Fld) (h : f.at n k ∈ [MSN_ENTRYn_x.EN.at n k, MSN_ENTRYn_x.STEP.at n k]) : f.at n k ∈ entryKeys n (k + 1) :=
      List.mem_flatMap.mpr ⟨k, List.mem_range.mpr (by omega), h⟩
    refine ⟨Dev.onlyRegs_set _ _ _ _ (Dev.onlyRegs_set _ _ _ _ (Dev.onlyRegs_mono only (entryKeys_mono (by omega))) (isin _ (by simp))) (isin _ (by simp)), fun x low => ?_⟩
    rw [Dev.get_set_id _ _ _ _ _ _ _ _ (show MSN_ENTRYn_x.STEP.id ≠ MSN_ENTRYn_x.EN.id by decide)]
    rcases Nat.lt_succ_iff_lt_or_eq.mp low with less | rfl
    · have apart (f g : Fld) : (f.id, n, k) ≠ (g.id, n, x) := fun eq => absurd (Prod.mk.inj (Prod.mk.inj eq).2).2 (by omega)
      rw [Dev.get_set_other _ _ _ _ _ _ _ _ (apart _ _), Dev.get_set_other _ _ _ _ _ _ _ _ (apart _ _),
        Dev.get_set_id _ _ _ _ _ _ _ _ (show MSN_ENTRYn_x.EN.id ≠ MSN_ENTRYn_x.STEP.id by decide)]
      exact vals x less
    · exact ⟨Dev.get_set_same .., Dev.get_set_same ..⟩

theorem orderMsnSet_act (d : Dev) (mem : Memory) (c : Call) :
    orderMsnSet.act d mem c = ((((d.hzWrite c.ch false (c.arg 0)).hzWrite c.ch true (c.arg 1)).entrySet c.m 16 (fun x => c.bits 2 x 1) (fun x => c.bits (3 + x / 2) (16 * (x % 2)) 13), mem),
      okWith []) := rfl

/-- The registers of MSN_SET. -/
def msnKeys (n : Nat) : List Key := [MSN_HZn.LEAD.at n, MSN_HZn.HEAD.at n, MSN_CHn_STAT.HZ_PEND.at n, MSN_DHZn.DHZ.at n, MSN_STAT.CHECK_BUSY.at] ++ entryKeys n 16

/-- Horizons in range and entry points set together (R310, R317, R321). -/
theorem Dev.msnSet_parts (d : Dev) (n : Fin 8) (w v : Nat) (en step : Nat → Nat) (legal : d.hzOk n (bitsOf w 0 8) (bitsOf w 16 8) = true) (rate : 1 ≤ bitsOf v 0 16 ∧ bitsOf v 0 16 ≤ 60000) :
    let e := ((d.hzWrite n false w).hzWrite n true v).entrySet n 16 en step
    d.onlyRegs e (msnKeys n) ∧ e.flag MSN_STAT.CHECK_BUSY = true ∧ e.get MSN_HZn.LEAD n = bitsOf w 0 8 ∧ e.get MSN_HZn.HEAD n = bitsOf w 16 8 ∧ e.get MSN_DHZn.DHZ n = bitsOf v 0 16
      ∧ ∀ x, x < 16 → e.get MSN_ENTRYn_x.EN n x = en x % 2 ^ MSN_ENTRYn_x.EN.w ∧ e.get MSN_ENTRYn_x.STEP n x = step x % 2 ^ MSN_ENTRYn_x.STEP.w := by
  obtain ⟨lead, head, -, first⟩ := d.hzWrite_horizon n w legal
  generalize d.hzWrite n false w = x at *
  obtain ⟨dhz, busy, second⟩ := x.hzWrite_rate n v rate
  generalize x.hzWrite n true v = y at *
  obtain ⟨entries, vals⟩ := y.entrySet_parts n 16 en step
  dsimp only
  generalize y.entrySet n 16 en step = e at *
  exact ⟨Dev.onlyRegs_trans (Dev.onlyRegs_mono first (by simp [msnKeys])) (Dev.onlyRegs_trans (Dev.onlyRegs_mono second (by simp [msnKeys])) (Dev.onlyRegs_mono entries (List.subset_append_right _ _))),
    (Dev.flag_of_get (Dev.regsBut_read entries.2 _ _ _ rfl)).trans busy,
    (Dev.regsBut_read entries.2 _ _ _ rfl).trans ((Dev.regsBut_read second.2 _ _ _ rfl).trans (lead.trans (Nat.mod_mod _ _))),
    (Dev.regsBut_read entries.2 _ _ _ rfl).trans ((Dev.regsBut_read second.2 _ _ _ rfl).trans (head.trans (Nat.mod_mod_of_dvd _ (by decide)))),
    (Dev.regsBut_read entries.2 _ _ _ rfl).trans dhz, vals⟩

/-! ### The at-risk list -/

theorem orderMsnRisks_act (d : Dev) (mem : Memory) (c : Call) :
    orderMsnRisks.act d mem c = if !d.mayIssue then ((d, mem), .stays)
      else (((d.riskPublish mem c.ch).emit (.hostWrite (c.pair 0) (wordsBytes ((d.riskPublish mem c.ch).riskWords c.m))), mem),
        okWith [((d.riskPublish mem c.ch).emit (.hostWrite (c.pair 0) (wordsBytes ((d.riskPublish mem c.ch).riskWords c.m)))).get MSN_CHn_STAT.RISKS c.m,
          ((d.riskPublish mem c.ch).emit (.hostWrite (c.pair 0) (wordsBytes ((d.riskPublish mem c.ch).riskWords c.m)))).get MSN_CHn_STAT.READY c.m]) := rfl

theorem length_pairs {α β : Type} (l : List α) (f g : α → β) : (l.flatMap (fun x => [f x, g x])).length = 2 * l.length := by
  rw [List.length_flatMap, Nat.mul_comm]
  simp

/-- The list as it is written to the buffer: 256 entries of two words. -/
theorem riskWords_length (d : Dev) (n : Nat) : (d.riskWords n).length = 512 := by
  unfold Dev.riskWords
  rw [length_pairs, List.length_range]

/-! ### DRAM settings -/

theorem orderDramSet_act (d : Dev) (mem : Memory) (c : Call) :
    orderDramSet.act d mem c = (((((d.pageWrite c.m (c.bits 0 16 2)).lpSet c.m (c.arg 1)).set DMC_QOSp.TARGET c.m 4 (c.arg 2)).set DMC_QOSp.TARGET c.m 6 (c.arg 3), mem), okWith []) := rfl

/-- The registers of DRAM_SET. -/
def dramKeys (n : Nat) : List Key := [DMC_CTRL.PAGE.at n, DMC_LP.RETAIN.at n, DMC_LP.SR_TMR.at n, DMC_LP.PD_TMR.at n, DMC_QOSp.TARGET.at n 4, DMC_QOSp.TARGET.at n 6]

/-- Page policy, low power and the two service targets set together (R376, R380, R385). -/
theorem Dev.dramSet_parts (d : Dev) (n page w a b : Nat) (legal : page ≠ 3) (small : page < 4) :
    let e := (((d.pageWrite n page).lpSet n w).set DMC_QOSp.TARGET n 4 a).set DMC_QOSp.TARGET n 6 b
    d.onlyRegs e (dramKeys n) ∧ e.get DMC_CTRL.PAGE n = page ∧ e.get DMC_LP.RETAIN n = bitsOf w 24 2 ∧ e.get DMC_LP.SR_TMR n = bitsOf w 8 16 ∧ e.get DMC_LP.PD_TMR n = bitsOf w 0 8
      ∧ e.get DMC_QOSp.TARGET n 4 = a % 2 ^ DMC_QOSp.TARGET.w ∧ e.get DMC_QOSp.TARGET n 6 = b % 2 ^ DMC_QOSp.TARGET.w := by
  rw [show d.pageWrite n page = d.set DMC_CTRL.PAGE n 0 page from if_neg legal]
  obtain ⟨retain, sr, pd, low⟩ := (d.set DMC_CTRL.PAGE n 0 page).lpSet_parts n w
  have policy := (Dev.regsBut_read low.2 DMC_CTRL.PAGE n 0 rfl).trans ((d.get_set_same DMC_CTRL.PAGE n 0 page).trans (Nat.mod_eq_of_lt small))
  have first := Dev.onlyRegs_trans (Dev.onlyRegs_set DMC_CTRL.PAGE n 0 page (d.onlyRegs_refl (dramKeys n)) (by simp [dramKeys])) (Dev.onlyRegs_mono low (by simp [dramKeys]))
  generalize (d.set DMC_CTRL.PAGE n 0 page).lpSet n w = x at *
  have keep (f : Fld) (other : DMC_QOSp.TARGET.id ≠ f.id) : ((x.set DMC_QOSp.TARGET n 4 a).set DMC_QOSp.TARGET n 6 b).get f n = x.get f n :=
    (Dev.get_set_id _ _ _ _ _ _ _ _ other).trans (x.get_set_id _ _ _ _ _ _ _ other)
  exact ⟨Dev.onlyRegs_set _ _ _ _ (Dev.onlyRegs_set _ _ _ _ first (by simp [dramKeys])) (by simp [dramKeys]), (keep _ (by decide)).trans policy, (keep _ (by decide)).trans retain,
    (keep _ (by decide)).trans sr, (keep _ (by decide)).trans pd, (Dev.get_set_other _ _ _ _ _ _ _ _ (by simp)).trans (Dev.get_set_same ..), Dev.get_set_same ..⟩

/-! ### A rank that drains -/

/-- From `d` to `e` pages were moved: the channels, the time, the commands, and what the ranks show stay. -/
structure Dev.moves (d e : Dev) : Prop where
  chs : e.chs = d.chs
  time : e.time = d.time
  cmds : e.cmds = d.cmds
  regs : ∀ f n i, f.id ∈ [DMC_RANKr.STATE.id, DMC_STAT.DRAIN.id] → e.get f n i = d.get f n i

theorem Dev.moves_refl (d : Dev) : d.moves d := ⟨rfl, rfl, rfl, fun _ _ _ _ => rfl⟩

theorem Dev.moves_trans {d e f : Dev} (h : d.moves e) (k : e.moves f) : d.moves f :=
  ⟨k.chs.trans h.chs, k.time.trans h.time, k.cmds.trans h.cmds, fun g n i isin => (k.regs g n i isin).trans (h.regs g n i isin)⟩

/-- Registers moved by keys apart from a rank's state and its drain. -/
theorem Dev.moves_regs {d e : Dev} (chs : e.chs = d.chs) (time : e.time = d.time) (cmds : e.cmds = d.cmds) {ks : List Key} (regs : d.regsBut e ks)
    (apart : ks.all (fun k => k.1 != DMC_RANKr.STATE.id && k.1 != DMC_STAT.DRAIN.id) = true) : d.moves e := by
  refine ⟨chs, time, cmds, fun f n i isin => Dev.regsBut_read regs f n i (List.all_eq_true.mpr fun k mem => ?_)⟩
  obtain ⟨state, drain⟩ := Bool.and_eq_true_iff.mp (List.all_eq_true.mp apart k mem)
  simp only [List.mem_cons, List.not_mem_nil, or_false] at isin
  rcases isin with same | same
  · rw [same]
    exact state
  · rw [same]
    exact drain

theorem Dev.moves_request (d : Dev) (n r p : Nat) : d.moves (d.request n r p) := Dev.moves_regs rfl rfl rfl (d.request_regsBut n r p) rfl

theorem Dev.moves_framesShow (d : Dev) (n : Nat) : d.moves (d.framesShow n) := by
  obtain ⟨rest, regs⟩ := d.framesShow_onlyRegs n
  exact Dev.moves_regs (by rw [rest]) (by rw [rest]) (by rw [rest]) regs rfl

theorem moves_placeIn (n page frame : Nat) (held : Bool) (left : Nat) (bytes : List (BitVec 8)) (p : Dev × Memory) : p.1.moves (placeIn n page frame held left bytes p).1 := by
  unfold placeIn
  extract_lets d c src a b
  exact Dev.moves_trans (Dev.moves_trans (show d.moves a from ⟨rfl, rfl, rfl, fun _ _ _ _ => rfl⟩) (a.moves_request n _ 4)) (b.moves_framesShow n)

theorem moves_movePage (n f : Nat) (p : Dev × Memory) : p.1.moves (movePage n f p).1 := by
  unfold movePage
  dsimp only
  have read := p.1.moves_request n (p.1.rankOf f) 4
  have gone {q : Dev} (h : p.1.moves q) (mason : Mason) : p.1.moves { q with mason := mason } := ⟨h.chs, h.time, h.cmds, h.regs⟩
  split
  · exact p.1.moves_refl
  · split
    · exact gone (Dev.moves_trans read (moves_placeIn _ _ _ _ _ _ (p.1.request n (p.1.rankOf f) 4, p.2))) _
    · exact gone (Dev.moves_trans read (moves_placeIn _ _ _ _ _ _ (p.1.request n (p.1.rankOf f) 4, p.2))) _
    · split
      · exact gone p.1.moves_refl _
      · exact p.1.moves_refl

theorem moves_moveOut (n : Nat) (p : Dev × Memory) : p.1.moves (moveOut n p).1 :=
  foldl_keeps (fun q : Dev × Memory => p.1.moves q.1) (fun p f => movePage n f p) (p.1.leaving n) p (fun q f h => Dev.moves_trans h (moves_movePage n f q)) p.1.moves_refl

/-- A channel that holds no copy moves nothing. -/
theorem moveOut_none (n : Nat) (d : Dev) (mem : Memory) (none : d.mason.copies.filter (fun x => x.ch = n) = []) : moveOut n (d, mem) = (d, mem) := by
  have still : d.leaving n = [] := by
    have out : d.mason.copies.filter (fun c => c.ch = n && c.good && (d.mason.retire.contains (n, c.frame) || !d.frameOpen n c.frame)) = [] := by
      rw [List.filter_eq_nil_iff] at none ⊢
      exact fun c isin drains => none c isin (Bool.and_eq_true_iff.mp (Bool.and_eq_true_iff.mp drains).1).1
    unfold Dev.leaving
    rw [out]
    rfl
  unfold moveOut
  rw [still]
  rfl

theorem Dev.moves_rehome (d : Dev) (n r : Nat) : d.moves (d.rehome n r) ∧ (d.rehome n r).mason.copies = d.mason.copies := by
  unfold Dev.rehome
  split
  · exact ⟨d.moves_refl, rfl⟩
  · exact ⟨⟨rfl, rfl, rfl, fun _ _ _ _ => rfl⟩, rfl⟩

/-- The device once a rank shows that it drains, before its pages leave it. -/
def Dev.drainShown (d : Dev) (n r : Nat) : Dev := ((d.set DMC_RANKr.STATE n r 1).raise DMC_STAT.DRAIN n).notice 4 n [r, 1]

theorem Dev.drainShown_parts (d : Dev) (n r : Nat) :
    let e := d.drainShown n r
    e.chs = d.chs ∧ e.time = d.time ∧ e.cmds = d.cmds ∧ e.mason = d.mason ∧ e.get DMC_RANKr.STATE n r = 1 ∧ e.flag DMC_STAT.DRAIN n = true := by
  have regs := Dev.notice_regsBut ((d.set DMC_RANKr.STATE n r 1).raise DMC_STAT.DRAIN n) 4 n [r, 1]
  refine ⟨Dev.notice_chs .., Dev.notice_time .., Dev.notice_cmds .., Dev.notice_mason .., ?_, ?_⟩
  · exact (Dev.regsBut_read regs _ _ _ rfl).trans ((Dev.get_set_id _ _ _ _ _ _ _ _ (by decide)).trans (Dev.get_set_same ..))
  · exact (Dev.flag_of_get (Dev.regsBut_read regs _ _ _ rfl)).trans (Dev.flag_raise_same _ _ _ _ (by decide))

theorem rankDrain_eq (n r : Nat) (d : Dev) (mem : Memory) (inUse : d.get DMC_RANKr.STATE n r = 0) :
    rankDrain n r (d, mem) = if (d.drainShown n r).mirrors n then (d.drainShown n r, mem) else moveOut n ((d.drainShown n r).rehome n r, mem) :=
  if_neg (not_not_intro inUse)

/-- A rank begins to drain: its state, its flag, and what stays (R399, R402). -/
theorem rankDrain_parts (n r : Nat) (d : Dev) (mem : Memory) (inUse : d.get DMC_RANKr.STATE n r = 0) :
    let q := rankDrain n r (d, mem)
    q.1.chs = d.chs ∧ q.1.time = d.time ∧ q.1.cmds = d.cmds ∧ q.1.get DMC_RANKr.STATE n r = 1 ∧ q.1.flag DMC_STAT.DRAIN n = true
      ∧ (d.mason.copies.filter (fun x => x.ch = n) = [] → q.2 = mem) := by
  obtain ⟨chs, time, cmds, mason, state, drain⟩ := d.drainShown_parts n r
  dsimp only
  rw [rankDrain_eq n r d mem inUse]
  generalize d.drainShown n r = x at *
  split
  · exact ⟨chs, time, cmds, state, drain, fun _ => rfl⟩
  · obtain ⟨home, copies⟩ := x.moves_rehome n r
    obtain ⟨chs', time', cmds', regs⟩ := Dev.moves_trans home (moves_moveOut n (x.rehome n r, mem))
    refine ⟨chs'.trans chs, time'.trans time, cmds'.trans cmds, (regs _ _ _ (by decide)).trans state, (Dev.flag_of_get (regs _ _ _ (by decide))).trans drain, fun none => ?_⟩
    rw [moveOut_none n _ _ (by rw [copies, mason]; exact none)]

theorem orderDramDrain_act (d : Dev) (mem : Memory) (c : Call) :
    orderDramDrain.act d mem c = if d.get DMC_RANKr.STATE c.m (c.bits 0 0 1) = 3 then ((d, mem), .done 9 [])
      else (rankDrain c.m (c.bits 0 0 1) (d.enrol c 0x171 0 1 (c.bits 0 0 1) [], mem), .goes) := rfl

/-- Settles O48, from what each command's meaning leaves before its answer. -/
theorem storeMailbox : Obligations.StoreMailbox := by
  unfold Obligations.StoreMailbox
  intro s n slot
  dsimp only
  have ch := s.dev.call_ch n slot
  refine ⟨fun t => ?_, fun t => ⟨fun may => ?_, fun may => ?_⟩, fun t => ?_, fun t => ⟨fun out => ?_, fun kept busy => ?_, fun inUse => ?_⟩⟩
  · obtain ⟨⟨horizon, low⟩, high⟩ : ((s.dev.begun n.castSucc slot).hzOk n ((s.dev.call n.castSucc slot).bits 0 0 8) ((s.dev.call n.castSucc slot).bits 0 16 8) = true
        ∧ 1 ≤ (s.dev.call n.castSucc slot).bits 1 0 16) ∧ (s.dev.call n.castSucc slot).bits 1 0 16 ≤ 60000 := by
      have legal := Bool.and_eq_true_iff.mp (Dev.takesUp_legal t)
      exact ⟨⟨(Bool.and_eq_true_iff.mp legal.1).1, of_decide_eq_true (Bool.and_eq_true_iff.mp legal.1).2⟩, of_decide_eq_true legal.2⟩
    have act := orderMsnSet_act (s.dev.begun n.castSucc slot) s.mem (s.dev.call n.castSucc slot)
    rw [ch] at act
    obtain ⟨only, busy, lead, head, dhz, entries⟩ := (s.dev.begun n.castSucc slot).msnSet_parts n ((s.dev.call n.castSucc slot).arg 0) ((s.dev.call n.castSucc slot).arg 1)
      (fun x => (s.dev.call n.castSucc slot).bits 2 x 1) (fun x => (s.dev.call n.castSucc slot).bits (3 + x / 2) (16 * (x % 2)) 13) horizon ⟨low, high⟩
    obtain ⟨e, run, ends, chs, reply⟩ := Order.run_sets (i := .msnSet n.castSucc slot) rfl t act only rfl ⟨by decide, by simp⟩
    exact ⟨e, run, ends, chs, (Dev.flag_of_get (reply.regs _ _ _ (by decide))).trans busy, (reply.regs _ _ _ (by decide)).trans lead, (reply.regs _ _ _ (by decide)).trans head,
      (reply.regs _ _ _ (by decide)).trans dhz, fun x low => ⟨(reply.regs _ _ _ (by decide)).trans ((entries x low).1.trans (Nat.mod_mod _ _)),
        (reply.regs _ _ _ (by decide)).trans ((entries x low).2.trans (Nat.mod_mod _ _))⟩⟩
  · have act := (orderMsnRisks_act (s.dev.begun n.castSucc slot) s.mem (s.dev.call n.castSucc slot)).trans (if_neg (by
      rw [show (s.dev.begun n.castSucc slot).mayIssue = true from may]
      decide))
    rw [ch] at act
    obtain ⟨-, risks, -, -, chs, -⟩ := (s.dev.begun n.castSucc slot).riskPublish_parts _ s.mem n rfl
    obtain ⟨own, time, regs⟩ := (s.dev.begun n.castSucc slot).keepsSlots_riskPublish s.mem n
    generalize (s.dev.begun n.castSucc slot).riskPublish s.mem n = x at *
    obtain ⟨e, run, answered, time', reply⟩ := Order.run_answers (i := .msnRisks n.castSucc slot) rfl t act ⟨own, time, regs⟩ ⟨by decide, by simp⟩
    have count := reply.regs MSN_CHn_STAT.RISKS n 0 (by decide)
    have ready := reply.regs MSN_CHn_STAT.READY n 0 (by decide)
    refine ⟨e, _, run, ?_, count.trans risks, reply.sent.subset (List.mem_append_right _ (List.mem_singleton_self _)), ?_, (Dev.replied_fields reply).1.trans chs, time'⟩
    · rw [count, ready]
      exact answered
    · rw [wordsBytes_length, riskWords_length]
  · exact Order.run_waits (i := .msnRisks n.castSucc slot) rfl t ((orderMsnRisks_act ..).trans (if_pos (by
      rw [show (s.dev.begun n.castSucc slot).mayIssue = false from may]
      rfl)))
  · have legal : (s.dev.call n.castSucc slot).bits 0 16 2 ≠ 3 :=
      of_decide_eq_true (Bool.and_eq_true_iff.mp (Bool.and_eq_true_iff.mp (Bool.and_eq_true_iff.mp (Dev.takesUp_legal t)).1).1).1
    obtain ⟨only, page, retain, sr, pd, four, six⟩ := (s.dev.begun n.castSucc slot).dramSet_parts n ((s.dev.call n.castSucc slot).bits 0 16 2) ((s.dev.call n.castSucc slot).arg 1)
      ((s.dev.call n.castSucc slot).arg 2) ((s.dev.call n.castSucc slot).arg 3) legal (Nat.mod_lt _ (by decide))
    obtain ⟨e, run, ends, chs, reply⟩ := Order.run_sets (i := .dramSet n.castSucc slot) rfl t (orderDramSet_act ..) only rfl ⟨by decide, by simp⟩
    have read (f : Fld) (i : Nat) (other : f.id ∉ answerIds) {v : Nat} := (reply.regs f n i other).trans (c := v)
    exact ⟨e, run, ends, chs, read _ _ (by decide) page, read _ _ (by decide) retain, read _ _ (by decide) sr, read _ _ (by decide) pd, read _ _ (by decide) four, read _ _ (by decide) six⟩
  · obtain ⟨e, run, ends, reply⟩ := Order.run_idle (i := .dramDrain n.castSucc slot) rfl t ((orderDramDrain_act ..).trans (if_pos out)) ⟨by decide, by simp⟩
    exact ⟨e, run, ends, (Dev.replied_fields reply).1⟩
  · have run := Order.run_goes (i := .dramDrain n.castSucc slot) rfl t ((orderDramDrain_act ..).trans ((if_neg kept).trans (congrArg (fun p => (p, Answer.goes)) (if_pos busy))))
    exact ⟨_, run, ⟨_, _, List.mem_append_right _ (List.mem_singleton_self _)⟩, rfl⟩
  · have drains := rankDrain_parts n ((s.dev.call n.castSucc slot).bits 0 0 1) ((s.dev.begun n.castSucc slot).enrol (s.dev.call n.castSucc slot) 0x171 0 1
      ((s.dev.call n.castSucc slot).bits 0 0 1) []) s.mem inUse
    have act : orderDramDrain.act (s.dev.begun n.castSucc slot) s.mem (s.dev.call n.castSucc slot) = (rankDrain n ((s.dev.call n.castSucc slot).bits 0 0 1)
        ((s.dev.begun n.castSucc slot).enrol (s.dev.call n.castSucc slot) 0x171 0 1 ((s.dev.call n.castSucc slot).bits 0 0 1) [], s.mem), .goes) :=
      (orderDramDrain_act ..).trans (if_neg (fun out => absurd (out.symm.trans inUse) (by decide)))
    generalize rankDrain n ((s.dev.call n.castSucc slot).bits 0 0 1) _ = q at act drains
    obtain ⟨x, mem⟩ := q
    obtain ⟨chs, time, cmds, state, drain, still⟩ := drains
    have enrolled : (⟨n.castSucc, slot, 0x171, 0, 1, 0, (s.dev.call n.castSucc slot).bits 0 0 1, []⟩ : Cmd) ∈ x.cmds := cmds ▸ List.mem_append_right _ (List.mem_singleton_self _)
    exact ⟨_, Order.run_goes (i := .dramDrain n.castSucc slot) rfl t act, rfl, ⟨_, _, enrolled⟩, state, drain, chs, time, still⟩

end Sys2Proof.Machine
end
